-- ==== Sys2Proof/Word.lean ====
section
/-! DEFINITION. Word.lean: the word types, the sparse map type every table of the machine is held in, and the
three-copy field of a type T register. -/

namespace Sys2Proof

/-- A byte. -/
abbrev Byte := BitVec 8

/-- A register word: registers are 32 bits (R35). -/
abbrev Word := BitVec 32

/-- A 64-bit word. -/
abbrev DWord := BitVec 64

/-- A table by index: (index, entry) pairs with strictly rising indices and no entry equal to the table's default.
Its operations stand in Machine/SMap.lean. -/
abbrev SMap (α : Type) := List (Nat × α)

/-- A byte-addressed memory: what an unlisted address reads as is 0 (log entry 4). -/
abbrev Mem := SMap Byte

/-- A type T field: it is stored three times and voted (R49). -/
structure Tri (α : Type) where
  c0 : α
  c1 : α
  c2 : α
  deriving DecidableEq, Repr

/-- The three copies a write leaves (R49). -/
def Tri.of {α : Type} (x : α) : Tri α := ⟨x, x, x⟩

end Sys2Proof
end

