-- ==== Sys2Proof/Vocabulary.lean ====
section
/-! DEFINITION. Vocabulary.lean: the names the commands' operands use: requesters, address spaces, blocks that run
checks, T fields, the fields of a column processor instruction, and what comes in from the network, the members, the
peer devices and the boot. -/

namespace Sys2Proof

/-- The three parts of the family (00_scope.md, R2). -/
inductive Variant where
  | drz8640
  | drz8620
  | drz8610
  deriving DecidableEq, Repr

/-- Who makes a register access (02, table of requesters under R37): PF0, VF n (1 to 4096), steward w, JTAG. -/
inductive Req where
  | pf0
  | vf (n : Nat)
  | stw (w : Nat)
  | jtag
  deriving DecidableEq, Repr, Inhabited

/-- Which of the function's windows a register access names (R30, R32, R33). -/
inductive Space where
  | bar0
  | bar2
  deriving DecidableEq, Repr

/-- The blocks that run enable-time consistency checks (R55). -/
inductive CheckBlock where
  | glb
  | hif
  | arc
  | astore
  | net
  | plk
  | sdma
  | evc
  deriving DecidableEq, Repr

/-- The type T fields (R47, R227, R306, R345, R393, R475, R525). -/
inductive TField where
  | guard
  | tileMap (r : Nat)
  | pdiv
  | partEn (p : Nat)
  | partKsrc (p : Nat)
  | partPageMax (p : Nat)
  | partQmax (p : Nat)
  | partWcMax (p : Nat)
  | queueCtx (q : Nat)
  | queueSlot (q : Nat)
  | bankOwner (b : Nat)
  | arrGeom (a : Nat)
  | arrPos (a : Nat) (r : Nat)
  deriving DecidableEq, Repr

/-- Column processor `cp` of physical tile `tile`. -/
structure CpAt where
  tile : Nat
  cp : Nat
  deriving DecidableEq, Repr

/-- The fields of a V or VM format instruction (R184): D, A, B, PE, PM. -/
structure VFields where
  d : BitVec 5
  a : BitVec 5
  b : BitVec 5
  pe : Bool
  pm : BitVec 4
  deriving DecidableEq, Repr

/-- A typed value of a column (R153, R104): null, a truth value, an exact number (integers, DATE32, TS64, and DEC128
in units of its scale), the bits of an FP value, a byte string, the two parts of a CF32. -/
inductive Val where
  | null
  | bool (b : Bool)
  | int (z : Int)
  | f32 (b : BitVec 32)
  | f64 (b : BitVec 64)
  | bytes (bs : List Byte)
  | cf (re im : BitVec 32)
  deriving DecidableEq, Repr

/-- A row that travels between tiles and devices or stands in a materialisation: its row number in the morsel and its
values, with the types given by the sink that wrote it. -/
structure Row where
  ix : Nat
  vals : List Val
  deriving DecidableEq, Repr

/-- What the controller of a member reports when it is initialised (R264, R266): its capacity in 4 KiB blocks, its
LBA size code (0: 512 B, 3: 4,096 B), and whether its namespace keeps R264. -/
structure MemberInfo where
  cap : DWord
  lbas : BitVec 4
  nsOk : Bool
  deriving DecidableEq, Repr

/-- The outcome of one read or write that the device makes outside itself (R442): it succeeds, or ends in a bus error
(Unsupported Request, Completer Abort, poisoned data, a timeout, an uncorrectable memory error). -/
inductive BusResult where
  | ok
  | err
  deriving DecidableEq, Repr

/-- The units VIGIL_SVC serves (R481). -/
inductive SvcKind where
  | tile
  | bank
  | cmp
  | ers
  | hbm
  | steward
  deriving DecidableEq, Repr

/-- What the start-up steps find, which is the board's and the silicon's: the straps, the tiles and the HBM stack
that fail their test (R510). -/
structure BootEnv where
  devid : BitVec 3
  failTiles : BitVec 18
  failStack : Option Nat
  bootId : BitVec 128
  hostUp : Bool
  deriving DecidableEq, Repr, Inhabited

/-- What resets the host port (R506). -/
inductive HostResetCause where
  | perst
  | pf0Flr
  | vfEnableCleared
  deriving DecidableEq, Repr

/-! ## What the partner's copy of a write cache holds (R461 to R464) -/

namespace Machine

/-- A map run (R275). -/
structure Extent where
  vlba : Nat
  len : Nat
  /-- 0 data, 1 zeros, 2 LOST. -/
  kind : Nat
  abn : Nat
  seq : Nat
  deriving DecidableEq, Repr

/-- A journal record (R287). -/
inductive JBody where
  | stripeOpen (st gen stream : Nat)
  | parity (st state : Nat) (mask : BitVec 64)
  | mapDelta (vol : Nat) (es : List Extent)
  | moveDelta (vol : Nat) (e : Extent) (victim : Nat)
  | stripeCommit (st gen live : Nat)
  | stripeFree (st gen : Nat)
  | checkpoint (seq slot : Nat)
  | write (vol : Nat) (ctx : BitVec 13) (gen : BitVec 16) (vlba : Nat) (blocks : List Nat)
  | writeDone (seq : Nat)
  | trim (vol kind vlba blocks : Nat)
  deriving DecidableEq, Repr

/-- A journal record with its header's SEQ, and where it lies in the ring (R286). -/
structure JRec where
  seq : Nat
  /-- Its byte offset in the ring. -/
  ofs : Nat
  body : JBody
  deriving DecidableEq, Repr

/-- A block of a MIRROR array as mirroring carries it (R461 to R464): the array, the WRITE record it belongs to, its volume block, the
CTX and GEN of that record, its bytes. -/
structure MirBlk where
  arrayId : BitVec 128
  seq : Nat
  vol : Nat
  ctx : BitVec 13
  gen : BitVec 16
  lba : Nat
  data : List Byte
  deriving DecidableEq, Repr

end Machine

/-- How a member is lost (R265): its link went down, or its controller reported a fatal status. -/
inductive MemberLoss where
  | link (n : Nat)
  | fatalStatus (n : Nat)
  deriving DecidableEq, Repr

/-- A volume with the CTX and GEN its WRITE record carries (R13, R287, R463). -/
structure MirVol where
  vol : Nat
  ctx : BitVec 13
  gen : BitVec 16
  deriving DecidableEq, Repr

/-- A message of the partner about mirroring (R461, R462, R464): it has set EN, cleared EN, or reset; the fresh copy of one of its arrays;
WRITE_DONE records of its journal; its import of an array has completed. -/
inductive PartnerEvent where
  | enSet
  | enCleared
  | wasReset
  | copy (arrayId : BitVec 128) (journal : List Machine.JRec) (blocks : List Machine.MirBlk)
  | done (arrayId : BitVec 128) (seqs : List Nat)
  | imported (arrayId : BitVec 128)
  deriving DecidableEq, Repr

/-- A message of R464: the partner asks for its copy of an array, or sends the copy this device asked for. -/
inductive CopyMessage where
  | ask (arrayId : BitVec 128)
  | answer (arrayId : BitVec 128) (journal : List Machine.JRec) (blocks : List Machine.MirBlk)
  deriving DecidableEq, Repr

/-- The TCP options of a SYN, or those of the answer (R377): the shift of window scaling, SACK permitted, timestamps, the segment size. -/
structure TcpOpts where
  wscale : Option Nat := none
  sack : Bool := false
  stamps : Bool := false
  mss : Nat := 536
  deriving DecidableEq, Repr

/-- A SYN as a port sees it: the partition whose subsystem it is meant for, where something tells, its link-layer source address, its
options (R376, R377, R381). -/
structure Syn where
  target : Option Nat := none
  mac : BitVec 48 := 0
  opts : TcpOpts := {}
  deriving DecidableEq, Repr

/-- What a Connect carries beside its names (R381, R383, R387): KATO in ms, SQSIZE as the zero-based number of entries, and whether the data
digest of its in-capsule data is right. -/
structure ConnectParams where
  kato : Nat
  sqsize : Nat
  dataOk : Bool
  deriving DecidableEq, Repr

/-- The ranges of a Dataset Management, first block and blocks, and whether their data digest is right (R385, R387). -/
structure DsmData where
  ranges : List (Nat × Nat)
  dataOk : Bool
  deriving DecidableEq, Repr

/-- What is fatal about a PDU by itself (R382, R387): a type the transport does not list or the wrong direction's, an invalid field of its
header, its header digest. -/
inductive BadPdu where
  | type (n : Nat)
  | field
  | headerDigest
  deriving DecidableEq, Repr

end Sys2Proof
end

