-- ==== Sys2Proof/Syntax.lean ====
section
/-! DEFINITION. Syntax.lean: the commands of the block, one constructor per row of spec/opcode_table.json, with the
operands the row's rule gives it. -/

namespace Sys2Proof

/-- A command: a register access, a ring command, an instruction of a column processor, a protocol message, a timer,
a pin or a fault event (00 to 19; the table's rows in its order). -/
inductive Instr where
  /-- REGISTER_WRITE, R41. A write to a register that has no row of its own updates it under its type (RW, MW, SCT alias, G, T) and its discard conditions. -/
  | registerWrite (r : Req) (sp : Space) (off : Nat) (v : Word)
  /-- RESERVED_ACCESS, R51. An access to a reserved location, an absent unit, a non-SCT alias, the PEEK mirror on write, an unserved window or a bad size is refused per requester. -/
  | reservedAccess (r : Req) (sp : Space) (off size : Nat) (wr : Bool)
  /-- RC_CLEARING_READ, R42. A canonical read of an RC register by its clearing owner returns the bits and clears them, except for an event in the same SCLK. -/
  | rcClearingRead (r : Req) (off : Nat) (again : Word)
  /-- COUNTER_LOW_READ, R44. A read of the low word of a 64-bit counter latches its high word for that requester. -/
  | counterLowRead (r : Req) (off : Nat)
  /-- CLK_ALM_LO_READ, R29. A read of CLK_ALM_LO returns Almanac bits 31:0 and latches bits 63:32 for the requester. -/
  | clkAlmLoRead (r : Req)
  /-- GLB_GUARD_WRITE, R45. A key write to GLB_GUARD opens the lock for the requester, restarts its count, or is counted as a bad key. -/
  | glbGuardWrite (r : Req) (v : Word)
  /-- GUARD_EXPIRY, R45. The guard count reaches 0 after 1,024 SCLK without a G write and the lock re-arms. -/
  | guardExpiry
  /-- TRIPLICATED_FIELD_VOTE, R49. The background comparer votes every T field at least once per 4,096 SCLK, rewriting a single disagreeing copy. -/
  | triplicatedFieldVote (f : TField)
  /-- CONSISTENCY_CHECK_COMPLETE, R53. An enable-time consistency check completes, setting the enable bit on a pass or latching the reason code on failure. -/
  | consistencyCheckComplete (b : CheckBlock)
  /-- GENERATION_INCREMENT_REPORT, R18. A partition's generation increment is reported complete once every check point and every reachable bound peer holds the new value. -/
  | generationIncrementReport (p : Nat)
  /-- LOAD_PLAN, R74. LOAD_PLAN reads a plan image into partition HBM, checks it in order and returns a handle or the first failure. -/
  | loadPlan (id : Nat)
  /-- UNLOAD_PLAN, R75. UNLOAD_PLAN frees a loaded plan that has no run in progress. -/
  | unloadPlan (id : Nat)
  /-- RUN_PLAN, R77. RUN_PLAN checks the handle and parameters, runs the binding check and reserves the run's pages. -/
  | runPlan (id : Nat)
  /-- CANCEL_PLAN, R94. CANCEL_PLAN stops claiming for a run, abandons its in-flight morsels without a count and frees its materialisations. -/
  | cancelPlan (id : Nat)
  /-- RUN_TIMEOUT, R370. TIMEOUT_US of a RUN_PLAN elapses and the run ends as a cancel with 0x0800. -/
  | runTimeout (id : Nat)
  /-- MORSEL_CLAIM, R84. At a morsel boundary a TSEQ picks a partition, run, pipeline and morsel and claims it at the pipeline's cursor. -/
  | morselClaim (t : Nat)
  /-- MORSEL_COMPLETE, R83. A TSEQ reports a morsel complete after its sink writes, checkpoint and STORE commit are acknowledged, and the ledger entry becomes DONE. -/
  | morselComplete (t k : Nat) (agree : Bool)
  /-- MATERIALISATION_COMPLETE, R89. Every producer morsel is DONE and any final merge of partials is written, so consumer pipelines become runnable. -/
  | materialisationComplete (run mat : Nat)
  /-- MATERIALISATION_ERROR, R92. An uncorrected error in a complete materialisation discards it and reruns its producer, or fails the run on the second time. -/
  | materialisationError (run mat : Nat)
  /-- STORE_COMMIT, R87. ARC commits the staged STORE segment of a (run, pipeline, morsel) key and acknowledges it. -/
  | storeCommit (run pipe m : Nat)
  /-- STORE_PLACE, R148. When a STORE pipeline completes, ARC places the committed segments and the manifest into the named region by map updates. -/
  | storePlace (run pipe : Nat)
  /-- EXCHANGE_ROWS, R458. Rows sent by EXCHANGE arrive at a receiving device and are placed in the matching run's exchange buffer segment. -/
  | exchangeRows (dev bind : Nat) (exkey : Word) (ctx : BitVec 13) (gen : BitVec 16) (mat pipe m bucket : Nat) (rows : List Row)
  /-- EXCHANGE_END_MARKER, R458. An end marker for a producer pipeline arrives, completing the exchange buffer once all D devices' markers are present. -/
  | exchangeEndMarker (dev bind : Nat) (exkey : Word) (mat pipe : Nat)
  /-- EXCHANGE_ABORT_MARKER, R460. An abort marker from a peer run fails the local exchanging run with 0x0410. -/
  | exchangeAbortMarker (dev bind : Nat) (exkey : Word)
  /-- NOCLAIM_WRITE, R100. A write of NOCLAIM in TILE_TSEQ_CTL stops a tile claiming new morsels while in-flight ones complete. -/
  | noclaimWrite (r : Req) (t : Nat) (v : Word)
  /-- STAGING_FILL_COMPLETE, R197. TDMA finishes bringing a 64 KiB constant-pool window into scratch and the faulting CP instruction runs again from RIX. -/
  | stagingFillComplete (u : CpAt) (win : Nat)
  /-- KERNEL_WATCHDOG_EXPIRY, R205. CYCLE reaches the kernel's watchdog limit and the kernel fails with 0x0465. -/
  | kernelWatchdogExpiry (u : CpAt)
  /-- RANGE_OPERATION_COMPLETE, R213. The tile's range engine finishes a CP's range operation, clearing BUSY and counting skipped lines. -/
  | rangeOperationComplete (t : Nat)
  /-- CACHE_DISABLE_FLUSH, R214. Writing CEN from 1 to 0 flushes and invalidates the CP cache, after which accesses run uncached. -/
  | cacheDisableFlush (r : Req) (u : CpAt)
  /-- CACHE_ENABLE, R215. Writing CEN to 1 enables the CP cache empty, held until any flush ends. -/
  | cacheEnable (r : Req) (u : CpAt)
  /-- ILLEGAL_INSTRUCTION, R185. An invalid MAJOR, FN or non-zero reserved field fails the kernel with 0x0460. -/
  | illegalInstruction (u : CpAt) (w : Word)
  /-- ADD, R187. Scalar add, wrapping. -/
  | add (u : CpAt) (d a b : BitVec 5)
  /-- SUB, R187. Scalar subtract, wrapping. -/
  | sub (u : CpAt) (d a b : BitVec 5)
  /-- MUL, R187. Scalar multiply, low 64 bits. -/
  | mul (u : CpAt) (d a b : BitVec 5)
  /-- MULH, R187. Scalar signed multiply, high 64 bits. -/
  | mulh (u : CpAt) (d a b : BitVec 5)
  /-- MULHU, R187. Scalar unsigned multiply, high 64 bits. -/
  | mulhu (u : CpAt) (d a b : BitVec 5)
  /-- DIV, R187. Scalar signed division truncating toward zero, setting DZ or OV. -/
  | div (u : CpAt) (d a b : BitVec 5)
  /-- DIVU, R187. Scalar unsigned division, setting DZ on zero divisor. -/
  | divu (u : CpAt) (d a b : BitVec 5)
  /-- REM, R187. Scalar signed remainder with the dividend's sign. -/
  | rem (u : CpAt) (d a b : BitVec 5)
  /-- REMU, R187. Scalar unsigned remainder. -/
  | remu (u : CpAt) (d a b : BitVec 5)
  /-- AND, R186. Scalar bitwise and. -/
  | and (u : CpAt) (d a b : BitVec 5)
  /-- OR, R186. Scalar bitwise or. -/
  | or (u : CpAt) (d a b : BitVec 5)
  /-- XOR, R186. Scalar bitwise xor. -/
  | xor (u : CpAt) (d a b : BitVec 5)
  /-- SHL, R187. Scalar shift left by the low 6 bits. -/
  | shl (u : CpAt) (d a b : BitVec 5)
  /-- SHR, R187. Scalar logical shift right. -/
  | shr (u : CpAt) (d a b : BitVec 5)
  /-- SAR, R187. Scalar arithmetic shift right. -/
  | sar (u : CpAt) (d a b : BitVec 5)
  /-- ROTL, R186. Scalar rotate left. -/
  | rotl (u : CpAt) (d a b : BitVec 5)
  /-- SLT, R186. Scalar signed set-less-than. -/
  | slt (u : CpAt) (d a b : BitVec 5)
  /-- SLTU, R186. Scalar unsigned set-less-than. -/
  | sltu (u : CpAt) (d a b : BitVec 5)
  /-- MIN, R186. Scalar signed minimum. -/
  | min (u : CpAt) (d a b : BitVec 5)
  /-- MAX, R186. Scalar signed maximum. -/
  | max (u : CpAt) (d a b : BitVec 5)
  /-- MINU, R186. Scalar unsigned minimum. -/
  | minu (u : CpAt) (d a b : BitVec 5)
  /-- MAXU, R186. Scalar unsigned maximum. -/
  | maxu (u : CpAt) (d a b : BitVec 5)
  /-- CLZ, R186. Scalar count of leading zeros. -/
  | clz (u : CpAt) (d a : BitVec 5)
  /-- CTZ, R186. Scalar count of trailing zeros. -/
  | ctz (u : CpAt) (d a : BitVec 5)
  /-- POPC, R186. Scalar population count. -/
  | popc (u : CpAt) (d a : BitVec 5)
  /-- ADDO, R187. Scalar checked add, setting OV on signed overflow. -/
  | addo (u : CpAt) (d a b : BitVec 5)
  /-- SUBO, R187. Scalar checked subtract, setting OV on signed overflow. -/
  | subo (u : CpAt) (d a b : BitVec 5)
  /-- MULO, R187. Scalar checked multiply, setting OV on signed overflow. -/
  | mulo (u : CpAt) (d a b : BitVec 5)
  /-- SEXT, R186. Scalar sign extension from 8, 16 or 32 bits. -/
  | sext (u : CpAt) (d a b : BitVec 5)
  /-- ZEXT, R186. Scalar zero extension from 8, 16 or 32 bits. -/
  | zext (u : CpAt) (d a b : BitVec 5)
  /-- ADDI, R186. Scalar add of a sign-extended immediate. -/
  | addi (u : CpAt) (d a : BitVec 5) (imm : BitVec 16)
  /-- ANDI, R186. Scalar and with a zero-extended immediate. -/
  | andi (u : CpAt) (d a : BitVec 5) (imm : BitVec 16)
  /-- ORI, R186. Scalar or with a zero-extended immediate. -/
  | ori (u : CpAt) (d a : BitVec 5) (imm : BitVec 16)
  /-- XORI, R186. Scalar xor with a zero-extended immediate. -/
  | xori (u : CpAt) (d a : BitVec 5) (imm : BitVec 16)
  /-- SHLI, R186. Scalar shift left by an immediate. -/
  | shli (u : CpAt) (d a : BitVec 5) (imm : BitVec 16)
  /-- SHRI, R186. Scalar logical shift right by an immediate. -/
  | shri (u : CpAt) (d a : BitVec 5) (imm : BitVec 16)
  /-- SARI, R186. Scalar arithmetic shift right by an immediate. -/
  | sari (u : CpAt) (d a : BitVec 5) (imm : BitVec 16)
  /-- LUI, R186. Load the sign-extended immediate times 65,536. -/
  | lui (u : CpAt) (d a : BitVec 5) (imm : BitVec 16)
  /-- SLTI, R186. Scalar set-less-than a sign-extended immediate. -/
  | slti (u : CpAt) (d a : BitVec 5) (imm : BitVec 16)
  /-- FADD, R188. Scalar FP add. -/
  | fadd (u : CpAt) (d a b : BitVec 5) (dbl : Bool)
  /-- FSUB, R188. Scalar FP subtract. -/
  | fsub (u : CpAt) (d a b : BitVec 5) (dbl : Bool)
  /-- FMUL, R188. Scalar FP multiply. -/
  | fmul (u : CpAt) (d a b : BitVec 5) (dbl : Bool)
  /-- FDIV, R188. Scalar FP divide. -/
  | fdiv (u : CpAt) (d a b : BitVec 5) (dbl : Bool)
  /-- FSQRT, R188. Scalar FP square root. -/
  | fsqrt (u : CpAt) (d a : BitVec 5) (dbl : Bool)
  /-- FMIN, R188. Scalar FP minimum with canonical NaN rule. -/
  | fmin (u : CpAt) (d a b : BitVec 5) (dbl : Bool)
  /-- FMAX, R188. Scalar FP maximum with canonical NaN rule. -/
  | fmax (u : CpAt) (d a b : BitVec 5) (dbl : Bool)
  /-- FEQ, R188. Scalar FP equality compare writing 1 or 0. -/
  | feq (u : CpAt) (d a b : BitVec 5) (dbl : Bool)
  /-- FLT, R188. Scalar FP less-than compare. -/
  | flt (u : CpAt) (d a b : BitVec 5) (dbl : Bool)
  /-- FLE, R188. Scalar FP less-or-equal compare. -/
  | fle (u : CpAt) (d a b : BitVec 5) (dbl : Bool)
  /-- FCVTI, R188. Scalar FP to INT64 conversion truncating toward zero. -/
  | fcvti (u : CpAt) (d a : BitVec 5) (dbl : Bool)
  /-- FCVTF, R188. Scalar INT64 to FP conversion rounding to nearest even. -/
  | fcvtf (u : CpAt) (d a : BitVec 5) (dbl : Bool)
  /-- FCVTP, R186. Scalar FP precision conversion. -/
  | fcvtp (u : CpAt) (d a : BitVec 5) (dbl : Bool)
  /-- FMA, R188. Scalar fused multiply-add into G[D], rounded once. -/
  | fma (u : CpAt) (d a b : BitVec 5) (dbl : Bool)
  /-- LB, R194. Scalar signed byte load. -/
  | lb (u : CpAt) (d a : BitVec 5) (imm : BitVec 16)
  /-- LH, R194. Scalar signed halfword load. -/
  | lh (u : CpAt) (d a : BitVec 5) (imm : BitVec 16)
  /-- LW, R194. Scalar signed word load. -/
  | lw (u : CpAt) (d a : BitVec 5) (imm : BitVec 16)
  /-- LD, R194. Scalar doubleword load. -/
  | ld (u : CpAt) (d a : BitVec 5) (imm : BitVec 16)
  /-- LBU, R194. Scalar unsigned byte load. -/
  | lbu (u : CpAt) (d a : BitVec 5) (imm : BitVec 16)
  /-- LHU, R194. Scalar unsigned halfword load. -/
  | lhu (u : CpAt) (d a : BitVec 5) (imm : BitVec 16)
  /-- LWU, R194. Scalar unsigned word load. -/
  | lwu (u : CpAt) (d a : BitVec 5) (imm : BitVec 16)
  /-- SB, R194. Scalar byte store. -/
  | sb (u : CpAt) (d a : BitVec 5) (imm : BitVec 16)
  /-- SH, R194. Scalar halfword store. -/
  | sh (u : CpAt) (d a : BitVec 5) (imm : BitVec 16)
  /-- SW, R194. Scalar word store. -/
  | sw (u : CpAt) (d a : BitVec 5) (imm : BitVec 16)
  /-- SD, R194. Scalar doubleword store. -/
  | sd (u : CpAt) (d a : BitVec 5) (imm : BitVec 16)
  /-- BEQ, R186. Branch if equal. -/
  | beq (u : CpAt) (a b : BitVec 5) (ofs : BitVec 16)
  /-- BNE, R186. Branch if not equal. -/
  | bne (u : CpAt) (a b : BitVec 5) (ofs : BitVec 16)
  /-- BLT, R186. Branch if signed less than. -/
  | blt (u : CpAt) (a b : BitVec 5) (ofs : BitVec 16)
  /-- BGE, R186. Branch if signed greater or equal. -/
  | bge (u : CpAt) (a b : BitVec 5) (ofs : BitVec 16)
  /-- BLTU, R186. Branch if unsigned less than. -/
  | bltu (u : CpAt) (a b : BitVec 5) (ofs : BitVec 16)
  /-- BGEU, R186. Branch if unsigned greater or equal. -/
  | bgeu (u : CpAt) (a b : BitVec 5) (ofs : BitVec 16)
  /-- JMP, R186. Relative jump. -/
  | jmp (u : CpAt) (ofs : BitVec 26)
  /-- JAL, R186. Relative jump writing the link address to G31. -/
  | jal (u : CpAt) (ofs : BitVec 26)
  /-- VLD, R196. Unit-stride vector load. -/
  | vld (u : CpAt) (f : VFields)
  /-- VLDS, R196. Strided vector load. -/
  | vlds (u : CpAt) (f : VFields)
  /-- VLDX, R196. Indexed vector gather load. -/
  | vldx (u : CpAt) (f : VFields)
  /-- VLDFF, R198. Fault-first indexed load that clears predicate bits instead of trapping. -/
  | vldff (u : CpAt) (f : VFields)
  /-- VST, R196. Unit-stride vector store. -/
  | vst (u : CpAt) (f : VFields)
  /-- VSTS, R196. Strided vector store. -/
  | vsts (u : CpAt) (f : VFields)
  /-- VSTX, R196. Indexed vector scatter store. -/
  | vstx (u : CpAt) (f : VFields)
  /-- HALT, R203. A CP halts, waiting for any busy range operation, ending its part of the kernel. -/
  | halt (u : CpAt)
  /-- FENCE, R199. Waits until every earlier memory instruction and range operation of the CP has completed. -/
  | fence (u : CpAt)
  /-- RDSR, R179. Reads a special register into G[D]. -/
  | rdsr (u : CpAt) (d a : BitVec 5)
  /-- WRSR, R179. Writes a read-write special register from G[A]. -/
  | wrsr (u : CpAt) (d a : BitVec 5)
  /-- TRAP, R206. Ends the run with 0x040C for code 0 or 0x0466 otherwise. -/
  | trap (u : CpAt) (a : BitVec 5)
  /-- JR, R186. Jump to G[A] writing the return address to G[D]. -/
  | jr (u : CpAt) (d a : BitVec 5)
  /-- NOP, R186. No operation. -/
  | nop (u : CpAt)
  /-- DCZ, R211. Allocates the line without fetching, zeroes it and marks it dirty. -/
  | dcz (u : CpAt) (a : BitVec 5)
  /-- DCL, R211. Writes the line back if dirty. -/
  | dcl (u : CpAt) (a : BitVec 5)
  /-- DCI, R211. Drops the line without write-back. -/
  | dci (u : CpAt) (a : BitVec 5)
  /-- DCCI, R211. Writes the line back and drops it. -/
  | dcci (u : CpAt) (a : BitVec 5)
  /-- DLOCK, R212. Fetches and locks the line, writing 1, or writes 0 when 8 lines are locked. -/
  | dlock (u : CpAt) (d a : BitVec 5)
  /-- DUNLOCK, R212. Clears the lock of a line. -/
  | dunlock (u : CpAt) (a : BitVec 5)
  /-- RNGC, R213. Queues a range clean on the tile's range engine. -/
  | rngc (u : CpAt) (a b : BitVec 5)
  /-- RNGI, R213. Queues a range invalidate, skipping locked lines. -/
  | rngi (u : CpAt) (a b : BitVec 5)
  /-- RNGCI, R213. Queues a range clean and invalidate, skipping locked lines. -/
  | rngci (u : CpAt) (a b : BitVec 5)
  /-- RNGI_INCLUDE_LOCKED, R213. Queues a range invalidate that also invalidates and unlocks locked lines. -/
  | rngiIncludeLocked (u : CpAt) (a b : BitVec 5)
  /-- RNGCI_INCLUDE_LOCKED, R213. Queues a range clean and invalidate that also unlocks locked lines. -/
  | rngciIncludeLocked (u : CpAt) (a b : BitVec 5)
  /-- VCFG, R180. Sets SEW and group factor and grants VL. -/
  | vcfg (u : CpAt) (d a : BitVec 5) (imm : BitVec 16)
  /-- VREDSUM, R192. Wrapping integer sum reduction into G[D]. -/
  | vredsum (u : CpAt) (f : VFields)
  /-- VREDMIN, R192. Signed minimum reduction. -/
  | vredmin (u : CpAt) (f : VFields)
  /-- VREDMAX, R192. Signed maximum reduction. -/
  | vredmax (u : CpAt) (f : VFields)
  /-- VREDMINU, R192. Unsigned minimum reduction. -/
  | vredminu (u : CpAt) (f : VFields)
  /-- VREDMAXU, R192. Unsigned maximum reduction. -/
  | vredmaxu (u : CpAt) (f : VFields)
  /-- VFREDSUM, R192. FP sum reduction in ascending element order. -/
  | vfredsum (u : CpAt) (f : VFields)
  /-- VFREDMIN, R192. FP minimum reduction. -/
  | vfredmin (u : CpAt) (f : VFields)
  /-- VFREDMAX, R192. FP maximum reduction. -/
  | vfredmax (u : CpAt) (f : VFields)
  /-- VGET, R192. Reads one element into G[D]. -/
  | vget (u : CpAt) (f : VFields)
  /-- VINS, R192. Writes G[A] into one element. -/
  | vins (u : CpAt) (f : VFields)
  /-- VIOTA, R192. Writes each active element's index. -/
  | viota (u : CpAt) (f : VFields)
  /-- VCOMPRESS, R192. Packs the active elements to the front of V[D]. -/
  | vcompress (u : CpAt) (f : VFields)
  /-- VPERM, R192. Permutes elements by index. -/
  | vperm (u : CpAt) (f : VFields)
  /-- VSLUP, R192. Slides elements up by G[B]. -/
  | vslup (u : CpAt) (f : VFields)
  /-- VSLDN, R192. Slides elements down by G[B]. -/
  | vsldn (u : CpAt) (f : VFields)
  /-- VADD, R187. Vector add, with B a vector or a G register. -/
  | vadd (u : CpAt) (f : VFields) (x : Bool)
  /-- VSUB, R187. Vector subtract. -/
  | vsub (u : CpAt) (f : VFields) (x : Bool)
  /-- VMUL, R187. Vector multiply, low bits. -/
  | vmul (u : CpAt) (f : VFields) (x : Bool)
  /-- VMULH, R187. Vector signed multiply, high bits. -/
  | vmulh (u : CpAt) (f : VFields) (x : Bool)
  /-- VMULHU, R187. Vector unsigned multiply, high bits. -/
  | vmulhu (u : CpAt) (f : VFields) (x : Bool)
  /-- VDIV, R187. Vector signed division. -/
  | vdiv (u : CpAt) (f : VFields) (x : Bool)
  /-- VDIVU, R187. Vector unsigned division. -/
  | vdivu (u : CpAt) (f : VFields) (x : Bool)
  /-- VREM, R187. Vector signed remainder. -/
  | vrem (u : CpAt) (f : VFields) (x : Bool)
  /-- VREMU, R187. Vector unsigned remainder. -/
  | vremu (u : CpAt) (f : VFields) (x : Bool)
  /-- VAND, R186. Vector bitwise and. -/
  | vand (u : CpAt) (f : VFields) (x : Bool)
  /-- VOR, R186. Vector bitwise or. -/
  | vor (u : CpAt) (f : VFields) (x : Bool)
  /-- VXOR, R186. Vector bitwise xor. -/
  | vxor (u : CpAt) (f : VFields) (x : Bool)
  /-- VSHL, R187. Vector shift left. -/
  | vshl (u : CpAt) (f : VFields) (x : Bool)
  /-- VSHR, R187. Vector logical shift right. -/
  | vshr (u : CpAt) (f : VFields) (x : Bool)
  /-- VSAR, R187. Vector arithmetic shift right. -/
  | vsar (u : CpAt) (f : VFields) (x : Bool)
  /-- VROTL, R186. Vector rotate left. -/
  | vrotl (u : CpAt) (f : VFields) (x : Bool)
  /-- VMIN, R186. Vector signed minimum. -/
  | vmin (u : CpAt) (f : VFields) (x : Bool)
  /-- VMAX, R186. Vector signed maximum. -/
  | vmax (u : CpAt) (f : VFields) (x : Bool)
  /-- VMINU, R186. Vector unsigned minimum. -/
  | vminu (u : CpAt) (f : VFields) (x : Bool)
  /-- VMAXU, R186. Vector unsigned maximum. -/
  | vmaxu (u : CpAt) (f : VFields) (x : Bool)
  /-- VADDS, R187. Vector signed saturating add, setting SAT. -/
  | vadds (u : CpAt) (f : VFields) (x : Bool)
  /-- VSUBS, R187. Vector signed saturating subtract. -/
  | vsubs (u : CpAt) (f : VFields) (x : Bool)
  /-- VADDSU, R187. Vector unsigned saturating add. -/
  | vaddsu (u : CpAt) (f : VFields) (x : Bool)
  /-- VSUBSU, R187. Vector unsigned saturating subtract. -/
  | vsubsu (u : CpAt) (f : VFields) (x : Bool)
  /-- VADDO, R187. Vector checked add, setting OV. -/
  | vaddo (u : CpAt) (f : VFields) (x : Bool)
  /-- VSUBO, R187. Vector checked subtract, setting OV. -/
  | vsubo (u : CpAt) (f : VFields) (x : Bool)
  /-- VMULO, R187. Vector checked multiply, setting OV. -/
  | vmulo (u : CpAt) (f : VFields) (x : Bool)
  /-- VMV, R186. Vector move of B into D. -/
  | vmv (u : CpAt) (f : VFields) (x : Bool)
  /-- VMERGE, R186. Vector merge of A on active elements and B elsewhere below VL. -/
  | vmerge (u : CpAt) (f : VFields) (x : Bool)
  /-- VSEXTH, R187. Widens half-width elements by sign extension. -/
  | vsexth (u : CpAt) (f : VFields) (x : Bool)
  /-- VZEXTH, R187. Widens half-width elements by zero extension. -/
  | vzexth (u : CpAt) (f : VFields) (x : Bool)
  /-- VNARH, R187. Narrows elements to half width. -/
  | vnarh (u : CpAt) (f : VFields) (x : Bool)
  /-- VPOPC, R186. Vector population count. -/
  | vpopc (u : CpAt) (f : VFields) (x : Bool)
  /-- VCLZ, R186. Vector count of leading zeros. -/
  | vclz (u : CpAt) (f : VFields) (x : Bool)
  /-- CEQ, R182. Vector compare equal into a predicate. -/
  | ceq (u : CpAt) (f : VFields) (x : Bool)
  /-- CNE, R182. Vector compare not equal. -/
  | cne (u : CpAt) (f : VFields) (x : Bool)
  /-- CLT, R182. Vector signed less-than compare. -/
  | clt (u : CpAt) (f : VFields) (x : Bool)
  /-- CLE, R182. Vector signed less-or-equal compare. -/
  | cle (u : CpAt) (f : VFields) (x : Bool)
  /-- CGT, R182. Vector signed greater-than compare. -/
  | cgt (u : CpAt) (f : VFields) (x : Bool)
  /-- CGE, R182. Vector signed greater-or-equal compare. -/
  | cge (u : CpAt) (f : VFields) (x : Bool)
  /-- CLTU, R182. Vector unsigned less-than compare. -/
  | cltu (u : CpAt) (f : VFields) (x : Bool)
  /-- CLEU, R182. Vector unsigned less-or-equal compare. -/
  | cleu (u : CpAt) (f : VFields) (x : Bool)
  /-- CGTU, R182. Vector unsigned greater-than compare. -/
  | cgtu (u : CpAt) (f : VFields) (x : Bool)
  /-- CGEU, R182. Vector unsigned greater-or-equal compare. -/
  | cgeu (u : CpAt) (f : VFields) (x : Bool)
  /-- CFEQ, R188. Vector IEEE FP equality compare. -/
  | cfeq (u : CpAt) (f : VFields) (x : Bool)
  /-- CFLT, R188. Vector IEEE FP less-than compare. -/
  | cflt (u : CpAt) (f : VFields) (x : Bool)
  /-- CFLE, R188. Vector IEEE FP less-or-equal compare. -/
  | cfle (u : CpAt) (f : VFields) (x : Bool)
  /-- CFUN, R188. Vector FP unordered compare. -/
  | cfun (u : CpAt) (f : VFields) (x : Bool)
  /-- CFTLT, R188. Vector FP total-order less-than compare. -/
  | cftlt (u : CpAt) (f : VFields) (x : Bool)
  /-- VBEQ, R191. Byte equality pattern compare. -/
  | vbeq (u : CpAt) (f : VFields)
  /-- VBRNG, R191. Byte range pattern compare. -/
  | vbrng (u : CpAt) (f : VFields)
  /-- VPAT, R191. Eight-byte pattern match at each position. -/
  | vpat (u : CpAt) (f : VFields)
  /-- VPATM, R191. Masked eight-byte pattern match at each position. -/
  | vpatm (u : CpAt) (f : VFields)
  /-- VFADD, R188. Vector FP add. -/
  | vfadd (u : CpAt) (f : VFields) (x : Bool)
  /-- VFSUB, R188. Vector FP subtract. -/
  | vfsub (u : CpAt) (f : VFields) (x : Bool)
  /-- VFMUL, R188. Vector FP multiply. -/
  | vfmul (u : CpAt) (f : VFields) (x : Bool)
  /-- VFDIV, R188. Vector FP divide. -/
  | vfdiv (u : CpAt) (f : VFields) (x : Bool)
  /-- VFSQRT, R188. Vector FP square root. -/
  | vfsqrt (u : CpAt) (f : VFields) (x : Bool)
  /-- VFMIN, R188. Vector FP minimum. -/
  | vfmin (u : CpAt) (f : VFields) (x : Bool)
  /-- VFMAX, R188. Vector FP maximum. -/
  | vfmax (u : CpAt) (f : VFields) (x : Bool)
  /-- VFMA, R188. Vector fused multiply-add into V[D]. -/
  | vfma (u : CpAt) (f : VFields) (x : Bool)
  /-- VFNMS, R188. Vector fused negative multiply-subtract. -/
  | vfnms (u : CpAt) (f : VFields) (x : Bool)
  /-- VFABS, R186. Vector FP absolute value. -/
  | vfabs (u : CpAt) (f : VFields)
  /-- VFNEG, R186. Vector FP negation. -/
  | vfneg (u : CpAt) (f : VFields)
  /-- VCVTFI, R188. Vector FP to integer conversion. -/
  | vcvtfi (u : CpAt) (f : VFields)
  /-- VCVTIF, R188. Vector signed integer to FP conversion. -/
  | vcvtif (u : CpAt) (f : VFields)
  /-- VCVTUF, R188. Vector unsigned integer to FP conversion. -/
  | vcvtuf (u : CpAt) (f : VFields)
  /-- VCVTDS, R188. Vector FP64 to FP32 conversion at SEW 64. -/
  | vcvtds (u : CpAt) (f : VFields)
  /-- VCVTSD, R188. Vector FP32 to FP64 conversion at SEW 64. -/
  | vcvtsd (u : CpAt) (f : VFields)
  /-- VCMUL, R189. Complex multiply. -/
  | vcmul (u : CpAt) (f : VFields) (x : Bool)
  /-- VCMULC, R189. Complex multiply by the conjugate. -/
  | vcmulc (u : CpAt) (f : VFields) (x : Bool)
  /-- VCMAC, R189. Complex multiply-accumulate. -/
  | vcmac (u : CpAt) (f : VFields) (x : Bool)
  /-- VCMACC, R189. Complex multiply-accumulate by the conjugate. -/
  | vcmacc (u : CpAt) (f : VFields) (x : Bool)
  /-- VCADD, R189. Complex add. -/
  | vcadd (u : CpAt) (f : VFields) (x : Bool)
  /-- VCSUB, R189. Complex subtract. -/
  | vcsub (u : CpAt) (f : VFields) (x : Bool)
  /-- VCABS2, R189. Complex squared magnitude. -/
  | vcabs2 (u : CpAt) (f : VFields)
  /-- VBFLY, R189. Complex FFT butterfly writing Va and Vb. -/
  | vbfly (u : CpAt) (f : VFields)
  /-- VGFMUL, R190. GF(2^8) multiply of bytes. -/
  | vgfmul (u : CpAt) (f : VFields) (x : Bool)
  /-- VGFMAC, R190. GF(2^8) multiply-accumulate of bytes. -/
  | vgfmac (u : CpAt) (f : VFields) (x : Bool)
  /-- PAND, R193. Predicate and. -/
  | pand (u : CpAt) (f : VFields)
  /-- POR, R193. Predicate or. -/
  | por (u : CpAt) (f : VFields)
  /-- PXOR, R193. Predicate xor. -/
  | pxor (u : CpAt) (f : VFields)
  /-- PANDN, R193. Predicate and-not. -/
  | pandn (u : CpAt) (f : VFields)
  /-- PNOT, R193. Predicate not. -/
  | pnot (u : CpAt) (f : VFields)
  /-- PSET, R193. Sets every predicate element below VL. -/
  | pset (u : CpAt) (f : VFields)
  /-- PCLR, R193. Clears predicate elements. -/
  | pclr (u : CpAt) (f : VFields)
  /-- PMOV, R193. Predicate move. -/
  | pmov (u : CpAt) (f : VFields)
  /-- PCNT, R193. Counts set predicate elements into G[D]. -/
  | pcnt (u : CpAt) (f : VFields)
  /-- PFIRST, R193. Writes the index of the first set element. -/
  | pfirst (u : CpAt) (f : VFields)
  /-- PFROMG, R193. Sets predicate elements from G[A] bits. -/
  | pfromg (u : CpAt) (f : VFields)
  /-- PLDB, R193. Loads a predicate from a memory bitmap. -/
  | pldb (u : CpAt) (f : VFields)
  /-- PSTB, R193. Stores a predicate to a memory bitmap. -/
  | pstb (u : CpAt) (f : VFields)
  /-- ASTORE_OWNER_WRITE, R228. A write of OWNER in ASTORE_BANK while the bank is idle changes the owner and starts the clear of the bank and its shadow. -/
  | astoreOwnerWrite (r : Req) (b : Nat) (v : Word)
  /-- BANK_CLEAR_COMPLETE, R228. The 65,536-FCLK clear of a bank ends and CLEARING reads 0. -/
  | bankClearComplete (b : Nat)
  /-- AST_CREATE, R230. Creates and enables an ASTORE table after its consistency check. -/
  | astCreate (id : Nat)
  /-- AST_DESTROY, R232. Disables a table and clears its banks. -/
  | astDestroy (id : Nat)
  /-- AST_LOAD, R235. Appends entries from host memory after the table's last entry, skipping layout holes. -/
  | astLoad (id : Nat)
  /-- AST_INSERT, R237. Inserts an entry before a given address, moving at most I − 1 entries under a search hold. -/
  | astInsert (id : Nat)
  /-- AST_DELETE, R238. Turns an entry into a hole by writing unit 0. -/
  | astDelete (id : Nat)
  /-- AST_SEARCH, R231. Searches a table with host keys and writes HIT, MULTI and address per key. -/
  | astSearch (id : Nat)
  /-- AST_RESPREAD, R236. Starts respreading a table's entries under a hole interval. -/
  | astRespread (id : Nat)
  /-- RESPREAD_STEP, R236. One RESPREAD step rewrites at most 256 positions of one bank, and the last step clears RSP. -/
  | respreadStep (n : Nat)
  /-- AST_READ, R231. Writes table positions, holes included, to host memory. -/
  | astRead (id : Nat)
  /-- EMBER_CHECK, R241. Ember checks the next unit against its shadow, correcting or faulting it. -/
  | emberCheck
  /-- DIRECT_WINDOW_ACCESS, R243. A PF0 access to the ASTORE data or mask window reads or writes one half unit of a reachable bank. -/
  | directWindowAccess (off : Nat) (wr : Bool) (v : Word)
  /-- CMP_DEFLATE, R257. Compresses a buffer with DEFLATE at a level and wrapper, verified before release. -/
  | cmpDeflate (id : Nat)
  /-- CMP_INFLATE, R257. Inflates a raw, zlib or gzip stream into a buffer. -/
  | cmpInflate (id : Nat)
  /-- CMP_JOB_START, R247. A freed stream takes the oldest waiting job of the next requester class. -/
  | cmpJobStart (e : Nat)
  /-- CMP_JOB_COMPLETE, R252. A job ends, releasing verified output or discarding it with 0x0420 on mismatch. -/
  | cmpJobComplete (id : Nat)
  /-- MBR_ATTACH, R266. Initialises a member's controller and records its capacity and rate. -/
  | mbrAttach (id : Nat) (info : Option MemberInfo)
  /-- MBR_DETACH, R266. Shuts down an ATTACHED or FAILED member's controller. -/
  | mbrDetach (id : Nat)
  /-- ARR_CREATE, R297. Checks and creates an array, writing labels and checkpoint slots with an empty map. -/
  | arrCreate (id : Nat)
  /-- ARR_IMPORT, R332. Reads an array's labels and replays its vault and journal. -/
  | arrImport (id : Nat)
  /-- REPLAY_END, R298. Replay of an imported array ends and it enters ONLINE or DEGRADED with RINC as found. -/
  | replayEnd (a : Nat)
  /-- ARR_STOP, R297. Stops fetching for an array, closes stripes, drains the cache and takes a checkpoint. -/
  | arrStop (id : Nat)
  /-- ARR_DRAIN_COMPLETE, R298. The drain of a STOPPING array completes and it enters STOPPED with clean-stop labels. -/
  | arrDrainComplete (a : Nat)
  /-- ARR_SET, R296. Changes the selected array settings after checking them. -/
  | arrSet (id : Nat)
  /-- VOL_CREATE, R296. Creates a volume on an array after its check. -/
  | volCreate (id : Nat)
  /-- VOL_DESTROY, R299. Stops a volume, waits for its commands and drops its map. -/
  | volDestroy (id : Nat)
  /-- VOL_RESIZE, R299. Changes a volume's size, deallocating blocks beyond a smaller size. -/
  | volResize (id : Nat)
  /-- VOL_OWNER, R299. Changes a volume's owner after its commands under the old owner finish. -/
  | volOwner (id : Nat)
  /-- VOL_READ, R293. Reads volume blocks into host memory from cache, members or reconstruction. -/
  | volRead (id : Nat)
  /-- VOL_WRITE, R282. Writes volume blocks into the write cache, journals them and completes. -/
  | volWrite (id : Nat)
  /-- VOL_FLUSH, R293. Completes once earlier writes to the volume from the same SQ have completed. -/
  | volFlush (id : Nat)
  /-- VOL_WRITE_ZEROES, R293. Journals a TRIM record of kind zero over a range. -/
  | volWriteZeroes (id : Nat)
  /-- VOL_DEALLOC, R293. Journals a TRIM record of kind deallocate over a range. -/
  | volDealloc (id : Nat)
  /-- WRITE_CACHE_RESERVE, R282. A waiting write obtains its write-cache blocks in arrival order once space is below the limits. -/
  | writeCacheReserve (id : Nat)
  /-- MEMBER_COMMAND_TIMEOUT, R265. A member command exceeds MBR_TMO, is aborted and reissued after one controller reset, or the member fails. -/
  | memberCommandTimeout (n : Nat) (retryOk : Bool)
  /-- MEMBER_COMMAND_COMPLETION, R312. A member command completes; a media error leads to reconstruction and relocation. -/
  | memberCommandCompletion (n blk : Nat) (mediaErr : Bool)
  /-- MEMBER_LINK_DOWN, R265. A member's link goes down or its controller reports a fatal status, so the member becomes FAILED. -/
  | memberLinkDown (w : MemberLoss)
  /-- STRIPE_OPEN, R273. A stream needing a stripe opens a FREE one when the journal has room and journals STRIPE_OPEN. -/
  | stripeOpen (a stream : Nat)
  /-- STRIPE_CLOSE_TIMEOUT, R273. CLOSE_US passes since an open stripe's first block and it is written with dead padding. -/
  | stripeCloseTimeout (a stream : Nat)
  /-- STRIPE_COMMIT, R278. Every in-service position completes the stripe's writes; deltas and STRIPE_COMMIT are journalled and the map updated. -/
  | stripeCommit (a st : Nat)
  /-- STRIPE_FREE, R273. A stripe's live count is 0 and no earlier read is outstanding, so it becomes FREE. -/
  | stripeFree (a st : Nat)
  /-- HARVEST, R289. Harvest picks the highest-scoring eligible stripe and moves its live blocks through the HARVEST stream. -/
  | harvest (a : Nat)
  /-- LEAF_READ_COMPLETE, R279. A missed map leaf arrives from the members and the waiting read or write continues. -/
  | leafReadComplete (id : Nat)
  /-- MAP_CHECKPOINT, R280. Dirty map pages are written, the checkpoint record written and journal space freed, at half-full journal or after 10 s. -/
  | mapCheckpoint (a : Nat)
  /-- ARC_MAPC_WRITE, R303. A write of the map cache size reserves its pages, or is discarded. -/
  | arcMapcWrite (r : Req) (v : Word)
  /-- ARC_DESTROY_GO, R304. GO destroys a STOPPED array, erasing labels and freeing volumes, cache and map, or sets REFUSED. -/
  | arcDestroyGo (r : Req) (v : Word)
  /-- ARC_DP_WRITE, R305. A BIF write sets a drive port's bifurcation while no member below it is attached. -/
  | arcDpWrite (r : Req) (p : Nat) (v : Word)
  /-- ARR_REBUILD_START, R315. ARR_REBUILD with ACTION start names a target for a failed position. -/
  | arrRebuildStart (id : Nat)
  /-- ARR_REBUILD_PAUSE, R319. ARR_REBUILD with ACTION pause stops the rebuild cursor. -/
  | arrRebuildPause (id : Nat)
  /-- ARR_REBUILD_RESUME, R319. ARR_REBUILD with ACTION resume restarts the rebuild cursor. -/
  | arrRebuildResume (id : Nat)
  /-- REBUILD_CURSOR_STEP, R316. The rebuild cursor handles its next stripe slot, reconstructing and writing the target's chunk or skipping it. -/
  | rebuildCursorStep (a : Nat)
  /-- ARR_RESHAPE, R321. Starts a reshape to a new geometry and member set after its check. -/
  | arrReshape (id : Nat)
  /-- RESHAPE_STEP, R323. The running boundary advances past a FREE slot or its live blocks are moved, with a checkpoint and progress record each 4 GiB. -/
  | reshapeStep (a : Nat)
  /-- RESHAPE_FINISH, R325. The boundary reaches S_old, labels are rewritten with the new geometry only and leaving members become ATTACHED. -/
  | reshapeFinish (a : Nat)
  /-- ARR_LOSTLIST, R334. Writes the LOST runs of an array's volumes to host memory. -/
  | arrLostlist (id : Nat)
  /-- ARR_VAULT_INFO, R334. Writes the report of the last replay to host memory. -/
  | arrVaultInfo (id : Nat)
  /-- FREEZE, R327. Filtered PWRFAIL_N goes low; FREEZE_SEQ is latched, work stops and vault headers are written. -/
  | freeze
  /-- VAULT_SEAL, R328. A member's image stream completes and its seal record is written; with all seals the device enters VAULTED. -/
  | vaultSeal (a n : Nat)
  /-- VF_ENABLE_SET, R341. Setting VF Enable allocates MSI-X vectors to the VFs. -/
  | vfEnableSet (numVfs : Nat)
  /-- VF_FUNCTION_LEVEL_RESET, R343. A VF Function Level Reset resets its partition and configuration space. -/
  | vfFunctionLevelReset (n : Nat)
  /-- HOST_PORT_RESET, R509. PERST_N, a PF0 Function Level Reset or clearing VF Enable resets HIF and the port and resets every partition. -/
  | hostPortReset (cause : HostResetCause)
  /-- PERST_RELEASE, R511. PERST_N rises and LTSSM training starts. -/
  | perstRelease
  /-- FUNCTION_D3HOT_ENTRY, R365. A function enters D3hot and its queues are held. -/
  | functionD3hotEntry (fn : Nat)
  /-- FUNCTION_D0_RETURN, R365. A function returns to D0 with Bus Master Enable; held completions are written and interrupts sent. -/
  | functionD0Return (fn : Nat)
  /-- BUS_MASTER_ENABLE_CLEAR, R365. Bus Master Enable is cleared and the function's requests are held. -/
  | busMasterEnableClear (fn : Nat)
  /-- BUS_MASTER_ENABLE_SET, R365. Bus Master Enable is set again and held work proceeds. -/
  | busMasterEnableSet (fn : Nat)
  /-- VECTOR_UNMASK, R364. An MSI-X vector is unmasked and its pending message is sent. -/
  | vectorUnmask (fn vec : Nat)
  /-- SQ_ENABLE, R346. Setting SQEN runs the queue check and resets the SQ indices and push window on a pass. -/
  | sqEnable (r : Req) (q : Nat) (v : Word)
  /-- CQ_ENABLE, R346. Setting CQEN runs the queue check and resets the CQ indices and moderation on a pass. -/
  | cqEnable (r : Req) (q : Nat) (v : Word)
  /-- SQ_DISABLE, R348. Clearing SQEN stops fetching and discards the push window. -/
  | sqDisable (r : Req) (q : Nat) (v : Word)
  /-- CQ_DISABLE, R348. Clearing CQEN disables the CQ unless an enabled SQ or an unwritten completion still needs it. -/
  | cqDisable (r : Req) (q : Nat) (v : Word)
  /-- PRODUCER_DOORBELL, R352. A write of the SQ producer index is accepted or discarded with DBERR, and may wake PS2 or clear FERR. -/
  | producerDoorbell (r : Req) (win : Nat) (n : Word)
  /-- PUSH_WRITE, R353. A write to the push window stores slot bytes for the next doorbell. -/
  | pushWrite (r : Req) (win off : Nat) (ws : List Word)
  /-- COMPLETION_CONSUMER_WRITE, R361. A write of the CQ consumer index frees slots, moves held completions in and may clear moderation. -/
  | completionConsumerWrite (r : Req) (win : Nat) (n : Word)
  /-- ENTRY_FETCH, R355. HIF reserves a completion place, fetches an entry, checks its header and delivers it stamped. -/
  | entryFetch (q : Nat)
  /-- SQ_FETCH_ERROR, R357. An SQ slot read returns an error or times out; FERR is set and fetching stops. -/
  | sqFetchError (q : Nat)
  /-- MODERATION_TIMEOUT, R364. A CQ's moderation timer reaches MOD_US and its interrupt or PME is sent. -/
  | moderationTimeout (q : Nat)
  /-- START_TIMEOUT, R371. A fetched command not started within CTMO_MS completes with 0x0802. -/
  | startTimeout (id : Nat)
  /-- HOST_READ_TIMEOUT, R370. A host read for a command's data times out and the command completes with 0x0801. -/
  | hostReadTimeout (id : Nat)
  /-- DEV_PSTATE, R368. Requests a device power state, starting entry or wake. -/
  | devPstate (id : Nat)
  /-- PSTATE_ENTRY_COMPLETE, R368. The conditions of ENTER1 or FLUSH2 are met and the device enters PS1 or PS2. -/
  | pstateEntryComplete
  /-- FLUSH2_START, R368. No other command is in progress in ENTER2 and every write cache starts to be flushed. -/
  | flush2Start
  /-- PSTATE_ENTRY_TIMEOUT, R368. TMO_MS passes during entry and the device returns to its prior state with 0x0803. -/
  | pstateEntryTimeout
  /-- WAKE_COMPLETE, R368. A wake from PS1 or PS2 finishes restoring tiles, HBM and EVC. -/
  | wakeComplete
  /-- NET_SUBSYS_ENABLE, R379. NET_SUBSYS with ACTION enable checks and enables a partition's subsystem. -/
  | netSubsysEnable (id : Nat)
  /-- NET_SUBSYS_DISABLE, R379. NET_SUBSYS with ACTION disable disables a subsystem with no exports. -/
  | netSubsysDisable (id : Nat)
  /-- NET_EXPORT, R379. NET_EXPORT with ACTION export exports a volume as a namespace. -/
  | netExport (id : Nat)
  /-- NET_UNEXPORT, R379. NET_EXPORT with ACTION unexport stops a namespace after its commands finish. -/
  | netUnexport (id : Nat)
  /-- ARP_REQUEST, R376. An ARP or Neighbor Discovery request for the device's address is answered. -/
  | arpRequest (port ifc : Nat)
  /-- TCP_SYN, R381. A SYN takes a connection context or receives a RST. -/
  | tcpSyn (port ifc dport : Nat) (syn : Syn)
  /-- TCP_RST_OR_FIN, R387. A received RST or FIN closes the connection. -/
  | tcpRstOrFin (c : Nat)
  /-- ICREQ, R382. An ICReq PDU is answered with ICResp. -/
  | icreq (c pfv hpda : Nat) (hdgst ddgst : Bool) (maxr2t : Nat)
  /-- H2CTERMREQ, R387. A received H2CTermReq closes the connection. -/
  | h2ctermreq (c : Nat)
  /-- H2CDATA, R384. H2CData for an R2T arrives; complete pieces are recorded and further R2Ts sent. -/
  | h2cdata (c cid ofs : Nat) (data : List Byte) (hdrOk dataOk : Bool)
  /-- CONNECT, R381. A Connect creates a controller or adds an I/O queue, or is refused. -/
  | connect (c cid qid cntlid : Nat) (hostnqn subnqn : List Byte) (prm : ConnectParams)
  /-- PROPERTY_GET, R385. Returns a controller property. -/
  | propertyGet (c cid ofs : Nat)
  /-- PROPERTY_SET, R385. Sets a controller property. -/
  | propertySet (c cid ofs : Nat) (v : DWord)
  /-- IDENTIFY, R385. Returns Identify data. -/
  | identify (c cid cns nsid : Nat)
  /-- GET_LOG_PAGE, R385. Returns a log page. -/
  | getLogPage (c cid lid : Nat)
  /-- KEEP_ALIVE, R385. Restarts the keep-alive timer. -/
  | keepAlive (c cid : Nat)
  /-- KEEP_ALIVE_TIMEOUT, R387. KATO passes with no admin command and every connection of the controller closes. -/
  | keepAliveTimeout (cntl : Nat)
  /-- NVME_READ, R385. An NVMe Read runs as VOL_READ. -/
  | nvmeRead (c cid nsid slba nlb : Nat)
  /-- NVME_WRITE, R384. An NVMe Write reserves cache pieces and paces its data with R2Ts. -/
  | nvmeWrite (c cid nsid slba nlb : Nat) (capsule : List Byte) (dataOk : Bool)
  /-- NVME_FLUSH, R385. An NVMe Flush runs as VOL_FLUSH. -/
  | nvmeFlush (c cid nsid : Nat)
  /-- NVME_WRITE_ZEROES, R385. An NVMe Write Zeroes runs as VOL_WRITE_ZEROES. -/
  | nvmeWriteZeroes (c cid nsid slba nlb : Nat)
  /-- DATASET_MANAGEMENT, R385. Dataset Management with AD runs a VOL_DEALLOC per range. -/
  | datasetManagement (c cid nsid : Nat) (ad : Bool) (dsm : DsmData)
  /-- PTP_EVENT_MESSAGE, R389. A PTP event message crosses a port and its timestamp enters the FIFO. -/
  | ptpEventMessage (port : Nat) (tx : Bool) (msgType : BitVec 4) (seqId : BitVec 16)
  /-- NET_LINK_CHANGE, R391. A port's link goes up or down. -/
  | netLinkChange (port : Nat) (lanes : BitVec 4)
  /-- NET_TS_POP, R391. A write of POP discards the head of the timestamp FIFO. -/
  | netTsPop (r : Req) (v : Word)
  /-- NET_PORT_WRITE, R391. A change of MODE retrains the link and closes the port's connections. -/
  | netPortWrite (r : Req) (p : Nat) (v : Word)
  /-- PARTITION_ENABLE, R394. Writing EN = 1 runs the partition check and enters RUN with a new generation. -/
  | partitionEnable (r : Req) (p : Nat) (v : Word)
  /-- PARTITION_DISABLE, R394. Writing EN = 0 tears the partition down as PART_RELEASE does. -/
  | partitionDisable (r : Req) (p : Nat) (v : Word)
  /-- HBM_ALLOC, R400. Maps a contiguous range of zeroed HBM pages. -/
  | hbmAlloc (id : Nat)
  /-- HBM_FREE, R400. Unmaps and frees a range of HBM pages. -/
  | hbmFree (id : Nat)
  /-- MEM_COPY, R400. Copies bytes between host memory and partition HBM. -/
  | memCopy (id : Nat)
  /-- PART_RESET, R407. Resets a partition: queues off, generation up, runs ended, pages freed. -/
  | partReset (id : Nat)
  /-- PARTITION_RESET_COMPLETE, R407. The reset or release of a partition ends in RUN or OFF. -/
  | partitionResetComplete (p : Nat)
  /-- PART_FREEZE, R409. Stops a partition's fetching, claiming and network reading. -/
  | partFreeze (id : Nat)
  /-- FREEZE_COMPLETE, R397. Nothing but paused runs remains and the partition enters FROZEN. -/
  | freezeComplete (p : Nat)
  /-- PART_SAVE, R410. Writes the encrypted save image of a frozen partition. -/
  | partSave (id : Nat)
  /-- PART_RESTORE, R413. Checks and places a save image into an OFF partition, leaving it FROZEN. -/
  | partRestore (id : Nat)
  /-- PART_THAW, R397. Returns a frozen partition to RUN and resumes fetching and claiming. -/
  | partThaw (id : Nat)
  /-- PART_RELEASE, R408. Tears down a frozen partition and leaves it OFF. -/
  | partRelease (id : Nat)
  /-- FIXED_SLOT_START, R404. A fixed slot begins; other partitions' morsels on its tiles are abandoned without a count. -/
  | fixedSlotStart (p : Nat)
  /-- FIXED_SLOT_END, R404. A fixed slot ends and other partitions may claim again. -/
  | fixedSlotEnd (p : Nat)
  /-- MILLISECOND_BOUNDARY, R415. At each Almanac millisecond boundary PAGE_MS and BANK_MS are added. -/
  | millisecondBoundary
  /-- CALENDS, R417. At each 60 s Almanac boundary a record is formed for every partition out of OFF. -/
  | calends
  /-- METER_BATCH_WRITE, R418. A signed batch is written to the meter ring when a slot is free, P advances and the meter event is raised. -/
  | meterBatchWrite
  /-- TRUST_MTR_C_WRITE, R418. A write of the meter consumer index frees slots for held batches. -/
  | trustMtrCWrite (r : Req) (v : Word)
  /-- PV_EVEN_WRITE, R421. A write of PV_EVEN may send VEC for an event bit already set. -/
  | pvEvenWrite (n : Nat) (v : Word)
  /-- EDGE_EVENT, R423. An edge source sets PEND, or is merged and counted. -/
  | edgeEvent (src : Nat)
  /-- LEVEL_SOURCE_ASSERT, R423. A level source's input asserts and sets PEND while not ACT. -/
  | levelSourceAssert (src : Nat)
  /-- PIN_FILTER_EXPIRY, R428. A pin's raw level has been stable for FILT + 1 SCLK and the filtered level follows. -/
  | pinFilterExpiry (pin : Nat)
  /-- HANDLER_ENTRY, R429. Arbitration picks a pending event and the steward stacks state and enters its handler. -/
  | handlerEntry (w : Nat)
  /-- ERET, R431. A handler returns, ACT clears, level sources are resampled and state is restored. -/
  | eret (w : Nat)
  /-- PF0_EVENT_MESSAGE, R434. A pending source routed to PF0 sends its MSI-X vector and becomes ACT. -/
  | pf0EventMessage
  /-- EVC_HACK_WRITE, R434. PF0 acknowledges a shared source, clearing ACT, or the write is counted in HACK_BAD. -/
  | evcHackWrite (r : Req) (v : Word)
  /-- EVC_SWSET_WRITE, R437. Sets PEND of a software source. -/
  | evcSwsetWrite (r : Req) (v : Word)
  /-- EVC_ROUTE_ENABLE, R436. Setting EN of a route runs its consistency check. -/
  | evcRouteEnable (r : Req) (src : Nat) (v : Word)
  /-- SDMA_GO, R439. Setting GO checks a channel and arms the transfer. -/
  | sdmaGo (r : Req) (c : Nat) (v : Word)
  /-- SDMA_ABORT, R444. Writing ABORT ends the transfer after any burst in flight, with read-back and residue. -/
  | sdmaAbort (r : Req) (c : Nat) (v : Word)
  /-- SDMA_RESUME, R442. Writing RESUME in HALTED runs the failed burst again with fresh retries. -/
  | sdmaResume (r : Req) (c : Nat) (v : Word)
  /-- BURST_START, R440. A channel samples its request asserted and starts a burst. -/
  | burstStart (c : Nat) (request : Bool)
  /-- BURST_COMPLETE, R446. A burst completes, lowering the residue, or meets a bus error and retries or halts. -/
  | burstComplete (c : Nat) (res : BusResult) (wr : Bool)
  /-- READBACK_COMPLETE, R443. The read-back of the last written word completes and the channel enters DONE. -/
  | readbackComplete (c : Nat) (res : BusResult)
  /-- SDMA_ARMED_TIMEOUT, R445. A channel stays ARMED for TMO_US and enters TIMEDOUT. -/
  | sdmaArmedTimeout (c : Nat)
  /-- LINK_TRAINING_COMPLETE, R451. A peer link locks its lanes with the right peer DEVID and enters UP or UP7, or DOWN on conflict. -/
  | linkTrainingComplete (k : Nat) (lanes : BitVec 8) (peer : BitVec 3)
  /-- LINK_TRAINING_TIMEOUT, R451. No lock within 20 ms retries training or fails the link on the third attempt. -/
  | linkTrainingTimeout (k : Nat)
  /-- LINK_FLIT_TIMEOUT, R451. No flit is accepted for 10 µs and the link retrains, resending messages. -/
  | linkFlitTimeout (k : Nat)
  /-- LANE_ERROR_RATE, R451. A lane's error rate takes it out of service and the link retrains as UP7. -/
  | laneErrorRate (k lane : Nat)
  /-- PLK_RETRAIN, R451. Writing RETRAIN starts link training. -/
  | plkRetrain (r : Req) (k : Nat)
  /-- PLK_OFFL_WRITE, R451. Writing OFFL takes one lane out or returns it. -/
  | plkOfflWrite (r : Req) (p : Nat) (v : Word)
  /-- PEER_BINDING_ENABLE, R456. Setting EN of a peer binding runs its check and announces it to the peers. -/
  | peerBindingEnable (r : Req) (b : Nat) (v : Word)
  /-- BINDING_MESSAGE, R456. A peer's binding CONTROL message arrives, making the binding UP toward it. -/
  | bindingMessage (dev b : Nat) (devmask : BitVec 8) (ctxs : List (BitVec 13)) (gen : BitVec 16)
  /-- GENERATION_UPDATE_MESSAGE, R459. A peer partition's new GEN arrives and is acknowledged. -/
  | generationUpdateMessage (dev b : Nat) (gen : BitVec 16)
  /-- GENERATION_UPDATE_ACK, R459. A peer acknowledges a GEN increment. -/
  | generationUpdateAck (dev p : Nat) (gen : BitVec 16)
  /-- PLK_MIRROR_ENABLE, R461. Setting EN in PLK_MIRROR checks and reserves the mirror area. -/
  | plkMirrorEnable (r : Req) (v : Word)
  /-- PLK_MIRROR_DISABLE, R462. Writing EN = 0 turns mirroring off and both copies are discarded. -/
  | plkMirrorDisable (r : Req)
  /-- MIRROR_WRITE_MESSAGE, R463. Write data and its record arrive from the partner and are placed in the mirror area and acknowledged. -/
  | mirrorWriteMessage (arrayId : BitVec 128) (seq : Nat) (vol : MirVol) (lba : Nat) (blocks : List (List Byte))
  /-- MIRROR_ACK, R463. A partner acknowledgement arrives and the mirrored write completes. -/
  | mirrorAck (id : Nat)
  /-- MIRROR_ACK_TIMEOUT, R462. No acknowledgement within MIR_TMO breaks mirroring. -/
  | mirrorAckTimeout
  /-- PLK_MIRROR_RELEASE, R464. Writing RELEASE discards a held partner copy. -/
  | plkMirrorRelease (r : Req)
  /-- PARTNER_COPY_REQUEST, R464. At import the partner is asked for its cache copy and answers with it. -/
  | partnerCopyRequest (m : CopyMessage)
  /-- TIME_EXCHANGE, R466. Every 125 µs TIME messages are exchanged and the rate correction is set. -/
  | timeExchange (ofs : Int)
  /-- TSYNC_PULSE, R465. The time source drives TSYNC at each Almanac multiple of 1,000,000. -/
  | tsyncPulse
  /-- TSYNC_EDGE, R465. A rising TSYNC edge starts the Almanac or steers its rate. -/
  | tsyncEdge (ofs : Int)
  /-- ALMANAC_START_TIMEOUT, R465. No TSYNC edge within 20 ms and the Almanac starts counting. -/
  | almanacStartTimeout
  /-- TILE_FAULT, R474. A fault in a tile is recorded, its morsels abandoned and its sparing started. -/
  | tileFault (phys : Nat) (check : Byte)
  /-- HEARTBEAT_MISS, R473. A TSEQ or steward heartbeat gap of 8 µs is recorded as a fault. -/
  | heartbeatMiss (stw : Bool) (n : Nat)
  /-- SPARE_PLACED, R474. A spare passes its quick self-test and GLB_TILE_MAP gives it the logical tile. -/
  | sparePlaced (l : Nat)
  /-- GLB_TILE_MAP_WRITE, R477. A PF0 write starts a planned swap of one logical tile onto a spare, or is refused. -/
  | glbTileMapWrite (r : Req) (i : Nat) (v : Word)
  /-- SWAP_COMPLETE, R477. The old tile drains, the mapping changes and it becomes SPARE. -/
  | swapComplete
  /-- VIGIL_SVC_OUT, R481. VIGIL_SVC ACTION OUT takes a unit out of service. -/
  | vigilSvcOut (r : Req) (v : Word)
  /-- VIGIL_SVC_TEST, R481. VIGIL_SVC ACTION TEST tests an out-of-service unit. -/
  | vigilSvcTest (r : Req) (v : Word)
  /-- VIGIL_SVC_IN, R481. VIGIL_SVC ACTION IN returns a unit to service or spare. -/
  | vigilSvcIn (r : Req) (v : Word)
  /-- SERVICE_ACTION_COMPLETE, R482. A service action ends and RESULT and TIME_MS are set. -/
  | serviceActionComplete (pass : Bool) (ms : BitVec 16)
  /-- VIGIL_UACK_WRITE, R472. PF0 acknowledges uncorrected records, which may deassert FAULT_N. -/
  | vigilUackWrite (r : Req) (v : Word)
  /-- VIGIL_LOG_C_WRITE, R470. PF0 consumes records from the VIGIL ring. -/
  | vigilLogCWrite (r : Req) (v : Word)
  /-- CHECKER_SELF_TEST, R485. VIGIL injects known errors into a checker, writing a latent record if it fails. -/
  | checkerSelfTest (blk : Byte) (n : Nat) (pass : Bool)
  /-- RESET_REQUIRED_FAULT, R484. A fault of the non-serviceable kind sets RESETREQ and stops fetching. -/
  | resetRequiredFault (blk check : Byte)
  /-- TRUST_KEYLOAD_GO, R497. Loads a wrapped key blob into a key slot. -/
  | trustKeyloadGo (r : Req)
  /-- TRUST_FW_ACT_GO, R498. Activates the staged slot as a trial image. -/
  | trustFwActGo (r : Req)
  /-- TRUST_FW_ACT_COMMIT, R498. Commits the trial image and raises the rollback count. -/
  | trustFwActCommit (r : Req)
  /-- MBX_CMD_WRITE, R501. A write of MBX_CMD takes mailbox ownership, or aborts with 0x00. -/
  | mbxCmdWrite (side : Bool) (r : Req) (v : Word)
  /-- MBX_DATA_WRITE, R501. A request word is written; the last one starts the command. -/
  | mbxDataWrite (side : Bool) (r : Req) (v : Word)
  /-- MBX_DATA_READ, R501. An owner read pops the next response word; the last returns the mailbox to IDLE. -/
  | mbxDataRead (side : Bool) (r : Req)
  /-- MAILBOX_SIDEBAND_TIMEOUT, R502. The side band is silent for 1 s and the command is aborted. -/
  | mailboxSidebandTimeout
  /-- GET_INFO, R503. Returns boot state, slot versions and DEVICE_ID. -/
  | getInfo
  /-- GET_CERT, R503. Returns bytes of a certificate chain. -/
  | getCert
  /-- ATT_REPORT, R504. Returns a signed attestation report. -/
  | attReport
  /-- FW_STAGE, R503. Erases and programs one sector of the staging slot. -/
  | fwStage (flashOk : Bool)
  /-- FW_VERIFY, R503. Verifies the staged slot as the ROM would. -/
  | fwVerify
  /-- GET_VERSION, R500. SPDM request for supported versions. -/
  | getVersion
  /-- GET_CAPABILITIES, R500. SPDM request for capabilities. -/
  | getCapabilities (ctExp xferSize maxMsg : Nat)
  /-- NEGOTIATE_ALGORITHMS, R500. SPDM algorithm negotiation. -/
  | negotiateAlgorithms (ext hash meas : Bool)
  /-- GET_DIGESTS, R500. SPDM request for certificate chain digests. -/
  | getDigests
  /-- GET_CERTIFICATE, R500. SPDM request for a certificate chain. -/
  | getCertificate (slot ofs len : Nat)
  /-- CHALLENGE, R500. SPDM challenge answered with a signed CHALLENGE_AUTH. -/
  | challenge (slot summary : Nat) (nonce : BitVec 256)
  /-- GET_MEASUREMENTS, R500. SPDM request for signed measurements. -/
  | getMeasurements (slot index : Nat) (sign : Bool) (nonce : BitVec 256)
  /-- CHUNK_SEND, R500. SPDM chunked request transfer. -/
  | chunkSend (handle seq : Nat) (last : Bool) (data : List Byte)
  /-- CHUNK_GET, R500. SPDM chunked response transfer. -/
  | chunkGet (handle seq : Nat)
  /-- POWER_ON_RESET, R510. PWROK low then rising resets everything and runs the start-up sequence to READY. -/
  | powerOnReset (env : BootEnv)
  /-- DEVICE_RESET, R508. Writing DEV resets all but the TCLK domain and runs start-up from the ROM step. -/
  | deviceReset (r : Req) (env : BootEnv)
  /-- TEST_RESET, R506. TRST_N low resets the TAP. -/
  | testReset
  /-- PLL_LOCK_LOSS, R513. The root PLL loses lock; clocks stop, TCLK runs from REFCLK and RESETREQ is set. -/
  | pllLockLoss
  /-- CLK_DIV_WRITE, R515. A PDIV write switches the PCLK divider glitch-free. -/
  | clkDivWrite (r : Req) (v : Word)
  /-- CLK_TRIM_WRITE, R516. A TRIM write slews the PLL multiplier toward the new value. -/
  | clkTrimWrite (r : Req) (v : Word)
  /-- STEWARD_TIMER_FIRE, R518. The Almanac reaches a timer's DEADLINE; it fires and re-arms or disables. -/
  | stewardTimerFire (w i : Nat)
  /-- CLK_TMR_DL_WRITE, R518. A DEADLINE high-word write takes effect, first in a same-TCLK comparison. -/
  | clkTmrDlWrite (r : Req) (w i : Nat) (hi : Bool) (v : Word)
  /-- PWR_AVS_WRITE, R519. A VSET write adjusts the core voltage over AVSBus and confirms it. -/
  | pwrAvsWrite (r : Req) (v : Word) (vout : BitVec 10)
  /-- AVS_CONFIRM_TIMEOUT, R519. The rail misses VSET within 1 ms; AVSERR is set and the last good value restored. -/
  | avsConfirmTimeout
  /-- TEMPERATURE_SAMPLE, R521. The sensors sample every 100 µs and update TJ. -/
  | temperatureSample (tj : BitVec 11)
  /-- THROTTLE_STEP, R522. The effective PCLK divider steps up or down after the temperature or power condition holds. -/
  | throttleStep (up : Bool)
  /-- ENGINE_FAULT, R256. VIGIL detects a fault in a CMP or ERS engine; its jobs in flight run again from their start on another engine, and a second fault fails the job with 0x0702. -/
  | engineFault (ers : Bool) (e : Nat)
  /-- ROOT_PLL_RELOCK, R513. The root PLL regains lock once REFCLK is valid again; the Almanac returns to one count per TCLK and its rate correction resumes. -/
  | rootPllRelock
  /-- PIN_RAW_LEVEL_CHANGE, R428. The raw level of a pin source changes, which starts or restarts its glitch-filter count and updates RAW. -/
  | pinRawLevelChange (pin : Nat) (level : Bool)
  /-- TIME_SOURCE_ABSENT, R466. Neither TIME messages from the source nor TSYNC pulses arrive for 1 ms, so the device keeps its last rate and LOCK reads 0. -/
  | timeSourceAbsent
  /-- TIME_SOURCE_FIRST_EDGE, R465. A device with TSRC = 1 drives the first TSYNC edge 10 ms after its own power-on reset ends, starting its Almanac. -/
  | timeSourceFirstEdge
  /-- PARTNER_MIRROR_MESSAGE, R462. A CONTROL message from the partner reports that it has set or cleared EN in PLK_MIRROR, or has reset, which moves mirroring to SYNCING or BROKEN. -/
  | partnerMirrorMessage (ev : PartnerEvent)
  /-- UNSUPPORTED_PDU, R382. A PDU of a type not listed, or sent in the wrong direction, arrives and is handled as a fatal transport error with C2HTermReq. -/
  | unsupportedPdu (c : Nat) (bad : BadPdu)
  /-- INVALID_COMMAND_OPCODE, R385. A capsule with an NVMe opcode that the device does not handle completes with Invalid Command Opcode. -/
  | invalidCommandOpcode (c cid op : Nat)
  /-- TCP_SEGMENT_CHECKSUM_ERROR, R377. A received TCP segment fails its checksum and is discarded and counted. -/
  | tcpSegmentChecksumError (port : Nat)
  /-- UNCORRECTABLE_FEC_CODEWORD, R391. A port receives an RS(544,514) codeword that FEC cannot correct, and NET_FEC UNCORR counts it. -/
  | uncorrectableFecCodeword (port : Nat)
  deriving DecidableEq, Repr

end Sys2Proof
end

