-- ==== Sys2Proof/WellFormed.lean ====
section
/-! DEFINITION. WellFormed.lean: which commands are well formed: the fields of a column processor instruction that must
be 0 (R185), and the ranges of unit numbers. -/

namespace Sys2Proof

/-- Whether the fields that must be 0, and those with a fixed form, are so (R180, R184, R186, R191, R193, R198). -/
def cpFieldsOk : Instr → Bool
  | .lui _ _ a _ => a = 0
  | .vcfg _ _ _ imm => imm >>> 4 = 0
  | .vmv _ f _ => f.a = 0
  | .vldff _ f => f.pe
  | .vpatm _ f => f.d.toNat < 16 && f.b.toNat % 2 = 0
  | .ceq _ f _ => f.d.toNat < 16
  | .cne _ f _ => f.d.toNat < 16
  | .clt _ f _ => f.d.toNat < 16
  | .cle _ f _ => f.d.toNat < 16
  | .cgt _ f _ => f.d.toNat < 16
  | .cge _ f _ => f.d.toNat < 16
  | .cltu _ f _ => f.d.toNat < 16
  | .cleu _ f _ => f.d.toNat < 16
  | .cgtu _ f _ => f.d.toNat < 16
  | .cgeu _ f _ => f.d.toNat < 16
  | .cfeq _ f _ => f.d.toNat < 16
  | .cflt _ f _ => f.d.toNat < 16
  | .cfle _ f _ => f.d.toNat < 16
  | .cfun _ f _ => f.d.toNat < 16
  | .cftlt _ f _ => f.d.toNat < 16
  | .vbeq _ f => f.d.toNat < 16
  | .vbrng _ f => f.d.toNat < 16
  | .vpat _ f => f.d.toNat < 16
  | .pand _ f => f.d.toNat < 16 && f.a.toNat < 16 && f.b.toNat < 16 && !f.pe && f.pm = 0
  | .por _ f => f.d.toNat < 16 && f.a.toNat < 16 && f.b.toNat < 16 && !f.pe && f.pm = 0
  | .pxor _ f => f.d.toNat < 16 && f.a.toNat < 16 && f.b.toNat < 16 && !f.pe && f.pm = 0
  | .pandn _ f => f.d.toNat < 16 && f.a.toNat < 16 && f.b.toNat < 16 && !f.pe && f.pm = 0
  | .pnot _ f => f.d.toNat < 16 && f.a.toNat < 16 && !f.pe && f.pm = 0
  | .pmov _ f => f.d.toNat < 16 && f.a.toNat < 16 && !f.pe && f.pm = 0
  | .pset _ f => f.d.toNat < 16 && !f.pe && f.pm = 0
  | .pclr _ f => f.d.toNat < 16 && !f.pe && f.pm = 0
  | .pfromg _ f => f.d.toNat < 16 && !f.pe && f.pm = 0
  | .pldb _ f => f.d.toNat < 16 && !f.pe && f.pm = 0
  | .pstb _ f => f.d.toNat < 16 && !f.pe && f.pm = 0
  | .pcnt _ f => f.a.toNat < 16 && !f.pe && f.pm = 0
  | .pfirst _ f => f.a.toNat < 16 && !f.pe && f.pm = 0
  | _ => true

/-- Whether a requester exists: a VF is 1 to 4,096, a steward 0 to 3 (02). -/
def reqOk : Req → Bool
  | .vf n => 1 ≤ n && n ≤ 4096
  | .stw w => w < 4
  | _ => true

/-- Whether the unit numbers of a command are in range. -/
def unitsOk : Instr → Bool
  | .registerWrite r _ _ _ => reqOk r
  | .reservedAccess r _ _ _ _ => reqOk r
  | .rcClearingRead r _ _ => reqOk r
  | .counterLowRead r _ => reqOk r
  | .clkAlmLoRead r => reqOk r
  | .glbGuardWrite r _ => reqOk r
  | .generationIncrementReport p => p < 4096
  | .morselClaim t => t < 18
  | .morselComplete t k _ => t < 18 && k < 2
  | .noclaimWrite r t _ => reqOk r && t < 18
  | .stagingFillComplete u _ => (u.tile < 18 && u.cp < 4)
  | .kernelWatchdogExpiry u => (u.tile < 18 && u.cp < 4)
  | .rangeOperationComplete t => t < 18
  | .cacheDisableFlush r u => (u.tile < 18 && u.cp < 4) && reqOk r
  | .cacheEnable r u => (u.tile < 18 && u.cp < 4) && reqOk r
  | .illegalInstruction u _ => (u.tile < 18 && u.cp < 4)
  | .add u _ _ _ => (u.tile < 18 && u.cp < 4)
  | .sub u _ _ _ => (u.tile < 18 && u.cp < 4)
  | .mul u _ _ _ => (u.tile < 18 && u.cp < 4)
  | .mulh u _ _ _ => (u.tile < 18 && u.cp < 4)
  | .mulhu u _ _ _ => (u.tile < 18 && u.cp < 4)
  | .div u _ _ _ => (u.tile < 18 && u.cp < 4)
  | .divu u _ _ _ => (u.tile < 18 && u.cp < 4)
  | .rem u _ _ _ => (u.tile < 18 && u.cp < 4)
  | .remu u _ _ _ => (u.tile < 18 && u.cp < 4)
  | .and u _ _ _ => (u.tile < 18 && u.cp < 4)
  | .or u _ _ _ => (u.tile < 18 && u.cp < 4)
  | .xor u _ _ _ => (u.tile < 18 && u.cp < 4)
  | .shl u _ _ _ => (u.tile < 18 && u.cp < 4)
  | .shr u _ _ _ => (u.tile < 18 && u.cp < 4)
  | .sar u _ _ _ => (u.tile < 18 && u.cp < 4)
  | .rotl u _ _ _ => (u.tile < 18 && u.cp < 4)
  | .slt u _ _ _ => (u.tile < 18 && u.cp < 4)
  | .sltu u _ _ _ => (u.tile < 18 && u.cp < 4)
  | .min u _ _ _ => (u.tile < 18 && u.cp < 4)
  | .max u _ _ _ => (u.tile < 18 && u.cp < 4)
  | .minu u _ _ _ => (u.tile < 18 && u.cp < 4)
  | .maxu u _ _ _ => (u.tile < 18 && u.cp < 4)
  | .clz u _ _ => (u.tile < 18 && u.cp < 4)
  | .ctz u _ _ => (u.tile < 18 && u.cp < 4)
  | .popc u _ _ => (u.tile < 18 && u.cp < 4)
  | .addo u _ _ _ => (u.tile < 18 && u.cp < 4)
  | .subo u _ _ _ => (u.tile < 18 && u.cp < 4)
  | .mulo u _ _ _ => (u.tile < 18 && u.cp < 4)
  | .sext u _ _ _ => (u.tile < 18 && u.cp < 4)
  | .zext u _ _ _ => (u.tile < 18 && u.cp < 4)
  | .addi u _ _ _ => (u.tile < 18 && u.cp < 4)
  | .andi u _ _ _ => (u.tile < 18 && u.cp < 4)
  | .ori u _ _ _ => (u.tile < 18 && u.cp < 4)
  | .xori u _ _ _ => (u.tile < 18 && u.cp < 4)
  | .shli u _ _ _ => (u.tile < 18 && u.cp < 4)
  | .shri u _ _ _ => (u.tile < 18 && u.cp < 4)
  | .sari u _ _ _ => (u.tile < 18 && u.cp < 4)
  | .lui u _ _ _ => (u.tile < 18 && u.cp < 4)
  | .slti u _ _ _ => (u.tile < 18 && u.cp < 4)
  | .fadd u _ _ _ _ => (u.tile < 18 && u.cp < 4)
  | .fsub u _ _ _ _ => (u.tile < 18 && u.cp < 4)
  | .fmul u _ _ _ _ => (u.tile < 18 && u.cp < 4)
  | .fdiv u _ _ _ _ => (u.tile < 18 && u.cp < 4)
  | .fsqrt u _ _ _ => (u.tile < 18 && u.cp < 4)
  | .fmin u _ _ _ _ => (u.tile < 18 && u.cp < 4)
  | .fmax u _ _ _ _ => (u.tile < 18 && u.cp < 4)
  | .feq u _ _ _ _ => (u.tile < 18 && u.cp < 4)
  | .flt u _ _ _ _ => (u.tile < 18 && u.cp < 4)
  | .fle u _ _ _ _ => (u.tile < 18 && u.cp < 4)
  | .fcvti u _ _ _ => (u.tile < 18 && u.cp < 4)
  | .fcvtf u _ _ _ => (u.tile < 18 && u.cp < 4)
  | .fcvtp u _ _ _ => (u.tile < 18 && u.cp < 4)
  | .fma u _ _ _ _ => (u.tile < 18 && u.cp < 4)
  | .lb u _ _ _ => (u.tile < 18 && u.cp < 4)
  | .lh u _ _ _ => (u.tile < 18 && u.cp < 4)
  | .lw u _ _ _ => (u.tile < 18 && u.cp < 4)
  | .ld u _ _ _ => (u.tile < 18 && u.cp < 4)
  | .lbu u _ _ _ => (u.tile < 18 && u.cp < 4)
  | .lhu u _ _ _ => (u.tile < 18 && u.cp < 4)
  | .lwu u _ _ _ => (u.tile < 18 && u.cp < 4)
  | .sb u _ _ _ => (u.tile < 18 && u.cp < 4)
  | .sh u _ _ _ => (u.tile < 18 && u.cp < 4)
  | .sw u _ _ _ => (u.tile < 18 && u.cp < 4)
  | .sd u _ _ _ => (u.tile < 18 && u.cp < 4)
  | .beq u _ _ _ => (u.tile < 18 && u.cp < 4)
  | .bne u _ _ _ => (u.tile < 18 && u.cp < 4)
  | .blt u _ _ _ => (u.tile < 18 && u.cp < 4)
  | .bge u _ _ _ => (u.tile < 18 && u.cp < 4)
  | .bltu u _ _ _ => (u.tile < 18 && u.cp < 4)
  | .bgeu u _ _ _ => (u.tile < 18 && u.cp < 4)
  | .jmp u _ => (u.tile < 18 && u.cp < 4)
  | .jal u _ => (u.tile < 18 && u.cp < 4)
  | .vld u _ => (u.tile < 18 && u.cp < 4)
  | .vlds u _ => (u.tile < 18 && u.cp < 4)
  | .vldx u _ => (u.tile < 18 && u.cp < 4)
  | .vldff u _ => (u.tile < 18 && u.cp < 4)
  | .vst u _ => (u.tile < 18 && u.cp < 4)
  | .vsts u _ => (u.tile < 18 && u.cp < 4)
  | .vstx u _ => (u.tile < 18 && u.cp < 4)
  | .halt u => (u.tile < 18 && u.cp < 4)
  | .fence u => (u.tile < 18 && u.cp < 4)
  | .rdsr u _ _ => (u.tile < 18 && u.cp < 4)
  | .wrsr u _ _ => (u.tile < 18 && u.cp < 4)
  | .trap u _ => (u.tile < 18 && u.cp < 4)
  | .jr u _ _ => (u.tile < 18 && u.cp < 4)
  | .nop u => (u.tile < 18 && u.cp < 4)
  | .dcz u _ => (u.tile < 18 && u.cp < 4)
  | .dcl u _ => (u.tile < 18 && u.cp < 4)
  | .dci u _ => (u.tile < 18 && u.cp < 4)
  | .dcci u _ => (u.tile < 18 && u.cp < 4)
  | .dlock u _ _ => (u.tile < 18 && u.cp < 4)
  | .dunlock u _ => (u.tile < 18 && u.cp < 4)
  | .rngc u _ _ => (u.tile < 18 && u.cp < 4)
  | .rngi u _ _ => (u.tile < 18 && u.cp < 4)
  | .rngci u _ _ => (u.tile < 18 && u.cp < 4)
  | .rngiIncludeLocked u _ _ => (u.tile < 18 && u.cp < 4)
  | .rngciIncludeLocked u _ _ => (u.tile < 18 && u.cp < 4)
  | .vcfg u _ _ _ => (u.tile < 18 && u.cp < 4)
  | .vredsum u _ => (u.tile < 18 && u.cp < 4)
  | .vredmin u _ => (u.tile < 18 && u.cp < 4)
  | .vredmax u _ => (u.tile < 18 && u.cp < 4)
  | .vredminu u _ => (u.tile < 18 && u.cp < 4)
  | .vredmaxu u _ => (u.tile < 18 && u.cp < 4)
  | .vfredsum u _ => (u.tile < 18 && u.cp < 4)
  | .vfredmin u _ => (u.tile < 18 && u.cp < 4)
  | .vfredmax u _ => (u.tile < 18 && u.cp < 4)
  | .vget u _ => (u.tile < 18 && u.cp < 4)
  | .vins u _ => (u.tile < 18 && u.cp < 4)
  | .viota u _ => (u.tile < 18 && u.cp < 4)
  | .vcompress u _ => (u.tile < 18 && u.cp < 4)
  | .vperm u _ => (u.tile < 18 && u.cp < 4)
  | .vslup u _ => (u.tile < 18 && u.cp < 4)
  | .vsldn u _ => (u.tile < 18 && u.cp < 4)
  | .vadd u _ _ => (u.tile < 18 && u.cp < 4)
  | .vsub u _ _ => (u.tile < 18 && u.cp < 4)
  | .vmul u _ _ => (u.tile < 18 && u.cp < 4)
  | .vmulh u _ _ => (u.tile < 18 && u.cp < 4)
  | .vmulhu u _ _ => (u.tile < 18 && u.cp < 4)
  | .vdiv u _ _ => (u.tile < 18 && u.cp < 4)
  | .vdivu u _ _ => (u.tile < 18 && u.cp < 4)
  | .vrem u _ _ => (u.tile < 18 && u.cp < 4)
  | .vremu u _ _ => (u.tile < 18 && u.cp < 4)
  | .vand u _ _ => (u.tile < 18 && u.cp < 4)
  | .vor u _ _ => (u.tile < 18 && u.cp < 4)
  | .vxor u _ _ => (u.tile < 18 && u.cp < 4)
  | .vshl u _ _ => (u.tile < 18 && u.cp < 4)
  | .vshr u _ _ => (u.tile < 18 && u.cp < 4)
  | .vsar u _ _ => (u.tile < 18 && u.cp < 4)
  | .vrotl u _ _ => (u.tile < 18 && u.cp < 4)
  | .vmin u _ _ => (u.tile < 18 && u.cp < 4)
  | .vmax u _ _ => (u.tile < 18 && u.cp < 4)
  | .vminu u _ _ => (u.tile < 18 && u.cp < 4)
  | .vmaxu u _ _ => (u.tile < 18 && u.cp < 4)
  | .vadds u _ _ => (u.tile < 18 && u.cp < 4)
  | .vsubs u _ _ => (u.tile < 18 && u.cp < 4)
  | .vaddsu u _ _ => (u.tile < 18 && u.cp < 4)
  | .vsubsu u _ _ => (u.tile < 18 && u.cp < 4)
  | .vaddo u _ _ => (u.tile < 18 && u.cp < 4)
  | .vsubo u _ _ => (u.tile < 18 && u.cp < 4)
  | .vmulo u _ _ => (u.tile < 18 && u.cp < 4)
  | .vmv u _ _ => (u.tile < 18 && u.cp < 4)
  | .vmerge u _ _ => (u.tile < 18 && u.cp < 4)
  | .vsexth u _ _ => (u.tile < 18 && u.cp < 4)
  | .vzexth u _ _ => (u.tile < 18 && u.cp < 4)
  | .vnarh u _ _ => (u.tile < 18 && u.cp < 4)
  | .vpopc u _ _ => (u.tile < 18 && u.cp < 4)
  | .vclz u _ _ => (u.tile < 18 && u.cp < 4)
  | .ceq u _ _ => (u.tile < 18 && u.cp < 4)
  | .cne u _ _ => (u.tile < 18 && u.cp < 4)
  | .clt u _ _ => (u.tile < 18 && u.cp < 4)
  | .cle u _ _ => (u.tile < 18 && u.cp < 4)
  | .cgt u _ _ => (u.tile < 18 && u.cp < 4)
  | .cge u _ _ => (u.tile < 18 && u.cp < 4)
  | .cltu u _ _ => (u.tile < 18 && u.cp < 4)
  | .cleu u _ _ => (u.tile < 18 && u.cp < 4)
  | .cgtu u _ _ => (u.tile < 18 && u.cp < 4)
  | .cgeu u _ _ => (u.tile < 18 && u.cp < 4)
  | .cfeq u _ _ => (u.tile < 18 && u.cp < 4)
  | .cflt u _ _ => (u.tile < 18 && u.cp < 4)
  | .cfle u _ _ => (u.tile < 18 && u.cp < 4)
  | .cfun u _ _ => (u.tile < 18 && u.cp < 4)
  | .cftlt u _ _ => (u.tile < 18 && u.cp < 4)
  | .vbeq u _ => (u.tile < 18 && u.cp < 4)
  | .vbrng u _ => (u.tile < 18 && u.cp < 4)
  | .vpat u _ => (u.tile < 18 && u.cp < 4)
  | .vpatm u _ => (u.tile < 18 && u.cp < 4)
  | .vfadd u _ _ => (u.tile < 18 && u.cp < 4)
  | .vfsub u _ _ => (u.tile < 18 && u.cp < 4)
  | .vfmul u _ _ => (u.tile < 18 && u.cp < 4)
  | .vfdiv u _ _ => (u.tile < 18 && u.cp < 4)
  | .vfsqrt u _ _ => (u.tile < 18 && u.cp < 4)
  | .vfmin u _ _ => (u.tile < 18 && u.cp < 4)
  | .vfmax u _ _ => (u.tile < 18 && u.cp < 4)
  | .vfma u _ _ => (u.tile < 18 && u.cp < 4)
  | .vfnms u _ _ => (u.tile < 18 && u.cp < 4)
  | .vfabs u _ => (u.tile < 18 && u.cp < 4)
  | .vfneg u _ => (u.tile < 18 && u.cp < 4)
  | .vcvtfi u _ => (u.tile < 18 && u.cp < 4)
  | .vcvtif u _ => (u.tile < 18 && u.cp < 4)
  | .vcvtuf u _ => (u.tile < 18 && u.cp < 4)
  | .vcvtds u _ => (u.tile < 18 && u.cp < 4)
  | .vcvtsd u _ => (u.tile < 18 && u.cp < 4)
  | .vcmul u _ _ => (u.tile < 18 && u.cp < 4)
  | .vcmulc u _ _ => (u.tile < 18 && u.cp < 4)
  | .vcmac u _ _ => (u.tile < 18 && u.cp < 4)
  | .vcmacc u _ _ => (u.tile < 18 && u.cp < 4)
  | .vcadd u _ _ => (u.tile < 18 && u.cp < 4)
  | .vcsub u _ _ => (u.tile < 18 && u.cp < 4)
  | .vcabs2 u _ => (u.tile < 18 && u.cp < 4)
  | .vbfly u _ => (u.tile < 18 && u.cp < 4)
  | .vgfmul u _ _ => (u.tile < 18 && u.cp < 4)
  | .vgfmac u _ _ => (u.tile < 18 && u.cp < 4)
  | .pand u _ => (u.tile < 18 && u.cp < 4)
  | .por u _ => (u.tile < 18 && u.cp < 4)
  | .pxor u _ => (u.tile < 18 && u.cp < 4)
  | .pandn u _ => (u.tile < 18 && u.cp < 4)
  | .pnot u _ => (u.tile < 18 && u.cp < 4)
  | .pset u _ => (u.tile < 18 && u.cp < 4)
  | .pclr u _ => (u.tile < 18 && u.cp < 4)
  | .pmov u _ => (u.tile < 18 && u.cp < 4)
  | .pcnt u _ => (u.tile < 18 && u.cp < 4)
  | .pfirst u _ => (u.tile < 18 && u.cp < 4)
  | .pfromg u _ => (u.tile < 18 && u.cp < 4)
  | .pldb u _ => (u.tile < 18 && u.cp < 4)
  | .pstb u _ => (u.tile < 18 && u.cp < 4)
  | .astoreOwnerWrite r b _ => reqOk r && b < 32
  | .bankClearComplete b => b < 32
  | .respreadStep n => n < 64
  | .replayEnd a => a < 64
  | .arrDrainComplete a => a < 64
  | .stripeOpen a _ => a < 64
  | .stripeCloseTimeout a _ => a < 64
  | .stripeCommit a _ => a < 64
  | .stripeFree a _ => a < 64
  | .harvest a => a < 64
  | .mapCheckpoint a => a < 64
  | .arcMapcWrite r _ => reqOk r
  | .arcDestroyGo r _ => reqOk r
  | .arcDpWrite r _ _ => reqOk r
  | .rebuildCursorStep a => a < 64
  | .reshapeStep a => a < 64
  | .reshapeFinish a => a < 64
  | .vaultSeal a _ => a < 64
  | .sqEnable r q _ => reqOk r && q < 65536
  | .cqEnable r q _ => reqOk r && q < 65536
  | .sqDisable r q _ => reqOk r && q < 65536
  | .cqDisable r q _ => reqOk r && q < 65536
  | .producerDoorbell r _ _ => reqOk r
  | .pushWrite r _ _ _ => reqOk r
  | .completionConsumerWrite r _ _ => reqOk r
  | .entryFetch q => q < 65536
  | .sqFetchError q => q < 65536
  | .moderationTimeout q => q < 65536
  | .netTsPop r _ => reqOk r
  | .netPortWrite r _ _ => reqOk r
  | .partitionEnable r p _ => reqOk r && p < 4096
  | .partitionDisable r p _ => reqOk r && p < 4096
  | .partitionResetComplete p => p < 4096
  | .freezeComplete p => p < 4096
  | .fixedSlotStart p => p < 4096
  | .fixedSlotEnd p => p < 4096
  | .trustMtrCWrite r _ => reqOk r
  | .pinFilterExpiry pin => pin < 4
  | .handlerEntry w => w < 4
  | .eret w => w < 4
  | .evcHackWrite r _ => reqOk r
  | .evcSwsetWrite r _ => reqOk r
  | .evcRouteEnable r _ _ => reqOk r
  | .sdmaGo r c _ => reqOk r && c < 64
  | .sdmaAbort r c _ => reqOk r && c < 64
  | .sdmaResume r c _ => reqOk r && c < 64
  | .burstStart c _ => c < 64
  | .burstComplete c _ _ => c < 64
  | .readbackComplete c _ => c < 64
  | .sdmaArmedTimeout c => c < 64
  | .linkTrainingComplete k _ _ => k < 4
  | .linkTrainingTimeout k => k < 4
  | .linkFlitTimeout k => k < 4
  | .laneErrorRate k lane => k < 4 && lane < 8
  | .plkRetrain r k => reqOk r && k < 4
  | .plkOfflWrite r _ _ => reqOk r
  | .peerBindingEnable r _ _ => reqOk r
  | .plkMirrorEnable r _ => reqOk r
  | .plkMirrorDisable r => reqOk r
  | .plkMirrorRelease r => reqOk r
  | .glbTileMapWrite r _ _ => reqOk r
  | .vigilSvcOut r _ => reqOk r
  | .vigilSvcTest r _ => reqOk r
  | .vigilSvcIn r _ => reqOk r
  | .vigilUackWrite r _ => reqOk r
  | .vigilLogCWrite r _ => reqOk r
  | .trustKeyloadGo r => reqOk r
  | .trustFwActGo r => reqOk r
  | .trustFwActCommit r => reqOk r
  | .mbxCmdWrite _ r _ => reqOk r
  | .mbxDataWrite _ r _ => reqOk r
  | .mbxDataRead _ r => reqOk r
  | .deviceReset r _ => reqOk r
  | .clkDivWrite r _ => reqOk r
  | .clkTrimWrite r _ => reqOk r
  | .stewardTimerFire w i => w < 4 && i < 8
  | .clkTmrDlWrite r w i _ _ => reqOk r && w < 4 && i < 8
  | .pwrAvsWrite r _ _ => reqOk r
  | .pinRawLevelChange pin _ => pin < 4
  | _ => true

/-- Whether a command is well formed. -/
def WellFormed (i : Instr) : Bool := cpFieldsOk i && unitsOk i

end Sys2Proof
end

