-- ==== Sys2Proof/Decode.lean ====
section
/-! DEFINITION. Decode.lean: what a word of the command table spells (the table gives no row bits), and the words of the
column processor instructions: the formats and opcodes of R184 and R186, both ways. -/

namespace Sys2Proof

/-- The command a table word spells: spec/opcode_table.json gives no row bits, so no word spells one. -/
def decodeTableWord (_nbits _w : Nat) : Option Instr := none

/-- The fields of an instruction word (R184). -/
structure WordFields where
  major : BitVec 6
  d : BitVec 5
  a : BitVec 5
  b : BitVec 5
  pe : BitVec 1
  pm : BitVec 4
  fn : BitVec 6
  deriving DecidableEq, Repr

/-- The fields joined to a word, the major opcode on top (R184). -/
def joinWord (f : WordFields) : Word := f.major ++ f.d ++ f.a ++ f.b ++ f.pe ++ f.pm ++ f.fn

/-- The fields of a word (R184). -/
def splitWord (w : Word) : WordFields :=
  { major := w.extractLsb' 26 6, d := w.extractLsb' 21 5, a := w.extractLsb' 16 5, b := w.extractLsb' 11 5
    pe := w.extractLsb' 10 1, pm := w.extractLsb' 6 4, fn := w.extractLsb' 0 6 }

/-- IMM16 and OFS16: bits 15:0 (R184). -/
def WordFields.imm16 (f : WordFields) : BitVec 16 := f.b ++ f.pe ++ f.pm ++ f.fn

/-- OFS26: bits 25:0 (R184). -/
def WordFields.ofs26 (f : WordFields) : BitVec 26 := f.d ++ f.a ++ f.b ++ f.pe ++ f.pm ++ f.fn

/-- The operand fields of formats V and VM (R184). -/
def WordFields.vf (f : WordFields) : VFields := ⟨f.d, f.a, f.b, f.pe = 1, f.pm⟩

/-- A word of format SR. -/
def encR (major : BitVec 6) (d a b : BitVec 5) (pe : Bool) (pm : BitVec 4) (fn : BitVec 6) : Word :=
  joinWord ⟨major, d, a, b, BitVec.ofBool pe, pm, fn⟩

/-- A word of format SI, BR or VC. -/
def encI (major : BitVec 6) (d a : BitVec 5) (imm : BitVec 16) : Word :=
  joinWord ⟨major, d, a, imm.extractLsb' 11 5, imm.extractLsb' 10 1, imm.extractLsb' 6 4, imm.extractLsb' 0 6⟩

/-- A word of format J. -/
def encJ (major : BitVec 6) (ofs : BitVec 26) : Word :=
  joinWord ⟨major, ofs.extractLsb' 21 5, ofs.extractLsb' 16 5, ofs.extractLsb' 11 5, ofs.extractLsb' 10 1, ofs.extractLsb' 6 4, ofs.extractLsb' 0 6⟩

/-- A word of format V or VM. -/
def encV (major : BitVec 6) (f : VFields) (fn : BitVec 6) : Word := encR major f.d f.a f.b f.pe f.pm fn

/-- FN of a scalar FP instruction: bit 5 names the precision (R186). -/
def fpFn (dbl : Bool) (fn : BitVec 5) : BitVec 6 := BitVec.ofBool dbl ++ fn

/-- The word of a column processor instruction; none for every other command (R184, R186). -/
def cpEncode : Instr → Option Word
  | .add _ d a b => some (encR 0x01 d a b false 0 0x00)
  | .sub _ d a b => some (encR 0x01 d a b false 0 0x01)
  | .mul _ d a b => some (encR 0x01 d a b false 0 0x02)
  | .mulh _ d a b => some (encR 0x01 d a b false 0 0x03)
  | .mulhu _ d a b => some (encR 0x01 d a b false 0 0x04)
  | .div _ d a b => some (encR 0x01 d a b false 0 0x05)
  | .divu _ d a b => some (encR 0x01 d a b false 0 0x06)
  | .rem _ d a b => some (encR 0x01 d a b false 0 0x07)
  | .remu _ d a b => some (encR 0x01 d a b false 0 0x08)
  | .and _ d a b => some (encR 0x01 d a b false 0 0x09)
  | .or _ d a b => some (encR 0x01 d a b false 0 0x0A)
  | .xor _ d a b => some (encR 0x01 d a b false 0 0x0B)
  | .shl _ d a b => some (encR 0x01 d a b false 0 0x0C)
  | .shr _ d a b => some (encR 0x01 d a b false 0 0x0D)
  | .sar _ d a b => some (encR 0x01 d a b false 0 0x0E)
  | .rotl _ d a b => some (encR 0x01 d a b false 0 0x0F)
  | .slt _ d a b => some (encR 0x01 d a b false 0 0x10)
  | .sltu _ d a b => some (encR 0x01 d a b false 0 0x11)
  | .min _ d a b => some (encR 0x01 d a b false 0 0x12)
  | .max _ d a b => some (encR 0x01 d a b false 0 0x13)
  | .minu _ d a b => some (encR 0x01 d a b false 0 0x14)
  | .maxu _ d a b => some (encR 0x01 d a b false 0 0x15)
  | .clz _ d a => some (encR 0x01 d a 0 false 0 0x16)
  | .ctz _ d a => some (encR 0x01 d a 0 false 0 0x17)
  | .popc _ d a => some (encR 0x01 d a 0 false 0 0x18)
  | .addo _ d a b => some (encR 0x01 d a b false 0 0x19)
  | .subo _ d a b => some (encR 0x01 d a b false 0 0x1A)
  | .mulo _ d a b => some (encR 0x01 d a b false 0 0x1B)
  | .sext _ d a b => some (encR 0x01 d a b false 0 0x1C)
  | .zext _ d a b => some (encR 0x01 d a b false 0 0x1D)
  | .addi _ d a imm => some (encI 0x02 d a imm)
  | .andi _ d a imm => some (encI 0x03 d a imm)
  | .ori _ d a imm => some (encI 0x04 d a imm)
  | .xori _ d a imm => some (encI 0x05 d a imm)
  | .shli _ d a imm => some (encI 0x06 d a imm)
  | .shri _ d a imm => some (encI 0x07 d a imm)
  | .sari _ d a imm => some (encI 0x08 d a imm)
  | .lui _ d a imm => some (encI 0x09 d a imm)
  | .slti _ d a imm => some (encI 0x0A d a imm)
  | .fadd _ d a b dbl => some (encR 0x0B d a b false 0 (fpFn dbl 0x00))
  | .fsub _ d a b dbl => some (encR 0x0B d a b false 0 (fpFn dbl 0x01))
  | .fmul _ d a b dbl => some (encR 0x0B d a b false 0 (fpFn dbl 0x02))
  | .fdiv _ d a b dbl => some (encR 0x0B d a b false 0 (fpFn dbl 0x03))
  | .fsqrt _ d a dbl => some (encR 0x0B d a 0 false 0 (fpFn dbl 0x04))
  | .fmin _ d a b dbl => some (encR 0x0B d a b false 0 (fpFn dbl 0x05))
  | .fmax _ d a b dbl => some (encR 0x0B d a b false 0 (fpFn dbl 0x06))
  | .feq _ d a b dbl => some (encR 0x0B d a b false 0 (fpFn dbl 0x07))
  | .flt _ d a b dbl => some (encR 0x0B d a b false 0 (fpFn dbl 0x08))
  | .fle _ d a b dbl => some (encR 0x0B d a b false 0 (fpFn dbl 0x09))
  | .fcvti _ d a dbl => some (encR 0x0B d a 0 false 0 (fpFn dbl 0x0A))
  | .fcvtf _ d a dbl => some (encR 0x0B d a 0 false 0 (fpFn dbl 0x0B))
  | .fcvtp _ d a dbl => some (encR 0x0B d a 0 false 0 (fpFn dbl 0x0C))
  | .fma _ d a b dbl => some (encR 0x0B d a b false 0 (fpFn dbl 0x0D))
  | .lb _ d a imm => some (encI 0x10 d a imm)
  | .lh _ d a imm => some (encI 0x11 d a imm)
  | .lw _ d a imm => some (encI 0x12 d a imm)
  | .ld _ d a imm => some (encI 0x13 d a imm)
  | .lbu _ d a imm => some (encI 0x14 d a imm)
  | .lhu _ d a imm => some (encI 0x15 d a imm)
  | .lwu _ d a imm => some (encI 0x16 d a imm)
  | .sb _ d a imm => some (encI 0x18 d a imm)
  | .sh _ d a imm => some (encI 0x19 d a imm)
  | .sw _ d a imm => some (encI 0x1A d a imm)
  | .sd _ d a imm => some (encI 0x1B d a imm)
  | .beq _ a b ofs => some (encI 0x20 a b ofs)
  | .bne _ a b ofs => some (encI 0x21 a b ofs)
  | .blt _ a b ofs => some (encI 0x22 a b ofs)
  | .bge _ a b ofs => some (encI 0x23 a b ofs)
  | .bltu _ a b ofs => some (encI 0x24 a b ofs)
  | .bgeu _ a b ofs => some (encI 0x25 a b ofs)
  | .jmp _ ofs => some (encJ 0x26 ofs)
  | .jal _ ofs => some (encJ 0x27 ofs)
  | .vld _ f => some (encV 0x28 f 0x00)
  | .vlds _ f => some (encV 0x29 f 0x00)
  | .vldx _ f => some (encV 0x2A f 0x00)
  | .vldff _ f => some (encV 0x2B f 0x00)
  | .vst _ f => some (encV 0x2C f 0x00)
  | .vsts _ f => some (encV 0x2D f 0x00)
  | .vstx _ f => some (encV 0x2E f 0x00)
  | .halt _ => some (encR 0x30 0 0 0 false 0 0x00)
  | .fence _ => some (encR 0x30 0 0 0 false 0 0x01)
  | .rdsr _ d a => some (encR 0x30 d a 0 false 0 0x02)
  | .wrsr _ d a => some (encR 0x30 d a 0 false 0 0x03)
  | .trap _ a => some (encR 0x30 0 a 0 false 0 0x04)
  | .jr _ d a => some (encR 0x30 d a 0 false 0 0x05)
  | .nop _ => some (encR 0x30 0 0 0 false 0 0x06)
  | .dcz _ a => some (encR 0x31 0 a 0 false 0 0x00)
  | .dcl _ a => some (encR 0x31 0 a 0 false 0 0x01)
  | .dci _ a => some (encR 0x31 0 a 0 false 0 0x02)
  | .dcci _ a => some (encR 0x31 0 a 0 false 0 0x03)
  | .dlock _ d a => some (encR 0x31 d a 0 false 0 0x04)
  | .dunlock _ a => some (encR 0x31 0 a 0 false 0 0x05)
  | .rngc _ a b => some (encR 0x31 0 a b false 0 0x08)
  | .rngi _ a b => some (encR 0x31 0 a b false 0 0x09)
  | .rngci _ a b => some (encR 0x31 0 a b false 0 0x0A)
  | .rngiIncludeLocked _ a b => some (encR 0x31 0 a b false 0 0x19)
  | .rngciIncludeLocked _ a b => some (encR 0x31 0 a b false 0 0x1A)
  | .vcfg _ d a imm => some (encI 0x32 d a imm)
  | .vredsum _ f => some (encV 0x34 f 0x00)
  | .vredmin _ f => some (encV 0x34 f 0x01)
  | .vredmax _ f => some (encV 0x34 f 0x02)
  | .vredminu _ f => some (encV 0x34 f 0x03)
  | .vredmaxu _ f => some (encV 0x34 f 0x04)
  | .vfredsum _ f => some (encV 0x34 f 0x05)
  | .vfredmin _ f => some (encV 0x34 f 0x06)
  | .vfredmax _ f => some (encV 0x34 f 0x07)
  | .vget _ f => some (encV 0x34 f 0x08)
  | .vins _ f => some (encV 0x34 f 0x09)
  | .viota _ f => some (encV 0x34 f 0x0A)
  | .vcompress _ f => some (encV 0x34 f 0x0B)
  | .vperm _ f => some (encV 0x34 f 0x0C)
  | .vslup _ f => some (encV 0x34 f 0x0D)
  | .vsldn _ f => some (encV 0x34 f 0x0E)
  | .vadd _ f x => some (encV (if x then 0x39 else 0x38) f 0x00)
  | .vsub _ f x => some (encV (if x then 0x39 else 0x38) f 0x01)
  | .vmul _ f x => some (encV (if x then 0x39 else 0x38) f 0x02)
  | .vmulh _ f x => some (encV (if x then 0x39 else 0x38) f 0x03)
  | .vmulhu _ f x => some (encV (if x then 0x39 else 0x38) f 0x04)
  | .vdiv _ f x => some (encV (if x then 0x39 else 0x38) f 0x05)
  | .vdivu _ f x => some (encV (if x then 0x39 else 0x38) f 0x06)
  | .vrem _ f x => some (encV (if x then 0x39 else 0x38) f 0x07)
  | .vremu _ f x => some (encV (if x then 0x39 else 0x38) f 0x08)
  | .vand _ f x => some (encV (if x then 0x39 else 0x38) f 0x09)
  | .vor _ f x => some (encV (if x then 0x39 else 0x38) f 0x0A)
  | .vxor _ f x => some (encV (if x then 0x39 else 0x38) f 0x0B)
  | .vshl _ f x => some (encV (if x then 0x39 else 0x38) f 0x0C)
  | .vshr _ f x => some (encV (if x then 0x39 else 0x38) f 0x0D)
  | .vsar _ f x => some (encV (if x then 0x39 else 0x38) f 0x0E)
  | .vrotl _ f x => some (encV (if x then 0x39 else 0x38) f 0x0F)
  | .vmin _ f x => some (encV (if x then 0x39 else 0x38) f 0x10)
  | .vmax _ f x => some (encV (if x then 0x39 else 0x38) f 0x11)
  | .vminu _ f x => some (encV (if x then 0x39 else 0x38) f 0x12)
  | .vmaxu _ f x => some (encV (if x then 0x39 else 0x38) f 0x13)
  | .vadds _ f x => some (encV (if x then 0x39 else 0x38) f 0x14)
  | .vsubs _ f x => some (encV (if x then 0x39 else 0x38) f 0x15)
  | .vaddsu _ f x => some (encV (if x then 0x39 else 0x38) f 0x16)
  | .vsubsu _ f x => some (encV (if x then 0x39 else 0x38) f 0x17)
  | .vaddo _ f x => some (encV (if x then 0x39 else 0x38) f 0x18)
  | .vsubo _ f x => some (encV (if x then 0x39 else 0x38) f 0x19)
  | .vmulo _ f x => some (encV (if x then 0x39 else 0x38) f 0x1A)
  | .vmv _ f x => some (encV (if x then 0x39 else 0x38) f 0x1C)
  | .vmerge _ f x => some (encV (if x then 0x39 else 0x38) f 0x1D)
  | .vsexth _ f x => some (encV (if x then 0x39 else 0x38) f 0x20)
  | .vzexth _ f x => some (encV (if x then 0x39 else 0x38) f 0x21)
  | .vnarh _ f x => some (encV (if x then 0x39 else 0x38) f 0x22)
  | .vpopc _ f x => some (encV (if x then 0x39 else 0x38) f 0x23)
  | .vclz _ f x => some (encV (if x then 0x39 else 0x38) f 0x24)
  | .ceq _ f x => some (encV 0x3A f (if x then 0x20 else 0x00))
  | .cne _ f x => some (encV 0x3A f (if x then 0x21 else 0x01))
  | .clt _ f x => some (encV 0x3A f (if x then 0x22 else 0x02))
  | .cle _ f x => some (encV 0x3A f (if x then 0x23 else 0x03))
  | .cgt _ f x => some (encV 0x3A f (if x then 0x24 else 0x04))
  | .cge _ f x => some (encV 0x3A f (if x then 0x25 else 0x05))
  | .cltu _ f x => some (encV 0x3A f (if x then 0x26 else 0x06))
  | .cleu _ f x => some (encV 0x3A f (if x then 0x27 else 0x07))
  | .cgtu _ f x => some (encV 0x3A f (if x then 0x28 else 0x08))
  | .cgeu _ f x => some (encV 0x3A f (if x then 0x29 else 0x09))
  | .cfeq _ f x => some (encV 0x3A f (if x then 0x30 else 0x10))
  | .cflt _ f x => some (encV 0x3A f (if x then 0x31 else 0x11))
  | .cfle _ f x => some (encV 0x3A f (if x then 0x32 else 0x12))
  | .cfun _ f x => some (encV 0x3A f (if x then 0x33 else 0x13))
  | .cftlt _ f x => some (encV 0x3A f (if x then 0x34 else 0x14))
  | .vbeq _ f => some (encV 0x3A f 0x38)
  | .vbrng _ f => some (encV 0x3A f 0x39)
  | .vpat _ f => some (encV 0x3A f 0x3A)
  | .vpatm _ f => some (encV 0x3A f 0x3B)
  | .vfadd _ f x => some (encV 0x3B f (if x then 0x20 else 0x00))
  | .vfsub _ f x => some (encV 0x3B f (if x then 0x21 else 0x01))
  | .vfmul _ f x => some (encV 0x3B f (if x then 0x22 else 0x02))
  | .vfdiv _ f x => some (encV 0x3B f (if x then 0x23 else 0x03))
  | .vfsqrt _ f x => some (encV 0x3B f (if x then 0x24 else 0x04))
  | .vfmin _ f x => some (encV 0x3B f (if x then 0x25 else 0x05))
  | .vfmax _ f x => some (encV 0x3B f (if x then 0x26 else 0x06))
  | .vfma _ f x => some (encV 0x3B f (if x then 0x27 else 0x07))
  | .vfnms _ f x => some (encV 0x3B f (if x then 0x28 else 0x08))
  | .vfabs _ f => some (encV 0x3B f 0x09)
  | .vfneg _ f => some (encV 0x3B f 0x0A)
  | .vcvtfi _ f => some (encV 0x3B f 0x10)
  | .vcvtif _ f => some (encV 0x3B f 0x11)
  | .vcvtuf _ f => some (encV 0x3B f 0x12)
  | .vcvtds _ f => some (encV 0x3B f 0x13)
  | .vcvtsd _ f => some (encV 0x3B f 0x14)
  | .vcmul _ f x => some (encV 0x3C f (if x then 0x20 else 0x00))
  | .vcmulc _ f x => some (encV 0x3C f (if x then 0x21 else 0x01))
  | .vcmac _ f x => some (encV 0x3C f (if x then 0x22 else 0x02))
  | .vcmacc _ f x => some (encV 0x3C f (if x then 0x23 else 0x03))
  | .vcadd _ f x => some (encV 0x3C f (if x then 0x24 else 0x04))
  | .vcsub _ f x => some (encV 0x3C f (if x then 0x25 else 0x05))
  | .vcabs2 _ f => some (encV 0x3C f 0x06)
  | .vbfly _ f => some (encV 0x3C f 0x07)
  | .vgfmul _ f x => some (encV 0x3D f (if x then 0x20 else 0x00))
  | .vgfmac _ f x => some (encV 0x3D f (if x then 0x21 else 0x01))
  | .pand _ f => some (encV 0x3E f 0x00)
  | .por _ f => some (encV 0x3E f 0x01)
  | .pxor _ f => some (encV 0x3E f 0x02)
  | .pandn _ f => some (encV 0x3E f 0x03)
  | .pnot _ f => some (encV 0x3E f 0x04)
  | .pset _ f => some (encV 0x3E f 0x05)
  | .pclr _ f => some (encV 0x3E f 0x06)
  | .pmov _ f => some (encV 0x3E f 0x07)
  | .pcnt _ f => some (encV 0x3E f 0x10)
  | .pfirst _ f => some (encV 0x3E f 0x11)
  | .pfromg _ f => some (encV 0x3E f 0x12)
  | .pldb _ f => some (encV 0x3E f 0x13)
  | .pstb _ f => some (encV 0x3E f 0x14)
  | _ => none

/-- The instructions of MAJOR 0x01 (R186). -/
def dec01 (u : CpAt) (f : WordFields) : Option Instr :=
  match f.fn.toNat with
  | 0x00 => some (.add u f.d f.a f.b)
  | 0x01 => some (.sub u f.d f.a f.b)
  | 0x02 => some (.mul u f.d f.a f.b)
  | 0x03 => some (.mulh u f.d f.a f.b)
  | 0x04 => some (.mulhu u f.d f.a f.b)
  | 0x05 => some (.div u f.d f.a f.b)
  | 0x06 => some (.divu u f.d f.a f.b)
  | 0x07 => some (.rem u f.d f.a f.b)
  | 0x08 => some (.remu u f.d f.a f.b)
  | 0x09 => some (.and u f.d f.a f.b)
  | 0x0A => some (.or u f.d f.a f.b)
  | 0x0B => some (.xor u f.d f.a f.b)
  | 0x0C => some (.shl u f.d f.a f.b)
  | 0x0D => some (.shr u f.d f.a f.b)
  | 0x0E => some (.sar u f.d f.a f.b)
  | 0x0F => some (.rotl u f.d f.a f.b)
  | 0x10 => some (.slt u f.d f.a f.b)
  | 0x11 => some (.sltu u f.d f.a f.b)
  | 0x12 => some (.min u f.d f.a f.b)
  | 0x13 => some (.max u f.d f.a f.b)
  | 0x14 => some (.minu u f.d f.a f.b)
  | 0x15 => some (.maxu u f.d f.a f.b)
  | 0x16 => some (.clz u f.d f.a)
  | 0x17 => some (.ctz u f.d f.a)
  | 0x18 => some (.popc u f.d f.a)
  | 0x19 => some (.addo u f.d f.a f.b)
  | 0x1A => some (.subo u f.d f.a f.b)
  | 0x1B => some (.mulo u f.d f.a f.b)
  | 0x1C => some (.sext u f.d f.a f.b)
  | 0x1D => some (.zext u f.d f.a f.b)
  | _ => none

/-- The instructions of MAJOR 0x02 (R186). -/
def dec02 (u : CpAt) (f : WordFields) : Option Instr := some (.addi u f.d f.a f.imm16)

/-- The instructions of MAJOR 0x03 (R186). -/
def dec03 (u : CpAt) (f : WordFields) : Option Instr := some (.andi u f.d f.a f.imm16)

/-- The instructions of MAJOR 0x04 (R186). -/
def dec04 (u : CpAt) (f : WordFields) : Option Instr := some (.ori u f.d f.a f.imm16)

/-- The instructions of MAJOR 0x05 (R186). -/
def dec05 (u : CpAt) (f : WordFields) : Option Instr := some (.xori u f.d f.a f.imm16)

/-- The instructions of MAJOR 0x06 (R186). -/
def dec06 (u : CpAt) (f : WordFields) : Option Instr := some (.shli u f.d f.a f.imm16)

/-- The instructions of MAJOR 0x07 (R186). -/
def dec07 (u : CpAt) (f : WordFields) : Option Instr := some (.shri u f.d f.a f.imm16)

/-- The instructions of MAJOR 0x08 (R186). -/
def dec08 (u : CpAt) (f : WordFields) : Option Instr := some (.sari u f.d f.a f.imm16)

/-- The instructions of MAJOR 0x09 (R186). -/
def dec09 (u : CpAt) (f : WordFields) : Option Instr := some (.lui u f.d f.a f.imm16)

/-- The instructions of MAJOR 0x0A (R186). -/
def dec0A (u : CpAt) (f : WordFields) : Option Instr := some (.slti u f.d f.a f.imm16)

/-- The instructions of MAJOR 0x0B (R186). -/
def dec0B (u : CpAt) (f : WordFields) : Option Instr :=
  let dbl := f.fn.extractLsb' 5 1 = 1
  match (f.fn.setWidth 5).toNat with
  | 0x00 => some (.fadd u f.d f.a f.b dbl)
  | 0x01 => some (.fsub u f.d f.a f.b dbl)
  | 0x02 => some (.fmul u f.d f.a f.b dbl)
  | 0x03 => some (.fdiv u f.d f.a f.b dbl)
  | 0x04 => some (.fsqrt u f.d f.a dbl)
  | 0x05 => some (.fmin u f.d f.a f.b dbl)
  | 0x06 => some (.fmax u f.d f.a f.b dbl)
  | 0x07 => some (.feq u f.d f.a f.b dbl)
  | 0x08 => some (.flt u f.d f.a f.b dbl)
  | 0x09 => some (.fle u f.d f.a f.b dbl)
  | 0x0A => some (.fcvti u f.d f.a dbl)
  | 0x0B => some (.fcvtf u f.d f.a dbl)
  | 0x0C => some (.fcvtp u f.d f.a dbl)
  | 0x0D => some (.fma u f.d f.a f.b dbl)
  | _ => none

/-- The instructions of MAJOR 0x10 (R186). -/
def dec10 (u : CpAt) (f : WordFields) : Option Instr := some (.lb u f.d f.a f.imm16)

/-- The instructions of MAJOR 0x11 (R186). -/
def dec11 (u : CpAt) (f : WordFields) : Option Instr := some (.lh u f.d f.a f.imm16)

/-- The instructions of MAJOR 0x12 (R186). -/
def dec12 (u : CpAt) (f : WordFields) : Option Instr := some (.lw u f.d f.a f.imm16)

/-- The instructions of MAJOR 0x13 (R186). -/
def dec13 (u : CpAt) (f : WordFields) : Option Instr := some (.ld u f.d f.a f.imm16)

/-- The instructions of MAJOR 0x14 (R186). -/
def dec14 (u : CpAt) (f : WordFields) : Option Instr := some (.lbu u f.d f.a f.imm16)

/-- The instructions of MAJOR 0x15 (R186). -/
def dec15 (u : CpAt) (f : WordFields) : Option Instr := some (.lhu u f.d f.a f.imm16)

/-- The instructions of MAJOR 0x16 (R186). -/
def dec16 (u : CpAt) (f : WordFields) : Option Instr := some (.lwu u f.d f.a f.imm16)

/-- The instructions of MAJOR 0x18 (R186). -/
def dec18 (u : CpAt) (f : WordFields) : Option Instr := some (.sb u f.d f.a f.imm16)

/-- The instructions of MAJOR 0x19 (R186). -/
def dec19 (u : CpAt) (f : WordFields) : Option Instr := some (.sh u f.d f.a f.imm16)

/-- The instructions of MAJOR 0x1A (R186). -/
def dec1A (u : CpAt) (f : WordFields) : Option Instr := some (.sw u f.d f.a f.imm16)

/-- The instructions of MAJOR 0x1B (R186). -/
def dec1B (u : CpAt) (f : WordFields) : Option Instr := some (.sd u f.d f.a f.imm16)

/-- The instructions of MAJOR 0x20 (R186). -/
def dec20 (u : CpAt) (f : WordFields) : Option Instr := some (.beq u f.d f.a f.imm16)

/-- The instructions of MAJOR 0x21 (R186). -/
def dec21 (u : CpAt) (f : WordFields) : Option Instr := some (.bne u f.d f.a f.imm16)

/-- The instructions of MAJOR 0x22 (R186). -/
def dec22 (u : CpAt) (f : WordFields) : Option Instr := some (.blt u f.d f.a f.imm16)

/-- The instructions of MAJOR 0x23 (R186). -/
def dec23 (u : CpAt) (f : WordFields) : Option Instr := some (.bge u f.d f.a f.imm16)

/-- The instructions of MAJOR 0x24 (R186). -/
def dec24 (u : CpAt) (f : WordFields) : Option Instr := some (.bltu u f.d f.a f.imm16)

/-- The instructions of MAJOR 0x25 (R186). -/
def dec25 (u : CpAt) (f : WordFields) : Option Instr := some (.bgeu u f.d f.a f.imm16)

/-- The instructions of MAJOR 0x26 (R186). -/
def dec26 (u : CpAt) (f : WordFields) : Option Instr := some (.jmp u f.ofs26)

/-- The instructions of MAJOR 0x27 (R186). -/
def dec27 (u : CpAt) (f : WordFields) : Option Instr := some (.jal u f.ofs26)

/-- The instructions of MAJOR 0x28 (R186). -/
def dec28 (u : CpAt) (f : WordFields) : Option Instr :=
  match f.fn.toNat with
  | 0x00 => some (.vld u f.vf)
  | _ => none

/-- The instructions of MAJOR 0x29 (R186). -/
def dec29 (u : CpAt) (f : WordFields) : Option Instr :=
  match f.fn.toNat with
  | 0x00 => some (.vlds u f.vf)
  | _ => none

/-- The instructions of MAJOR 0x2A (R186). -/
def dec2A (u : CpAt) (f : WordFields) : Option Instr :=
  match f.fn.toNat with
  | 0x00 => some (.vldx u f.vf)
  | _ => none

/-- The instructions of MAJOR 0x2B (R186). -/
def dec2B (u : CpAt) (f : WordFields) : Option Instr :=
  match f.fn.toNat with
  | 0x00 => some (.vldff u f.vf)
  | _ => none

/-- The instructions of MAJOR 0x2C (R186). -/
def dec2C (u : CpAt) (f : WordFields) : Option Instr :=
  match f.fn.toNat with
  | 0x00 => some (.vst u f.vf)
  | _ => none

/-- The instructions of MAJOR 0x2D (R186). -/
def dec2D (u : CpAt) (f : WordFields) : Option Instr :=
  match f.fn.toNat with
  | 0x00 => some (.vsts u f.vf)
  | _ => none

/-- The instructions of MAJOR 0x2E (R186). -/
def dec2E (u : CpAt) (f : WordFields) : Option Instr :=
  match f.fn.toNat with
  | 0x00 => some (.vstx u f.vf)
  | _ => none

/-- The instructions of MAJOR 0x30 (R186). -/
def dec30 (u : CpAt) (f : WordFields) : Option Instr :=
  match f.fn.toNat with
  | 0x00 => some (.halt u)
  | 0x01 => some (.fence u)
  | 0x02 => some (.rdsr u f.d f.a)
  | 0x03 => some (.wrsr u f.d f.a)
  | 0x04 => some (.trap u f.a)
  | 0x05 => some (.jr u f.d f.a)
  | 0x06 => some (.nop u)
  | _ => none

/-- The instructions of MAJOR 0x31 (R186). -/
def dec31 (u : CpAt) (f : WordFields) : Option Instr :=
  match f.fn.toNat with
  | 0x00 => some (.dcz u f.a)
  | 0x01 => some (.dcl u f.a)
  | 0x02 => some (.dci u f.a)
  | 0x03 => some (.dcci u f.a)
  | 0x04 => some (.dlock u f.d f.a)
  | 0x05 => some (.dunlock u f.a)
  | 0x08 => some (.rngc u f.a f.b)
  | 0x09 => some (.rngi u f.a f.b)
  | 0x0A => some (.rngci u f.a f.b)
  | 0x19 => some (.rngiIncludeLocked u f.a f.b)
  | 0x1A => some (.rngciIncludeLocked u f.a f.b)
  | _ => none

/-- The instructions of MAJOR 0x32 (R186). -/
def dec32 (u : CpAt) (f : WordFields) : Option Instr := some (.vcfg u f.d f.a f.imm16)

/-- The instructions of MAJOR 0x34 (R186). -/
def dec34 (u : CpAt) (f : WordFields) : Option Instr :=
  match f.fn.toNat with
  | 0x00 => some (.vredsum u f.vf)
  | 0x01 => some (.vredmin u f.vf)
  | 0x02 => some (.vredmax u f.vf)
  | 0x03 => some (.vredminu u f.vf)
  | 0x04 => some (.vredmaxu u f.vf)
  | 0x05 => some (.vfredsum u f.vf)
  | 0x06 => some (.vfredmin u f.vf)
  | 0x07 => some (.vfredmax u f.vf)
  | 0x08 => some (.vget u f.vf)
  | 0x09 => some (.vins u f.vf)
  | 0x0A => some (.viota u f.vf)
  | 0x0B => some (.vcompress u f.vf)
  | 0x0C => some (.vperm u f.vf)
  | 0x0D => some (.vslup u f.vf)
  | 0x0E => some (.vsldn u f.vf)
  | _ => none

/-- The instructions of MAJOR 0x38 (R186). -/
def dec38 (u : CpAt) (f : WordFields) : Option Instr :=
  match f.fn.toNat with
  | 0x00 => some (.vadd u f.vf false)
  | 0x01 => some (.vsub u f.vf false)
  | 0x02 => some (.vmul u f.vf false)
  | 0x03 => some (.vmulh u f.vf false)
  | 0x04 => some (.vmulhu u f.vf false)
  | 0x05 => some (.vdiv u f.vf false)
  | 0x06 => some (.vdivu u f.vf false)
  | 0x07 => some (.vrem u f.vf false)
  | 0x08 => some (.vremu u f.vf false)
  | 0x09 => some (.vand u f.vf false)
  | 0x0A => some (.vor u f.vf false)
  | 0x0B => some (.vxor u f.vf false)
  | 0x0C => some (.vshl u f.vf false)
  | 0x0D => some (.vshr u f.vf false)
  | 0x0E => some (.vsar u f.vf false)
  | 0x0F => some (.vrotl u f.vf false)
  | 0x10 => some (.vmin u f.vf false)
  | 0x11 => some (.vmax u f.vf false)
  | 0x12 => some (.vminu u f.vf false)
  | 0x13 => some (.vmaxu u f.vf false)
  | 0x14 => some (.vadds u f.vf false)
  | 0x15 => some (.vsubs u f.vf false)
  | 0x16 => some (.vaddsu u f.vf false)
  | 0x17 => some (.vsubsu u f.vf false)
  | 0x18 => some (.vaddo u f.vf false)
  | 0x19 => some (.vsubo u f.vf false)
  | 0x1A => some (.vmulo u f.vf false)
  | 0x1C => some (.vmv u f.vf false)
  | 0x1D => some (.vmerge u f.vf false)
  | 0x20 => some (.vsexth u f.vf false)
  | 0x21 => some (.vzexth u f.vf false)
  | 0x22 => some (.vnarh u f.vf false)
  | 0x23 => some (.vpopc u f.vf false)
  | 0x24 => some (.vclz u f.vf false)
  | _ => none

/-- The instructions of MAJOR 0x39 (R186). -/
def dec39 (u : CpAt) (f : WordFields) : Option Instr :=
  match f.fn.toNat with
  | 0x00 => some (.vadd u f.vf true)
  | 0x01 => some (.vsub u f.vf true)
  | 0x02 => some (.vmul u f.vf true)
  | 0x03 => some (.vmulh u f.vf true)
  | 0x04 => some (.vmulhu u f.vf true)
  | 0x05 => some (.vdiv u f.vf true)
  | 0x06 => some (.vdivu u f.vf true)
  | 0x07 => some (.vrem u f.vf true)
  | 0x08 => some (.vremu u f.vf true)
  | 0x09 => some (.vand u f.vf true)
  | 0x0A => some (.vor u f.vf true)
  | 0x0B => some (.vxor u f.vf true)
  | 0x0C => some (.vshl u f.vf true)
  | 0x0D => some (.vshr u f.vf true)
  | 0x0E => some (.vsar u f.vf true)
  | 0x0F => some (.vrotl u f.vf true)
  | 0x10 => some (.vmin u f.vf true)
  | 0x11 => some (.vmax u f.vf true)
  | 0x12 => some (.vminu u f.vf true)
  | 0x13 => some (.vmaxu u f.vf true)
  | 0x14 => some (.vadds u f.vf true)
  | 0x15 => some (.vsubs u f.vf true)
  | 0x16 => some (.vaddsu u f.vf true)
  | 0x17 => some (.vsubsu u f.vf true)
  | 0x18 => some (.vaddo u f.vf true)
  | 0x19 => some (.vsubo u f.vf true)
  | 0x1A => some (.vmulo u f.vf true)
  | 0x1C => some (.vmv u f.vf true)
  | 0x1D => some (.vmerge u f.vf true)
  | 0x20 => some (.vsexth u f.vf true)
  | 0x21 => some (.vzexth u f.vf true)
  | 0x22 => some (.vnarh u f.vf true)
  | 0x23 => some (.vpopc u f.vf true)
  | 0x24 => some (.vclz u f.vf true)
  | _ => none

/-- The instructions of MAJOR 0x3A (R186). -/
def dec3A (u : CpAt) (f : WordFields) : Option Instr :=
  match f.fn.toNat with
  | 0x00 => some (.ceq u f.vf false)
  | 0x20 => some (.ceq u f.vf true)
  | 0x01 => some (.cne u f.vf false)
  | 0x21 => some (.cne u f.vf true)
  | 0x02 => some (.clt u f.vf false)
  | 0x22 => some (.clt u f.vf true)
  | 0x03 => some (.cle u f.vf false)
  | 0x23 => some (.cle u f.vf true)
  | 0x04 => some (.cgt u f.vf false)
  | 0x24 => some (.cgt u f.vf true)
  | 0x05 => some (.cge u f.vf false)
  | 0x25 => some (.cge u f.vf true)
  | 0x06 => some (.cltu u f.vf false)
  | 0x26 => some (.cltu u f.vf true)
  | 0x07 => some (.cleu u f.vf false)
  | 0x27 => some (.cleu u f.vf true)
  | 0x08 => some (.cgtu u f.vf false)
  | 0x28 => some (.cgtu u f.vf true)
  | 0x09 => some (.cgeu u f.vf false)
  | 0x29 => some (.cgeu u f.vf true)
  | 0x10 => some (.cfeq u f.vf false)
  | 0x30 => some (.cfeq u f.vf true)
  | 0x11 => some (.cflt u f.vf false)
  | 0x31 => some (.cflt u f.vf true)
  | 0x12 => some (.cfle u f.vf false)
  | 0x32 => some (.cfle u f.vf true)
  | 0x13 => some (.cfun u f.vf false)
  | 0x33 => some (.cfun u f.vf true)
  | 0x14 => some (.cftlt u f.vf false)
  | 0x34 => some (.cftlt u f.vf true)
  | 0x38 => some (.vbeq u f.vf)
  | 0x39 => some (.vbrng u f.vf)
  | 0x3A => some (.vpat u f.vf)
  | 0x3B => some (.vpatm u f.vf)
  | _ => none

/-- The instructions of MAJOR 0x3B (R186). -/
def dec3B (u : CpAt) (f : WordFields) : Option Instr :=
  match f.fn.toNat with
  | 0x00 => some (.vfadd u f.vf false)
  | 0x20 => some (.vfadd u f.vf true)
  | 0x01 => some (.vfsub u f.vf false)
  | 0x21 => some (.vfsub u f.vf true)
  | 0x02 => some (.vfmul u f.vf false)
  | 0x22 => some (.vfmul u f.vf true)
  | 0x03 => some (.vfdiv u f.vf false)
  | 0x23 => some (.vfdiv u f.vf true)
  | 0x04 => some (.vfsqrt u f.vf false)
  | 0x24 => some (.vfsqrt u f.vf true)
  | 0x05 => some (.vfmin u f.vf false)
  | 0x25 => some (.vfmin u f.vf true)
  | 0x06 => some (.vfmax u f.vf false)
  | 0x26 => some (.vfmax u f.vf true)
  | 0x07 => some (.vfma u f.vf false)
  | 0x27 => some (.vfma u f.vf true)
  | 0x08 => some (.vfnms u f.vf false)
  | 0x28 => some (.vfnms u f.vf true)
  | 0x09 => some (.vfabs u f.vf)
  | 0x0A => some (.vfneg u f.vf)
  | 0x10 => some (.vcvtfi u f.vf)
  | 0x11 => some (.vcvtif u f.vf)
  | 0x12 => some (.vcvtuf u f.vf)
  | 0x13 => some (.vcvtds u f.vf)
  | 0x14 => some (.vcvtsd u f.vf)
  | _ => none

/-- The instructions of MAJOR 0x3C (R186). -/
def dec3C (u : CpAt) (f : WordFields) : Option Instr :=
  match f.fn.toNat with
  | 0x00 => some (.vcmul u f.vf false)
  | 0x20 => some (.vcmul u f.vf true)
  | 0x01 => some (.vcmulc u f.vf false)
  | 0x21 => some (.vcmulc u f.vf true)
  | 0x02 => some (.vcmac u f.vf false)
  | 0x22 => some (.vcmac u f.vf true)
  | 0x03 => some (.vcmacc u f.vf false)
  | 0x23 => some (.vcmacc u f.vf true)
  | 0x04 => some (.vcadd u f.vf false)
  | 0x24 => some (.vcadd u f.vf true)
  | 0x05 => some (.vcsub u f.vf false)
  | 0x25 => some (.vcsub u f.vf true)
  | 0x06 => some (.vcabs2 u f.vf)
  | 0x07 => some (.vbfly u f.vf)
  | _ => none

/-- The instructions of MAJOR 0x3D (R186). -/
def dec3D (u : CpAt) (f : WordFields) : Option Instr :=
  match f.fn.toNat with
  | 0x00 => some (.vgfmul u f.vf false)
  | 0x20 => some (.vgfmul u f.vf true)
  | 0x01 => some (.vgfmac u f.vf false)
  | 0x21 => some (.vgfmac u f.vf true)
  | _ => none

/-- The instructions of MAJOR 0x3E (R186). -/
def dec3E (u : CpAt) (f : WordFields) : Option Instr :=
  match f.fn.toNat with
  | 0x00 => some (.pand u f.vf)
  | 0x01 => some (.por u f.vf)
  | 0x02 => some (.pxor u f.vf)
  | 0x03 => some (.pandn u f.vf)
  | 0x04 => some (.pnot u f.vf)
  | 0x05 => some (.pset u f.vf)
  | 0x06 => some (.pclr u f.vf)
  | 0x07 => some (.pmov u f.vf)
  | 0x10 => some (.pcnt u f.vf)
  | 0x11 => some (.pfirst u f.vf)
  | 0x12 => some (.pfromg u f.vf)
  | 0x13 => some (.pldb u f.vf)
  | 0x14 => some (.pstb u f.vf)
  | _ => none

/-- Whether a MAJOR is of format SR, whose bits 10 and 9:6 are 0 (R184). -/
def isSR (m : Nat) : Bool := m = 0x01 || m = 0x0B || m = 0x30 || m = 0x31

/-- The instruction of a word before the fields that must be 0 are judged. -/
def cpDecodeRaw (u : CpAt) (f : WordFields) : Option Instr :=
  if isSR f.major.toNat && (f.pe ≠ 0 || f.pm ≠ 0) then none
  else
    match f.major.toNat with
    | 0x01 => dec01 u f
    | 0x02 => dec02 u f
    | 0x03 => dec03 u f
    | 0x04 => dec04 u f
    | 0x05 => dec05 u f
    | 0x06 => dec06 u f
    | 0x07 => dec07 u f
    | 0x08 => dec08 u f
    | 0x09 => dec09 u f
    | 0x0A => dec0A u f
    | 0x0B => dec0B u f
    | 0x10 => dec10 u f
    | 0x11 => dec11 u f
    | 0x12 => dec12 u f
    | 0x13 => dec13 u f
    | 0x14 => dec14 u f
    | 0x15 => dec15 u f
    | 0x16 => dec16 u f
    | 0x18 => dec18 u f
    | 0x19 => dec19 u f
    | 0x1A => dec1A u f
    | 0x1B => dec1B u f
    | 0x20 => dec20 u f
    | 0x21 => dec21 u f
    | 0x22 => dec22 u f
    | 0x23 => dec23 u f
    | 0x24 => dec24 u f
    | 0x25 => dec25 u f
    | 0x26 => dec26 u f
    | 0x27 => dec27 u f
    | 0x28 => dec28 u f
    | 0x29 => dec29 u f
    | 0x2A => dec2A u f
    | 0x2B => dec2B u f
    | 0x2C => dec2C u f
    | 0x2D => dec2D u f
    | 0x2E => dec2E u f
    | 0x30 => dec30 u f
    | 0x31 => dec31 u f
    | 0x32 => dec32 u f
    | 0x34 => dec34 u f
    | 0x38 => dec38 u f
    | 0x39 => dec39 u f
    | 0x3A => dec3A u f
    | 0x3B => dec3B u f
    | 0x3C => dec3C u f
    | 0x3D => dec3D u f
    | 0x3E => dec3E u f
    | _ => none

/-- The instruction a word is for column processor u; none where it is illegal: its MAJOR or FN is not listed, or a field
that must be 0 is not 0 (R185). -/
def cpDecode (u : CpAt) (w : Word) : Option Instr :=
  match cpDecodeRaw u (splitWord w) with
  | some i => if cpFieldsOk i then some i else none
  | none => none

end Sys2Proof
end

