-- ==== Sys2Proof/Config.lean ====
section
/-! DEFINITION. Config.lean: what the spec leaves open, as constants without a body: nothing proves a value of one. -/

namespace Sys2Proof.Config

/-- The free values: what a result the spec leaves open holds, by the number of the free value (log entry 5). -/
opaque freeValue : Nat → BitVec 64

/-- What a T field whose three copies all disagree reads as (R49, R50; log entry 20). -/
opaque unvoted {α : Type} [Inhabited α] : Tri α → α

/-- The fused core voltage, PWR_AVS.VSET's reset value (R526; log entry 6). -/
opaque fusedMv : BitVec 10

/-- Whether a result that is subnormal before rounding is tiny where rounding brings it to the smallest normal number
(R107, R188; log entry 12). -/
opaque tinyBeforeRounding : Bool

/-- Whether FLT, FLE, CFLT and CFLE set FNV for a quiet NaN (R188: IEEE 754 has both forms; log entry 12). -/
opaque orderedCompareSignals : Bool

/-- Whether a fused multiply-add of 0 by an infinity sets FNV where the addend is a quiet NaN (R188; IEEE 754 leaves it
to the implementation; log entry 12). -/
opaque fmaZeroInfSignals : Bool

/-- Whether a conversion to an integer that drops a fraction sets FNX (R188: IEEE 754 has both forms; log entry 12). -/
opaque toIntSignalsInexact : Bool

/-- What the bytes of the constant pool region beyond the plan's constant pool section read as (R194; log entry 25). -/
opaque poolTail : Nat → BitVec 8

/-- The CLASS and CHECK of the VIGIL record of a kernel failure, which R204 asks for and R468 does not list (log entry
21). -/
opaque kernelRecord : BitVec 2 × BitVec 8

/-- What SEXT and ZEXT give for a width code above 2 (R186 states 0, 1 and 2; log entry 26). -/
opaque extendCode : Bool → BitVec 64 → BitVec 5 → BitVec 64

/-- The handler address in steward w's vector entry for a source: the firmware's (R429; log entry 32). -/
opaque vectorEntry : Nat → Nat → BitVec 64

/-- The firmware reserve in pages (R396): a natural number, at most 1,024 where it is used (log entry 6). -/
opaque firmwarePages : Nat

/-- The random keys and numbers TRUST draws (R399, R419; log entry 5). -/
opaque freeKey : Nat → BitVec 256

/-- Bytes of a save image section whose layout R411 leaves open: by section type and the bytes it carries (log entry 35). -/
opaque saveLengthBits : Nat → Nat → BitVec 48
def saveLength (t n : Nat) : Nat := (saveLengthBits t n).toNat

/-- The two AES keys that AES-256-XTS takes from a 32-byte key (R412 names the 32 bytes only; log entry 16). -/
opaque xtsKeys : BitVec 256 → List (BitVec 8) × List (BitVec 8)

/-- A byte of a save image's sections before they are encrypted, by the image's number and its offset: R411 leaves the layouts open (log
entry 35). -/
opaque sealedByte : Nat → Nat → BitVec 8

/-- UDS, the 32 bytes of the unique device secret in fuses (R496; log entry 16). -/
opaque uds : List (BitVec 8)

/-- The ML-DSA-65 public key that KeyGen derives from a seed (FIPS 204; R496; log entry 16). -/
opaque identityPublic : List (BitVec 8) → List (BitVec 8)

/-- A byte of an ML-DSA-65 signature, by the key's seed, the free value's number, the context string, the message signed and the
byte's offset (FIPS 204; R419, R496, R500, R504; log entry 16). -/
opaque signatureByte : List (BitVec 8) → Nat → List (BitVec 8) → List (BitVec 8) → Nat → BitVec 8

/-- Whether an ML-DSA-65 signature verifies: public key, context string, message, signature (R490, R491; log entry 16). -/
opaque signatureOk : List (BitVec 8) → List (BitVec 8) → List (BitVec 8) → List (BitVec 8) → Bool

/-- The two key-hash fuse slots and whether each is revoked (R491; log entry 16). -/
opaque keyHash : Bool → List (BitVec 8)
opaque keyRevoked : Bool → Bool

/-- The shared secret that ML-KEM-768 decapsulates, by the key pair's seed and the ciphertext (FIPS 203; R496, R497; log entry 16). -/
opaque decapsulate : List (BitVec 8) → List (BitVec 8) → List (BitVec 8)

/-- The digest of the boot ROM, and the bytes of the fuse state by key slot used and rollback count (R493; log entry 16). -/
opaque romDigest : List (BitVec 8)
opaque fuseState : Bool → Nat → List (BitVec 8)

/-- The digest M7 is extended with at a key import or an activation (R493, R497, R498; log entry 16). -/
opaque eventDigest : Bool → List (BitVec 8) → List (BitVec 8)

/-- The certificate chain of a slot as the device area holds it, and in the form SPDM sends (R496, R500; log entry 16). -/
opaque certChain : Bool → List (BitVec 8)
opaque spdmChain : Bool → List (BitVec 8)

/-- Where GET_INFO's 64 bytes carry what R503 lists: TRUST_BOOT, VERSION and SVN of slots A and B, DEVICE_ID (log entry 74). -/
opaque infoByte : BitVec 32 → Nat × Nat → Nat × Nat → BitVec 128 → Nat → BitVec 8

/-- The SPDM transcript's digest after a request and its response (R500; log entry 73). -/
opaque transcript : BitVec 512 → List (BitVec 8) → List (BitVec 8) → BitVec 512

/-- The measurement summary hash of SPDM by its type, over M0 to M7, and a measurement's DMTF type (R500; log entry 73). -/
opaque summaryByte : Nat → List (BitVec 8) → Nat → BitVec 8
opaque measurementType : Nat → BitVec 7

/-- A byte the device leaves undefined, by the free value's number and the byte's offset (R176, R400, R419; log entry 5). -/
opaque freeByte : Nat → Nat → BitVec 8

/-- Where the search for a FREE stripe slot starts, by the free value's number (R273 names no slot; log entry 51). -/
opaque slotStart : Nat → Nat

/-- The CHECK of the VIGIL record of a fault in a CMP or ERS engine, which R256 and R474 leave open (log entry 21). -/
opaque engineCheck : BitVec 8

/-- The bits of the NVMe property CAP that R383 does not list (log entry 70). -/
opaque nvmeCap : BitVec 64

/-- The CLASS and CHECK of the VIGIL record of a parity mismatch under SCANCHK, which R314 asks for and R468 does not list
(log entry 21). -/
opaque scanRecord : BitVec 2 × BitVec 8

/-- The order of the additions of an FP64 SUM or AVG, which R133 leaves open: which value is taken next, by the free value's number and
the step (log entry 14). -/
opaque addOrder : Nat → Nat → Nat

/-- Whether an exact FP sum of negative zeros is a negative zero (R133; log entry 14). -/
opaque zeroSumNegative : Bool

/-- Whether MIN and MAX give the later of values that R109 holds equal (R132; log entry 14). -/
opaque laterOfEqual : Bool

/-- A part of a SPECTRAL result as the butterflies round it, taken where it lies within their error of the exact transform (R138 to R140
give no butterfly order): NLOG, WINFN, the window's values, the bin, whether the imaginary part (log entry 13). -/
opaque spectralBits : Nat → Nat → List (BitVec 32 × BitVec 32) → Nat → Bool → BitVec 32

/-- The bytes that a slot or mask that SPECTRAL does not write holds in its output rows, by the window's start row and the slot (R139; log
entry 13). -/
opaque staleSlot : Nat → Nat → List (BitVec 8)

/-- The vector instructions that the built-in code of an op word retires on a number of rows, by op code and function (R415 counts them,
R126 states none; log entry 166). -/
opaque builtinVector : Nat → Nat → Nat → Nat

/-- Where the search for a free plan handle starts, by the free value's number (R71 names no handle; log entry 66). -/
opaque handleStart : Nat → Nat

/-- The hash of three bytes by which the encoder chains positions (R250 names none; log entry 15). -/
opaque matchHash : BitVec 8 → BitVec 8 → BitVec 8 → Nat

/-- The length of match that the cost-based parse of level 12 takes at a position of the input, below 3 a literal (R250 gives no cost; log
entry 15). -/
opaque cheapLength : List (BitVec 8) → Nat → Nat

/-- The header of a block with codes of its own, by its tokens (R249 fixes no choice of codes; log entry 15). -/
opaque dynamicHeader : List (Nat × Nat) → List Bool

/-- Whether an encode suffers the datapath fault that its verifier finds, by the free value's number (R252, R253; log entry 15). -/
opaque encodeFault : Nat → Bool

/-- What start-up finds, and what the rail reads back in mV, after a register write that names neither, by the free value's number
(R510, R519; log entry 9). -/
opaque bootEnv : Nat → BootEnv
opaque railRead : Nat → BitVec 10

/-- The flits of a message to another device (R455): the spec gives no message formats. -/
opaque messageFlits : Nat → Nat

/-- Whether a device has a run of an exchange key, without which it grants no credit for the key, by the free value's number, device,
binding and EXKEY (R458). -/
opaque keyCredit : Nat → Nat → Nat → BitVec 32 → Bool

/-- Whether the end-to-end acknowledgement of a message has come, by the free value's number (R454). -/
opaque plkAcked : Nat → Bool

/-- Whether the next hop has given a class of a link a credit (R455): the spec gives no number of credits. -/
opaque plkCredit : Nat → Bool

end Sys2Proof.Config
end

