-- ==== Sys2Proof/Machine/SMap.lean ====
section
/-! DEFINITION. Machine/SMap.lean: reading and writing the sparse tables and the byte memories of State. A table lists
(index, entry) pairs with strictly rising indices and no default entry; every write keeps that form. -/

namespace Sys2Proof.Machine

/-- The entry of index k; d where none is listed. -/
def look {α : Type} (d : α) : SMap α → Nat → α
  | [], _ => d
  | (i, x) :: r, k => if i = k then x else look d r k

/-- The table with entry x at index k; an entry equal to the default d is not listed. -/
def put {α : Type} [DecidableEq α] (d : α) : SMap α → Nat → α → SMap α
  | [], k, x => if x = d then [] else [(k, x)]
  | (i, y) :: r, k, x =>
    if k < i then (if x = d then (i, y) :: r else (k, x) :: (i, y) :: r)
    else if k = i then (if x = d then r else (k, x) :: r)
    else (i, y) :: put d r k x

/-- The table with f applied to entry k. -/
def upd {α : Type} [DecidableEq α] (d : α) (m : SMap α) (k : Nat) (f : α → α) : SMap α := put d m k (f (look d m k))

/-- The table's canonical form: strictly rising indices, no default entry. -/
def wfFrom {α : Type} [DecidableEq α] (d : α) : Nat → SMap α → Bool
  | _, [] => true
  | lo, (i, x) :: r => lo ≤ i && x ≠ d && wfFrom d (i + 1) r

/-- The canonical form of a table with default d. -/
def tableWf {α : Type} [DecidableEq α] (d : α) (m : SMap α) : Bool := wfFrom d 0 m

/-- The canonical form of a byte memory. -/
def Memory.wf (m : Mem) : Bool := tableWf (0 : Byte) m

/-- The byte at address a. -/
def memByte (m : Mem) (a : Nat) : Byte := look 0 m a

/-- The n bytes from address a. -/
def memRead (m : Mem) (a n : Nat) : List Byte := (List.range n).map fun i => memByte m (a + i)

/-- The cells of the bytes bs laid from address a, zero bytes left out. -/
def cellsAt (a : Nat) : List Byte → Mem
  | [] => []
  | b :: bs => if b = 0 then cellsAt (a + 1) bs else (a, b) :: cellsAt (a + 1) bs

/-- Entries below index a. -/
def below {α : Type} (a : Nat) (m : SMap α) : SMap α := m.filter fun c => c.1 < a

/-- Entries from index a on. -/
def from_ {α : Type} (a : Nat) (m : SMap α) : SMap α := m.filter fun c => a ≤ c.1

/-- The memory with bytes bs stored from address a. -/
def memWrite (m : Mem) (a : Nat) (bs : List Byte) : Mem := below a m ++ cellsAt a bs ++ from_ (a + bs.length) m

/-- The table with every entry of indices a to a + n - 1 back at its default. -/
def clearRange {α : Type} (m : SMap α) (a n : Nat) : SMap α := below a m ++ from_ (a + n) m

/-- A little-endian number of bytes (R11). -/
def leNat : List Byte → Nat
  | [] => 0
  | b :: bs => b.toNat + 256 * leNat bs

/-- The n little-endian bytes of a number (R11). -/
def natLE : Nat → Nat → List Byte
  | 0, _ => []
  | n + 1, v => BitVec.ofNat 8 v :: natLE n (v / 256)

/-- Bytes o to o + n - 1 of bs, a missing byte reading 0. -/
def sub (bs : List Byte) (o n : Nat) : List Byte :=
  let t := (bs.drop o).take n
  t ++ List.replicate (n - t.length) 0

/-- The little-endian number in bytes o to o + n - 1. -/
def fieldLE (bs : List Byte) (o n : Nat) : Nat := leNat (sub bs o n)

/-- Bits hi to lo of a number. -/
def bits (v hi lo : Nat) : Nat := (v >>> lo) % 2 ^ (hi + 1 - lo)

/-- Bit i of a number. -/
def bit (v i : Nat) : Bool := v.testBit i

/-- 1 for true. -/
def b2n (b : Bool) : Nat := if b then 1 else 0

/-- List element i, or d. -/
def nth {α : Type} (l : List α) (i : Nat) (d : α) : α := (l[i]?).getD d

/-- The list with element i replaced. -/
def setNth {α : Type} : List α → Nat → α → List α
  | [], _, _ => []
  | _ :: l, 0, y => y :: l
  | x :: l, i + 1, y => x :: setNth l i y

/-- A number inserted into a rising list. -/
def insertNat (n : Nat) : List Nat → List Nat
  | [] => [n]
  | m :: r => if n ≤ m then n :: m :: r else m :: insertNat n r

/-- The list in rising order. -/
def sortNat (l : List Nat) : List Nat := l.foldr insertNat []

/-- Ceiling of a quotient. -/
def ceilDiv (a b : Nat) : Nat := (a + b - 1) / b

/-- a rounded up to a multiple of b. -/
def roundUp (a b : Nat) : Nat := ceilDiv a b * b

/-- 1 more, saturating at the type's last value. -/
def satInc {w : Nat} (x : BitVec w) : BitVec w := if x = BitVec.allOnes w then x else x + 1

/-- n more, saturating at the type's last value. -/
def satAdd {w : Nat} (x : BitVec w) (n : Nat) : BitVec w :=
  if x.toNat + n < 2 ^ w then BitVec.ofNat w (x.toNat + n) else BitVec.allOnes w

/-- The majority of three copies; none where all three disagree (R49, R50). -/
def vote {α : Type} [DecidableEq α] (t : Tri α) : Option α :=
  if t.c0 = t.c1 then some t.c0 else if t.c0 = t.c2 then some t.c0 else if t.c1 = t.c2 then some t.c1 else none

/-- The value a read of a T field returns (R49); where all three copies disagree a free value (log entry 20). -/
def tri {α : Type} [DecidableEq α] [Inhabited α] (t : Tri α) : α := (vote t).getD (Config.unvoted t)

/-- A register word from (width, value) parts, high part first. -/
def packW (parts : List (Nat × Nat)) : Word :=
  BitVec.ofNat 32 (parts.foldl (fun acc p => acc * 2 ^ p.1 + p.2 % 2 ^ p.1) 0)

/-- The low and high halves of a 64-bit value. -/
def lo32 (d : DWord) : Word := d.setWidth 32

/-- The high half of a 64-bit value. -/
def hi32 (d : DWord) : Word := (d >>> 32).setWidth 32

/-- A 64-bit value from its halves. -/
def join64 (hi lo : Word) : DWord := (hi ++ lo : BitVec 64)

/-- A 64-bit value with one half replaced. -/
def setHalf (d : DWord) (high : Bool) (v : Word) : DWord :=
  if high then join64 v (lo32 d) else join64 (hi32 d) v

end Sys2Proof.Machine
end

