-- ==== Sys2Proof/Machine/Flags.lean ====
section
/-! DEFINITION. Machine/Flags.lean: the arithmetic of the column processor: integers (R187), floating point (R107,
R188), CF32 (R189), GF(2^8) (R190), each result with the KSTAT flags it sets (R179). -/

namespace Sys2Proof.Machine

/-- A set of KSTAT flags (R179): bit 0 DZ, 1 OV, 2 SAT, 3 FNV, 4 FDZ, 5 FOF, 6 FUF, 7 FNX. -/
abbrev KFlags := BitVec 8

/-- DZ: integer division by zero. -/
def fDZ : KFlags := 0x01
/-- OV: checked overflow. -/
def fOV : KFlags := 0x02
/-- SAT: saturation. -/
def fSAT : KFlags := 0x04
/-- FNV: invalid. -/
def fNV : KFlags := 0x08
/-- FDZ: FP division by zero. -/
def fFDZ : KFlags := 0x10
/-- FOF: FP overflow. -/
def fOF : KFlags := 0x20
/-- FUF: FP underflow. -/
def fUF : KFlags := 0x40
/-- FNX: inexact. -/
def fNX : KFlags := 0x80

/-- A flag set where the condition holds. -/
def flagIf (c : Bool) (f : KFlags) : KFlags := if c then f else 0

/-! ## Integers (R187) -/

/-- A result with no flag. -/
def plain {w : Nat} (x : BitVec w) : BitVec w × KFlags := (x, 0)

/-- Whether an exact signed result fits w bits. -/
def fitsS (w : Nat) (z : Int) : Bool := -(2 : Int) ^ (w - 1) ≤ z && z < (2 : Int) ^ (w - 1)

/-- ADD, SUB, MUL: wrapping. -/
def iAdd {w : Nat} (a b : BitVec w) := plain (a + b)
def iSub {w : Nat} (a b : BitVec w) := plain (a - b)
def iMul {w : Nat} (a b : BitVec w) := plain (a * b)
/-- MULH: the high half of the signed product. -/
def iMulh {w : Nat} (a b : BitVec w) := plain (BitVec.ofInt w (a.toInt * b.toInt / (2 : Int) ^ w))
/-- MULHU: the high half of the unsigned product. -/
def iMulhu {w : Nat} (a b : BitVec w) := plain (BitVec.ofNat w (a.toNat * b.toNat / 2 ^ w))

/-- Whether a signed division has the corner minimum / -1. -/
def divCorner {w : Nat} (a b : BitVec w) : Bool := a.toInt = -(2 : Int) ^ (w - 1) && b.toInt = -1

/-- DIV: truncating toward zero; by zero 0 with DZ; minimum / -1 the minimum with OV. -/
def iDiv {w : Nat} (a b : BitVec w) : BitVec w × KFlags :=
  if b = 0 then (0, fDZ) else if divCorner a b then (a, fOV) else (BitVec.ofInt w (a.toInt.tdiv b.toInt), 0)
/-- REM: the sign of the dividend; by zero the dividend with DZ; minimum / -1 remainder 0 with OV. -/
def iRem {w : Nat} (a b : BitVec w) : BitVec w × KFlags :=
  if b = 0 then (a, fDZ) else if divCorner a b then (0, fOV) else (BitVec.ofInt w (a.toInt.tmod b.toInt), 0)
/-- DIVU. -/
def iDivu {w : Nat} (a b : BitVec w) : BitVec w × KFlags := if b = 0 then (0, fDZ) else (a / b, 0)
/-- REMU. -/
def iRemu {w : Nat} (a b : BitVec w) : BitVec w × KFlags := if b = 0 then (a, fDZ) else (a % b, 0)

def iAnd {w : Nat} (a b : BitVec w) := plain (a &&& b)
def iOr {w : Nat} (a b : BitVec w) := plain (a ||| b)
def iXor {w : Nat} (a b : BitVec w) := plain (a ^^^ b)

/-- The count of a shift: the operand's low log2 w bits; w is a power of two (R187). -/
def shCount {w : Nat} (b : BitVec w) : Nat := b.toNat % w

def iShl {w : Nat} (a b : BitVec w) := plain (a <<< shCount b)
def iShr {w : Nat} (a b : BitVec w) := plain (a >>> shCount b)
def iSar {w : Nat} (a b : BitVec w) := plain (a.sshiftRight (shCount b))
/-- ROTL. -/
def iRotl {w : Nat} (a b : BitVec w) := plain (a.rotateLeft (shCount b))

def iSlt {w : Nat} (a b : BitVec w) := plain (if a.slt b then (1 : BitVec w) else 0)
def iSltu {w : Nat} (a b : BitVec w) := plain (if a.ult b then (1 : BitVec w) else 0)
def iMin {w : Nat} (a b : BitVec w) := plain (if b.slt a then b else a)
def iMax {w : Nat} (a b : BitVec w) := plain (if a.slt b then b else a)
def iMinu {w : Nat} (a b : BitVec w) := plain (if b.ult a then b else a)
def iMaxu {w : Nat} (a b : BitVec w) := plain (if a.ult b then b else a)

/-- Leading zeros. -/
def clzN (w n : Nat) : Nat := if n = 0 then w else w - 1 - Nat.log2 n
/-- Trailing zeros of an n of w bits. -/
def ctzN (w n : Nat) : Nat := ((List.range w).find? fun i => n.testBit i).getD w
/-- Ones of an n of w bits. -/
def popN (w n : Nat) : Nat := (List.range w).countP fun i => n.testBit i

def iClz {w : Nat} (a _b : BitVec w) := plain (BitVec.ofNat w (clzN w a.toNat))
def iCtz {w : Nat} (a _b : BitVec w) := plain (BitVec.ofNat w (ctzN w a.toNat))
def iPopc {w : Nat} (a _b : BitVec w) := plain (BitVec.ofNat w (popN w a.toNat))

/-- A checked form: the wrapped result, OV where the exact signed one does not fit (R187). -/
def checked (w : Nat) (z : Int) : BitVec w × KFlags := (BitVec.ofInt w z, flagIf (!fitsS w z) fOV)
def iAddo {w : Nat} (a b : BitVec w) := checked w (a.toInt + b.toInt)
def iSubo {w : Nat} (a b : BitVec w) := checked w (a.toInt - b.toInt)
def iMulo {w : Nat} (a b : BitVec w) := checked w (a.toInt * b.toInt)

/-- A value clipped to lo to hi, SAT where it is clipped (R187). -/
def clip (w : Nat) (lo hi z : Int) : BitVec w × KFlags :=
  if z < lo then (BitVec.ofInt w lo, fSAT) else if hi < z then (BitVec.ofInt w hi, fSAT) else (BitVec.ofInt w z, 0)
def iAdds {w : Nat} (a b : BitVec w) := clip w (-(2 : Int) ^ (w - 1)) ((2 : Int) ^ (w - 1) - 1) (a.toInt + b.toInt)
def iSubs {w : Nat} (a b : BitVec w) := clip w (-(2 : Int) ^ (w - 1)) ((2 : Int) ^ (w - 1) - 1) (a.toInt - b.toInt)
def iAddsu {w : Nat} (a b : BitVec w) := clip w 0 ((2 : Int) ^ w - 1) ((a.toNat : Int) + b.toNat)
def iSubsu {w : Nat} (a b : BitVec w) := clip w 0 ((2 : Int) ^ w - 1) ((a.toNat : Int) - b.toNat)
/-- VMV: the B operand. -/
def iMv {w : Nat} (_a b : BitVec w) := plain b

/-- Whether a signed compare holds: 0 EQ, 1 NE, 2 LT, 3 LE, 4 GT, 5 GE. -/
def cmpS (c : Nat) {w : Nat} (a b : BitVec w) : Bool :=
  match c with
  | 0 => a = b
  | 1 => a ≠ b
  | 2 => a.slt b
  | 3 => !b.slt a
  | 4 => b.slt a
  | _ => !a.slt b

/-- Whether an unsigned compare holds: 2 LT, 3 LE, 4 GT, else GE. -/
def cmpU (c : Nat) {w : Nat} (a b : BitVec w) : Bool :=
  match c with
  | 2 => a.ult b
  | 3 => !b.ult a
  | 4 => b.ult a
  | _ => !a.ult b

/-! ## Floating point (R107, R188) -/

/-- A binary format: bits of the exponent field and of the fraction. -/
structure Fmt where
  eb : Nat
  mb : Nat
  deriving DecidableEq, Repr

/-- binary32. -/
def f32 : Fmt := ⟨8, 23⟩
/-- binary64. -/
def f64 : Fmt := ⟨11, 52⟩

/-- The bits of +infinity. -/
def Fmt.inf (f : Fmt) : Nat := (2 ^ f.eb - 1) * 2 ^ f.mb
/-- The canonical quiet NaN (R107). -/
def Fmt.nan (f : Fmt) : Nat := f.inf + 2 ^ (f.mb - 1)
/-- The sign bit. -/
def Fmt.signBit (f : Fmt) : Nat := 2 ^ (f.eb + f.mb)
/-- The exponent of a subnormal's last bit. -/
def Fmt.qmin (f : Fmt) : Int := 2 - (2 : Int) ^ (f.eb - 1) - f.mb

/-- Bits with a sign. -/
def Fmt.signed (f : Fmt) (neg : Bool) (x : Nat) : Nat := if neg then f.signBit + x else x

/-- What bits mean: a NaN (quiet or signalling), an infinity, or mant * 2^exp with a sign. -/
inductive FpNum where
  | nan (quiet : Bool)
  | inf (neg : Bool)
  | fin (neg : Bool) (mant : Nat) (exp : Int)
  deriving DecidableEq, Repr

/-- The meaning of bits. -/
def unpack (f : Fmt) (x : Nat) : FpNum :=
  let neg := x.testBit (f.eb + f.mb)
  let e := (x / 2 ^ f.mb) % 2 ^ f.eb
  let m := x % 2 ^ f.mb
  if e = 2 ^ f.eb - 1 then (if m = 0 then .inf neg else .nan (m.testBit (f.mb - 1)))
  else if e = 0 then .fin neg m f.qmin
  else .fin neg (2 ^ f.mb + m) (f.qmin + (e - 1))

/-- The rounding of (mant + s) * 2^exp to a multiple of 2^q, to nearest, ties to even: the multiple and whether it is
inexact. sticky says that s lies strictly between 0 and 1 where the true value has bits below mant. -/
def roundAt (mant : Nat) (exp q : Int) (sticky : Bool) : Nat × Bool :=
  if q ≤ exp then (mant * 2 ^ (exp - q).toNat, sticky)
  else
    let sh := (q - exp).toNat
    let m := mant / 2 ^ sh
    let r := mant % 2 ^ sh
    let h := 2 ^ (sh - 1)
    let up := h < r || (r = h && (sticky || m % 2 = 1))
    ((if up then m + 1 else m), r ≠ 0 || sticky)

/-- The result of an exact (or sticky) value: rounding to nearest even with gradual underflow, and the flags (R107,
R188). Which results are tiny at the border is open (log entry 12). -/
def roundFp (f : Fmt) (neg : Bool) (mant : Nat) (exp : Int) (sticky : Bool) : Nat × KFlags :=
  if mant = 0 then (f.signed neg 0, 0)
  else
    let e := exp + Nat.log2 mant
    let q := max (e - f.mb) f.qmin
    let (m, nx) := roundAt mant exp q sticky
    let enc := (q - f.qmin).toNat * 2 ^ f.mb + m
    if f.inf ≤ enc then (f.signed neg f.inf, fOF ||| fNX)
    else
      let tiny :=
        if e < f.qmin + f.mb then
          if (roundAt mant exp (e - f.mb) sticky).1 = 2 ^ (f.mb + 1) && e + 1 = f.qmin + f.mb then
            Config.tinyBeforeRounding
          else true
        else false
      (f.signed neg enc, flagIf nx fNX ||| flagIf (nx && tiny) fUF)

/-- Whether either operand is a signalling NaN. -/
def anySig (x y : FpNum) : Bool := x = .nan false || y = .nan false

/-- Whether the number is a NaN. -/
def FpNum.isNan : FpNum → Bool
  | .nan _ => true
  | _ => false

/-- The sum of two finite numbers, exactly, then rounded; an exact zero sum of opposite signs is +0. -/
def addFin (f : Fmt) (nx : Bool) (mx : Nat) (ex : Int) (ny : Bool) (my : Nat) (ey : Int) : Nat × KFlags :=
  let e := min ex ey
  let a : Int := (mx * 2 ^ (ex - e).toNat : Nat)
  let b : Int := (my * 2 ^ (ey - e).toNat : Nat)
  let z := (if nx then -a else a) + (if ny then -b else b)
  if z = 0 then (f.signed (nx && ny) 0, 0) else roundFp f (z < 0) z.natAbs e false

/-- The operand with its sign changed. -/
def FpNum.flip : FpNum → FpNum
  | .nan q => .nan q
  | .inf n => .inf (!n)
  | .fin n m e => .fin (!n) m e

/-- The sum of two numbers. -/
def addNum (f : Fmt) (x y : FpNum) : Nat × KFlags :=
  match x, y with
  | .nan _, _ => (f.nan, flagIf (anySig x y) fNV)
  | _, .nan _ => (f.nan, flagIf (anySig x y) fNV)
  | .inf a, .inf b => if a = b then (f.signed a f.inf, 0) else (f.nan, fNV)
  | .inf a, _ => (f.signed a f.inf, 0)
  | _, .inf b => (f.signed b f.inf, 0)
  | .fin a m e, .fin b n d => addFin f a m e b n d

/-- FADD. -/
def fpAdd (f : Fmt) (a b : Nat) : Nat × KFlags := addNum f (unpack f a) (unpack f b)
/-- FSUB. -/
def fpSub (f : Fmt) (a b : Nat) : Nat × KFlags := addNum f (unpack f a) (unpack f b).flip

/-- FMUL. -/
def fpMul (f : Fmt) (a b : Nat) : Nat × KFlags :=
  let x := unpack f a
  let y := unpack f b
  match x, y with
  | .nan _, _ => (f.nan, flagIf (anySig x y) fNV)
  | _, .nan _ => (f.nan, flagIf (anySig x y) fNV)
  | .inf s, .inf t => (f.signed (s ^^ t) f.inf, 0)
  | .inf s, .fin t m _ => if m = 0 then (f.nan, fNV) else (f.signed (s ^^ t) f.inf, 0)
  | .fin s m _, .inf t => if m = 0 then (f.nan, fNV) else (f.signed (s ^^ t) f.inf, 0)
  | .fin s m e, .fin t n d => roundFp f (s ^^ t) (m * n) (e + d) false

/-- FDIV. -/
def fpDiv (f : Fmt) (a b : Nat) : Nat × KFlags :=
  let x := unpack f a
  let y := unpack f b
  match x, y with
  | .nan _, _ => (f.nan, flagIf (anySig x y) fNV)
  | _, .nan _ => (f.nan, flagIf (anySig x y) fNV)
  | .inf _, .inf _ => (f.nan, fNV)
  | .inf s, .fin t _ _ => (f.signed (s ^^ t) f.inf, 0)
  | .fin s _ _, .inf t => (f.signed (s ^^ t) 0, 0)
  | .fin s m e, .fin t n d =>
    if n = 0 then (if m = 0 then (f.nan, fNV) else (f.signed (s ^^ t) f.inf, fFDZ))
    else
      let k := 2 * f.mb + 6
      roundFp f (s ^^ t) (m * 2 ^ k / n) (e - d - k) (m * 2 ^ k % n ≠ 0)

/-- The integer square root, bit by bit. -/
def isqrt (n : Nat) : Nat :=
  (List.range (Nat.log2 n / 2 + 1)).reverse.foldl (fun r i => if (r + 2 ^ i) * (r + 2 ^ i) ≤ n then r + 2 ^ i else r) 0

/-- FSQRT. -/
def fpSqrt (f : Fmt) (a : Nat) : Nat × KFlags :=
  match unpack f a with
  | .nan q => (f.nan, flagIf (!q) fNV)
  | .inf neg => if neg then (f.nan, fNV) else (f.inf, 0)
  | .fin neg m e =>
    if m = 0 then (f.signed neg 0, 0)
    else if neg then (f.nan, fNV)
    else
      let k := 2 * (f.mb + 3) + (e % 2).toNat
      let n := m * 2 ^ k
      let r := isqrt n
      roundFp f false r ((e - k) / 2) (r * r ≠ n)

/-- The fused product and sum, rounded once (R188): a * b + c. -/
def fpFma (f : Fmt) (a b c : Nat) : Nat × KFlags :=
  let x := unpack f a
  let y := unpack f b
  let z := unpack f c
  let sig := anySig x y || z = .nan false
  match x, y with
  | .nan _, _ => (f.nan, flagIf sig fNV)
  | _, .nan _ => (f.nan, flagIf sig fNV)
  | .inf s, .inf t => addNum f (.inf (s ^^ t)) z
  | .inf s, .fin t m _ => fmaInf f (s ^^ t) m z
  | .fin s m _, .inf t => fmaInf f (s ^^ t) m z
  | .fin s m e, .fin t n d => addNum f (.fin (s ^^ t) (m * n) (e + d)) z
where
  /-- An infinity times a finite number of mantissa m, plus z. -/
  fmaInf (f : Fmt) (neg : Bool) (m : Nat) (z : FpNum) : Nat × KFlags :=
    if m = 0 then
      match z with
      | .nan q => (f.nan, flagIf (!q || Config.fmaZeroInfSignals) fNV)
      | _ => (f.nan, fNV)
    else addNum f (.inf neg) z

/-- VFNMS: c - a * b, rounded once. -/
def fpFnms (f : Fmt) (a b c : Nat) : Nat × KFlags := fpFma f (a ^^^ f.signBit) b c

/-- The IEEE order of two numbers that are not NaN, as an integer comparison: negative, zero or positive. -/
def numCmp (x y : FpNum) : Int :=
  match x, y with
  | .inf a, .inf b => (if a then -1 else 1) - (if b then -1 else 1)
  | .inf a, _ => if a then -1 else 1
  | _, .inf b => if b then 1 else -1
  | .fin a m e, .fin b n d =>
    let k := min e d
    (if a then -(m * 2 ^ (e - k).toNat : Int) else (m * 2 ^ (e - k).toNat : Int))
      - (if b then -(n * 2 ^ (d - k).toNat : Int) else (n * 2 ^ (d - k).toNat : Int))
  | _, _ => 0

/-- An IEEE compare, false with a NaN (R188): 0 EQ, 1 LT, 2 LE. -/
def fpCmp (c : Nat) (f : Fmt) (a b : Nat) : Bool × KFlags :=
  let x := unpack f a
  let y := unpack f b
  if x.isNan || y.isNan then
    (false, flagIf (anySig x y || (c ≠ 0 && Config.orderedCompareSignals)) fNV)
  else
    (match c with
     | 0 => numCmp x y = 0
     | 1 => numCmp x y < 0
     | _ => numCmp x y ≤ 0, 0)

/-- CFUN: either operand is a NaN. -/
def fpUnord (f : Fmt) (a b : Nat) : Bool × KFlags :=
  let x := unpack f a
  let y := unpack f b
  (x.isNan || y.isNan, flagIf (anySig x y) fNV)

/-- The total order of R109: NaNs are equal and above +infinity, -0 = +0. Negative, zero or positive. -/
def fpTotal (f : Fmt) (a b : Nat) : Int :=
  let x := unpack f a
  let y := unpack f b
  match x.isNan, y.isNan with
  | true, true => 0
  | true, false => 1
  | false, true => -1
  | false, false => numCmp x y

/-- CFTLT. -/
def fpTlt (f : Fmt) (a b : Nat) : Bool × KFlags := (fpTotal f a b < 0, 0)

/-- FMIN (isMax false) and FMAX: a NaN operand gives the canonical NaN, equal operands give A (R188). -/
def fpMinMax (isMax : Bool) (f : Fmt) (a b : Nat) : Nat × KFlags :=
  let x := unpack f a
  let y := unpack f b
  if x.isNan || y.isNan then (f.nan, flagIf (anySig x y) fNV)
  else
    let c := numCmp x y
    ((if (if isMax then c < 0 else 0 < c) then b else a), 0)

/-- VFABS; a NaN result is canonical (R107). -/
def fpAbs (f : Fmt) (a : Nat) : Nat × KFlags := (if (unpack f a).isNan then f.nan else a % f.signBit, 0)
/-- VFNEG; a NaN result is canonical (R107). -/
def fpNeg (f : Fmt) (a : Nat) : Nat × KFlags :=
  (if (unpack f a).isNan then f.nan else if f.signBit ≤ a % (2 * f.signBit) then a % f.signBit else a % f.signBit + f.signBit, 0)

/-- FCVTI, VCVTFI: to a signed integer of w bits, truncating; NaN to 0, out of range to the nearest end, with FNV (R188). -/
def fpToInt (f : Fmt) (w a : Nat) : BitVec w × KFlags :=
  match unpack f a with
  | .nan _ => (0, fNV)
  | .inf neg => (BitVec.ofInt w (if neg then -(2 : Int) ^ (w - 1) else (2 : Int) ^ (w - 1) - 1), fNV)
  | .fin neg m e =>
    let t : Nat := if 0 ≤ e then m * 2 ^ e.toNat else m / 2 ^ (-e).toNat
    let exact : Bool := if 0 ≤ e then true else m % 2 ^ (-e).toNat = 0
    let z : Int := if neg then -(t : Int) else t
    if fitsS w z then (BitVec.ofInt w z, flagIf (!exact && Config.toIntSignalsInexact) fNX)
    else (BitVec.ofInt w (if neg then -(2 : Int) ^ (w - 1) else (2 : Int) ^ (w - 1) - 1), fNV)

/-- FCVTF, VCVTIF, VCVTUF: from an exact integer, to nearest even. -/
def intToFp (f : Fmt) (z : Int) : Nat × KFlags := roundFp f (z < 0) z.natAbs 0 false

/-- FCVTP, VCVTDS, VCVTSD: from one format to another. -/
def fpToFp (f t : Fmt) (a : Nat) : Nat × KFlags :=
  match unpack f a with
  | .nan q => (t.nan, flagIf (!q) fNV)
  | .inf neg => (t.signed neg t.inf, 0)
  | .fin neg m e => roundFp t neg m e false

/-! ## CF32 (R189) -/

/-- The real part of a CF32 element. -/
def cfRe (x : Nat) : Nat := x % 2 ^ 32
/-- The imaginary part. -/
def cfIm (x : Nat) : Nat := x / 2 ^ 32 % 2 ^ 32
/-- A CF32 element. -/
def cfMk (re im : Nat) : Nat := re + im * 2 ^ 32
/-- The conjugate as a factor: the sign of the imaginary part turns, a NaN keeps its kind for the product to signal (R188). -/
def cfConj (x : Nat) : Nat := cfMk (cfRe x) (cfIm x ^^^ 2 ^ 31)

/-- The sum of two CF32 values, partwise. -/
def cfAdd (a b : Nat) : Nat × KFlags :=
  let r := fpAdd f32 (cfRe a) (cfRe b)
  let i := fpAdd f32 (cfIm a) (cfIm b)
  (cfMk r.1 i.1, r.2 ||| i.2)
/-- The difference, partwise. -/
def cfSub (a b : Nat) : Nat × KFlags :=
  let r := fpSub f32 (cfRe a) (cfRe b)
  let i := fpSub f32 (cfIm a) (cfIm b)
  (cfMk r.1 i.1, r.2 ||| i.2)
/-- (ac - bd) + (ad + bc)i, each product and sum rounded (R107). -/
def cfMul (a b : Nat) : Nat × KFlags :=
  let ac := fpMul f32 (cfRe a) (cfRe b)
  let bd := fpMul f32 (cfIm a) (cfIm b)
  let ad := fpMul f32 (cfRe a) (cfIm b)
  let bc := fpMul f32 (cfIm a) (cfRe b)
  let r := fpSub f32 ac.1 bd.1
  let i := fpAdd f32 ad.1 bc.1
  (cfMk r.1 i.1, ac.2 ||| bd.2 ||| ad.2 ||| bc.2 ||| r.2 ||| i.2)
/-- The product with the conjugate of B. -/
def cfMulC (a b : Nat) : Nat × KFlags := cfMul a (cfConj b)
/-- D plus a product. -/
def cfMac (d a b : Nat) : Nat × KFlags :=
  let p := cfMul a b
  let s := cfAdd d p.1
  (s.1, p.2 ||| s.2)
/-- D plus a product with the conjugate. -/
def cfMacC (d a b : Nat) : Nat × KFlags := cfMac d a (cfConj b)
/-- re^2 + im^2 in the real part. -/
def cfAbs2 (a : Nat) : Nat × KFlags :=
  let x := fpMul f32 (cfRe a) (cfRe a)
  let y := fpMul f32 (cfIm a) (cfIm a)
  let s := fpAdd f32 x.1 y.1
  (cfMk s.1 0, x.2 ||| y.2 ||| s.2)

/-! ## GF(2^8) (R190, R270) -/

/-- Twice a field element, reduced by 0x11D. -/
def gfDouble (a : Nat) : Nat := if a < 128 then 2 * a else (2 * a) ^^^ 0x11D

/-- The product of two field elements. -/
def gfMul (a b : Nat) : Nat :=
  ((List.range 8).foldl (fun (p : Nat × Nat) i => (gfDouble p.1, if b.testBit i then p.2 ^^^ p.1 else p.2)) (a % 256, 0)).2

end Sys2Proof.Machine
end

