-- ==== Sys2Proof/Machine/State.lean ====
section
/-! DEFINITION. Machine/State.lean: everything the spec gives the block, as plain data, with the reset values as the
fields' defaults; the faults and refusals; the machine after reset. -/

namespace Sys2Proof.Machine

/-- Reasons a run stops with a fault. -/
inductive Fault where
  /-- Raised by no meaning: every error the spec describes is a status, a record or a reset in State. Safe. -/
  | none
  deriving DecidableEq, Repr

/-- Reasons a command is turned away. -/
inductive Refusal where
  /-- Raised by an arm of exec whose instruction has no meaning yet. Safe. -/
  | notModelled (mnemonic : String)
  /-- Raised by the meaning of an event that cannot happen in this state: a timer that does not run expires, a
  completion of work that is not in progress, a command id that names no fetched command of that opcode, an operand
  that names no unit of the part (log entry 7). Safe: the model stops where the hardware has no such step. -/
  | eventNotPossible (what : String)
  deriving DecidableEq, Repr

/-! ## GLB: identity, guard, bus errors, checks, tile map, start-up -/

/-- The lock of the guard (R45, R47): the three fields of the T register GLB_GUARD. -/
structure Lock where
  /-- R47 OPEN (02), 1 bit, reset 0. -/
  isOpen : Bool := false
  /-- R47 HOLDER (02), 3 bits, reset 0. The requester that opened the lock. -/
  holder : Req := .pf0
  /-- R47 REMAIN (02), 11 bits, reset 0. -/
  remain : BitVec 11 := 0
  deriving DecidableEq, Repr, Inhabited

/-- What a consistency check is about (R55). -/
inductive CheckObj where
  | partition (p : Nat)
  /-- An enable that has passed its check and waits for the report of its generation (R18). -/
  | partGen (p : Nat)
  | partField (p off : Nat) (v : Word)
  | queue (q : Nat) (sq cq : Bool)
  | astTable (cmd : Nat)
  | arrCreate (cmd : Nat)
  | arrImport (cmd : Nat)
  | arrSet (cmd : Nat)
  | arrReshape (cmd : Nat)
  | arrRebuild (cmd : Nat)
  | volCreate (cmd : Nat)
  | volResize (cmd : Nat)
  | netSubsys (cmd : Nat)
  | netExport (cmd : Nat)
  | partRestore (cmd : Nat)
  | binding (b : Nat)
  | mirror
  | sdma (c : Nat)
  | evcRoute (src : Nat)
  deriving DecidableEq, Repr

/-- A write held until its object's check completes (R54). -/
structure HeldWrite where
  req : Req
  sp : Space
  off : Nat
  v : Word
  deriving DecidableEq, Repr

/-- The check machinery of one block: BLOCK_CCR and BLOCK_CCR_OBJ (R54) and its queue of checks. -/
structure Ccr where
  /-- R54 FAIL (02), 1 bit, reset 0. -/
  fail : Bool := false
  /-- R54 REASON (02), 16 bits, reset 0. -/
  reason : BitVec 16 := 0
  /-- R54 OBJ (02), 32 bits, reset 0. -/
  obj : Word := 0
  /-- R54 (02): the checks running or queued, oldest first; BUSY reads 1 while it is not empty. -/
  queue : List CheckObj := []
  /-- R54 (02): writes held until their object's check completes, oldest first. -/
  held : List HeldWrite := []
  deriving DecidableEq, Repr

/-- Block GLB. -/
structure Glb where
  /-- R47 (02): the guard's lock, T. -/
  guard : Tri Lock := Tri.of {}
  /-- R48 BADKEY_CNT (02), 8 bits, reset 0. -/
  badKey : BitVec 8 := 0
  /-- R48 REFUSED_CNT (02), 8 bits, reset 0. -/
  refused : BitVec 8 := 0
  /-- R48 LAST_SRC (02), 3 bits, reset 0. -/
  lastSrc : BitVec 3 := 0
  /-- R52 GLB_BUSERR (02), 32 bits, reset 0. -/
  buserr : Word := 0
  /-- R52 GLB_BUSERR_OFS (02), 32 bits, reset 0. -/
  buserrOfs : Word := 0
  /-- R475 GLB_TILE_MAP0-3 (16), 4 x 32 bits, T, reset per variant. -/
  tileMap : SMap (Tri Word) := []
  /-- R476 SPARE (16), 18 bits, reset per variant. -/
  spare : BitVec 18 := 0
  /-- R526 GLB_START.STATE (18), 3 bits, reset 0. -/
  start : BitVec 3 := 0
  /-- R526 GLB_START.FAILCODE (18), 8 bits, reset 0. -/
  failCode : BitVec 8 := 0
  /-- R526 GLB_START.MS (18), 16 bits, reset 0. -/
  startMs : BitVec 16 := 0
  /-- R526 GLB_RSTCAUSE (18), 4 bits, reset 0001 (POR). -/
  rstCause : BitVec 4 := 1
  deriving DecidableEq, Repr

/-! ## CLK, the stewards, EVC, SDMA -/

/-- A steward timer (R518, R525). -/
structure StwTimer where
  /-- R525 CLK_TMR_CTL.EN (18), 1 bit, reset 0. -/
  en : Bool := false
  /-- R525 DEADLINE (18), 64 bits, reset 0. -/
  deadline : DWord := 0
  /-- R525 CLK_TMR_DL_LO as last written (18), 32 bits, reset 0: it takes effect on the high-word write. -/
  dlLo : Word := 0
  /-- R525 PERIOD (18), 32 bits, reset 0. -/
  period : Word := 0
  deriving DecidableEq, Repr

/-- Block CLK. -/
structure Clk where
  /-- R26 the Almanac (01), 64 bits, reset 0. -/
  alm : DWord := 0
  /-- R26, R465 (01, 15): 1 once the Almanac counts, reset 0. -/
  counting : Bool := false
  /-- R525 CLK_PLL.LOCK (18), 1 bit, reset 0. -/
  locked : Bool := false
  /-- R525 LOSS_CNT (18), 8 bits, reset 0. -/
  lossCnt : BitVec 8 := 0
  /-- R525 PDIV (18), 4 bits, T, reset 3. -/
  pdiv : Tri (BitVec 4) := Tri.of 3
  /-- R525 PDIV_EFF (18), 4 bits, reset 3. -/
  pdivEff : BitVec 4 := 3
  /-- R525 TRIM (18), 32 bits signed ppb, reset 0. -/
  trim : Word := 0
  /-- R518 the timers of steward w, index 8 w + i (18). -/
  timers : SMap StwTimer := []
  /-- R8 (00): quarters of an SCLK that TCLK has counted since the last SCLK edge, 0-3, reset 0: the model's own phase
  between TCLK and SCLK (log entry 3). -/
  sclkPhase : Nat := 0
  /-- R415 (13): the Almanac milliseconds whose boundary has been counted, reset 0. -/
  msDone : Nat := 0
  /-- R417 (13): the Calends that have fallen, reset 0. -/
  calDone : Nat := 0
  /-- R465 (15): the Almanac milliseconds at which TSYNC was driven, reset 0. -/
  tsyncDone : Nat := 0
  deriving DecidableEq, Repr

/-- One stacked frame of a steward: PC, status word, G1-G6 (R429). -/
structure StwFrame where
  pc : DWord
  status : DWord
  g : List DWord
  /-- The priority the stacked code ran at (R426). -/
  prio : Nat
  /-- The source whose handler runs on this frame: shared number, or 2048 + 64 w + i for private source i of steward w. -/
  src : Nat
  deriving DecidableEq, Repr

/-- A steward's entry into a handler, or its exit from one, while it lasts (R429 to R432). -/
structure StwSeq where
  /-- Whether this is the exit of R431; otherwise the entry of R429. -/
  exiting : Bool
  /-- The SCLK it has reached, 0 to 11 (R429, R431). -/
  k : Nat
  /-- The entering event's priority (R429). -/
  prio : Nat
  /-- The entering event's source, numbered as in StwFrame. -/
  src : Nat
  deriving DecidableEq, Repr

/-- A steward as the spec's hardware sees it (R425, R426, R429, R51). -/
structure Steward where
  /-- R478 (16): in service, reset 1. -/
  inService : Bool := true
  /-- R429 PC (14), 64 bits (log entry 6). -/
  pc : DWord := 0
  /-- R429 status word (14), 64 bits (log entry 6). -/
  status : DWord := 0
  /-- R429 G1-G6 (14), 6 x 64 bits, index 1-6 (log entry 6). -/
  g : SMap DWord := []
  /-- R426, R429 the hardware stack (14), newest first, at most 16 frames, reset empty. -/
  stack : List StwFrame := []
  /-- R437 EVC_STW.CUR (14), 5 bits, reset 16 (thread level). -/
  cur : Nat := 16
  /-- R429 to R432 (14) an entry or exit in progress. Reset none. -/
  seq : Option StwSeq := none
  /-- R51 (02) exception record: a bus-error exception is held. Reset 0. -/
  excValid : Bool := false
  /-- R51 (02) exception record: the offset. Reset 0. -/
  excOfs : Word := 0
  /-- R51 (02) exception record: the direction, 1 write. Reset 0. -/
  excWrite : Bool := false
  deriving DecidableEq, Repr

/-- An EVC_ROUTE record (R437). -/
structure Route where
  /-- R437 EN (14), 1 bit, reset 0. -/
  en : Bool := false
  /-- R437 PEND (14), 1 bit, reset 0. -/
  pend : Bool := false
  /-- R437 ACT (14), 1 bit, reset 0. -/
  act : Bool := false
  /-- R437 WAKE (14), 1 bit, reset 0. -/
  wake : Bool := false
  /-- R437 PRIO (14), 4 bits, reset 0. -/
  prio : BitVec 4 := 0
  /-- R437 TKIND (14), 1 bit, reset 0. -/
  pf0 : Bool := false
  /-- R437 STW (14), 2 bits, reset 0. -/
  stw : BitVec 2 := 0
  /-- R437 VEC (14), 11 bits, reset 0. -/
  vec : BitVec 11 := 0
  deriving DecidableEq, Repr

/-- An EVC_PRIV record (R437). -/
structure Priv where
  /-- R437 EN (14), 1 bit, reset 0. -/
  en : Bool := false
  /-- R437 PEND (14), 1 bit, reset 0. -/
  pend : Bool := false
  /-- R437 ACT (14), 1 bit, reset 0. -/
  act : Bool := false
  /-- R437 PRIO (14), 4 bits, reset 0. -/
  prio : BitVec 4 := 0
  deriving DecidableEq, Repr

/-- A pin source and its glitch filter (R428, R437). -/
structure Pin where
  /-- R437 RAW (14), 1 bit (log entry 6). -/
  raw : Bool := false
  /-- R437 FLT (14), 1 bit (log entry 6). -/
  flt : Bool := false
  /-- R428 (14): the filter counts. Reset 0. -/
  counting : Bool := false
  /-- R437 FILT (14), 12 bits, reset 63. -/
  filt : BitVec 12 := 63
  /-- R428 (14): SCLK for which the raw level has still to stay stable; a write of FILT applies from the next raw change. Reset 0. -/
  filtUsed : BitVec 12 := 0
  deriving DecidableEq, Repr

/-- Block EVC. -/
structure Evc where
  /-- R437 EVC_ROUTE (14), 2,048 records. -/
  routes : SMap Route := []
  /-- R437 EVC_PRIV (14), 64 w + i. -/
  privs : SMap Priv := []
  /-- R437 EVC_PIN0-3 (14). -/
  pins : SMap Pin := []
  /-- R437 HACK_BAD (14), 8 bits, reset 0. -/
  hackBad : BitVec 8 := 0
  /-- R437 MERGE_CNT (14), 16 bits, reset 0. -/
  mergeCnt : BitVec 16 := 0
  /-- R435 (14): the shared logic is gated and the records stand in the retention registers. Reset 0. -/
  gated : Bool := false
  /-- R435 retention latch (14), one bit per shared source, reset 0. -/
  latch : SMap Bool := []
  deriving DecidableEq, Repr

/-- An SDMA channel (R449), with the burst in progress. -/
structure Sdma where
  /-- R449 SDMA_SRC (14), 64 bits, reset 0. -/
  src : DWord := 0
  /-- R449 SDMA_DST (14), 64 bits, reset 0. -/
  dst : DWord := 0
  /-- R449 SDMA_CNT (14), 32 bits, reset 0. -/
  cnt : Word := 0
  /-- R449 SDMA_CTL bits 14:3 (14): REQSEL, DFIX, SFIX, DSPACE, SSPACE, IEN; 16 bits with 2:0 zero, reset 0. -/
  ctl : BitVec 16 := 0
  /-- R449 STATE (14), 4 bits, reset 0: 0 IDLE, 1 ARMED, 2 BURST, 3 RETRY, 4 READBACK, 5 DONE, 6 ABORTED, 7 HALTED,
  8 TIMEDOUT. -/
  state : Nat := 0
  /-- R449 DIR (14), 1 bit, reset 0. -/
  dirWrite : Bool := false
  /-- R449 TRIES (14), 4 bits, reset 0. -/
  tries : BitVec 4 := 0
  /-- R449 RESID (14), 32 bits, reset 0. -/
  resid : Word := 0
  /-- R449 SDMA_ERRADDR (14), 64 bits, reset 0. -/
  errAddr : DWord := 0
  /-- R449 TMO_US (14), 16 bits, reset 0. -/
  tmoUs : BitVec 16 := 0
  /-- R449 RETRY (14), 4 bits, reset 0. -/
  retry : BitVec 4 := 0
  /-- R439 (14): bytes moved so far, 512 per completed burst. Reset 0. -/
  done : Nat := 0
  /-- R444 (14): an abort waits for the burst in flight. Reset 0. -/
  aborting : Bool := false
  /-- R443 (14): repeats of the read-back so far; SDMA_STAT.TRIES keeps the last burst's. Reset 0. -/
  rbTries : Nat := 0
  /-- R442, R446 (14): HALTED was entered from READBACK. Reset 0. -/
  inReadback : Bool := false
  /-- R445 (14): Almanac at its entry to ARMED. Reset 0. -/
  armedAt : DWord := 0
  deriving DecidableEq, Repr

/-! ## VIGIL, PWR, TRUST -/

/-- A VIGIL record (R469). -/
structure VRec where
  cls : BitVec 2
  ctx : BitVec 13
  blk : Byte
  check : Byte
  unit : BitVec 16
  action : BitVec 16
  offset : Word
  write : Bool
  status : BitVec 16
  alm : DWord
  seq : Word
  deriving DecidableEq, Repr

/-- Block VIGIL. -/
structure Vigil where
  /-- R470 the ring of 512 records (16), by slot. -/
  ring : SMap (Option VRec) := []
  /-- R487 VIGIL_LOG_P (16), 32 bits, reset 0. -/
  logP : Word := 0
  /-- R487 VIGIL_LOG_C (16), 32 bits, reset 0. -/
  logC : Word := 0
  /-- R487 VIGIL_UACK (16), 32 bits as last written, reset 0. -/
  uack : Word := 0
  /-- R472 (16): the SEQ of every uncorrected record not acknowledged (for a dropped record the SEQ it belongs to), newest
  first; UNACK is its length. Reset empty. -/
  unack : List Word := []
  /-- R487 RESETREQ (16), 1 bit, reset 0. -/
  resetReq : Bool := false
  /-- R487 SUPP_CNT (16), 16 bits, reset 0. -/
  supp : BitVec 16 := 0
  /-- R487 DROP_CNT (16), 16 bits, reset 0. -/
  drop : BitVec 16 := 0
  /-- R470 (16): the last corrected record per unit and check, with the Almanac at which it was written. -/
  lastCorr : List (Byte × BitVec 16 × Byte × DWord) := []
  /-- R471 the partition-page rings (16), index 32 p + slot. -/
  page : SMap (Option VRec) := []
  /-- R471 the partition's own record count (16), 32 bits, reset 0. -/
  pageCnt : SMap Word := []
  /-- R482 BUSY (16), 1 bit, reset 0. -/
  svcBusy : Bool := false
  /-- R482 RESULT (16), 3 bits, reset 0. -/
  svcResult : BitVec 3 := 0
  /-- R482 KIND, ACTION, INDEX (16) as written, reset 0. -/
  svcCtl : Word := 0
  /-- R469, R481 (16): the physical unit the service action acts on. Reset 0. -/
  svcUnit : Nat := 0
  /-- R482 TIME_MS (16), 16 bits, reset 0. -/
  svcMs : BitVec 16 := 0
  /-- R482 REASON (16), 16 bits, reset 0. -/
  svcReason : BitVec 16 := 0
  /-- R477, R481 (16): the logical tile being swapped, the target and whether VIGIL_SVC asked for it. Reset none. -/
  swap : Option (Nat × Nat × Bool) := none
  /-- R474 (16): logical tiles whose tile has faulted and for which a spare is being prepared, oldest first, each with the
  spare chosen. Reset empty. -/
  sparing : List (Nat × Nat) := []
  /-- R481 (16): units taken out of service by kind code and index (bank, CMP engine, ERS engine, steward); reset none. -/
  outSvc : SMap Bool := []
  /-- R480 (16): for a physical tile of an Equinox mismatch, 1 + the morsels left of the 1,024 watched. -/
  eqxWatch : SMap Nat := []
  /-- R479 (16): for a physical tile just placed as a spare, the morsels left to run paired. -/
  eqxLeft : SMap Nat := []
  /-- R479 (16): the physical tile borrowed as digest partner, by the logical tile it serves. -/
  borrowed : SMap (Option Nat) := []
  /-- R481 (16): the spare rows of an HBM pseudo-channel in use, of 64. Reset 0. -/
  spareRows : SMap Nat := []
  /-- R481 (16): HBM pages with a row that no spare row replaced, out of POOL. Reset 0. -/
  badPages : Nat := 0
  /-- R481 (16): such pages that are still mapped, as `State.pages` keys them: they leave POOL when they are freed. Reset none. -/
  badHeld : List Nat := []
  deriving DecidableEq, Repr

/-- Block PWR and the device power state (R368, R526). -/
structure Pwr where
  /-- R526 PS (18), 2 bits, reset 0. -/
  ps : Nat := 0
  /-- R368 (11): 0 none, 1 ENTER1, 2 ENTER2, 3 FLUSH2, 4 WAKING. Reset 0. -/
  phase : Nat := 0
  /-- R368 (11): the state an entry or a wake leads to. Reset 0. -/
  target : Nat := 0
  /-- R368 (11): the DEV_PSTATE command that waits. Reset none. -/
  cmd : Option Nat := none
  /-- R367 TILES of PS1 (11). Reset 0. -/
  tiles : Nat := 0
  /-- R367 WAKEANY of the DEV_PSTATE that entered PS2 (11). Reset 0. -/
  wakeAny : Bool := false
  /-- R526 EST_W (18), 10 bits, reset 0. -/
  estW : BitVec 10 := 0
  /-- R526 TJ (18), 11 bits, reset 0. -/
  tj : BitVec 11 := 0
  /-- R526 HYST (18), 16 bits, reset 3. -/
  hyst : BitVec 16 := 3
  /-- R526 THR (18), 16 bits, reset 100. -/
  thr : BitVec 16 := 100
  /-- R526 CAP_W (18), 10 bits, reset 620. -/
  capW : BitVec 10 := 620
  /-- R526 AVSERR (18), 1 bit, reset 0. -/
  avsErr : Bool := false
  /-- R526 VOUT (18), 10 bits, reset 0. -/
  vout : BitVec 10 := 0
  /-- R526 VSET (18), 10 bits, reset the fused value (Config.fusedMv, log entry 6). -/
  vset : BitVec 10 := 0
  /-- R519 the last value the rail confirmed (18), 10 bits. -/
  vGood : BitVec 10 := 0
  /-- R519 (18): a change of VSET that the rail has not confirmed. Reset 0. -/
  avsPend : Bool := false
  /-- R523 THERMTRIP_N asserted (18), reset 0. -/
  thermTrip : Bool := false
  /-- R519 (18): Almanac at the write of VSET that the rail has to confirm. Reset 0. -/
  avsAt : DWord := 0
  /-- R522 (18): 2 at or above THR or above CAP_W, 0 below THR - HYST, 1 between. Reset 0. -/
  thrZone : Nat := 0
  /-- R522 (18): Almanac since which that zone holds, or of the last step within it. Reset 0. -/
  thrAt : DWord := 0
  /-- R452 DEVID straps as read at power-on (15), 3 bits. -/
  devid : BitVec 3 := 0
  deriving DecidableEq, Repr

/-- A record of usage (R416). -/
structure MeterRec where
  part : Nat
  gen : BitVec 16
  flags : BitVec 16
  tiles : BitVec 16
  tag : DWord
  almStart : DWord
  almEnd : DWord
  counts : List Nat
  pages : Nat
  recSeq : Nat
  deriving DecidableEq, Repr

/-- A signed batch (R419). -/
structure Batch where
  seq : Nat
  calends : DWord
  bootId : BitVec 128
  ptpOfs : DWord
  recs : List MeterRec
  deriving DecidableEq, Repr

/-- What SPDM keeps between requests (R500). -/
structure Spdm where
  /-- 0 none, 1 version exchanged, 2 capabilities, 3 algorithms negotiated. Reset 0. -/
  phase : Nat := 0
  /-- Whether ML-DSA-65 was selected. Reset 0. -/
  algOk : Bool := false
  /-- The requester's DataTransferSize and MaxSPDMmsgSize. Reset 0. -/
  xfer : Nat := 0
  maxMsg : Nat := 0
  /-- The transcript so far, as a digest (Config.transcript; log entry 73). Reset 0. -/
  transcript : BitVec 512 := 0
  /-- A chunked request: handle, next sequence number, bytes so far. Reset none. -/
  chunkIn : Option (Nat × Nat × List Byte) := none
  /-- A chunked response: handle, next sequence number, bytes left. Reset none. -/
  chunkOut : Option (Nat × Nat × List Byte) := none
  deriving DecidableEq, Repr

/-- Block TRUST. -/
structure Trust where
  /-- R505 TRUST_BOOT.STATE (17), 2 bits, reset 0. -/
  boot : Nat := 0
  /-- R505 SLOT (17), 1 bit, reset 0. -/
  slotB : Bool := false
  /-- R505 FALLBACK (17), 1 bit, reset 0. -/
  fallback : Bool := false
  /-- R505 TRIAL (17), 1 bit, reset 0. -/
  trial : Bool := false
  /-- R495 the rollback count, fuses (17), 7 bits (log entry 6). -/
  svnCnt : Nat := 0
  /-- R505 FAILCODE (17), 8 bits, reset 0. -/
  failCode : BitVec 8 := 0
  /-- R505 VERSION (17), 64 bits, reset 0. -/
  fwVer : DWord := 0
  /-- R488 the boot flash (17), image slots and boot records: bytes by flash offset (log entry 4). -/
  flash : Mem := []
  /-- R505 TRUST_FW_ACT.RESULT (17), 2 bits, reset 0. -/
  actResult : BitVec 2 := 0
  /-- R505 STAGED_SVN (17), 8 bits, reset 0. -/
  stagedSvn : BitVec 8 := 0
  /-- R498 (17): the last FW_VERIFY passed and no FW_STAGE has run since. Reset 0. -/
  verified : Bool := false
  /-- R505 TRUST_KEYLOAD address (17), 64 bits, reset 0. -/
  klAddr : DWord := 0
  /-- R505 TRUST_KEYLOAD_CTL.RESULT (17), 3 bits, reset 0. -/
  klResult : BitVec 3 := 0
  /-- R399, R497 key slots (13, 17): partition p in slot p, 4096 the owner's, 4097 the migration key; none when empty. -/
  keys : SMap (Option (BitVec 256)) := []
  /-- R493 M0-M7 (17), 8 x 512 bits, power-on 0. -/
  meas : SMap (BitVec 512) := []
  /-- R419 BOOT_ID (13), 128 bits, random (log entry 6). -/
  bootId : BitVec 128 := 0
  /-- R505 MBX_STAT.STATE (17), 2 bits, reset 0: 0 IDLE, 1 REQUEST, 2 BUSY, 3 RESPONSE. -/
  mbx : Nat := 0
  /-- R505 OWNER (17), 1 bit, reset 0: 1 the side band. -/
  mbxSide : Bool := false
  /-- R502 Almanac at the side band's last word (17). Reset 0. -/
  mbxAt : DWord := 0
  /-- R505 OVR (17), 1 bit, reset 0. -/
  mbxOvr : Bool := false
  /-- R505 NOWN_CNT (17), 4 bits, reset 0. -/
  mbxNown : BitVec 4 := 0
  /-- R505 MSTATUS (17), 4 bits, reset 0. -/
  mbxStatus : BitVec 4 := 0
  /-- R505 RLEN (17), 17 bits, reset 0. -/
  mbxRlen : Nat := 0
  /-- R505 MBX_CMD.CMD (17), 8 bits, reset 0. -/
  mbxCmd : BitVec 8 := 0
  /-- R505 MBX_LEN.LEN (17), 17 bits, reset 0. -/
  mbxLen : BitVec 17 := 0
  /-- R501 request words written so far (17), oldest first. Reset empty. -/
  mbxIn : List Word := []
  /-- R501 response words not yet read (17), oldest first. Reset empty. -/
  mbxOut : List Word := []
  /-- R418 TRUST_MTR_BASE (13), 64 bits, reset 0. -/
  mtrBase : DWord := 0
  /-- R418 TRUST_MTR_CTL.EN (13), 1 bit, reset 0. -/
  mtrEn : Bool := false
  /-- R418 TRUST_MTR_CTL.LOG (13), 4 bits, reset 0. -/
  mtrLog : BitVec 4 := 0
  /-- R418 TRUST_MTR_P (13), 32 bits, reset 0. -/
  mtrP : Word := 0
  /-- R418 TRUST_MTR_C (13), 32 bits, reset 0. -/
  mtrC : Word := 0
  /-- R418 the signed batches held (13), oldest first; HELD is its length. Reset empty. -/
  batches : List Batch := []
  /-- R419 BATCH_SEQ of the next batch (13). Reset 0. -/
  batchSeq : Nat := 0
  /-- R418 (13): a batch was not formed because 16 were held, so the next one is MERGED. Reset 0. -/
  merged : Bool := false
  /-- R508 records of the intervals that a device reset ended, which the next batch carries (18). Reset empty. -/
  carried : List MeterRec := []
  /-- R500 the SPDM responder (17). -/
  spdm : Spdm := {}
  deriving DecidableEq, Repr

/-! ## HIF: functions, queues, commands -/

/-- A PCIe function's state that the host sets (R339, R364, R365). Function 0 is PF0, n is VF n. -/
structure Func where
  /-- R365 D3hot (11), reset 0. -/
  d3hot : Bool := false
  /-- R365 Bus Master Enable (11), reset 0: the PCI reset value (log entry 6). -/
  bme : Bool := false
  /-- R365 PME_En (11), reset 0. -/
  pmeEn : Bool := false
  /-- R339, R370 Completion Timeout Value of Device Control 2 (11), 4 bits, reset 0: 50 µs to 50 ms. -/
  ctoRange : BitVec 4 := 0
  /-- R339, R370 Completion Timeout Disable of Device Control 2 (11), 1 bit, reset 0. -/
  ctoDisable : Bool := false
  /-- R365 PME_Status (11), reset 0. -/
  pmeStatus : Bool := false
  /-- R364 masked MSI-X vectors (11); all are masked at reset as MSI-X has it (log entry 6). True: unmasked. -/
  unmasked : SMap Bool := []
  /-- R364 Pending Bit Array (11), reset 0. -/
  pba : SMap Bool := []
  /-- R365, R434 messages that wait for D0 with Bus Master Enable (11, 14). Reset none. -/
  heldMsg : SMap Bool := []
  /-- R51 AER Advisory Non-Fatal Errors logged (02), reset 0. -/
  aer : Nat := 0
  deriving DecidableEq, Repr

/-- The places R354 reserves. -/
inductive Place where
  | ring
  | overflow
  deriving DecidableEq, Repr

/-- A completion in a CQ's held list (R360, R365). -/
structure HeldCqe where
  tag : BitVec 16
  status : BitVec 16
  r0 : Word
  r1 : Word
  sq : Nat
  place : Place
  noirq : Bool
  irqnow : Bool
  /-- R358, R365: it is held in the overflow area, so its entry carries HELDF. -/
  heldf : Bool
  /-- R365: it has already counted toward moderation. -/
  counted : Bool
  deriving DecidableEq, Repr

/-- A QTAB record and its queue's machinery (R345 to R365). -/
structure Queue where
  /-- R345 SQEN (11), 1 bit, reset 0. -/
  sqen : Bool := false
  /-- R345 CQEN (11), 1 bit, reset 0. -/
  cqen : Bool := false
  /-- R345 IEN (11), 1 bit, reset 0. -/
  ien : Bool := false
  /-- R345 CQLOG (11), 5 bits, reset 0. -/
  cqlog : BitVec 5 := 0
  /-- R345 SQLOG (11), 5 bits, reset 0. -/
  sqlog : BitVec 5 := 0
  /-- R345 WEIGHT (11), 4 bits, reset 0. -/
  weight : BitVec 4 := 0
  /-- R345 CTX (11), 13 bits, T, reset 0x1FFF. -/
  ctx : Tri (BitVec 13) := Tri.of 0x1FFF
  /-- R345 SLOT (11), 12 bits, T, reset 0. -/
  slot : Tri (BitVec 12) := Tri.of 0
  /-- R345 CQQ (11), 16 bits, reset 0. -/
  cqq : BitVec 16 := 0
  /-- R345 VEC (11), 11 bits, reset 0. -/
  vec : BitVec 11 := 0
  /-- R345 MOD_US (11), 16 bits, reset 0. -/
  modUs : BitVec 16 := 0
  /-- R345 MOD_CNT (11), 16 bits, reset 0. -/
  modCnt : BitVec 16 := 0
  /-- R345 SQB (11), 64 bits, reset 0. -/
  sqb : DWord := 0
  /-- R345 CQB (11), 64 bits, reset 0. -/
  cqb : DWord := 0
  /-- R345 SQP (11), 32 bits, reset 0. -/
  sqp : Word := 0
  /-- R345 SQC (11), 32 bits, reset 0. -/
  sqc : Word := 0
  /-- R345 CQP (11), 32 bits, reset 0. -/
  cqp : Word := 0
  /-- R345 CQC (11), 32 bits, reset 0. -/
  cqc : Word := 0
  /-- R345 CTMO_MS (11), 16 bits, reset 0. -/
  ctmo : BitVec 16 := 0
  /-- R349 FSTOP (11), 1 bit, reset 0. -/
  fstop : Bool := false
  /-- R349 CQ_OVF (11), 1 bit, reset 0. -/
  cqOvf : Bool := false
  /-- R349 FERR (11), 1 bit, reset 0. -/
  ferr : Bool := false
  /-- R349 DBERR (11), 1 bit, reset 0. -/
  dberr : Bool := false
  /-- R353 the push window (11): bytes by window offset 0-255, present where written. Reset empty. -/
  push : SMap (Option Byte) := []
  /-- R353 (11): pushed bytes that stand in for a slot read, by 32 x slot index + byte, until the slot is consumed. Reset
  empty. -/
  pushed : SMap (Option Byte) := []
  /-- R360 the held list (11), oldest first. Reset empty. -/
  held : List HeldCqe := []
  /-- R354 ring slots of this CQ reserved and not yet filled (11). Reset 0. -/
  rsvRing : Nat := 0
  /-- R354 overflow entries reserved for this CQ and not yet filled (11). Reset 0. -/
  rsvOvf : Nat := 0
  /-- R364 pending count (11). Reset 0. -/
  modPend : Nat := 0
  /-- R364 the moderation timer runs (11). Reset 0. -/
  modTimer : Bool := false
  /-- R364 Almanac at the moderation timer's start (11). Reset 0. -/
  modAt : DWord := 0
  /-- R365 the threshold was reached while the function could not send (11). Reset 0. -/
  modReached : Bool := false
  /-- R365 a PME was sent for this CQ since D3hot (11). Reset 0. -/
  pmeSent : Bool := false
  deriving DecidableEq, Repr

/-- Where a command came from: an SQ, or an NVMe/TCP connection with its command identifier. -/
inductive Origin where
  | ring (q : Nat)
  | net (conn cid : Nat)
  deriving DecidableEq, Repr

/-- How far a fetched command is. -/
inductive CmdPhase where
  | fetched
  | checking
  | running
  | waiting (what : Nat)
  deriving DecidableEq, Repr

/-- A command fetched and not yet completed (R355, R371). -/
structure Cmd where
  id : Nat
  origin : Origin
  /-- R350 OPCODE (11). -/
  op : Nat
  /-- R350 the entry's slots, 32 bytes each (11). -/
  bytes : List Byte
  /-- R12 CTX stamped at fetch (01), 13 bits. -/
  ctx : BitVec 13
  /-- R12 GEN stamped at fetch (01), 16 bits. -/
  gen : BitVec 16
  /-- R354 the CQ on which the completion place is reserved, and the place (11). -/
  cq : Nat
  place : Place
  /-- R371 CTMO_MS in force at the fetch (11). -/
  ctmo : BitVec 16
  /-- R356, R371 (11): whether the command has started. -/
  phase : CmdPhase
  /-- R370 Almanac at the fetch (11). -/
  fetchedAt : DWord
  deriving DecidableEq, Repr

/-- Block HIF. -/
structure Hif where
  /-- R345 QTAB (11), 65,536 records. -/
  queues : SMap Queue := []
  /-- R342 COUNT of VF n (11), 12 bits, reset 15, index n. -/
  vfCount : SMap (BitVec 12) := []
  /-- R342 GRANTED of VF n (11), 12 bits, reset 0. -/
  granted : SMap (BitVec 12) := []
  /-- R341 NumVFs (11). Reset 0. -/
  numVfs : Nat := 0
  /-- R341 VF Enable (11). Reset 0. -/
  vfEnable : Bool := false
  /-- R362 HIF_OVF.MIB (11), 7 bits, reset 1. -/
  ovfMib : BitVec 7 := 1
  /-- R340 the functions (11): 0 PF0, n VF n. -/
  funcs : SMap Func := []
  /-- R511 (18): the port is out of reset and trains or is up. Reset 0. -/
  portUp : Bool := false
  /-- R355 commands fetched and not completed (11), oldest first. Reset empty. -/
  cmds : List Cmd := []
  /-- The next command id, the model's own. Reset 0. -/
  nextId : Nat := 0
  /-- R356 the SQ whose turn it is, and the entries left of it (11). Reset: SQ 0 comes next. -/
  turn : Nat × Nat := (65535, 0)
  deriving DecidableEq, Repr

/-! ## Partitions, HBM -/

/-- A PARTTAB record and the partition's page (R393, R421). -/
structure Part where
  /-- R393 EN (13), 1 bit, T, reset 0. -/
  en : Tri Bool := Tri.of false
  /-- R393 STATE (13), 3 bits, reset 0: 0 OFF, 1 RUN, 2 FREEZING, 3 FROZEN, 4 RESETTING. -/
  state : Nat := 0
  /-- R393 FIXSLOT (13), 1 bit, reset 0. -/
  fixslot : Bool := false
  /-- R393 EQX (13), 1 bit, reset 0. -/
  eqx : Bool := false
  /-- R393 KSRC (13), 1 bit, T, reset 0. -/
  ksrc : Tri Bool := Tri.of false
  /-- R393 STW (13), 2 bits, reset 0. -/
  stw : BitVec 2 := 0
  /-- R393 GEN (13), 16 bits, reset 0. -/
  gen : BitVec 16 := 0
  /-- R393 WEIGHT (13), 8 bits, reset 0. -/
  weight : BitVec 8 := 0
  /-- R393 TILES (13), 16 bits, reset 0. -/
  tiles : BitVec 16 := 0
  /-- R393 PAGE_MAX (13), 17 bits, T, reset 0. -/
  pageMax : Tri (BitVec 17) := Tri.of 0
  /-- R393 QMAX (13), 13 bits, T, reset 0. -/
  qmax : Tri (BitVec 13) := Tri.of 0
  /-- R393 WC_MAX (13), 13 bits, T, reset 0. -/
  wcMax : Tri (BitVec 13) := Tri.of 0
  /-- R393 OVF_MIB (13), 7 bits, reset 1. -/
  ovfMib : BitVec 7 := 1
  /-- R393 SLOT_OFS (13), 16 bits, reset 0. -/
  slotOfs : BitVec 16 := 0
  /-- R393 SLOT_LEN (13), 16 bits, reset 0. -/
  slotLen : BitVec 16 := 0
  /-- R393 STALE (13), 32 bits, reset 0. -/
  stale : Word := 0
  /-- R393 TAG (13), 64 bits, reset 0. -/
  tag : DWord := 0
  /-- R415 the seven counters in that table's order (13), 64 bits each, power-on 0. -/
  mtr : SMap DWord := []
  /-- R416 the counters at the last record, with TILE_NS's remainder left in (13). Power-on 0. -/
  mtrPrev : SMap DWord := []
  /-- R416 REC_SEQ of the next record (13). Power-on 0. -/
  recSeq : Nat := 0
  /-- R417 (13): start of the current interval. -/
  almStart : DWord := 0
  /-- R417 (13): out of OFF at some time since the last record. Reset 0. -/
  wasOn : Bool := false
  /-- R416, R417 (13): the record of an interval that ended at the entry to OFF, which the next Calends gives. Reset none. -/
  offRec : Option MeterRec := none
  /-- R410 ALM (13): the Almanac at the entry to FROZEN. -/
  almFrozen : DWord := 0
  /-- R416 RESTORED (13): restored within the interval. Reset 0. -/
  restored : Bool := false
  /-- R421 PV_EVT (13), 4 bits, reset 0. -/
  evt : BitVec 4 := 0
  /-- R421 PV_EVEN.VEC (13), 11 bits, reset 0. -/
  evVec : BitVec 11 := 0
  /-- R421 PV_EVEN.EN (13), 4 bits, reset 0. -/
  evEn : BitVec 4 := 0
  /-- R32 PART_BUSERR (02), 32 bits, reset 0. -/
  buserr : Word := 0
  /-- R32 PART_BUSERR_OFS (02), 32 bits, reset 0. -/
  buserrOfs : Word := 0
  /-- R404 (13): the start of the partition's current fixed slot has been handled. Reset 0. -/
  inSlot : Bool := false
  /-- R405 (13): number of the frame in which FIXSLOT or PART_SLOT was last written, and what stands until it ends. Reset none. -/
  slotHeld : Option (Nat × Bool × Nat × Nat) := none
  /-- R18, R459 (01, 15): a generation increment waits for its report, with the devices whose acknowledgement is open. -/
  genWait : Option (BitVec 8) := none
  /-- R407, R408 (13): the teardown in progress ends in OFF. Reset 0. -/
  toOff : Bool := false
  /-- R408 (13): the command that waits for a reset, release or freeze to end. Reset none. -/
  waiter : Option Nat := none
  /-- R413 (13): the PART_RESTORE that waits for the report of its generation. Reset none. -/
  restorer : Option Nat := none
  /-- R408 PART_FREEZE (13): Almanac at its fetch. -/
  freezeAt : DWord := 0
  deriving DecidableEq, Repr

/-! ## Plans and runs -/

/-- A pipeline record (R62). -/
structure PipeRec where
  opFirst : Nat
  opCount : Nat
  flags : Nat
  deps : List Nat
  morselRows : Nat
  scratchKib : Nat
  deriving DecidableEq, Repr

/-- A materialisation record (R62). -/
structure MatRec where
  kind : Nat
  mflags : Nat
  producer : Nat
  hbmPages : Nat
  spillParam : Nat
  rowBytes : Nat
  deriving DecidableEq, Repr

/-- An op word (R67). -/
structure OpWord where
  op : Nat
  flags : Nat
  ty : Nat
  attr : Nat
  dst : Nat
  a : Nat
  b : Nat
  c : Nat
  imm : Nat
  deriving DecidableEq, Repr

/-- A kernel record with its code (R64). -/
structure KernelRec where
  ofs : Nat
  len : Nat
  entry : Nat
  flags : Nat
  code : List Byte
  deriving DecidableEq, Repr

/-- A parameter descriptor (R66). -/
structure ParamRec where
  ty : Nat
  attr : Nat
  dflags : Nat
  dflt : List Byte
  deriving DecidableEq, Repr

/-- A plan image's tables (R59 to R66, R74). -/
structure Plan where
  /-- The image as loaded (03). -/
  image : List Byte
  arith : Nat
  pipes : List PipeRec
  mats : List MatRec
  ops : List OpWord
  consts : List (List Byte)
  pool : List Byte
  kernels : List KernelRec
  params : List ParamRec
  /-- The column types of each materialisation, from its producer's sink (R74, R118). -/
  cols : List (List (Nat × Nat))
  deriving DecidableEq, Repr

/-- A parameter of a run (R72, R73): none is null. -/
abbrev ParamVal := Option (List Byte)

/-- A ledger entry (R82). -/
structure Ledger where
  /-- 0 UNCLAIMED, 1 CLAIMED, 2 DONE, 3 FAILED. -/
  state : Nat := 0
  /-- 16-bit claim token. -/
  token : BitVec 16 := 0
  /-- 2-bit abandonment count. -/
  count : Nat := 0
  /-- Re-issued after an abandonment (R82, R84). -/
  reissued : Bool := false
  /-- For each LIMIT op word of the pipeline, the rows that passed it in this DONE morsel, each with its positions at the
  LIMIT op words before (R88, R144). -/
  passed : List (List (List Nat)) := []
  /-- The STORE segment of this key is committed (R87). -/
  committed : Bool := false
  /-- The physical tiles whose digests last differed on this morsel (R86). -/
  pair : Option (Nat × Nat) := none
  /-- R83 the token of the morsel's checkpoint record in the run's checkpoint area (03). -/
  ckpt : Option (BitVec 16) := none
  deriving DecidableEq, Repr

/-- A materialisation of a run (R89 to R93, R118): its contents by the morsel that wrote them. -/
structure Mat where
  /-- R89 it is complete (03). -/
  complete : Bool := false
  /-- R91, R116 what has been spilled: hash partitions (bits 31:26 of DZH64 of the key), or whole runs. -/
  spillSet : List Nat := []
  /-- R120 the longer runs that merge passes have made of more than 16 runs. -/
  longRuns : List (List Row) := []
  /-- Rows by producer morsel; for an exchange buffer by R118's order key (log entry 22). -/
  segs : SMap (List Row) := []
  /-- The final rows of an aggregate table or a TOPK run (R89). -/
  final : List Row := []
  /-- MARK flags of a hash table: origins (m * 65536 * 65536 + row) matched by a PROBE (R128). -/
  marks : SMap Bool := []
  /-- Bytes in the spill region (R91). -/
  spilled : Nat := 0
  /-- Devices whose end marker has arrived (R458). -/
  ends : BitVec 8 := 0
  /-- Its last consumer has completed (R90). -/
  freed : Bool := false
  deriving DecidableEq, Repr

/-- A pipeline of a run: its ledger and cursor (R82, R84). -/
structure PipeRun where
  /-- Morsels of the source; none until it can be known (R81). -/
  morsels : Option Nat := none
  /-- Rows of the source (R81). -/
  total : Nat := 0
  /-- R82 the ledger, by morsel (03). -/
  ledger : SMap Ledger := []
  /-- Next unclaimed morsel. -/
  cursor : Nat := 0
  /-- The logical tile that serves a SINGLE pipeline (R84). -/
  server : Option Nat := none
  /-- LIMIT has stopped claiming (R88). -/
  stopped : Bool := false
  /-- R84 every morsel is DONE and the sink is closed (03). -/
  done : Bool := false
  /-- WINDOW state after the last DONE morsel (R137), by op index: the rows of the current partition so far. -/
  window : SMap (List Row) := []
  /-- Rows held for the pipeline's end, by morsel: a STORE's segments (R148) and what a LIMIT may still cut (R144). -/
  segs : SMap (Option (List Row)) := []
  /-- R87, R148 a STORE's segments staged in the log, by morsel, the manifest after the last: first block in the staging volume, bytes,
  rows (03; log entry 91). -/
  staged : SMap (Nat × Nat × Nat) := []
  /-- R87 the STORE's segments are placed (03). -/
  placed : Bool := false
  deriving DecidableEq, Repr

/-- A run in progress (R77 to R95). -/
structure Run where
  id : Nat
  cmd : Nat
  ctx : BitVec 13
  gen : BitVec 16
  handle : Nat
  params : List ParamVal
  timeoutUs : Nat
  pipes : SMap PipeRun
  mats : SMap Mat
  /-- Pages reserved at binding (R79). -/
  pages : Nat
  /-- Morsel runs abandoned and re-issued (R95), 32 bits saturating. -/
  reruns : Word
  /-- A materialisation was already repaired once (R92). -/
  repaired : Bool
  /-- Peer bindings and EXKEYs the plan exchanges with (R457). -/
  binds : List (Nat × Word)
  /-- Claiming paused by Solstice (R94). -/
  paused : Bool
  /-- ASTORE tables named at binding (R78, R232). -/
  tables : List Nat
  /-- R22, R463 its writes sent to the partner, by the ids that are acknowledged (15). -/
  mirrors : List Nat := []
  deriving DecidableEq, Repr

/-- The rows of a morsel as the op words leave them. A row's values are slots 0 to 63, then masks S0 to S15, then whether it
is active, then its positions at the LIMIT op words passed. -/
structure Eval where
  /-- R85 the rows (03). -/
  rows : List Row
  /-- Encoded slots that do not decode, with the status (R121). -/
  errs : List (Nat × Nat)
  /-- WINDOW state by op index (R137). -/
  win : SMap (List Row)
  /-- Rows that passed each LIMIT (R144). -/
  lims : List (List (List Nat))
  /-- Matched build rows, by materialisation and origin (R128). -/
  marks : List (Nat × Nat)
  /-- Bank-searches made and not yet counted (R131). -/
  searches : Nat
  deriving DecidableEq, Repr

/-- What a morsel in flight has computed so far. -/
inductive Work where
  /-- The op words before index `next` are evaluated; a kernel runs at `next`. -/
  | kernel (next : Nat) (e : Eval)
  /-- Every op word before the sink is evaluated. -/
  | rows (e : Eval)
  /-- The morsel ends its run: status, result word 0, bank-searches made and not yet counted (R131). -/
  | fails (status : BitVec 16) (r0 : Word) (searches : Nat)
  deriving DecidableEq, Repr

/-- A morsel in flight on a tile (R85). -/
structure Flight where
  run : Nat
  pipe : Nat
  m : Nat
  token : BitVec 16
  ctx : BitVec 13
  /-- Paired under Equinox (R86, R479). -/
  paired : Bool
  /-- R479 the physical tile that runs it with this one as digest partner; none where it runs alone. -/
  partner : Option Nat
  /-- The Almanac at the claim (R403, R415). -/
  since : DWord
  work : Work
  /-- R82 abandoned while the completion report of the tile's other morsel falls in the same SCLK: it keeps its place until that
  report is handled. Reset 0. -/
  gone : Bool := false
  deriving DecidableEq, Repr

/-! ## Tiles and column processors -/

/-- A line of a CP's data cache (R208): its first address, its 128 bytes, dirty, locked. -/
structure CacheLine where
  addr : Nat
  data : List Byte
  dirty : Bool
  locked : Bool
  deriving DecidableEq, Repr

/-- A range operation queued on the tile's range engine (R213). -/
structure RangeOp where
  cp : Nat
  clean : Bool
  inval : Bool
  inclLocked : Bool
  start : Nat
  len : Nat
  deriving DecidableEq, Repr

/-- What a kernel run gives a CP besides its registers (R194, R200). -/
structure KernelEnv where
  /-- CODE_LEN of the kernel (R200). -/
  codeLen : Nat := 0
  /-- The kernel's code (R200). -/
  code : List Byte := []
  /-- Bytes of the morsel's scratch allocation (R194). -/
  scratch : Nat := 0
  /-- Address ranges (first, length) the CP may read, besides its private area (R194). -/
  readable : List (Nat × Nat) := []
  /-- Address ranges (first, length) the CP may write (R194). -/
  writable : List (Nat × Nat) := []
  /-- The plan's constant pool section (R194). -/
  pool : List Byte := []
  /-- WDOG of KFLAGS (R205). -/
  wdog : Nat := 0
  deriving DecidableEq, Repr

/-- A column processor (R178 to R220). -/
structure Cp where
  /-- R178 G0-G31 (06), 32 x 64 bits (R201: 0 at kernel entry; log entry 6). -/
  g : SMap DWord := []
  /-- R178 V0-V31 (06), 32 x VLEN bits (log entry 6). -/
  v : SMap (BitVec 2048) := []
  /-- R178 P0-P15 (06), 16 x VLEN/8 bits (log entry 6). -/
  p : SMap (BitVec 256) := []
  /-- R178 PC (06), 16 bits. -/
  pc : BitVec 16 := 0
  /-- R179 VL (06), reset 0. -/
  vl : Nat := 0
  /-- R179 VTYPE (06): SEW code, reset 0. -/
  sew : BitVec 2 := 0
  /-- R179 VTYPE (06): group code, reset 0. -/
  grp : BitVec 2 := 0
  /-- R179 RIX (06), 16 bits, reset 0. -/
  rix : BitVec 16 := 0
  /-- R179 KSTAT (06), 8 bits, reset 0. -/
  kstat : BitVec 8 := 0
  /-- R179 RNGST 15:0 (06), 16 bits, reset 0. -/
  rngSkipped : BitVec 16 := 0
  /-- R217 RUN (06), reset 0. -/
  run : Bool := false
  /-- R203 the CP has executed HALT (06). Reset 0. -/
  halted : Bool := false
  /-- R197 (06): a staging miss waits for this 64 KiB window of the constant pool. Reset none. -/
  staging : Option Nat := none
  /-- R200 (06): what the kernel run gives the CP. -/
  env : KernelEnv := {}
  /-- R216 CEN (06), reset 1. -/
  cen : Bool := true
  /-- R215 (06): a write of CEN = 0 waits for a range operation. Reset 0. -/
  flushWait : Bool := false
  /-- R215 (06): a write of CEN = 1 waits for the flush. Reset 0. -/
  enableWait : Bool := false
  /-- R208 the cache (06), most recently used line first. Reset empty (R209). -/
  cache : List CacheLine := []
  /-- R218 RNG_SKIP (06), 16 bits, reset 0. -/
  rngSkip : BitVec 16 := 0
  /-- R219 VALID, OVF, CODE (06), reset 0. -/
  faultValid : Bool := false
  faultOvf : Bool := false
  faultCode : BitVec 16 := 0
  /-- R220 PC, ADDR, RIX (06), reset 0. -/
  faultPc : BitVec 16 := 0
  faultAddr : Word := 0
  faultRix : BitVec 16 := 0
  deriving DecidableEq, Repr

/-- The kernel running on a tile (R203). -/
structure KernelRun where
  /-- Index of the morsel in flight it works for. -/
  flight : Nat
  /-- Index of the op word. -/
  opIx : Nat
  /-- Rows of the batch in all, and batches that wait (R130). -/
  rows : List Row
  later : List (List Row)
  /-- Rows that earlier batches passed. -/
  done : List Row
  /-- The DST column's base addresses in scratch: data, validity, offsets, per CP range (first row, rows). -/
  ranges : List (Nat × Nat × Nat × Nat × Nat × Nat)
  /-- SEL bitmap address per CP. -/
  sel : List Nat
  deriving DecidableEq, Repr

/-- A physical tile (R96 to R100, R402). -/
structure Tile where
  /-- R100 NOCLAIM (03), reset 0. -/
  noclaim : Bool := false
  /-- R474 NOCLAIM was set by VIGIL and not by a write (16). Reset 0. -/
  faultClaim : Bool := false
  /-- R94, R405 (03): drains before it leaves a share, for Solstice or for a swap. Reset 0. -/
  drain : Bool := false
  /-- R368 (11): gated by PS1, PS2, the freeze or THERMTRIP. Reset 0. -/
  gated : Bool := false
  /-- R96 CTX of the current owner (03), 13 bits, reset 0. -/
  ctx : BitVec 13 := 0
  /-- R85 morsels in flight (03), oldest first, at most 2. Reset empty. -/
  flights : List Flight := []
  /-- R415 (13): the Almanac up to which TILE_NS has counted this tile's time. -/
  acct : DWord := 0
  /-- R98 DONE (03), 64 bits, reset 0. -/
  doneCnt : DWord := 0
  /-- R99 ABN_CNT (03), 16 bits, reset 0. -/
  abn : BitVec 16 := 0
  /-- R402 scratch bytes of the lines that carry the current owner's tag (13). -/
  scratch : Mem := []
  /-- R16, R402 scratch bytes of the lines that carry the tag of another context, by context (01, 13). Reset none. -/
  foreign : SMap Mem := []
  /-- R194 64 KiB windows of the constant pool staged in scratch (06). -/
  staged : List Nat := []
  /-- R213 the range engine's queue (06), oldest first. Reset empty. -/
  ranges : List RangeOp := []
  /-- R203 the kernel that runs (06). Reset none. -/
  kernel : Option KernelRun := none
  deriving DecidableEq, Repr

/-! ## ASTORE and CMP -/

/-- An ASTORE unit: DATA and MASK (R222). -/
structure AUnit where
  data : DWord
  mask : DWord
  deriving DecidableEq, Repr

/-- An ASTORE_BANK record (R227). -/
structure Bank where
  /-- R227 CLEARING (07), reset 0. -/
  clearing : Bool := false
  /-- R227 INUSE (07), reset 0. -/
  inuse : Bool := false
  /-- R227 FAULT (07), reset 0. -/
  fault : Bool := false
  /-- R227 OWNER (07), 13 bits, T, reset 0x1FFF. -/
  owner : Tri (BitVec 13) := Tri.of 0x1FFF
  deriving DecidableEq, Repr

/-- An ASTORE table (R229, R236). -/
structure ATable where
  /-- R229 ENABLE (07), reset 0. -/
  enable : Bool := false
  /-- R229 FAULT (07), reset 0. -/
  fault : Bool := false
  /-- R229 RSP (07), reset 0. -/
  rsp : Bool := false
  /-- R229 CTX (07), 13 bits, reset 0. -/
  ctx : BitVec 13 := 0
  /-- R229 WCODE (07), 2 bits, reset 0. -/
  wcode : BitVec 2 := 0
  /-- R229 INTERVAL (07), 9 bits, reset 0. -/
  interval : BitVec 9 := 0
  /-- R229 KATTR (07), 8 bits, reset 0. -/
  kattr : BitVec 8 := 0
  /-- R229 KEYTYPE (07), 8 bits, reset 0. -/
  keytype : BitVec 8 := 0
  /-- R229 BANKS (07), 32 bits, reset 0. -/
  banks : Word := 0
  /-- R236 (07): the interval a running RESPREAD lays out, the position writes it has not made yet, in order, and its
  command. Reset none. -/
  rspInterval : BitVec 9 := 0
  rspWrites : List (Nat × List AUnit) := []
  rspCmd : Option Nat := none
  /-- R244 (07): AST_DESTROY waits for the clear of its banks. Reset none. -/
  destroyCmd : Option Nat := none
  deriving DecidableEq, Repr

/-- Block ASTORE. -/
structure Astore where
  /-- R227 the 32 logical banks (07). -/
  banks : SMap Bank := []
  /-- R227 PHYS of logical bank b (07), 6 bits, reset b: held as the difference from b modulo 64. -/
  phys : SMap (BitVec 6) := []
  /-- R229 the 64 tables (07). -/
  tables : SMap ATable := []
  /-- R222 units, by physical bank x 65,536 + unit (07); an unlisted unit is the hole pattern of R228 (log entry 6). -/
  units : SMap AUnit := []
  /-- R240 the shadow of the units (07), same index. -/
  shadow : SMap AUnit := []
  /-- R240 units whose parity over DATA is bad, and those whose parity over MASK is bad (07): set from outside (R242). -/
  badParity : SMap Bool := []
  badMask : SMap Bool := []
  /-- R242 shadow words that are uncorrectable (07): set from outside. -/
  badShadow : SMap Bool := []
  /-- R238 positions pending, by the same index (07). -/
  pending : SMap Bool := []
  /-- R245 SWEEPS (07), 11 bits, reset 0. -/
  sweeps : BitVec 11 := 0
  /-- R245 POS (07), 21 bits, reset 0. -/
  pos : BitVec 21 := 0
  /-- R245 CORR_CNT, UNCORR_CNT, LAST_BANK (07), reset 0. -/
  corr : BitVec 8 := 0
  uncorr : BitVec 8 := 0
  lastBank : BitVec 6 := 0
  /-- R245 SRCH (07), 64 bits, reset 0. -/
  srch : DWord := 0
  deriving DecidableEq, Repr

/-- A CMP job (R246): a command, a COMPRESS body, a DEFL data part or a Parquet page. -/
structure Job where
  /-- Its command's id; a morsel's job has a number of its own. -/
  id : Nat
  /-- R247 the requester class: 0 the storage source path, 1 the tiles, 2 the command engine. -/
  cls : Nat
  /-- The morsel it belongs to: run, pipeline, m. -/
  morsel : Option (Nat × Nat × Nat)
  /-- The slot whose body a tile's job encodes (R259). -/
  slot : Nat
  /-- The engine it runs on; none while it waits. -/
  engine : Option Nat
  /-- It has faulted once (R256). -/
  retried : Bool
  deriving DecidableEq, Repr

/-- Block CMP. -/
structure Cmp where
  /-- R261 STOR_MIN (08), 7 bits, reset 48. -/
  storMin : BitVec 7 := 48
  /-- R261 VFY_CNT (08), 8 bits, reset 0. -/
  vfyCnt : BitVec 8 := 0
  /-- R261 LAST_ENG (08), 4 bits, reset 0. -/
  lastEng : BitVec 4 := 0
  /-- R261 engines out of service, or under test (08); reset none. -/
  outSvc : SMap Bool := []
  /-- R247 the jobs, oldest first (08). Reset empty. -/
  jobs : List Job := []
  /-- R247 the class that was granted a stream last (08). Reset 2: the storage source path is next (log entry 140). -/
  turn : Nat := 2
  deriving DecidableEq, Repr

/-! ## ARC: members, arrays, volumes -/

/-- A label as stored on a member (R268). -/
structure Label where
  arrayId : BitVec 128
  seq : Nat
  array : Nat
  k : Nat
  m : Nat
  pos : Nat
  vault : Nat
  s : Nat
  state : Nat
  /-- Positions marked failed, bit p. -/
  failed : BitVec 36
  deriving DecidableEq, Repr

/-- A leaf of a volume's map (R276, R277): the first VLBA it serves, whether the map cache holds it, whether it is dirty,
and when it was last used. -/
structure Leaf where
  first : Nat
  resident : Bool
  dirty : Bool
  used : Nat
  /-- R276 its system page; none until it is first written. -/
  page : Option Nat := none
  deriving DecidableEq, Repr

/-- A block placed in a stripe (R273): the volume block it is, the SEQ of the write that produced it, the cache block or the ABN it
comes from, the CTX and GEN it carries (R13), its bytes. -/
structure SBlk where
  vol : Nat
  lba : Nat
  seq : Nat
  from_ : Nat
  ctx : BitVec 13
  gen : BitVec 16
  data : List Byte
  deriving DecidableEq, Repr

/-- A stripe slot that is not FREE (R273, R289). -/
structure Stripe where
  /-- 0 FREE, 1 OPEN, 2 WRITING, 3 SEALED, 4 VICTIM. -/
  state : Nat := 0
  /-- R273 STRIPE_GEN (09). -/
  gen : Nat := 0
  /-- 0 HOST, 1 HARVEST, 2 SYSTEM. -/
  stream : Nat := 0
  /-- R273 blocks placed, in order (09). -/
  blocks : List SBlk := []
  /-- R289 live count (09). -/
  live : Nat := 0
  /-- R289 Almanac of its STRIPE_COMMIT; while it is OPEN, of its first block (R273) (09). -/
  at_ : DWord := 0
  /-- R316 rebuilt mark (10). -/
  rebuilt : Bool := false
  /-- R313 block offsets given up (10). -/
  lostOfs : List Nat := []
  deriving DecidableEq, Repr

/-- What a member keeps of its array that no record of the spec holds: the settings, the volumes' records (number, SHARED, OWNER and
VBLK), and the checkpoint that covered everything at a freeze (log entry 44). -/
structure SysRec where
  /-- R276, R295 the settings as last set (09). -/
  rsv : Nat
  cacheU : BitVec 5
  mirror : Bool
  scanchk : Bool
  hvThresh : BitVec 8
  hvRate : BitVec 8
  closeUs : Nat
  spares : DWord
  /-- R276, R299 the volumes' records (09). -/
  vols : List (Nat × Bool × BitVec 13 × Nat)
  /-- R330 the CKPT_SEQ that left nothing to vault at the last freeze (10). -/
  covered : Option Nat := none
  /-- R333 SEQ of the oldest record that the journal held (10). -/
  journalFrom : Nat := 1
  /-- R313 the block offsets given up, by stripe slot (10). -/
  lostOfs : List (Nat × List Nat) := []
  /-- R321, R324 of a reshape (10): old and new position of every member of both sets. -/
  pairs : List (Nat × Nat) := []
  deriving DecidableEq, Repr

/-- A block in the write cache (R281, R282): its volume block, the SEQ of its WRITE record, its bytes. -/
structure CBlk where
  vol : Nat
  lba : Nat
  seq : Nat
  ctx : BitVec 13
  gen : BitVec 16 := 0
  data : List Byte
  /-- The stripe it has been placed in. -/
  placed : Option Nat
  /-- R284 that stripe is committed. -/
  committed : Bool
  /-- R284 a later record covers its block. -/
  superseded : Bool
  deriving DecidableEq, Repr

/-- A progress record (R326). -/
structure Progress where
  pseq : Nat
  ckptSeq : Nat
  rbCur : Nat
  rbPos : Option Nat
  rsPhase : Nat
  kOld : Nat
  mOld : Nat
  sOld : Nat
  bd : Nat
  oldPos : Option Nat
  newPos : Option Nat
  moved : Nat
  deriving DecidableEq, Repr

/-- A vault header (R326). -/
structure VaultHdr where
  arrayId : BitVec 128
  ckptSeq : Nat
  freezeSeq : Nat
  alm : DWord
  /-- Image blocks. -/
  x : Nat
  cblk : Nat
  jtail : Nat
  ns : Nat
  vidx : Nat
  deriving DecidableEq, Repr

/-- A member drive (R263 to R268, R307), with what stands on its medium. -/
structure Member where
  /-- R307 STATE (09), 4 bits, reset 0: 0 NONE, 1 ATTACHED, 2 SPARE, 3 ACTIVE, 4 FAILED, 5 REBUILD. -/
  state : Nat := 0
  /-- R307 ARRAY, POS (09), 6 bits each, reset 0. -/
  array : Nat := 0
  pos : Nat := 0
  /-- R307 LBAS (09), 4 bits, reset 0. -/
  lbas : BitVec 4 := 0
  /-- R307 MWRATE (09), 12 bits, reset 0. -/
  mwrate : BitVec 12 := 0
  /-- R307 DP (09), 3 bits, reset 0. -/
  dp : BitVec 3 := 0
  /-- R307 RID (09), 16 bits, reset 0. -/
  rid : BitVec 16 := 0
  /-- R307 CAP (09), 64 bits, reset 0. -/
  cap : DWord := 0
  /-- R296 (09): its namespace keeps R264. -/
  nsOk : Bool := false
  /-- R305 the link of its drive port it is reached over (09), 2 bits (log entry 53). -/
  link : Nat := 0
  /-- R264 its I/O queue pairs, each with a vector of MSI-X (09); the admin queue pair stands with them. -/
  ioQueues : Nat := 0
  /-- R267 the medium (09): 4 KiB blocks by block number from offset 0; an unlisted block reads as zeros (log entry 4). -/
  medium : SMap (List Byte) := []
  /-- R312 blocks that return a media error (10), by the same number: the medium's own. -/
  bad : SMap Bool := []
  /-- R276, R295 what it keeps that no record of the spec holds (09; log entry 44). -/
  sys : Option SysRec := none
  deriving DecidableEq, Repr

/-- The report of the last replay (R334). -/
structure Report where
  outcome : Nat
  alm : DWord
  freezeSeq : Nat
  ckptSeq : Nat
  x : Nat
  fromCopy1 : Nat
  blocksLost : Nat
  writesLost : Nat
  lost : Nat
  sealed : BitVec 64
  /-- The missing SEQ ranges, first and last. -/
  missing : List (Nat × Nat)
  deriving DecidableEq, Repr

/-- The rebuild of an array (R315 to R319, R336). -/
structure Rebuild where
  /-- R336 RBSTATE (10): 0 IDLE, 1 WAITING, 2 RUNNING, 3 PAUSED, reset 0. -/
  state : Nat := 0
  /-- R336 RB_POS, RB_MEMBER (10), reset 0. -/
  pos : Nat := 0
  member : Nat := 0
  /-- R336 CUR (10), 32 bits, reset 0. -/
  cur : Nat := 0
  /-- R336 RB_RATE (10), 12 bits: default 20 (R317), reads 0 at reset. -/
  rate : BitVec 12 := 0
  /-- The failed position that is rebuilt (10), by the name of `failedName`. -/
  old : Nat := 0
  /-- R319 failed positions that wait (10), named so, the first failed first. -/
  waiting : List Nat := []
  /-- R318 bytes written to the target since the last progress record (10). -/
  since : Nat := 0
  /-- R336 SKIP (10), 64 bits, reset 0. -/
  skip : DWord := 0
  deriving DecidableEq, Repr

/-- The reshape of an array (R321 to R325, R336). -/
structure Reshape where
  /-- R336 RSSTATE (10): 0 NONE, 1 MOVING, 2 PAUSED, 3 FINISHING, reset 0. -/
  state : Nat := 0
  /-- R321 the new K, M, positions and S (10). Reset 0. -/
  k : Nat := 0
  m : Nat := 0
  pos : List Nat := []
  s : Nat := 0
  /-- R321, R324 old and new position of every member of both sets (10). Reset none. -/
  pairs : List (Nat × Nat) := []
  /-- R336 B, B_D (10), reset 0. -/
  b : Nat := 0
  bd : Nat := 0
  /-- R336 RS_RATE (10), 12 bits, reset 0. -/
  rate : BitVec 12 := 0
  /-- R323 bytes moved since the last progress record, and in all (10). -/
  since : Nat := 0
  moved : Nat := 0
  deriving DecidableEq, Repr

/-- An array (R298, R306). -/
structure Arr where
  /-- R306 STATE (09), 4 bits, reset 0. -/
  state : Nat := 0
  /-- R298 the state before CHECKING (09). -/
  prev : Nat := 0
  /-- R306 RINC (09), reset 0. -/
  rinc : Bool := false
  /-- R306 MIRROR (09), reset 0. -/
  mirror : Bool := false
  /-- R306 FAULT (09), reset 0. -/
  fault : Bool := false
  /-- R295 SCANCHK (09), reset 0. -/
  scanchk : Bool := false
  /-- R306 ARC_ARR_GEOM (09), 32 bits, T, reset 0. -/
  geom : Tri Word := Tri.of 0
  /-- R306 ARC_ARR_POS0-8 (09), 9 x 32 bits, T, reset 0. -/
  pos : SMap (Tri Word) := []
  /-- R306 CACHE (09), 5 bits, reset 0. -/
  cacheU : BitVec 5 := 0
  /-- R306 HV_THRESH, HV_RATE (09), 8 bits, reset 0. -/
  hvThresh : BitVec 8 := 0
  hvRate : BitVec 8 := 0
  /-- R295 CLOSE_US (09). -/
  closeUs : Nat := 0
  /-- R295 SPARES (09), 64 bits. -/
  spares : DWord := 0
  /-- R306 S (09), 32 bits, reset 0. -/
  s : Nat := 0
  /-- R306 V (09), 16 bits, reset 0. -/
  vault : BitVec 16 := 0
  /-- R268 ARRAY_ID (09), 128 bits. -/
  arrayId : BitVec 128 := 0
  /-- R268 LABEL_SEQ (09). -/
  labelSeq : Nat := 0
  /-- R286 the journal (09): records since the last checkpoint freed room, oldest first. -/
  journal : List JRec := []
  /-- R286 SEQ of the next record (09). -/
  nextSeq : Nat := 1
  /-- R286 byte offset of the next record in the ring (09). -/
  jpos : Nat := 0
  /-- R281 write-cache blocks by cache block index (09). -/
  cache : SMap (Option CBlk) := []
  /-- R282 cache blocks reserved and not yet filled, by command (09). -/
  reserved : List (Nat × Nat) := []
  /-- R273 stripes that are not FREE (09). -/
  stripes : SMap Stripe := []
  /-- R276, R280 directory pages changed since they were last written (09). -/
  dirDirty : List Nat := []
  /-- R280 CKPT_SEQ (09), and the Almanac of the last checkpoint. -/
  ckptSeq : Nat := 0
  ckptAt : DWord := 0
  /-- R326 PSEQ of the last progress record (10). -/
  pseq : Nat := 0
  /-- R312, R313 ABNs of blocks that wait to be relocated, with whether R312 counts them (10). -/
  relocs : List (Nat × Bool) := []
  /-- R315 the rebuild (10). -/
  rebuild : Rebuild := {}
  /-- R321 the reshape (10). -/
  reshape : Reshape := {}
  /-- R336 LOST_CNT, RELOC_CNT (10), 16 bits, reset 0. -/
  lostCnt : BitVec 16 := 0
  relocCnt : BitVec 16 := 0
  /-- R335 (10): every usable stream is sealed. Reset 0. -/
  isSealed : Bool := false
  /-- R327 FREEZE_SEQ latched at the freeze (10). -/
  freezeSeq : Nat := 0
  /-- R329 the members in service at the freeze, by VIDX, and those whose seal is written (10). Reset none. -/
  streams : List Nat := []
  seals : List Nat := []
  /-- R334 (10): report of the last replay. Reset none (0x0581). -/
  report : Option Report := none
  /-- R297 (09): the ARR_STOP, ARR_CREATE or ARR_IMPORT that waits. Reset none. -/
  cmd : Option Nat := none
  /-- R302 (09): the writes that reach ARC in the FCLK of an ARR_STOP: 0 and the id of a command, or 1 + connection and CID. Reset none. -/
  late : List (Nat × Nat) := []
  deriving DecidableEq, Repr

/-- A volume (R299, R308, R275). -/
structure Vol where
  /-- R308 STATE (09), 2 bits, reset 0: 0 NONE, 1 ENABLED, 2 DESTROYING. -/
  state : Nat := 0
  /-- R299 the array, SHARED, OWNER and VBLK (09), reset 0. -/
  array : Nat := 0
  shared : Bool := false
  owner : BitVec 13 := 0
  vblk : Nat := 0
  /-- R308 EXP (09), reset 0, with the NSID. -/
  exported : Option Nat := none
  /-- R379 unexport waits for commands in flight. -/
  unexporting : Option Nat := none
  /-- R275 the runs of the map, by rising VLBA; a run of zeros or LOST longer than 64 blocks stands for as many entries (09). -/
  map : List Extent := []
  /-- R276, R277, R279 the leaves of the map, by rising VLBA (09). -/
  leaves : List Leaf := []
  /-- R276, R277 the system pages of its root pages, and whether they have changed since they were written (09). -/
  roots : List Nat := []
  rootDirty : Bool := false
  /-- R299 VOL_DESTROY or VOL_OWNER that waits (09). -/
  waiter : Option Nat := none
  deriving DecidableEq, Repr

/-- Block ARC. -/
structure Arc where
  /-- R303 GIB (09), 7 bits, reset 16. -/
  mapc : BitVec 7 := 16
  /-- R304 DONE, REFUSED, ARRAY (09), reset 0. -/
  destroyDone : Bool := false
  destroyRefused : Bool := false
  destroyArr : BitVec 6 := 0
  /-- R305 BIF (09), 2 bits, reset 2, by port; held as the difference from 2 modulo 4. -/
  bifur : SMap (BitVec 2) := []
  /-- R305 UP (09), 4 bits, reset 0. -/
  up : SMap (BitVec 4) := []
  /-- R309 MBR_TMO (09), 16 bits, reset 5,000. -/
  mbrTmo : BitVec 16 := 5000
  /-- R335 PFSTATE (10), 2 bits, reset 0: 0 NORMAL, 1 FLUSHING, 2 VAULTED. -/
  pf : Nat := 0
  /-- R335 FLUSH_MS (10), 8 bits, reset 0: the Almanac at the freeze, from which it is read. -/
  freezeAlm : DWord := 0
  /-- R307 member drives 0-63 (09). -/
  members : SMap Member := []
  /-- R306 arrays 0-63 (09). -/
  arrays : SMap Arr := []
  /-- R308 volumes (09). -/
  vols : SMap Vol := []
  /-- R279 the uses of map leaves counted, for the least recently used (09), the model's own. Reset 0. -/
  useCtr : Nat := 0
  /-- R246, R481 ERS engines out of service (16). -/
  ersOut : SMap Bool := []
  deriving DecidableEq, Repr

/-! ## NET and PLK -/

/-- A port (R391). -/
structure NetPort where
  /-- R391 LINK (12), reset 0. -/
  link : Bool := false
  /-- R391 LANES (12), 4 bits, reset 0. -/
  lanes : BitVec 4 := 0
  /-- R391 JUMBO (12), reset 0. -/
  jumbo : Bool := false
  /-- R391 MEDIA (12), 2 bits, reset 0. -/
  media : BitVec 2 := 0
  /-- R391 MODE (12), 2 bits, reset 0. -/
  mode : BitVec 2 := 0
  /-- R391 UNCORR (12), 32 bits, reset 0. -/
  uncorr : Word := 0
  /-- R377 segments discarded for their checksum (12). Reset 0. -/
  badSegs : Nat := 0
  deriving DecidableEq, Repr

/-- An interface record (R392). -/
structure NetIf where
  /-- R392 NET_IF_CTL (12), 32 bits, reset 0. -/
  ctl : Word := 0
  /-- R392 NET_IF_ADDR0-3 (12), reset 0. -/
  addr : SMap Word := []
  deriving DecidableEq, Repr

/-- A partition's NVMe subsystem (R378, R379). -/
structure Subsys where
  /-- R378 the partition has a subsystem (12), reset 0. -/
  en : Bool := false
  /-- R381 MAXCONN (12), reset 0. -/
  maxConn : Nat := 0
  /-- R378 its NQN and the host NQNs it lets in (12), reset empty. -/
  nqn : List Byte := []
  hosts : List (List Byte) := []
  deriving DecidableEq, Repr

/-- An NVMe controller (R381, R383). -/
structure Ctrl where
  /-- R383 the controller exists (12). -/
  live : Bool := false
  /-- R383 its partition and host NQN (12). -/
  part : Nat := 0
  hostnqn : List Byte := []
  /-- KATO of the Connect, in ms (R387). -/
  kato : Nat := 0
  /-- R387 Almanac at the last command on its admin queue (12). -/
  heardAt : DWord := 0
  /-- Property CC (R385). -/
  cc : Word := 0
  deriving DecidableEq, Repr

/-- A write in progress over NVMe/TCP (R384): the pieces recorded, the data so far. -/
structure NetWrite where
  cid : Nat
  vol : Nat
  lba : Nat
  nblk : Nat
  /-- The command it is (11). -/
  cmd : Nat
  /-- The data received: offset from the command's first byte, bytes. -/
  parts : List (Nat × List Byte)
  /-- Bytes for which an R2T has been sent. -/
  r2t : Nat
  /-- Pieces reserved and pieces recorded. -/
  reserved : Nat
  recorded : Nat
  /-- A data digest error stopped recording (R387). -/
  bad : Bool
  deriving DecidableEq, Repr

/-- A TCP connection: one NVMe queue (R381, R382). -/
structure Conn where
  /-- 0 free, 1 TCP open, 2 ICReq done, 3 connected. -/
  state : Nat := 0
  /-- R381 the port, interface, partition, queue and controller it serves (12). -/
  port : Nat := 0
  ifc : Nat := 0
  part : Nat := 0
  qid : Nat := 0
  cntl : Nat := 0
  /-- R376 the link-layer address every segment of it goes out to, on its port and interface (12). -/
  mac : BitVec 48 := 0
  /-- R377 the TCP options agreed on (12). -/
  opts : TcpOpts := {}
  /-- R383 entries of its queue, as the zero-based SQSIZE of its Connect (12). -/
  sqsize : Nat := 0
  /-- R382 the digests agreed on (12). -/
  hdgst : Bool := false
  ddgst : Bool := false
  /-- HPDA of the ICReq (R382). -/
  hpda : Nat := 0
  /-- R382, R384 MAXR2T of the ICReq (12). -/
  maxr2t : Nat := 0
  /-- R384 the writes whose data is coming (12). -/
  writes : List NetWrite := []
  deriving DecidableEq, Repr

/-- A timestamp (R391). -/
structure NetTs where
  port : Nat
  tx : Bool
  msgType : BitVec 4
  seqId : BitVec 16
  ts : DWord
  deriving DecidableEq, Repr

/-- Block NET. -/
structure Net where
  /-- R391 the two ports (12). -/
  ports : SMap NetPort := []
  /-- R392 interface i of port p at 8 p + i (12). -/
  ifs : SMap NetIf := []
  /-- R391 NET_PTP_OFS (12), 64 bits, reset 0, and its low word as last written. -/
  ptpOfs : DWord := 0
  ptpLo : Word := 0
  /-- R391 the timestamp FIFO (12), oldest first, at most 64. Reset empty. -/
  fifo : List NetTs := []
  /-- R378 subsystem of partition p (12). -/
  subsys : SMap Subsys := []
  /-- R381, R383 the controllers by CNTLID (12). -/
  ctrls : SMap Ctrl := []
  /-- R381 the connections (12). -/
  conns : SMap Conn := []
  /-- R381 the number of the next connection, the model's own. Reset 0. -/
  nextConn : Nat := 0
  /-- R383 the next CNTLID (12). Reset 1. -/
  nextCntl : Nat := 1
  deriving DecidableEq, Repr

/-- A peer link (R451, R467). -/
structure Link where
  /-- R467 STATE (15), 3 bits, reset 0: 0 DOWN, 1 TRAINING, 2 UP, 3 UP7, 4 FAILED. -/
  state : Nat := 0
  /-- R467 CONFLICT (15), reset 0. -/
  conflict : Bool := false
  /-- R467 PEER (15), 3 bits, reset 0. -/
  peer : BitVec 3 := 0
  /-- R467 INSVC (15), 8 bits, reset 0. -/
  insvc : BitVec 8 := 0
  /-- R467 OFFL (15), 8 bits, reset 0. -/
  offl : BitVec 8 := 0
  /-- R451 training attempts that failed (15). Reset 0. -/
  tries : Nat := 0
  /-- R451 (15): Almanac at the entry to TRAINING, or at the attempt that runs. Reset 0. -/
  trainAt : DWord := 0
  deriving DecidableEq, Repr

/-- A peer binding (R456, R467). -/
structure Binding where
  /-- R467 EN (15), reset 0. -/
  en : Bool := false
  /-- R467 DEVMASK (15), 8 bits, reset 0. -/
  devmask : BitVec 8 := 0
  /-- R467 PART (15), 13 bits, reset 0. -/
  part : BitVec 13 := 0
  /-- R467 CTX of device e (15), 13 bits, reset 0. -/
  ctxs : SMap (BitVec 13) := []
  /-- R467 UP, LOST (15), 8 bits, reset 0. -/
  up : BitVec 8 := 0
  lost : BitVec 8 := 0
  /-- R456 announcements received from device e: DEVMASK and the CTX entries (15). -/
  peers : SMap (Option (BitVec 8 × List (BitVec 13))) := []
  /-- R459 GEN of the peer partition on device e (15). -/
  gens : SMap (BitVec 16) := []
  deriving DecidableEq, Repr

/-! ## What leaves the device -/

/-- A command sent to a member's controller (R264): the admin commands used, a queue with its number, its vector or CQ and its entries,
and the I/O commands with NSID, first LBA and LBAs of the member's own size, and the 4 KiB pages of the PRP list. The list's addresses in the device
are stated nowhere (log entry 53). -/
inductive MbrCmd where
  | identify
  | logPage
  | numberOfQueues (n : Nat)
  | writeCache
  | createCq (q vec entries : Nat)
  | createSq (q cq entries : Nat)
  | deleteSq (q : Nat)
  | deleteCq (q : Nat)
  | abort
  | read (nsid lba nlb prps : Nat)
  | write (nsid lba nlb prps : Nat) (fua : Bool)
  | flush (nsid : Nat)
  | deallocate (nsid lba nlb : Nat)
  deriving DecidableEq, Repr

/-- What an outside observer sees the device send (log entry 8). -/
inductive Out where
  | readData (r : Req) (v : Word)
  | unsupported (r : Req)
  | msix (fn vec : Nat)
  | pme (fn : Nat)
  | tcpRst (port : Nat)
  | tcpSynAck (conn port ifc : Nat) (mac : BitVec 48) (opts : TcpOpts)
  | tcpClose (conn : Nat)
  | arpReply (port ifc : Nat)
  | icResp (conn : Nat) (hdgst ddgst : Bool) (cpda maxh2cdata : Nat)
  | c2hTermReq (conn fes : Nat)
  | c2hData (conn cid ofs : Nat) (data : List Byte)
  | r2t (conn cid ofs len : Nat)
  | capsuleResp (conn cid : Nat) (result : DWord) (sct sc : Nat) (dnr : Bool)
  | plkRows (dev bind : Nat) (exkey : Word) (ctx : BitVec 13) (gen : BitVec 16) (mat pipe m bucket : Nat) (rows : List Row)
  | plkEnd (dev bind : Nat) (exkey : Word) (mat pipe : Nat)
  | plkAbort (dev bind : Nat) (exkey : Word)
  | plkBinding (dev b : Nat) (devmask : BitVec 8) (ctxs : List (BitVec 13)) (gen : BitVec 16)
  | plkGen (dev b : Nat) (gen : BitVec 16)
  | plkGenAck (dev p : Nat) (gen : BitVec 16)
  | plkMirror (arrayId : BitVec 128) (seq vol lba : Nat) (ctx : BitVec 13) (gen : BitVec 16) (blocks : List (List Byte))
  | plkMirrorDone (arrayId : BitVec 128) (seqs : List Nat)
  | plkMirrorAck (arrayId : BitVec 128) (seq : Nat)
  | plkCopy (arrayId : BitVec 128) (journal : List JRec) (blocks : List MirBlk)
  | plkAsk (arrayId : BitVec 128)
  | plkImported (arrayId : BitVec 128)
  | plkMirEn (en : Bool)
  | plkTime (link : Nat)
  | tsync
  | spdm (code : Nat) (payload : List Byte)
  | avs (mv : BitVec 10)
  | memberShutdown (n : Nat)
  | memberReset (n : Nat)
  | memberCmd (n : Nat) (c : MbrCmd)
  deriving DecidableEq, Repr

/-- A message to another device of the board that waits for its flits to be sent (R454, R455). -/
structure PlkMsg where
  /-- R455 the class: 0 TIME, 1 MIRROR, 2 CONTROL, 3 EXCHANGE. -/
  cls : Nat
  /-- The device it goes to (R453). -/
  dest : Nat
  /-- R454 its sequence number in its stream. -/
  seq : Nat
  /-- Its flits, and those not yet sent: the spec gives no message format, so their number is a free value (log entry 123). -/
  size : Nat
  flits : Nat
  /-- What leaves with the last flit. -/
  body : Out
  deriving DecidableEq, Repr

/-- Block PLK. -/
structure Plk where
  /-- R451 the peer links (15). -/
  links : SMap Link := []
  /-- R453 (15): links between other devices that are up, as learnt from the peers: bit 8 a + b. Reset none. -/
  remoteUp : SMap Bool := []
  /-- R467 TSRC (15), reset 1 on DEVID 0. -/
  tsrc : Bool := true
  /-- R465, R467 TSRC of the other devices of the board, by DEVID, which the board changes between steps (15; log entry 168). Reset 1 on
  DEVID 0. -/
  peerTsrc : SMap Bool := [(0, true)]
  /-- R467 LOCK (15), reset 0. -/
  lock : Bool := false
  /-- R467 OFS (15), 16 bits signed, reset 0. -/
  ofs : BitVec 16 := 0
  /-- R466 the last offsets (15), newest first, at most 8. -/
  offsets : List Int := []
  /-- R467 PLK_MIRROR.EN (15), reset 0. -/
  mirEn : Bool := false
  /-- R467 STATE (15), 2 bits, reset 0: 0 OFF, 1 SYNCING, 2 MIRRORED, 3 BROKEN. -/
  mirState : Nat := 0
  /-- R467 HOLDCOPY (15), reset 0. -/
  holdCopy : Bool := false
  /-- R467 MIRFAIL (15), reset 0. -/
  mirFail : Bool := false
  /-- R467 MIR_TMO (15), 16 bits, reset 100. -/
  mirTmo : BitVec 16 := 100
  /-- R462 the partner has EN = 1 (15). Reset 0. -/
  partnerEn : Bool := false
  /-- R462, R463 what was sent to the partner and is not acknowledged (15): its id and the Almanac at the sending, oldest first. -/
  mirWait : List (Nat × DWord) := []
  /-- R461 the mirror area (15): the partner's blocks, and its journals by array. -/
  area : List MirBlk := []
  journals : List (BitVec 128 × List JRec) := []
  /-- R464 (15): the partner's answers to an import, by array: journal and blocks. Reset none. -/
  answers : List (BitVec 128 × List JRec × List MirBlk) := []
  /-- R456 the peer bindings (15). -/
  bindings : SMap Binding := []
  /-- R454, R455 the messages not yet sent (15), oldest first. Reset none. -/
  tx : List PlkMsg := []
  /-- R454 (15): the next sequence number of each stream, by 4 x device + class. Reset 0. -/
  seqs : SMap Nat := []
  /-- R454 (15): the messages sent and not acknowledged, oldest first, each with the link it left on. Reset none. -/
  unacked : List (Nat × PlkMsg) := []
  /-- R455 per link (15): the class whose turn it is and the flits left of its weight. Reset none. -/
  turn : SMap (Nat × Nat) := []
  deriving DecidableEq, Repr

/-! ## Save images (R410 to R412) -/

/-- A save image: its bytes as written, and what they hold once unwrapped. -/
structure SaveImage where
  /-- The image's bytes (R410), the part from 0x1000 encrypted. -/
  image : List Byte
  /-- The partition key (R412). -/
  key : Option (BitVec 256)
  /-- Sections 1 and 7 (R411): the record with TAG, REC_SEQ and the meter. -/
  part : Part
  /-- Sections 2 and 3: the queues with their held completions; the CQQ of each is the named CQ's slot. -/
  queues : List Queue
  /-- Section 4: the plans by handle. -/
  plans : List (Nat × Plan)
  /-- Section 5: the runs, each with its RUN_PLAN command, the slot of its SQ and of its CQ. -/
  runs : List (Run × Cmd × Nat × Nat)
  /-- Section 6: the enabled tables, each with its number and every unit in address order. -/
  tables : List (Nat × ATable × List AUnit)
  /-- Section 8: the mapped pages and their bytes. -/
  pages : List Nat
  hbm : Mem
  deriving DecidableEq, Repr

/-! ## The whole machine -/

/-- The device. -/
structure State where
  /-- R2 the part (00). -/
  variant : Variant := .drz8640
  /-- Block GLB (02, 16, 18). -/
  glb : Glb := {}
  /-- R54 the checks of GLB, HIF, ARC, ASTORE, NET, PLK, SDMA, EVC, index 0-7 (02). -/
  ccrs : SMap Ccr := []
  /-- R525 block CLK (18). -/
  clk : Clk := {}
  /-- R429 STW0-STW3 (14). -/
  stws : SMap Steward := []
  /-- R437 block EVC (14). -/
  evc : Evc := {}
  /-- R449 SDMA channels 0-63 (14). -/
  sdma : SMap Sdma := []
  /-- R487 block VIGIL (16). -/
  vigil : Vigil := {}
  /-- R526 block PWR (18). -/
  pwr : Pwr := {}
  /-- R505 block TRUST (17). -/
  trust : Trust := {}
  /-- R345 block HIF (11). -/
  hif : Hif := {}
  /-- R393 PARTTAB (13), 4,096 records. -/
  parts : SMap Part := []
  /-- R403 pass[q][t] (13), index 16 q + t, at enable 0. -/
  pass : SMap Nat := []
  /-- R403 the candidate partitions at the last morsel boundary of logical tile t (13). Reset none. -/
  cands : SMap (List Nat) := []
  /-- R398 mapped virtual pages (13): context x 131,072 + page. -/
  pages : SMap Bool := []
  /-- R398 HBM contents (13): context x 2^38 + address; a page is zeroed when it is mapped (R399). -/
  hbm : Mem := []
  /-- R438 the 4 MiB shared steward memory (14) (log entry 4). -/
  stwMem : Mem := []
  /-- R31 the stewards' own 256 KiB local memories (02): w x 0x40000 + address; the hardware stack lies in the top 1 KiB (R426). -/
  stwLocal : Mem := []
  /-- The memory of each host function, at `hostKey` of its addresses, which the host changes between steps (R344; log entries 4, 171). -/
  hostMem : Mem := []
  /-- Ranges of it, start and length, whose reads end in Unsupported Request, Completer Abort or poisoned data (log entry 4). -/
  hostBad : List (Nat × Nat) := []
  /-- R74 loaded plans (03): context x 1,024 + handle. -/
  plans : SMap (Option Plan) := []
  /-- R77 runs in progress, oldest fetched first (03). Reset empty. -/
  runs : List Run := []
  /-- R77 the number of the next run, the model's own. Reset 0. -/
  nextRun : Nat := 0
  /-- R96 physical tiles 0-17 (03). -/
  tiles : SMap Tile := []
  /-- R178 CP c of physical tile t at 4 t + c (06). -/
  cps : SMap Cp := []
  /-- R245 block ASTORE (07). -/
  astore : Astore := {}
  /-- R261 block CMP (08). -/
  cmp : Cmp := {}
  /-- R306 block ARC (09, 10). -/
  arc : Arc := {}
  /-- R391 block NET (12). -/
  net : Net := {}
  /-- R467 block PLK (15). -/
  plk : Plk := {}
  /-- R412 (13): the save images that can be unwrapped, newest first: those this device has sealed and, from outside,
  those other devices have (log entry 16). Reset empty. -/
  images : List SaveImage := []
  /-- R29, R44 high words latched by a low-word read (02): requester code x 2^27 + offset of the low word; VF n is
  requester 8 + n. Reset 0. -/
  latches : SMap Word := []
  /-- The next free value's number, the model's own (log entry 5). Reset 0. -/
  freeCtr : Nat := 0
  /-- What has left the device, newest first, the model's own (log entry 8). Reset empty. -/
  out : List Out := []
  /-- Commands that wait, first in first out. Reset empty. -/
  pending : List Instr := []
  deriving DecidableEq, Repr

/-- The registers GLB_TILE_MAP0-3 after reset (R475), by variant. -/
def tileMapReset : Variant → SMap (Tri Word)
  | .drz8640 => [(0, Tri.of 0x03020100), (1, Tri.of 0x07060504), (2, Tri.of 0x0B0A0908), (3, Tri.of 0x0F0E0D0C)]
  | .drz8620 => [(0, Tri.of 0x03020100), (1, Tri.of 0x07060504), (2, Tri.of 0x1F1F1F1F), (3, Tri.of 0x1F1F1F1F)]
  | .drz8610 => [(0, Tri.of 0x03020100), (1, Tri.of 0x1F1F1F1F), (2, Tri.of 0x1F1F1F1F), (3, Tri.of 0x1F1F1F1F)]

/-- GLB_TILE_STAT.SPARE after reset (R476), by variant. -/
def spareReset : Variant → BitVec 18
  | .drz8640 => 0x30000
  | .drz8620 => 0x00100
  | .drz8610 => 0x00010

/-- The power-on-reset state of a part: every field at its reset value. -/
def State.resetOf (v : Variant) : State :=
  { variant := v
    glb := { tileMap := tileMapReset v, spare := spareReset v }
    pwr := { vset := Config.fusedMv } }

/-- The machine right after reset: a DRZ-8640 in power-on reset, GLB_START reading POR (log entries 1, 2). -/
def State.reset : State := State.resetOf .drz8640

end Sys2Proof.Machine
end

