-- ==== Sys2Proof/Machine/Ops.lean ====
section
/-! DEFINITION. Machine/Ops.lean: the operations every family shares: the parts' capabilities, access to tables,
what leaves the device, events, fault records, bus errors, the guard, consistency checks, host memory, HBM pages,
completions and interrupts. -/

namespace Sys2Proof.Machine

/-- The outcome of a command. -/
abbrev Out1 := Host.Outcome State Fault Refusal

/-- An event that cannot happen in this state (log entry 7). -/
def no (what : String) : Out1 := .refused (.eventNotPossible what)

/-- s where c holds; otherwise an event that cannot happen. -/
def when_ (c : Bool) (what : String) (s : State) : Out1 := if c then .next s else no what

/-! ## Capabilities (R2, R3) -/

/-- GLB_CAP (R2). -/
def capWord : Variant → Word
  | .drz8640 => 0x12781210
  | .drz8620 => 0x09480908
  | .drz8610 => 0x08040504

/-- TILES_SVC (R2). -/
def State.tilesSvc (s : State) : Nat := bits (capWord s.variant).toNat 7 0
/-- TILES_PHYS (R2). -/
def State.tilesPhys (s : State) : Nat := bits (capWord s.variant).toNat 15 8
/-- VLEN in bits (R2, R178). -/
def State.vlen (s : State) : Nat := bits (capWord s.variant).toNat 19 16 * 256
/-- ASTP (R2). -/
def State.astp (s : State) : Bool := bit (capWord s.variant).toNat 20
/-- NETP (R2). -/
def State.netp (s : State) : Bool := bit (capWord s.variant).toNat 21
/-- RNGENG (R2). -/
def State.rngeng (s : State) : Bool := bit (capWord s.variant).toNat 22
/-- PLK_COUNT (R2). -/
def State.plkCount (s : State) : Nat := bits (capWord s.variant).toNat 25 23
/-- HBM_STACKS (R2). -/
def State.stacks (s : State) : Nat := bits (capWord s.variant).toNat 28 26
/-- HBM pages of 2 MiB (00). -/
def State.hbmPages (s : State) : Nat := s.stacks * 24576

/-- The owner context (R12). -/
def ownerCtx : Nat := 0x1000

/-! ## Tables -/

/-- Partition p (R393). -/
def State.part (s : State) (p : Nat) : Part := look {} s.parts p
/-- Partition p replaced. -/
def State.setPart (s : State) (p : Nat) (x : Part) : State := { s with parts := put {} s.parts p x }
/-- f applied to partition p. -/
def State.updPart (s : State) (p : Nat) (f : Part → Part) : State := s.setPart p (f (s.part p))
/-- Queue q (R345). -/
def State.queue (s : State) (q : Nat) : Queue := look {} s.hif.queues q
/-- Queue q replaced. -/
def State.setQueue (s : State) (q : Nat) (x : Queue) : State :=
  { s with hif := { s.hif with queues := put {} s.hif.queues q x } }
/-- f applied to queue q. -/
def State.updQueue (s : State) (q : Nat) (f : Queue → Queue) : State := s.setQueue q (f (s.queue q))
/-- Function n (R340). -/
def State.func (s : State) (n : Nat) : Func := look {} s.hif.funcs n
/-- f applied to function n. -/
def State.updFunc (s : State) (n : Nat) (f : Func → Func) : State :=
  { s with hif := { s.hif with funcs := upd {} s.hif.funcs n f } }
/-- Steward w. -/
def State.stw (s : State) (w : Nat) : Steward := look {} s.stws w
/-- f applied to steward w. -/
def State.updStw (s : State) (w : Nat) (f : Steward → Steward) : State := { s with stws := upd {} s.stws w f }
/-- Physical tile t. -/
def State.tile (s : State) (t : Nat) : Tile := look {} s.tiles t
/-- Physical tile t replaced. -/
def State.setTile (s : State) (t : Nat) (x : Tile) : State := { s with tiles := put {} s.tiles t x }
/-- f applied to physical tile t. -/
def State.updTile (s : State) (t : Nat) (f : Tile → Tile) : State := s.setTile t (f (s.tile t))
/-- Array a. -/
def State.arr (s : State) (a : Nat) : Arr := look {} s.arc.arrays a
/-- Array a's record put in its place. -/
def State.putArr (s : State) (a : Nat) (x : Arr) : State :=
  { s with arc := { s.arc with arrays := put {} s.arc.arrays a x } }
/-- Volume v. -/
def State.vol (s : State) (v : Nat) : Vol := look {} s.arc.vols v
/-- Volume v replaced. -/
def State.setVol (s : State) (v : Nat) (x : Vol) : State := { s with arc := { s.arc with vols := put {} s.arc.vols v x } }
/-- f applied to volume v. -/
def State.updVol (s : State) (v : Nat) (f : Vol → Vol) : State := s.setVol v (f (s.vol v))
/-- Member n. -/
def State.member (s : State) (n : Nat) : Member := look {} s.arc.members n
/-- Member n replaced. -/
def State.setMember (s : State) (n : Nat) (x : Member) : State :=
  { s with arc := { s.arc with members := put {} s.arc.members n x } }
/-- f applied to member n. -/
def State.updMember (s : State) (n : Nat) (f : Member → Member) : State := s.setMember n (f (s.member n))

/-- The Almanac (R25). -/
def State.alm (s : State) : Nat := s.clk.alm.toNat

/-- Something leaves the device (log entry 8). -/
def State.emit (s : State) (o : Out) : State := { s with out := o :: s.out }

/-- The class of a message to another device (R455): 0 TIME, 1 MIRROR, 2 CONTROL, 3 EXCHANGE. -/
def plkClass : Out → Nat
  | .plkTime _ => 0
  | .plkMirror .. | .plkMirrorDone .. | .plkMirrorAck .. | .plkCopy .. => 1
  | .plkRows .. => 3
  | _ => 2

/-- A message to device `dest` joins those that wait for the links, with the next sequence number of its stream (R454, R455). -/
def State.plkSend (s : State) (dest : Nat) (o : Out) : State :=
  let n := Config.messageFlits s.freeCtr
  let k := 4 * dest + plkClass o
  let m : PlkMsg := { cls := plkClass o, dest := dest, seq := look 0 s.plk.seqs k, size := n, flits := n, body := o }
  { s with plk := { s.plk with tx := s.plk.tx ++ [m], seqs := upd 0 s.plk.seqs k (· + 1) }, freeCtr := s.freeCtr + 1 }

/-- Whether an awaited event stands in the same TCLK (R28): no tick falls between the commands of the queue. -/
def State.comes (s : State) (awaited : Instr → Bool) : Bool := s.pending.any awaited

/-- A timeout (R28): nothing where the awaited event falls in the same TCLK, which is handled and wins. -/
def timeout (c : Bool) (awaited : Instr → Bool) (what : String) (s t : State) : Out1 :=
  when_ c what (if s.comes awaited then s else t)

/-- Whether ARC runs: no freeze (R327), and the PLL is locked, without which all clocks but TCLK stop (R513). -/
def State.arcRuns (s : State) : Bool := s.arc.pf = 0 && s.clk.locked

/-- Whether the blocks the freeze and THERMTRIP_N gate run: tiles, CPs, CMP, NET and PLK (R328, R523). -/
def State.ungated (s : State) : Bool := s.arcRuns && !s.pwr.thermTrip

/-- Whether ns nanoseconds of Almanac time have passed since a time (R370). -/
def State.elapsed (s : State) (start : DWord) (ns : Nat) : Bool := start.toNat + ns ≤ s.alm

/-- What was sent to the partner under an id waits for its acknowledgement (R462, R463). -/
def State.awaitAck (s : State) (id : Nat) : State := { s with plk := { s.plk with mirWait := s.plk.mirWait ++ [(id, s.clk.alm)] } }

/-- Whether an acknowledgement is awaited under an id (R463). -/
def State.awaitsAck (s : State) (id : Nat) : Bool := s.plk.mirWait.any (·.1 = id)

/-- The next free value, which nothing constrains (log entry 5). -/
def State.free (s : State) : DWord × State := (Config.freeValue s.freeCtr, { s with freeCtr := s.freeCtr + 1 })

/-! ## MSI-X (R364, R365, R434) -/

/-- Whether the device may issue memory requests in the function's name (R365). -/
def State.canSend (s : State) (fn : Nat) : Bool := !(s.func fn).d3hot && (s.func fn).bme

/-- A function's MSI-X vector is sent: masked, its Pending Bit is set; held while the function cannot send. -/
def State.msix (s : State) (fn vec : Nat) : State :=
  if !look false (s.func fn).unmasked vec then s.updFunc fn fun f => { f with pba := put false f.pba vec true }
  else if !s.canSend fn then s.updFunc fn fun f => { f with heldMsg := put false f.heldMsg vec true }
  else s.emit (.msix fn vec)

/-! ## Events (R423 to R435) -/

/-- The level sources (R424). -/
def isLevel (src : Nat) : Bool := [0, 2, 3, 74, 77, 79, 80, 81].contains src

/-- Whether a shared source number is reserved (R424). -/
def srcReserved (src : Nat) : Bool := (4 ≤ src && src ≤ 7) || (148 ≤ src && src ≤ 1023) || 2048 ≤ src

/-- Whether a shared source never asserts on this part (R424). -/
def State.srcAbsent (s : State) (src : Nat) : Bool :=
  ((src = 81 || src = 82) && !s.netp) || (src = 83 && s.plkCount = 0)

/-- FAULT_N asserted (R472, R523): uncorrected records not acknowledged, RESETREQ, or THERMTRIP_N. -/
def State.faultN (s : State) : Bool := !s.vigil.unack.isEmpty || s.vigil.resetReq || s.pwr.thermTrip

/-- The current input of a level source (R424). -/
def State.levelIn (s : State) (src : Nat) : Bool :=
  match src with
  | 0 => !(look {} s.evc.pins 0).flt
  | 2 => (look {} s.evc.pins 2).flt
  | 3 => (look {} s.evc.pins 3).flt
  | 74 => bit s.glb.buserr.toNat 31
  | 77 => s.faultN
  | 79 => s.trust.mbx = 1 || s.trust.mbx = 2
  | 80 => s.clk.pdivEff ≠ tri s.clk.pdiv
  | 81 => !s.net.fifo.isEmpty && s.netp
  | _ => false

/-- Route record of a shared source (R437). -/
def State.route (s : State) (src : Nat) : Route := look {} s.evc.routes src
/-- f applied to a route record. -/
def State.updRoute (s : State) (src : Nat) (f : Route → Route) : State :=
  { s with evc := { s.evc with routes := upd {} s.evc.routes src f } }

/-- PS2, PS1 or an entry leaves for a wake toward state `to` (R368). -/
def State.startWake (s : State) (dest : Nat) : State := { s with pwr := { s.pwr with phase := 4, target := dest } }

/-- A shared source's condition occurs: PEND is set, or the edge is merged (R423); in PS2 the latch is set and a route
with WAKE = 1 starts a wake (R435). -/
def State.raise (s : State) (src : Nat) : State :=
  if s.srcAbsent src then s
  else if s.evc.gated then
    let s1 := { s with evc := { s.evc with latch := put false s.evc.latch src true } }
    if (s.route src).wake && s.pwr.ps = 2 && s.pwr.phase = 0 then s1.startWake 0 else s1
  else if (s.route src).pend then
    if isLevel src then s else { s with evc := { s.evc with mergeCnt := satInc s.evc.mergeCnt } }
  else s.updRoute src fun r => { r with pend := true }

/-- Whether STATE, RBSTATE or RSSTATE differ (R424). -/
def Arr.stateDiffers (x y : Arr) : Bool := x.state ≠ y.state || x.rebuild.state ≠ y.rebuild.state || x.reshape.state ≠ y.reshape.state

/-- Array a replaced; a change of its STATE, RBSTATE or RSSTATE is an edge of its source (R424). -/
def State.setArr (s : State) (a : Nat) (x : Arr) : State :=
  if (s.arr a).stateDiffers x then (s.putArr a x).raise (84 + a) else s.putArr a x

/-- f applied to array a. -/
def State.updArr (s : State) (a : Nat) (f : Arr → Arr) : State := s.setArr a (f (s.arr a))

/-- A private source of steward w is set (R423, R425). -/
def State.raisePriv (s : State) (w i : Nat) : State :=
  let k := 64 * w + i
  if (look {} s.evc.privs k).pend then { s with evc := { s.evc with mergeCnt := satInc s.evc.mergeCnt } }
  else { s with evc := { s.evc with privs := upd {} s.evc.privs k fun r => { r with pend := true } } }

/-! ## VIGIL records (R468 to R472) -/

/-- VIGIL's view of one event: a corrected repeat within 1 ms is only counted; a record goes to the ring, or is dropped
where the ring is full, and its copy to the partition's page; an uncorrected one adds to UNACK (R470 to R472). -/
def State.record (s : State) (cls ctx blk chk unit action : Nat) (ofs : Word) (wr : Bool) (status : Nat) : State :=
  let v := s.vigil
  let key := (BitVec.ofNat 8 blk, BitVec.ofNat 16 unit, BitVec.ofNat 8 chk)
  let same := fun (e : Byte × BitVec 16 × Byte × DWord) => e.1 = key.1 && e.2.1 = key.2.1 && e.2.2.1 = key.2.2
  if cls = 0 && v.lastCorr.any (fun e => same e && s.alm < e.2.2.2.toNat + 1000000) then
    { s with vigil := { v with supp := satInc v.supp } }
  else
    let full := v.logP - v.logC = (512 : Word)
    let r : VRec := { cls := BitVec.ofNat 2 cls, ctx := BitVec.ofNat 13 ctx, blk := key.1, check := key.2.2
                      unit := key.2.1, action := BitVec.ofNat 16 action, offset := ofs, write := wr
                      status := BitVec.ofNat 16 status, alm := s.clk.alm, seq := v.logP }
    let v1 : Vigil :=
      if full then { v with drop := satInc v.drop }
      else { v with ring := put none v.ring (v.logP.toNat % 512) (some r), logP := v.logP + 1 }
    let v2 : Vigil := if cls = 1 then { v1 with unack := (if full then v.logP - 1 else v.logP) :: v1.unack } else v1
    let v3 : Vigil :=
      if cls = 0 then { v2 with lastCorr := (key.1, key.2.1, key.2.2, s.clk.alm) :: v2.lastCorr.filter (fun e => !same e) }
      else v2
    let n := look 0 v.pageCnt ctx
    let v4 : Vigil :=
      if ctx < 4096 then
        { v3 with page := put none v3.page (32 * ctx + n.toNat % 32) (some { r with seq := n })
                  pageCnt := put 0 v3.pageCnt ctx (n + 1) }
      else v3
    let s1 := { s with vigil := v4 }
    if cls = 0 && !full then s1.raise 76 else s1

/-- A fault of the class that cannot be serviced on line (R484): RESETREQ is set. -/
def State.resetRequired (s : State) : State := { s with vigil := { s.vigil with resetReq := true } }

/-! ## Bus errors and reserved locations (R51, R52) -/

/-- A requester's code (02). -/
def reqCode : Req → Nat
  | .pf0 => 0
  | .vf _ => 1
  | .stw w => 2 + w % 4
  | .jtag => 6

/-- A GLB_BUSERR word (R52). -/
def busErrWord (wr size : Bool) (space ctx func : Nat) : Word :=
  packW [(1, 1), (1, 0), (1, b2n wr), (1, b2n size), (2, space), (13, ctx), (13, func)]

/-- A capture register after one more error: captured while VALID = 0, otherwise OVF (R52). -/
def capture (reg : Word × Word) (w ofs : Word) : Word × Word :=
  if bit reg.1.toNat 31 then (reg.1 ||| 0x40000000, reg.2) else (w, ofs)

/-- GLB_BUSERR, and for a VF its PART_BUSERR, capture a host error (R32, R52). -/
def State.busErr (s : State) (r : Req) (sp : Space) (ofs : Word) (wr size : Bool) : State :=
  match r with
  | .pf0 =>
    let c := capture (s.glb.buserr, s.glb.buserrOfs) (busErrWord wr size (if sp = .bar2 then 2 else 0) ownerCtx 0) ofs
    { s with glb := { s.glb with buserr := c.1, buserrOfs := c.2 } }
  | .vf n =>
    let w := busErrWord wr size (if sp = .bar2 then 2 else 1) (n - 1) n
    let c := capture (s.glb.buserr, s.glb.buserrOfs) w ofs
    let s1 := { s with glb := { s.glb with buserr := c.1, buserrOfs := c.2 } }
    s1.updPart (n - 1) fun p =>
      let d := capture (p.buserr, p.buserrOfs) w ofs
      { p with buserr := d.1, buserrOfs := d.2 }
  | _ => s

/-- The number of a host function. -/
def reqFn : Req → Nat
  | .vf n => n
  | _ => 0

/-- An access to a reserved location (R51). -/
def State.reserved (s : State) (r : Req) (sp : Space) (ofs : Nat) (wr size : Bool) : State :=
  match r with
  | .stw w => s.updStw w fun x => { x with excValid := true, excOfs := BitVec.ofNat 32 ofs, excWrite := wr }
  | .jtag => if wr then s else s.emit (.readData r 0)
  | _ =>
    let s1 := s.busErr r sp (BitVec.ofNat 32 ofs) wr size
    if wr then s1.updFunc (reqFn r) fun f => { f with aer := f.aer + 1 } else s1.emit (.unsupported r)

/-- The BAR0 offset of physical tile t's block (R30). -/
def tileOfs (t : Nat) : Nat := 0x100000 + t * 0x10000

/-- Whether the unit that a BAR0 offset belongs to is present (R3). -/
def State.presentAt (s : State) (ofs : Nat) : Bool :=
  if 0x100000 ≤ ofs && ofs < 0x220000 then (ofs - 0x100000) / 0x10000 < s.tilesPhys
  else if ofs / 0x10000 = 0x30 || (0x1000000 ≤ ofs && ofs < 0x3000000) then s.astp
  else if ofs / 0x10000 = 0x35 then s.netp
  else if 0x360100 ≤ ofs && ofs < 0x360110 then (ofs - 0x360100) / 4 < s.plkCount
  else if 0x380000 ≤ ofs && ofs < 0x3C0000 then (ofs - 0x380000) / 0x10000 < s.stacks
  else true

/-- Whether the block of a BAR0 offset serves in the start-up step reached (R494, R510, R511): GLB and TRUST in RECOVERY and FAILED;
GLB, CLK, PWR and TRUST before READY. -/
def State.serves (s : State) (ofs : Nat) : Bool :=
  let b := ofs / 0x10000
  if s.glb.start = 5 then true
  else if 6 ≤ s.glb.start then b = 0 || b = 5
  else b = 0 || b = 1 || b = 5 || b = 6

/-! ## The guard (R45 to R48) -/

/-- The lock as voted (R49). -/
def State.lock (s : State) : Lock := tri s.glb.guard

/-- The lock replaced. -/
def State.setLock (s : State) (l : Lock) : State := { s with glb := { s.glb with guard := Tri.of l } }

/-- GLB_GUARD_LOG counts a wrong or refused key write; EVC source 75 (R46, R48). -/
def State.badKey (s : State) (r : Req) : State :=
  { s with glb := { s.glb with badKey := satInc s.glb.badKey, lastSrc := BitVec.ofNat 3 (reqCode r) } }.raise 75

/-- GLB_GUARD_LOG counts a discarded G write (R46, R477). -/
def State.refuseG (s : State) (r : Req) (ofs : Nat) : State :=
  { s with glb := { s.glb with refused := satInc s.glb.refused, lastSrc := BitVec.ofNat 3 (reqCode r) } }.raise 75
    |>.busErr r .bar0 (BitVec.ofNat 32 ofs) true false

/-- A write to a G register (R45, R46): performed for the holder of the open lock, and the lock re-arms; otherwise
discarded and counted. -/
def State.gWrite (s : State) (r : Req) (ofs : Nat) (perform : State → State) : State :=
  if s.lock.isOpen && s.lock.holder = r then perform (s.setLock {}) else s.refuseG r ofs

/-! ## Consistency checks (R53 to R56) -/

/-- Where a block's checks stand. -/
def blockIx : CheckBlock → Nat
  | .glb => 0
  | .hif => 1
  | .arc => 2
  | .astore => 3
  | .net => 4
  | .plk => 5
  | .sdma => 6
  | .evc => 7

/-- A block's check machinery. -/
def State.ccr (s : State) (b : CheckBlock) : Ccr := look {} s.ccrs (blockIx b)

/-- f applied to a block's check machinery. -/
def State.updCcr (s : State) (b : CheckBlock) (f : Ccr → Ccr) : State := { s with ccrs := upd {} s.ccrs (blockIx b) f }

/-- A check is queued behind the block's earlier ones (R54). -/
def State.queueCheck (s : State) (b : CheckBlock) (o : CheckObj) : State :=
  s.updCcr b fun c => { c with queue := c.queue ++ [o] }

/-- A write to an object whose check is running or queued is held (R54), and the requester's later writes behind it (R36). -/
def State.holdWrite (s : State) (b : CheckBlock) (r : Req) (ofs : Nat) (v : Word) (sp : Space := .bar0) : State :=
  s.updCcr b fun c => { c with held := c.held ++ [{ req := r, sp := sp, off := ofs, v := v }] }

/-- The block that holds a write of a requester, if one does (R54). -/
def State.holder (s : State) (r : Req) : Option CheckBlock :=
  [CheckBlock.glb, .hif, .arc, .astore, .net, .plk, .sdma, .evc].find? fun b => (s.ccr b).held.any fun h => h.req = r

/-- Writes of a requester: t is the state after them; behind a write of the requester that is held they are held too, for its
accesses take effect in the order in which they arrive (R36; log entry 125). -/
def State.inOrder (s : State) (r : Req) (sp : Space) (ws : List (Nat × Word)) (t : State) : State :=
  match s.holder r with
  | some b => ws.foldl (fun x w => x.holdWrite b r w.1 w.2 sp) s
  | none => t

/-- A write of v to a BAR0 register by row (R30, R32, R36): t is the state after it where the block serves and the unit is present;
otherwise the offset behaves as reserved (R51). A VF does not reach it, and nobody before FIRMWARE. -/
def busRow (s : State) (r : Req) (ofs : Nat) (v : Word) (t : State) : Out1 :=
  match r with
  | .vf _ => no "a VF does not reach this register"
  | _ =>
    if s.glb.start < 2 then no "the device is in reset or boots its ROM"
    else .next (s.inOrder r .bar0 [(ofs, v)] (if s.serves ofs && s.presentAt ofs then t else s.reserved r .bar0 ofs true false))

/-- The result of a check: pass, or the reason code (R54). -/
def State.checkDone (s : State) (b : CheckBlock) (reason obj : Nat) : State :=
  s.updCcr b fun c => { c with queue := c.queue.drop 1, fail := reason ≠ 0, reason := BitVec.ofNat 16 reason
                               obj := BitVec.ofNat 32 obj }

/-- The code a check reports (R56): 0xN004 first, otherwise the lowest of the faults found; 0 where there is none. -/
def pickReason (faults : List (Bool × Nat)) : Nat :=
  let codes := (faults.filter (·.1)).map (·.2)
  if codes.any (fun c => c % 0x1000 = 4) then (codes.find? (fun c => c % 0x1000 = 4)).getD 0
  else codes.foldl (fun m c => if m = 0 || c < m then c else m) 0

/-! ## Host memory (log entry 4) and HBM (R398 to R400) -/

/-- The function that serves a context (R344). -/
def fnOf (ctx : Nat) : Nat := if ctx < 4096 then ctx + 1 else 0

/-- The function in whose name a command reaches host memory (R344). -/
def Cmd.fn (c : Cmd) : Nat := fnOf c.ctx.toNat

/-- Where byte a of function fn's host memory stands: each function reaches its own (R344; log entry 171). -/
def hostKey (fn a : Nat) : Nat := fn * 2 ^ 65 + a

/-- Whether a host read of these addresses in a function's name fails. -/
def State.hostFails (s : State) (fn a n : Nat) : Bool := s.hostBad.any fun r => hostKey fn a < r.1 + r.2 && r.1 < hostKey fn a + n

/-- n bytes of a function's host memory. -/
def State.hostRead (s : State) (fn a n : Nat) : List Byte := memRead s.hostMem (hostKey fn a) n

/-- Bytes written to a function's host memory. -/
def State.hostWrite (s : State) (fn a : Nat) (bs : List Byte) : State := { s with hostMem := memWrite s.hostMem (hostKey fn a) bs }

/-- Virtual pages of a context's space (R398). -/
def pagesPerCtx : Nat := 131072

/-- Whether a virtual page of a context is mapped (R398). -/
def State.mapped (s : State) (ctx page : Nat) : Bool := page < pagesPerCtx && look false s.pages (ctx * pagesPerCtx + page)

/-- Whether every page of a range of a context's HBM is mapped and its bits 63:38 are 0 (R398). -/
def State.hbmOk (s : State) (ctx a n : Nat) : Bool :=
  a + n ≤ 2 ^ 38 && (n = 0 || (List.range ((a + n - 1) / 0x200000 - a / 0x200000 + 1)).all fun i => s.mapped ctx (a / 0x200000 + i))

/-- n bytes of a context's HBM. -/
def State.hbmRead (s : State) (ctx a n : Nat) : List Byte := memRead s.hbm (ctx * 2 ^ 38 + a) n

/-- Bytes written to a context's HBM. -/
def State.hbmWrite (s : State) (ctx a : Nat) (bs : List Byte) : State :=
  { s with hbm := memWrite s.hbm (ctx * 2 ^ 38 + a) bs }

/-- A virtual page is mapped, written with zeros (R399). -/
def State.mapPage (s : State) (ctx page : Nat) : State :=
  { s with pages := put false s.pages (ctx * pagesPerCtx + page) true
           hbm := clearRange s.hbm (ctx * 2 ^ 38 + page * 0x200000) 0x200000 }

/-- Freed pages with a row that no spare row replaces leave POOL (R481). -/
def Vigil.freed (v : Vigil) (k n : Nat) : Vigil :=
  let out := fun (e : Nat) => k ≤ e && e < k + n
  { v with badPages := v.badPages + (v.badHeld.filter out).length, badHeld := v.badHeld.filter fun e => !out e }

/-- A virtual page is unmapped. -/
def State.unmapPage (s : State) (ctx page : Nat) : State :=
  { s with pages := put false s.pages (ctx * pagesPerCtx + page) false
           hbm := clearRange s.hbm (ctx * 2 ^ 38 + page * 0x200000) 0x200000
           vigil := s.vigil.freed (ctx * pagesPerCtx + page) 1 }

/-- Every page of a context is unmapped and freed (R407). -/
def State.unmapAll (s : State) (ctx : Nat) : State :=
  { s with pages := clearRange s.pages (ctx * pagesPerCtx) pagesPerCtx
           hbm := clearRange s.hbm (ctx * 2 ^ 38) (2 ^ 38)
           vigil := s.vigil.freed (ctx * pagesPerCtx) pagesPerCtx }

/-- Pages a context has mapped. -/
def State.mappedPages (s : State) (ctx : Nat) : Nat :=
  (s.pages.filter fun e => ctx * pagesPerCtx ≤ e.1 && e.1 < (ctx + 1) * pagesPerCtx).length

/-- Pages of a loaded plan (R74, R398). -/
def planPages (bytes : Nat) : Nat := ceilDiv bytes 0x200000

/-- PAGES_USED of partition p (R398). -/
def State.pagesUsed (s : State) (p : Nat) : Nat :=
  if (s.part p).state = 0 then 0
  else
    s.mappedPages p
      + (s.plans.filter fun e => p * 1024 ≤ e.1 && e.1 < (p + 1) * 1024).foldl
          (fun n e => n + match e.2 with | some pl => planPages pl.image.length | none => 0) 0
      + (s.runs.filter fun r => r.ctx.toNat = p).foldl (fun n r => n + r.pages) 0
      + ceilDiv (s.part p).ovfMib.toNat 2

/-- GiB of map cache a value of ARC_MAPC gives (R303). -/
def mapGib (v : BitVec 7) : Nat := if v = 0 then 1 else v.toNat

/-- A service action that cannot go on ends (R483). -/
def State.svcEnd (s : State) (result reason : Nat) : State :=
  { s with vigil := { s.vigil with svcBusy := false, svcResult := BitVec.ofNat 3 result, svcReason := BitVec.ofNat 16 reason } }

/-- Whether VIGIL_SVC tests the unit of this kind and index (R482). -/
def State.testing (s : State) (kind ix : Nat) : Bool :=
  let w := s.vigil.svcCtl.toNat
  s.vigil.svcBusy && bits w 19 18 = 1 && bits w 23 20 = kind && bits w 7 0 = ix

/-- A fault in a unit that a service action tests ends the test (R483). -/
def State.testFaulted (s : State) (kind ix : Nat) : State := if s.testing kind ix then s.svcEnd 3 0 else s

/-- Pages the owner context holds or reserves (R396); an array whose first check still runs holds none. -/
def State.ownerPages (s : State) : Nat :=
  Nat.min Config.firmwarePages 1024 + (if s.astp then 17 else 0) + mapGib s.arc.mapc * 512
    + s.arc.arrays.foldl (fun n e => if e.2.state = 0 || (e.2.state = 1 && e.2.prev = 0) then n else n + (e.2.cacheU.toNat * 128 + 8)) 0
    + (if s.plk.mirEn then 2560 else 0) + s.mappedPages ownerCtx

/-- POOL (R396), less the pages a failing row took out (R481; log entry 149); it reads 0 until start-up completes. -/
def State.pool (s : State) : Nat := if s.glb.start = 0 then 0 else s.hbmPages - s.ownerPages - s.vigil.badPages

/-- The sum of PAGE_MAX over enabled partitions but p (R395). -/
def State.pageMaxSum (s : State) (but : Option Nat) : Nat :=
  s.parts.foldl (fun n e => if tri e.2.en && some e.1 ≠ but then n + (tri e.2.pageMax).toNat else n) 0

/-- Whether n more owner pages would take POOL below the partitions' quotas (R547). -/
def State.ownerRefused (s : State) (n : Nat) : Bool := s.hbmPages < s.ownerPages + s.vigil.badPages + n + s.pageMaxSum none

/-! ## Partition events and stale transactions (R17, R421) -/

/-- A PV_EVT bit's event occurs: it is set, and VEC is sent where it rises with its EN bit 1 (R421). -/
def State.pvEvent (s : State) (p i : Nat) : State :=
  let x := s.part p
  if x.evt.getLsbD i then s
  else
    let s1 := s.setPart p { x with evt := x.evt ||| BitVec.ofNat 4 (2 ^ i) }
    if x.evEn.getLsbD i then s1.msix (p + 1) x.evVec.toNat else s1

/-- One stale transaction of a context is discarded (R17). -/
def State.stale (s : State) (ctx : Nat) : State :=
  if ctx < 4096 then (s.updPart ctx fun p => { p with stale := satInc p.stale }).pvEvent ctx 3 else s

/-- Whether a CTX and GEN pair is current (R12, R16): the owner context's GEN is not checked. -/
def State.current (s : State) (ctx : BitVec 13) (gen : BitVec 16) : Bool :=
  4096 ≤ ctx.toNat || (s.part ctx.toNat).gen = gen

/-! ## Completions (R354, R358 to R365) -/

/-- A field of a command's entry: bytes o to o + n - 1, counted from the entry's first byte. -/
def Cmd.f (c : Cmd) (o n : Nat) : Nat := fieldLE c.bytes o n

/-- The command with an id, among those fetched and not completed. -/
def State.cmd? (s : State) (id : Nat) : Option Cmd := s.hif.cmds.find? fun c => c.id = id

/-- The list of fetched commands replaced. -/
def State.setCmds (s : State) (l : List Cmd) : State := { s with hif := { s.hif with cmds := l } }

/-- f applied to the command with an id. -/
def State.updCmd (s : State) (id : Nat) (f : Cmd → Cmd) : State :=
  s.setCmds (s.hif.cmds.map fun c => if c.id = id then f c else c)

/-- The CTX of a queue as voted. -/
def Queue.ctxN (x : Queue) : Nat := (tri x.ctx).toNat

/-- Whether the CQ ring is full (R359). -/
def Queue.cqFull (x : Queue) : Bool := (x.cqp - x.cqc).toNat = 2 ^ x.cqlog.toNat

/-- The bytes of a CQ entry (R358). -/
def cqeBytes (h : HeldCqe) (sqField : Nat) (sqc cqIdx : Word) : List Byte :=
  natLE 2 h.tag.toNat ++ natLE 2 h.status.toNat ++ natLE 4 h.r0.toNat ++ natLE 4 h.r1.toNat ++ natLE 2 sqField
    ++ natLE 2 (b2n h.heldf) ++ natLE 4 sqc.toNat ++ natLE 4 cqIdx.toNat ++ natLE 8 0

/-- The CQ's interrupt is sent: the count clears and the timer stops (R364). -/
def State.cqInterrupt (s : State) (cq : Nat) : State :=
  let x := s.queue cq
  (s.setQueue cq { x with modPend := 0, modTimer := false, modReached := false }).msix (fnOf x.ctxN) x.vec.toNat

/-- A CQ's threshold is reached while its function cannot send: one PME where D3hot has PME_En (R365). -/
def State.cqPme (s : State) (cq : Nat) : State :=
  let x := s.queue cq
  let fn := fnOf x.ctxN
  let s1 := s.setQueue cq { x with modReached := true }
  if (s.func fn).d3hot && (s.func fn).pmeEn && !x.pmeSent then
    ((s1.updQueue cq fun y => { y with pmeSent := true }).updFunc fn fun f => { f with pmeStatus := true }).emit (.pme fn)
  else s1

/-- A CQ's moderation threshold is reached (R364, R365). -/
def State.cqThreshold (s : State) (cq : Nat) : State :=
  if s.canSend (fnOf (s.queue cq).ctxN) then s.cqInterrupt cq else s.cqPme cq

/-- One completion counts toward moderation (R364). -/
def State.cqCount (s : State) (cq : Nat) (noirq irqnow : Bool) : State :=
  let x := s.queue cq
  if !x.ien then s
  else
    let n := if noirq then x.modPend else x.modPend + 1
    let s1 := s.setQueue cq { x with modPend := n, modTimer := x.modTimer || n ≠ 0, modAt := if x.modTimer then x.modAt else s.clk.alm }
    if irqnow || (!noirq && max 1 x.modCnt.toNat ≤ n) then s1.cqThreshold cq else s1

/-- Completion places of a CQ: free ring slots not reserved (R354). -/
def Queue.ringPlaces (x : Queue) : Nat := 2 ^ x.cqlog.toNat - (x.cqp - x.cqc).toNat - x.rsvRing

/-- A completion's place is released (R354). -/
def Queue.releasePlace (x : Queue) : Place → Queue
  | .ring => { x with rsvRing := x.rsvRing - 1 }
  | .overflow => { x with rsvOvf := x.rsvOvf - 1 }

/-- The first of these held completions that reserved a ring slot takes an overflow entry instead. -/
def toOverflow : List HeldCqe → List HeldCqe
  | [] => []
  | h :: t => if h.place = .ring then { h with place := .overflow, heldf := true } :: t else h :: toOverflow t

/-- The youngest reservation of a ring slot on a CQ becomes one of an overflow entry (R354): a command's, or a held completion's. -/
def State.moveReservation (s : State) (cq : Nat) : State :=
  let move := fun (y : State) => y.updQueue cq fun x => { x with rsvRing := x.rsvRing - 1, rsvOvf := x.rsvOvf + 1 }
  match (s.hif.cmds.filter fun c => c.cq = cq && c.place = .ring && (match c.origin with | .ring _ => true | .net _ _ => false)).getLast? with
  | some c => move (s.updCmd c.id fun x => { x with place := .overflow })
  | none => move (s.updQueue cq fun x => { x with held := (toOverflow x.held.reverse).reverse })

/-- A completion is written to ring slot CQP (R359). One that reserved an overflow entry and takes a ring slot reserved for another leaves
its entry to that one (R354). -/
def State.cqWrite (s : State) (cq : Nat) (h : HeldCqe) : State :=
  let s := if h.place = .overflow && (s.queue cq).ringPlaces = 0 then s.moveReservation cq else s
  let x := s.queue cq
  let y := s.queue h.sq
  let sqField := if x.ctxN < 4096 then (tri y.slot).toNat else h.sq
  let a := x.cqb.toNat + 32 * (x.cqp.toNat % 2 ^ x.cqlog.toNat)
  let s1 := s.hostWrite (fnOf x.ctxN) a (cqeBytes h sqField y.sqc x.cqp)
  let s2 := s1.setQueue cq { x.releasePlace h.place with cqp := x.cqp + 1 }
  if h.counted then s2 else s2.cqCount cq h.noirq h.irqnow

/-- Held completions move, oldest first, into free ring slots while the function can send; CQ_OVF clears when the list
empties (R361). -/
def State.cqDrain (s : State) (cq : Nat) : Nat → State
  | 0 => s
  | n + 1 =>
    let x := s.queue cq
    match x.held with
    | [] => s.setQueue cq { x with cqOvf := false }
    | h :: rest =>
      if x.cqFull || !s.canSend (fnOf x.ctxN) then s
      else ((s.setQueue cq { x with held := rest, cqOvf := !rest.isEmpty }).cqWrite cq h).cqDrain cq n

/-- A completion is written to its CQ, or joins the held list (R359, R360, R365). -/
def State.cqPost (s : State) (cq : Nat) (h : HeldCqe) : State :=
  let x := s.queue cq
  let send := s.canSend (fnOf x.ctxN)
  if send && !x.cqFull && !x.cqOvf then s.cqWrite cq h
  else
    let h' := { h with heldf := send || h.place = .overflow, counted := !send }
    let s1 := s.setQueue cq { x with held := x.held ++ [h'], cqOvf := true }
    if send then s1 else s1.cqCount cq h.noirq h.irqnow

/-- The NVMe status of a device status (R386): SCT, SC, DNR. A status the table does not list takes the Internal Error of
its class 0x07xx (log entry 24). -/
def nvmeStatus (status : Nat) (isWrite : Bool) : Nat × Nat × Bool :=
  if status = 0 then (0, 0, false)
  else if status / 256 = 1 then (0, 0x02, true)
  else if status / 256 = 2 then (0, 0x82, false)
  else if status = 0x501 || status = 0x502 then (2, 0x81, true)
  else if status = 0x503 then (2, (if isWrite then 0x80 else 0x81), true)
  else if status = 0x511 then (0, 0x80, true)
  else (0, 0x06, false)

/-- A completion to the ring (R16, R17, R354, R359): written, held, or, carrying an old generation, discarded. -/
def State.ringComplete (s : State) (c : Cmd) (q status : Nat) (r0 r1 : Word) : State :=
  let s1 := s.setCmds (s.hif.cmds.filter fun x => x.id ≠ c.id)
  let cq := c.cq
  if !s.current c.ctx c.gen then (s1.updQueue cq fun x => x.releasePlace c.place).stale c.ctx.toNat
  else
    let fl := fieldLE c.bytes 2 2
    s1.cqPost cq { tag := BitVec.ofNat 16 (fieldLE c.bytes 4 2), status := BitVec.ofNat 16 status, r0 := r0, r1 := r1
                   sq := q, place := c.place, noirq := bit fl 1, irqnow := bit fl 2, heldf := false, counted := false }

/-! ### Completions over the network (R382, R385, R386) -/

/-- Connection c (R381). -/
def State.conn (s : State) (c : Nat) : Conn := look {} s.net.conns c

/-- f applied to connection c. -/
def State.updConn (s : State) (c : Nat) (f : Conn → Conn) : State :=
  { s with net := { s.net with conns := upd {} s.net.conns c f } }

/-- TCP payload bytes on a connection are counted for its partition (R385, R415). -/
def State.netBytes (s : State) (c n : Nat) : State :=
  let x := s.conn c
  if x.state = 3 && x.part < 4096 then s.updPart x.part fun p => { p with mtr := upd 0 p.mtr 5 (· + BitVec.ofNat 64 n) } else s

/-- Bytes of a PDU on the wire: header, digest, padding to its data, data, digest (R382; log entry 69). -/
def Conn.pduLen (x : Conn) (header pad data : Nat) : Nat :=
  let h := header + (if x.hdgst then 4 else 0)
  if data = 0 then h else ceilDiv h pad * pad + data + (if x.ddgst then 4 else 0)

/-- A CapsuleResp leaves on a connection that stands; on a closed one it is discarded (R382, R387). -/
def State.capsule (s : State) (conn cid : Nat) (result : DWord) (m : Nat × Nat × Bool) : State :=
  if (s.conn conn).state = 0 then s
  else (s.netBytes conn ((s.conn conn).pduLen 24 4 0)).emit (.capsuleResp conn cid result m.1 m.2.1 m.2.2)

/-- An unexport whose namespace has no command left clears EXP and completes (R379). -/
def State.settleExports (s : State) : State :=
  s.arc.vols.foldl (fun (y : State) e =>
    match e.2.unexporting with
    | none => y
    | some id =>
      let busy := y.hif.cmds.any fun c => (match c.origin with | .net _ _ => true | .ring _ => false) && c.f 8 2 = e.1
      if busy then y
      else
        let y1 := y.updVol e.1 fun v => { v with exported := none, unexporting := none }
        match y1.cmd? id with
        | some c => (match c.origin with | .ring q => y1.ringComplete c q 0 0 0 | .net _ _ => y1)
        | none => y1) s

/-- A fetched command completes: its completion is written, held, sent as a capsule, or, carrying an old generation,
discarded (R16, R17, R354, R359). With RESETREQ set the device completes nothing further (R484). -/
def State.complete (s : State) (id status : Nat) (r0 r1 : Word) : State :=
  match (if s.vigil.resetReq then none else s.cmd? id) with
  | none => s
  | some c =>
    match c.origin with
    | .net conn cid =>
      let s1 := s.setCmds (s.hif.cmds.filter fun x => x.id ≠ id)
      (if s.current c.ctx c.gen then s1.capsule conn cid 0 (nvmeStatus status (c.op ≠ 0x20)) else s1.stale c.ctx.toNat).settleExports
    | .ring q => s.ringComplete c q status r0 r1

/-- A status of the ranges R57 issues, chosen by a free value: 0, 0x0100 to 0x047F, 0x0500 to 0x08FF. -/
def issuedStatus (v : Nat) : Nat :=
  let n := v % 1921
  if n = 0 then 0 else if n ≤ 0x380 then 0xFF + n else 0x17F + n

/-- A completion without result words. -/
def State.done (s : State) (id status : Nat) : State := s.complete id status 0 0

/-- The position of command id in fetch order. -/
def State.cmdsOfSq (s : State) (q : Nat) : List Cmd := s.hif.cmds.filter fun c => c.origin = .ring q

/-- Whether the FENCE rule lets a command start (R356): no earlier unfinished command of its SQ where it has FENCE, and no earlier FENCE
command that has not started. -/
def State.fenceOk (s : State) (c : Cmd) : Bool :=
  match c.origin with
  | .net _ _ => true
  | .ring q =>
    let earlier := (s.cmdsOfSq q).filter fun x => x.id < c.id
    if bit (fieldLE c.bytes 2 2) 0 then earlier.isEmpty else earlier.all fun x => x.phase = .running || !bit (fieldLE x.bytes 2 2) 0

/-- The table with f applied to every entry 0 to n - 1, the unlisted ones included. -/
def mapAll {α : Type} [DecidableEq α] (d : α) (n : Nat) (f : α → α) (m : SMap α) : SMap α :=
  (List.range n).filterMap fun i => let y := f (look d m i); if y = d then none else some (i, y)

/-- Whether every byte of the entry in these ranges is 0 (R373, 0x0100). -/
def Cmd.zeros (c : Cmd) (rs : List (Nat × Nat)) : Bool := rs.all fun r => (sub c.bytes r.1 r.2).all (· = 0)

/-- Whether the device carries commands out: in PS2 only DEV_PSTATE, until the wake (R368, R369); none once the freeze has
gated it (R328). -/
def State.serving (s : State) (op : Nat) : Bool := (s.pwr.ps ≠ 2 || op = 0x80) && s.arcRuns

/-- The command with this id, opcode and phase `fetched` that FENCE lets start, handed to k; its GEN is checked first:
a stale one is discarded, its completion with it (R17). -/
def withCmd (s : State) (id op : Nat) (what : String) (k : Cmd → State) : Out1 :=
  match s.cmd? id with
  | none => no what
  | some c =>
    if c.op = op && c.phase = .fetched && s.fenceOk c && s.serving op then
      if s.current c.ctx c.gen then .next (k c) else .next (s.done id 0x0703)
    else no what

/-- The command goes on to a later phase. -/
def State.phase (s : State) (id : Nat) (p : CmdPhase) : State := s.updCmd id fun c => { c with phase := p }

end Sys2Proof.Machine
end

