-- ==== Sys2Proof/Machine/ArcMap.lean ====
section
/-! DEFINITION. Machine/ArcMap.lean: what one array or volume computes by itself: the runs and leaves of a stripe map (R275 to
R279), the parity and reconstruction of a stripe (R190, R269, R270), journal records (R286, R287), cache block indices. -/

namespace Sys2Proof.Machine

/-! ## Volumes that no command names -/

/-- The system volume of array a (R276): 16 blocks for each system page. -/
def sysVol (a : Nat) : Nat := 0x20000 + a
/-- Where the directory pages of array a's system volume are kept (R276): 16 blocks for each. -/
def dirVol (a : Nat) : Nat := 0x20040 + a
/-- Where pipeline p of run r stages its STORE in the log (R87; log entry 91). -/
def stageVol (r p : Nat) : Nat := 0x40000 + 0x10000 * r + p
/-- Whether a volume is one that VOL_CREATE makes. -/
def realVol (v : Nat) : Bool := v < 0x4000
/-- The number that a journal record gives a volume: 0xFFFF the system volume, 0xFFFE the staging ones (R287; log entry 91). -/
def journalVol (v : Nat) : Nat := if realVol v then v else if v < 0x20040 then 0xFFFF else 0xFFFE
/-- The volume of array a that a journal record names. -/
def journalVolOf (a n : Nat) : Nat := if n = 0xFFFF then sysVol a else if n = 0xFFFE then stageVol 0 0 else n

/-- SEQ as a leaf entry holds it: its low 40 bits (R275). -/
def seq40 (q : Nat) : Nat := q % 2 ^ 40

/-- A block of zeros. -/
def zeroBlock : List Byte := List.replicate 4096 0

/-! ## Runs (R275, R278) -/

/-- The block after a run's last. -/
def Extent.stop (e : Extent) : Nat := e.vlba + e.len

/-- The part of a run inside [lo, hi). -/
def Extent.clip (e : Extent) (lo hi : Nat) : Option Extent :=
  let a := max e.vlba lo
  let b := min e.stop hi
  if a < b then some { e with vlba := a, len := b - a, abn := if e.kind = 0 then e.abn + (a - e.vlba) else 0 } else none

/-- The parts of a map inside [lo, hi). -/
def mapIn (m : List Extent) (lo hi : Nat) : List Extent := m.filterMap fun e => e.clip lo hi

/-- The map without [lo, hi). -/
def mapCut (m : List Extent) (lo hi : Nat) : List Extent :=
  m.flatMap fun e => (e.clip 0 lo).toList ++ (e.clip hi e.stop).toList

/-- A run inserted by VLBA. -/
def insertRun (e : Extent) : List Extent → List Extent
  | [] => [e]
  | x :: r => if e.vlba ≤ x.vlba then e :: x :: r else x :: insertRun e r

/-- Whether run y continues run x: VLBA and ABN continue, and an entry holds both (R275, R278); runs of zeros or LOST, which have no
ABN, where one write produced both. -/
def Extent.continues (x y : Extent) : Bool :=
  x.kind = y.kind && x.stop = y.vlba && (if x.kind = 0 then x.abn + x.len = y.abn && x.len + y.len ≤ 64 else x.seq = y.seq)

/-- Neighbouring runs joined where they continue; a joined data run has the higher SEQ (log entry 45). -/
def joinRuns : List Extent → List Extent
  | [] => []
  | x :: r =>
    match joinRuns r with
    | [] => [x]
    | y :: t => if x.continues y then { x with len := x.len + y.len, seq := max x.seq y.seq } :: t else x :: y :: t

/-- The map with run e set; no run with a higher SEQ is replaced (R278). -/
def mapSet (m : List Extent) (e : Extent) : List Extent :=
  let win := (mapIn m e.vlba e.stop).filter fun x => e.seq < x.seq
  let new := win.foldl (fun ps w => mapCut ps w.vlba w.stop) [e]
  joinRuns ((win ++ new).foldl (fun l x => insertRun x l) (mapCut m e.vlba e.stop))

/-- The map with [lo, hi) deallocated by a record of this SEQ. -/
def mapDrop (m : List Extent) (lo hi seq : Nat) : List Extent :=
  ((mapIn m lo hi).filter fun x => seq < x.seq).foldl (fun l x => insertRun x l) (mapCut m lo hi)

/-- The run that covers a block. -/
def mapAt (m : List Extent) (lba : Nat) : Option Extent := m.find? fun e => e.vlba ≤ lba && lba < e.stop

/-- Entries a run takes in a leaf (R275). -/
def Extent.entries (e : Extent) : Nat := ceilDiv e.len 64

/-- The blocks of (volume block, ABN) pairs as runs of one SEQ, of at most 64 blocks. -/
def runsOf (seq : Nat) : List (Nat × Nat) → List Extent
  | [] => []
  | (l, a) :: r =>
    match runsOf seq r with
    | [] => [⟨l, 1, 0, a, seq⟩]
    | e :: t => if l + 1 = e.vlba && a + 1 = e.abn && e.len < 64 then ⟨l, e.len + 1, 0, a, seq⟩ :: t else ⟨l, 1, 0, a, seq⟩ :: e :: t

/-! ## Leaves (R276, R277, R279) -/

/-- The block before which the first n entries of a map end. -/
def entryCut : List Extent → Nat → Nat
  | [], _ => 0
  | e :: r, n => if n < e.entries then e.vlba + 64 * n else entryCut r (n - e.entries)

/-- Entries of a map between two blocks. -/
def entriesIn (m : List Extent) (lo hi : Nat) : Nat := (mapIn m lo hi).foldl (fun n e => n + e.entries) 0

/-- A leaf of the blocks up to hi that has filled splits into two halves, each again where it is still too full (R277). -/
def splitLeaf (m : List Extent) : Nat → Leaf → Nat → List Leaf
  | 0, l, _ => [l]
  | d + 1, l, hi =>
    let n := entriesIn m l.first hi
    if n ≤ 4092 then [l]
    else
      let c := entryCut (mapIn m l.first hi) (n / 2)
      if c ≤ l.first then [l] else splitLeaf m d l c ++ splitLeaf m d { l with first := c, page := none } hi

/-- Every leaf with the block after its last. -/
def leafSpans (vblk : Nat) : List Leaf → List (Leaf × Nat)
  | [] => []
  | [l] => [(l, vblk)]
  | l :: l' :: r => (l, l'.first) :: leafSpans vblk (l' :: r)

/-- Two neighbouring leaves that together hold at most 2,046 entries are merged (R277). -/
def mergeLeaves (m : List Extent) : List (Leaf × Nat) → List (Leaf × Nat)
  | [] => []
  | (l, h) :: r =>
    match mergeLeaves m r with
    | [] => [(l, h)]
    | (l', h') :: t =>
      if entriesIn m l.first h' ≤ 2046 then
        ({ l with resident := l.resident || l'.resident, dirty := true, used := max l.used l'.used, page := l.page.orElse fun _ => l'.page }, h') :: t
      else (l, h) :: (l', h') :: t

/-- A volume's leaves after its map has changed (R277). -/
def Vol.rebalance (v : Vol) : Vol :=
  let split := (leafSpans v.vblk v.leaves).flatMap fun e => splitLeaf v.map 32 e.1 e.2
  { v with leaves := (mergeLeaves v.map (leafSpans v.vblk split)).map (·.1), rootDirty := true }

/-- ROOT_PAGES of a volume (R277). -/
def rootPages (vblk : Nat) : Nat := ceilDiv (ceilDiv vblk 1023 + 2) 4092

/-! ## Parity (R270) -/

/-- The inverse of a nonzero element of GF(2^8) (R190): its 254th power. -/
def gfInv (a : Nat) : Nat := (List.range 253).foldl (fun p _ => gfMul p a) a

/-- The factor of data chunk j in parity chunk i. -/
def parityCoef (k i j : Nat) : Nat := if k = 1 then 1 else gfMul (j + 4) (gfInv (i ^^^ (j + 4)))

/-- Chunk e of a stripe (data chunks first, then parity) as a combination of the k data chunks. -/
def chunkRow (k e : Nat) : List Nat :=
  (List.range k).map fun j => if e < k then b2n (j = e) else parityCoef k (e - k) j

/-- A block times a factor. -/
def scaleBlock (c : Nat) (b : List Byte) : List Byte :=
  if c = 0 then zeroBlock else if c = 1 then b else b.map fun x => BitVec.ofNat 8 (gfMul c x.toNat)

/-- The xor of two blocks. -/
def xorBlock (a b : List Byte) : List Byte := a.zipWith (· ^^^ ·) b

/-- The combination of blocks with these factors. -/
def combine (cs : List Nat) (bs : List (List Byte)) : List Byte :=
  (cs.zip bs).foldl (fun acc e => xorBlock acc (scaleBlock e.1 e.2)) zeroBlock

/-- One column of a Gauss-Jordan elimination over GF(2^8). -/
def gfElim (rows : List (List Nat)) (c : Nat) : List (List Nat) :=
  match (rows.drop c).findIdx? (fun r => nth r c 0 ≠ 0) with
  | none => rows
  | some d =>
    let pr := nth rows (c + d) []
    let inv := gfInv (nth pr c 0)
    let pv := pr.map (gfMul inv)
    let rest := rows.eraseIdx (c + d)
    let elim := fun (r : List Nat) => (r.zip pv).map fun e => e.1 ^^^ gfMul (nth r c 0) e.2
    (rest.take c).map elim ++ [pv] ++ (rest.drop c).map elim

/-- The factors with which k chunks give chunk e. -/
def solveFor (k e : Nat) (srcs : List Nat) : List Nat :=
  let aug := srcs.zipIdx.map fun x => chunkRow k x.1 ++ (List.range k).map fun i => b2n (i = x.2)
  let inv := ((List.range k).foldl gfElim aug).map (·.drop k)
  let t := chunkRow k e
  (List.range k).map fun i => (t.zip inv).foldl (fun acc x => acc ^^^ gfMul x.1 (nth x.2 i 0)) 0

/-- Chunk e's block from the blocks of k other chunks. -/
def reconstruct (k e : Nat) (srcs : List (Nat × List Byte)) : List Byte :=
  combine (solveFor k e (srcs.map (·.1))) (srcs.map (·.2))

/-- Parity chunk i's block from the k data blocks (R270). -/
def parityOf (k i : Nat) (data : List (List Byte)) : List Byte := combine (chunkRow k (k + i)) data

/-! ## The journal (R286, R287) -/

/-- Bytes of a record: its header and its body padded to 16. -/
def JBody.size : JBody → Nat
  | .stripeOpen .. => 32
  | .parity .. => 32
  | .mapDelta _ es => 16 + roundUp (4 + 16 * es.length) 16
  | .moveDelta .. => 48
  | .stripeCommit .. => 32
  | .stripeFree .. => 32
  | .checkpoint .. => 32
  | .write _ _ _ _ bs => 32 + roundUp (4 * bs.length) 16
  | .writeDone _ => 32
  | .trim .. => 48

/-- Bytes of the ring (R281). -/
def ringBytes : Nat := 0x1000000

/-- A record appended (R286). -/
def Arr.append (x : Arr) (b : JBody) : Arr :=
  { x with journal := x.journal ++ [⟨x.nextSeq, x.jpos, b⟩], nextSeq := x.nextSeq + 1, jpos := (x.jpos + b.size) % ringBytes }

/-- Bytes of the ring that records hold. -/
def Arr.journalUsed (x : Arr) : Nat := x.journal.foldl (fun n r => n + r.body.size) 0

/-- MAP_DELTA records for the runs of a volume, at most 12 in each (R287). -/
def Arr.appendRuns (x : Arr) (v : Nat) (es : List Extent) : Arr :=
  (List.range (ceilDiv es.length 12)).foldl (fun (y : Arr) i => y.append (.mapDelta v ((es.drop (12 * i)).take 12))) x

/-! ## The write cache (R281, R284) -/

/-- The n lowest cache block indices that are free, from i on; the used ones ascend (log entry 46). -/
def freeIdx : List Nat → Nat → Nat → List Nat
  | [], i, n => (List.range n).map (i + ·)
  | q :: qs, i, n =>
    if n ≤ q - i then (List.range n).map (i + ·) else (List.range (q - i)).map (i + ·) ++ freeIdx qs (q + 1) (n - (q - i))

/-- Cache blocks held or reserved. -/
def Arr.cacheUsed (x : Arr) : Nat := x.cache.length + x.reserved.foldl (fun n r => n + r.2) 0

/-- A cached block covered by a later record is superseded (R284, R293). -/
def Arr.supersede (x : Arr) (v lo hi seq : Nat) : Arr :=
  { x with cache := x.cache.map fun (e : Nat × Option CBlk) =>
    (e.1, e.2.map fun b => if b.vol = v && lo ≤ b.lba && b.lba < hi && b.seq < seq then { b with superseded := true } else b) }

/-- The writes whose every cached block is committed or superseded (R284). -/
def Arr.past (x : Arr) : List Nat :=
  (sortNat (x.cache.filterMap fun e => e.2.map (·.seq)).eraseDups).filter fun q => x.cache.all fun e =>
    match e.2 with
    | some b => b.seq ≠ q || b.committed || b.superseded
    | none => true

/-- Cache space of the writes whose every block is committed or superseded is released, each with its WRITE_DONE (R284). -/
def Arr.release (x : Arr) : Arr :=
  x.past.foldl (fun (y : Arr) q =>
    { y with cache := y.cache.filter fun e => match e.2 with | some b => b.seq ≠ q | none => false }.append (.writeDone q)) x

/-- The cached copy of a block that reads see (R283, R284). -/
def Arr.cached (x : Arr) (v lba : Nat) : Option CBlk :=
  (x.cache.filterMap (·.2)).find? fun b => b.vol = v && b.lba = lba && !b.superseded

end Sys2Proof.Machine
end

