-- ==== Sys2Proof/Machine/Deflate.lean ====
section
/-! DEFINITION. Machine/Deflate.lean: decoding DEFLATE (RFC 1951) and its zlib and gzip wrappers (R249, R251, R254, R255), and
the check values CRC-64 (R167), CRC-32 and Adler-32. -/

namespace Sys2Proof.Machine

/-! ## Check values -/

/-- One bit of a reflected CRC. -/
def crcBit {w : Nat} (poly c : BitVec w) : BitVec w := if c.getLsbD 0 then (c >>> 1) ^^^ poly else c >>> 1

/-- A reflected CRC over bytes. -/
def crcOver {w : Nat} (poly init : BitVec w) (bs : List Byte) : BitVec w :=
  bs.foldl (fun c b => (List.range 8).foldl (fun c _ => crcBit poly c) (c ^^^ b.setWidth w)) init

/-- The CRC-64 of the device (R167). -/
def crc64 (bs : List Byte) : DWord := ~~~crcOver 0xC96C5795D7870F42 (-1) bs

/-- The CRC-32 of gzip (R251). -/
def crc32 (bs : List Byte) : Word := ~~~crcOver 0xEDB88320 (-1) bs

/-- The Adler-32 of zlib (R251). -/
def adler32 (bs : List Byte) : Nat :=
  let r := bs.foldl (fun (p : Nat × Nat) b => let a := (p.1 + b.toNat) % 65521; (a, (p.2 + a) % 65521)) (1, 0)
  r.2 * 65536 + r.1

/-! ## Bits and Huffman codes -/

/-- The bits of bytes, least significant first. -/
def bitsOf (bs : List Byte) : List Bool := bs.flatMap fun b => (List.range 8).map fun i => b.getLsbD i

/-- n bits as a number, first bit least significant; none where the source ends. -/
def takeBits : Nat → List Bool → Option (Nat × List Bool)
  | 0, bs => some (0, bs)
  | _ + 1, [] => none
  | n + 1, b :: bs => (takeBits n bs).map fun r => (b2n b + 2 * r.1, r.2)

/-- A code: length, value, symbol. -/
structure HCode where
  len : Nat
  code : Nat
  sym : Nat

/-- The canonical codes of a set of code lengths. -/
def canonCodes (lens : List Nat) : List HCode :=
  let count := fun n => if n = 0 then 0 else lens.countP (· = n)
  let first := fun n => (List.range n).foldl (fun c k => 2 * (c + count k)) 0
  (List.range 15).flatMap fun k =>
    let syms := (lens.zipIdx.filter fun e => e.1 = k + 1).map (·.2)
    syms.zipIdx.map fun e => { len := k + 1, code := first (k + 1) + e.2, sym := e.1 }

/-- What a code set fills of the 2^15 codes of length 15. -/
def kraft (lens : List Nat) : Nat := lens.foldl (fun n l => if l = 0 then n else n + 2 ^ (15 - l)) 0

/-- Whether a set is complete: neither over- nor under-subscribed (R255). -/
def completeSet (lens : List Nat) : Bool := kraft lens = 2 ^ 15

/-- Whether a distance set is one RFC 1951 permits: complete, one code of one bit, or none (R255; log entry 41). -/
def distSetOk (lens : List Nat) : Bool :=
  let used := lens.filter (· ≠ 0)
  completeSet lens || used = [1] || used = []

/-- The next symbol: at most n more bits are read. -/
def nextSym (cs : List HCode) : Nat → Nat → Nat → List Bool → Option (Nat × List Bool)
  | 0, _, _, _ => none
  | _ + 1, _, _, [] => none
  | n + 1, len, code, b :: bs =>
    let c := 2 * code + b2n b
    match cs.find? fun h => h.len = len + 1 && h.code = c with
    | some h => some (h.sym, bs)
    | none => nextSym cs n (len + 1) c bs

/-- The next symbol of a code. -/
def readSym (cs : List HCode) (bs : List Bool) : Option (Nat × List Bool) := nextSym cs 15 0 0 bs

/-! ## Blocks -/

/-- Base length and extra bits of length symbols 257 to 285 (RFC 1951). -/
def lengthCode (s : Nat) : Nat × Nat :=
  if s < 265 then (s - 254, 0)
  else if s = 285 then (258, 0)
  else let e := (s - 261) / 4; (3 + (4 + (s - 261) % 4) * 2 ^ e, e)

/-- Base distance and extra bits of distance symbols 0 to 29 (RFC 1951). -/
def distCode (s : Nat) : Nat × Nat := if s < 4 then (s + 1, 0) else let e := s / 2 - 1; (1 + (2 + s % 2) * 2 ^ e, e)

/-- What decoding gives: the output, newest byte first, and the bits left; a fault; an output that passes the cap. -/
inductive Inf where
  | ok (out : List Byte) (rest : List Bool)
  | bad
  | full

/-- n bytes copied from distance d. -/
def copyMatch : Nat → Nat → List Byte → List Byte
  | 0, _, out => out
  | n + 1, d, out => copyMatch n d (nth out (d - 1) 0 :: out)

/-- The symbols of a block up to its end (R255). -/
def inflateSyms (lit dist : List HCode) (cap : Nat) : Nat → List Byte → List Bool → Inf
  | 0, _, _ => .bad
  | fuel + 1, out, bs =>
    match readSym lit bs with
    | none => .bad
    | some (s, bs) =>
      if s = 256 then .ok out bs
      else if s < 256 then
        (if out.length < cap then inflateSyms lit dist cap fuel (BitVec.ofNat 8 s :: out) bs else .full)
      else if 285 < s then .bad
      else
        match takeBits (lengthCode s).2 bs with
        | none => .bad
        | some (x, bs) =>
          match readSym dist bs with
          | none => .bad
          | some (d, bs) =>
            if 29 < d then .bad
            else
              match takeBits (distCode d).2 bs with
              | none => .bad
              | some (y, bs) =>
                let n := (lengthCode s).1 + x
                let far := (distCode d).1 + y
                if out.length < far || 32768 < far then .bad
                else if cap < out.length + n then .full
                else inflateSyms lit dist cap fuel (copyMatch n far out) bs

/-- The code-length alphabet's order (RFC 1951). -/
def clOrder : List Nat := [16, 17, 18, 0, 8, 7, 9, 6, 10, 5, 11, 4, 12, 3, 13, 2, 14, 1, 15]

/-- n code lengths read with the code-length code, newest first. -/
def readLens (cs : List HCode) (n : Nat) : Nat → List Nat → List Bool → Option (List Nat × List Bool)
  | 0, _, _ => none
  | fuel + 1, acc, bs =>
    if acc.length = n then some (acc, bs)
    else if n < acc.length then none
    else
      match readSym cs bs with
      | none => none
      | some (s, bs) =>
        if s < 16 then readLens cs n fuel (s :: acc) bs
        else
          let par := if s = 16 then (2, 3) else if s = 17 then (3, 3) else (7, 11)
          match takeBits par.1 bs, acc with
          | none, _ => none
          | some (x, bs), acc =>
            match (if s = 16 then acc.head? else some 0) with
            | none => none
            | some v => readLens cs n fuel (List.replicate (par.2 + x) v ++ acc) bs

/-- The literal and distance code lengths of a dynamic block. -/
def readDynamic (bs : List Bool) : Option (List Nat × List Nat × List Bool) := do
  let (hlit, bs) ← takeBits 5 bs
  let (hdist, bs) ← takeBits 5 bs
  let (hclen, bs) ← takeBits 4 bs
  let (cl, bs) ← (List.range (hclen + 4)).foldl (fun (r : Option (List Nat × List Bool)) i => do
    let (l, bs) ← r
    let (x, bs) ← takeBits 3 bs
    some (setNth l (nth clOrder i 0) x, bs)) (some (List.replicate 19 0, bs))
  if 29 < hlit || !completeSet cl then none
  else do
    let (ls, bs) ← readLens (canonCodes cl) (hlit + hdist + 258) 400 [] bs
    let all := ls.reverse
    let lit := all.take (hlit + 257)
    let dist := all.drop (hlit + 257)
    if completeSet lit && distSetOk dist then some (lit, dist, bs) else none

/-- The fixed literal code lengths (RFC 1951). -/
def fixedLit : List Nat := List.replicate 144 8 ++ List.replicate 112 9 ++ List.replicate 24 7 ++ List.replicate 8 8

/-- A stored block: bytes after the byte boundary (R255). -/
def inflateStored (cap : Nat) (out : List Byte) (bs : List Bool) : Inf :=
  match takeBits 16 (bs.drop (bs.length % 8)) with
  | none => .bad
  | some (n, bs) =>
    match takeBits 16 bs with
    | none => .bad
    | some (m, bs) =>
      if n + m ≠ 65535 then .bad
      else
        let bytes := (List.range n).map fun i => BitVec.ofNat 8 ((takeBits 8 (bs.drop (8 * i))).getD (0, [])).1
        if bs.length < 8 * n then (if cap < out.length + bs.length / 8 then .full else .bad)
        else if cap < out.length + n then .full
        else .ok (bytes.reverse ++ out) (bs.drop (8 * n))

/-- The blocks of a stream up to the final one. -/
def inflateBlocks (cap : Nat) : Nat → List Byte → List Bool → Inf
  | 0, _, _ => .bad
  | fuel + 1, out, bs =>
    match takeBits 3 bs with
    | none => .bad
    | some (h, bs) =>
      let r : Inf :=
        match h / 2 with
        | 0 => inflateStored cap out bs
        | 1 => inflateSyms (canonCodes fixedLit) (canonCodes (List.replicate 32 5)) cap (bs.length + 1) out bs
        | 2 =>
          match readDynamic bs with
          | none => .bad
          | some (l, d, bs) => inflateSyms (canonCodes l) (canonCodes d) cap (bs.length + 1) out bs
        | _ => .bad
      match r with
      | .ok out bs => if h % 2 = 1 then .ok out bs else inflateBlocks cap fuel out bs
      | r => r

/-- What decoding a wrapped source gives: the bytes, or the status of R262. -/
abbrev Plain := Except Nat (List Byte)

/-- A raw stream and the bytes after it. -/
def inflateRaw (bs : List Byte) (cap : Nat) : Except Nat (List Byte × List Byte) :=
  match inflateBlocks cap (8 * bs.length + 1) [] (bitsOf bs) with
  | .ok out rest => .ok (out.reverse, bs.drop (bs.length - rest.length / 8))
  | .bad => .error 0x0422
  | .full => .error 0x0423

/-- A zlib stream (R254). -/
def inflateZlib (bs : List Byte) (cap : Nat) : Plain :=
  let h := fieldLE bs 0 1 * 256 + fieldLE bs 1 1
  if bs.length < 2 || h % 31 ≠ 0 || h / 256 % 16 ≠ 8 || 7 < h / 4096 then .error 0x0425
  else if bit h 5 then .error 0x0427
  else
    match inflateRaw (bs.drop 2) cap with
    | .error e => .error e
    | .ok (out, rest) =>
      if rest.length < 4 || leNat (rest.take 4).reverse ≠ adler32 out then .error 0x0425
      else if rest.length ≠ 4 then .error 0x0422
      else .ok out

/-- The bytes after a field that ends in a zero byte. -/
def skipZero (bs : List Byte) : Option (List Byte) :=
  match bs.dropWhile (· ≠ 0) with
  | [] => none
  | _ :: r => some r

/-- The bytes after a gzip member's header; none where it is not valid (R254). -/
def gzipHeader (bs : List Byte) : Option (List Byte) := do
  let flg := fieldLE bs 3 1
  if bs.length < 10 || fieldLE bs 0 3 ≠ 0x088B1F || 32 ≤ flg then none
  else do
    let r := bs.drop 10
    let r ← if bit flg 2 then (if r.length < 2 + fieldLE r 0 2 then none else some (r.drop (2 + fieldLE r 0 2))) else some r
    let r ← if bit flg 3 then skipZero r else some r
    let r ← if bit flg 4 then skipZero r else some r
    if bit flg 1 then
      (if r.length < 2 || fieldLE r 0 2 ≠ (crc32 (bs.take (bs.length - r.length))).toNat % 65536 then none else some (r.drop 2))
    else some r

/-- The members of a gzip source, joined (R254). -/
def gzipMembers : Nat → List Byte → Nat → Plain
  | 0, _, _ => .error 0x0426
  | fuel + 1, bs, cap =>
    match gzipHeader bs with
    | none => .error 0x0426
    | some body =>
      match inflateRaw body cap with
      | .error e => .error e
      | .ok (out, rest) =>
        if rest.length < 8 || fieldLE rest 0 4 ≠ (crc32 out).toNat || fieldLE rest 4 4 ≠ out.length % 2 ^ 32 then .error 0x0426
        else if rest.length = 8 then .ok out
        else (gzipMembers fuel (rest.drop 8) (cap - out.length)).map fun more => out ++ more

/-- A source decoded under a WRAP code (R254, R257): 0 raw, 1 zlib, 2 gzip. -/
def inflateWrap (wrap : Nat) (bs : List Byte) (cap : Nat) : Plain :=
  match wrap with
  | 0 => match inflateRaw bs cap with
    | .ok (out, []) => .ok out
    | .ok _ => .error 0x0422
    | .error e => .error e
  | 1 => inflateZlib bs cap
  | _ => gzipMembers (bs.length + 1) bs cap

/-- The largest size n bytes encode to under a wrapper (R249). -/
def deflateBound (n wrap : Nat) : Nat := n + 5 * ceilDiv n 65535 + (if wrap = 0 then 0 else if wrap = 1 then 6 else 18)

end Sys2Proof.Machine
end

