-- ==== Sys2Proof/Machine/ArcMedia.lean ====
section
/-! DEFINITION. Machine/ArcMedia.lean: what ARC writes as bytes: map entries and pages (R275, R276), journal records and the ring
(R286, R287), labels (R268), checkpoint slots (R276), progress records and the vault's control area (R326), and reading them back.
Bytes are little-endian. -/

namespace Sys2Proof.Machine

/-! ## Fields and check values -/

/-- CRC32C (log entry 141). -/
def crc32c (bs : List Byte) : Word := ~~~crcOver 0x82F63B78 (-1) bs

/-- The CRC-64 of blocks taken together (R167, R326). -/
def crc64Blocks (bs : List (List Byte)) : DWord := ~~~bs.foldl (crcOver 0xC96C5795D7870F42) (-1)

/-- A little-endian record from its fields, (offset, width, value) each. -/
def layOut (n : Nat) (fs : List (Nat × Nat × Nat)) : List Byte :=
  fs.foldl (fun bs f => bs.take f.1 ++ natLE f.2.1 f.2.2 ++ bs.drop (f.1 + f.2.1)) (List.replicate n 0)

/-- A 4 KiB record with the CRC-64 of its first 4,088 bytes in the last eight (R268, R326). -/
def closeRecord (fs : List (Nat × Nat × Nat)) : List Byte :=
  let b := layOut 4088 fs
  b ++ natLE 8 (crc64 b).toNat

/-- Whether a 4 KiB record opens with this MAGIC and its CRC is good. -/
def recordGood (magic : Nat) (b : List Byte) : Bool := fieldLE b 0 4 = magic && fieldLE b 0xFF8 8 = (crc64 (sub b 0 4088)).toNat

/-! ## Map entries and pages (R275, R276) -/

/-- The leaf entries of a run, of at most 64 blocks each, as 128-bit words (R275). -/
def Extent.words (e : Extent) : List Nat :=
  (List.range e.entries).map fun i =>
    (e.vlba + 64 * i) % 2 ^ 40 * 2 ^ 88 + (min 64 (e.len - 64 * i) - 1) * 2 ^ 82 + e.kind % 4 * 2 ^ 80
      + (if e.kind = 0 then (e.abn + 64 * i) % 2 ^ 40 else 0) * 2 ^ 40 + e.seq % 2 ^ 40

/-- The run that a leaf entry describes (R275). -/
def extentOf (w : Nat) : Extent :=
  { vlba := bits w 127 88, len := bits w 87 82 + 1, kind := bits w 81 80, abn := bits w 79 40, seq := bits w 39 0 }

/-- A map page: its header and 16-byte entries, with the CRC-64 of the page, that field taken as zero, at 0x38 (R276; log entry 142). -/
def mapPageBytes (volume level first seq : Nat) (entries : List Nat) : List Byte :=
  let head := fun (crc : Nat) => layOut 64
    [(0, 4, 0x504D5A44), (4, 2, volume), (6, 1, level), (8, 4, entries.length), (12, 8, first), (20, 8, seq), (0x38, 8, crc)]
  let body := sub (entries.flatMap (natLE 16)) 0 (65536 - 64)
  head (crc64 (head 0 ++ body)).toNat ++ body

/-- The entries of a leaf from block lo to hi of a map (R275, R276). -/
def leafEntries (m : List Extent) (lo hi : Nat) : List Nat := (mapIn m lo hi).flatMap Extent.words

/-- A root entry: FIRST_VLBA, the leaf's COUNT and its system page number (R276). -/
def rootEntry (first count page : Nat) : Nat := first % 2 ^ 40 * 2 ^ 88 + count % 2 ^ 12 * 2 ^ 64 + page % 2 ^ 32 * 2 ^ 32

/-- The root pages' entries of a volume, 4,092 in each (R276, R277). -/
def Vol.rootEntries (v : Vol) : List Nat :=
  (leafSpans v.vblk v.leaves).map fun e => rootEntry e.1.first (entriesIn v.map e.1.first e.2) (e.1.page.getD 0)

/-- What stands in a page that the array's system volume holds: VOLUME, LEVEL, FIRST_VLBA and the entries; none where MAGIC or
CRC is wrong (R276). -/
def pageOf (b : List Byte) : Option (Nat × Nat × Nat × List Nat) :=
  if fieldLE b 0 4 = 0x504D5A44 && fieldLE b 0x38 8 = (crc64 (sub b 0 0x38 ++ natLE 8 0 ++ sub b 64 (65536 - 64))).toNat then
    some (fieldLE b 4 2, fieldLE b 6 1, fieldLE b 12 8, (List.range (min 4092 (fieldLE b 8 4))).map fun i => fieldLE b (64 + 16 * i) 16)
  else none

/-- A directory page: 8,192 entries of 8 bytes, bit 63 VALID and bits 39:0 the ABN of the page's first block (R276). -/
def dirPage (m : List Extent) (j : Nat) : List Byte :=
  (List.range 8192).flatMap fun i => natLE 8 (match mapAt m (16 * (8192 * j + i)) with
    | some e => 2 ^ 63 + (e.abn + (16 * (8192 * j + i) - e.vlba)) % 2 ^ 40
    | none => 0)

/-- The runs of the system volume that a directory page gives. -/
def dirRuns (j : Nat) (b : List Byte) : List Extent :=
  (List.range 8192).filterMap fun i =>
    let w := fieldLE b (8 * i) 8
    if bit w 63 then some ⟨16 * (8192 * j + i), 16, 0, bits w 39 0, 0⟩ else none

/-- A checkpoint as its slot holds it: CKPT_SEQ and the ABN of each directory page (R276). -/
structure Ckpt where
  seq : Nat
  dirs : List Nat
  deriving DecidableEq, Repr

/-- A checkpoint slot's bytes: MAGIC, CKPT_SEQ, DIR_COUNT, the ABNs, and the CRC-64 of what precedes it (R276; log entry 142). -/
def Ckpt.bytes (c : Ckpt) : List Byte :=
  let b := natLE 4 0x4B435A44 ++ natLE 8 c.seq ++ natLE 4 c.dirs.length ++ c.dirs.flatMap (natLE 8)
  b ++ natLE 8 (crc64 b).toNat

/-- The checkpoint that a slot's 256 KiB hold. -/
def ckptOf (b : List Byte) : Option Ckpt :=
  let n := fieldLE b 12 4
  if fieldLE b 0 4 = 0x4B435A44 && n ≤ 16384 && fieldLE b (16 + 8 * n) 8 = (crc64 (sub b 0 (16 + 8 * n))).toNat then
    some { seq := fieldLE b 4 8, dirs := (List.range n).map fun i => fieldLE b (16 + 8 * i) 8 }
  else none

/-! ## Labels (R268) -/

/-- A label's 4 KiB (R268). -/
def Label.bytes (l : Label) : List Byte :=
  closeRecord ([(0, 4, 0x4C415A44), (4, 4, 1), (0x08, 16, l.arrayId.toNat), (0x18, 8, l.seq), (0x20, 1, l.array), (0x21, 1, l.k), (0x22, 1, l.m),
    (0x23, 1, l.pos), (0x24, 4, l.vault), (0x28, 4, l.s), (0x2C, 4, l.state)]
    ++ (List.range 36).map fun p => (0x30 + p, 1, b2n (l.failed.getLsbD p)))

/-- The label that a block holds; none where MAGIC, FORMAT or CRC is wrong (R268). -/
def labelOf (b : List Byte) : Option Label :=
  if recordGood 0x4C415A44 b && fieldLE b 4 4 = 1 then
    some
      { arrayId := BitVec.ofNat 128 (fieldLE b 8 16), seq := fieldLE b 0x18 8, array := fieldLE b 0x20 1, k := fieldLE b 0x21 1
        m := fieldLE b 0x22 1, pos := fieldLE b 0x23 1, vault := fieldLE b 0x24 4, s := fieldLE b 0x28 4, state := fieldLE b 0x2C 4
        failed := (List.range 36).foldl (fun f p => if fieldLE b (0x30 + p) 1 = 1 then f ||| BitVec.ofNat 36 (2 ^ p) else f) 0 }
  else none

/-! ## The control area of the vault region (R326) -/

/-- A byte that names a position, 0xFF for none. -/
def posOr (p : Option Nat) : Nat := p.getD 255
/-- The position that a byte names. -/
def posFrom (n : Nat) : Option Nat := if n = 255 then none else some n

/-- A progress record's 4 KiB (R326). -/
def Progress.bytes (arrayId : BitVec 128) (p : Progress) : List Byte :=
  closeRecord [(0, 4, 0x52505A44), (0x08, 16, arrayId.toNat), (0x18, 8, p.pseq), (0x20, 8, p.ckptSeq), (0x28, 4, p.rbCur), (0x2C, 1, posOr p.rbPos),
    (0x2D, 1, p.rsPhase), (0x2E, 1, p.kOld), (0x2F, 1, p.mOld), (0x30, 4, p.sOld), (0x34, 4, p.bd), (0x38, 1, posOr p.oldPos),
    (0x39, 1, posOr p.newPos), (0x40, 8, p.moved)]

/-- The progress record that a block holds for an array. -/
def progressOf (arrayId : BitVec 128) (b : List Byte) : Option Progress :=
  if recordGood 0x52505A44 b && fieldLE b 8 16 = arrayId.toNat then
    some
      { pseq := fieldLE b 0x18 8, ckptSeq := fieldLE b 0x20 8, rbCur := fieldLE b 0x28 4, rbPos := posFrom (fieldLE b 0x2C 1)
        rsPhase := fieldLE b 0x2D 1, kOld := fieldLE b 0x2E 1, mOld := fieldLE b 0x2F 1, sOld := fieldLE b 0x30 4, bd := fieldLE b 0x34 4
        oldPos := posFrom (fieldLE b 0x38 1), newPos := posFrom (fieldLE b 0x39 1), moved := fieldLE b 0x40 8 }
  else none

/-- A vault header's 4 KiB (R326). -/
def VaultHdr.bytes (h : VaultHdr) : List Byte :=
  closeRecord [(0, 4, 0x48565A44), (4, 4, 1), (0x08, 16, h.arrayId.toNat), (0x18, 8, h.ckptSeq), (0x20, 8, h.freezeSeq), (0x28, 8, h.alm.toNat),
    (0x30, 4, h.x), (0x34, 4, h.cblk), (0x38, 4, h.jtail), (0x3C, 1, h.ns), (0x3D, 1, h.vidx)]

/-- The vault header that a block holds. -/
def vaultHdrOf (b : List Byte) : Option VaultHdr :=
  if recordGood 0x48565A44 b && fieldLE b 4 4 = 1 then
    some
      { arrayId := BitVec.ofNat 128 (fieldLE b 8 16), ckptSeq := fieldLE b 0x18 8, freezeSeq := fieldLE b 0x20 8
        alm := BitVec.ofNat 64 (fieldLE b 0x28 8), x := fieldLE b 0x30 4, cblk := fieldLE b 0x34 4, jtail := fieldLE b 0x38 4
        ns := fieldLE b 0x3C 1, vidx := fieldLE b 0x3D 1 }
  else none

/-- The in-use bitmap's block j: bit i of the bitmap for cache block i (R326). -/
def bitmapBlock (ixs : List Nat) (j : Nat) : List Byte :=
  (List.range 4096).map fun b => BitVec.ofNat 8 ((List.range 8).foldl (fun n i => n + b2n (ixs.contains (8 * (4096 * j + b) + i)) * 2 ^ i) 0)

/-- The cache blocks that a bitmap names, rising. -/
def bitmapOf (bs : List (List Byte)) : List Nat :=
  bs.zipIdx.flatMap fun e => if e.1 = zeroBlock then [] else
    e.1.zipIdx.flatMap fun b => (List.range 8).filterMap fun i => if b.1.getLsbD i then some (8 * (4096 * e.2 + b.2) + i) else none

/-- A seal record's 4 KiB for a header, the slots written and their CRC (R326). -/
def sealBytes (h : VaultHdr) (slots : List (List Byte)) : List Byte :=
  closeRecord [(0, 4, 0x53565A44), (0x08, 16, h.arrayId.toNat), (0x18, 8, h.ckptSeq), (0x20, 8, h.freezeSeq), (0x28, 4, slots.length),
    (0x2C, 1, h.vidx), (0x30, 8, (crc64Blocks slots).toNat)]

/-- Whether a block holds the seal of a header's stream over these slots (R326, R332 step 3). -/
def sealGood (h : VaultHdr) (b : List Byte) (slots : Nat → List (List Byte)) : Bool :=
  recordGood 0x53565A44 b && fieldLE b 8 16 = h.arrayId.toNat && fieldLE b 0x18 8 = h.ckptSeq && fieldLE b 0x20 8 = h.freezeSeq
    && fieldLE b 0x2C 1 = h.vidx && fieldLE b 0x30 8 = (crc64Blocks (slots (fieldLE b 0x28 4))).toNat

/-- Writes of an image of x blocks that go to VIDX v of ns: the image slots it fills (R329). -/
def slotsOfVidx (x ns v : Nat) : Nat := if v < 2 * x then (2 * x - v + ns - 1) / ns else 0

/-! ## The journal as bytes (R286, R287) -/

/-- TYPE of a record (R287). -/
def JBody.type : JBody → Nat
  | .stripeOpen .. => 1
  | .parity .. => 2
  | .mapDelta .. => 3
  | .moveDelta .. => 4
  | .stripeCommit .. => 5
  | .stripeFree .. => 6
  | .checkpoint .. => 7
  | .write .. => 8
  | .writeDone _ => 9
  | .trim .. => 10

/-- The body of a record, before its padding (R287). -/
def JBody.bytes : JBody → List Byte
  | .stripeOpen st gen stream => natLE 4 st ++ natLE 4 gen ++ natLE 1 stream
  | .parity st state mask => natLE 4 st ++ natLE 1 state ++ natLE 8 mask.toNat
  | .mapDelta v es => natLE 2 (journalVol v) ++ natLE 2 es.length ++ (es.flatMap Extent.words).flatMap (natLE 16)
  | .moveDelta v e victim => natLE 2 (journalVol v) ++ (e.words.flatMap (natLE 16)) ++ natLE 8 victim
  | .stripeCommit st gen live => natLE 4 st ++ natLE 4 gen ++ natLE 2 live
  | .stripeFree st gen => natLE 4 st ++ natLE 4 gen
  | .checkpoint seq slot => natLE 8 seq ++ natLE 1 slot
  | .write v ctx gen lba bs => natLE 2 (journalVol v) ++ natLE 2 ctx.toNat ++ natLE 2 gen.toNat ++ natLE 2 bs.length ++ natLE 8 lba ++ bs.flatMap (natLE 4)
  | .writeDone seq => natLE 8 seq
  | .trim v kind lba n => natLE 2 (journalVol v) ++ natLE 1 kind ++ natLE 8 lba ++ natLE 8 n

/-- A record's bytes: its header, CRC32C among it, and its body padded to 16 bytes (R286). -/
def JRec.bytes (r : JRec) : List Byte :=
  let n := r.body.size
  let all := fun (crc : Nat) => natLE 1 r.body.type ++ natLE 1 (n / 16) ++ natLE 2 0 ++ natLE 4 crc ++ natLE 8 r.seq ++ sub r.body.bytes 0 (n - 16)
  all (crc32c (all 0)).toNat

/-- The body that a record of this TYPE holds (R287), for array a. -/
def bodyOf (a type : Nat) (b : List Byte) : Option JBody :=
  let v := journalVolOf a (fieldLE b 0 2)
  match type with
  | 1 => some (.stripeOpen (fieldLE b 0 4) (fieldLE b 4 4) (fieldLE b 8 1))
  | 2 => some (.parity (fieldLE b 0 4) (fieldLE b 4 1) (BitVec.ofNat 64 (fieldLE b 5 8)))
  | 3 => some (.mapDelta v ((List.range (fieldLE b 2 2)).map fun i => extentOf (fieldLE b (4 + 16 * i) 16)))
  | 4 => some (.moveDelta v (extentOf (fieldLE b 2 16)) (fieldLE b 18 8))
  | 5 => some (.stripeCommit (fieldLE b 0 4) (fieldLE b 4 4) (fieldLE b 8 2))
  | 6 => some (.stripeFree (fieldLE b 0 4) (fieldLE b 4 4))
  | 7 => some (.checkpoint (fieldLE b 0 8) (fieldLE b 8 1))
  | 8 => some (.write v (BitVec.ofNat 13 (fieldLE b 2 2)) (BitVec.ofNat 16 (fieldLE b 4 2)) (fieldLE b 8 8)
      ((List.range (fieldLE b 6 2)).map fun i => fieldLE b (16 + 4 * i) 4))
  | 9 => some (.writeDone (fieldLE b 0 8))
  | 10 => some (.trim v (fieldLE b 2 1) (fieldLE b 3 8) (fieldLE b 11 8))
  | _ => none

/-- Block x of the ring as the records make it (R286, R329); where none lies it reads zeros (log entry 143). -/
def ringBlock (js : List JRec) (x : Nat) : List Byte :=
  js.foldl (fun (b : List Byte) r =>
    let d := (r.ofs + ringBytes - 4096 * x) % ringBytes
    if d < 4096 then
      let bs := r.bytes.take (4096 - d)
      b.take d ++ bs ++ b.drop (d + bs.length)
    else if ringBytes < d + r.body.size then
      let bs := (r.bytes.drop (ringBytes - d)).take 4096
      bs ++ b.drop bs.length
    else b) zeroBlock

/-- The records that stand in the ring's blocks, read at every 16 bytes where a good header stands; a lost block has none (R286, R332). -/
def recordsIn (a : Nat) (ring : Nat → Option (List Byte)) : List JRec :=
  (List.range 4096).flatMap fun x =>
    match ring x with
    | none => []
    | some b =>
      if b = zeroBlock then []
      else
        (List.range 256).filterMap fun i =>
          let n := 16 * fieldLE b (16 * i + 1) 1
          let whole := 16 * i + n ≤ 4096
          let next := if whole then some [] else ring ((x + 1) % 4096)
          if n < 16 || fieldLE b (16 * i + 2) 2 ≠ 0 then none
          else
            match next with
            | none => none
            | some t =>
              let r := (b.drop (16 * i) ++ t).take n
              if fieldLE r 4 4 = (crc32c (r.take 4 ++ natLE 4 0 ++ r.drop 8)).toNat then
                (bodyOf a (fieldLE r 0 1) (r.drop 16)).map fun body => ⟨fieldLE r 8 8, 4096 * x + 16 * i, body⟩
              else none

/-- Records in rising SEQ. -/
def sortRecs (js : List JRec) : List JRec :=
  js.foldr (fun r l => l.takeWhile (fun y => y.seq < r.seq) ++ r :: l.dropWhile (fun y => y.seq < r.seq)) []

end Sys2Proof.Machine
end

