-- ==== Sys2Proof/Machine/Evc.lean ====
section
/-! DEFINITION. Machine/Evc.lean: the event controller: sources, pins, steward entry and exit, PF0 messages (R423 to
R437). -/

namespace Sys2Proof.Machine

/-! ## Arbitration (R426) -/

/-- A pending event a steward could take: its priority, 0 for a private source and 1 for a shared one, its number. -/
abbrev Cand := Nat × Nat × Nat

/-- Whether candidate a is taken before b: priority, then private before shared, then the lower number (R426). -/
def candBefore (a b : Cand) : Bool :=
  a.1 < b.1 || (a.1 = b.1 && (a.2.1 < b.2.1 || (a.2.1 = b.2.1 && a.2.2 < b.2.2)))

/-- The candidate taken first. -/
def firstCand : List Cand → Option Cand
  | [] => none
  | c :: cs =>
    match firstCand cs with
    | none => some c
    | some d => if candBefore d c then some d else some c

/-- The pending events of steward w (R424 to R426): a source that is ACT waits for the end of its handling (R423); the shared ones wait while
EVC is gated (R435). -/
def State.stwCands (s : State) (w : Nat) : List Cand :=
  (s.evc.privs.filterMap fun e =>
      if 64 * w ≤ e.1 && e.1 < 64 * (w + 1) && e.2.en && e.2.pend && !e.2.act then some (e.2.prio.toNat, 0, e.1 - 64 * w) else none)
    ++ (if s.evc.gated then [] else s.evc.routes.filterMap fun e =>
      if e.2.en && e.2.pend && !e.2.act && !e.2.pf0 && e.2.stw.toNat = w then some (e.2.prio.toNat, 1, e.1) else none)

/-- The pending events routed to PF0, those still ACT waiting for their acknowledgement (R423, R434). -/
def State.pf0Cands (s : State) : List Cand :=
  if s.evc.gated then [] else s.evc.routes.filterMap fun e =>
    if e.2.en && e.2.pend && !e.2.act && e.2.pf0 then some (e.2.prio.toNat, 1, e.1) else none

/-- A source's ACT clears, and a level source is sampled again (R427): shared source n, or private source n - 2048. -/
def State.ackSource (s : State) (n : Nat) : State :=
  if n < 2048 then s.updRoute n fun r => { r with act := false, pend := r.pend || (isLevel n && s.levelIn n) }
  else { s with evc := { s.evc with privs := upd {} s.evc.privs (n - 2048) fun r => { r with act := false } } }

/-! ## Sources and pins -/

/-- EDGE_EVENT (R423). -/
def execEdgeEvent (src : Nat) (s : State) : Out1 :=
  when_ (src < 2048 && !isLevel src && !srcReserved src && !s.srcAbsent src) "no such edge source" (s.raise src)

/-- LEVEL_SOURCE_ASSERT (R423). -/
def execLevelSourceAssert (src : Nat) (s : State) : Out1 :=
  when_ (isLevel src && !s.srcAbsent src && s.levelIn src) "no level source asserts this input"
    (if (s.route src).act && !s.evc.gated then s else s.raise src)

/-- A pin record. -/
def State.pin (s : State) (i : Nat) : Pin := look {} s.evc.pins i

/-- f applied to a pin record. -/
def State.updPin (s : State) (i : Nat) (f : Pin → Pin) : State :=
  { s with evc := { s.evc with pins := upd {} s.evc.pins i f } }

/-- PIN_RAW_LEVEL_CHANGE (R428): the count starts or restarts with FILT as it stands. -/
def execPinRawLevelChange (pin : Nat) (level : Bool) (s : State) : Out1 :=
  when_ (pin < 4 && (s.pin pin).raw ≠ level) "the raw level does not change"
    (s.updPin pin fun p => { p with raw := level, counting := level ≠ p.flt, filtUsed := p.filt })

/-- One SCLK of the pins' filters (R428). -/
def State.pinSclk (s : State) : State :=
  { s with evc := { s.evc with pins := s.evc.pins.map fun (e : Nat × Pin) =>
    (e.1, if e.2.counting then { e.2 with filtUsed := e.2.filtUsed - if e.2.filtUsed = 0 then 0 else 1 } else e.2) } }

/-- PIN_FILTER_EXPIRY (R428): after FILT more SCLK the filtered level follows; a level source asserts, TSYNC's rising edge pends (R424). -/
def execPinFilterExpiry (pin : Nat) (s : State) : Out1 :=
  if pin < 4 && (s.pin pin).counting && (s.pin pin).filtUsed = 0 then
    let p := s.pin pin
    let s1 := s.updPin pin fun x => { x with flt := x.raw, counting := false }
    .next (if pin = 1 then (if p.raw then s1.raise 1 else s1)
           else if s1.levelIn pin && !(s1.route pin).act then s1.raise pin else s1)
  else no "the pin's filter does not count"

/-! ## Steward entry and exit (R429 to R433) -/

/-- The registers G1 to G6 of a steward, as a list. -/
def stwRegs (x : Steward) : List DWord := (List.range 6).map fun i => look 0 x.g (i + 1)

/-- G1 to G6 restored from a list. -/
def regsOf (l : List DWord) : SMap DWord := l.zipIdx.foldl (fun m e => put 0 m (e.2 + 1) e.1) []

/-- The number by which a steward's frame and vector table know candidate c of steward w: a shared source's own, 2048 + 64 w + i for
the private ones. -/
def candSrc (w : Nat) (c : Cand) : Nat := if c.2.1 = 0 then 2048 + 64 * w + c.2.2 else c.2.2

/-- The words of a frame as stacked (R429): PC, status, G1 to G6. -/
def StwFrame.words (f : StwFrame) : List DWord := f.pc :: f.status :: f.g

/-- Where level k of steward w's hardware stack lies in the stewards' local memory (R31, R426): 64 B per level in the top 1 KiB, level 0
lowest (log entry 124). -/
def stackAt (w k : Nat) : Nat := w * 0x40000 + 0x3FC00 + 64 * k

/-- A frame is stacked by the hardware (R426, R429). -/
def State.stackFrame (s : State) (w : Nat) (f : StwFrame) : State :=
  { s with stwLocal := memWrite s.stwLocal (stackAt w (s.stw w).stack.length) (f.words.flatMap fun (d : DWord) => natLE 8 d.toNat) }.updStw w
    fun y => { y with stack := f :: y.stack }

/-- Arbitration takes source n: PEND clears, ACT sets (R429). -/
def State.takeSource (s : State) (n : Nat) : State :=
  if n < 2048 then s.updRoute n fun r => { r with pend := false, act := true }
  else { s with evc := { s.evc with privs := upd {} s.evc.privs (n - 2048) fun r => { r with pend := false, act := true } } }

/-- An entering event gives way: its ACT clears and its PEND sets again (R430). -/
def State.yieldSource (s : State) (n : Nat) : State :=
  if n < 2048 then s.updRoute n fun r => { r with pend := true, act := false }
  else { s with evc := { s.evc with privs := upd {} s.evc.privs (n - 2048) fun r => { r with pend := true, act := false } } }

/-- The event that may take over steward w's entry, or stop its exit (R430, R432): it outranks the entering event, or the priority
that is returned to. -/
def State.takeover (s : State) (w : Nat) (q : StwSeq) : Option Cand :=
  let limit := if q.exiting then (match (s.stw w).stack with | f :: _ => f.prio | [] => 16) else q.prio
  match firstCand (s.stwCands w) with
  | some c => if c.1 < limit then some c else none
  | none => none

/-- Candidate c takes over at SCLK k (R430, R432): nothing is stacked again, and the frame that stands is now its handler's; from SCLK 9 of
an entry, and in an exit, the vector is read anew and the handler issues four SCLK later. -/
def State.takeOver (s : State) (w : Nat) (q : StwSeq) (c : Cand) : State :=
  let s1 := if q.exiting then s else s.yieldSource q.src
  let n := candSrc w c
  (s1.takeSource n).updStw w fun y =>
    { y with seq := some { exiting := false, k := if q.exiting || 9 ≤ q.k then 8 else q.k, prio := c.1, src := n }
             stack := match y.stack with | f :: rest => { f with src := n } :: rest | [] => [] }

/-- SCLK 12 (R429, R431): the handler issues at its priority, or the stacked state is restored. -/
def State.seqEnd (s : State) (w : Nat) (q : StwSeq) : State :=
  s.updStw w fun y =>
    if q.exiting then
      match y.stack with
      | f :: rest => { y with seq := none, stack := rest, pc := f.pc, status := f.status, g := regsOf f.g, cur := f.prio }
      | [] => { y with seq := none }
    else { y with seq := none, pc := Config.vectorEntry w q.src, cur := q.prio }

/-- One SCLK of steward w (R429 to R432). -/
def State.stwSclk (s : State) (w : Nat) : State :=
  match (s.stw w).seq with
  | none => s
  | some q =>
    let q1 := { q with k := q.k + 1 }
    if 12 ≤ q1.k then s.seqEnd w q1
    else match s.takeover w q1 with
      | some c => s.takeOver w q1 c
      | none => s.updStw w fun y => { y with seq := some q1 }

/-- HANDLER_ENTRY (R426, R429, R430, R432): arbitration chooses an event; PEND clears, ACT sets, the state is stacked, and the entry's
SCLK begin; an entry or exit that is under way is taken over without stacking again, an exit from its first SCLK on (R433). -/
def execHandlerEntry (w : Nat) (s : State) : Out1 :=
  let x := s.stw w
  match x.seq with
  | some q =>
    match s.takeover w q with
    | some c =>
      if q.exiting && q.k = 0 then no "the exit stops at its first SCLK"
      else if w < 4 && x.inService then .next (s.takeOver w q c)
      else no "the steward is out of service"
    | none => no "no pending event takes over"
  | none =>
    match firstCand (s.stwCands w) with
    | none => no "no event is pending for the steward"
    | some c =>
      if w < 4 && x.inService && c.1 < x.cur && x.stack.length < 16 then
        let n := candSrc w c
        .next (((s.takeSource n).stackFrame w { pc := x.pc, status := x.status, g := stwRegs x, prio := x.cur, src := n }).updStw w
          fun y => { y with seq := some { exiting := false, k := 0, prio := c.1, src := n } })
      else no "no pending event outranks the steward's current priority"

/-- ERET (R427, R431): ACT clears, level sources are sampled again, and the exit's SCLK begin. -/
def execEret (w : Nat) (s : State) : Out1 :=
  let x := s.stw w
  match x.stack with
  | [] => no "the steward runs no handler"
  | f :: _ =>
    when_ x.seq.isNone "the steward enters or leaves a handler"
      ((s.ackSource f.src).updStw w fun y => { y with seq := some { exiting := true, k := 0, prio := f.prio, src := f.src } })

/-! ## PF0 targets (R434) -/

/-- PF0_EVENT_MESSAGE (R434): the event taken first sends its vector and becomes ACT. -/
def execPf0EventMessage (s : State) : Out1 :=
  match firstCand s.pf0Cands with
  | none => no "no event is pending for PF0"
  | some c =>
    .next ((s.updRoute c.2.2 fun r => { r with pend := false, act := true }).msix 0 (s.route c.2.2).vec.toNat)

/-- A write of EVC_HACK (R434): PF0's alone. -/
def State.writeHack (s : State) (r : Req) (v : Word) : State :=
  if r ≠ .pf0 then s
  else
    let n := bits v.toNat 10 0
    if (s.route n).act && (s.route n).pf0 then s.ackSource n
    else { s with evc := { s.evc with hackBad := satInc s.evc.hackBad } }

/-- EVC_HACK_WRITE (R434). -/
def execEvcHackWrite (r : Req) (v : Word) (s : State) : Out1 := busRow s r 0x20204 v (s.writeHack r v)

/-- A write of EVC_SWSET (R437); a number that names no software source sets nothing (log entry 33). -/
def State.writeSwset (s : State) (v : Word) : State :=
  let n := bits v.toNat 10 0
  if bit v.toNat 31 then
    (if 8 ≤ n && n < 64 then s.raisePriv (bits v.toNat 17 16) n else s)
  else if n < 1024 then s.raise (1024 + n) else s

/-- EVC_SWSET_WRITE (R437). -/
def execEvcSwsetWrite (r : Req) (v : Word) (s : State) : Out1 := busRow s r 0x20200 v (s.writeSwset v)

/-- A write of an EVC_ROUTE record (R433, R436, R437). -/
def State.writeRoute (s : State) (r : Req) (src : Nat) (v : Word) : State :=
  let n := v.toNat
  if (s.ccr .evc).queue.contains (.evcRoute src) then s.holdWrite .evc r (0x2A000 + 4 * src) v
  else if (s.route src).en then
    s.updRoute src fun x => { x with en := bit n 31, wake := bit n 27, pend := x.pend && (bit n 31 || !x.act) }
  else
    let s1 := s.updRoute src fun x =>
      { x with wake := bit n 27, prio := BitVec.ofNat 4 (bits n 23 20), pf0 := bit n 19, stw := BitVec.ofNat 2 (bits n 17 16)
               vec := BitVec.ofNat 11 (bits n 10 0) }
    if bit n 31 then s1.queueCheck .evc (.evcRoute src) else s1

/-- EVC_ROUTE_ENABLE (R436): the write with EN = 1 (log entry 9). -/
def execEvcRouteEnable (r : Req) (src : Nat) (v : Word) (s : State) : Out1 :=
  if 2048 ≤ src then no "no such source" else busRow s r (0x2A000 + 4 * src) (v ||| 0x80000000) (s.writeRoute r src (v ||| 0x80000000))

/-- A write of a pin's filter (R437). -/
def filterWrite (src : Nat) (i : Instr) : Bool :=
  match i with
  | .registerWrite _ .bar0 o _ => src < 4 && o = 0x20100 + 4 * src
  | _ => false

/-- The EVC route check (R436): a filter is being written while its write stands in the same SCLK (log entry 175). -/
def State.routeCheck (s : State) (src : Nat) : Nat :=
  pickReason [(srcReserved src, 0x7010), (s.comes (filterWrite src), 0x7011), (!(s.route src).pf0 && !(s.stw (s.route src).stw.toNat).inService, 0x7002)]

/-! ## Around PS2 (R435) -/

/-- Every wake restores EVC: the latch is ORed into PEND and every level source is sampled again (R435). -/
def State.evcRestore (s : State) : State :=
  let s1 := s.evc.latch.foldl (fun (x : State) e => x.updRoute e.1 fun r => { r with pend := true }) s
  let s2 := { s1 with evc := { s1.evc with latch := [], gated := false } }
  [0, 2, 3, 74, 77, 79, 80, 81].foldl (fun (x : State) n =>
    if x.levelIn n && !x.srcAbsent n && !(x.route n).act then x.updRoute n fun r => { r with pend := true } else x) s2

end Sys2Proof.Machine
end

