-- ==== Sys2Proof/Machine/Hif.lean ====
section
/-! DEFINITION. Machine/Hif.lean: the queue records, the doorbells and push windows, the fetch of entries, and the
interrupts of completion queues (R344 to R366, R369). -/

namespace Sys2Proof.Machine

/-! ## Functions and their vectors (R341) -/

/-- Whether VF n exists: VF Enable is 1 and n is at most NumVFs. -/
def State.vfExists (s : State) (n : Nat) : Bool := s.hif.vfEnable && 1 ≤ n && n ≤ s.hif.numVfs

/-- The MSI-X vectors of a function (R341, R342). -/
def State.vectorsOf (s : State) (fn : Nat) : Nat := if fn = 0 then 2048 else (look 0 s.hif.granted fn).toNat

/-- The function that serves a queue. -/
def State.queueFn (s : State) (q : Nat) : Nat := fnOf (s.queue q).ctxN

/-- The SQs with SQEN = 1 that name a CQ (R345). -/
def State.sqsOf (s : State) (cq : Nat) : List Nat :=
  s.hif.queues.filterMap fun e => if e.2.sqen && e.2.cqq.toNat = cq then some e.1 else none

/-! ## QTAB records (R345 to R348) -/

/-- A check of a queue that runs or waits (R54). -/
def State.queueChecking (s : State) (q : Nat) : Bool :=
  (s.ccr .hif).queue.any fun o => match o with | .queue x _ _ => x = q | _ => false

/-- The queue check (R347): SQLOG, CQLOG and CQQ are judged for the halves the write enables, VEC for either (log entry 34). -/
def State.queueReason (s : State) (q : Nat) (sq cq : Bool) : Nat :=
  let x := s.queue q
  let c := x.ctxN
  let exist := c = ownerCtx || (c < 4096 && s.vfExists (c + 1))
  let named := s.queue x.cqq.toNat
  let others := s.hif.queues.filter fun e => e.1 ≠ q && (e.2.sqen || e.2.cqen) && e.2.ctxN = c
  let logOk := fun (l : BitVec 5) => 6 ≤ l.toNat && l.toNat ≤ 20
  pickReason
    [(c = 0x1FFF || (c < 4096 && (!tri (s.part c).en || !s.vfExists (c + 1))), 0x2010),
     ((ownerCtx < c && c < 0x1FFF) || (sq && !logOk x.sqlog) || (cq && !logOk x.cqlog)
        || (exist && s.vectorsOf (fnOf c) ≤ x.vec.toNat), 0x2001),
     (sq && !(named.cqen || (cq && x.cqq.toNat = q)), 0x2002),
     (sq && x.cqq.toNat ≠ q && named.ctxN ≠ c, 0x2003),
     (c < 4096 && others.any (fun e => tri e.2.slot = tri x.slot), 0x2005),
     (c < 4096 && (tri (s.part c).qmax).toNat < others.length + 1, 0x2011)]

/-- A passing queue check (R346). -/
def Queue.enabled (x : Queue) (sq cq : Bool) : Queue :=
  let y := if sq then { x with sqen := true, sqp := 0, sqc := 0, push := [], pushed := [], dberr := false, ferr := false
                               fstop := false } else x
  if cq then { y with cqen := true, cqp := 0, cqc := 0, modPend := 0, modTimer := false, modReached := false, pmeSent := false }
  else y

/-- The end of a queue's check (R53, R54, R346). -/
def State.queueCheckEnd (s : State) (q : Nat) (sq cq : Bool) : State :=
  let n := s.queueReason q sq cq
  let s1 := if n = 0 then s.updQueue q fun x => x.enabled sq cq else s
  s1.checkDone .hif n q

/-- Whether a CQ may not be disabled (R348): an enabled SQ names it, or a command fetched for it is not completed into
its ring. -/
def State.cqInUse (s : State) (cq : Nat) : Bool :=
  !(s.sqsOf cq).isEmpty || s.hif.cmds.any (fun c => c.cq = cq && (match c.origin with | .ring _ => true | _ => false))
    || !(s.queue cq).held.isEmpty

/-- A write of Q_CTL (R345, R346, R348). -/
def State.writeQctl (s : State) (q : Nat) (v : Word) : State :=
  let n := v.toNat
  let x := s.queue q
  let sq := bit n 31
  let cq := bit n 30
  let x1 := { x with ien := bit n 29, weight := BitVec.ofNat 4 (bits n 3 0) }
  let x2 := if x.sqen || x.cqen then x1
            else { x1 with cqlog := BitVec.ofNat 5 (bits n 20 16), sqlog := BitVec.ofNat 5 (bits n 12 8) }
  let x3 := if x.sqen && !sq then { x2 with sqen := false, push := [], pushed := [] } else x2
  let s1 := s.setQueue q x3
  let s2 := if x.cqen && !cq && !s1.cqInUse q then s1.updQueue q fun y => { y with cqen := false } else s1
  if (sq && !x.sqen) || (cq && !x.cqen) then s2.queueCheck .hif (.queue q (sq && !x.sqen) (cq && !x.cqen)) else s2

/-- A write of word o of queue q's record (R345, R346): from PF0 and the stewards; any other is discarded (R544). -/
def State.writeQ (s : State) (r : Req) (q o : Nat) (v : Word) : State :=
  if !(match r with | .pf0 => true | .stw _ => true | _ => false) then s
  else if s.queueChecking q then s.holdWrite .hif r (0x800000 + q * 0x40 + o) v
  else
    let n := v.toNat
    let x := s.queue q
    let off := !x.sqen && !x.cqen
    let set := fun (y : Queue) => s.setQueue q y
    if o = 0 then s.writeQctl q v
    else if o = 0x0C then set { x with modUs := BitVec.ofNat 16 (bits n 31 16), modCnt := BitVec.ofNat 16 (bits n 15 0) }
    else if o = 0x30 then set { x with ctmo := BitVec.ofNat 16 (bits n 15 0) }
    else if !off then s
    else if o = 0x04 then
      set { x with ctx := Tri.of (BitVec.ofNat 13 (bits n 28 16)), slot := Tri.of (BitVec.ofNat 12 (bits n 11 0)) }
    else if o = 0x08 then set { x with cqq := BitVec.ofNat 16 (bits n 31 16), vec := BitVec.ofNat 11 (bits n 10 0) }
    else if o = 0x10 then set { x with sqb := setHalf x.sqb false (v &&& 0xFFFFF000) }
    else if o = 0x14 then set { x with sqb := setHalf x.sqb true v }
    else if o = 0x18 then set { x with cqb := setHalf x.cqb false (v &&& 0xFFFFF000) }
    else if o = 0x1C then set { x with cqb := setHalf x.cqb true v }
    else s

/-- A write of a queue record by row (R345): the number names a queue, and a VF does not reach the table. -/
def writeQrow (r : Req) (q : Nat) (v : Word) (s : State) : Out1 :=
  if 65536 ≤ q then no "no such queue" else busRow s r (0x800000 + q * 0x40) v (s.writeQ r q 0 v)

/-- SQ_ENABLE (R346): the write with SQEN = 1 (log entry 9). -/
def execSqEnable (r : Req) (q : Nat) (v : Word) (s : State) : Out1 := writeQrow r q (v ||| 0x80000000) s

/-- CQ_ENABLE (R346): the write with CQEN = 1 (log entry 9). -/
def execCqEnable (r : Req) (q : Nat) (v : Word) (s : State) : Out1 := writeQrow r q (v ||| 0x40000000) s

/-- SQ_DISABLE (R348): the write with SQEN = 0 (log entry 9). -/
def execSqDisable (r : Req) (q : Nat) (v : Word) (s : State) : Out1 := writeQrow r q (v &&& 0x7FFFFFFF) s

/-- CQ_DISABLE (R348): the write with CQEN = 0 (log entry 9). -/
def execCqDisable (r : Req) (q : Nat) (v : Word) (s : State) : Out1 := writeQrow r q (v &&& 0xBFFFFFFF) s

/-! ## Queue windows (R33, R34, R352, R353, R361) -/

/-- The queue a window of BAR2 serves, for the function of a requester (R33, R34, R344). -/
def State.windowQueue (s : State) (r : Req) (win : Nat) : Option Nat :=
  match r with
  | .pf0 => if win < 65536 && ((s.queue win).sqen || (s.queue win).cqen) then some win else none
  | .vf n =>
    (s.hif.queues.find? fun e =>
      (e.2.sqen || e.2.cqen) && e.2.ctxN + 1 = n && e.2.ctxN < 4096 && (tri e.2.slot).toNat = win).map (·.1)
  | _ => none

/-- An access to a window of a host function: f on the queue it serves, otherwise a reserved location (R34, R51). -/
def State.inWindow (s : State) (r : Req) (win ofs : Nat) (wr : Bool) (f : Nat → State) : State :=
  match s.windowQueue r win with
  | some q => f q
  | none => s.reserved r .bar2 (win * 0x1000 + ofs) wr false

/-- Whether a host function can send a window access: PF0, or a VF that exists, to a window of its BAR2. -/
def State.reachesBar2 (s : State) (r : Req) (win : Nat) : Bool :=
  match r with
  | .pf0 => win < 65536
  | .vf n => s.vfExists n && win < 4096
  | _ => false

/-- An invalid doorbell or consumer-index write: discarded; DBERR (R349, R352, R361) and the queue-error event (R424). -/
def State.dbError (s : State) (q : Nat) : State :=
  if (s.queue q).dberr then s else (s.updQueue q fun x => { x with dberr := true }).raise 73

/-- The pushed slots a doorbell to n accepts (R353): the lowest slot not wholly written, or at or beyond n, ends them. -/
def Queue.acceptPush (x : Queue) (n : Word) : SMap (Option Byte) :=
  let whole := fun j => (List.range 32).all fun b => (look none x.push (32 * j + b)).isSome
  let j := ((List.range 8).find? fun j => !(whole j && j < (n - x.sqp).toNat)).getD 8
  (List.range (32 * j)).foldl (fun m i => put none m ((x.sqp + BitVec.ofNat 32 (i / 32)).toNat * 32 + i % 32) (look none x.push i))
    x.pushed

/-- A write of the producer doorbell (R352, R353, R357, R369). -/
def State.doorbell (s : State) (q : Nat) (n : Word) : State :=
  let x := s.queue q
  if x.sqen && (n - x.sqp).toNat ≤ 2 ^ x.sqlog.toNat - (x.sqp - x.sqc).toNat then
    let s1 := s.setQueue q { x with sqp := n, dberr := false, ferr := false, push := []
                                    pushed := if x.ferr then [] else x.acceptPush n }
    if s.pwr.ps = 2 && s.pwr.phase = 0 && s.pwr.wakeAny then s1.startWake 0 else s1
  else s.dbError q

/-- PRODUCER_DOORBELL (R352). -/
def execProducerDoorbell (r : Req) (win : Nat) (n : Word) (s : State) : Out1 :=
  when_ (s.reachesBar2 r win) "no such window"
    (s.inOrder r .bar2 [(win * 0x1000, n)] (s.inWindow r win 0 true fun q => s.doorbell q n))

/-- The bytes of words (R11). -/
def wordBytes (ws : List Word) : List Byte := ws.flatMap fun w => natLE 4 w.toNat

/-- Words written to the push window from byte b on (R353); discarded while SQEN = 0 (R34). -/
def State.pushBytes (s : State) (q b : Nat) (ws : List Word) : State :=
  let x := s.queue q
  if !x.sqen then s
  else s.setQueue q { x with push := (wordBytes ws).zipIdx.foldl (fun m e => put none m (b + e.2) (some e.1)) x.push }

/-- PUSH_WRITE (R33, R35, R353): whole aligned words up to 256 B from an offset of the window; other sizes are reserved
locations. -/
def execPushWrite (r : Req) (win off : Nat) (ws : List Word) (s : State) : Out1 :=
  when_ (s.reachesBar2 r win && off < 256 && !ws.isEmpty) "no such window"
    (s.inOrder r .bar2 (ws.zipIdx.map fun e => (win * 0x1000 + 0x100 + off + 4 * e.2, e.1))
      (if off % 4 = 0 && off + 4 * ws.length ≤ 256 then s.inWindow r win (0x100 + off) true fun q => s.pushBytes q off ws
       else s.reserved r .bar2 (win * 0x1000 + 0x100 + off) true true))

/-- Overflow entries of a context: 32,768 per MiB (R362). -/
def State.ovfSize (s : State) (ctx : Nat) : Nat :=
  32768 * (if ctx < 4096 then (s.part ctx).ovfMib.toNat else s.hif.ovfMib.toNat)

/-- Overflow entries of a context filled or reserved: every unfilled and every held completion keeps its reservation. -/
def State.ovfUsed (s : State) (ctx : Nat) : Nat :=
  s.hif.queues.foldl (fun n e => if e.2.ctxN = ctx then n + e.2.rsvOvf else n) 0

/-- The completion place R354 reserves on a CQ, if any. -/
def State.placeOn (s : State) (cq : Nat) : Option Place :=
  let x := s.queue cq
  if 0 < x.ringPlaces then some .ring
  else if s.ovfUsed x.ctxN < s.ovfSize x.ctxN then some .overflow
  else none

/-- FSTOP as an SQ's status shows it (R349, R354): fetching resumes as soon as a place can be reserved. -/
def State.stopped (s : State) (q : Nat) : Bool :=
  (s.queue q).fstop && (s.placeOn (s.queue q).cqq.toNat).isNone

/-- A write of the completion consumer index (R361, R364). -/
def State.consume (s : State) (q : Nat) (n : Word) : State :=
  let x := s.queue q
  if x.cqen && (n - x.cqc).toNat ≤ (x.cqp - x.cqc).toNat then
    let s1 := s.setQueue q { x with cqc := n, dberr := false }
    let s2 := if x.held.isEmpty then s1 else s1.cqDrain q (x.held.length + 1)
    let y := s2.queue q
    if x.held.isEmpty && y.cqc = y.cqp then s2.setQueue q { y with modPend := 0, modTimer := false, modReached := false } else s2
  else s.dbError q

/-- COMPLETION_CONSUMER_WRITE (R361). -/
def execCompletionConsumerWrite (r : Req) (win : Nat) (n : Word) (s : State) : Out1 :=
  when_ (s.reachesBar2 r win) "no such window"
    (s.inOrder r .bar2 [(win * 0x1000 + 4, n)] (s.inWindow r win 4 true fun q => s.consume q n))

/-! ## Fetch (R354 to R357) -/

/-- The slot counts an opcode requires, none where it is not defined (R350, R355; the blocks' chapters). The slots of
RUN_PLAN depend on its PCOUNT and PBLOCK (R72). -/
def opSlots (op pcount : Nat) (pblock : Bool) : List Nat :=
  if op = 0x03 then [if pblock then 1 else 1 + ceilDiv pcount 2]
  else if op = 0x6B then [2, 3]
  else if [0x40, 0x48, 0x49, 0x95].contains op then [2]
  else if [0x92, 0x9D].contains op then [3]
  else if [0x01, 0x02, 0x04].contains op || (0x20 ≤ op && op ≤ 0x24) || [0x60, 0x61].contains op
      || (0x68 ≤ op && op ≤ 0x6F) || op = 0x80 || (0x90 ≤ op && op ≤ 0x9F && op ≠ 0x96 && op ≠ 0x97) || [0xA0, 0xA1].contains op
      || (0xA8 ≤ op && op ≤ 0xAD) then [1]
  else []

/-- Whether an opcode's class is open to a function (R350). -/
def classOpen (op fn : Nat) : Bool := op < 0x80 || fn = 0

/-- The first check of an entry's header that fails, with the status (R355); crosses says it would cross the wrap. -/
def headerStatus (bytes : List Byte) (fn : Nat) (crosses : Bool) : Nat :=
  let op := fieldLE bytes 0 1
  let lenm1 := fieldLE bytes 1 1
  let fl := fieldLE bytes 2 2
  let slots := opSlots op (fieldLE bytes 12 2) (bit (fieldLE bytes 14 2) 0)
  if crosses then 0x0102
  else if slots.isEmpty then 0x0101
  else if !classOpen op fn then 0x0104
  else if !slots.contains (lenm1 % 32 + 1) then 0x0103
  else if lenm1 / 32 ≠ 0 || fl / 8 ≠ 0 || fieldLE bytes 6 2 ≠ 0 then 0x0100
  else if bit fl 1 && bit fl 2 then 0x0105
  else 0

/-- Whether fetching from an SQ is held (R349 HOLD; R365, R369, R374, R409). -/
def State.fetchHeld (s : State) (q : Nat) : Bool :=
  let x := s.queue q
  let p := s.part x.ctxN
  !s.canSend (s.queueFn q) || (x.ctxN < 4096 && (p.state ≠ 1 || s.pwr.ps = 2))

/-- Byte b of slot i of an SQ: pushed, or from the ring (R351, R353). -/
def State.slotByte (s : State) (q : Nat) (i : Word) (b : Nat) : Byte :=
  let x := s.queue q
  (look none x.pushed (i.toNat * 32 + b)).getD
    (memByte s.hostMem (hostKey (s.queueFn q) (x.sqb.toNat + 32 * (i.toNat % 2 ^ x.sqlog.toNat) + b)))

/-- Whether reading slot i of an SQ fails (R357). -/
def State.slotFails (s : State) (q : Nat) (i : Word) : Bool :=
  let x := s.queue q
  (look none x.pushed (i.toNat * 32)).isNone && s.hostFails (s.queueFn q) (x.sqb.toNat + 32 * (i.toNat % 2 ^ x.sqlog.toNat)) 32

/-- Slots n from slot i on of an SQ. -/
def State.slots (s : State) (q : Nat) (i : Word) (n : Nat) : List Byte :=
  (List.range (32 * n)).map fun k => s.slotByte q (i + BitVec.ofNat 32 (k / 32)) (k % 32)

/-- SQC moves over n slots; their pushed bytes are used up. -/
def State.consumeSlots (s : State) (q n : Nat) : State :=
  s.updQueue q fun x =>
    { x with sqc := x.sqc + BitVec.ofNat 32 n
             pushed := (List.range n).foldl (fun m i => clearRange m ((x.sqc + BitVec.ofNat 32 i).toNat * 32) 32) x.pushed }

/-- An SQ fetch fails (R357): FERR, the queue-error event, fetching stops at SQC. -/
def State.fetchError (s : State) (q : Nat) : State := (s.updQueue q fun x => { x with ferr := true }).raise 72

/-- A place is taken on a CQ. -/
def Queue.takePlace (x : Queue) : Place → Queue
  | .ring => { x with rsvRing := x.rsvRing + 1 }
  | .overflow => { x with rsvOvf := x.rsvOvf + 1 }

/-- Whether the SQ has slots at SQC that may be fetched: enabled, no FERR, not held, no RESETREQ, not frozen (R328), no THERMTRIP_N
(R523), the PLL locked (R513). -/
def State.canFetch (s : State) (q : Nat) : Bool :=
  let x := s.queue q
  x.sqen && !x.ferr && x.sqc ≠ x.sqp && !s.fetchHeld q && !s.vigil.resetReq && s.ungated
    && s.glb.start = 5

/-- Slots left from SQC to the wrap. -/
def Queue.toWrap (x : Queue) : Nat := 2 ^ x.sqlog.toNat - x.sqc.toNat % 2 ^ x.sqlog.toNat

/-- The slots a fetch at SQC takes (R355): the entry's, or up to the wrap it would cross; one where it cannot be read. -/
def State.entrySlots (s : State) (q : Nat) : Nat :=
  let x := s.queue q
  let need := fieldLE (s.slots q x.sqc 1) 1 1 % 32 + 1
  if s.slotFails q x.sqc then 1 else min need x.toWrap

/-- Whether the SQ has an entry to fetch (R356): all of it is posted, and its CQ is not full (R354). -/
def State.hasEntry (s : State) (q : Nat) : Bool :=
  s.canFetch q && !s.stopped q && s.entrySlots q ≤ ((s.queue q).sqp - (s.queue q).sqc).toNat

/-- The SQ next in the round robin (R356; log entry 148): the first with an entry after the one whose turn it is, and round. -/
def State.nextTurn (s : State) : Option Nat :=
  let l := (s.hif.queues.map (·.1)).filter s.hasEntry
  (l.find? (s.hif.turn.1 < ·)).orElse fun _ => l.head?

/-- SQ q takes an entry, within its turn or as the next in the round (R356). -/
def State.takeTurn (s : State) (q : Nat) : State :=
  { s with hif := { s.hif with turn := if q = s.hif.turn.1 && 0 < s.hif.turn.2 then (q, s.hif.turn.2 - 1) else (q, (s.queue q).weight.toNat) } }

/-- Whether SQ q may take an entry now: its turn is not used up, or it is next (R356). -/
def State.hasTurn (s : State) (q : Nat) : Bool := (q = s.hif.turn.1 && 0 < s.hif.turn.2) || s.nextTurn = some q

/-- The fetched entry is stamped with the owner's CTX and GEN and delivered (R355). -/
def State.deliver (s : State) (q : Nat) (bytes : List Byte) (pl : Place) : State :=
  let x := s.queue q
  let c : Cmd :=
    { id := s.hif.nextId, origin := .ring q, op := fieldLE bytes 0 1, bytes := bytes, ctx := BitVec.ofNat 13 x.ctxN
      gen := if x.ctxN < 4096 then (s.part x.ctxN).gen else 0, cq := x.cqq.toNat, place := pl, ctmo := x.ctmo
      phase := .fetched, fetchedAt := s.clk.alm }
  { s with hif := { s.hif with cmds := s.hif.cmds ++ [c], nextId := s.hif.nextId + 1 } }

/-- A command other than DEV_PSTATE fetched in PS2 starts a wake to PS0 (R368, R369); one fetched in FLUSH2 brings it back to
ENTER2, while another DEV_PSTATE leaves it (R368). -/
def State.powerOnFetch (s : State) (op : Nat) : State :=
  if s.pwr.ps = 2 && s.pwr.phase = 0 && op ≠ 0x80 then s.startWake 0
  else if s.pwr.phase = 3 && op ≠ 0x80 then { s with pwr := { s.pwr with phase := 2 } }
  else s

/-- The entry at SQC is fetched to the place reserved for it: taken, delivered and its header judged (R354, R355, R357). -/
def State.fetchEntry (s : State) (q : Nat) (pl : Place) : State :=
  let x := s.queue q
  let use := s.entrySlots q
  let bytes := s.slots q x.sqc use
  let st := headerStatus bytes (s.queueFn q) (use < fieldLE bytes 1 1 % 32 + 1)
  if s.slotFails q x.sqc then s.fetchError q
  else if fieldLE bytes 0 1 = 0 then s.consumeSlots q use
  else if (List.range use).any (fun i => s.slotFails q (x.sqc + BitVec.ofNat 32 i)) then s.fetchError q
  else
    let s1 := ((s.consumeSlots q use).updQueue x.cqq.toNat fun z => z.takePlace pl).deliver q bytes pl
    if st = 0 then s1.powerOnFetch (fieldLE bytes 0 1) else s1.done s.hif.nextId st

/-- ENTRY_FETCH (R354 to R356). -/
def execEntryFetch (q : Nat) (s : State) : Out1 :=
  let cq := (s.queue q).cqq.toNat
  if !(q < 65536 && s.hasEntry q && s.hasTurn q) then no "the submission queue has nothing to fetch, or it is another's turn"
  else
    match s.placeOn cq with
    | none => .next ((s.sqsOf cq).foldl (fun y i => y.updQueue i fun z => { z with fstop := true }) s)
    | some pl => .next (((s.takeTurn q).updQueue q fun z => { z with fstop := false }).fetchEntry q pl)

/-- SQ_FETCH_ERROR (R339, R357): the read of the slots at SQC fails or times out: all of the entry is posted, a place is reserved for its
completion, which is released again, and a slot of it was not pushed. -/
def execSqFetchError (q : Nat) (s : State) : Out1 :=
  let x := s.queue q
  when_ (q < 65536 && s.hasEntry q && (s.placeOn x.cqq.toNat).isSome && !(s.func (s.queueFn q)).ctoDisable
      && (List.range (s.entrySlots q)).any fun i => (look none x.pushed ((x.sqc + BitVec.ofNat 32 i).toNat * 32)).isNone)
    "the submission queue has no read outstanding" (s.fetchError q)

/-! ## Moderation and vectors (R364, R365) -/

/-- MODERATION_TIMEOUT (R364, R365). -/
def execModerationTimeout (q : Nat) (s : State) : Out1 :=
  let x := s.queue q
  when_ (q < 65536 && x.ien && x.modTimer && x.modUs ≠ 0 && x.modPend ≠ 0 && s.elapsed x.modAt (1000 * x.modUs.toNat)) "the moderation timer does not run" (s.cqThreshold q)

/-- VECTOR_UNMASK (R364): a pending message is sent. -/
def execVectorUnmask (fn vec : Nat) (s : State) : Out1 :=
  if !((fn = 0 || s.vfExists fn) && vec < s.vectorsOf fn && !look false (s.func fn).unmasked vec) then
    no "the function has no such masked vector"
  else
    let s1 := s.updFunc fn fun f => { f with unmasked := put false f.unmasked vec true, pba := put false f.pba vec false }
    .next (if look false (s.func fn).pba vec then s1.msix fn vec else s1)

end Sys2Proof.Machine
end

