-- ==== Sys2Proof/Machine/Keccak.lean ====
section
/-! DEFINITION. Machine/Keccak.lean: SHAKE256 and SHA3-512 of FIPS 202, the hashes the spec names (R419, R490 to R504), and the
keys that TRUST derives from the device's secret (R496, R497). -/

namespace Sys2Proof.Machine

/-- The linear-feedback register that gives the round constants, one bit a step (FIPS 202, rc). -/
def lfsrStep (r : Nat) : Nat := if r < 128 then 2 * r else (2 * r) ^^^ 0x171

/-- The register after n steps. -/
def lfsr : Nat → Nat
  | 0 => 1
  | n + 1 => lfsrStep (lfsr n)

/-- The round constant of round i: bit 2^j - 1 is the bit the register gives at step 7 i + j (FIPS 202, iota). -/
def keccakIota (i : Nat) : DWord :=
  (List.range 7).foldl (fun w j => if bit (lfsr (7 * i + j)) 0 then w ||| BitVec.ofNat 64 (2 ^ (2 ^ j - 1)) else w) 0

/-- The walk of rho and pi over the lanes but the first, from lane (1, 0): the lane left, the lane reached, the rotation on the way
(FIPS 202, rho and pi). -/
def rhoPi : Nat → Nat → Nat → Nat → List (Nat × Nat × Nat)
  | 0, _, _, _ => []
  | n + 1, t, x, y => (x + 5 * y, y + 5 * ((2 * x + 3 * y) % 5), (t + 1) * (t + 2) / 2 % 64) :: rhoPi n (t + 1) y ((2 * x + 3 * y) % 5)

/-- The parity of column x (FIPS 202, theta). -/
def columnParity (a : List DWord) (x : Nat) : DWord := (List.range 5).foldl (fun p y => p ^^^ nth a (x + 5 * y) 0) 0

/-- Theta: each lane takes the parities of the two columns beside its own. -/
def keccakTheta (a : List DWord) : List DWord :=
  let p := (List.range 5).map (columnParity a)
  a.zipIdx.map fun e => e.1 ^^^ nth p ((e.2 + 4) % 5) 0 ^^^ (nth p ((e.2 + 1) % 5) 0).rotateLeft 1

/-- Rho and pi: each lane is rotated and goes to its new place. -/
def keccakMove (a : List DWord) : List DWord :=
  (rhoPi 24 0 1 0).foldl (fun b e => b.set e.2.1 ((nth a e.1 0).rotateLeft e.2.2)) a

/-- Chi: each row of five lanes by itself. -/
def keccakChi (a : List DWord) : List DWord :=
  a.zipIdx.map fun e =>
    let row := e.2 - e.2 % 5
    e.1 ^^^ (nth a (row + (e.2 + 2) % 5) 0 &&& ~~~nth a (row + (e.2 + 1) % 5) 0)

/-- Round i of KECCAK-f[1600]. -/
def keccakRound (a : List DWord) (i : Nat) : List DWord :=
  let b := keccakChi (keccakMove (keccakTheta a))
  b.set 0 (nth b 0 0 ^^^ keccakIota i)

/-- KECCAK-f[1600]. -/
def keccakF (a : List DWord) : List DWord := (List.range 24).foldl keccakRound a

/-- The state after a block of the rate is absorbed. -/
def keccakAbsorb (a : List DWord) (block : List Byte) : List DWord :=
  keccakF ((List.range 25).map fun i => nth a i 0 ^^^ BitVec.ofNat 64 (fieldLE block (8 * i) 8))

/-- The blocks of a padded message, each of `rate` bytes. -/
def blocksBy (rate : Nat) : Nat → List Byte → List (List Byte)
  | 0, _ => []
  | n + 1, bs => bs.take rate :: blocksBy rate n (bs.drop rate)

/-- The message with its domain suffix and padding (FIPS 202, pad10*1). -/
def keccakPad (rate : Nat) (suffix : Byte) (m : List Byte) : List Byte :=
  let gap := rate - m.length % rate
  m ++ (if gap = 1 then [suffix ||| 0x80] else suffix :: List.replicate (gap - 2) 0 ++ [0x80])

/-- The first n bytes, at most the rate, that the sponge of a message gives. -/
def sponge (rate : Nat) (suffix : Byte) (n : Nat) (m : List Byte) : List Byte :=
  let p := keccakPad rate suffix m
  let a := (blocksBy rate (p.length / rate) p).foldl keccakAbsorb (List.replicate 25 0)
  (a.flatMap fun w => natLE 8 w.toNat).take n

/-- The first n bytes (at most 136) of SHAKE256 of a message. -/
def shake256 (n : Nat) (m : List Byte) : List Byte := sponge 136 0x1F n m

/-- SHA3-512 of a message. -/
def sha3_512 (m : List Byte) : List Byte := sponge 72 0x06 64 m

/-! ## The device's own keys (R496) -/

/-- A string's bytes, one to a character (R419, R490, R504). -/
def ctxBytes (c : String) : List Byte := c.toList.map fun ch => BitVec.ofNat 8 ch.toNat

/-- The seed of the identity key pair (R496). -/
def identitySeed : List Byte := shake256 32 (Config.uds ++ ctxBytes "DZ-ID")

/-- The seed of the key-import key pair (R496). -/
def importSeed : List Byte := shake256 64 (Config.uds ++ ctxBytes "DZ-KEM")

/-- DEVICE_ID: the first 16 bytes of SHAKE256 of the identity public key (R419). -/
def deviceId : List Byte := shake256 16 (Config.identityPublic identitySeed)

/-- The wrapping key of a key blob for a slot (R497). -/
def wrapKey (ct : List Byte) (slot : Nat) : List Byte :=
  shake256 32 (Config.decapsulate importSeed ct ++ ctxBytes "DZKB" ++ natLE 2 slot)

end Sys2Proof.Machine
end

