-- ==== Sys2Proof/Machine/Operands.lean ====
section
/-! DEFINITION. Machine/Operands.lean: the operand forms of the column processor: G, V and P registers (R178, R181),
active elements (R182), the data cache (R208 to R215) and kernel memory (R194 to R198). -/

namespace Sys2Proof.Machine

/-- What executing one instruction does to its CP and its tile. -/
inductive CpRes where
  /-- It completes. -/
  | go (c : Cp) (t : Tile)
  /-- It fails the kernel with a status; ADDR of the fault registers (R204, R220). -/
  | fail (code addr : Nat) (c : Cp) (t : Tile)
  /-- It misses staging and runs again after the fill of a 64 KiB window (R197). -/
  | miss (win : Nat) (c : Cp) (t : Tile)
  /-- It stalls (R203, R213). -/
  | wait
  deriving DecidableEq, Repr

/-! ## G, V and P registers -/

/-- G[n]; G0 reads 0 (R178). -/
def Cp.rd (c : Cp) (n : BitVec 5) : DWord := if n = 0 then 0 else look 0 c.g n.toNat

/-- G[n] written; a write to G0 is discarded (R178). -/
def Cp.wr (c : Cp) (n : BitVec 5) (v : DWord) : Cp := if n = 0 then c else { c with g := put 0 c.g n.toNat v }

/-- The PC moves on by one instruction. -/
def Cp.adv (c : Cp) : Cp := { c with pc := c.pc + 4 }

/-- KSTAT flags are set; they are sticky (R179). -/
def Cp.flag (c : Cp) (f : KFlags) : Cp := { c with kstat := c.kstat ||| f }

/-- SEW in bits (R180). -/
def Cp.sewBits (c : Cp) : Nat := 8 * 2 ^ c.sew.toNat

/-- The group factor (R180). -/
def Cp.grpN (c : Cp) : Nat := 2 ^ c.grp.toNat

/-- VLMAX (R180). -/
def vlmax (vlen sewBits g : Nat) : Nat := g * vlen / sewBits

/-- PG, the registers a predicate operand names (R181). -/
def Cp.pg (c : Cp) : Nat := ceilDiv (8 * c.grpN) c.sewBits

/-- Element i of width w of the group at Vn (R181). -/
def Cp.velem (c : Cp) (vlen w n i : Nat) : Nat :=
  let r := look 0 c.v (n + i * w / vlen)
  bits r.toNat ((i % (vlen / w)) * w + w - 1) ((i % (vlen / w)) * w)

/-- Element i of width w of the group at Vn written (R181). -/
def Cp.setVelem (c : Cp) (vlen w n i x : Nat) : Cp :=
  let k := n + i * w / vlen
  let r := (look 0 c.v k).toNat
  let p := (i % (vlen / w)) * w
  let old := bits r (p + w - 1) p
  { c with v := put 0 c.v k (BitVec.ofNat 2048 (r - old * 2 ^ p + x % 2 ^ w * 2 ^ p)) }

/-- Element i of the predicate group at Pn (R181). -/
def Cp.pelem (c : Cp) (vlen n i : Nat) : Bool := (look 0 c.p (n + i / (vlen / 8))).getLsbD (i % (vlen / 8))

/-- Element i of the predicate group at Pn written (R181). -/
def Cp.setPelem (c : Cp) (vlen n i : Nat) (x : Bool) : Cp :=
  let k := n + i / (vlen / 8)
  let r := look 0 c.p k
  let m := BitVec.ofNat 256 (2 ^ (i % (vlen / 8)))
  { c with p := put 0 c.p k (if x then r ||| m else r &&& ~~~m) }

/-- Whether element i is active (R182). -/
def Cp.active (c : Cp) (vlen : Nat) (f : VFields) (i : Nat) : Bool := i < c.vl && (!f.pe || c.pelem vlen f.pm.toNat i)

/-- The active elements in ascending order. -/
def Cp.actives (c : Cp) (vlen : Nat) (f : VFields) : List Nat := (List.range c.vl).filter (c.active vlen f)

/-- Elements the predicate group at a P register holds. -/
def Cp.pgElems (c : Cp) (vlen : Nat) : Nat := c.pg * (vlen / 8)

/-- Whether a V register number names a group (R181, R183). -/
def Cp.vOk (c : Cp) (n : Nat) : Bool := n % c.grpN = 0

/-- Whether a P register number names a predicate group (R181, R183). -/
def Cp.pOk (c : Cp) (n : Nat) : Bool := n % c.pg = 0

/-- Whether the instruction's predicate operand is a group's (R181). -/
def Cp.pmOk (c : Cp) (f : VFields) : Bool := !f.pe || c.pOk f.pm.toNat

/-- Whether a P name keeps bit 4 at 0 (R184). -/
def pName (n : BitVec 5) : Bool := n.toNat < 16

/-! ## Permissions and the constant pool (R194, R197) -/

/-- The first address of the constant pool region. -/
def poolBase : Nat := 0x10000000

/-- Whether the addresses lie in the constant pool region. -/
def inPool (a n : Nat) : Bool := poolBase ≤ a && a + n ≤ poolBase + 0x100000

/-- Whether the ranges hold every one of the addresses. -/
def inRanges (rs : List (Nat × Nat)) (a n : Nat) : Bool := (List.range n).all fun i => rs.any fun r => r.1 ≤ a + i && a + i < r.1 + r.2

/-- Whether the CP may read the addresses (R194). -/
def Cp.mayRead (c : Cp) (a n : Nat) : Bool := inPool a n || inRanges c.env.readable a n

/-- Whether the CP may write the addresses (R194). -/
def Cp.mayWrite (c : Cp) (a n : Nat) : Bool := inRanges c.env.writable a n

/-- The constant pool window of an address that is not staged (R197). -/
def unstaged (t : Tile) (a : Nat) : Option Nat :=
  if inPool a 1 && !t.staged.contains ((a - poolBase) / 65536) then some ((a - poolBase) / 65536) else none

/-- What memory below the cache holds: the constant pool, or the morsel's scratch allocation (R194). -/
def backing (c : Cp) (t : Tile) (a : Nat) : Byte :=
  if inPool a 1 then
    (if a - poolBase < c.env.pool.length then nth c.env.pool (a - poolBase) 0 else Config.poolTail (a - poolBase))
  else memByte t.scratch a

/-! ## The data cache (R208 to R212) -/

/-- The line address of an address. -/
def lineOf (a : Nat) : Nat := a / 128 * 128

/-- The line holding an address. -/
def Cp.line? (c : Cp) (a : Nat) : Option CacheLine := c.cache.find? fun l => l.addr = lineOf a

/-- Bytes of scratch replaced: the lines they touch take the owner's tag, and what they held under another is gone (R16, R402). -/
def Tile.store (t : Tile) (a : Nat) (bs : List Byte) : Tile :=
  { t with scratch := memWrite t.scratch a bs
           foreign := t.foreign.filterMap fun (e : Nat × Mem) =>
             let m := clearRange e.2 (lineOf a) (roundUp (a + bs.length) 128 - lineOf a)
             if m.isEmpty then none else some (e.1, m) }

/-- A line's write-back; the constant pool cannot be written (R194). -/
def Tile.writeBack (t : Tile) (l : CacheLine) : Tile := if l.dirty && !inPool l.addr 1 then t.store l.addr l.data else t

/-- The least recently used line that is not locked (R208). -/
def victim (cache : List CacheLine) : Option CacheLine := cache.reverse.find? fun l => !l.locked

/-- Room for one more line: with 48 lines held the victim is evicted (R208, R210). -/
def makeRoom (c : Cp) (t : Tile) : Cp × Tile :=
  if c.cache.length < 48 then (c, t)
  else
    match victim c.cache with
    | none => (c, t)
    | some l => ({ c with cache := c.cache.filter fun x => x.addr ≠ l.addr }, t.writeBack l)

/-- The line of an address moves to the front, fetched first where it is absent (R208). -/
def fetchLine (c : Cp) (t : Tile) (a : Nat) : Cp × Tile :=
  match c.line? a with
  | some l => ({ c with cache := l :: c.cache.filter fun x => x.addr ≠ l.addr }, t)
  | none =>
    let (c1, t1) := makeRoom c t
    let l : CacheLine :=
      { addr := lineOf a, data := (List.range 128).map (fun i => backing c t1 (lineOf a + i)), dirty := false, locked := false }
    ({ c1 with cache := l :: c1.cache }, t1)

/-- f applied to the line of an address. -/
def Cp.updLine (c : Cp) (a : Nat) (f : CacheLine → CacheLine) : Cp :=
  { c with cache := c.cache.map fun l => if l.addr = lineOf a then f l else l }

/-- One byte through the cache, or uncached where it is disabled (R196, R214). -/
def cacheRd (c : Cp) (t : Tile) (a : Nat) : Byte × Cp × Tile :=
  if !c.cen then (backing c t a, c, t)
  else
    let (c1, t1) := fetchLine c t a
    ((match c1.line? a with | some l => nth l.data (a % 128) 0 | none => 0), c1, t1)

/-- One byte stored through the cache: write-allocate, the line becomes dirty (R208). -/
def cacheWr (c : Cp) (t : Tile) (a : Nat) (b : Byte) : Cp × Tile :=
  if !c.cen then (c, t.store a [b])
  else
    let (c1, t1) := fetchLine c t a
    (c1.updLine a fun l => { l with data := setNth l.data (a % 128) b, dirty := true }, t1)

/-- n bytes read through the cache. -/
def cacheRead (c : Cp) (t : Tile) (a : Nat) : Nat → List Byte × Cp × Tile
  | 0 => ([], c, t)
  | n + 1 =>
    let r := cacheRd c t a
    let q := cacheRead r.2.1 r.2.2 (a + 1) n
    (r.1 :: q.1, q.2)

/-- Bytes stored through the cache. -/
def cacheWrite (c : Cp) (t : Tile) (a : Nat) : List Byte → Cp × Tile
  | [] => (c, t)
  | b :: bs =>
    let r := cacheWr c t a b
    cacheWrite r.1 r.2 (a + 1) bs

/-- n bytes of a unit-stride or strided load: the bytes of a line the cache holds, otherwise scratch (R196). -/
def directRead (c : Cp) (t : Tile) (a n : Nat) : List Byte :=
  (List.range n).map fun i =>
    match c.line? (a + i) with
    | some l => nth l.data ((a + i) % 128) 0
    | none => backing c t (a + i)

/-- Bytes of a unit-stride or strided store: scratch, and any line the cache holds (R196). -/
def directWrite (c : Cp) (t : Tile) (a : Nat) (bs : List Byte) : Cp × Tile :=
  ({ c with cache := c.cache.map fun l =>
      { l with data := (List.range l.data.length).map fun i =>
          if a ≤ l.addr + i && l.addr + i < a + bs.length then nth bs (l.addr + i - a) 0 else nth l.data i 0 } },
   t.store a bs)

/-- Every dirty line is written back and every line dropped (R209, R214). -/
def flushCache (c : Cp) (t : Tile) : Cp × Tile := ({ c with cache := [] }, c.cache.foldl Tile.writeBack t)

/-! ## Scalar and vector memory accesses -/

/-- The fault of an access, if any: permission (0x0461) before alignment (0x0462); none stated between them (log entry
27). -/
def accFault (c : Cp) (a : Int) (n align : Nat) (wr : Bool) : Option Nat :=
  if a < 0 || 2 ^ 32 ≤ a || !(if wr then c.mayWrite a.toNat n else c.mayRead a.toNat n) then some 0x0461
  else if a.toNat % align ≠ 0 then some 0x0462
  else none

/-- A scalar access address: G[A] + sign-extended IMM16 modulo 2^64 (R186). -/
def Cp.ea (c : Cp) (a : BitVec 5) (imm : BitVec 16) : DWord := c.rd a + imm.signExtend 64

/-- An access of this CP stalls: a disable of its cache flushes (R214), or a range operation of it that has not completed covers one of
the addresses (R213). -/
def rangeStalls (u : Nat) (c : Cp) (t : Tile) (a n : Nat) : Bool :=
  c.flushWait || t.ranges.any fun r => r.cp = u && a < r.start + r.len && r.start < a + n

/-- A scalar load of n bytes (R194, R195): k receives the bytes. -/
def scalarLoad (u : Nat) (c : Cp) (t : Tile) (a : DWord) (n : Nat) (k : List Byte → Cp → Tile → CpRes) : CpRes :=
  match accFault c a.toNat n n false with
  | some e => .fail e a.toNat c t
  | none =>
    if rangeStalls u c t (lineOf a.toNat) 128 then .wait
    else
      match unstaged t a.toNat with
      | some w => .miss w c t
      | none =>
        let r := cacheRead c t a.toNat n
        k r.1 r.2.1 r.2.2

/-- A scalar store (R194, R195). -/
def scalarStore (u : Nat) (c : Cp) (t : Tile) (a : DWord) (bs : List Byte) : CpRes :=
  match accFault c a.toNat bs.length bs.length true with
  | some e => .fail e a.toNat c t
  | none =>
    if rangeStalls u c t (lineOf a.toNat) 128 then .wait
    else
      let r := cacheWrite c t a.toNat bs
      .go r.1.adv r.2

/-- A vector memory instruction over its active elements from RIX on (R196, R197): addr gives the address of an element,
one the element's load or store. A fault or a staging miss at element j leaves RIX at j. -/
def vmemLoop (u : Nat) (w : Nat) (wr : Bool) (addr : Nat → Int) (one : Nat → Nat → Cp → Tile → Cp × Tile) :
    List Nat → Cp → Tile → CpRes
  | [], c, t => .go { c with rix := 0 } t
  | j :: js, c, t =>
    let a := addr j
    let c0 := { c with rix := BitVec.ofNat 16 j }
    match accFault c a (w / 8) (w / 8) wr with
    | some e => .fail e a.toNat c0 t
    | none =>
      if rangeStalls u c t (lineOf a.toNat) 128 then .wait
      else
        match unstaged t a.toNat with
        | some x => .miss x c0 t
        | none =>
          let r := one j a.toNat c t
          vmemLoop u w wr addr one js r.1 r.2

end Sys2Proof.Machine
end

