-- ==== Sys2Proof/Machine/Runs.lean ====
section
/-! DEFINITION. Machine/Runs.lean: runs and the morsels in flight: the tile map, the time a morsel holds a tile,
abandoning a morsel (R82), and the end of a run (R90, R94, R95). -/

namespace Sys2Proof.Machine

/-! ## Logical and physical tiles (R475) -/

/-- Register r of GLB_TILE_MAP as voted. -/
def State.mapReg (s : State) (r : Nat) : Word := tri (look (Tri.of 0) s.glb.tileMap r)

/-- The physical tile of logical tile l: the field of the map, 0x1F for none (R475). -/
def State.physOf (s : State) (l : Nat) : Nat := bits (s.mapReg (l / 4)).toNat (8 * (l % 4) + 4) (8 * (l % 4))

/-- The map with a logical tile's field replaced. -/
def State.setPhys (s : State) (l p : Nat) : State :=
  let w := (s.mapReg (l / 4)).toNat
  let k := 8 * (l % 4)
  let w' := w - bits w (k + 4) k * 2 ^ k + p % 32 * 2 ^ k
  { s with glb := { s.glb with tileMap := put (Tri.of 0) s.glb.tileMap (l / 4) (Tri.of (BitVec.ofNat 32 w')) } }

/-- The logical tile a physical tile serves. -/
def State.logOf (s : State) (p : Nat) : Option Nat := (List.range 16).find? fun l => s.physOf l = p

/-- Whether a physical tile is SPARE (R476). -/
def State.isSpare (s : State) (p : Nat) : Bool := s.glb.spare.getLsbD p && p < s.tilesPhys

/-- A SPARE bit set or cleared. -/
def State.setSpare (s : State) (p : Nat) (b : Bool) : State :=
  let m := BitVec.ofNat 18 (2 ^ p)
  { s with glb := { s.glb with spare := if b then s.glb.spare ||| m else s.glb.spare &&& ~~~m } }

/-- The lowest-numbered SPARE tile (R474). -/
def State.lowestSpare (s : State) : Option Nat := (List.range s.tilesPhys).find? s.isSpare

/-! ## Runs -/

/-- A run by its id. -/
def State.run? (s : State) (rid : Nat) : Option Run := s.runs.find? fun r => r.id = rid

/-- f applied to a run. -/
def State.updRun (s : State) (rid : Nat) (f : Run → Run) : State :=
  { s with runs := s.runs.map fun r => if r.id = rid then f r else r }

/-- A pipeline of a run. -/
def Run.pipe (r : Run) (p : Nat) : PipeRun := look {} r.pipes p
/-- f applied to a pipeline of a run. -/
def Run.updPipe (r : Run) (p : Nat) (f : PipeRun → PipeRun) : Run := { r with pipes := upd {} r.pipes p f }
/-- A materialisation of a run. -/
def Run.mat (r : Run) (m : Nat) : Mat := look {} r.mats m
/-- f applied to a materialisation of a run. -/
def Run.updMat (r : Run) (m : Nat) (f : Mat → Mat) : Run := { r with mats := upd {} r.mats m f }
/-- A ledger entry. -/
def PipeRun.led (p : PipeRun) (m : Nat) : Ledger := look {} p.ledger m
/-- f applied to a ledger entry. -/
def PipeRun.updLed (p : PipeRun) (m : Nat) (f : Ledger → Ledger) : PipeRun := { p with ledger := upd {} p.ledger m f }

/-- The plan a run names. -/
def State.planOf (s : State) (r : Run) : Option Plan := look none s.plans (r.ctx.toNat * 1024 + r.handle)

/-! ## The time a morsel holds a tile (R403, R415) -/

/-- The Almanac from which a tile's current time is not yet counted. -/
def Tile.heldFrom (t : Tile) : Nat :=
  max t.acct.toNat (t.flights.foldl (fun m f => if m = 0 then f.since.toNat else min m f.since.toNat) 0)

/-- A meter counter of a partition raised by n (R415). -/
def State.meter (s : State) (ctx i n : Nat) : State :=
  if ctx < 4096 then s.updPart ctx fun p => { p with mtr := upd 0 p.mtr i (fun x => x + BitVec.ofNat 64 n) } else s

/-- The time a tile's morsels have held it up to Almanac `till` and that is not yet counted, with its digest partner's (R415). -/
def Tile.uncounted (x : Tile) (till : Nat) : Nat :=
  (till - x.heldFrom) * (if x.flights.head?.any (·.partner.isSome) then 2 else 1)

/-- The tile's time up to Almanac `till` is counted: TILE_NS of its owner (R415). -/
def State.countTile (s : State) (t till : Nat) : State :=
  let x := s.tile t
  match x.flights with
  | [] => s
  | f :: _ => (s.meter f.ctx.toNat 0 (x.uncounted till)).setTile t { x with acct := BitVec.ofNat 64 (max x.acct.toNat till) }

/-- TILE_NS of a partition as a read finds it: the time that its morsels in flight hold their tiles is in it (R415). -/
def State.tileNs (s : State) (p : Nat) : DWord :=
  let open_ := (s.tiles.filter fun e => e.2.flights.head?.any fun f => f.ctx.toNat = p).foldl (fun n e => n + e.2.uncounted s.alm) 0
  look 0 (s.part p).mtr 0 + BitVec.ofNat 64 open_

/-- A meter counter of a partition as a read finds it (R415). -/
def State.meterRead (s : State) (p i : Nat) : DWord := if i = 0 then s.tileNs p else look 0 (s.part p).mtr i

/-- pass[q][t] after a morsel of partition q ended on logical tile t (R403). -/
def State.addPass (s : State) (q t held : Nat) : State :=
  let w := (s.part q).weight.toNat
  if q < 4096 && w ≠ 0 then { s with pass := upd 0 s.pass (16 * q + t) fun x => x + held * 256 / w } else s

/-- A CP stopped outside a kernel: its cache is empty (R209), and a disable that waited has ended (R214, R215). -/
def Cp.stop (c : Cp) : Cp :=
  { c with run := false, halted := false, staging := none, cache := [], flushWait := false, enableWait := false
           cen := if c.flushWait then c.enableWait else c.cen }

/-- CP c of tile t. -/
def State.cpOf (s : State) (t c : Nat) : Cp := look {} s.cps (4 * t + c)
/-- CP c of tile t replaced. -/
def State.setCp (s : State) (t c : Nat) (x : Cp) : State := { s with cps := put {} s.cps (4 * t + c) x }

/-- The kernel of a tile is stopped: no CP runs, dirty lines are written back, no range operation is left (R204, R209). -/
def State.stopKernel (s : State) (t : Nat) : State :=
  let s1 := (List.range 4).foldl (fun (x : State) c =>
    let f := flushCache (x.cpOf t c) (x.tile t)
    (x.setCp t c f.1.stop).setTile t f.2) s
  s1.updTile t fun x => { x with kernel := none, ranges := [], staged := [] }

/-- The compression jobs of a morsel (R246). -/
def State.jobsOf (s : State) (run pipe m : Nat) : List Job := s.cmp.jobs.filter fun j => j.morsel = some (run, pipe, m)

/-- A job of a morsel joins the jobs that wait (R247, R259). -/
def State.queueJob (s : State) (cls : Nat) (morsel : Nat × Nat × Nat) (slot : Nat) : State :=
  { s with hif := { s.hif with nextId := s.hif.nextId + 1 }
           cmp := { s.cmp with jobs := s.cmp.jobs ++
             [{ id := s.hif.nextId, cls := cls, morsel := some morsel, slot := slot, engine := none, retried := false }] } }

/-- The logical tile that physical tile t serves has held a morsel since its claim: its pass value rises (R403). -/
def State.heldPass (s : State) (t : Nat) (f : Flight) : State :=
  match s.logOf t with
  | some l => s.addPass f.ctx.toNat l (s.alm - f.since.toNat)
  | none => s

/-- Flight k of tile t runs no longer: its time is counted, for both tiles of a pair, its kernel and its compression jobs with it
are stopped. -/
def State.endFlight (s : State) (t k : Nat) (f : Flight) : State :=
  let s1 := (s.countTile t s.alm).heldPass t f
  let s2 := match f.partner with
    | some p => s1.heldPass p f
    | none => s1
  let s3 := if (s2.tile t).kernel.any fun kr => kr.flight = k then s2.stopKernel t else s2
  { s3 with cmp := { s3.cmp with jobs := s3.cmp.jobs.filter fun j => j.morsel ≠ some (f.run, f.pipe, f.m) } }

/-- Flight k's place on tile t is free; the kernel that runs keeps its flight. -/
def State.eraseFlight (s : State) (t k : Nat) : State :=
  s.updTile t fun x => { x with
    flights := x.flights.eraseIdx k
    kernel := x.kernel.map fun kr => { kr with flight := if k < kr.flight then kr.flight - 1 else kr.flight } }

/-- Flight k leaves tile t. -/
def State.dropFlight (s : State) (t k : Nat) : State :=
  match (s.tile t).flights[k]? with
  | none => s
  | some f => if f.gone then s.eraseFlight t k else (s.endFlight t k f).eraseFlight t k

/-- The morsels that physical tile t runs: those it claimed, or those it runs as digest partner of another (R85, R86). -/
def State.flightsOn (s : State) (t : Nat) : List Flight :=
  (s.tile t).flights ++ s.tiles.flatMap fun e => e.2.flights.filter fun f => f.partner = some t

/-- Whether a physical tile runs a morsel as another's digest partner. -/
def State.isPartner (s : State) (t : Nat) : Bool := s.tiles.any fun e => e.2.flights.any fun f => f.partner = some t

/-- f applied to tile t and to its digest partner. -/
def State.onPair (s : State) (t : Nat) (partner : Option Nat) (f : Tile → Tile) : State :=
  match partner with
  | some p => (s.updTile t f).updTile p f
  | none => s.updTile t f

/-- ABN_CNT of the tiles of an abandoned morsel counts it (R86, R99), the morsels abandoned without a count in their ledger among
them (R94, R404; log entry 153). -/
def State.countAbn (s : State) (t : Nat) (partner : Option Nat) : State := s.onPair t partner fun x => { x with abn := satInc x.abn }

/-- The flights of tile t that satisfy c are dropped and counted as abandoned, the last first; back applies to each what
becomes of its ledger entry. -/
def State.dropFlights (s : State) (t : Nat) (c : Flight → Bool) (back : Flight → State → State) : State :=
  [1, 0].foldl (fun (x : State) k =>
    match (x.tile t).flights[k]? with
    | some f => if c f && !f.gone then back f ((x.dropFlight t k).countAbn t f.partner) else x
    | none => x) s

/-! ## The end of a run (R90, R94, R95) -/

/-- The abort markers of a run that exchanges with peers, one to each peer of each of its bindings (R460). -/
def State.abortPeers (s : State) (r : Run) : State :=
  r.binds.foldl (fun (y : State) (b : Nat × Word) =>
    (List.range 8).foldl (fun (z : State) e =>
      if (look {} s.plk.bindings b.1).devmask.getLsbD e && e ≠ s.pwr.devid.toNat then z.plkSend e (.plkAbort e b.1 b.2) else z) y) s

/-- A run ends: its morsels in flight are abandoned without a count, its materialisations and pages are freed (R90, R94). -/
def State.removeRun (s : State) (rid : Nat) : State :=
  let s1 := (List.range 18).foldl (fun (x : State) t => x.dropFlights t (fun f => f.run = rid) fun _ y => y) s
  { s1 with runs := s1.runs.filter fun r => r.id ≠ rid }

/-- A run fails or is cancelled: it ends, its peers learn of it, and RUN_PLAN completes with the status; word 1 counts
the re-runs (R95). -/
def State.failRun (s : State) (rid status : Nat) (r0 : Word) : State :=
  match s.run? rid with
  | none => s
  | some r => ((s.abortPeers r).removeRun rid).complete r.cmd status r0 r.reruns

/-- A morsel is abandoned with a count: UNCLAIMED again and re-issued first, or FAILED on the third time, which fails the
run with 0x0411 (R82). -/
def State.abandonLedger (s : State) (f : Flight) : State :=
  match s.run? f.run with
  | none => s
  | some r =>
    let l := (r.pipe f.pipe).led f.m
    if l.state ≠ 1 || l.token ≠ f.token then s
    else if l.count < 2 then
      s.updRun f.run fun x =>
        { x.updPipe f.pipe (fun p => p.updLed f.m fun e => { e with state := 0, count := e.count + 1, reissued := true })
          with reruns := satInc x.reruns }
    else
      (s.updRun f.run fun x => x.updPipe f.pipe fun p => p.updLed f.m fun e => { e with state := 3 }).failRun f.run 0x0411 0

/-- A morsel is abandoned without a count, as for a cancel or a fixed slot: UNCLAIMED and re-issued (R94, R404). -/
def State.abandonFree (s : State) (f : Flight) : State :=
  s.updRun f.run fun x =>
    { x.updPipe f.pipe (fun p => p.updLed f.m fun e => { e with state := 0, reissued := true }) with reruns := satInc x.reruns }

/-- Whether the completion report of flight k of tile t falls in the same SCLK: its row stands in the queue (R28, R82; log entry
122). -/
def State.reports (s : State) (t k : Nat) : Bool := s.comes fun c => match c with | .morselComplete a b _ => a = t && b = k | _ => false

/-- Flight k of tile t is abandoned with a count; where the tile's other morsel reports in the same SCLK it keeps its place till then
(R82). -/
def State.abandonFlight (s : State) (t k : Nat) (f : Flight) : State :=
  let s1 := (s.endFlight t k f).countAbn t f.partner
  let s2 := if k = 0 && s.reports t 1
    then s1.updTile t fun x => { x with flights := setNth x.flights 0 { f with gone := true, partner := none, work := .fails 0 0 0 } }
    else s1.eraseFlight t k
  s2.abandonLedger f

/-- Every morsel in flight on tile t, those it runs as digest partner among them, is abandoned with a count, but those whose completion
is reported in the same SCLK: the completion wins (R82, R86, R474). -/
def State.abandonTile (s : State) (t : Nat) : State :=
  (List.range 18).foldl (fun (x : State) k => [1, 0].foldl (fun (y : State) i =>
    match (y.tile k).flights[i]? with
    | some f => if (k = t || f.partner = some t) && !f.gone && !s.reports k i then y.abandonFlight k i f else y
    | none => y) x) s

end Sys2Proof.Machine
end

