-- ==== Sys2Proof/Machine/Peers.lean ====
section
/-! DEFINITION. Machine/Peers.lean: which devices of the board can be reached, generation increments and their reports,
peer bindings, and the loss of a peer (R18, R451 to R460). -/

namespace Sys2Proof.Machine

/-! ## Reachability (R452 to R454) -/

/-- MASK of link k (R452). -/
def linkMask (k : Nat) : BitVec 3 := BitVec.ofNat 3 (nth [1, 2, 4, 7] k 0)

/-- Link k. -/
def State.link (s : State) (k : Nat) : Link := look {} s.plk.links k

/-- f applied to link k. -/
def State.updLink (s : State) (k : Nat) (f : Link → Link) : State :=
  { s with plk := { s.plk with links := upd {} s.plk.links k f } }

/-- Whether link k is in UP or UP7. -/
def State.linkUp (s : State) (k : Nat) : Bool :=
  k < s.plkCount && ((s.link k).state = 2 || (s.link k).state = 3) && s.ungated

/-- Whether two devices are joined by a link that is up: this device's own links, and those its peers report. -/
def State.joined (s : State) (a b : Nat) : Bool :=
  let own := fun (e : Nat) => (List.range 4).any fun k => s.linkUp k && (s.pwr.devid ^^^ linkMask k).toNat = e
  (a = s.pwr.devid.toNat && own b) || (b = s.pwr.devid.toNat && own a)
    || look false s.plk.remoteUp (8 * a + b) || look false s.plk.remoteUp (8 * b + a)

/-- The devices reached from a set in n more hops. -/
def State.spread (s : State) : Nat → List Nat → List Nat
  | 0, l => l
  | n + 1, l => s.spread n ((List.range 8).filter fun e => l.contains e || l.any fun a => s.joined a e)

/-- Whether a route to device e exists (R453, R454). -/
def State.reaches (s : State) (e : Nat) : Bool := (s.spread 7 [s.pwr.devid.toNat]).contains e

/-- The link of the full topology that joins two devices: its number at either end (R452). -/
def State.wired (s : State) (a b : Nat) : Bool := (List.range s.plkCount).any fun k => (linkMask k).toNat = a ^^^ b

/-- The shortest way to device e over the links of the board beyond this device's own, which are up: the pairs of devices it passes. -/
def State.wayTo (s : State) (e : Nat) : Option (List (Nat × Nat)) :=
  let first := ((List.range 4).filter s.linkUp).map fun k => (s.pwr.devid ^^^ linkMask k).toNat
  let two := (first.find? fun n => s.wired n e).map fun n => [(n, e)]
  let three := (first.flatMap fun n => (List.range 8).map fun m => (n, m)).find? fun x => s.wired x.1 x.2 && s.wired x.2 e
  two.orElse fun _ => three.map fun x => [x, (x.2, e)]

/-- A message from device e shows that a route joins it (R453, R454): where none is known, the links of the shortest way are held to be
up (log entry 110). -/
def State.hear (s : State) (e : Nat) : State :=
  if s.reaches e then s
  else match s.wayTo e with
    | some l => { s with plk := { s.plk with remoteUp := l.foldl (fun m x => put false m (8 * x.1 + x.2) true) s.plk.remoteUp } }
    | none => s

/-- The partner of mirroring (R461). -/
def State.partner (s : State) : Nat := (s.pwr.devid ^^^ 7).toNat

/-! ## Message classes (R454, R455) -/

/-- The hops from one device to another over the links that are up, at most 7; none where there is no route (R453). -/
def State.hops (s : State) (a b : Nat) : Option Nat := (List.range 8).find? fun n => (s.spread n [a]).contains b

/-- The link a message to a device leaves on (R453): the lowest-numbered one that lies on a shortest path. -/
def State.routeTo (s : State) (dest : Nat) : Option Nat :=
  match s.hops s.pwr.devid.toNat dest with
  | some (n + 1) => (List.range 4).find? fun k => s.linkUp k && s.hops (s.pwr.devid ^^^ linkMask k).toNat dest = some n
  | _ => none

/-- The oldest message of a class that leaves on link k, by its place among those that wait (R454). -/
def State.firstMsg (s : State) (k cls : Nat) : Option Nat :=
  s.plk.tx.findIdx? fun m => m.cls = cls && (match m.body with | .plkTime l => l = k | _ => s.routeTo m.dest = some k)

/-- The flits of a class's turn (R455). -/
def classWeight (c : Nat) : Nat := if c = 2 then 1 else 4

/-- The class after another in the round (R455). -/
def nextClass (c : Nat) : Nat := if c = 3 then 1 else c + 1

/-- The class that sends its next flit, and the turn after it (R455): TIME before all; the class whose turn it is until its weight is
used up; otherwise the next one that can send. -/
def arbitrate (can : Nat → Bool) (turn : Nat × Nat) : Option (Nat × (Nat × Nat)) :=
  if can 0 then some (0, turn)
  else if turn.2 ≠ 0 && can turn.1 then some (turn.1, (turn.1, turn.2 - 1))
  else
    let a := nextClass turn.1
    (([a, nextClass a, nextClass (nextClass a)]).find? can).map fun c => (c, (c, classWeight c - 1))

/-- One flit of the message at a place on link k: with the last one the message leaves, and is kept until it is acknowledged; a TIME
message belongs to its link (R454). -/
def State.sendFlit (s : State) (k i : Nat) : State :=
  match s.plk.tx[i]? with
  | none => s
  | some m =>
    if m.flits ≤ 1 then
      let kept := if m.cls = 0 then [] else [(k, { m with flits := m.size })]
      { s with plk := { s.plk with tx := s.plk.tx.eraseIdx i, unacked := s.plk.unacked ++ kept } }.emit m.body
    else { s with plk := { s.plk with tx := s.plk.tx.set i { m with flits := m.flits - 1 } } }

/-- Whether the receiver grants credit for the key of a message of rows (R458). -/
def State.keyOpen (s : State) (i : Option Nat) : Bool :=
  match i.bind fun j => s.plk.tx[j]? with
  | some m => match m.body with | .plkRows dev b exkey _ _ _ _ _ _ _ => Config.keyCredit s.freeCtr dev b exkey | _ => true
  | none => true

/-- A flit slot of link k (R455): of the classes with a message for the link and a credit, the one that arbitration chooses. -/
def State.linkFlit (s : State) (k : Nat) : State :=
  if !s.linkUp k || s.plk.tx.isEmpty then s
  else
    let credit := fun c => Config.plkCredit (s.freeCtr + c)
    let s1 := { s with freeCtr := s.freeCtr + 4 }
    match arbitrate (fun c => (s.firstMsg k c).isSome && credit c && s.keyOpen (s.firstMsg k c)) (look (3, 0) s.plk.turn k) with
    | none => s1
    | some (c, turn) =>
      let s2 := { s1 with plk := { s1.plk with turn := put (3, 0) s1.plk.turn k turn } }
      match s.firstMsg k c with
      | some i => s2.sendFlit k i
      | none => s2

/-- Messages that are acknowledged end to end are kept no longer (R454). -/
def State.plkAcks (s : State) : State :=
  { s with plk := { s.plk with unacked := (s.plk.unacked.zipIdx.filter fun e => !Config.plkAcked (s.freeCtr + e.2)).map (·.1) }
           freeCtr := s.freeCtr + s.plk.unacked.length }

/-- Where the route to a device has changed from what it was in `old`, the messages to it that are not acknowledged are sent again over the
new one, before those that wait, and one that was leaving starts anew (R454). -/
def State.resend (s old : State) : State :=
  let moved := (List.range 8).filter fun e => s.routeTo e ≠ old.routeTo e
  let again := (s.plk.unacked.filter fun e => moved.contains e.2.dest).map (·.2)
  { s with plk := { s.plk with
    tx := again ++ s.plk.tx.map (fun m => if moved.contains m.dest then { m with flits := m.size } else m)
    unacked := s.plk.unacked.filter fun e => !moved.contains e.2.dest } }

/-- The links in one tick: each sends at most one flit. -/
def State.linkTick (s : State) : State := ((List.range 4).foldl (fun (x : State) k => x.linkFlit k) s).plkAcks

/-! ## Bindings (R456) -/

/-- Binding b. -/
def State.binding (s : State) (b : Nat) : Binding := look {} s.plk.bindings b

/-- f applied to binding b. -/
def State.updBinding (s : State) (b : Nat) (f : Binding → Binding) : State :=
  { s with plk := { s.plk with bindings := upd {} s.plk.bindings b f } }

/-- The eight CTX entries of a binding. -/
def Binding.entries (x : Binding) : List (BitVec 13) := (List.range 8).map fun e => look 0 x.ctxs e

/-- The devices a bit mask names. -/
def devsOf (m : BitVec 8) : List Nat := (List.range 8).filter fun e => m.getLsbD e

/-- A device's bit. -/
def devBit (e : Nat) : BitVec 8 := BitVec.ofNat 8 (2 ^ e)

/-- Whether the binding is UP toward every device of its DEVMASK (R457). -/
def Binding.allUp (x : Binding) : Bool := x.en && x.up &&& x.devmask = x.devmask

/-- The runs whose plan exchanges over binding b. -/
def State.runsOn (s : State) (b : Nat) : List Nat :=
  (s.runs.filter fun r => r.binds.any fun x => x.1 = b).map (·.id)

/-- Every run over binding b fails with 0x0410 (R460). -/
def State.failBinding (s : State) (b : Nat) : State := (s.runsOn b).foldl (fun x r => x.failRun r 0x0410 0) s

/-- The enabled bindings' numbers. -/
def State.boundNumbers (s : State) : List Nat := s.plk.bindings.filterMap fun e => if e.2.en then some e.1 else none

/-! ## Generations (R406, R18, R459) -/

/-- The peers that must acknowledge a new GEN of partition p: those reachable that hold an UP binding to it (R459). -/
def State.genPeers (s : State) (p : Nat) : BitVec 8 :=
  s.boundNumbers.foldl (fun m b =>
    let x := s.binding b
    if x.part.toNat = p then
      (devsOf x.devmask).foldl (fun k e => if e ≠ s.pwr.devid.toNat && x.up.getLsbD e && s.reaches e then k ||| devBit e else k) m
    else m) 0

/-- The GEN update messages of partition p (R459). -/
def State.sendGens (s : State) (p : Nat) : State :=
  s.boundNumbers.foldl (fun (y : State) b =>
    let x := s.binding b
    if x.part.toNat = p then
      (devsOf x.devmask).foldl (fun (z : State) e =>
        if e ≠ s.pwr.devid.toNat && s.reaches e then z.plkSend e (.plkGen e b (s.part p).gen) else z) y
    else y) s

/-- GEN of partition p increments (R406); its report waits for the peers (R18, R459). -/
def State.genIncrement (s : State) (p : Nat) : State :=
  (s.updPart p fun x => { x with gen := x.gen + 1, genWait := some (s.genPeers p) }).sendGens p

/-- A key: the fresh random key of TRUST (R399), which nothing constrains. -/
def State.freshKey (s : State) (p : Nat) : State :=
  { s with trust := { s.trust with keys := put none s.trust.keys p (some (Config.freeKey s.freeCtr)) }, freeCtr := s.freeCtr + 1 }

/-- A device can no longer be reached: the bindings with it are LOST and not UP, its acknowledgements are not waited for,
and runs over them fail (R459, R460); the messages to it are lost (R454). -/
def State.losePeer (s : State) (e : Nat) : State :=
  let s0 := { s with plk := { s.plk with tx := s.plk.tx.filter (fun m => m.dest ≠ e), unacked := s.plk.unacked.filter (fun m => m.2.dest ≠ e) } }
  let s1 := { s0 with parts := (s0.parts.map fun (x : Nat × Part) => (x.1, { x.2 with genWait := x.2.genWait.map fun m => m &&& ~~~devBit e })) }
  s1.boundNumbers.foldl (fun (y : State) b =>
    let x := y.binding b
    if x.devmask.getLsbD e && e ≠ s.pwr.devid.toNat then
      (y.updBinding b fun z => { z with up := z.up &&& ~~~devBit e, lost := z.lost ||| devBit e }).failBinding b
    else y) s1

end Sys2Proof.Machine
end

