-- ==== Sys2Proof/Machine/Values.lean ====
section
/-! DEFINITION. Machine/Values.lean: types (R153), order and equality (R109, R110), three-valued logic (R104), arithmetic under
the plan's mode (R106 to R108), CAST (R545), DZH64 (R112, R113). -/

namespace Sys2Proof.Machine

/-! ## Types (R153) -/

/-- A type with its attribute. -/
abbrev Ty := Nat × Nat

/-- Signed integer types INT8 to INT64. -/
def isSInt (t : Nat) : Bool := 2 ≤ t && t ≤ 5
/-- Unsigned integer types UINT8 to UINT64. -/
def isUInt (t : Nat) : Bool := 6 ≤ t && t ≤ 9
/-- Integer types. -/
def isInteger (t : Nat) : Bool := isSInt t || isUInt t
/-- FP32, FP64. -/
def isFp (t : Nat) : Bool := t = 0x0A || t = 0x0B
/-- VARBYTES, FIXBYTES. -/
def isBytes (t : Nat) : Bool := t = 0x10 || t = 0x11
/-- DATE32, TS64. -/
def isTime (t : Nat) : Bool := t = 0x0D || t = 0x0E
/-- The types whose values are counted exactly: integers, DEC128, DATE32, TS64. -/
def isExact (t : Nat) : Bool := isInteger t || t = 0x0C || isTime t

/-- Whether a type code and attribute are defined (R153). -/
def tyOk (t a : Nat) : Bool :=
  1 ≤ t && t ≤ 0x12 && t ≠ 0x0F && (if t = 0x0C then a ≤ 38 else if t = 0x11 then a < 256 else a = 0)

/-- Bytes of a value of a fixed-width type (R153); 0 for VARBYTES. -/
def tyWidth (t a : Nat) : Nat :=
  match t with
  | 1 | 2 | 6 => 1
  | 3 | 7 => 2
  | 4 | 8 | 0x0A | 0x0D => 4
  | 5 | 9 | 0x0B | 0x0E | 0x12 => 8
  | 0x0C => 16
  | 0x11 => a + 1
  | _ => 0

/-- Whether operands of two types compare (R110). -/
def comparable (t u : Nat) : Bool :=
  t = u || (isInteger t && isInteger u) || (isFp t && isFp u) || (isBytes t && isBytes u)

/-- The scale of a type: ATTR for DEC128, 0 otherwise. -/
def scaleOf (t : Ty) : Nat := if t.1 = 0x0C then t.2 else 0

/-- The end of DEC128's range (R106). -/
def decMax : Int := 10 ^ 38 - 1

/-- The range of an exact type (R106). -/
def tyRange (t : Nat) : Int × Int :=
  if t = 0x0C then (-decMax, decMax)
  else
    let n := 8 * tyWidth t 0
    if isUInt t then (0, 2 ^ n - 1) else (-(2 ^ (n - 1)), 2 ^ (n - 1) - 1)

/-- Whether an exact value lies in its type's range. -/
def inTy (t : Nat) (z : Int) : Bool := (tyRange t).1 ≤ z && z ≤ (tyRange t).2

/-- The value that wraps into a type: modulo 2^n, the low 128 bits for DEC128 (R106). -/
def wrapTy (t : Nat) (z : Int) : Int :=
  let n := 8 * tyWidth t 0
  if isUInt t then z % 2 ^ n else (BitVec.ofInt n z).toInt

/-- An exact result in its type under ARITH (0 WRAP, 1 SATURATE, 2 TRAP; R106); none is the trap. -/
def fitTy (mode t : Nat) (z : Int) : Option Val :=
  if inTy t z then some (.int z)
  else if mode = 0 then some (.int (wrapTy t z))
  else if mode = 1 then some (.int (if z < (tyRange t).1 then (tyRange t).1 else (tyRange t).2))
  else none

/-- The value of a type that bytes hold, little-endian (R154); none where a BOOL byte is not 0 or 1 or a DEC128 is out of
range (R177, 0x0446). -/
def valOf (t : Nat) (bs : List Byte) : Option Val :=
  let n := leNat bs
  match t with
  | 1 => if n < 2 then some (.bool (n = 1)) else none
  | 0x0A => some (.f32 (BitVec.ofNat 32 n))
  | 0x0B => some (.f64 (BitVec.ofNat 64 n))
  | 0x0C => let z := (BitVec.ofNat 128 n).toInt; if inTy 0x0C z then some (.int z) else none
  | 0x10 | 0x11 => some (.bytes bs)
  | 0x12 => some (.cf (BitVec.ofNat 32 n) (BitVec.ofNat 32 (n / 2 ^ 32)))
  | _ => some (.int (if isUInt t then (n : Int) else (BitVec.ofNat (8 * tyWidth t 0) n).toInt))

/-- The bytes of a value, little-endian, in its type's width; zeros for null (R154). -/
def valBytes (t a : Nat) (v : Val) : List Byte :=
  let w := tyWidth t a
  match v with
  | .null => if t = 0x10 then [] else List.replicate w 0
  | .bool b => [if b then 1 else 0]
  | .int z => natLE w (BitVec.ofInt (8 * w) z).toNat
  | .f32 b => natLE 4 b.toNat
  | .f64 b => natLE 8 b.toNat
  | .bytes bs => bs
  | .cf x y => natLE 4 x.toNat ++ natLE 4 y.toNat

/-- A parameter value of a type: its 16 bytes as a value; null for none (R73). -/
def paramVal (t : Ty) (v : Option (List Byte)) : Val :=
  match v with
  | none => .null
  | some bs => (valOf t.1 (sub bs 0 (tyWidth t.1 t.2))).getD .null

/-! ## Order and equality (R109) -/

/-- Byte strings in order: negative, zero or positive. -/
def cmpBytes : List Byte → List Byte → Int
  | [], [] => 0
  | [], _ :: _ => -1
  | _ :: _, [] => 1
  | x :: a, y :: b => if x = y then cmpBytes a b else if x.toNat < y.toNat then -1 else 1

/-- The FP64 bits of an FP value; FP32 converts exactly. -/
def asF64 : Val → Nat
  | .f32 b => (fpToFp f32 f64 b.toNat).1
  | .f64 b => b.toNat
  | _ => 0

/-- Two values that are not null, in the order of R109: negative, zero or positive. -/
def cmpVal (t u : Ty) (v w : Val) : Int :=
  match v, w with
  | .bool a, .bool b => (b2n a : Int) - b2n b
  | .int a, .int b => a * 10 ^ scaleOf u - b * 10 ^ scaleOf t
  | .bytes a, .bytes b => cmpBytes a b
  | .cf a b, .cf c d => if fpTotal f32 a.toNat c.toNat = 0 && fpTotal f32 b.toNat d.toNat = 0 then 0 else 1
  | v, w => fpTotal f64 (asF64 v) (asF64 w)

/-- Equality as grouping, sorting and EXCHANGE use it: nulls are equal to one another (R105). -/
def sameVal (t u : Ty) (v w : Val) : Bool :=
  match v, w with
  | .null, .null => true
  | .null, _ => false
  | _, .null => false
  | v, w => cmpVal t u v w = 0

/-- The canonical form of a key that is written out (R111). -/
def canonVal : Val → Val
  | .f32 b => if (unpack f32 b.toNat).isNan then .f32 0x7FC00000 else if b = 0x80000000 then .f32 0 else .f32 b
  | .f64 b => if (unpack f64 b.toNat).isNan then .f64 0x7FF8000000000000 else if b = 0x8000000000000000 then .f64 0 else .f64 b
  | .cf x y =>
    let c := fun (b : BitVec 32) => if (unpack f32 b.toNat).isNan then (0x7FC00000 : BitVec 32) else if b = 0x80000000 then 0 else b
    .cf (c x) (c y)
  | v => v

/-! ## Predicates (R104, R105, R123) -/

/-- NOT. -/
def not3 : Val → Val
  | .bool b => .bool !b
  | v => v

/-- AND. -/
def and3 : Val → Val → Val
  | .bool false, _ => .bool false
  | _, .bool false => .bool false
  | .bool true, .bool true => .bool true
  | _, _ => .null

/-- OR. -/
def or3 : Val → Val → Val
  | .bool true, _ => .bool true
  | _, .bool true => .bool true
  | .bool false, .bool false => .bool false
  | _, _ => .null

/-- The comparison PRED 0 to 5 (R123); UNKNOWN with a null. -/
def pred3 (p : Nat) (t u : Ty) (v w : Val) : Val :=
  match v, w with
  | .null, _ => .null
  | _, .null => .null
  | v, w =>
    let c := cmpVal t u v w
    .bool (match p with
      | 0 => c = 0 | 1 => c ≠ 0 | 2 => c < 0 | 3 => c ≤ 0 | 4 => 0 < c | _ => 0 ≤ c)

/-! ## Arithmetic (R106 to R108) -/

/-- Round half away from zero: z / 10^k. -/
def roundHalfAway (z : Int) (den : Nat) : Int :=
  let q := (2 * z.natAbs + den) / (2 * den)
  if z < 0 then -(q : Int) else q

/-- An exact value at scale s brought to scale `to`, rounded half away from zero (R108). -/
def rescale (z : Int) (s dest : Nat) : Int := if s ≤ dest then z * 10 ^ (dest - s) else roundHalfAway z (10 ^ (s - dest))

/-- The value num / den of a format, rounded once to nearest even. -/
def ratToFp (f : Fmt) (num : Int) (den : Nat) : Nat :=
  let k := Nat.log2 den + f.mb + 4
  let n := num.natAbs * 2 ^ k
  (roundFp f (num < 0) (n / den) (-(k : Int)) (n % den ≠ 0)).1

/-- An FP value as an exact multiple of 2^-1074; none for NaN and the infinities. -/
def fpExact (f : Fmt) (x : Nat) : Option Int :=
  match unpack f x with
  | .fin neg m e => let z : Int := (m * 2 ^ (e + 1074).toNat : Nat); some (if neg then -z else z)
  | _ => none

/-- The exact truncated remainder of an FP division, with the sign of a (R126). -/
def fpRem (f : Fmt) (a b : Nat) : Nat :=
  match unpack f a, unpack f b with
  | .nan _, _ => f.nan
  | _, .nan _ => f.nan
  | .inf _, _ => f.nan
  | .fin _ _ _, .inf _ => a
  | .fin n m e, .fin _ k d =>
    if k = 0 then f.nan
    else
      let q := min e d
      let r := (m * 2 ^ (e - q).toNat) % (k * 2 ^ (d - q).toNat)
      if r = 0 then f.signed n 0 else (roundFp f n r q false).1

/-- ADD, SUB, MUL, DIV, MOD (1 to 5) on FP bits. -/
def fpArith (fn : Nat) (f : Fmt) (a b : Nat) : Nat :=
  match fn with
  | 1 => (fpAdd f a b).1
  | 2 => (fpSub f a b).1
  | 3 => (fpMul f a b).1
  | 4 => (fpDiv f a b).1
  | _ => fpRem f a b

/-- The quotient of a division by zero under ARITH (R106). -/
def divZero (mode t : Nat) (isDiv : Bool) (z : Int) : Option Val :=
  if mode = 0 then some (.int 0)
  else if mode = 1 then
    some (.int (if !isDiv || z = 0 then 0 else if z < 0 then (tyRange t).1 else (tyRange t).2))
  else none

/-- ADD, SUB, MUL, DIV, MOD on exact values at scales s and r, with the result at the scale of `t` (R106, R108, R126). -/
def exactArith (fn mode : Nat) (t : Ty) (s r : Nat) (a b : Int) : Option Val :=
  let dest := scaleOf t
  match fn with
  | 1 => fitTy mode t.1 (rescale a s dest + rescale b r dest)
  | 2 => fitTy mode t.1 (rescale a s dest - rescale b r dest)
  | 3 => fitTy mode t.1 (rescale (a * b) (s + r) dest)
  | 4 =>
    if b = 0 then divZero mode t.1 true a
    else if t.1 = 0x0C then
      (let num := a * 10 ^ (r + dest) * (if b < 0 then -1 else 1)
       fitTy mode t.1 (roundHalfAway num (b.natAbs * 10 ^ s)))
    else fitTy mode t.1 (a.tdiv b)
  | _ =>
    if b = 0 then divZero mode t.1 false a
    else
      let m := max s r
      fitTy mode t.1 (rescale ((rescale a s m).tmod (rescale b r m)) m dest)

/-- A function ADD to ABS (FN 1 to 7) of PROJECT on values of types ta and tb; null with a null operand; none is the
trap. -/
def arith (fn mode : Nat) (t ta tb : Ty) (v w : Val) : Option Val :=
  let un := fn = 6 || fn = 7
  match v, w with
  | .null, _ => some .null
  | .int a, .int b =>
    if un then fitTy mode t.1 (let z := rescale a (scaleOf ta) (scaleOf t); if fn = 6 then -z else z.natAbs)
    else exactArith fn mode t (scaleOf ta) (scaleOf tb) a b
  | .int a, w =>
    if un then fitTy mode t.1 (let z := rescale a (scaleOf ta) (scaleOf t); if fn = 6 then -z else z.natAbs)
    else if w = .null then some .null else some .null
  | .f32 a, .f32 b => some (.f32 (BitVec.ofNat 32 (if fn = 6 then (fpNeg f32 a.toNat).1 else if fn = 7 then (fpAbs f32 a.toNat).1 else fpArith fn f32 a.toNat b.toNat)))
  | .f64 a, .f64 b => some (.f64 (BitVec.ofNat 64 (if fn = 6 then (fpNeg f64 a.toNat).1 else if fn = 7 then (fpAbs f64 a.toNat).1 else fpArith fn f64 a.toNat b.toNat)))
  | .cf a b, .cf c d =>
    let x := cfMk a.toNat b.toNat
    let y := cfMk c.toNat d.toNat
    let z := if fn = 1 then (cfAdd x y).1 else if fn = 2 then (cfSub x y).1 else if fn = 3 then (cfMul x y).1
      else cfMk (fpNeg f32 a.toNat).1 (fpNeg f32 b.toNat).1
    some (.cf (BitVec.ofNat 32 (cfRe z)) (BitVec.ofNat 32 (cfIm z)))
  | _, _ => some .null

/-! ## CAST (R545) -/

/-- An FP value to an exact type at scale `sc`: truncated for an integer, rounded half away for DEC128 (R106, R545;
under WRAP too, log entry 162). -/
def fpToExact (mode t sc : Nat) (x : Nat) : Option Val :=
  match unpack f64 x with
  | .nan _ => if mode = 2 then none else some (.int 0)
  | .inf neg =>
    if mode = 2 then none
    else some (.int (if mode = 0 then 0 else if neg then (tyRange t).1 else (tyRange t).2))
  | .fin neg m e =>
    let num : Nat := m * 10 ^ sc * 2 ^ e.toNat
    let den : Nat := 2 ^ (-e).toNat
    let q : Nat := if t = 0x0C then (2 * num + den) / (2 * den) else num / den
    fitTy mode t (if neg then -(q : Int) else q)

/-- Bytes cut or padded to a target's length (R545). -/
def fitBytes (mode : Nat) (t : Ty) (bs : List Byte) : Option Val :=
  let n := t.2 + 1
  if t.1 = 0x10 then (if bs.length ≤ 65535 then some (.bytes bs) else if mode = 2 then none else some (.bytes (bs.take 65535)))
  else if bs.length = n then some (.bytes bs)
  else if mode = 2 then none
  else some (.bytes (sub bs 0 n))

/-- Nanoseconds of a day. -/
def dayNs : Int := 86400000000000

/-- CAST of a value of type `f` to type `t` (R545); none is the trap. -/
def castVal (mode : Nat) (f t : Ty) (v : Val) : Option Val :=
  if f = t then some v
  else
    match v with
    | .null => some .null
    | .bool b =>
      if isFp t.1 then
        (if t.1 = 0x0A then some (.f32 (if b then 0x3F800000 else 0)) else some (.f64 (if b then 0x3FF0000000000000 else 0)))
      else fitTy mode t.1 (b2n b * 10 ^ scaleOf t)
    | .int z =>
      if t.1 = 1 then some (.bool (z ≠ 0))
      else if t.1 = 0x0A then some (.f32 (BitVec.ofNat 32 (ratToFp f32 z (10 ^ scaleOf f))))
      else if t.1 = 0x0B then some (.f64 (BitVec.ofNat 64 (ratToFp f64 z (10 ^ scaleOf f))))
      else if f.1 = 0x0D && t.1 = 0x0E then fitTy mode t.1 (z * dayNs)
      else if f.1 = 0x0E && t.1 = 0x0D then fitTy mode t.1 (z / dayNs)
      else fitTy mode t.1 (rescale z (scaleOf f) (scaleOf t))
    | .bytes bs => fitBytes mode t bs
    | .cf a b => some (.cf a b)
    | v =>
      let x := asF64 v
      let single : BitVec 32 := match v with | .f32 b => b | _ => BitVec.ofNat 32 (fpToFp f64 f32 x).1
      if t.1 = 1 then some (.bool (match unpack f64 x with | .fin _ m _ => m ≠ 0 | _ => true))
      else if t.1 = 0x0A then some (.f32 single)
      else if t.1 = 0x0B then some (.f64 (BitVec.ofNat 64 x))
      else if t.1 = 0x12 then some (.cf single 0)
      else fpToExact mode t.1 (scaleOf t) x

/-- Whether CAST converts between two types (R545). -/
def castOk (f t : Nat) : Bool :=
  let num := fun x => isInteger x || x = 0x0C
  f = t || (num f && (num t || isFp t || t = 1)) || (isInteger f && isTime t)
    || (isFp f && (num t || isFp t || t = 1 || t = 0x12)) || (f = 1 && (num t || isFp t))
    || (isTime f && (isTime t || isInteger t)) || (isBytes f && isBytes t)

/-! ## DZH64 (R112, R113) -/

/-- The lanes a key column adds (R112). -/
def lanesOf (t : Nat) (v : Val) : List DWord :=
  let fp := fun (x : Nat) =>
    match canonVal (.f64 (BitVec.ofNat 64 x)) with
    | .f64 b => b
    | _ => 0
  match v with
  | .null => [0x6C6C756E6C6C756E]
  | .bool b => [if b then 1 else 0]
  | .int z => if t = 0x0C then (let b := BitVec.ofInt 128 z; [b.setWidth 64, (b >>> 64).setWidth 64]) else [BitVec.ofInt 64 z]
  | .cf a b => [fp (asF64 (.f32 a)), fp (asF64 (.f32 b))]
  | .bytes bs =>
    BitVec.ofNat 64 bs.length :: (List.range (ceilDiv bs.length 8)).map fun i => BitVec.ofNat 64 (fieldLE bs (8 * i) 8)
  | v => [fp (asF64 v)]

/-- One step of DZH64 (R113). -/
def dzStep (p : DWord × DWord) (x : DWord) : DWord × DWord :=
  let a := p.1 ^^^ x
  let b := p.2 + a
  (a.rotateLeft 24 ^^^ b, b)

/-- DZH64 of a sequence of lanes (R113). -/
def dzh64 (w : List DWord) : DWord :=
  let r := (w ++ [0, 0, 0]).foldl dzStep (0x9E3779B97F4A7C15, 0x6A09E667F3BCC908 ^^^ BitVec.ofNat 64 w.length)
  r.1 + r.2

/-- DZH64 of a key: its columns with their types. -/
def hashKey (key : List (Nat × Val)) : DWord := dzh64 (key.flatMap fun e => lanesOf e.1 e.2)

end Sys2Proof.Machine
end

