-- ==== Sys2Proof/Machine/PlanImage.lean ====
section
/-! DEFINITION. Machine/PlanImage.lean: the plan image (R59 to R70): its tables, and the header, layout, limit, shape, graph and
kernel checks of LOAD_PLAN (R74). The operand check stands in Machine/PlanCheck.lean. -/

namespace Sys2Proof.Machine

/-! ## Operand specifiers (R68) -/

/-- Mode of an operand specifier. -/
def omode (x : Nat) : Nat := x / 4096
/-- Index of an operand specifier. -/
def oix (x : Nat) : Nat := x % 4096

/-- BYREF of a parameter descriptor (R66). -/
def ParamRec.byref (p : ParamRec) : Bool := bit p.dflags 1
/-- REQUIRED of a parameter descriptor (R66). -/
def ParamRec.required (p : ParamRec) : Bool := bit p.dflags 0
/-- SINGLE of a pipeline record (R62). -/
def PipeRec.single (p : PipeRec) : Bool := bit p.flags 0
/-- FINAL of a pipeline record (R62). -/
def PipeRec.final (p : PipeRec) : Bool := bit p.flags 1
/-- The materialisations a pipeline waits for (R62). -/
def PipeRec.needs (p : PipeRec) : List Nat := p.deps.filter (· ≠ 0xFFFF)
/-- Rows of a morsel (R62). -/
def PipeRec.rows (p : PipeRec) : Nat := if p.morselRows = 0 then 16384 else p.morselRows

/-! ## Parsing -/

/-- Offset and length of section i (R59). -/
def sect (img : List Byte) (i : Nat) : Nat × Nat := (fieldLE img (0x10 + 8 * i) 4, fieldLE img (0x14 + 8 * i) 4)

/-- The op word at an offset (R67). -/
def opWord (img : List Byte) (o : Nat) : OpWord :=
  let b := sub img o 16
  { op := fieldLE b 15 1, flags := fieldLE b 14 1, ty := fieldLE b 13 1, attr := fieldLE b 12 1, dst := fieldLE b 10 2
    a := fieldLE b 8 2, b := fieldLE b 6 2, c := fieldLE b 4 2, imm := fieldLE b 0 4 }

/-- PIPE_COUNT (R62). -/
def pipeCount (img : List Byte) : Nat := fieldLE img (sect img 0).1 2
/-- MAT_COUNT (R62). -/
def matCount (img : List Byte) : Nat := fieldLE img ((sect img 0).1 + 2) 2
/-- KCOUNT (R63). -/
def constCount (img : List Byte) : Nat := fieldLE img (sect img 2).1 4
/-- KERNEL_COUNT (R64). -/
def kernelCount (img : List Byte) : Nat := fieldLE img (sect img 3).1 2
/-- PARAM_COUNT (R66). -/
def paramCount (img : List Byte) : Nat := fieldLE img (sect img 4).1 2
/-- Offset of pipeline record i (R62). -/
def pipeOfs (img : List Byte) (i : Nat) : Nat := (sect img 0).1 + 8 + 32 * i
/-- Offset of materialisation record j (R62). -/
def matOfs (img : List Byte) (j : Nat) : Nat := pipeOfs img (pipeCount img + j)
/-- Offset of op word i. -/
def opOfs (img : List Byte) (i : Nat) : Nat := (sect img 1).1 + 16 * i
/-- Offset and length of constant k within its section (R63). -/
def constAt (img : List Byte) (k : Nat) : Nat × Nat := (fieldLE img ((sect img 2).1 + 8 + 8 * k) 4, fieldLE img ((sect img 2).1 + 12 + 8 * k) 4)

/-- The tables of an image (R59 to R66), whatever they hold. -/
def parsePlan (img : List Byte) : Plan :=
  let cs := (sect img 2).1
  let ks := (sect img 3).1
  { image := img, arith := fieldLE img 6 2 % 4
    pipes := (List.range (pipeCount img)).map fun i =>
      let o := pipeOfs img i
      { opFirst := fieldLE img o 4, opCount := fieldLE img (o + 4) 2, flags := fieldLE img (o + 6) 2
        deps := (List.range 4).map fun d => fieldLE img (o + 8 + 2 * d) 2
        morselRows := fieldLE img (o + 0x10) 4, scratchKib := fieldLE img (o + 0x14) 4 }
    mats := (List.range (matCount img)).map fun j =>
      let o := matOfs img j
      { kind := fieldLE img o 1, mflags := fieldLE img (o + 1) 1, producer := fieldLE img (o + 2) 2, hbmPages := fieldLE img (o + 4) 4
        spillParam := fieldLE img (o + 8) 2, rowBytes := fieldLE img (o + 10) 2 }
    ops := (List.range ((sect img 1).2 / 16)).map fun i => opWord img (opOfs img i)
    consts := (List.range (constCount img)).map fun k => sub img (cs + (constAt img k).1) (constAt img k).2
    pool := sub img cs (sect img 2).2
    kernels := (List.range (kernelCount img)).map fun k =>
      let o := ks + 8 + 16 * k
      { ofs := fieldLE img o 4, len := fieldLE img (o + 4) 4, entry := fieldLE img (o + 8) 4, flags := fieldLE img (o + 12) 4
        code := sub img (ks + fieldLE img o 4) (fieldLE img (o + 4) 4) }
    params := (List.range (paramCount img)).map fun i =>
      let o := (sect img 4).1 + 8 + 32 * i
      { ty := fieldLE img o 1, attr := fieldLE img (o + 1) 1, dflags := fieldLE img (o + 2) 2, dflt := sub img (o + 0x10) 16 }
    cols := [] }

/-- The op words of pipeline i. -/
def Plan.words (pl : Plan) (i : Nat) : List OpWord :=
  match pl.pipes[i]? with
  | some p => (pl.ops.drop p.opFirst).take p.opCount
  | none => []

/-- The closing op word of pipeline i. -/
def Plan.sink (pl : Plan) (i : Nat) : Option OpWord := (pl.words i).getLast?

/-! ## Checks: each gives the offsets of the fields found wrong (R74) -/

/-- Offsets of the fields whose condition fails. -/
def wrong (l : List (Bool × Nat)) : List Nat := (l.filter fun e => !e.1).map (·.2)

/-- The first non-zero byte among n reserved ones. -/
def nonZero (img : List Byte) (o n : Nat) : List Nat := (((List.range n).find? fun i => fieldLE img (o + i) 1 ≠ 0).map (o + ·)).toList

/-- Check 1: the header (R59, R74). -/
def headerFaults (img : List Byte) (len : Nat) : List Nat :=
  if len < 64 then [8]
  else wrong [(fieldLE img 0 4 = 0x4E594C56, 0), (fieldLE img 6 2 < 3, 6),
    (fieldLE img 8 4 = len && len % 8 = 0, 8), (fieldLE img 12 2 = 5, 12), (fieldLE img 14 2 = 0, 14)]

/-- Check 4, the layout of the sections (R60). -/
def layoutFaults (img : List Byte) : List Nat :=
  (List.range 5).flatMap fun i =>
    let s := sect img i
    let before := if i = 0 then 64 else (List.range i).foldl (fun m k => max m ((sect img k).1 + (sect img k).2)) 64
    wrong [(s.1 % 16 = 0 && before ≤ s.1, 0x10 + 8 * i), (s.1 + s.2 ≤ fieldLE img 8 4 && (i = 1 || 8 ≤ s.2), 0x14 + 8 * i)]

/-- Check 4, section lengths against their counts, reserved header bytes, constant index (R62 to R66, R74). -/
def lengthFaults (img : List Byte) : List Nat :=
  let s := sect img
  let k := constCount img
  wrong [((s 0).2 = 8 + 32 * (pipeCount img + matCount img), 0x14), ((s 1).2 % 16 = 0, 0x1C), (8 + 8 * k ≤ (s 2).2, 0x24),
      (8 + 16 * kernelCount img ≤ (s 3).2, 0x2C), ((s 4).2 = 8 + 32 * paramCount img, 0x34)]
    ++ nonZero img ((s 0).1 + 4) 4 ++ nonZero img ((s 2).1 + 4) 4 ++ nonZero img ((s 3).1 + 2) 6 ++ nonZero img ((s 4).1 + 2) 6
    ++ (if 8 + 8 * k ≤ (s 2).2 then
          (List.range k).flatMap fun i => wrong
            [((constAt img i).1 % 8 = 0 && 8 + 8 * k ≤ (constAt img i).1 && (constAt img i).1 + (constAt img i).2 ≤ (s 2).2, (s 2).1 + 8 + 8 * i)]
        else [])

/-- Check 5: the limits of R76. -/
def limitFaults (img : List Byte) : List Nat :=
  let n := pipeCount img
  wrong [(fieldLE img 8 4 ≤ 0x1000000, 8), (1 ≤ n && n ≤ 256, (sect img 0).1), (matCount img ≤ 256, (sect img 0).1 + 2),
      (constCount img ≤ 4096, (sect img 2).1), ((sect img 2).2 ≤ 0x100000, 0x24), (kernelCount img ≤ 256, (sect img 3).1),
      (paramCount img ≤ 256, (sect img 4).1)]
    ++ ((List.range n).flatMap fun i =>
        let c := fieldLE img (pipeOfs img i + 4) 2
        wrong [(1 ≤ c && c ≤ 256, pipeOfs img i + 4)])
    ++ (List.range (kernelCount img)).flatMap fun k =>
        let o := (sect img 3).1 + 8 + 16 * k + 4
        wrong [(fieldLE img o 4 ≤ 65536, o)]

/-- Check 6: the opcodes (R69). -/
def opcodeFaults (pl : Plan) : List Nat :=
  pl.ops.zipIdx.flatMap fun e => wrong [(1 ≤ e.1.op && e.1.op ≤ 0x14, opOfs pl.image e.2 + 15)]

/-- Source op words (R69). -/
def isSource (op : Nat) : Bool := op = 1 || op = 0x0B
/-- Sink op words (R69). -/
def isSink (op : Nat) : Bool := [6, 9, 0x0A, 0x0C, 0x0D, 0x0E, 0x10, 0x11].contains op

/-- The KIND a sink writes (R70). -/
def sinkKind (op : Nat) : Nat :=
  match op with
  | 6 => 1
  | 0x0A | 0x0C => 2
  | 0x0D => 3
  | 9 => 4
  | 0x0E => 5
  | _ => 0

/-- Check 8 on one pipeline: its record and its shape (R62, R70, R137, R140). -/
def pipeFaults (pl : Plan) (i : Nat) (p : PipeRec) : List Nat :=
  let o := pipeOfs pl.image i
  let ws := pl.words i
  let at_ := fun k => opOfs pl.image (p.opFirst + k) + 15
  let ops := ws.map (·.op)
  let n := (ops.takeWhile isSource).length
  wrong [(p.flags < 4, o + 6), (p.morselRows ≤ 65536, o + 0x10), (1 ≤ p.scratchKib && p.scratchKib ≤ 8192, o + 0x14),
      (fieldLE pl.image (o + 0x18) 8 = 0, o + 0x18), (p.opFirst + p.opCount ≤ pl.ops.length, o),
      ((List.range i).all fun j => match pl.pipes[j]? with
        | some q => p.opFirst + p.opCount ≤ q.opFirst || q.opFirst + q.opCount ≤ p.opFirst
        | none => true, o)]
    ++ (if pl.ops.length < p.opFirst + p.opCount then []
        else
          wrong (([(0 < n, at_ 0)] : List (Bool × Nat))
            ++ (List.range n).map (fun k => (decide (nth ops k 0 = nth ops 0 0), at_ k))
            ++ ([(isSink (nth ops (p.opCount - 1) 0), at_ (p.opCount - 1))] : List (Bool × Nat))
            ++ (List.range (p.opCount - 1)).map (fun k => (k < n || !(isSource (nth ops k 0) || isSink (nth ops k 0)), at_ k))
            ++ (List.range p.opCount).map (fun k => (nth ops k 0 ≠ 0x13 || p.single, at_ k))
            ++ (List.range p.opCount).map (fun k => (nth ops k 0 ≠ 0x14 || (ops.take k).all (fun x => !([3, 7, 8, 0x0F]).contains x), at_ k))))

/-- Check 8: pipelines, materialisation records, cover of the op-word section, a FINAL pipeline (R70, R74). -/
def shapeFaults (pl : Plan) : List Nat :=
  (pl.pipes.zipIdx.flatMap fun e => pipeFaults pl e.2 e.1)
    ++ ((List.range pl.ops.length).filter fun k => !pl.pipes.any fun p => p.opFirst ≤ k && k < p.opFirst + p.opCount).map (opOfs pl.image)
    ++ (pl.mats.zipIdx.flatMap fun e =>
        let o := matOfs pl.image e.2
        wrong [(1 ≤ e.1.kind && e.1.kind ≤ 5, o), (e.1.mflags = 0, o + 1), (1 ≤ e.1.hbmPages && e.1.hbmPages ≤ 49152, o + 4),
            (e.1.spillParam = 0xFFFF || e.1.spillParam < pl.params.length, o + 8), ((sub pl.image (o + 0x10) 16).all (· = 0), o + 0x10)])
    ++ wrong [(pl.pipes.any (·.final), (sect pl.image 0).1)]

/-- The materialisation the sink of pipeline i names. -/
def Plan.sinkMat (pl : Plan) (i : Nat) : Option Nat :=
  match pl.sink i with
  | some w => if sinkKind w.op ≠ 0 && omode w.dst = 3 && oix w.dst < pl.mats.length then some (oix w.dst) else none
  | none => none

/-- The pipelines whose materialisations pipeline i waits for. -/
def Plan.before (pl : Plan) (i : Nat) : List Nat :=
  match pl.pipes[i]? with
  | some p => p.needs.filterMap fun d => (pl.mats[d]?).map (·.producer)
  | none => []

/-- The pipelines reached from some in n rounds of DEPS. -/
def Plan.reach (pl : Plan) : Nat → List Nat → List Nat
  | 0, l => l
  | n + 1, l => pl.reach n (l ++ (l.flatMap pl.before).filter fun j => !l.contains j).eraseDups

/-- Whether a pipeline stands on a cycle of DEPS (R70). -/
def Plan.onCycle (pl : Plan) (i : Nat) : Bool := (pl.reach pl.pipes.length (pl.before i)).contains i

/-- The operands of an op word with their field offsets (R67). -/
def OpWord.operands (w : OpWord) : List (Nat × Nat) := [(w.dst, 10), (w.a, 8), (w.b, 6), (w.c, 4)]

/-- Check 9: producers, KIND, DEPS references and cycles (R70, R74); a cycle is reported at DEPS[0] (log entry 158). -/
def graphFaults (pl : Plan) : List Nat :=
  let img := pl.image
  (pl.mats.zipIdx.flatMap fun e => wrong
      [(pl.sinkMat e.1.producer = some e.2, matOfs img e.2 + 2),
       (pl.sinkMat e.1.producer ≠ some e.2 || (pl.sink e.1.producer).any (fun w => sinkKind w.op = e.1.kind), matOfs img e.2)])
    ++ pl.pipes.zipIdx.flatMap fun e =>
        let p := e.1
        let own := pl.sinkMat e.2
        let o := pipeOfs img e.2
        wrong ((match own with
            | some j => [((pl.mats[j]?).any (fun m => m.producer = e.2), opOfs img (p.opFirst + p.opCount - 1) + 10)]
            | none => [])
          ++ (List.range 4).map (fun d => (nth p.deps d 0xFFFF = 0xFFFF || nth p.deps d 0 < pl.mats.length, o + 8 + 2 * d))
          ++ [(!pl.onCycle e.2, o + 8)]
          ++ (pl.words e.2).zipIdx.flatMap (fun w => w.1.operands.map fun x =>
              (omode x.1 ≠ 3 || p.needs.contains (oix x.1) || own = some (oix x.1), opOfs img (p.opFirst + w.2) + x.2)))

/-- Check 10: kernel records, KFLAGS, and R65 (R64, R205, R74); the kernels of a pipeline that are too long together are reported at
the SRC_C of the op word that passes the limit (log entry 158). -/
def kernelFaults (pl : Plan) : List Nat :=
  let img := pl.image
  let ks := sect img 3
  (pl.kernels.zipIdx.flatMap fun e =>
      let o := ks.1 + 8 + 16 * e.2
      let k := e.1
      wrong [(k.ofs % 4 = 0 && 8 + 16 * pl.kernels.length ≤ k.ofs && k.ofs + k.len ≤ ks.2, o), (4 ≤ k.len && k.len % 4 = 0, o + 4),
          (k.entry % 4 = 0 && k.entry < k.len, o + 8), (k.flags < 2 ^ 24, o + 12)])
    ++ pl.pipes.zipIdx.flatMap fun e =>
        let ws := pl.words e.2
        let named := fun n => (((ws.take n).flatMap fun w => w.operands.filter fun x => omode x.1 = 4).map fun x => oix x.1).eraseDups
        let size := fun n => (named n).foldl (fun t k => t + ((pl.kernels[k]?).map (·.len)).getD 0) 0
        match (List.range ws.length).find? fun n => 65536 < size (n + 1) with
        | some n => [opOfs img (e.1.opFirst + n) + 4]
        | none => []

end Sys2Proof.Machine
end

