-- ==== Sys2Proof/Machine/Partitions.lean ====
section
/-! DEFINITION. Machine/Partitions.lean: partition records and their check, enabling, reset and release, the partition's
HBM commands, fixed slots, and the freeze of Solstice (R393 to R409), the partition page (R421). -/

namespace Sys2Proof.Machine

/-! ## The partition check (R395) -/

/-- Whether two fixed slots overlap. -/
def slotsMeet (x y : Part) : Bool :=
  x.slotOfs.toNat < y.slotOfs.toNat + y.slotLen.toNat && y.slotOfs.toNat < x.slotOfs.toNat + x.slotLen.toNat

/-- The number of set bits. -/
def popCount {w : Nat} (x : BitVec w) : Nat := (List.range w).foldl (fun n i => if x.getLsbD i then n + 1 else n) 0

/-- Whether partition p's key slot holds a key (R399). -/
def State.keyValid (s : State) (p : Nat) : Bool := (look none s.trust.keys p).isSome

/-- The sum of WC_MAX over enabled partitions but p (R395). -/
def State.wcMaxSum (s : State) (p : Nat) : Nat :=
  s.parts.foldl (fun n e => if tri e.2.en && e.1 ≠ p then n + (tri e.2.wcMax).toNat else n) 0

/-- The faults the partition check finds in record x of partition p (R56, R395). -/
def State.partFaults (s : State) (p : Nat) (x : Part) : List (Bool × Nat) :=
  [((tri x.pageMax).toNat > 98304 || (tri x.qmax).toNat > 4096 || (tri x.wcMax).toNat > 4096
      || (x.fixslot && (x.slotOfs.toNat > 999 || x.slotLen.toNat < 10 || x.slotLen.toNat > 1000
          || x.slotOfs.toNat + x.slotLen.toNat > 1000)), 0x1001),
   (s.pageMaxSum (some p) + (tri x.pageMax).toNat > s.pool, 0x1010),
   (s.wcMaxSum p + (tri x.wcMax).toNat > 4096, 0x1011),
   (x.tiles.toNat ≥ 2 ^ s.tilesSvc || (x.weight = 0 && x.tiles ≠ 0), 0x1012),
   (x.fixslot && s.parts.any (fun e => e.1 ≠ p && tri e.2.en && e.2.fixslot && e.2.tiles &&& x.tiles ≠ 0 && slotsMeet x e.2), 0x1013),
   (tri x.ksrc && !s.keyValid p, 0x1014),
   ((tri x.pageMax).toNat < ceilDiv x.ovfMib.toNat 2, 0x1015),
   (x.eqx && popCount x.tiles % 2 = 1, 0x1016)]

/-- The check's result for record x (R395). -/
def State.partReason (s : State) (p : Nat) (x : Part) : Nat := pickReason (s.partFaults p x)

/-! ## Meter records (R416, R417) -/

/-- A meter counter of a record. -/
def Part.cnt (x : Part) (i : Nat) : Nat := (look 0 x.mtr i).toNat

/-- The increase of counter i since the last record, modulo 2^64. -/
def Part.rise (x : Part) (i : Nat) : Nat := (look 0 x.mtr i - look 0 x.mtrPrev i).toNat

/-- The record of partition p for an interval that ends now, at Almanac `till`; off where the partition enters OFF (R416). -/
def State.meterRec (s : State) (p : Nat) (off : Bool) (till : DWord) : MeterRec :=
  let x := s.part p
  { part := p, gen := x.gen
    flags := BitVec.ofNat 16 (b2n off + 2 * b2n x.restored + 8 * b2n x.fixslot + 16 * b2n x.eqx)
    tiles := x.tiles, tag := x.tag, almStart := x.almStart, almEnd := till
    counts := x.rise 0 / 1000 :: (List.range 6).map fun i => x.rise (i + 1)
    pages := s.pagesUsed p, recSeq := x.recSeq }

/-- The record that a Calends at Almanac `till` gives for partition p: of one that is OFF, the record of its entry to OFF (R416, R417). -/
def State.dueRec (s : State) (p : Nat) (till : DWord) (merged : Bool) : MeterRec :=
  let r := match (if (s.part p).state = 0 then (s.part p).offRec else none) with
    | some r => r
    | none => s.meterRec p ((s.part p).state = 0) till
  { r with flags := r.flags ||| BitVec.ofNat 16 (4 * b2n merged) }

/-- The counters as a record that ends now leaves them: TILE_NS's remainder below a µs is carried (R416). -/
def Part.counted (x : Part) : SMap DWord := put 0 x.mtr 0 (look 0 x.mtr 0 - BitVec.ofNat 64 (x.rise 0 % 1000))

/-- A partition after its record: the next interval starts (R416, R417). -/
def Part.afterRec (x : Part) (now : DWord) : Part :=
  { x with mtrPrev := x.counted, recSeq := x.recSeq + 1, almStart := now, wasOn := x.state ≠ 0, restored := false, offRec := none }

/-! ## Entering RUN or FROZEN from OFF -/

/-- A metering interval starts (R417): what was counted while no record was due lies outside it. -/
def Part.startInterval (x : Part) (now : DWord) : Part :=
  { x with wasOn := true, almStart := now, offRec := none, mtrPrev := if x.wasOn then x.mtrPrev else x.counted }

/-- The partition check of an enable ends (R394, R397): on a pass GEN increments, with KSRC = 0 a fresh key, and the enable waits for
the report of the new generation, BUSY still set (R18). -/
def State.partEnableEnd (s : State) (p : Nat) : State :=
  let x := s.part p
  let n := s.partReason p x
  if n = 0 then
    ((if tri x.ksrc then s else s.freshKey p).genIncrement p).updCcr .glb fun c => { c with queue := .partGen p :: c.queue.drop 1 }
  else s.checkDone .glb n p

/-- An enable whose generation is reported (R18, R394, R397, R403): RUN, pass values of 0, the check's pass. -/
def State.partEnabled (s : State) (p : Nat) : State :=
  let s1 := s.updPart p fun x => { (x.startInterval s.clk.alm) with en := Tri.of true, state := 1, inSlot := false }
  { s1 with pass := clearRange s1.pass (16 * p) 16 }.checkDone .glb 0 p

/-! ## Writes of the record (R393, R394) -/

/-- The fixed slot in force in frame n (R404, R405): whether there is one, its start and its length in µs. -/
def Part.slotIn (x : Part) (n : Nat) : Bool × Nat × Nat :=
  match x.slotHeld with
  | some (k, v) => if k = n then v else (x.fixslot, x.slotOfs.toNat, x.slotLen.toNat)
  | none => (x.fixslot, x.slotOfs.toNat, x.slotLen.toNat)

/-- The record with the field register at offset o written, for the fields that take effect while EN = 1. -/
def Part.liveField (x : Part) (o : Nat) (v : Word) : Part :=
  let n := v.toNat
  if o = 0x00 then { x with fixslot := bit n 27, eqx := bit n 26 }
  else if o = 0x08 then { x with weight := BitVec.ofNat 8 (bits n 23 16), tiles := BitVec.ofNat 16 (bits n 15 0) }
  else if o = 0x0C then { x with pageMax := Tri.of (BitVec.ofNat 17 (bits n 16 0)) }
  else if o = 0x14 then { x with qmax := Tri.of (BitVec.ofNat 13 (bits n 28 16)) }
  else if o = 0x18 then { x with wcMax := Tri.of (BitVec.ofNat 13 (bits n 12 0)) }
  else if o = 0x20 then { x with slotOfs := BitVec.ofNat 16 (bits n 31 16), slotLen := BitVec.ofNat 16 (bits n 15 0) }
  else if o = 0x28 then { x with tag := setHalf x.tag false v }
  else if o = 0x2C then { x with tag := setHalf x.tag true v }
  else x

/-- A record takes effect, what stands of a fixed slot until the next frame (R405) held; the quota event follows where a quota or the share has changed (R421). -/
def State.applyPart (s : State) (p : Nat) (y : Part) : State :=
  let x := s.part p
  let n := s.alm / 1000000
  let s1 := s.setPart p (if x.fixslot ≠ y.fixslot || x.slotOfs ≠ y.slotOfs || x.slotLen ≠ y.slotLen then { y with slotHeld := some (n, x.slotIn n) } else y)
  if x.tiles ≠ y.tiles || x.weight ≠ y.weight || tri x.pageMax ≠ tri y.pageMax || tri x.qmax ≠ tri y.qmax
      || tri x.wcMax ≠ tri y.wcMax then s1.pvEvent p 2 else s1

/-- The check of a live field write ends: a failing write is discarded (R395). -/
def State.partFieldEnd (s : State) (p o : Nat) (v : Word) : State :=
  let y := (s.part p).liveField o v
  let n := s.partReason p y
  (if n = 0 then s.applyPart p y else s).checkDone .glb n p

/-- Whether a check of partition p runs or waits. -/
def State.partChecking (s : State) (p : Nat) : Bool :=
  (s.ccr .glb).queue.any fun o =>
    match o with
    | .partition x => x = p
    | .partGen x => x = p
    | .partField x _ _ => x = p
    | .partRestore id => match s.cmd? id with | some c => c.f 8 2 = p | none => false
    | _ => false

/-- MiB of an overflow area as taken: 0 is 1, 65 to 127 are 64 (R362, R393). -/
def ovfTaken (n : Nat) : BitVec 7 := BitVec.ofNat 7 (if n = 0 then 1 else min n 64)

/-- A write of the fields that stand still while EN = 1 (R393, R394). -/
def State.writeOffField (s : State) (p o : Nat) (v : Word) : State :=
  let x := s.part p
  let n := v.toNat
  if o = 0x00 then
    s.setPart p { (x.liveField 0 v) with ksrc := Tri.of (bit n 25), stw := BitVec.ofNat 2 (bits n 23 22) }
  else if o = 0x1C then
    if s.hif.queues.any (fun e => e.2.ctxN = p && e.2.cqen) then s else s.setPart p { x with ovfMib := ovfTaken (bits n 6 0) }
  else s.applyPart p (x.liveField o v)

/-! ## Reset and release (R407, R374) -/

/-- The physical bank of logical bank b (R227). -/
def State.physBank (s : State) (b : Nat) : Nat := ((look 0 s.astore.phys b) + BitVec.ofNat 6 b).toNat

/-- f applied to a logical bank's record. -/
def State.updBank (s : State) (b : Nat) (f : Bank → Bank) : State :=
  { s with astore := { s.astore with banks := upd {} s.astore.banks b f } }

/-- A bank's record. -/
def State.bank (s : State) (b : Nat) : Bank := look {} s.astore.banks b

/-- A bank's clear starts (R228): every unit and its shadow become holes; CLEARING reads 1 until it completes. -/
def State.clearBank (s : State) (b : Nat) : State :=
  let k := s.physBank b * 65536
  let a := s.astore
  let s1 := { s with astore := { a with
    units := clearRange a.units k 65536, shadow := clearRange a.shadow k 65536, badParity := clearRange a.badParity k 65536
    badMask := clearRange a.badMask k 65536, badShadow := clearRange a.badShadow k 65536, pending := clearRange a.pending k 65536 } }
  s1.updBank b fun x => { x with clearing := true }

/-- The banks a context owns (R227). -/
def State.banksOf (s : State) (ctx : Nat) : List Nat :=
  (List.range 32).filter fun b => (tri (s.bank b).owner).toNat = ctx

/-- A partition's tables are disabled, their records empty again, and its banks cleared (R244; log entry 138). -/
def State.dropTables (s : State) (p : Nat) : State :=
  let s1 := { s with astore := { s.astore with tables := mapAll {} 64 (fun (t : ATable) =>
    if (t.enable || t.destroyCmd.isSome) && t.ctx.toNat = p then {} else t) s.astore.tables } }
  (s1.banksOf p).foldl (fun (x : State) b => (x.updBank b fun k => { k with inuse := false }).clearBank b) s1

/-- Whether a connection is a partition's: its Connect has named the partition's subsystem (R381). -/
def Conn.ofPart (c : Conn) (p : Nat) : Bool := c.state = 3 && c.part = p

/-- RST is sent on every connection of a partition (R388). -/
def State.dropConns (s : State) (p : Nat) : State :=
  let mine := s.net.conns.filter fun e => e.2.ofPart p
  let s1 := mine.foldl (fun (x : State) e => x.emit (.tcpRst e.2.port)) s
  { s1 with net := { s1.net with conns := s1.net.conns.filter (fun e => !e.2.ofPart p)
                                 ctrls := s1.net.ctrls.filter (fun e => e.2.part ≠ p) } }

/-- A command that waited leaves the blocks' lists. -/
def State.forget (s : State) (id : Nat) : State :=
  { s with cmp := { s.cmp with jobs := s.cmp.jobs.filter fun j => j.id ≠ id }
           plk := { s.plk with mirWait := s.plk.mirWait.filter (·.1 ≠ id) }
           arc := { s.arc with arrays := s.arc.arrays.map fun (e : Nat × Arr) =>
             (e.1, { e.2 with reserved := e.2.reserved.filter fun r => r.1 ≠ id }) } }

/-- Every command of a context in flight is discarded with its old generation and counted (R17, R407). -/
def State.dropCommands (s : State) (p : Nat) : State :=
  let ids := (s.hif.cmds.filter fun c => c.ctx.toNat = p).map (·.id)
  ids.foldl (fun (x : State) id => (x.forget id).done id 0x0703) s

/-- A queue as a partition reset leaves it (R374): disabled, its held completions discarded, its indices kept. -/
def Queue.reset (x : Queue) : Queue :=
  let held := fun (pl : Place) => (x.held.filter fun h => h.place = pl).length
  { x with sqen := false, cqen := false, push := [], pushed := [], held := [], cqOvf := false, fstop := false
           rsvRing := x.rsvRing - held .ring, rsvOvf := x.rsvOvf - held .overflow
           modPend := 0, modTimer := false, modReached := false }

/-- Whether nothing of partition p is in progress but paused runs (R397, R409). -/
def State.drained (s : State) (p : Nat) : Bool :=
  s.tiles.all (fun t => t.2.flights.all fun f => f.ctx.toNat ≠ p)
    && s.hif.cmds.all (fun c => c.ctx.toNat ≠ p || s.runs.any fun r => r.cmd = c.id)
    && s.astore.tables.all (fun t => !(t.2.enable && t.2.rsp && t.2.ctx.toNat = p))

/-- The drain has completed (R397): FROZEN; PART_FREEZE completes with the µs since its fetch. -/
def State.frozen (s : State) (p : Nat) : State :=
  let x := s.part p
  let s1 := s.setPart p { x with state := 3, waiter := none, almFrozen := s.clk.alm }
  match x.waiter with
  | some id => s1.complete id 0 (BitVec.ofNat 32 ((s.alm - x.freezeAt.toNat) / 1000)) 0
  | none => s1

/-- The waiting PART_FREEZE of a partition whose freeze is ended by a reset: a drain that completes in the same SCLK completes first
(R28, R397; log entry 122); else the spec states no status (log entry 36). -/
def State.endFreeze (s : State) (p : Nat) : State :=
  if (s.part p).state = 2 && s.drained p && s.comes (fun c => match c with | .freezeComplete q => q = p | _ => false) then s.frozen p
  else match (s.part p).waiter with
  | none => s
  | some id => let f := s.free; (f.2.updPart p fun x => { x with waiter := none }).done id (issuedStatus f.1.toNat)

/-- Steps 1 to 4 of a partition reset (R407), or of a release where off is true; w is the command that waits for its end. -/
def State.startReset (s : State) (p : Nat) (off : Bool) (w : Option Nat) : State :=
  let s0 := s.endFreeze p
  let s1 := s0.updPart p fun x =>
    { x with state := 4, en := if off then Tri.of false else x.en, toOff := off, waiter := w, inSlot := false }
  let s2 := { s1 with hif := { s1.hif with queues := s1.hif.queues.map fun (e : Nat × Queue) =>
    (e.1, if e.2.ctxN = p then e.2.reset else e.2) } }
  let s3 := s2.genIncrement p
  let s4 := (s3.runs.filter fun r => r.ctx.toNat = p).foldl (fun (x : State) r => x.failRun r.id 0x0703 0) s3
  let s5 := (({ s4 with plans := clearRange s4.plans (p * 1024) 1024 }.dropTables p).dropConns p).dropCommands p
  let s6 := s5.unmapAll p
  if tri (s.part p).ksrc then s6 else s6.freshKey p

/-- PARTITION_RESET_COMPLETE (R407, R18): the generation is reported, the banks are clear. -/
def execPartitionResetComplete (p : Nat) (s : State) : Out1 :=
  let x := s.part p
  if p < 4096 && x.state = 4 && x.genWait.isNone && (s.banksOf p).all (fun b => !(s.bank b).clearing) then
    let s1 := s.setPart p { x with state := if x.toOff then 0 else 1, toOff := false, waiter := none
                                   offRec := if x.toOff then some (s.meterRec p true s.clk.alm) else x.offRec }
    let s2 := if x.toOff then s1 else s1.pvEvent p 1
    .next (match x.waiter with | some id => s2.done id 0 | none => s2)
  else no "no partition reset of this partition is ready to end"

/-- A write of word o of partition p's record (R393, R394): from PF0 and the stewards; any other is discarded (R544). -/
def State.writePart (s : State) (r : Req) (p o : Nat) (v : Word) : State :=
  let x := s.part p
  if !(match r with | .pf0 => true | .stw _ => true | _ => false) then s
  else if s.partChecking p then s.holdWrite .glb r (0x400000 + p * 0x100 + o) v
  else if x.state = 4 then
    if o = 0 || o = 0x1C then s
    else if tri x.en && [0x08, 0x0C, 0x18, 0x20].contains o then s.queueCheck .glb (.partField p o v)
    else s.applyPart p (x.liveField o v)
  else if !tri x.en then
    let s1 := s.writeOffField p o v
    if o = 0 && bit v.toNat 31 then s1.queueCheck .glb (.partition p) else s1
  else if o = 0 && !bit v.toNat 31 then s.startReset p true none
  else if [0x00, 0x08, 0x0C, 0x18, 0x20].contains o then s.queueCheck .glb (.partField p o v)
  else s.applyPart p (x.liveField o v)

/-- PARTITION_ENABLE (R394): the write of PART_CTL with EN = 1 (log entry 9). -/
def execPartitionEnable (r : Req) (p : Nat) (v : Word) (s : State) : Out1 :=
  if 4096 ≤ p then no "no such partition" else busRow s r (0x400000 + p * 0x100) (v ||| 0x80000000) (s.writePart r p 0 (v ||| 0x80000000))

/-- PARTITION_DISABLE (R394): the write of PART_CTL with EN = 0 (log entry 9). -/
def execPartitionDisable (r : Req) (p : Nat) (v : Word) (s : State) : Out1 :=
  if 4096 ≤ p then no "no such partition" else busRow s r (0x400000 + p * 0x100) (v &&& 0x7FFFFFFF) (s.writePart r p 0 (v &&& 0x7FFFFFFF))

/-! ## The partition's HBM (R398 to R400) -/

/-- The virtual pages a context has mapped, ascending. -/
def State.pageList (s : State) (ctx : Nat) : List Nat :=
  s.pages.filterMap fun e => if ctx * pagesPerCtx ≤ e.1 && e.1 < (ctx + 1) * pagesPerCtx then some (e.1 - ctx * pagesPerCtx) else none

/-- The lowest free run of n virtual pages: the mapped pages, ascending, push the candidate on (R400). -/
def freeRange (mapped : List Nat) (n : Nat) : Option Nat :=
  let c := mapped.foldl (fun c pg => if pg < c + n then max c (pg + 1) else c) 0
  if c + n ≤ pagesPerCtx then some c else none

/-- HBM_ALLOC (R400, R547). -/
def execHbmAlloc (id : Nat) (s : State) : Out1 := withCmd s id 0x60 "no HBM_ALLOC with this id" fun c =>
  let ctx := c.ctx.toNat
  let n := c.f 12 4
  if !c.zeros [(8, 4), (16, 16)] then s.done id 0x0100
  else if n = 0 || 98304 < n then s.done id 0x0105
  else if ctx < 4096 && (tri (s.part ctx).pageMax).toNat < s.pagesUsed ctx + n then s.done id 0x0302
  else if 4096 ≤ ctx && s.ownerRefused n then s.done id 0x0300
  else
    match freeRange (s.pageList ctx) n with
    | none => s.done id 0x0300
    | some a => ((List.range n).foldl (fun (x : State) i => x.mapPage ctx (a + i)) s).complete id 0 (BitVec.ofNat 32 a) 0

/-- The KIND 2 ranges the parameters of a run name (R73, R400). -/
def State.hbmRefs (s : State) (r : Run) : List (Nat × Nat) :=
  match s.planOf r with
  | none => []
  | some pl => (pl.params.zip r.params).filterMap fun e =>
      match e.2 with
      | some v => if e.1.byref && fieldLE v 12 2 = 2 then some (fieldLE v 0 8, fieldLE v 8 4) else none
      | none => none

/-- Whether a run in progress of a context names virtual page pg. -/
def State.pageNamed (s : State) (ctx pg : Nat) : Bool :=
  s.runs.any fun r => r.ctx.toNat = ctx && (s.hbmRefs r).any fun a => 0 < a.2 && a.1 / 0x200000 ≤ pg && pg ≤ (a.1 + a.2 - 1) / 0x200000

/-- HBM_FREE (R400). -/
def execHbmFree (id : Nat) (s : State) : Out1 := withCmd s id 0x61 "no HBM_FREE with this id" fun c =>
  let ctx := c.ctx.toNat
  let a := c.f 12 4
  let n := c.f 16 4
  if !c.zeros [(8, 4), (20, 12)] then s.done id 0x0100
  else if n = 0 || 98304 < n || pagesPerCtx < a + n then s.done id 0x0105
  else if !(List.range n).all (fun i => s.mapped ctx (a + i)) then s.done id 0x0602
  else if (List.range n).any (fun i => s.pageNamed ctx (a + i)) then s.done id 0x0202
  else ((List.range n).foldl (fun (x : State) i => x.unmapPage ctx (a + i)) s).done id 0

/-- A command that needs the host waits while its function can issue no memory request (R365). -/
def State.hostWaits (s : State) (c : Cmd) : Bool :=
  match c.origin with
  | .ring _ => !s.canSend (fnOf c.ctx.toNat)
  | .net _ _ => false

/-- n undefined bytes. -/
def undefinedBytes (k n : Nat) : List Byte := (List.range n).map (Config.freeByte k)

/-- MEM_COPY (R400): where source and destination overlap in HBM the destination bytes are undefined. -/
def execMemCopy (id : Nat) (s : State) : Out1 :=
  if (s.cmd? id).any (fun c => s.hostWaits c && (c.f 32 1 = 0 || c.f 33 1 = 0)) then no "the command waits for its function"
  else withCmd s id 0x40 "no MEM_COPY with this id" fun c =>
    let ctx := c.ctx.toNat
    let src := c.f 8 8
    let dst := c.f 16 8
    let n := c.f 24 8
    let sk := c.f 32 1
    let dk := c.f 33 1
    if !c.zeros [(34, 30)] then s.done id 0x0100
    else if !([0, 2].contains sk && [0, 2].contains dk) || n = 0 || 2 ^ 36 < n then s.done id 0x0105
    else if (sk = 2 && !s.hbmOk ctx src n) || (dk = 2 && !s.hbmOk ctx dst n) then s.done id 0x0602
    else if sk = 0 && s.hostFails c.fn src n then s.done id 0x0106
    else
      let undef := sk = 2 && dk = 2 && src < dst + n && dst < src + n
      let bs := if undef then undefinedBytes s.freeCtr n else if sk = 0 then s.hostRead c.fn src n else s.hbmRead ctx src n
      let s1 := if dk = 0 then s.hostWrite c.fn dst bs else s.hbmWrite ctx dst bs
      { s1 with freeCtr := s1.freeCtr + b2n undef }.complete id 0 (BitVec.ofNat 32 n) (BitVec.ofNat 32 (n / 2 ^ 32))

/-! ## Fixed slots (R404) -/

/-- Whether the Almanac stands within partition p's fixed slot of its frame (R404). -/
def State.slotNow (s : State) (p : Nat) : Bool :=
  let v := (s.part p).slotIn (s.alm / 1000000)
  let t := s.alm % 1000000
  v.1 && 1000 * v.2.1 ≤ t && t < 1000 * (v.2.1 + v.2.2)

/-- FIXED_SLOT_START (R404): morsels of other partitions in flight on the slot's tiles, those with a digest partner there among them,
are abandoned without a count. -/
def execFixedSlotStart (p : Nat) (s : State) : Out1 :=
  let x := s.part p
  if p < 4096 && x.state = 1 && s.slotNow p && !x.inSlot then
    let mine := fun (t : Nat) => (List.range 16).any fun l => x.tiles.getLsbD l && s.physOf l = t
    .next ((List.range 18).foldl (fun (y : State) t =>
      y.dropFlights t (fun f => f.ctx.toNat ≠ p && (mine t || f.partner.any mine)) fun f z => z.abandonFree f)
      (s.setPart p { x with inSlot := true }))
  else no "no fixed slot of this partition can start"

/-- FIXED_SLOT_END (R404): a morsel in flight completes. -/
def execFixedSlotEnd (p : Nat) (s : State) : Out1 :=
  when_ (p < 4096 && (s.part p).inSlot && !s.slotNow p) "no fixed slot of this partition runs" (s.updPart p fun x => { x with inSlot := false })

/-! ## Solstice: the freeze (R408, R409) -/

/-- A partition-administration command (R408): reserved bytes, PART, then the states it is admitted in. -/
def partCmd (s : State) (id op : Nat) (what : String) (zeros : List (Nat × Nat)) (admits : Part → Bool) (fields : Cmd → Bool)
    (k : Cmd → Nat → State) : Out1 := withCmd s id op what fun c =>
  let p := c.f 8 2
  let x := s.part p
  if !c.zeros zeros then s.done id 0x0100
  else if 4096 ≤ p || !fields c then s.done id 0x0105
  else if admits x then k c p
  else s.done id (if x.state = 2 || x.state = 4 then 0x0201 else 0x0200)

/-- PART_RESET (R408). -/
def execPartReset (id : Nat) (s : State) : Out1 :=
  partCmd s id 0xA8 "no PART_RESET with this id" [(10, 22)] (fun x => 1 ≤ x.state && x.state ≤ 3) (fun _ => true) fun _ p =>
    (s.phase id .running).startReset p false (some id)

/-- PART_RELEASE (R408). -/
def execPartRelease (id : Nat) (s : State) : Out1 :=
  partCmd s id 0xAD "no PART_RELEASE with this id" [(10, 22)] (fun x => x.state = 3) (fun _ => true) fun _ p =>
    (s.phase id .running).startReset p true (some id)

/-- The runs of a partition pause: no morsel is claimed, none completes its run (R409). -/
def State.pauseRuns (s : State) (p : Nat) : State :=
  { s with runs := s.runs.map fun (r : Run) => if r.ctx.toNat = p then { r with paused := true } else r }

/-- PART_FREEZE (R408, R409). -/
def execPartFreeze (id : Nat) (s : State) : Out1 :=
  partCmd s id 0xA9 "no PART_FREEZE with this id" [(10, 22)] (fun x => x.state = 1) (fun _ => true) fun c p =>
    ((s.phase id .running).updPart p fun x => { x with state := 2, waiter := some id, freezeAt := c.fetchedAt }).pauseRuns p

/-- FREEZE_COMPLETE (R397). -/
def execFreezeComplete (p : Nat) (s : State) : Out1 :=
  when_ (p < 4096 && (s.part p).state = 2 && s.drained p) "no freeze of this partition is ready to end" (s.frozen p)

/-! ## The partition page (R421) -/

/-- PV_EVEN_WRITE (R40, R421): a masked write; VEC is sent where an EN bit is written 1 while its event stands. -/
def execPvEvenWrite (n : Nat) (v : Word) (s : State) : Out1 :=
  if !s.vfExists n then no "no such VF"
  else
    let p := n - 1
    let x := s.part p
    let mask := v >>> 16
    let old := packW [(17, 0), (11, x.evVec.toNat), (4, x.evEn.toNat)]
    let new := (old &&& ~~~mask) ||| (v &&& mask &&& 0x7FFF)
    let en := BitVec.ofNat 4 (bits new.toNat 3 0)
    let s1 := s.setPart p { x with evVec := BitVec.ofNat 11 (bits new.toNat 14 4), evEn := en }
    let written := BitVec.ofNat 4 (bits mask.toNat 3 0) &&& en &&& x.evt
    .next (if written ≠ 0 then s1.msix n (bits new.toNat 14 4) else s1)

end Sys2Proof.Machine
end

