-- ==== Sys2Proof/Machine/Plk.lean ====
section
/-! DEFINITION. Machine/Plk.lean: peer links, peer bindings and generation messages, partner mirroring (R450 to R464). -/

namespace Sys2Proof.Machine

/-! ## Mirroring (R461 to R464) -/

/-- Mirroring's state replaced. -/
def State.setMir (s : State) (n : Nat) : State := { s with plk := { s.plk with mirState := n } }

/-- The copy of a MIRROR array's cached blocks (R462). -/
def Arr.copy (a : Arr) : List MirBlk :=
  a.cache.filterMap fun e => e.2.map fun b =>
    { arrayId := a.arrayId, seq := b.seq, vol := b.vol, ctx := b.ctx, gen := b.gen, lba := b.lba, data := b.data }

/-- SYNCING starts (R462): each MIRROR array's blocks and journal are sent, under an id of its own to be acknowledged, and with them the
writes that wait for it; a held copy stays until the fresh one replaces it (log entry 37). -/
def State.startSync (s : State) : State :=
  let as := s.arc.arrays.filter fun e => e.2.mirror
  let s1 := { s with plk := { s.plk with mirState := 1, mirWait := s.plk.mirWait.map fun e => (e.1, s.clk.alm) } }
  let s2 := as.foldl (fun (x : State) e =>
    let id := x.hif.nextId
    { (x.plkSend x.partner (.plkCopy e.2.arrayId e.2.journal e.2.copy)).awaitAck id with hif := { x.hif with nextId := id + 1 } }) s1
  if s2.plk.mirWait.isEmpty then { s2 with plk := { s2.plk with mirState := 2, holdCopy := false } } else s2

/-- A mirrored write completes with the blocks it wrote (R22, R292). -/
def State.writeDone (s : State) (id : Nat) : State :=
  match s.cmd? id with
  | some c => s.complete id 0 (BitVec.ofNat 32 (c.f 12 4)) 0
  | none => s

/-- SYNCING or MIRRORED breaks (R462, R463): the copy is held; with MIRFAIL = 0 the writes not acknowledged complete on the
local cache alone. -/
def State.mirrorBreak (s : State) : State :=
  if s.plk.mirState = 1 || s.plk.mirState = 2 then
    let s1 := { s with plk := { s.plk with mirState := 3, holdCopy := true } }
    if s.plk.mirFail then s1
    else
      let s2 := { s1 with plk := { s1.plk with mirWait := [] } }
      s.plk.mirWait.foldl (fun (x : State) e => x.writeDone e.1) s2
  else s

/-- Mirroring starts where both devices have EN = 1 and the partner is reachable: from OFF or BROKEN (R462). -/
def State.mirrorTry (s : State) : State :=
  if s.plk.mirEn && s.plk.partnerEn && (s.plk.mirState = 0 || s.plk.mirState = 3) && s.reaches s.partner then s.startSync else s

/-- The check of PLK_MIRROR (R56, R461). -/
def State.mirrorReason (s : State) : Nat :=
  pickReason [(s.plkCount < 4, 0x6004), (s.plk.mirTmo.toNat < 10, 0x6001), (!s.reaches s.partner, 0x6012),
    (s.ownerRefused 2560, 0x6013)]

/-- The check of PLK_MIRROR ends (R461, R462): a pass reserves the area and tells the partner. -/
def State.mirrorEnd (s : State) : State :=
  let n := s.mirrorReason
  (if n = 0 then ({ s with plk := { s.plk with mirEn := true } }.plkSend s.partner (.plkMirEn true)).mirrorTry else s).checkDone .plk n 0

/-- The copy of the partner's arrays is discarded (R462). -/
def State.discardCopy (s : State) : State := { s with plk := { s.plk with holdCopy := false, area := [], journals := [] } }

/-- A held copy is discarded (R464). -/
def State.releaseCopy (s : State) : State := if s.plk.holdCopy then s.discardCopy else s

/-- Mirroring is OFF (R462): what waited for the partner completes on the local cache, both copies are discarded. -/
def State.mirrorOff (s : State) : State :=
  let s1 := { s with plk := { s.plk with mirEn := false, mirState := 0, mirWait := [] } }.discardCopy
  (s.plk.mirWait.foldl (fun (x : State) e => x.writeDone e.1) s1).plkSend s.partner (.plkMirEn false)

/-- A write of PLK_MIRROR (R461, R462, R467); one of EN = 0 is discarded while any array has MIRROR = 1. -/
def State.writeMirror (s : State) (r : Req) (v : Word) : State :=
  let n := v.toNat
  if (s.ccr .plk).queue.contains .mirror then s.holdWrite .plk r 0x360210 v
  else
    let off := !bit n 31 && s.plk.mirEn
    if off && s.arc.arrays.any (fun e => e.2.mirror) then s
    else
      let s1 := { s with plk := { s.plk with mirFail := bit n 25, mirTmo := BitVec.ofNat 16 (bits n 15 0) } }
      let s2 := if bit n 26 then s1.releaseCopy else s1
      if off then s2.mirrorOff
      else if bit n 31 && !s.plk.mirEn then s2.queueCheck .plk .mirror
      else s2

/-- PLK_MIRROR as its fields stand, for the rows that write one bit. -/
def State.mirrorWord (s : State) : Word :=
  packW [(1, b2n s.plk.mirEn), (5, 0), (1, b2n s.plk.mirFail), (9, 0), (16, s.plk.mirTmo.toNat)]

/-- PLK_MIRROR_ENABLE (R461): the write with EN = 1 (log entry 9). -/
def execPlkMirrorEnable (r : Req) (v : Word) (s : State) : Out1 := busRow s r 0x360210 (v ||| 0x80000000) (s.writeMirror r (v ||| 0x80000000))

/-- PLK_MIRROR_DISABLE (R461, R462): the write with EN = 0. -/
def execPlkMirrorDisable (r : Req) (s : State) : Out1 := busRow s r 0x360210 (s.mirrorWord &&& 0x7FFFFFFF) (s.writeMirror r (s.mirrorWord &&& 0x7FFFFFFF))

/-- PLK_MIRROR_RELEASE (R464): the write with RELEASE = 1. -/
def execPlkMirrorRelease (r : Req) (s : State) : Out1 := busRow s r 0x360210 (s.mirrorWord ||| 0x04000000) (s.writeMirror r (s.mirrorWord ||| 0x04000000))

/-- The journal of one of the partner's arrays as the mirror area holds it (R461). -/
def State.partnerJournal (s : State) (arrayId : BitVec 128) : List JRec := ((s.plk.journals.find? (·.1 = arrayId)).map (·.2)).getD []

/-- Records added to it. -/
def State.noteRecs (s : State) (arrayId : BitVec 128) (rs : List JRec) : State :=
  { s with plk := { s.plk with
    journals := (arrayId, s.partnerJournal arrayId ++ rs) :: s.plk.journals.filter (·.1 ≠ arrayId) } }

/-- MIRROR_WRITE_MESSAGE (R461, R463): the partner's blocks and their WRITE record are placed in the mirror area and acknowledged. -/
def execMirrorWriteMessage (arrayId : BitVec 128) (seq : Nat) (vol : MirVol) (lba : Nat) (blocks : List (List Byte)) (s : State) : Out1 :=
  let new := blocks.zipIdx.map fun e : List Byte × Nat =>
    ({ arrayId := arrayId, seq := seq, vol := vol.vol, ctx := vol.ctx, gen := vol.gen, lba := lba + e.2, data := e.1 } : MirBlk)
  let old := s.plk.area.filter fun e => !(e.arrayId = arrayId && e.vol = vol.vol && lba ≤ e.lba && e.lba < lba + blocks.length && e.seq ≤ seq)
  let rec_ : JRec := { seq := seq, ofs := 0, body := .write vol.vol vol.ctx vol.gen lba ((List.range blocks.length).map (· + lba)) }
  when_ (s.plk.mirEn && (s.plk.mirState = 1 || s.plk.mirState = 2) && s.ungated) "mirroring does not run"
    (({ s with plk := { s.plk with area := old ++ new } }.noteRecs arrayId [rec_]).plkSend s.partner (.plkMirrorAck arrayId seq))

/-- MIRROR_ACK (R462, R463): the mirrored write completes; once everything sent is acknowledged SYNCING is MIRRORED. -/
def execMirrorAck (id : Nat) (s : State) : Out1 :=
  if (s.plk.mirState = 1 || s.plk.mirState = 2) && s.awaitsAck id && s.ungated then
    let w := s.plk.mirWait.filter (·.1 ≠ id)
    let s1 := { s with plk := { s.plk with mirWait := w } }.writeDone id
    .next (if s.plk.mirState = 1 && w.isEmpty then { s1 with plk := { s1.plk with mirState := 2, holdCopy := false } } else s1)
  else no "nothing sent to the partner waits for this acknowledgement"

/-- MIRROR_ACK_TIMEOUT (R462). -/
def execMirrorAckTimeout (s : State) : Out1 :=
  timeout ((s.plk.mirState = 1 || s.plk.mirState = 2) && s.plk.mirWait.any (fun e => s.elapsed e.2 (1000 * s.plk.mirTmo.toNat)) && s.ungated) (· matches .mirrorAck _) "no acknowledgement is awaited" s
    s.mirrorBreak

/-- The copy of an array that is held goes to the partner (R464). -/
def State.sendCopy (s : State) (arrayId : BitVec 128) : State :=
  let c := s.plk.area.filter fun e => e.arrayId = arrayId
  let js := s.partnerJournal arrayId
  if c.isEmpty && js.isEmpty then s else s.plkSend s.partner (.plkCopy arrayId js c)

/-- PARTNER_COPY_REQUEST (R464; log entry 99): the partner asks for its copy, which is sent where one is held; or its answer to this
device's own request arrives, and stays for the replay. -/
def execPartnerCopyRequest (m : CopyMessage) (s : State) : Out1 :=
  match m with
  | .ask arrayId => .next (s.sendCopy arrayId)
  | .answer arrayId journal blocks =>
    when_ (s.reaches s.partner && s.arc.arrays.any fun e => e.2.state = 2 && e.2.arrayId = arrayId) "no array of this ARRAY_ID replays"
      { s with plk := { s.plk with answers := (arrayId, journal, blocks) :: s.plk.answers.filter (·.1 ≠ arrayId) } }

/-- An array of the partner in the mirror area replaced; none drops it. -/
def State.setPartnerCopy (s : State) (arrayId : BitVec 128) (c : Option (List JRec × List MirBlk)) : State :=
  let area := s.plk.area.filter fun e => e.arrayId ≠ arrayId
  let js := s.plk.journals.filter (·.1 ≠ arrayId)
  match c with
  | some (j, bs) => { s with plk := { s.plk with area := area ++ bs, journals := (arrayId, j) :: js } }
  | none => { s with plk := { s.plk with area := area, journals := js } }

/-- PARTNER_MIRROR_MESSAGE (R461, R462, R464): the partner sets or clears EN, or resets; the fresh copy of an array replaces the held one
and is acknowledged; WRITE_DONE records release what they name; an import of the partner's ends the need for its copy (log entry 37). -/
def execPartnerMirrorMessage (ev : PartnerEvent) (s : State) : Out1 :=
  let set := fun (b : Bool) => { s with plk := { s.plk with partnerEn := b } }
  let runs := s.plk.mirEn && (s.plk.mirState = 1 || s.plk.mirState = 2) && s.ungated
  match ev with
  | .enSet => .next (set true).mirrorTry
  | .enCleared => .next (set false).mirrorBreak.discardCopy
  | .wasReset => .next (set false).mirrorBreak
  | .copy arrayId journal blocks =>
    when_ runs "mirroring does not run"
      ((s.setPartnerCopy arrayId (some (journal, blocks))).plkSend s.partner (.plkMirrorAck arrayId (journal.foldl (fun n r => max n r.seq) 0)))
  | .done arrayId seqs =>
    when_ runs "mirroring does not run"
      ({ s with plk := { s.plk with area := s.plk.area.filter fun e => !(e.arrayId = arrayId && seqs.contains e.seq) } }.noteRecs arrayId
        (seqs.map fun q => { seq := q, ofs := 0, body := .writeDone q }))
  | .imported arrayId =>
    let t := s.setPartnerCopy arrayId none
    .next (if t.plk.area.isEmpty && t.plk.journals.isEmpty then { t with plk := { t.plk with holdCopy := false } } else t)

/-! ## Links (R451 to R454) -/

/-- A link's record replaced: source 83 where its state changes; where routes change the messages in flight are sent again; the peers that
can no longer be reached are lost, and mirroring breaks or starts with the partner's reachability (R451, R453, R454, R462). -/
def State.setLink (s : State) (k : Nat) (x : Link) : State :=
  let s1 := s.updLink k fun _ => x
  let s2 := (if x.state = (s.link k).state then s1 else s1.raise 83).resend s
  let gone := (List.range 8).filter fun e => s.reaches e && !s2.reaches e
  let s3 := gone.foldl (fun (y : State) e => y.losePeer e) s2
  if gone.contains s.partner then s3.mirrorBreak else s3.mirrorTry

/-- LINK_TRAINING_COMPLETE (R451, R452). -/
def execLinkTrainingComplete (k : Nat) (lanes : BitVec 8) (peer : BitVec 3) (s : State) : Out1 :=
  let x := s.link k
  if !(k < s.plkCount && x.state = 1 && 7 ≤ popCount lanes) then no "the link is not training, or fewer than 7 lanes lock"
  else if peer ≠ s.pwr.devid ^^^ linkMask k then .next (s.setLink k { x with state := 0, conflict := true, tries := 0 })
  else .next (s.setLink k { x with state := if popCount lanes = 8 then 2 else 3, insvc := lanes, peer := peer, tries := 0 })

/-- LINK_TRAINING_TIMEOUT (R451): the third attempt fails the link. -/
def execLinkTrainingTimeout (k : Nat) (s : State) : Out1 :=
  let x := s.link k
  timeout (k < s.plkCount && x.state = 1 && s.elapsed x.trainAt 20000000) (fun i => match i with | .linkTrainingComplete j _ _ => j = k | _ => false) "the link is not training" s
    (if x.tries < 2 then s.setLink k { x with tries := x.tries + 1, trainAt := s.clk.alm } else s.setLink k { x with state := 4, tries := 0 })

/-- LINK_FLIT_TIMEOUT (R451): messages in flight are resent over whatever route there is (R454); the link trains from its first attempt. -/
def execLinkFlitTimeout (k : Nat) (s : State) : Out1 :=
  let x := s.link k
  when_ (s.linkUp k) "the link is not up" (s.setLink k { x with state := 1, tries := 0, insvc := 0, trainAt := s.clk.alm })

/-- LANE_ERROR_RATE (R451). -/
def execLaneErrorRate (k lane : Nat) (s : State) : Out1 :=
  let x := s.link k
  when_ (k < s.plkCount && x.state = 2 && lane < 8) "no lane of this link can be taken out"
    ((s.setLink k { x with state := 3, insvc := x.insvc &&& ~~~devBit lane }).record 0 ownerCtx 0x36 0x09 (8 * k + lane) 4 0 false 0)

/-- A write of PLK_LINK (R451, R467): RETRAIN from DOWN or FAILED; a write setting more than one bit of OFFL is discarded. Whether a lane
that OFFL gives back passes its test is a free value (log entry 169). -/
def State.writeLink (s : State) (k : Nat) (v : Word) : State :=
  let off := BitVec.ofNat 8 (bits v.toNat 7 0)
  if 1 < popCount off then s
  else
    let x := s.link k
    let y := { x with offl := off }
    let s1 :=
      if x.state = 2 && off ≠ 0 then s.setLink k { y with state := 3, insvc := x.insvc &&& ~~~off }
      else if x.state = 3 && off = 0 && x.offl ≠ 0 && x.insvc ||| x.offl = 0xFF then
        (let f := s.free
         if f.1.getLsbD 0 then f.2.setLink k { y with state := 2, insvc := 0xFF } else f.2.updLink k fun _ => y)
      else s.updLink k fun _ => y
    let z := s1.link k
    if bit v.toNat 24 && (z.state = 0 || z.state = 4) then s1.setLink k { z with state := 1, conflict := false, tries := 0, trainAt := s.clk.alm } else s1

/-- The link's control word with RETRAIN = 1 (R451, R467). -/
def State.retrainWord (s : State) (k : Nat) : Word := packW [(1, 1), (16, 0), (8, (s.link k).offl.toNat)]

/-- PLK_RETRAIN (R451): the write with RETRAIN = 1, OFFL as it stands. -/
def execPlkRetrain (r : Req) (k : Nat) (s : State) : Out1 :=
  if 4 ≤ k then no "no such link"
  else busRow s r (0x360100 + 4 * k) (s.retrainWord k) (s.writeLink k (s.retrainWord k))

/-- PLK_OFFL_WRITE (R451). -/
def execPlkOfflWrite (r : Req) (p : Nat) (v : Word) (s : State) : Out1 :=
  if 4 ≤ p then no "no such link" else busRow s r (0x360100 + 4 * p) v (s.writeLink p v)

/-! ## Bindings (R456, R459, R460) -/

/-- The binding check (R56, R456). -/
def State.bindingReason (s : State) (b : Nat) : Nat :=
  let x := s.binding b
  let own := s.pwr.devid.toNat
  pickReason
    [(s.plkCount = 0, 0x6004), (4096 ≤ x.part.toNat, 0x6001), (x.part.toNat < 4096 && !tri (s.part x.part.toNat).en, 0x6002),
     (!x.devmask.getLsbD own || look 0 x.ctxs own ≠ x.part, 0x6010), ((devsOf x.devmask).any (fun e => !s.reaches e), 0x6011)]

/-- UP toward device e where its announcement has the same DEVMASK and CTX entries (R456). -/
def Binding.meets (x : Binding) (e : Nat) : Bool := look none x.peers e = some (x.devmask, x.entries)

/-- The check of a binding ends (R456, R459): a pass announces the binding with this partition's GEN, and it is UP toward the
devices that have announced the same. -/
def State.bindingEnd (s : State) (b : Nat) : State :=
  let n := s.bindingReason b
  let s1 :=
    if n = 0 then
      let x := s.binding b
      let own := s.pwr.devid.toNat
      let up := (devsOf x.devmask).foldl (fun m e => if e = own || x.meets e then m ||| devBit e else m) (0 : BitVec 8)
      let s2 := s.updBinding b fun y => { y with en := true, up := up, lost := 0 }
      (devsOf x.devmask).foldl (fun (y : State) e =>
        if e = own then y else y.plkSend e (.plkBinding e b x.devmask x.entries (s.part x.part.toNat).gen)) s2
    else s
  s1.checkDone .plk n b

/-- A write of word o of binding b's record (R456, R467). -/
def State.writeBinding (s : State) (r : Req) (b o : Nat) (v : Word) : State :=
  let n := v.toNat
  let x := s.binding b
  if (s.ccr .plk).queue.contains (.binding b) then s.holdWrite .plk r (0x36A000 + b * 0x20 + o) v
  else if x.en then
    (if o = 0 && !bit n 31 then s.updBinding b fun y => { y with en := false, up := 0, lost := 0 } else s)
  else if o = 0 then
    let s1 := s.updBinding b fun y => { y with devmask := BitVec.ofNat 8 (bits n 23 16), part := BitVec.ofNat 13 (bits n 12 0) }
    if bit n 31 then s1.queueCheck .plk (.binding b) else s1
  else if 4 ≤ o && o ≤ 0x10 then
    let r' := (o - 4) / 4
    s.updBinding b fun y =>
      { y with ctxs := put 0 (put 0 y.ctxs (2 * r') (BitVec.ofNat 13 (bits n 12 0))) (2 * r' + 1) (BitVec.ofNat 13 (bits n 28 16)) }
  else s

/-- PEER_BINDING_ENABLE (R456): the write of PLK_BIND_CTL with EN = 1 (log entry 9). -/
def execPeerBindingEnable (r : Req) (b : Nat) (v : Word) (s : State) : Out1 :=
  if 64 ≤ b then no "no such binding" else busRow s r (0x36A000 + b * 0x20) (v ||| 0x80000000) (s.writeBinding r b 0 (v ||| 0x80000000))

/-- BINDING_MESSAGE (R456, R459): a GEN that has changed since the device's last announcement fails the runs over the binding (R460). -/
def execBindingMessage (dev b : Nat) (devmask : BitVec 8) (ctxs : List (BitVec 13)) (gen : BitVec 16) (s : State) : Out1 :=
  let s := s.hear dev
  if !(dev < 8 && dev ≠ s.pwr.devid.toNat && b < 64 && s.reaches dev) then no "no such peer or binding"
  else
    let t := s.updBinding b fun x =>
      let y := { x with peers := put none x.peers dev (some (devmask, ctxs)), gens := put 0 x.gens dev gen }
      if y.en && y.devmask.getLsbD dev && y.meets dev then
        { y with up := y.up ||| devBit dev, lost := y.lost &&& ~~~devBit dev }
      else y
    let x := s.binding b
    .next (if x.en && x.devmask.getLsbD dev && (look none x.peers dev).isSome && look 0 x.gens dev ≠ gen then t.failBinding b else t)

/-- GENERATION_UPDATE_MESSAGE (R459, R460): the new GEN is acknowledged; a run over the binding fails where it changed. -/
def execGenerationUpdateMessage (dev b : Nat) (gen : BitVec 16) (s : State) : Out1 :=
  let s := s.hear dev
  if !(dev < 8 && dev ≠ s.pwr.devid.toNat && b < 64 && s.reaches dev && (s.binding b).devmask.getLsbD dev) then
    no "no such peer or binding"
  else
    let x := s.binding b
    let s1 := (s.updBinding b fun y => { y with gens := put 0 y.gens dev gen }).plkSend dev (.plkGenAck dev (look 0 x.ctxs dev).toNat gen)
    .next (if look 0 x.gens dev ≠ gen && x.en then s1.failBinding b else s1)

/-- GENERATION_UPDATE_ACK (R459). -/
def execGenerationUpdateAck (dev p : Nat) (gen : BitVec 16) (s : State) : Out1 :=
  let s := s.hear dev
  let x := s.part p
  match x.genWait with
  | some m =>
    when_ (dev < 8 && p < 4096 && x.gen = gen && m.getLsbD dev) "no such acknowledgement is awaited"
      (s.setPart p { x with genWait := some (m &&& ~~~devBit dev) })
  | none => no "no such acknowledgement is awaited"

end Sys2Proof.Machine
end

