-- ==== Sys2Proof/Machine/Vigil.lean ====
section
/-! DEFINITION. Machine/Vigil.lean: tile faults and sparing, steward failover, planned swaps, online service, the log and
its acknowledgement, checker tests and faults that need a reset (R470 to R487). -/

namespace Sys2Proof.Machine

/-! ## Tiles (R474, R478, R479) -/

/-- The context a fault in tile t affects (R469): that of its morsels in flight, else the owner context. -/
def State.tileCtx (s : State) (t : Nat) : Nat :=
  match s.flightsOn t with
  | f :: _ => f.ctx.toNat
  | [] => ownerCtx

/-- A physical tile lent as digest partner returns to SPARE; the morsels left of the tile it served run unpaired (R479). -/
def State.returnBorrowed (s : State) (l : Nat) : State :=
  match look none s.vigil.borrowed l with
  | none => s
  | some p =>
    let s1 := { s with vigil := { s.vigil with borrowed := put none s.vigil.borrowed l none } }
    s1.setSpare p true

/-- The spare a sparing takes (R474): the lowest SPARE tile not chosen yet; else a borrowed one returns for it (R479). -/
def State.chooseSpare (s : State) : Option Nat × State :=
  let chosen := s.vigil.sparing.map (·.2) ++ (match s.vigil.swap with | some w => [w.2.1] | none => [])
  match (List.range s.tilesPhys).find? fun p => s.isSpare p && !chosen.contains p with
  | some p => (some p, s)
  | none =>
    match s.vigil.borrowed with
    | (l, some p) :: _ =>
      let s1 := s.returnBorrowed l
      (some p, { s1 with vigil := { s1.vigil with eqxLeft := put 0 s1.vigil.eqxLeft (s1.physOf l) 0 } })
    | _ => (none, s)

/-- A swap of logical tile l ends because its tile faults: the fault path wins (R483). -/
def State.swapLost (s : State) (l : Nat) : State :=
  match s.vigil.swap with
  | some (l', _, svc) =>
    if l = l' then
      let s1 := { s with vigil := { s.vigil with swap := none } }
      if svc && s1.vigil.svcBusy then s1.svcEnd 2 0x0002 else s1
    else s
  | none => s

/-- The spare onto which a swap goes leaves service: another takes its place; without one a tile that is taken out leaves its shares, and
a planned swap ends (log entry 179). -/
def State.swapTargetLost (s : State) (t : Nat) : State :=
  match s.vigil.swap with
  | some (l, p, svc) =>
    if p = t then
      let c := s.chooseSpare
      match c.1 with
      | some p' => { c.2 with vigil := { c.2.vigil with swap := some (l, p', svc) } }
      | none =>
        if svc then { c.2 with vigil := { c.2.vigil with swap := some (l, 0x1F, svc) } }
        else { c.2 with vigil := { c.2.vigil with swap := none } }.updTile (c.2.physOf l) fun x => { x with drain := false }
    else s
  | none => s

/-- Physical tile t leaves service (R474): the record, NOCLAIM, its morsels abandoned, a spare chosen; without one the logical
tile leaves every share. A fault in a unit under test ends the test (R483). -/
def State.tileOutOf (s : State) (t cls chk : Nat) : State :=
  let ctx := s.tileCtx t
  let busy := !(s.flightsOn t).isEmpty
  match s.logOf t with
  | none =>
    let s1 := (s.record cls ctx (0x10 + t) chk t (b2n busy + 4) 0 false 0).abandonTile t
    let s2 := s1.setSpare t false
    let s3 := { s2 with vigil := { s2.vigil with borrowed := s2.vigil.borrowed.filter fun e => e.2 ≠ some t } }
    let s4 := match s3.vigil.sparing.find? (fun (e : Nat × Nat) => e.2 = t) with
      | none => s3
      | some (l, _) =>
        let c := s3.chooseSpare
        let rest := c.2.vigil.sparing.filter fun (e : Nat × Nat) => e.2 ≠ t
        match c.1 with
        | some p => { c.2 with vigil := { c.2.vigil with sparing := rest ++ [(l, p)] } }
        | none => { c.2 with vigil := { c.2.vigil with sparing := rest } }.setPhys l 0x1F
    (s4.swapTargetLost t).testFaulted 0 t
  | some l =>
    let s0 := s.swapLost l
    if s0.vigil.sparing.any (fun e => e.1 = l) then s0.record cls ctx (0x10 + t) chk t 4 0 false 0
    else
      let c := s0.chooseSpare
      let act := b2n busy + (if c.1.isSome then 2 else 0) + 4
      let s1 := (c.2.record cls ctx (0x10 + t) chk t act 0 false 0).updTile t fun x => { x with noclaim := true, faultClaim := x.faultClaim || !x.noclaim }
      let s2 := s1.abandonTile t
      let s3 := s2.returnBorrowed l
      match c.1 with
      | some p => { s3 with vigil := { s3.vigil with sparing := s3.vigil.sparing ++ [(l, p)] } }
      | none => s3.setPhys l 0x1F

/-- A fault in physical tile t (R474). -/
def State.tileFaultAt (s : State) (t chk : Nat) : State := s.tileOutOf t 1 chk

/-- The checks of a tile's own circuits that give an uncorrected record (R468): SRAM ECC, flit parity, register parity, residue, a lost
vote. -/
def tileChecks : List Nat := [0x01, 0x03, 0x04, 0x05, 0x06]

/-- TILE_FAULT (R468, R474); a missed heartbeat has a row of its own (log entry 155). -/
def execTileFault (phys : Nat) (check : Byte) (s : State) : Out1 :=
  when_ (phys < s.tilesPhys && tileChecks.contains check.toNat) "no such tile, or no check of a tile's circuits" (s.tileFaultAt phys check.toNat)

/-- A physical tile reset for service: caches, scratch tags and counters as after reset (R474). -/
def State.clearTile (s : State) (t : Nat) : State :=
  (List.range 4).foldl (fun (x : State) c => x.setCp t c {}) (s.setTile t {})

/-- SPARE_PLACED (R474, R479): the spare takes the logical tile and runs its first 64 morsels paired. -/
def execSparePlaced (l : Nat) (s : State) : Out1 :=
  match s.vigil.sparing with
  | (l', p) :: rest =>
    if l = l' then
      let s1 := ((s.clearTile p).setPhys l p).setSpare p false
      .next { s1 with vigil := { s1.vigil with sparing := rest, eqxLeft := put 0 s1.vigil.eqxLeft p 64 } }
    else no "the sparings are placed in order"
  | [] => no "no sparing runs"

/-! ## Stewards (R478) -/

/-- The stewards in service. -/
def State.stewards (s : State) : List Nat := (List.range 4).filter fun w => (s.stw w).inService

/-- Steward n goes out of service: its partitions and its routes move to the lowest one left (R478; log entry 178). -/
def State.moveSteward (s : State) (n : Nat) : State :=
  let dest := ((s.stewards.filter (· ≠ n)).head?).getD 0
  let s1 := { s with parts := mapAll {} 4096 (fun (p : Part) => if p.stw.toNat = n then { p with stw := BitVec.ofNat 2 dest } else p) s.parts }
  let s2 := { s1 with evc := { s1.evc with routes := mapAll {} 2048 (fun (r : Route) =>
    if !r.pf0 && r.stw.toNat = n then { r with stw := BitVec.ofNat 2 dest } else r) s1.evc.routes } }
  s2.updStw n fun _ => { inService := false }

/-- HEARTBEAT_MISS (R473, R474, R478, R484). -/
def execHeartbeatMiss (stw : Bool) (n : Nat) (s : State) : Out1 :=
  if !stw then when_ (n < s.tilesPhys) "no such tile" (s.tileFaultAt n 7)
  else if !(n < 4 && (s.stw n).inService) then no "no such steward in service"
  else if s.stewards = [n] then .next (s.record 1 ownerCtx 0xF1 8 n 0x20 0 false 0).resetRequired
  else .next ((s.record 1 ownerCtx 0xF1 8 n 4 0 false 0).moveSteward n)

/-! ## Planned swaps (R477) -/

/-- The logical tiles of register i whose field a write of v changes. -/
def State.mapChanges (s : State) (i : Nat) (v : Word) : List (Nat × Nat) :=
  (List.range 4).filterMap fun j =>
    let new := bits v.toNat (8 * j + 4) (8 * j)
    if new ≠ s.physOf (4 * i + j) then some (4 * i + j, new) else none

/-- Logical tile l moves onto physical tile p: a tile in service drains first; an empty field changes at once (R477). -/
def State.startSwap (s : State) (l p : Nat) (out : Bool) : State :=
  let old := s.physOf l
  if old = 0x1F then
    (s.setPhys l p).setSpare p false
  else
    let s1 := s.updTile old fun x => { x with drain := true }
    { s1 with vigil := { s1.vigil with swap := some (l, p, out) } }

/-- A write of GLB_TILE_MAP register i, after the guard (R475, R477). -/
def State.writeTileMap (s : State) (r : Req) (i : Nat) (v : Word) : State :=
  match s.mapChanges i v with
  | [] => s
  | [(l, p)] =>
    if l < s.tilesSvc && s.isSpare p && s.vigil.swap.isNone && s.vigil.sparing.isEmpty then s.startSwap l p false
    else s.refuseG r (0x50 + 4 * i)
  | _ => s.refuseG r (0x50 + 4 * i)

/-- GLB_TILE_MAP_WRITE (R45, R477). -/
def execGlbTileMapWrite (r : Req) (i : Nat) (v : Word) (s : State) : Out1 :=
  if 4 ≤ i then no "no such register" else busRow s r (0x50 + 4 * i) v (s.gWrite r (0x50 + 4 * i) fun x => x.writeTileMap r i v)

/-- SWAP_COMPLETE (R477, R481): the old tile has drained, the mapping changes; the old tile becomes SPARE, or out of service
where VIGIL_SVC or a checker took it out. -/
def execSwapComplete (s : State) : Out1 :=
  match s.vigil.swap with
  | none => no "no swap runs"
  | some (l, p, out) =>
    let old := s.physOf l
    if (s.flightsOn old).isEmpty then
      let s1 := if p = 0x1F then s.setPhys l p else (s.setPhys l p).setSpare p false
      let s2 := s1.updTile old fun x => { x with drain := false }
      let s3 := (s2.returnBorrowed l).setSpare old (!out)
      .next { s3 with vigil := { s3.vigil with swap := none, eqxLeft := put 0 s3.vigil.eqxLeft old 0 } }
    else no "the old tile still drains"

/-! ## Online service (R481, R482) -/

/-- The physical bank that serves no logical bank (R227). -/
def State.spareBank (s : State) : Nat := ((List.range 33).find? fun p => (List.range 32).all fun b => s.physBank b ≠ p).getD 32

/-- Whether the spare physical bank is out of service. -/
def State.bankOut (s : State) : Bool := look false s.vigil.outSvc (256 + s.spareBank)

/-- Whether physical tile t is out of service: neither mapped, nor SPARE, nor lent (R476). -/
def State.tileOut (s : State) (t : Nat) : Bool :=
  (s.logOf t).isNone && !s.isSpare t && !s.vigil.borrowed.any (fun e => e.2 = some t) && !s.vigil.sparing.any (fun e => e.2 = t)

/-- Whether a unit is out of service, for TEST and IN. -/
def State.unitOut (s : State) (kind ix : Nat) : Bool :=
  if kind = 0 then s.tileOut ix
  else if kind = 1 then s.bankOut
  else if kind = 2 then look false s.cmp.outSvc ix
  else if kind = 3 then look false s.arc.ersOut ix
  else if kind = 4 then true
  else !(s.stw ix).inService

/-- Why a service action is refused (R482 REASON); 0 where it starts. -/
def State.svcRefusal (s : State) (kind action ix : Nat) : Nat :=
  let limit := if kind = 0 then (if action = 0 then s.tilesSvc else s.tilesPhys)
               else if kind = 1 then (if s.astp then 32 else 0)
               else if kind = 2 then 16 else if kind = 3 then 8 else if kind = 4 then 64 * s.stacks else if kind = 5 then 4 else 0
  if s.vigil.svcBusy then 4
  else if limit ≤ ix || action = 3 || (kind = 4 && action ≠ 1) then 1
  else if action ≠ 0 then (if s.unitOut kind ix then 0 else 2)
  else if kind = 0 then
    (if s.physOf ix = 0x1F || s.vigil.swap.isSome || !s.vigil.sparing.isEmpty then 2 else 0)
  else if kind = 1 then (if s.bankOut then 5 else 0)
  else if s.unitOut kind ix then 2
  else if kind = 5 && s.stewards.length ≤ 1 then 3
  else 0

/-- What OUT does at its start (R481). -/
def State.svcOut (s : State) (kind ix : Nat) : State :=
  if kind = 0 then
    let c := s.chooseSpare
    match c.1 with
    | some p => c.2.startSwap ix p true
    | none => c.2.startSwap ix 0x1F true
  else if kind = 2 then { s with cmp := { s.cmp with outSvc := put false s.cmp.outSvc ix true } }
  else if kind = 3 then { s with arc := { s.arc with ersOut := put false s.arc.ersOut ix true } }
  else if kind = 5 then s.moveSteward ix
  else s

/-- The physical unit an action acts on (R469): OUT names logical tiles and banks, the bank tested or returned is the spare one. -/
def State.svcPhys (s : State) (kind action ix : Nat) : Nat :=
  if kind = 0 && action = 0 then s.physOf ix
  else if kind = 1 then (if action = 0 then s.physBank ix else s.spareBank)
  else ix

/-- A write of VIGIL_SVC, after the guard (R482). -/
def State.writeSvc (s : State) (v : Word) : State :=
  let w := v &&& 0x00FC00FF
  let kind := bits w.toNat 23 20
  let action := bits w.toNat 19 18
  let ix := bits w.toNat 7 0
  let n := s.svcRefusal kind action ix
  if n = 4 then { s with vigil := { s.vigil with svcResult := 2, svcReason := 4 } }
  else if n ≠ 0 then { s with vigil := { s.vigil with svcCtl := w, svcResult := 2, svcReason := BitVec.ofNat 16 n } }
  else
    let s1 := { s with vigil := { s.vigil with svcCtl := w, svcUnit := s.svcPhys kind action ix, svcBusy := true, svcResult := 0, svcReason := 0 } }
    if action = 0 then s1.svcOut kind ix else s1

/-- A write of VIGIL_SVC by row, its ACTION given (log entry 9). -/
def svcRow (r : Req) (action : Nat) (v : Word) (s : State) : Out1 :=
  let w := (v &&& ~~~0x000C0000) ||| BitVec.ofNat 32 (action * 2 ^ 18)
  busRow s r 0x40100 w (s.gWrite r 0x40100 fun x => x.writeSvc w)

/-- VIGIL_SVC_OUT (R481, R482). -/
def execVigilSvcOut (r : Req) (v : Word) (s : State) : Out1 := svcRow r 0 v s

/-- VIGIL_SVC_TEST (R481, R482). -/
def execVigilSvcTest (r : Req) (v : Word) (s : State) : Out1 := svcRow r 1 v s

/-- VIGIL_SVC_IN (R481, R482). -/
def execVigilSvcIn (r : Req) (v : Word) (s : State) : Out1 := svcRow r 2 v s

/-- The logical bank moves onto the spare physical bank, filled from the shadow; its FAULT clears (R481). -/
def State.replaceBank (s : State) (b : Nat) : State :=
  let old := s.physBank b
  let new := s.spareBank
  let a := s.astore
  let hole : AUnit := { data := -1, mask := 0 }
  let copy := (List.range 65536).map fun u => look hole a.shadow (old * 65536 + u)
  let lay := fun (m : SMap AUnit) =>
    copy.zipIdx.foldl (fun m e => put hole m (new * 65536 + e.2) e.1) (clearRange m (new * 65536) 65536)
  let s1 := { s with astore := { a with
    units := lay a.units, shadow := lay a.shadow, phys := put 0 a.phys b (BitVec.ofNat 6 new - BitVec.ofNat 6 b)
    badParity := clearRange a.badParity (new * 65536) 65536, badMask := clearRange a.badMask (new * 65536) 65536
    badShadow := clearRange a.badShadow (new * 65536) 65536 } }
  let s2 := s1.updBank b fun x => { x with fault := false }
  { s2 with vigil := { s2.vigil with outSvc := put false s2.vigil.outSvc (256 + old) true } }

/-- What IN does (R481); the NOCLAIM that VIGIL set on a faulted tile clears, one that PF0 wrote stays (R40, R100; log entry 130). -/
def State.svcIn (s : State) (kind ix : Nat) : State :=
  if kind = 0 then (s.updTile ix fun x => { x with noclaim := x.noclaim && !x.faultClaim, faultClaim := false }).setSpare ix true
  else if kind = 1 then { s with vigil := { s.vigil with outSvc := put false s.vigil.outSvc (256 + s.spareBank) false } }
  else if kind = 2 then { s with cmp := { s.cmp with outSvc := put false s.cmp.outSvc ix false } }
  else if kind = 3 then { s with arc := { s.arc with ersOut := put false s.arc.ersOut ix false } }
  else if kind = 5 then s.updStw ix fun _ => {}
  else s

/-- BLOCK of a unit that is serviced (R30, R469): MEMC s serves the 64 pseudo-channels of stack s (log entry 156). -/
def svcBlock (kind unit : Nat) : Nat :=
  if kind = 0 then 0x10 + unit else if kind = 1 then 0x30 else if kind = 2 then 0x31 else if kind = 3 then 0x32
  else if kind = 4 then 0x38 + unit / 64 else 0xF1

/-- Whether the action that runs can end: a swap is over, an engine's jobs have completed. -/
def State.svcReady (s : State) : Bool :=
  let w := s.vigil.svcCtl.toNat
  s.vigil.swap.isNone && !(bits w 23 20 = 2 && bits w 19 18 = 0 && s.cmp.jobs.any fun j => j.engine = some (bits w 7 0))

/-- The test of a pseudo-channel finds a failing row (R481): it stays remapped to a spare row while one of the 64 is left; otherwise
it is reported uncorrected, and its page, a mapped one or not, leaves POOL when it is free (log entry 149). -/
def State.rowFails (s : State) (pc : Nat) : State :=
  if look 0 s.vigil.spareRows pc < 64 then
    { s with vigil := { s.vigil with spareRows := upd 0 s.vigil.spareRows pc (· + 1) } }.svcEnd 1 0
  else
    let f := s.free
    let s1 := f.2.record 1 ownerCtx (svcBlock 4 pc) 0x0D pc 0 0 false 0
    let v := s1.vigil
    (match s1.pages[f.1.toNat % s1.hbmPages]? with
      | some e => { s1 with vigil := if v.badHeld.contains e.1 then v else { v with badHeld := e.1 :: v.badHeld } }
      | none => { s1 with vigil := { v with badPages := v.badPages + 1 } }).svcEnd 3 0

/-- SERVICE_ACTION_COMPLETE (R468, R481, R482): OUT and IN write a service record, a failed test an uncorrected one. -/
def execServiceActionComplete (pass : Bool) (ms : BitVec 16) (s : State) : Out1 :=
  if s.vigil.svcBusy && s.svcReady then
    let w := s.vigil.svcCtl.toNat
    let kind := bits w 23 20
    let ix := bits w 7 0
    let s1 := { s with vigil := { s.vigil with svcMs := ms } }
    let unit := s.vigil.svcUnit
    let rec' := fun (x : State) (cls chk act : Nat) => x.record cls ownerCtx (svcBlock kind unit) chk unit act 0 false 0
    .next (
      if bits w 19 18 = 1 then
        (if pass then s1.svcEnd 1 0 else if kind = 4 then s1.rowFails ix else (rec' s1 1 0x0D 4).svcEnd 3 0)
      else if bits w 19 18 = 0 then (rec' (if kind = 1 then s1.replaceBank ix else s1) 3 0x10 4).svcEnd 1 0
      else (rec' (s1.svcIn kind ix) 3 0x10 0).svcEnd 1 0)
  else no "no service action is ready to end"

/-! ## The log (R470, R472) -/

/-- A write of VIGIL_LOG_C (R361, R470): PF0's. -/
def State.writeLogC (s : State) (r : Req) (v : Word) : State :=
  if r = .pf0 && (v - s.vigil.logC).toNat ≤ (s.vigil.logP - s.vigil.logC).toNat then { s with vigil := { s.vigil with logC := v } } else s

/-- VIGIL_LOG_C_WRITE (R470). -/
def execVigilLogCWrite (r : Req) (v : Word) (s : State) : Out1 := busRow s r 0x40018 v (s.writeLogC r v)

/-- A write of VIGIL_UACK (R472): PF0's. -/
def State.writeUack (s : State) (r : Req) (v : Word) : State :=
  if r = .pf0 then
    { s with vigil := { s.vigil with uack := v, unack := s.vigil.unack.filter fun q => 2 ^ 31 ≤ (v - q).toNat } }
  else s

/-- VIGIL_UACK_WRITE (R472). -/
def execVigilUackWrite (r : Req) (v : Word) (s : State) : Out1 := busRow s r 0x4001C v (s.writeUack r v)

/-! ## Checker tests and faults that need a reset (R484, R485) -/

/-- The unit of a checker that failed its test goes out of service (R485), and whether it had a spare; none where no unit leaves service:
a block that VIGIL_SVC does not know, the last steward, a bank while the spare one is out. -/
def State.checkerOut (s : State) (blk n : Nat) : Option (State × Bool) :=
  if 0x10 ≤ blk && blk < 0x10 + s.tilesPhys then
    match s.logOf (blk - 0x10) with
    | some l => some (s.svcOut 0 l, (s.chooseSpare).1.isSome)
    | none => some (s.setSpare (blk - 0x10) false, true)
  else if blk = 0x30 then (if s.astp && n < 32 && !s.bankOut then some (s.replaceBank n, true) else none)
  else if blk = 0x31 then (if n < 16 && !s.unitOut 2 n then some (s.svcOut 2 n, false) else none)
  else if blk = 0x32 then (if n < 8 && !s.unitOut 3 n then some (s.svcOut 3 n, false) else none)
  else if blk = 0xF1 then (if n < 4 && !s.unitOut 5 n && s.stewards ≠ [n] then some (s.svcOut 5 n, true) else none)
  else none

/-- CHECKER_SELF_TEST (R472, R485): a checker that fails to report writes a latent record; FAULT_N asserts only where its unit
had no spare. -/
def execCheckerSelfTest (blk : Byte) (n : Nat) (pass : Bool) (s : State) : Out1 :=
  if s.vigil.svcBusy || s.vigil.swap.isSome || !s.vigil.sparing.isEmpty then no "checkers are tested outside service traffic"
  else if pass then .next s
  else
    let seq := if s.vigil.logP - s.vigil.logC = (512 : Word) then s.vigil.logP - 1 else s.vigil.logP
    match s.checkerOut blk.toNat n with
    | none => .next (s.record 2 ownerCtx blk.toNat 0x0E n 0 0 false 0)
    | some c =>
      let s1 := c.1.record 2 ownerCtx blk.toNat 0x0E n 4 0 false 0
      .next (if c.2 then s1 else { s1 with vigil := { s1.vigil with unack := seq :: s1.vigil.unack } })

/-- RESET_REQUIRED_FAULT (R484): the root PLL (CLK), the host port (HIF), the crossbar (FAB) or TRUST. -/
def execResetRequiredFault (blk check : Byte) (s : State) : Out1 :=
  when_ ([0x01, 0x34, 0xF0, 0x05].contains blk.toNat) "a fault of this block is serviced on line"
    (s.record 1 ownerCtx blk.toNat check.toNat 0 0x20 0 false 0).resetRequired

end Sys2Proof.Machine
end

