-- ==== Sys2Proof/Machine/Functions.lean ====
section
/-! DEFINITION. Machine/Functions.lean: what the host does to its functions, resets of the port, command timeouts and the
device power states (R339 to R343, R364 to R371, R506, R509, R511, R520). -/

namespace Sys2Proof.Machine

/-! ## Virtual functions (R341 to R343, R511) -/

/-- COUNT of a VF as taken (R342). -/
def countTaken (c : BitVec 12) : Nat := if c = 0 then 1 else min c.toNat 2048

/-- The vectors granted to VFs i to i + n − 1 of num, given a vectors to the earlier ones (R341). -/
def grants (count : SMap (BitVec 12)) (num : Nat) : Nat → Nat → Nat → SMap (BitVec 12)
  | 0, _, _ => []
  | n + 1, i, a =>
    let g := min (countTaken (look 15 count i)) (63488 - a - (num - i))
    (i, BitVec.ofNat 12 g) :: grants count num n (i + 1) (a + g)

/-- VF_ENABLE_SET (R341, R342, R511): before READY the bit stays 0. -/
def execVfEnableSet (numVfs : Nat) (s : State) : Out1 :=
  if !(1 ≤ numVfs && numVfs ≤ 4096 && s.hif.portUp && 2 ≤ s.glb.start && !s.hif.vfEnable) then
    no "the host cannot set VF Enable"
  else if s.glb.start ≠ 5 then .next s
  else .next { s with hif := { s.hif with numVfs := numVfs, vfEnable := true, granted := grants s.hif.vfCount numVfs numVfs 1 0 } }

/-- The partition reset a function's reset brings (R343, R407): none where it is OFF or already RESETTING. -/
def State.resetIfOn (s : State) (p : Nat) : State :=
  let n := (s.part p).state
  if 1 ≤ n && n ≤ 3 then s.startReset p false none else s

/-- VF_FUNCTION_LEVEL_RESET (R343). -/
def execVfFunctionLevelReset (n : Nat) (s : State) : Out1 :=
  when_ (s.vfExists n) "no such VF" ((s.updFunc n fun _ => {}).resetIfOn (n - 1))

/-! ## The host port (R506, R509, R511) -/

/-- A host-port reset (R506, R509): fetching stops, every queue is disabled, the functions' configuration is lost, every
partition not OFF is reset; commands of PF0's rings are lost with the HIF that held them, their places on the CQs released. -/
def State.portReset (s : State) : State :=
  let mine := s.hif.cmds.filter fun c => 4096 ≤ c.ctx.toNat && (match c.origin with | .ring _ => true | .net _ _ => false)
  let s0 := mine.foldl (fun (x : State) c => (x.forget c.id).updQueue c.cq fun q => q.releasePlace c.place) s
  let s1 := { s0 with hif := { s0.hif with
    queues := s0.hif.queues.map fun (e : Nat × Queue) => (e.1, e.2.reset)
    cmds := s0.hif.cmds.filter fun c => !mine.contains c
    funcs := [], numVfs := 0, vfEnable := false, granted := [] } }
  s1.parts.foldl (fun (x : State) e => x.resetIfOn e.1) s1

/-- HOST_PORT_RESET (R506, R509). -/
def execHostPortReset (cause : HostResetCause) (s : State) : Out1 :=
  let r := fun (x : State) (bit : BitVec 4) => { x with glb := { x.glb with rstCause := x.glb.rstCause ||| bit } }
  match cause with
  | .perst => .next (let x := r s.portReset 4; { x with hif := { x.hif with portUp := false } })
  | .pf0Flr => when_ s.hif.portUp "the port is in reset" (r s.portReset 8)
  | .vfEnableCleared => when_ (s.hif.portUp && s.hif.vfEnable) "VF Enable is 0" (r s.portReset 8)

/-- PERST_RELEASE (R511): the port trains once STATE has left POR. -/
def execPerstRelease (s : State) : Out1 :=
  when_ (!s.hif.portUp && s.glb.start ≠ 0) "the port is not held by PERST_N" { s with hif := { s.hif with portUp := true } }

/-! ## Function power states (R365, R366) -/

/-- The queues of a function. -/
def State.fnQueues (s : State) (fn : Nat) : List Nat := s.hif.queues.filterMap fun e => if fnOf e.2.ctxN = fn then some e.1 else none

/-- A function can send again (R365): held completions first, then the interrupt of each CQ with IEN = 1 whose threshold was reached
(R364), and the messages that waited (R434). -/
def State.fnResume (s : State) (fn : Nat) : State :=
  if !s.canSend fn then s
  else
    let qs := s.fnQueues fn
    let s1 := qs.foldl (fun (x : State) q => x.cqDrain q ((x.queue q).held.length + 1)) s
    let s2 := qs.foldl (fun (x : State) q => if (x.queue q).modReached && (x.queue q).ien then x.cqInterrupt q else x) s1
    let waits := (s2.func fn).heldMsg.map (·.1)
    waits.foldl (fun (x : State) v => x.msix fn v) (s2.updFunc fn fun f => { f with heldMsg := [] })

/-- Whether a function exists. -/
def State.fnExists (s : State) (fn : Nat) : Bool := fn = 0 || s.vfExists fn

/-- FUNCTION_D3HOT_ENTRY (R365): whether the host has set PME_En before is a free value (log entry 170). -/
def execFunctionD3hotEntry (fn : Nat) (s : State) : Out1 :=
  when_ (s.fnExists fn && !(s.func fn).d3hot) "the function is not in D0"
    (s.free.2.updFunc fn fun f => { f with d3hot := true, pmeEn := s.free.1.getLsbD 0 })

/-- FUNCTION_D0_RETURN (R365): a CQ may send a PME again at its next threshold in D3hot. -/
def execFunctionD0Return (fn : Nat) (s : State) : Out1 :=
  if s.fnExists fn && (s.func fn).d3hot then
    let s1 := s.updFunc fn fun f => { f with d3hot := false }
    let s2 := (s1.fnQueues fn).foldl (fun (x : State) q => x.updQueue q fun y => { y with pmeSent := false }) s1
    .next (s2.fnResume fn)
  else no "the function is not in D3hot"

/-- BUS_MASTER_ENABLE_CLEAR (R365). -/
def execBusMasterEnableClear (fn : Nat) (s : State) : Out1 :=
  when_ (s.fnExists fn && (s.func fn).bme) "Bus Master Enable is clear" (s.updFunc fn fun f => { f with bme := false })

/-- BUS_MASTER_ENABLE_SET (R365). -/
def execBusMasterEnableSet (fn : Nat) (s : State) : Out1 :=
  when_ (s.fnExists fn && !(s.func fn).bme) "Bus Master Enable is set" ((s.updFunc fn fun f => { f with bme := true }).fnResume fn)

/-! ## Timeouts of commands (R370, R371) -/

/-- A command has not started: it is fetched, waits for a resource, or waits behind other checks for its own; a mirrored write that the
break leaves unacknowledged waits for SYNCING (R371, R463). -/
def State.notStarted (s : State) (c : Cmd) : Bool :=
  match c.phase with
  | .fetched => true
  | .waiting _ => true
  | .checking => true
  | _ => s.plk.mirState = 3 && s.awaitsAck c.id

/-- The command that a row starts. -/
def startsCmd (i : Instr) : Option Nat :=
  match i with
  | .loadPlan id | .unloadPlan id | .runPlan id | .cancelPlan id | .astCreate id | .astDestroy id | .astLoad id
  | .astInsert id | .astDelete id | .astSearch id | .astRespread id | .astRead id | .cmpDeflate id | .cmpInflate id
  | .mbrDetach id | .arrCreate id | .arrImport id | .arrStop id | .arrSet id | .volCreate id | .volDestroy id
  | .volResize id | .volOwner id | .volRead id | .volWrite id | .volFlush id | .volWriteZeroes id | .volDealloc id
  | .writeCacheReserve id | .arrRebuildStart id | .arrRebuildPause id | .arrRebuildResume id | .arrReshape id
  | .arrLostlist id | .arrVaultInfo id | .devPstate id | .netSubsysEnable id | .netSubsysDisable id | .netExport id
  | .netUnexport id | .hbmAlloc id | .hbmFree id | .memCopy id | .partReset id | .partFreeze id | .partSave id
  | .partRestore id | .partThaw id | .partRelease id => some id
  | .mbrAttach id _ => some id
  | _ => none

/-- START_TIMEOUT (R28, R371). -/
def execStartTimeout (id : Nat) (s : State) : Out1 :=
  match s.cmd? id with
  | none => no "no such command"
  | some c => timeout (c.ctmo ≠ 0 && s.notStarted c && s.elapsed c.fetchedAt (1000000 * c.ctmo.toNat)) (fun i => startsCmd i = some id) "the command has started, or has no start timeout" s
      ((s.forget id).done id 0x0802)

/-- Whether a command reads host memory for its data (the blocks' chapters). -/
def Cmd.readsHost (c : Cmd) : Bool :=
  match c.op with
  | 0x01 => true
  | 0x03 => bit (c.f 14 2) 0
  | 0x21 => true
  | 0x40 => c.f 32 1 = 0
  | 0x48 => c.f 34 1 = 0
  | 0x49 => c.f 34 1 = 0
  | 0x6A => true
  | 0x6D => true
  | 0xA0 => true
  | 0xAB => true
  | _ => false

/-! ## Device power states (R367 to R369) -/

/-- The physical tiles of logical tiles n and above. -/
def State.tilesFrom (s : State) (n : Nat) : List Nat :=
  ((List.range 16).filter fun l => n ≤ l && l < s.tilesSvc && s.physOf l < 18).map s.physOf

/-- f applied to the physical tiles of logical tiles n and above. -/
def State.onTiles (s : State) (n : Nat) (f : Tile → Tile) : State := (s.tilesFrom n).foldl (fun (x : State) t => x.updTile t f) s

/-- Microseconds since a command's fetch. -/
def State.usSince (s : State) (c : Cmd) : Word := BitVec.ofNat 32 ((s.alm - c.fetchedAt.toNat) / 1000)

/-- The DEV_PSTATE that waits completes with a status, the state in force and the time taken (R367). -/
def State.pstateDone (s : State) (status : Nat) : State :=
  match s.pwr.cmd with
  | none => s
  | some id =>
    let s1 := { s with pwr := { s.pwr with cmd := none } }
    match s.cmd? id with
    | some c => s1.complete id status (BitVec.ofNat 32 s.pwr.ps) (s.usSince c)
    | none => s1

/-- DEV_PSTATE (R367, R368): result word 0 holds the state in force however it completes. -/
def execDevPstate (id : Nat) (s : State) : Out1 := withCmd s id 0x80 "no DEV_PSTATE with this id" fun c =>
  let ps := c.f 8 1
  let tiles := c.f 12 2
  let go := fun (phase : Nat) =>
    { (s.phase id .running) with pwr := { s.pwr with phase := phase, target := ps, cmd := some id } }
  let ends := fun (st : Nat) => s.complete id st (BitVec.ofNat 32 s.pwr.ps) 0
  if !c.zeros [(10, 2), (14, 2), (20, 12)] || c.f 9 1 / 2 ≠ 0 then ends 0x0100
  else if 2 < ps || (if ps = 1 then tiles = 0 || s.tilesSvc ≤ tiles else tiles ≠ 0) then ends 0x0105
  else if s.pwr.phase ≠ 0 then ends 0x0201
  else if ps = s.pwr.ps then ends 0
  else if s.pwr.ps < ps then
    if ps = 1 then
      let s1 := go 1
      { s1 with pwr := { s1.pwr with tiles := tiles } }.onTiles tiles fun t => { t with noclaim := true, drain := true }
    else
      let s1 := go 2
      { s1 with pwr := { s1.pwr with wakeAny := bit (c.f 9 1) 0 } }
  else
    let s1 := go 4
    { s1 with pwr := { s1.pwr with tiles := if ps = 1 then tiles else s1.pwr.tiles } }

/-- The entry's timeout (R368): TMO_MS, 0 selecting 1,000. -/
def Cmd.tmoMs (c : Cmd) : Nat := if c.f 16 4 = 0 then 1000 else c.f 16 4

/-- Whether no SDMA channel moves data (R447). -/
def State.sdmaIdle (s : State) : Bool := s.sdma.all fun e => !([2, 3, 4]).contains e.2.state

/-- FLUSH2_START (R368): no command but the DEV_PSTATE is in progress. -/
def execFlush2Start (s : State) : Out1 :=
  when_ (s.pwr.phase = 2 && s.hif.cmds.all (fun c => some c.id = s.pwr.cmd)) "PS2's flush cannot start"
    { s with pwr := { s.pwr with phase := 3 } }

/-- Whether nothing of an array's write cache is left to flush: no cached block, no stripe being filled, no record since the
checkpoint's (R297, R368). -/
def Arr.flushed (a : Arr) : Bool := a.cache.isEmpty && a.stripes.all (fun e => e.2.state ≠ 1 && e.2.state ≠ 2) && a.journal.all (fun r => match r.body with | .checkpoint _ _ => true | _ => false)

/-- The tiles PS1 kept from claiming may claim again (R368). -/
def State.leavePs1 (s : State) : State :=
  if s.pwr.tiles = 0 then s
  else
    let s1 := s.onTiles s.pwr.tiles fun t => { t with noclaim := false, drain := false }
    { s1 with pwr := { s1.pwr with tiles := 0 } }

/-- PSTATE_ENTRY_COMPLETE (R368, R447): into PS1 the leaving tiles are gated; into PS2 every tile, and EVC is saved and gated. -/
def execPstateEntryComplete (s : State) : Out1 :=
  let later := s.hif.cmds.any fun c => match s.pwr.cmd with | some id => id < c.id | none => true
  if s.pwr.phase = 1 && !later && (s.tilesFrom s.pwr.tiles).all (fun t => (s.tile t).flights.isEmpty) then
    let s1 := { s with pwr := { s.pwr with ps := 1, phase := 0 } }
    .next ((s1.onTiles s.pwr.tiles fun t => { t with gated := true }).pstateDone 0)
  else if s.pwr.phase = 3 && s.hif.cmds.all (fun c => some c.id = s.pwr.cmd) && s.sdmaIdle
      && s.arc.arrays.all (fun e => e.2.state = 0 || e.2.flushed) then
    let s1 := { s with pwr := { s.pwr with ps := 2, phase := 0 }, evc := { s.evc with gated := true, latch := [] } }
    .next ((s1.leavePs1.onTiles 0 fun t => { t with gated := true }).pstateDone 0)
  else no "no entry into a power state is ready to end"

/-- PSTATE_ENTRY_TIMEOUT (R368): the state before; DEV_PSTATE completes with 0x0803. -/
def execPstateEntryTimeout (s : State) : Out1 :=
  let s1 := { s with pwr := { s.pwr with phase := 0, target := s.pwr.ps } }
  let due := match s.pwr.cmd.bind s.cmd? with | some c => s.elapsed c.fetchedAt (1000000 * c.tmoMs) | none => false
  timeout (1 ≤ s.pwr.phase && s.pwr.phase ≤ 3 && due) (· = .pstateEntryComplete) "no entry into a power state is in progress" s
    ((if s.pwr.phase = 1 then s1.leavePs1 else s1).pstateDone 0x0803)

/-- WAKE_COMPLETE (R368, R435): tiles, HBM and EVC restored, shares regrow; not once the freeze or THERMTRIP_N has gated the tiles (R328,
R523). -/
def execWakeComplete (s : State) : Out1 :=
  if s.pwr.phase = 4 && s.ungated then
    let s1 := { s with pwr := { s.pwr with ps := s.pwr.target, phase := 0 } }
    let s2 := s1.onTiles 0 fun t => { t with gated := false }
    let s3 := if s.pwr.target = 1 then s2.onTiles s.pwr.tiles fun t => { t with gated := true, noclaim := true } else s2.leavePs1
    .next ((if s.evc.gated then s3.evcRestore else s3).pstateDone 0)
  else no "no wake is in progress"

end Sys2Proof.Machine
end

