-- ==== Sys2Proof/Machine/ArcCore.lean ====
section
/-! DEFINITION. Machine/ArcCore.lean: arrays over their members: geometry and service (R266 to R272, R301, R322), the members' layout
and what is written to them (R264, R267), reading a block (R311 to R313), the live blocks (R289). -/

namespace Sys2Proof.Machine

/-! ## Geometry (R269, R306) -/

/-- k of an array. -/
def Arr.k (x : Arr) : Nat := bits (tri x.geom).toNat 13 8
/-- m of an array. -/
def Arr.m (x : Arr) : Nat := bits (tri x.geom).toNat 2 0
/-- RSV of an array, percent. -/
def Arr.rsv (x : Arr) : Nat := bits (tri x.geom).toNat 31 24
/-- Positions of an array. -/
def Arr.n (x : Arr) : Nat := x.k + x.m
/-- ARC_ARR_GEOM of these values (R306). -/
def geomWord (rsv k m : Nat) : Word := packW [(8, rsv), (10, 0), (6, k), (5, 0), (3, m)]
/-- Register r of ARC_ARR_POS as voted. -/
def Arr.posReg (x : Arr) (r : Nat) : Word := tri (look (Tri.of 0) x.pos r)
/-- The byte of position p (R306): IN-SERVICE and member. -/
def Arr.posByte (x : Arr) (p : Nat) : Nat := bits (x.posReg (p / 4)).toNat (8 * (p % 4) + 7) (8 * (p % 4))
/-- The name of a failed position, which no member is: 64 + p for position p, or, where only the new set of a reshape has it, by its
member n and new position p. -/
def failedName (old : Option Nat) (n p : Nat) : Nat := match old with | some q => 64 + q | none => 128 + 64 * n + p

/-- The member of position p; a position not in service has its name. -/
def Arr.memberAt (x : Arr) (p : Nat) : Nat := if bit (x.posByte p) 7 then x.posByte p % 64 else 64 + p
/-- Position p's byte replaced. -/
def Arr.setPos (x : Arr) (p v : Nat) : Arr :=
  let w := (x.posReg (p / 4)).toNat
  let k := 8 * (p % 4)
  let w' := w - bits w (k + 7) k * 2 ^ k + v % 256 * 2 ^ k
  { x with pos := put (Tri.of 0) x.pos (p / 4) (Tri.of (BitVec.ofNat 32 w')) }
/-- The members of the positions, in order. -/
def Arr.members (x : Arr) : List Nat := (List.range x.n).map x.memberAt
/-- Every position's byte written. -/
def Arr.setMembers (x : Arr) (ms : List (Nat × Bool)) : Arr :=
  ms.zipIdx.foldl (fun (y : Arr) e => y.setPos e.2 (128 * b2n e.1.2 + e.1.1)) { x with pos := [] }

/-- A geometry: k, m and the members by position. -/
structure Geo where
  k : Nat
  m : Nat
  members : List Nat

/-- Positions of a geometry. -/
def Geo.n (g : Geo) : Nat := g.k + g.m

/-- The array's geometry, or the new one of its reshape (R321). -/
def Arr.geo (x : Arr) (new : Bool) : Geo :=
  if new then ⟨x.reshape.k, x.reshape.m, x.reshape.pos⟩ else ⟨x.k, x.m, x.members⟩

/-- The member of a failed position, as its byte keeps it (R306). -/
def Arr.failedMember (x : Arr) (z : Nat) : Nat := if z < 128 then x.posByte (z - 64) % 64 else (z - 128) / 64

/-- Whether the array reshapes. -/
def Arr.reshaping (x : Arr) : Bool := x.reshape.state ≠ 0

/-! ## Room in the journal (R286, R288) -/

/-- Blocks that no stripe of an array exceeds. -/
def Arr.stripeMax (x : Arr) : Nat := 16 * max x.k x.reshape.k

/-- Bytes of the records that a stripe of n blocks may take once it is open: two PARITY, STRIPE_COMMIT, and a delta for each block. -/
def stripeRecords (n : Nat) : Nat := 96 + 48 * n

/-- Bytes of the WRITE records of n blocks, a piece of 64 blocks each, with their WRITE_DONE (R283, R287). -/
def writeRecords (n : Nat) : Nat := (List.range (ceilDiv n 64)).foldl (fun t i => t + 64 + roundUp (4 * min 64 (n - 64 * i)) 16) 0

/-- Bytes of the records that are still to come for what is under way: open and unwritten stripes, cached and reserved writes, and the
next CHECKPOINT (R287, R288; log entry 177). -/
def Arr.journalOwed (x : Arr) : Nat :=
  (x.stripes.filter fun e => e.2.state = 1 || e.2.state = 2).length * stripeRecords x.stripeMax
    + 32 * (x.cache.filterMap fun e => e.2.map (·.seq)).eraseDups.length + x.reserved.foldl (fun n r => n + writeRecords r.2) 0 + 32

/-- Whether the ring has room for n more bytes of records beside those still to come (R286, R288). -/
def Arr.room (x : Arr) (n : Nat) : Bool := x.journalUsed + x.journalOwed + n ≤ ringBytes

/-- Whether a stripe may open: its STRIPE_OPEN and what follows from it have room (R273, R288). -/
def Arr.opensRoom (x : Arr) : Bool := x.room (32 + stripeRecords x.stripeMax)

/-- Whether n blocks can be written: their records have room beside those of a stripe of each stream (R286; log entry 177). -/
def Arr.writesRoom (x : Arr) (n : Nat) : Bool :=
  x.room (writeRecords n + 3 * (32 + stripeRecords x.stripeMax))

/-- Chunk slots of a member's capacity in 4 KiB blocks, with a vault of v MiB (R267). -/
def slotsOf (cap v : Nat) : Nat := min ((cap * 4096 - (1 + v) * 0x100000) / 0x10000) (2 ^ 31 - 1)

/-- P (R272): what volumes may take. -/
def volumeBlocks (rsv k slots : Nat) : Nat := (slots * k * 16 * (100 - rsv) / 100) * 255 / 256

/-- Whether a member serves array a (R266). -/
def State.memberUp (s : State) (a x : Nat) : Bool := (s.member x).state = 3 && (s.member x).array = a

/-- The members of both sets of an array (R324). -/
def Arr.allMembers (x : Arr) : List Nat := (x.members ++ (if x.reshaping then x.reshape.pos else [])).eraseDups

/-- Its members in service. -/
def State.upMembers (s : State) (a : Nat) : List Nat := (s.arr a).allMembers.filter (s.memberUp a)

/-- Its failed members, of both sets (R324). -/
def State.failedMembers (s : State) (a : Nat) : List Nat := (s.arr a).allMembers.filter fun x => !s.memberUp a x

/-- m, or the smaller of m and m' while the array reshapes (R324). -/
def Arr.mMin (x : Arr) : Nat := if x.reshaping then min x.m x.reshape.m else x.m

/-- C and J in bytes (R301). -/
def cacheBytes (cacheU : Nat) : Nat := cacheU * 0x10000000

/-- U of members (R301). -/
def State.rateOf (s : State) (ms : List Nat) : Nat := ms.foldl (fun u x => u + (s.member x).mwrate.toNat) 0

/-- The check of R301: two copies of cache and journal within 72 ms, and within the vault. -/
def State.flushOk (s : State) (ms : List Nat) (cacheU : Nat) : Bool := 2 * (cacheBytes cacheU + ringBytes) ≤ s.rateOf ms * 7200000
/-- The vault holds them (R301). -/
def vaultOk (n v cacheU : Nat) : Bool := 2 * (cacheBytes cacheU + ringBytes) ≤ n * ((v - 1) * 0x100000)

/-- CE in cache blocks (R301). -/
def State.effective (s : State) (a : Nat) : Nat :=
  let x := s.arr a
  let up := s.upMembers a
  min (cacheBytes x.cacheU.toNat)
    (min (s.rateOf up * 3600000 - ringBytes) (up.length * ((x.vault.toNat - 1) * 0x100000) / 2 - ringBytes)) / 4096

/-- Cache blocks a context holds or has reserved, over every array (R393). -/
def State.wcUsed (s : State) (ctx : Nat) : Nat :=
  s.arc.arrays.foldl (fun n e => n + (e.2.cache.filter fun b => b.2.any fun y => y.ctx.toNat = ctx).length
    + e.2.reserved.foldl (fun m r => if (s.cmd? r.1).any (fun c => c.ctx.toNat = ctx) then m + r.2 else m) 0) 0

/-- Whether n more blocks stay within the context's write-cache share; the owner context has none (R282, R405). -/
def State.wcRoom (s : State) (ctx n : Nat) : Bool :=
  4096 ≤ ctx || (s.wcUsed ctx + n) * 4096 ≤ (tri (s.part ctx).wcMax).toNat * 0x100000

/-! ## Stripes and blocks (R269, R271, R322) -/

/-- A stripe slot. -/
def Arr.stripe (x : Arr) (i : Nat) : Stripe := look {} x.stripes i
/-- f applied to a stripe slot. -/
def Arr.updStripe (x : Arr) (i : Nat) (f : Stripe → Stripe) : Arr := { x with stripes := upd {} x.stripes i f }
/-- The stripes that are not FREE. -/
def Arr.busy (x : Arr) : SMap Stripe := x.stripes.filter fun e => e.2.state ≠ 0
/-- The open stripe of a stream. -/
def Arr.openOf (x : Arr) (stream : Nat) : Option Nat := (x.stripes.find? fun e => e.2.state = 1 && e.2.stream = stream).map (·.1)
/-- Whether a slot has the new geometry of a reshape, by the durable boundary (R322). -/
def Arr.isNew (x : Arr) (i : Nat) : Bool := x.reshaping && (i < x.reshape.bd || x.s ≤ i)
/-- The geometry of a slot (R322). -/
def Arr.geoOf (x : Arr) (i : Nat) : Geo := x.geo (x.isNew i)
/-- The first ABN of a slot (R271). -/
def Arr.baseAbn (x : Arr) (i : Nat) : Nat := i * (x.geoOf i).k * 16
/-- Blocks a slot holds. -/
def Arr.stripeBlocks (x : Arr) (i : Nat) : Nat := (x.geoOf i).k * 16
/-- The slot whose ABNs an ABN is among: while the array reshapes, live ABNs below and above the old slots that are left are new ones
(R271, R322). -/
def Arr.slotAt (x : Arr) (abn : Nat) : Nat :=
  if x.reshaping && (abn < x.reshape.bd * x.k * 16 || x.s * x.k * 16 ≤ abn) then abn / (x.reshape.k * 16) else abn / (x.k * 16)
/-- The stripe that holds an ABN. -/
def Arr.slotOf (x : Arr) (abn : Nat) : Option (Nat × Stripe) :=
  let i := x.slotAt abn
  if (x.stripe i).state = 0 then none else some (i, x.stripe i)

/-! ## The members' layout and their media (R264, R267) -/

/-- The first block of the vault region (R267). -/
def vaultBlk : Nat := 256
/-- The first block of the data area of members with a vault of v MiB (R267). -/
def dataBlk (v : Nat) : Nat := 256 + 256 * v
/-- The block of label copy c (R267). -/
def labelBlk (c : Nat) : Nat := 64 * c
/-- The first block of checkpoint slot c (R267). -/
def ckptBlk (c : Nat) : Nat := 128 + 64 * c
/-- The blocks of the control area: header, bitmap, seal, progress record copy c, image slot t (R326). -/
def hdrBlk : Nat := vaultBlk
def bitmapBlk : Nat := vaultBlk + 1
def sealBlk : Nat := vaultBlk + 0x80
def progBlk (c : Nat) : Nat := vaultBlk + 0xC0 + c
def imageBlk (t : Nat) : Nat := vaultBlk + 256 + t
/-- The block at offset b of chunk slot i of the array's members (R267). -/
def Arr.chunkBlk (x : Arr) (i b : Nat) : Nat := dataBlk x.vault.toNat + 16 * i + b

/-- n blocks of 4 KiB in the member's own LBAs (R267). -/
def Member.lba (w : Member) (n : Nat) : Nat := if w.lbas = 0 then 8 * n else n
/-- A member's block as its medium holds it. -/
def Member.block (w : Member) (i : Nat) : List Byte := let b := look [] w.medium i; if b.isEmpty then zeroBlock else b
/-- n blocks of a member; none where one returns a media error. -/
def Member.blocks (w : Member) (i n : Nat) : Option (List Byte) :=
  if (List.range n).any fun j => look false w.bad (i + j) then none else some ((List.range n).flatMap fun j => w.block (i + j))
/-- A member's block written; a write clears a media error. -/
def Member.setBlock (w : Member) (i : Nat) (b : List Byte) : Member :=
  { w with medium := put [] w.medium i (if b.all (· = 0) then [] else b), bad := put false w.bad i false }

/-- The namespace of every member (R264). -/
def memberNs : Nat := 1

/-- Commands sent to a member's controller, in order (R264). -/
def State.toMember (s : State) (n : Nat) (cs : List MbrCmd) : State := cs.foldl (fun (y : State) c => y.emit (.memberCmd n c)) s

/-- k blocks of a member read from a block on (R264). -/
def State.sendRead (s : State) (n blk k : Nat) : State := s.emit (.memberCmd n (.read memberNs ((s.member n).lba blk) ((s.member n).lba k) k))

/-- Single blocks of members read. -/
def State.sendReads (s : State) (rs : List (Nat × Nat)) : State := rs.foldl (fun (y : State) r => y.sendRead r.1 r.2 1) s

/-- Bytes written to a member from a block on, with FUA (R264, R267). -/
def State.writeMember (s : State) (n blk : Nat) (bs : List Byte) : State :=
  let k := ceilDiv bs.length 4096
  let w := s.member n
  (s.setMember n ((List.range k).foldl (fun (y : Member) i => y.setBlock (blk + i) (sub bs (4096 * i) 4096)) w)).emit
    (.memberCmd n (.write memberNs (w.lba blk) (w.lba k) k true))

/-- The member from which chunk e of a slot is read: its position's where it is in service, or the rebuild target that holds
the stripe (R311). -/
def State.chunkMember (s : State) (a i e : Nat) (st : Stripe) : Option Nat :=
  let x := s.arr a
  let g := x.geoOf i
  let y := nth g.members ((i + e) % g.n) 0
  if s.memberUp a y then some y
  else if 2 ≤ x.rebuild.state && x.rebuild.old = y && st.rebuilt then some x.rebuild.member
  else none

/-- Chunk e's block at offset b of a slot, read directly. -/
def State.direct (s : State) (a i e b : Nat) (st : Stripe) : Option (List Byte) :=
  match s.chunkMember a i e st with
  | none => none
  | some y => (s.member y).blocks ((s.arr a).chunkBlk i b) 1

/-- The chunks from which chunk e's block at offset b is reconstructed: data ascending, then parity ascending, k of them
(R311, R312); none at an offset given up (R313). -/
def State.sources (s : State) (a i e b : Nat) (st : Stripe) : List (Nat × List Byte) :=
  let g := (s.arr a).geoOf i
  if st.lostOfs.contains b then []
  else (((List.range g.n).filter (· ≠ e)).filterMap fun c => (s.direct a i c b st).map fun d => (c, d)).take g.k

/-- The members and blocks that a reconstruction of chunk e's block at offset b reads. -/
def State.sourceReads (s : State) (a i e b : Nat) (st : Stripe) : List (Nat × Nat) :=
  (s.sources a i e b st).filterMap fun c => (s.chunkMember a i c.1 st).map fun y => (y, (s.arr a).chunkBlk i b)

/-- The chunks that chunk e of a slot is reconstructed from, read whole (R311). -/
def State.readSources (s : State) (a i e : Nat) (st : Stripe) : State :=
  let cs := ((List.range 16).flatMap fun b => (s.sources a i e b st).map (·.1)).eraseDups
  cs.foldl (fun (y : State) c => match s.chunkMember a i c st with | some n => y.sendRead n ((s.arr a).chunkBlk i 0) 16 | none => y) s

/-- Chunk e's block at offset b reconstructed. -/
def State.rebuildBlock (s : State) (a i e b : Nat) (st : Stripe) : Option (List Byte) :=
  let g := (s.arr a).geoOf i
  let src := s.sources a i e b st
  if src.length < g.k then none else some (reconstruct g.k e src)

/-- Chunks of a slot that no member in service and no target holds. -/
def State.lacking (s : State) (a i : Nat) (st : Stripe) : Nat :=
  ((List.range ((s.arr a).geoOf i).n).filter fun e => (s.chunkMember a i e st).isNone).length

/-- The outcome of reading one block: its bytes or the status; the ABN where it was reconstructed, and whether a media error
was the reason (R312). -/
structure BlkRead where
  res : Except Nat (List Byte)
  recon : Option Nat := none
  media : Bool := false
  /-- The ABN that failed with 0x0501. -/
  failed : Option Nat := none
  /-- The members and blocks it reads (R264, R311). -/
  reads : List (Nat × Nat) := []

/-- The block at an ABN (R311 to R313). -/
def State.readAbn (s : State) (a abn : Nat) : BlkRead :=
  let x := s.arr a
  match x.slotOf abn with
  | none => { res := .ok zeroBlock }
  | some (i, st) =>
    let o := abn - x.baseAbn i
    let e := o / 16
    let b := o % 16
    let own := (s.chunkMember a i e st).toList.map fun y => (y, x.chunkBlk i b)
    match s.direct a i e b st with
    | some d => { res := .ok d, reads := own }
    | none =>
      let all := own ++ s.sourceReads a i e b st
      if (x.geoOf i).m < s.lacking a i st then { res := .error 0x0503, reads := own }
      else
        match s.rebuildBlock a i e b st with
        | some d => { res := .ok d, recon := some abn, media := !own.isEmpty, reads := all }
        | none => { res := .error 0x0501, failed := some abn, reads := all }

/-- Block lba of volume v (R21, R275, R283, R313). -/
def State.readBlock (s : State) (v lba : Nat) : BlkRead :=
  let a := (s.vol v).array
  match (s.arr a).cached v lba with
  | some b => { res := .ok b.data }
  | none =>
    match mapAt (s.vol v).map lba with
    | none => { res := .ok zeroBlock }
    | some e =>
      if e.kind = 0 then s.readAbn a (e.abn + (lba - e.vlba))
      else if e.kind = 2 then { res := .error 0x0502 }
      else { res := .ok zeroBlock }

/-! ## Live blocks (R278, R289) -/

/-- The volumes with a map on an array, its system volume and its staging volumes among them. -/
def State.mapsOf (s : State) (a : Nat) : List Nat := s.arc.vols.filterMap fun e => if e.2.state ≠ 0 && e.2.array = a then some e.1 else none

/-- The volumes of an array that commands name. -/
def State.volsOf (s : State) (a : Nat) : List Nat := (s.mapsOf a).filter realVol

/-- The live blocks of a range of ABNs, ascending: ABN, volume, volume block, SEQ. -/
def State.liveIn (s : State) (a lo hi : Nat) : List (Nat × Nat × Nat × Nat) :=
  let all := (s.mapsOf a).flatMap fun v => (s.vol v).map.flatMap fun e =>
    if e.kind = 0 && e.abn < hi && lo < e.abn + e.len then
      (List.range e.len).filterMap fun i =>
        if lo ≤ e.abn + i && e.abn + i < hi then some (e.abn + i, v, e.vlba + i, e.seq) else none
    else []
  all.foldr (fun x l => l.takeWhile (fun y => y.1 < x.1) ++ x :: l.dropWhile (fun y => y.1 < x.1)) []

/-- The live blocks of a slot. -/
def State.liveOf (s : State) (a i : Nat) : List (Nat × Nat × Nat × Nat) :=
  let x := s.arr a
  s.liveIn a (x.baseAbn i) (x.baseAbn i + x.stripeBlocks i)

/-- Every SEALED or VICTIM stripe's live count (R289); a block that died is not relocated (R312). -/
def State.recount (s : State) (a : Nat) : State :=
  s.updArr a fun x => { x with
    stripes := x.stripes.map fun (e : Nat × Stripe) => (e.1, if 3 ≤ e.2.state then { e.2 with live := (s.liveOf a e.1).length } else e.2)
    relocs := x.relocs.filter fun r => !(s.liveIn a r.1 (r.1 + 1)).isEmpty }

end Sys2Proof.Machine
end

