-- ==== Sys2Proof/Machine/ArcLog.lean ====
section
/-! DEFINITION. Machine/ArcLog.lean: the log: labels and progress records (R268, R326), stripes from opening to being written (R273,
R322), map pages and the SYSTEM stream (R276, R279), the map cache (R279), moves and lost offsets (R289, R290, R312, R313), the write
cache (R281 to R285). -/

namespace Sys2Proof.Machine

/-! ## Labels and progress records (R268, R318, R323 to R326) -/

/-- The member's position in a geometry. -/
def Geo.posOf (g : Geo) (x : Nat) : Option Nat := g.members.findIdx? (· = x)

/-- The position table of the array's labels: the positions that are not in service (R268). -/
def State.failedTable (s : State) (a : Nat) : BitVec 36 :=
  ((s.arr a).geo (s.arr a).reshaping).members.zipIdx.foldl (fun f e => if s.memberUp a e.1 then f else f ||| BitVec.ofNat 36 (2 ^ e.2)) 0

/-- Both labels of every member in service and of the rebuild target, rewritten (R268, R324, R325): stop at a clean stop. -/
def State.writeLabels (s : State) (a : Nat) (stop : Bool) : State :=
  let s0 := s.updArr a fun x => { x with labelSeq := x.labelSeq + 1 }
  let x := s0.arr a
  let g := x.geo x.reshaping
  let failed := s.failedTable a
  let label := fun (pos state : Nat) =>
    ({ arrayId := x.arrayId, seq := x.labelSeq, array := a, k := g.k, m := g.m, pos := pos, vault := x.vault.toNat
       s := if x.reshaping then x.reshape.s else x.s, state := state, failed := failed } : Label).bytes
  let write := fun (y : State) (n : Nat) (bs : List Byte) => (y.writeMember n (labelBlk 0) bs).writeMember n (labelBlk 1) bs
  let s1 := (s.upMembers a).foldl (fun (y : State) z => write y z (label (posOr (g.posOf z)) (if stop then 3 else 0))) s0
  if 2 ≤ x.rebuild.state then write s1 x.rebuild.member (label (posOr (g.posOf x.rebuild.old)) (if stop then 3 else 2)) else s1

/-- The label that stands on a member: the copy with the higher LABEL_SEQ and a good CRC (R268). -/
def Member.label (w : Member) : Option Label :=
  let copy := fun (c : Nat) => (w.blocks (labelBlk c) 1).bind labelOf
  match copy 0, copy 1 with
  | some x, some y => some (if x.seq < y.seq then y else x)
  | some x, none => some x
  | none, y => y

/-- The labels of an array that is not on line, rewritten: what they say stands but for the position table (R268). -/
def State.relabel (s : State) (a : Nat) : State :=
  let s0 := s.updArr a fun x => { x with labelSeq := x.labelSeq + 1 }
  (List.range 64).foldl (fun (y : State) n =>
    match (if (s.member n).array = a && [3, 5].contains (s.member n).state then (s.member n).label else none) with
    | some l =>
      let bs := { l with seq := (s0.arr a).labelSeq, failed := l.failed ||| s.failedTable a }.bytes
      (y.writeMember n (labelBlk 0) bs).writeMember n (labelBlk 1) bs
    | none => y) s0

/-- What no record of the spec holds, kept on every member in service: the settings and volumes, the journal's first SEQ, the offsets given
up, the positions that a reshape pairs (log entry 44). -/
def State.writeSys (s : State) (a : Nat) : State :=
  let x := s.arr a
  let rec_ : SysRec :=
    { rsv := x.rsv, cacheU := x.cacheU, mirror := x.mirror, scanchk := x.scanchk, hvThresh := x.hvThresh, hvRate := x.hvRate
      closeUs := x.closeUs, spares := x.spares
      vols := (s.volsOf a).map fun v => (v, (s.vol v).shared, (s.vol v).owner, (s.vol v).vblk)
      journalFrom := (x.journal.head?.map (·.seq)).getD x.nextSeq
      lostOfs := (x.stripes.filter fun e => !e.2.lostOfs.isEmpty).map fun e => (e.1, e.2.lostOfs)
      pairs := x.reshape.pairs }
  (s.upMembers a).foldl (fun (y : State) z => y.updMember z fun w => { w with sys := some rec_ }) s

/-- A progress record, written with FUA to every member in service, in copy PSEQ mod 2 (R318, R323, R326). -/
def State.writeProgress (s : State) (a : Nat) : State :=
  let s0 := s.updArr a fun x => { x with pseq := x.pseq + 1, rebuild := { x.rebuild with since := 0 }
                                         reshape := { x.reshape with since := 0 } }
  let x := s0.arr a
  let rbd := x.rebuild
  let rs := x.reshape
  (s.upMembers a).foldl (fun (y : State) z => y.writeMember z (progBlk (x.pseq % 2)) (Progress.bytes x.arrayId
    { pseq := x.pseq, ckptSeq := x.ckptSeq, rbCur := rbd.cur, rbPos := if 2 ≤ rbd.state then some rbd.pos else none
      rsPhase := if rs.state = 0 then 0 else if rs.state = 3 then 2 else 1, kOld := x.k, mOld := x.m, sOld := x.s, bd := rs.bd
      oldPos := (x.geo false).posOf z, newPos := if x.reshaping then (x.geo true).posOf z else none, moved := rs.moved })) s0

/-- The progress records that a member holds of an array. -/
def Member.progress (w : Member) (arrayId : BitVec 128) : List Progress :=
  [0, 1].filterMap fun c => (w.blocks (progBlk c) 1).bind (progressOf arrayId)

/-! ## Stripes: opening, placing, writing (R273, R322) -/

/-- The first slot from lo up to hi that is not among the busy ones, which ascend. -/
def firstFree (busy : List Nat) (lo hi : Nat) : Option Nat :=
  let c := busy.foldl (fun c i => if i = c then c + 1 else c) lo
  if c < hi then some c else none

/-- A FREE slot of an interval: the first at or above a free starting point, around the interval (log entry 51). -/
def freeIn (busy : List Nat) (k lo hi : Nat) : Option Nat :=
  if hi ≤ lo then none
  else
    let start := lo + Config.slotStart k % (hi - lo)
    (firstFree busy start hi).orElse fun _ => firstFree busy lo start

/-- The slots a reshape lets open under the new geometry, as intervals (R322). -/
def Arr.newSlots (x : Arr) : List (Nat × Nat) :=
  let r := x.reshape
  let byDurable := [(0, r.bd), (x.s, r.s)]
  let byAbn := [(0, r.bd * x.k / r.k), (ceilDiv (x.s * x.k) r.k, r.s)]
  byDurable.flatMap fun p => byAbn.map fun q => (max p.1 q.1, min (min p.2 q.2) r.s)

/-- The slot that the next stripe takes (R273, R322, R323). -/
def State.nextSlot (s : State) (a : Nat) : Option Nat :=
  let x := s.arr a
  let busy := x.busy.map (·.1)
  if x.reshaping then
    ((x.newSlots.filterMap fun p => freeIn busy s.freeCtr p.1 p.2).head?).orElse fun _ => freeIn busy s.freeCtr (x.reshape.b + 1) x.s
  else freeIn busy s.freeCtr 0 x.s

/-- STRIPE_OPEN's effect on slot i: it counts as rebuilt while a rebuild has its target (R273, R316). -/
def State.openStripe (s : State) (a i stream : Nat) : State :=
  let g := ((s.arr a).stripe i).gen + 1
  { s with freeCtr := s.freeCtr + 1 }.updArr a fun y =>
    (y.updStripe i fun _ => { state := 1, gen := g, stream := stream, rebuilt := decide (2 ≤ y.rebuild.state) }).append (.stripeOpen i g stream)

/-- An open stripe goes to WRITING: unfilled blocks are dead padding, and ERS has computed parity (R273, R287). -/
def State.closeStripe (s : State) (a i : Nat) : State :=
  s.updArr a fun x => (x.updStripe i fun st => { st with state := 2 }).append (.parity i 1 0)

/-- Blocks placed in an open stripe, as far as it has room; a full one closes (R273). -/
def State.place (s : State) (a i : Nat) (bs : List SBlk) : State :=
  let x := s.arr a
  let st := x.stripe i
  let now := bs.take (x.stripeBlocks i - st.blocks.length)
  let s1 := s.updArr a fun y =>
    let z := y.updStripe i fun w => { w with blocks := w.blocks ++ now, at_ := if w.blocks.isEmpty then s.clk.alm else w.at_ }
    if st.stream = 0 then
      { z with cache := z.cache.map fun (e : Nat × Option CBlk) =>
        (e.1, e.2.map fun b => if now.any (fun n => n.from_ = e.1) then { b with placed := some i } else b) }
    else z
  if ((s1.arr a).stripe i).blocks.length = x.stripeBlocks i then s1.closeStripe a i else s1

/-- The k + m chunks of a stripe written to its positions in service, or the rebuild target for the one it stands for (R269,
R270, R273, R316). -/
def State.writeStripe (s : State) (a i : Nat) : State :=
  let x := s.arr a
  let st := x.stripe i
  let g := x.geoOf i
  let rows := (List.range 16).map fun b => (List.range g.k).map fun j => ((st.blocks[16 * j + b]?).map (·.data)).getD zeroBlock
  (List.range g.n).foldl (fun (y : State) e =>
    match s.chunkMember a i e st with
    | none => y
    | some w => y.writeMember w (x.chunkBlk i 0) (rows.flatMap fun data => if e < g.k then nth data e [] else parityOf g.k (e - g.k) data)) s

/-- The chunks of a slot that can be written (R273). -/
def State.writable (s : State) (a i : Nat) : List Nat :=
  (List.range ((s.arr a).geoOf i).n).filter fun e => (s.chunkMember a i e ((s.arr a).stripe i)).isSome

/-- A stripe's writes have completed: the chunks stand on the members, and PARITY says where (R273, R287). -/
def State.stripeWritten (s : State) (a i : Nat) : State :=
  let n := ((s.arr a).geoOf i).n
  let mask := (s.writable a i).foldl (fun m e => m ||| BitVec.ofNat 64 (2 ^ ((i + e) % n))) (0 : BitVec 64)
  (s.writeStripe a i).updArr a fun y => y.append (.parity i 2 mask)

/-- Whether an array's writes are sent to the partner (R463). -/
def State.mirrored (s : State) (a : Nat) : Bool := (s.arr a).mirror && (s.plk.mirState = 1 || s.plk.mirState = 2)

/-- The cache space of finished writes is released; a mirrored array's WRITE_DONE records go to the partner (R284, R455). -/
def State.releaseCache (s : State) (a : Nat) : State :=
  let x := s.arr a
  let s1 := s.updArr a Arr.release
  if x.past.isEmpty || !s.mirrored a then s1 else s1.plkSend s1.partner (.plkMirrorDone x.arrayId x.past)

/-- A written stripe is SEALED with its live count, and STRIPE_COMMIT is journalled (R273, R288, R289). -/
def State.sealStripe (s : State) (a i : Nat) : State :=
  let s1 := s.updArr a fun y => y.updStripe i fun z => { z with state := 3, blocks := [], at_ := s.clk.alm }
  ((s1.recount a).updArr a fun y => y.append (.stripeCommit i (y.stripe i).gen (y.stripe i).live)).releaseCache a

/-! ## Map pages and the SYSTEM stream (R273, R276, R279, R280) -/

/-- The system pages that the volumes of an array have, rising. -/
def State.sysPages (s : State) (a : Nat) : List Nat :=
  sortNat ((s.volsOf a).flatMap fun v => (s.vol v).roots ++ (s.vol v).leaves.filterMap (·.page))

/-- Pages for the leaves that have none, in order. -/
def givePages : List Leaf → List Nat → List Leaf
  | [], _ => []
  | l :: ls, [] => l :: ls
  | l :: ls, p :: ps => match l.page with
    | some _ => l :: givePages ls (p :: ps)
    | none => { l with page := some p, dirty := true } :: givePages ls ps

/-- Every leaf and root page of an array has a system page, the lowest numbers that are free (R276; log entry 142). -/
def State.numberPages (s : State) (a : Nat) : State :=
  (s.volsOf a).foldl (fun (y : State) v =>
    let x := y.vol v
    let want := (x.leaves.filter (·.page.isNone)).length
    let more := rootPages x.vblk - x.roots.length
    if want + more = 0 then y
    else
      let new := freeIdx (y.sysPages a) 0 (want + more)
      y.updVol v fun w => { w with leaves := givePages w.leaves new, roots := w.roots ++ new.drop want, rootDirty := true }) s

/-- A run of the system volume or of its directory set (R276). -/
def State.setSysRun (s : State) (a v : Nat) (e : Extent) : State :=
  let s1 := s.updVol v fun x => { x with state := 3, array := a, map := mapSet x.map e }
  if v = sysVol a then
    s1.updArr a fun x => { x with dirDirty := insertNat (e.vlba / 16 / 8192) (x.dirDirty.filter (· ≠ e.vlba / 16 / 8192)) }
  else s1

/-- A SYSTEM stripe's pages: the directory points at each, journalled as a MAP_DELTA of the system volume (R276, R287). -/
def State.commitSystem (s : State) (a i : Nat) : State :=
  let x := s.arr a
  let bs := (x.stripe i).blocks
  (List.range (bs.length / 16)).foldl (fun (y : State) j =>
    match bs[16 * j]? with
    | none => y
    | some b =>
      let e : Extent := ⟨b.lba, 16, 0, x.baseAbn i + 16 * j, seq40 b.seq⟩
      (if b.vol = sysVol a then y.updArr a fun z => z.appendRuns b.vol [e] else y).setSysRun a b.vol e) s

/-- A page as blocks of the SYSTEM stream: they carry the owner context (R13). -/
def pageBlocks (vol page seq : Nat) (bs : List Byte) : List SBlk :=
  (List.range 16).map fun i => { vol := vol, lba := 16 * page + i, seq := seq, from_ := 0, ctx := 0x1000, gen := 0, data := sub bs (4096 * i) 4096 }

/-- A page placed in the SYSTEM stream's open stripe, one being opened where there is none; none where no slot is FREE or the journal has
no room (R273, R279, R288). -/
def State.placePage (s : State) (a vol page : Nat) (bs : List Byte) : Option State :=
  let q := (s.arr a).nextSeq - 1
  match (s.arr a).openOf 2 with
  | some i => some (s.place a i (pageBlocks vol page q bs))
  | none =>
    if (s.arr a).opensRoom then (s.nextSlot a).map fun i => (s.openStripe a i 2).place a i (pageBlocks vol page q bs) else none

/-- The bytes of a volume's leaf that ends at block hi, as now written (R276). -/
def State.leafBytes (s : State) (a v : Nat) (l : Leaf) (hi : Nat) : List Byte :=
  mapPageBytes v 0 l.first ((s.arr a).nextSeq - 1) (leafEntries (s.vol v).map l.first hi)

/-- A leaf of a volume changed. -/
def State.updLeaf (s : State) (v first : Nat) (f : Leaf → Leaf) : State :=
  s.updVol v fun x => { x with leaves := x.leaves.map fun l => if l.first = first then f l else l }

/-- A dirty leaf goes out through the SYSTEM stream; its page is clean once it is in the stripe (R279). -/
def State.writeLeaf (s : State) (v first : Nat) : Option State :=
  let a := (s.vol v).array
  let s1 := s.numberPages a
  match (leafSpans (s1.vol v).vblk (s1.vol v).leaves).find? fun e => e.1.first = first with
  | none => some s
  | some e => (s1.placePage a (sysVol a) (e.1.page.getD 0) (s1.leafBytes a v e.1 e.2)).map fun t => t.updLeaf v first fun l => { l with dirty := false }

/-- The dirty leaves of an array: volume and first block. -/
def State.dirtyLeaves (s : State) (a : Nat) : List (Nat × Nat) :=
  (s.volsOf a).flatMap fun v => ((s.vol v).leaves.filter (·.dirty)).map fun l => (v, l.first)

/-- A list of writes through the SYSTEM stream, all of them or none. -/
def State.writeAll {α : Type} (s : State) (f : State → α → Option State) : List α → Option State
  | [] => some s
  | x :: r => match f s x with | some t => t.writeAll f r | none => none

/-- The SYSTEM stream's open stripe takes dirty leaves (R273, R279). -/
def State.fillSystem (s : State) (a : Nat) : State :=
  (s.dirtyLeaves a).foldl (fun (y : State) e => if ((y.arr a).openOf 2).isSome then (y.writeLeaf e.1 e.2).getD y else y) s

/-! ## The map cache (R279) -/

/-- Leaf pages the map cache has room for: the directory and the pinned roots taken off (R279). -/
def State.leafRoom (s : State) : Nat :=
  let roots := s.arc.vols.foldl (fun n e => if e.2.state = 1 then n + rootPages e.2.vblk else n) 0
  let leaves := s.arc.vols.foldl (fun n e => n + e.2.leaves.length) 0
  mapGib s.arc.mapc * 16384 - roots - ceilDiv (roots + leaves) 8192

/-- The least recently used leaf that the map cache holds: its volume and the leaf. -/
def State.lruLeaf (s : State) : Option (Nat × Leaf) :=
  let res := s.arc.vols.flatMap fun e => (e.2.leaves.filter (·.resident)).map fun l => (e.1, l)
  res.foldl (fun (best : Option (Nat × Leaf)) y => match best with
    | some b => if y.2.used < b.2.used then some y else best
    | none => some y) none

/-- Leaves beyond the room leave the cache, the least recently used first, a dirty one written through the SYSTEM stream before (R279). -/
def State.evict (s : State) (room : Nat) : Nat → State
  | 0 => s
  | d + 1 =>
    if (s.arc.vols.foldl (fun n e => n + (e.2.leaves.filter (·.resident)).length) 0) ≤ room then s
    else
      match s.lruLeaf with
      | none => s
      | some b =>
        match (if b.2.dirty then s.writeLeaf b.1 b.2.first else some s) with
        | none => s
        | some t => (t.updLeaf b.1 b.2.first fun l => { l with resident := false }).evict room d

/-- The leaves that serve [lo, hi) of a volume are held, and marked dirty where the map changes (R279). -/
def State.touch (s : State) (v lo hi : Nat) (dirty : Bool) : State :=
  let k := s.arc.useCtr + 1
  let s1 := s.updVol v fun x => { x with leaves := (leafSpans x.vblk x.leaves).map fun e =>
    if e.1.first < hi && lo < e.2 then { e.1 with resident := true, used := k, dirty := e.1.dirty || dirty } else e.1 }
  let s2 := { s1 with arc := { s1.arc with useCtr := k } }
  s2.evict s2.leafRoom (s2.arc.vols.foldl (fun n e => n + e.2.leaves.length) 0)

/-- Whether a leaf that serves [lo, hi) of a volume is not in the map cache (R279). -/
def State.leafMiss (s : State) (v lo hi : Nat) : Bool :=
  (leafSpans (s.vol v).vblk (s.vol v).leaves).any fun e => e.1.first < hi && lo < e.2 && !e.1.resident

/-- A volume's map changed over [lo, hi). -/
def State.setMap (s : State) (v lo hi : Nat) (m : List Extent) : State :=
  ((s.touch v lo hi true).updVol v fun x => { x with map := m }.rebalance)

/-- Runs set in a volume's map (R278). -/
def State.applyRuns (s : State) (v : Nat) (es : List Extent) : State :=
  es.foldl (fun (y : State) e => y.setMap v e.vlba e.stop (mapSet (y.vol v).map e)) s

/-! ## Vaulted arrays (R327, R330) -/

/-- Whether an array is vaulted at a freeze (R327, R330; log entry 57): on line, FAILED or STOPPING, or stopped with its cache
retained; something of it is not on its members; a position is in service. -/
def State.vaulted (s : State) (a : Nat) : Bool :=
  let x := s.arr a
  3 ≤ x.state && (x.state ≠ 7 || !x.cache.isEmpty) && !x.flushed && !(s.upMembers a).isEmpty

/-- During the flush: an array whose every usable stream is sealed is sealed; with every array's the device is VAULTED (R328,
R335). -/
def State.settleVault (s : State) : State :=
  let done := fun (a : Nat) => (s.upMembers a).all fun y => !(s.arr a).streams.contains y || (s.arr a).seals.contains y
  let s1 := { s with arc := { s.arc with arrays := s.arc.arrays.map fun (e : Nat × Arr) =>
    (e.1, if s.vaulted e.1 && done e.1 then { e.2 with isSealed := true } else e.2) } }
  if s.arc.pf = 1 && s1.arc.arrays.all (fun e => !s.vaulted e.1 || e.2.isSealed) then { s1 with arc := { s1.arc with pf := 2 } } else s1

/-! ## What the streams take (R273, R289, R290, R312, R313, R323) -/

/-- The cached blocks that no stripe has yet, in WRITE-record order. -/
def Arr.unplaced (x : Arr) : List SBlk :=
  let all := x.cache.filterMap fun e => match e.2 with
    | some b =>
      if b.placed.isNone && !b.superseded then some { vol := b.vol, lba := b.lba, seq := b.seq, from_ := e.1, ctx := b.ctx, gen := b.gen, data := b.data : SBlk }
      else none
    | none => none
  all.foldr (fun e l =>
    let first := fun (y : SBlk) => y.seq < e.seq || (y.seq = e.seq && y.lba < e.lba)
    l.takeWhile first ++ e :: l.dropWhile first) []

/-- The HOST stream's open stripe takes what waits (R273). -/
def State.fillHost (s : State) (a : Nat) : State :=
  match (s.arr a).openOf 0 with
  | some i => let bs := (s.arr a).unplaced; if bs.isEmpty then s else s.place a i bs
  | none => s

/-- A block that the HARVEST stream is to move: it carries the CTX and GEN of its volume's owner (R13, R290, R323). -/
def State.moveOf (s : State) (e : Nat × Nat × Nat × Nat) : SBlk :=
  let x := s.vol e.2.1
  let c : BitVec 13 := if x.shared then 0x1000 else x.owner
  { vol := e.2.1, lba := e.2.2.1, seq := e.2.2.2, from_ := e.1, ctx := c, gen := if c.toNat < 4096 then (s.part c.toNat).gen else 0, data := [] }

/-- The live blocks that have to leave their place: those of VICTIM stripes, and those to be relocated (R289, R312, R313, R323). -/
def State.leavingBlocks (s : State) (a : Nat) : List (Nat × Nat × Nat × Nat) :=
  let x := s.arr a
  let victims := (x.stripes.filter fun e => e.2.state = 4).flatMap fun e => s.liveOf a e.1
  let relocs := x.relocs.flatMap fun r => s.liveIn a r.1 (r.1 + 1)
  (victims ++ relocs).eraseDups

/-- Whether a volume holds map or directory pages. -/
def systemVol (v : Nat) : Bool := 0x20000 ≤ v && v < 0x40000

/-- The blocks that the HARVEST stream is to move, without their data: those that no open or unwritten stripe of the stream holds. -/
def State.toMove (s : State) (a : Nat) : List SBlk :=
  let x := s.arr a
  let held := x.stripes.flatMap fun e => if e.2.stream = 1 && (e.2.state = 1 || e.2.state = 2) then e.2.blocks.map (·.from_) else []
  ((s.leavingBlocks a).filter fun e => !held.contains e.1 && !systemVol e.2.1).map s.moveOf

/-- Map and directory pages that have to leave their place are written anew through the SYSTEM stream (log entry 144). -/
def State.rewritePages (s : State) (a : Nat) : State :=
  ((s.leavingBlocks a).filter fun e => systemVol e.2.1).foldl (fun (y : State) e =>
    let p := e.2.2.1 / 16
    if e.2.1 ≠ sysVol a then y.updArr a fun x => { x with dirDirty := insertNat p (x.dirDirty.filter (· ≠ p)) }
    else (y.volsOf a).foldl (fun (z : State) v => z.updVol v fun w =>
      { w with leaves := w.leaves.map (fun l => if l.page = some p then { l with dirty := true } else l), rootDirty := w.rootDirty || w.roots.contains p }) y) s

/-- The lost-offset procedure at offset b of a slot (R313): live blocks that can neither be read nor reconstructed become LOST;
the others are to be moved out, and nothing is reconstructed at that offset again. A block waits where the journal has no room. -/
def State.lostOffset (s : State) (a i b : Nat) : State :=
  let x := s.arr a
  let at_ := (s.liveOf a i).filter fun e => (e.1 - x.baseAbn i) % 16 = b
  let s1 := at_.foldl (fun (y : State) e =>
    let out := y.updArr a fun z => { z with relocs := z.relocs ++ (if z.relocs.any (·.1 = e.1) then [] else [(e.1, false)]) }
    if systemVol e.2.1 || !(y.arr a).room 48 then out
    else
      match (s.readAbn a e.1).res with
      | .ok _ => out
      | .error _ =>
        let lost : Extent := ⟨e.2.2.1, 1, 2, 0, e.2.2.2⟩
        (y.updArr a fun z => { z.appendRuns e.2.1 [lost] with lostCnt := satInc z.lostCnt }).applyRuns e.2.1 [lost]) s
  ((s1.updArr a fun z => z.updStripe i fun w => { w with lostOfs := if w.lostOfs.contains b then w.lostOfs else w.lostOfs ++ [b] }).recount a).writeSys a

/-- What reads leave behind (R264, R312, R313): the members' commands; a block reconstructed after a media error is to be relocated; where it could not be
reconstructed, the lost-offset procedure is applied. After a freeze nothing is journalled (R327). -/
def State.afterRead (s : State) (a : Nat) (r : BlkRead) : State :=
  if s.arc.pf ≠ 0 then s
  else
    let t := s.sendReads r.reads
    match r.failed with
    | some abn =>
      match (s.arr a).slotOf abn with
      | some (i, _) => t.lostOffset a i ((abn - (s.arr a).baseAbn i) % 16)
      | none => t
    | none =>
      match (if r.media then r.recon else none) with
      | some abn => t.updArr a fun z => if z.relocs.any (·.1 = abn) then z else { z with relocs := z.relocs ++ [(abn, true)] }
      | none => t

/-- The moves with their data, read; a block that cannot be read is left to the lost-offset procedure (R290, R313). -/
def State.movesRead (s : State) (a : Nat) (ms : List SBlk) : List SBlk :=
  ms.filterMap fun e => match (s.readAbn a e.from_).res with
    | .ok d => some { e with data := d }
    | .error _ => none

/-- The HARVEST stream's open stripe takes the moves that wait; map pages are written anew (R290). -/
def State.fillHarvest (s : State) (a : Nat) : State :=
  let s0 := s.rewritePages a
  let ms := s0.toMove a
  let s1 := ms.foldl (fun (y : State) e => y.afterRead a (s0.readAbn a e.from_)) s0
  match (s1.arr a).openOf 1 with
  | some i => let bs := s1.movesRead a (s1.toMove a); if bs.isEmpty then s1 else s1.place a i bs
  | none => s1

/-! ## Writes (R282 to R285) -/

/-- One WRITE record with its blocks: from its SEQ on reads see them (R283, R287). -/
def State.appendPiece (s : State) (v ctx gen lba : Nat) (bs : List (List Byte)) : State :=
  let a := (s.vol v).array
  let s1 := s.updArr a fun x =>
    let ix := freeIdx (x.cache.map (·.1)) 0 bs.length
    let q := x.nextSeq
    let x1 := x.append (.write v (BitVec.ofNat 13 ctx) (BitVec.ofNat 16 gen) lba ix)
    let x2 := (ix.zip bs.zipIdx).foldl (fun (y : Arr) e =>
      { y with cache := put none y.cache e.1 (some
        { vol := v, lba := lba + e.2.2, seq := q, ctx := BitVec.ofNat 13 ctx, gen := BitVec.ofNat 16 gen, data := e.2.1, placed := none
          committed := false, superseded := false }) }) x1
    x2.supersede v lba (lba + bs.length) q
  s1.releaseCache a

/-- A write's blocks land in the cache in pieces of 256 KiB counted from its first block (R283). -/
def State.appendWrite (s : State) (v ctx gen lba : Nat) (bs : List (List Byte)) : State :=
  let s1 := (List.range (ceilDiv bs.length 64)).foldl (fun (y : State) i =>
    y.appendPiece v ctx gen (lba + 64 * i) ((bs.drop (64 * i)).take 64)) s
  s1.fillHost (s.vol v).array

/-- A TRIM record: older cached writes of the range are superseded, and the map changes (R293). -/
def State.trim (s : State) (v kind lba n : Nat) : State :=
  let a := (s.vol v).array
  let q := (s.arr a).nextSeq
  let s1 := (s.updArr a fun x => (x.append (.trim v kind lba n)).supersede v lba (lba + n) q).releaseCache a
  let m := (s1.vol v).map
  (s1.setMap v lba (lba + n) (if kind = 1 then mapSet m ⟨lba, n, 1, 0, seq40 q⟩ else mapDrop m lba (lba + n) (seq40 q))).recount a

/-! ## Checkpoints (R276, R280) -/

/-- Pages that no leaf and no root uses any more leave the directory, as far as the journal has room (R276, R277, R286). -/
def State.prunePages (s : State) (a : Nat) : State :=
  let used := s.sysPages a
  let gone := ((s.vol (sysVol a)).map.flatMap fun e => (List.range (e.len / 16)).map fun i => e.vlba / 16 + i).filter fun p => !used.contains p
  gone.foldl (fun (y : State) p =>
    if !(y.arr a).room 48 then y else
    let q := (y.arr a).nextSeq
    let y1 := y.updArr a fun x => { x.append (.trim (sysVol a) 2 (16 * p) 16) with dirDirty := insertNat (p / 8192) (x.dirDirty.filter (· ≠ p / 8192)) }
    y1.updVol (sysVol a) fun x => { x with map := mapDrop x.map (16 * p) (16 * p + 16) (seq40 q) }) s

/-- A WRITING SYSTEM stripe is written and committed; none where fewer than k chunks can be written (R273). -/
def State.commitPages (s : State) (a i : Nat) : Option State :=
  if (s.writable a i).length < ((s.arr a).geoOf i).k then none else some (((s.stripeWritten a i).commitSystem a i).sealStripe a i)

/-- What the SYSTEM stream holds is written: its open stripe closed, and every stripe committed. -/
def State.drainSystem (s : State) (a : Nat) : Option State :=
  let s1 := match (s.arr a).openOf 2 with | some i => s.closeStripe a i | none => s
  s1.writeAll (fun y i => y.commitPages a i) (((s1.arr a).stripes.filter fun e => e.2.state = 2 && e.2.stream = 2).map (·.1))

/-- The root pages of a volume, as now written (R276). -/
def State.writeRoots (s : State) (v : Nat) : Option State :=
  let a := (s.vol v).array
  let x := s.vol v
  if !x.rootDirty then some s
  else
    (s.writeAll (fun y (e : Nat × Nat) =>
      let es := ((y.vol v).rootEntries.drop (4092 * e.2)).take 4092
      y.placePage a (sysVol a) e.1 (mapPageBytes v 1 (bits (es.headD 0) 127 88) ((y.arr a).nextSeq - 1) es)) x.roots.zipIdx).map fun t =>
        t.updVol v fun w => { w with rootDirty := false }

/-- Every dirty map page and then every dirty directory page written through the SYSTEM stream (R280). -/
def State.writePages (s : State) (a : Nat) : Option State :=
  let s1 := (s.numberPages a).prunePages a
  ((s1.drainSystem a).bind fun s2 => s2.writeAll (fun y (e : Nat × Nat) => y.writeLeaf e.1 e.2) (s2.dirtyLeaves a)).bind fun s3 =>
    (s3.writeAll (fun y v => y.writeRoots v) (s3.volsOf a)).bind fun s4 => (s4.drainSystem a).bind fun s5 =>
      ((s5.updArr a fun x => { x with dirDirty := [] }).writeAll (fun y j => y.placePage a (dirVol a) j (dirPage (y.vol (sysVol a)).map j))
        (s5.arr a).dirDirty).bind fun s6 => s6.drainSystem a

/-- The ABN of each directory page (R276). -/
def State.dirAbns (s : State) (a : Nat) : List Nat :=
  let m := (s.vol (dirVol a)).map
  let n := m.foldl (fun n e => max n (e.stop / 16)) 0
  (List.range n).map fun j => ((mapAt m (16 * j)).map fun e => e.abn + (16 * j - e.vlba)).getD 0

/-- The SEQ below which a checkpoint frees the journal: below its own record, and below every record whose write is still in
the cache or whose stripe is still open (R280, R288; log entry 47). -/
def Arr.keepFrom (x : Arr) : Nat :=
  let cached := x.cache.filterMap fun e => e.2.map (·.seq)
  let opens := x.journal.filterMap fun r => match r.body with
    | .stripeOpen st _ _ => if (x.stripe st).state = 1 || (x.stripe st).state = 2 then some r.seq else none
    | _ => none
  (cached ++ opens).foldl min (x.nextSeq - 1)

/-- The checkpoint record, written with FUA to its slot on every member in service, then CHECKPOINT journalled and journal space
freed (R280). -/
def State.recordCheckpoint (s : State) (a : Nat) : State :=
  let n := (s.arr a).ckptSeq + 1
  let bs := ({ seq := n, dirs := s.dirAbns a } : Ckpt).bytes
  let s1 := (s.upMembers a).foldl (fun (y : State) z => y.writeMember z (ckptBlk (n % 2)) bs) s
  (s1.updArr a fun x =>
    let y := { x.append (.checkpoint n (n % 2)) with ckptSeq := n, ckptAt := s.clk.alm }
    { y with journal := y.journal.filter fun r => y.keepFrom ≤ r.seq }).writeSys a

/-- A map checkpoint (R280); none where the pages find no FREE stripe or cannot be written. -/
def State.checkpoint? (s : State) (a : Nat) : Option State := (s.writePages a).map fun t => t.recordCheckpoint a

/-- A map checkpoint, not taken where its pages cannot be written. -/
def State.checkpoint (s : State) (a : Nat) : State := (s.checkpoint? a).getD s

/-- The checkpoint that a member holds in a slot (R276). -/
def Member.ckpt (w : Member) (c : Nat) : Option Ckpt := (w.blocks (ckptBlk c) 64).bind ckptOf

end Sys2Proof.Machine
end

