-- ==== Sys2Proof/Machine/ArcVolumes.lean ====
section
/-! DEFINITION. Machine/ArcVolumes.lean: the volume I/O commands and the write cache's admission (R282, R283, R292 to R294,
R463). -/

namespace Sys2Proof.Machine

/-- A waiting phase of a volume command: for write-cache space, or for a map leaf. -/
def waitSpace : CmdPhase := .waiting 1
/-- It waits for a map leaf. -/
def waitLeaf : CmdPhase := .waiting 2

/-- Whether a context may use a volume (R16). -/
def Vol.ownedBy (v : Vol) (ctx : Nat) : Bool := if v.shared then ctx = ownerCtx else v.owner.toNat = ctx

/-- The exported volumes of a partition: NSID and volume. -/
def State.exportsOf (s : State) (p : Nat) : List (Nat × Nat) :=
  s.arc.vols.filterMap fun e => match e.2.exported with
    | some n => if e.2.owner.toNat = p && !e.2.shared then some (n, e.1) else none
    | none => none

/-- The volume a namespace of a partition is; none where it accepts no command (R379). -/
def State.nsVol (s : State) (p nsid : Nat) : Option Nat :=
  ((s.exportsOf p).find? fun e => e.1 = nsid && (s.vol e.2).state = 1 && (s.vol e.2).unexporting.isNone).map (·.2)

/-- The entries of an SGL list: address and length (R292). -/
def sglEntries (bs : List Byte) (n : Nat) : List (Nat × Nat) :=
  (List.range n).map fun i => (fieldLE bs (16 * i) 8, fieldLE bs (16 * i + 8) 4)

/-- Where a volume command's host buffer lies (R292), or the status that refuses it. -/
def State.bufferOf (s : State) (c : Cmd) : Except Nat (List (Nat × Nat)) :=
  let n := c.f 12 4 * 4096
  let a := c.f 24 8
  let fl := c.f 10 2
  if !bit fl 0 then .ok [(a, n)]
  else
    let k := bits fl 15 8 + 1
    if s.hostFails c.fn a (16 * k) then .error 0x0106
    else
      let bs := s.hostRead c.fn a (16 * k)
      let es := sglEntries bs k
      if !(List.range k).all (fun i => fieldLE bs (16 * i + 12) 4 = 0) then .error 0x0100
      else if es.any (fun e => e.2 % 4096 ≠ 0) || es.foldl (fun t e => t + e.2) 0 ≠ n then .error 0x0105
      else .ok es

/-- The bytes of a function's buffer, or 0x0106. -/
def State.gather (s : State) (fn : Nat) (es : List (Nat × Nat)) : Except Nat (List Byte) :=
  if es.any fun e => s.hostFails fn e.1 e.2 then .error 0x0106 else .ok (es.flatMap fun e => s.hostRead fn e.1 e.2)

/-- Bytes laid into a buffer of a function. -/
def State.scatter (s : State) (fn : Nat) : List (Nat × Nat) → List Byte → State
  | [], _ => s
  | e :: r, bs => (s.hostWrite fn e.1 (bs.take e.2)).scatter fn r (bs.drop e.2)

/-- The blocks of a byte string. -/
def blocksFrom (bs : List Byte) (n : Nat) : List (List Byte) := (List.range n).map fun i => sub bs (4096 * i) 4096

/-- What refuses a volume command on n blocks from lba (R294), in the order of log entry 48: not ENABLED, not owned, beyond
VBLK, the array's state; 0 where nothing does. write is true for a write. -/
def State.volRefusal (s : State) (ctx v lba n : Nat) (write : Bool) : Nat :=
  let x := s.vol v
  let st := (s.arr x.array).state
  if 16383 < v || x.state ≠ 1 then 0x0200
  else if !x.ownedBy ctx then 0x0601
  else if x.vblk < lba + n then 0x0511
  else if !([3, 4, 5].contains st) then 0x0200
  else if write && st = 5 then 0x0503
  else 0

/-- How an array names a write that reaches ARC with an ARR_STOP (R302). -/
def Cmd.lateKey (c : Cmd) : Nat × Nat := match c.origin with | .ring _ => (0, c.id) | .net conn cid => (1 + conn, cid)

/-- What refuses a write: one that reaches ARC in the FCLK of an ARR_STOP is accepted, as before the stop (R302). -/
def State.writeRefusal (s : State) (c : Cmd) : Nat :=
  let v := c.f 8 2
  let a := (s.vol v).array
  let t := if (s.arr a).state = 6 && (s.arr a).late.contains c.lateKey then s.putArr a { s.arr a with state := 3 } else s
  t.volRefusal c.ctx.toNat v (c.f 16 8) (c.f 12 4) true

/-- The reserved bits of a volume command: VFLAGS but SGL and SGL_COUNT (R292). -/
def Cmd.volZeros (c : Cmd) : Bool := bits (c.f 10 2) 7 1 = 0

/-! ## Reads (R293) -/

/-- The blocks of a range read, with what the reads leave behind (R311 to R313). -/
def State.readBlocks (s : State) (v lba : Nat) : Nat → List (Except Nat (List Byte)) × State
  | 0 => ([], s)
  | n + 1 =>
    let r := s.readBlock v lba
    let q := (s.afterRead (s.vol v).array r).readBlocks v (lba + 1) n
    (r.res :: q.1, q.2)

/-- A block's bytes, those of a failed one undefined (R293). -/
def readBytes (k : Nat) (rs : List (Except Nat (List Byte))) : List Byte :=
  rs.zipIdx.flatMap fun e => match e.1 with | .ok d => d | .error _ => undefinedBytes (k + e.2) 4096

/-- Bytes sent in C2HData PDUs of at most 131,072 (R382). -/
def State.sendData (s : State) (conn cid : Nat) (bs : List Byte) : State :=
  let x := s.conn conn
  (List.range (ceilDiv bs.length 131072)).foldl (fun (y : State) i =>
    let d := (bs.drop (131072 * i)).take 131072
    (y.netBytes conn (x.pduLen 24 (4 * (x.hpda + 1)) d.length)).emit (.c2hData conn cid (131072 * i) d)) s

/-- A Read's effect once its leaves are in the map cache: with a failed block no data is sent (R385, R386; log entry 70). -/
def State.netRead (s : State) (c : Cmd) (conn cid : Nat) : State :=
  let n := c.f 12 4
  let p := s.readBlocks (c.f 8 2) (c.f 16 8) n
  let bad := p.1.filterMap fun r => match r with | .ok _ => none | .error e => some e
  let s1 := p.2.meter c.ctx.toNat 3 ((n - bad.length) * 4096)
  match bad with
  | [] => (s1.sendData conn cid (readBytes 0 p.1)).done c.id 0
  | e :: _ => s1.done c.id e

/-- VOL_READ's effect once its leaves are in the map cache (R293). -/
def State.volRead (s : State) (c : Cmd) : State :=
  let v := c.f 8 2
  let n := c.f 12 4
  match c.origin with
  | .net conn cid => s.netRead c conn cid
  | .ring _ =>
  match s.bufferOf c with
  | .error e => s.done c.id e
  | .ok es =>
    let p := s.readBlocks v (c.f 16 8) n
    let bad := p.1.filterMap fun r => match r with | .ok _ => none | .error e => some e
    let s1 := { (p.2.scatter c.fn es (readBytes s.freeCtr p.1)) with freeCtr := s.freeCtr + n }
    let s2 := s1.meter c.ctx.toNat 3 ((n - bad.length) * 4096)
    let first := (p.1.findIdx? fun r => match r with | .ok _ => false | .error _ => true).getD 0
    s2.complete c.id (bad.headD 0) (BitVec.ofNat 32 (n - bad.length)) (BitVec.ofNat 32 first)

/-- The members' reads of the leaves that serve [lo, hi) of a volume and are not held (R264, R279). -/
def State.fetchLeaves (s : State) (v lo hi : Nat) : State :=
  let a := (s.vol v).array
  let out := (leafSpans (s.vol v).vblk (s.vol v).leaves).filter fun e => e.1.first < hi && lo < e.2 && !e.1.resident
  out.foldl (fun (y : State) e =>
    match e.1.page.bind fun p => mapAt (s.vol (sysVol a)).map (16 * p) with
    | some x => y.sendReads ((List.range 16).flatMap fun i => (s.readAbn a (x.abn + (16 * e.1.page.getD 0 - x.vlba) + i)).reads)
    | none => y) s

/-- A read starts: refused, waiting for a map leaf, or done (R292 to R294). -/
def State.beginRead (s : State) (c : Cmd) : State :=
  let v := c.f 8 2
  let n := c.f 12 4
  let lba := c.f 16 8
  let e := s.volRefusal c.ctx.toNat v lba n false
  if !c.volZeros then s.done c.id 0x0100
  else if n = 0 || 256 < n then s.done c.id 0x0105
  else if e ≠ 0 then s.done c.id e
  else if s.leafMiss v lba (lba + n) then (s.fetchLeaves v lba (lba + n)).phase c.id waitLeaf
  else (s.touch v lba (lba + n) false).volRead c

/-- VOL_READ (R292 to R294). -/
def execVolRead (id : Nat) (s : State) : Out1 :=
  if (s.cmd? id).any s.hostWaits then no "the command waits for its function"
  else withCmd s id 0x20 "no VOL_READ with this id" s.beginRead

/-! ## Writes (R282, R283, R463) -/

/-- Whether a mirrored array's writes wait for SYNCING (R463; log entry 49). -/
def State.mirrorHolds (s : State) (a : Nat) : Bool :=
  (s.arr a).mirror && s.plk.mirFail && !(s.plk.mirState = 1 || s.plk.mirState = 2)

/-- Whether n blocks of volume v can be reserved for a context (R282, R301, R463), and their records find room (log entry 177). -/
def State.admits (s : State) (ctx v n : Nat) : Bool :=
  let a := (s.vol v).array
  (s.arr a).cacheUsed + n ≤ s.effective a && s.wcRoom ctx n && !s.mirrorHolds a && (s.arr a).writesRoom n

/-- Whether an earlier command waits for space on the same array and is held up by nothing of its own context (R282; log
entry 50). -/
def State.spaceTaken (s : State) (id a : Nat) : Bool :=
  s.hif.cmds.any fun x => x.id < id && x.phase = waitSpace && (s.vol (x.f 8 2)).array = a && s.wcRoom x.ctx.toNat (x.f 12 4)

/-- A write of a run: its blocks land in the cache and, mirrored, go to the partner under an id that the run waits for (R22, R463). -/
def State.runWrite (s : State) (rid v ctx gen lba : Nat) (bs : List (List Byte)) : State :=
  let a := (s.vol v).array
  let q := (s.arr a).nextSeq
  let s1 := s.appendWrite v ctx gen lba bs
  if bs.isEmpty || !s.mirrored a then s1
  else
    let id := s1.hif.nextId
    let s2 := s1.plkSend s1.partner (.plkMirror (s.arr a).arrayId q v lba (BitVec.ofNat 13 ctx) (BitVec.ofNat 16 gen) bs)
    ({ s2 with hif := { s2.hif with nextId := id + 1 } }.awaitAck id).updRun rid fun r =>
      { r with mirrors := r.mirrors ++ [id] }

/-- Whether the way from s to t writes to the cache of an array whose writes wait for SYNCING, or whose journal has no room (R286,
R463). -/
def State.writesHeld (s t : State) : Bool :=
  s.arc.arrays.any fun e => (t.arr e.1).nextSeq ≠ e.2.nextSeq && (s.mirrorHolds e.1 || !(t.arr e.1).room 0)

/-- A row with such a write waits. -/
def State.unlessHeld (s t : State) : Out1 :=
  if s.writesHeld t then
    no "a mirrored array's writes wait for SYNCING, or the journal has no room"
  else .next t

/-- Whether everything a run has sent to the partner is acknowledged (R22, R463). -/
def State.runMirrored (s : State) (r : Run) : Bool := r.mirrors.all fun id => !s.awaitsAck id

/-- A write's data lands in the cache and it completes, or, mirrored, waits for the partner's acknowledgement (R282, R463). -/
def State.finishWrite (s : State) (c : Cmd) (v lba : Nat) (bs : List (List Byte)) : State :=
  let a := (s.vol v).array
  let q := (s.arr a).nextSeq
  let s1 := (s.appendWrite v c.ctx.toNat c.gen.toNat lba bs).meter c.ctx.toNat 4 (bs.length * 4096)
  if s.mirrored a then
    let s2 := (s1.plkSend s1.partner (.plkMirror (s.arr a).arrayId q v lba c.ctx c.gen bs)).phase c.id .running
    s2.awaitAck c.id
  else s1.complete c.id 0 (BitVec.ofNat 32 bs.length) 0

/-! ### Paced writes over the network (R384) -/

/-- The write in progress of a command id on a connection. -/
def Conn.write? (x : Conn) (cid : Nat) : Option NetWrite := x.writes.find? fun w => w.cid = cid

/-- f applied to a write in progress. -/
def State.updWrite (s : State) (conn cid : Nat) (f : NetWrite → NetWrite) : State :=
  s.updConn conn fun x => { x with writes := x.writes.map fun w => if w.cid = cid then f w else w }

/-- First block and blocks of piece i: 256 KiB counted from the command's first block (R283, R384). -/
def NetWrite.piece (w : NetWrite) (i : Nat) : Nat × Nat := (w.lba + 64 * i, min 64 (w.nblk - 64 * i))

/-- The entry of a volume command that takes one slot (R292). -/
def volEntry (op v n lba : Nat) : List Byte := [BitVec.ofNat 8 op] ++ List.replicate 7 0 ++ natLE 2 v ++ natLE 2 0 ++ natLE 4 n ++ natLE 8 lba ++ natLE 8 0

/-- Bytes received of an R2T, which covers at most 131,072 (R384). -/
def NetWrite.gotOf (w : NetWrite) (j : Nat) : Nat := w.parts.foldl (fun n p => if p.1 / 131072 = j then n + p.2.length else n) 0

/-- Bytes that R2T j covers. -/
def NetWrite.r2tLen (w : NetWrite) (j : Nat) : Nat := min 131072 (4096 * w.nblk - 131072 * j)

/-- R2Ts sent and not yet answered in full. -/
def NetWrite.outstanding (w : NetWrite) : Nat :=
  ((List.range (ceilDiv w.r2t 131072)).filter fun j => w.gotOf j < w.r2tLen j).length

/-- Whether an array's cache holds as much as its effective limit (R301, R302, R384; log entry 174). -/
def State.cacheFull (s : State) (a : Nat) : Bool := s.effective a ≤ (s.arr a).cache.length

/-- R2Ts are sent for ranges of reserved pieces, at most MAXR2T + 1 of them outstanding; none while the cache stands at its limit: the write
then waits for space (R384). -/
def State.sendR2t (s : State) (conn cid : Nat) : Nat → State
  | 0 => s
  | fuel + 1 =>
    match (s.conn conn).write? cid with
    | none => s
    | some w =>
      let room := min (4096 * w.nblk) (w.reserved * 262144)
      if w.bad || room ≤ w.r2t || (s.conn conn).maxr2t < w.outstanding then s
      else if s.cacheFull (s.vol w.vol).array then s.phase w.cmd waitSpace
      else
        let n := min 131072 (room - w.r2t)
        (((s.netBytes conn ((s.conn conn).pduLen 24 4 0)).emit (.r2t conn cid w.r2t n)).updWrite conn cid fun x =>
          { x with r2t := x.r2t + n }).sendR2t conn cid fuel

/-- Whether a paced write needs its next piece reserved (R384). -/
def State.wantsPiece (s : State) (conn : Nat) (w : NetWrite) : Bool :=
  !w.bad && w.r2t = w.reserved * 262144 && 64 * w.reserved < w.nblk && w.outstanding ≤ (s.conn conn).maxr2t

/-- A piece's cache blocks are reserved; R2Ts go out for it (R282, R384). -/
def State.reservePiece (s : State) (c : Cmd) (conn cid : Nat) : State :=
  let a := (s.vol (c.f 8 2)).array
  let s1 := (s.updArr a fun x => { x with reserved := x.reserved ++ [(c.id, c.f 12 4)] }).phase c.id .running
  (s1.updWrite conn cid fun w => { w with reserved := w.reserved + 1 }).sendR2t conn cid 8

/-- A paced write reserves the pieces it needs, as far as there is space (R384). -/
def State.pump (s : State) (id conn cid : Nat) : Nat → State
  | 0 => s
  | fuel + 1 =>
    match (s.conn conn).write? cid, s.cmd? id with
    | some w, some c =>
      if s.wantsPiece conn w && c.phase ≠ waitSpace then
        let p := w.piece w.reserved
        let c1 := { c with bytes := volEntry 0x21 w.vol p.2 p.1 }
        let s1 := s.updCmd id fun _ => c1
        if s1.admits c.ctx.toNat w.vol p.2 && !s1.spaceTaken id (s1.vol w.vol).array then (s1.reservePiece c1 conn cid).pump id conn cid fuel
        else s1.phase id waitSpace
      else s
    | _, _ => s

/-- VOL_WRITE's effect once its space is reserved (R282). -/
def State.volWrite (s : State) (c : Cmd) : State :=
  match c.origin with
  | .net conn cid =>
    if 32 < c.bytes.length then s.finishWrite c (c.f 8 2) (c.f 16 8) (blocksFrom (c.bytes.drop 32) (c.f 12 4))
    else (s.reservePiece c conn cid).pump c.id conn cid 8
  | .ring _ =>
  match (match s.bufferOf c with | .ok es => s.gather c.fn es | .error e => .error e) with
  | .error e => s.done c.id e
  | .ok bs => s.finishWrite c (c.f 8 2) (c.f 16 8) (blocksFrom bs (c.f 12 4))

/-- A write whose leaves are held starts, or waits for space in arrival order (R282). -/
def State.startWrite (s : State) (c : Cmd) : State :=
  let v := c.f 8 2
  match c.origin, c.bytes.length with
  | .net conn cid, 32 => (s.phase c.id .running).pump c.id conn cid 8
  | _, _ =>
  if s.admits c.ctx.toNat v (c.f 12 4) && !s.spaceTaken c.id (s.vol v).array then s.volWrite c else s.phase c.id waitSpace

/-- A write that reached ARC with an ARR_STOP has started (R302). -/
def State.unlate (s : State) (c : Cmd) : State :=
  let a := (s.vol (c.f 8 2)).array
  if (s.arr a).late.contains c.lateKey then s.updArr a fun x => { x with late := x.late.filter (· ≠ c.lateKey) } else s

/-- A write starts: refused, waiting for a map leaf or for space, or under way (R282, R292 to R294). -/
def State.beginWrite (s : State) (c : Cmd) : State :=
  let v := c.f 8 2
  let n := c.f 12 4
  let lba := c.f 16 8
  let e := s.writeRefusal c
  let t := s.unlate c
  if !c.volZeros then s.done c.id 0x0100
  else if n = 0 || 256 < n then s.done c.id 0x0105
  else if e ≠ 0 then s.done c.id e
  else if s.leafMiss v lba (lba + n) then (t.fetchLeaves v lba (lba + n)).phase c.id waitLeaf
  else (t.touch v lba (lba + n) false).startWrite c

/-- VOL_WRITE (R282, R292 to R294). -/
def execVolWrite (id : Nat) (s : State) : Out1 :=
  if (s.cmd? id).any s.hostWaits then no "the command waits for its function"
  else withCmd s id 0x21 "no VOL_WRITE with this id" s.beginWrite

/-- The paced write of a command whose R2Ts wait for the cache to fall below its limit, and its connection (R384). -/
def State.heldR2t (s : State) (c : Cmd) : Option (Nat × Nat) :=
  match c.origin with
  | .ring _ => none
  | .net conn cid =>
    if ((s.conn conn).write? cid).any fun w => w.cmd = c.id && w.r2t < min (4096 * w.nblk) (w.reserved * 262144) then some (conn, cid) else none

/-- The map change of a VOL_WRITE_ZEROES (kind 1) or a VOL_DEALLOC (R293). -/
def State.trimNow (s : State) (kind : Nat) (c : Cmd) : State :=
  (s.trim (c.f 8 2) kind (c.f 16 8) (c.f 12 4)).complete c.id 0 (BitVec.ofNat 32 (c.f 12 4)) 0

/-- WRITE_CACHE_RESERVE (R282, R286, R301, R384): the array may be draining; a paced write whose R2Ts waited sends them, a VOL_WRITE_ZEROES or
VOL_DEALLOC gets the room of its record. -/
def execWriteCacheReserve (id : Nat) (s : State) : Out1 :=
  match s.cmd? id with
  | none => no "no such command"
  | some c =>
    let v := c.f 8 2
    let a := (s.vol v).array
    let can := c.phase = waitSpace && !s.hostWaits c && s.serving c.op && [3, 4, 6].contains (s.arr a).state
    if c.op ≠ 0x21 then
      when_ (can && [0x23, 0x24].contains c.op && (s.arr a).room 48) "the journal has no room" (s.trimNow (if c.op = 0x23 then 1 else 2) c)
    else
    match s.heldR2t c with
    | some (conn, cid) =>
      when_ (can && !s.cacheFull a) "the cache stands at its limit" (((s.phase id .running).sendR2t conn cid 8).pump id conn cid 8)
    | none =>
      when_ (can && s.admits c.ctx.toNat v (c.f 12 4) && !s.spaceTaken id a) "the command does not get write-cache space" (s.volWrite c)

/-- What refuses a command whose leaf has arrived: the array's state may have changed meanwhile; one that drains takes it (R294, R298). -/
def State.lateRefusal (s : State) (v : Nat) (write : Bool) : Nat :=
  let st := (s.arr (s.vol v).array).state
  if !([3, 4, 5, 6].contains st) then 0x0200 else if write && st = 5 then 0x0503 else 0

/-- LEAF_READ_COMPLETE (R279): the read or write that missed goes on. -/
def execLeafReadComplete (id : Nat) (s : State) : Out1 :=
  match s.cmd? id with
  | none => no "no such command"
  | some c =>
    let v := c.f 8 2
    let lba := c.f 16 8
    if c.phase = waitLeaf && !s.hostWaits c && s.serving c.op then
      let e := s.lateRefusal v (c.op ≠ 0x20)
      if e ≠ 0 then .next (s.done id e)
      else
        let s1 := (s.touch v lba (lba + c.f 12 4) false).phase id .fetched
        .next (if c.op = 0x20 then s1.volRead c else s1.startWrite c)
    else no "the command waits for no map leaf"

/-! ## Flush, zeroes and deallocate (R293) -/

/-- Whether a command writes a volume. -/
def Cmd.writesVol (c : Cmd) (v : Nat) : Bool := [0x21, 0x23, 0x24].contains c.op && c.f 8 2 = v

/-- VOL_FLUSH (R293): every write to the volume fetched earlier from the same SQ has completed. -/
def execVolFlush (id : Nat) (s : State) : Out1 :=
  if (s.cmd? id).any fun c => s.hif.cmds.any fun x => x.id < id && x.origin = c.origin && x.writesVol (c.f 8 2) then
    no "an earlier write to the volume has not completed"
  else withCmd s id 0x22 "no VOL_FLUSH with this id" fun c =>
    if !c.volZeros then s.done id 0x0100
    else if c.f 12 4 ≠ 0 || c.f 24 8 ≠ 0 then s.done id 0x0105
    else s.done id (s.volRefusal c.ctx.toNat (c.f 8 2) 0 0 false)

/-- VOL_WRITE_ZEROES and VOL_DEALLOC (R293): kind 1 is a write, which a FAILED array refuses (log entry 48); where the journal has no room for
the record the command waits (log entry 177). -/
def State.trimBegin (s : State) (kind : Nat) (c : Cmd) : State :=
  let id := c.id
  let v := c.f 8 2
  let n := c.f 12 4
  let lba := c.f 16 8
  let e := s.volRefusal c.ctx.toNat v lba n (kind = 1)
  if !c.volZeros then s.done id 0x0100
  else if n = 0 || c.f 24 8 ≠ 0 then s.done id 0x0105
  else if e ≠ 0 then s.done id e
  else if (s.arr (s.vol v).array).room 48 then s.trimNow kind c
  else s.phase id waitSpace

/-- VOL_WRITE_ZEROES (R293). -/
def execVolWriteZeroes (id : Nat) (s : State) : Out1 := withCmd s id 0x23 "no VOL_WRITE_ZEROES with this id" (s.trimBegin 1)

/-- VOL_DEALLOC (R293). -/
def execVolDealloc (id : Nat) (s : State) : Out1 := withCmd s id 0x24 "no VOL_DEALLOC with this id" (s.trimBegin 2)

end Sys2Proof.Machine
end

