-- ==== Sys2Proof/Machine/ArcStripes.lean ====
section
/-! DEFINITION. Machine/ArcStripes.lean: stripes from FREE to FREE, Harvest and map checkpoints (R273, R274, R278, R280, R289 to
R291, R322). -/

namespace Sys2Proof.Machine

/-! ## Opening and closing (R273, R322) -/

/-- Whether a stream needs a stripe (R273). -/
def State.streamNeeds (s : State) (a stream : Nat) : Bool :=
  match stream with
  | 0 => !(s.arr a).unplaced.isEmpty
  | 1 => (s.arr a).state ≠ 6 && !(s.toMove a).isEmpty
  | 2 => !(s.dirtyLeaves a).isEmpty
  | _ => false

/-- Whether stripes open, close and commit: on line or draining, before a freeze (R273, R320, R328). -/
def State.arrWrites (s : State) (a : Nat) : Bool := a < 64 && [3, 4, 6].contains (s.arr a).state && s.arcRuns

/-- The stream of a stripe that has just opened takes what waits for it (R273). -/
def State.fillStream (s : State) (a stream : Nat) : State :=
  if stream = 0 then s.fillHost a else if stream = 1 then s.fillHarvest a else s.fillSystem a

/-- STRIPE_OPEN (R273): the stripe of a stream that needs one; it counts as rebuilt while a rebuild has its target (R316). -/
def execStripeOpen (a stream : Nat) (s : State) : Out1 :=
  let x := s.arr a
  if !(s.arrWrites a && (x.openOf stream).isNone && s.streamNeeds a stream && x.opensRoom) then
    no "no stripe of the stream is needed, or the journal has no room"
  else
    match s.nextSlot a with
    | none => no "no FREE stripe"
    | some i => .next ((s.openStripe a i stream).fillStream a stream)

/-- Whether a row brings the blocks that an open HOST stripe of array a still lacks: a write that starts, or one that gets its cache space
(R273). -/
def State.fills (s : State) (a i : Nat) (c : Instr) : Bool :=
  let left := (s.arr a).stripeBlocks i - ((s.arr a).stripe i).blocks.length
  let enough := fun (id : Nat) => (s.cmd? id).any fun x => x.op = 0x21 && (s.vol (x.f 8 2)).array = a && left ≤ x.f 12 4
  match c with
  | .volWrite id => enough id
  | .writeCacheReserve id => enough id
  | _ => false

/-- STRIPE_CLOSE_TIMEOUT (R273): where a fill falls in the same FCLK the stripe closes full. -/
def execStripeCloseTimeout (a stream : Nat) (s : State) : Out1 :=
  match (s.arr a).openOf stream with
  | none => no "the stream has no open stripe"
  | some i => timeout (s.arrWrites a && !((s.arr a).stripe i).blocks.isEmpty && s.elapsed ((s.arr a).stripe i).at_ (1000 * (s.arr a).closeUs))
      (fun c => stream = 0 && s.fills a i c) "no block has been placed for CLOSE_US" s (s.closeStripe a i)

/-! ## Committing (R273, R278) -/

/-- The runs of a HOST stripe that still stand, by volume and WRITE record, in SEQ order (R278, R284, R302). -/
def Arr.hostRuns (x : Arr) (i : Nat) : List (Nat × List Extent) :=
  let base := x.baseAbn i
  let alive := (x.stripe i).blocks.zipIdx.filter fun e => match look none x.cache e.1.from_ with
    | some b => b.seq = e.1.seq && b.vol = e.1.vol && b.lba = e.1.lba && !b.superseded
    | none => false
  let keys := (alive.map fun e => (e.1.seq, e.1.vol)).eraseDups
  let sorted := sortNat (keys.map (·.1)).eraseDups
  sorted.flatMap fun q => (keys.filter (·.1 = q)).map fun k =>
    (k.2, runsOf (seq40 q) ((alive.filter fun e => e.1.seq = q && e.1.vol = k.2).map fun e => (e.1.lba, base + e.2)))

/-- A HOST stripe's map updates, journalled and applied (R278, R288). -/
def State.commitHost (s : State) (a i : Nat) : State :=
  let rs := (s.arr a).hostRuns i
  let s1 := s.updArr a fun x => rs.foldl (fun (y : Arr) r => y.appendRuns r.1 r.2) x
  let s2 := rs.foldl (fun (y : State) r => y.applyRuns r.1 r.2) s1
  s2.updArr a fun x => { x with cache := x.cache.map fun (e : Nat × Option CBlk) =>
    (e.1, e.2.map fun b => if b.placed = some i then { b with committed := true } else b) }

/-- A HARVEST stripe's moves: each applies only where the run still points at the victim (R278, R290). -/
def State.commitMoves (s : State) (a i : Nat) : State :=
  let x := s.arr a
  let base := x.baseAbn i
  (x.stripe i).blocks.zipIdx.foldl (fun (y : State) e =>
    let b := e.1
    let victim := b.from_
    let run : Extent := ⟨b.lba, 1, 0, base + e.2, seq40 b.seq⟩
    let counted := (y.arr a).relocs.any fun r => r = (victim, true)
    let ofB := x.reshaping && x.slotAt victim = x.reshape.b && !x.isNew x.reshape.b
    let y1 := y.updArr a fun z =>
      let z1 := z.append (.moveDelta b.vol run victim)
      { z1 with relocs := z1.relocs.filter (·.1 ≠ victim), relocCnt := if counted then satInc z1.relocCnt else z1.relocCnt
                reshape := if ofB then { z1.reshape with since := z1.reshape.since + 4096, moved := z1.reshape.moved + 4096 } else z1.reshape }
    match mapAt (y1.vol b.vol).map b.lba with
    | some r => if r.kind = 0 && r.abn + (b.lba - r.vlba) = victim then y1.applyRuns b.vol [run] else y1
    | none => y1) s

/-- Whether a HOST stripe still to be committed holds an older write than stripe st: the map is updated in journal-sequence order
(R278; log entry 45). -/
def Arr.olderHost (x : Arr) (st : Nat) : Bool :=
  let first := fun (w : Stripe) => (w.blocks.head?).map (·.seq)
  x.stripes.any fun e => e.1 ≠ st && e.2.state = 2 && e.2.stream = 0 &&
    (match first e.2, first (x.stripe st) with | some p, some q => p < q | _, _ => false)

/-- What a written stripe changes in the maps (R278). -/
def State.commitStream (s : State) (a st stream : Nat) : State :=
  if stream = 0 then s.commitHost a st else if stream = 1 then s.commitMoves a st else s.commitSystem a st

/-- STRIPE_COMMIT (R273, R278): every position in service has completed; with fewer than k chunks written it stays WRITING. -/
def execStripeCommit (a st : Nat) (s : State) : Out1 :=
  let x := s.arr a
  let w := x.stripe st
  when_ (s.arrWrites a && w.state = 2 && (x.geoOf st).k ≤ (s.writable a st).length && !(w.stream = 0 && x.olderHost st))
    "the stripe's writes cannot complete" ((((s.stripeWritten a st).commitStream a st w.stream).sealStripe a st).fillHost a)

/-- STRIPE_FREE (R273): no block is live, and no read is outstanding, a read being one step; offsets given up there are no more (R313). -/
def execStripeFree (a st : Nat) (s : State) : Out1 :=
  let w := (s.arr a).stripe st
  let s1 := s.updArr a fun y => (y.updStripe st fun z => { gen := z.gen }).append (.stripeFree st w.gen)
  when_ (s.arrWrites a && 3 ≤ w.state && (s.liveOf a st).isEmpty && (s.arr a).room 32)
    "the stripe has live blocks, or is not SEALED, or the journal has no room" (if w.lostOfs.isEmpty then s1 else s1.writeSys a)

/-! ## Harvest (R289) -/

/-- Free stripes of an array. -/
def Arr.freeStripes (x : Arr) : Nat := x.s - x.busy.length

/-- HV_LOW: 5% of S (R289). -/
def Arr.hvLow (x : Arr) : Nat := x.s * 5 / 100

/-- Whether stripe e scores higher than b: (1 − u) × age / (1 + u), by cross multiplication (R289). -/
def Arr.scores (x : Arr) (now : Nat) (e b : Nat × Stripe) : Bool :=
  let p := fun (y : Nat × Stripe) => ((x.stripeBlocks y.1 - y.2.live) * (now - y.2.at_.toNat), x.stripeBlocks y.1 + y.2.live)
  (p b).1 * (p e).2 < (p e).1 * (p b).2

/-- The stripe Harvest picks: the highest score of those eligible, the lowest number of equals (R289). -/
def State.victim (s : State) (a : Nat) : Option Nat :=
  let x := s.arr a
  let low := x.freeStripes < x.hvLow
  let el := x.stripes.filter fun e => e.2.state = 3 && (low || e.2.live * 100 ≤ x.hvThresh.toNat * x.stripeBlocks e.1)
  (el.foldl (fun (b : Option (Nat × Stripe)) e => match b with
    | some y => if x.scores s.alm e y then some e else b
    | none => some e) none).map (·.1)

/-- HARVEST (R289, R290): the victim's live blocks wait for the HARVEST stream. -/
def execHarvest (a : Nat) (s : State) : Out1 :=
  match s.victim a with
  | none => no "no stripe is eligible"
  | some i =>
    when_ (s.arrWrites a && (s.arr a).state ≠ 6) "Harvest does not run on the array"
      ((s.updArr a fun y => y.updStripe i fun z => { z with state := 4 }).fillHarvest a)

/-- MAP_CHECKPOINT (R280, R368): the journal is half full, 10 s have passed, or the device enters PS2. -/
def execMapCheckpoint (a : Nat) (s : State) : Out1 :=
  let x := s.arr a
  let due := ringBytes ≤ 2 * x.journalUsed || x.ckptAt.toNat + 10000000000 ≤ s.alm || (s.pwr.phase = 3 && x.cache.isEmpty)
  match (if s.arrWrites a && due then s.checkpoint? a else none) with
  | some t => .next t
  | none => no "no checkpoint is due, or its pages cannot be written"

end Sys2Proof.Machine
end

