-- ==== Sys2Proof/Machine/ArcRebuild.lean ====
section
/-! DEFINITION. Machine/ArcRebuild.lean: members that fail (R265, R266, R298, R320), rebuild (R24, R315 to R319) and reshape
(R321 to R325). -/

namespace Sys2Proof.Machine

/-! ## Choosing a target (R315, R319) -/

/-- Chunk slots a target must give. -/
def Arr.slotsNeeded (x : Arr) : Nat := if x.reshaping then max x.s x.reshape.s else x.s

/-- Whether a member's capacity gives the array's chunk slots (R315). -/
def State.fits (s : State) (a y : Nat) : Bool := (s.arr a).slotsNeeded ≤ slotsOf (s.member y).cap.toNat (s.arr a).vault.toNat

/-- The lowest-numbered SPARE of the array's mask that fits (R315). -/
def State.spareTarget (s : State) (a : Nat) : Option Nat :=
  (List.range 64).find? fun y => (s.arr a).spares.getLsbD y && (s.member y).state = 2 && s.fits a y

/-- Every stripe's rebuilt mark; one not yet written counts as rebuilt from now on (R316; log entry 52). -/
def Arr.clearMarks (x : Arr) : Arr :=
  { x with stripes := x.stripes.map fun (e : Nat × Stripe) => (e.1, { e.2 with rebuilt := decide (e.2.state = 1) }) }

/-- RB_POS of a failed position: its old position, or its new one where only a reshape's new set has it. -/
def Arr.rebuildPos (x : Arr) (z : Nat) : Option Nat := ((x.geo false).posOf z).orElse fun _ => (x.geo true).posOf z

/-- A rebuild of failed member `old` onto target y starts: both labels, an empty vault region and empty checkpoint slots (R315, R319); a
progress record says that its cursor is 0 (log entry 145). -/
def State.startRebuild (s : State) (a old y : Nat) : State :=
  let p := ((s.arr a).rebuildPos old).getD 0
  let s1 := s.updArr a fun x =>
    { x.clearMarks with
      spares := x.spares &&& ~~~(BitVec.ofNat 64 (2 ^ y))
      rebuild := { x.rebuild with state := 2, pos := p, member := y, cur := 0, old := old, since := 0
                                  waiting := x.rebuild.waiting.filter (· ≠ old)
                                  rate := if x.rebuild.rate = 0 then 20 else x.rebuild.rate } }
  let v := (s.arr a).vault.toNat
  let s2 := s1.updMember y fun w => { w with state := 5, array := a, pos := p, medium := clearRange w.medium (ckptBlk 0) (dataBlk v - ckptBlk 0), sys := none }
  (s2.writeLabels a false).writeProgress a

/-- The next waiting position takes a target, or waits (R315, R319). -/
def State.nextRebuild (s : State) (a : Nat) : State :=
  let x := s.arr a
  match x.rebuild.waiting with
  | [] => s
  | old :: _ =>
    if 2 ≤ x.rebuild.state then s
    else
      match s.spareTarget a with
      | some y => s.startRebuild a old y
      | none => s.updArr a fun z => { z with rebuild := { z.rebuild with state := 1 } }

/-! ## Members that fail (R265, R266, R298, R319, R320, R325) -/

/-- ONLINE, DEGRADED or FAILED by the failed positions (R298, R320). -/
def State.judge (s : State) (a : Nat) : State :=
  let f := (s.failedMembers a).length
  s.updArr a fun x =>
    if [3, 4, 5].contains x.state then { x with state := if f = 0 then 3 else if f ≤ x.mMin then 4 else 5 } else x

/-- A member becomes FAILED (R265, R266); its position has from then on the name of `failedName`. During a flush its stream stops (R330); the
labels of an array that is not on line keep what they say but for the position table (R268). -/
def State.failMember (s : State) (n : Nat) : State :=
  let w := s.member n
  let a := w.array
  let s1 := s.updMember n fun y => { y with state := 4 }
  if w.state = 3 then
    let s2 := s1.updArr a fun x =>
      let old := failedName ((x.geo false).posOf n) n (((x.geo true).posOf n).getD 0)
      let y := (List.range x.n).foldl (fun (z : Arr) p => if z.memberAt p = n then z.setPos p n else z) x
      { y with rebuild := { y.rebuild with waiting := y.rebuild.waiting ++ [old] }
               reshape := { y.reshape with pos := y.reshape.pos.map (fun z => if z = n then old else z)
                                           state := if y.reshape.state = 1 then 2 else y.reshape.state } }
    if s.arc.pf ≠ 0 then s2.settleVault
    else if !([3, 4, 5, 6].contains (s2.arr a).state) then s2.relabel a
    else
      let s3 := (s2.judge a).writeLabels a false
      if [4, 5].contains (s3.arr a).state then s3.nextRebuild a else s3
  else if w.state = 5 then
    let s2 := s1.updArr a fun x =>
      { x.clearMarks with rebuild := { x.rebuild with state := 0, cur := 0, waiting := x.rebuild.old :: x.rebuild.waiting } }
    if s.arc.pf = 0 && [4, 5].contains (s2.arr a).state then s2.nextRebuild a else s2
  else if w.state = 2 then s1.updArr a fun x => { x with spares := x.spares &&& ~~~(BitVec.ofNat 64 (2 ^ n)) }
  else s1

/-- Whether a member is attached and has not failed. -/
def Member.works (x : Member) : Bool := x.state ≠ 0 && x.state ≠ 4

/-- MEMBER_COMMAND_TIMEOUT (R265): the command is aborted, the controller is reset once and the command reissued; failing again, the
member fails. -/
def execMemberCommandTimeout (n : Nat) (retryOk : Bool) (s : State) : Out1 :=
  timeout (n < 64 && (s.member n).works) (fun i => match i with | .memberCommandCompletion m _ _ => m = n | _ => false)
    "no command is outstanding on the member" s
    (let s1 := (s.emit (.memberCmd n .abort)).emit (.memberReset n); if retryOk then s1 else s1.failMember n)

/-- MEMBER_LINK_DOWN (R265): its link has gone down, or, with fatal, its controller reports a fatal status. -/
def execMemberLinkDown (w : MemberLoss) (s : State) : Out1 :=
  match w with
  | .fatalStatus n => when_ (n < 64 && (s.member n).works) "the member is not attached" (s.failMember n)
  | .link n =>
    let m := s.member n
    let up := put 0 s.arc.up m.dp.toNat (look 0 s.arc.up m.dp.toNat &&& ~~~(BitVec.ofNat 4 (2 ^ m.link)))
    when_ (n < 64 && m.works) "the member is not attached" ({ s with arc := { s.arc with up := up } }.failMember n)

/-- MEMBER_COMMAND_COMPLETION (R265, R312): a block's read or write has completed, with a media error or without; a live data
block with one is reconstructed and relocated. -/
def execMemberCommandCompletion (n blk : Nat) (mediaErr : Bool) (s : State) : Out1 :=
  let w := s.member n
  if !(n < 64 && w.works) then no "no command is outstanding on the member"
  else
    let s1 := s.setMember n { w with bad := put false w.bad blk mediaErr }
    let a := w.array
    let x := s.arr a
    let o := blk - x.chunkBlk 0 0
    let i := o / 16
    let g := x.geoOf i
    .next (match g.posOf n with
      | none => s1
      | some p =>
        let e := (p + g.n - i % g.n) % g.n
        let abn := x.baseAbn i + 16 * e + o % 16
        if mediaErr && x.chunkBlk 0 0 ≤ blk && s.memberUp a n && 3 ≤ (x.stripe i).state && e < g.k && !(s.liveIn a abn (abn + 1)).isEmpty then
          s1.afterRead a (s1.readAbn a abn)
        else s1)

/-! ## The cursor (R316 to R319) -/

/-- A chunk of a slot written whole to the rebuild target, zeros at the offsets given up, and the stripe marked (R24, R313, R316). -/
def State.fillTarget (s : State) (a i : Nat) : State :=
  let x := s.arr a
  let st := x.stripe i
  let g := x.geoOf i
  match g.posOf x.rebuild.old with
  | none => s.updArr a fun y => y.updStripe i fun z => { z with rebuilt := true }
  | some p =>
    let e := (p + g.n - i % g.n) % g.n
    let rows := (List.range 16).map fun b => s.rebuildBlock a i e b st
    let s1 := rows.zipIdx.foldl (fun (y : State) r => if r.1.isSome then y else y.lostOffset a i r.2) s
    (s1.writeMember x.rebuild.member (x.chunkBlk i 0) (rows.flatMap fun r => r.getD zeroBlock)).updArr a fun y =>
      y.updStripe i fun z => { z with rebuilt := true }

/-- Whether a query's read of these ABNs reconstructed the whole of chunk e of a slot. -/
def wholeChunk (base e : Nat) (abns : List Nat) : Bool := (List.range 16).all fun b => abns.contains (base + 16 * e + b)

/-- Chunks that ERS reconstructed whole for a query are written to the rebuild target and counted (R24, R316, R336). -/
def State.queryRebuild (s : State) (a : Nat) (abns : List Nat) : State :=
  if (s.arr a).rebuild.state < 2 then s
  else
    let slots := (abns.filterMap fun n => ((s.arr a).slotOf n).map (·.1)).eraseDups
    slots.foldl (fun (y : State) i =>
      let x := y.arr a
      let st := x.stripe i
      let g := x.geoOf i
      match g.posOf x.rebuild.old with
      | none => y
      | some p =>
        let e := (p + g.n - i % g.n) % g.n
        let whole := wholeChunk (x.baseAbn i) e abns && (List.range 16).all fun b => (y.rebuildBlock a i e b st).isSome
        if !st.rebuilt && 3 ≤ st.state && e < g.k && whole then
          (y.fillTarget a i).updArr a fun z => { z with rebuild := { z.rebuild with skip := z.rebuild.skip + 1 } }
        else y) s

/-- A rebuild completes: the target takes the failed member's positions (R319, R320, R325), and a progress record says so (R324; log entry
145). -/
def State.endRebuild (s : State) (a : Nat) : State :=
  let r := (s.arr a).rebuild
  let s1 := s.updMember r.member fun w => { w with state := 3, array := a, pos := r.pos }
  let s2 := s1.updArr a fun x =>
    let y := (List.range x.n).foldl (fun (z : Arr) p => if z.memberAt p = r.old then z.setPos p (128 + r.member) else z) x
    { y with stripes := y.stripes.map (fun (e : Nat × Stripe) => (e.1, { e.2 with rebuilt := false }))
             rebuild := { y.rebuild with state := 0, pos := 0, member := 0, old := 0, cur := 0, since := 0 }
             reshape := { y.reshape with pos := y.reshape.pos.map (fun z => if z = r.old then r.member else z)
                                         state := if y.reshape.state = 2 && r.waiting.isEmpty then 1 else y.reshape.state } }
  ((((s2.judge a).writeLabels a false).writeSys a).writeProgress a).nextRebuild a

/-- 4 GiB (R318, R323). -/
def recordBytes : Nat := 2 ^ 32

/-- REBUILD_CURSOR_STEP (R316 to R318): the cursor handles its slot. -/
def execRebuildCursorStep (a : Nat) (s : State) : Out1 :=
  let x := s.arr a
  let r := x.rebuild
  let st := x.stripe r.cur
  if !(a < 64 && r.state = 2 && [4, 5].contains x.state && s.arcRuns) then no "no rebuild runs"
  else if st.state = 2 && !st.rebuilt then no "the cursor waits until the stripe is SEALED"
  else
    let writes := 3 ≤ st.state && !st.rebuilt
    let g := x.geoOf r.cur
    let s1 := match (if writes then g.posOf r.old else none) with
      | some p => (s.readSources a r.cur ((p + g.n - r.cur % g.n) % g.n) st).fillTarget a r.cur
      | none => if writes then s.fillTarget a r.cur else s
    let s2 := s1.updArr a fun y =>
      { y with rebuild := { y.rebuild with cur := y.rebuild.cur + 1, since := if writes then y.rebuild.since + 65536 else y.rebuild.since } }
    let s3 := if recordBytes ≤ (s2.arr a).rebuild.since then s2.writeProgress a else s2
    .next (if x.slotsNeeded ≤ r.cur + 1 then s3.endRebuild a else s3)

/-! ## ARR_REBUILD (R334) -/

/-- What the three forms of ARR_REBUILD check first: reserved bytes, ARRAY, ACTION and RB_RATE. -/
def rebuildCmd (s : State) (id action : Nat) (what : String) (k : Cmd → Nat → State) : Out1 :=
  if (s.cmd? id).any (fun c => min (c.f 9 1) 3 % 3 ≠ action) then no what
  else withCmd s id 0x9C what fun c =>
    if !c.zeros [(14, 18)] then s.done id 0x0100
    else if 63 < c.f 8 1 || 2 < c.f 9 1 || 4095 < c.f 12 2 then s.done id 0x0105
    else k c (c.f 8 1)

/-- RB_RATE set, 0 leaving it. -/
def State.setRbRate (s : State) (a v : Nat) : State :=
  s.updArr a fun x => if v = 0 then x else { x with rebuild := { x.rebuild with rate := BitVec.ofNat 12 v } }

/-- ARR_REBUILD_START (R315, R334), up to its check. -/
def execArrRebuildStart (id : Nat) (s : State) : Out1 :=
  rebuildCmd s id 0 "no ARR_REBUILD start with this id" fun _ a =>
    if 2 ≤ (s.arr a).rebuild.state then s.done id 0x0201
    else if !([4, 5].contains (s.arr a).state) then s.done id 0x0200
    else (s.phase id .checking).queueCheck .arc (.arrRebuild id)

/-- The failed member ARR_REBUILD names: the one at POS, or the earliest failed. -/
def State.rebuildOld (s : State) (a pos : Nat) : Option Nat :=
  let x := s.arr a
  if pos = 255 then x.rebuild.waiting.head?
  else if x.n ≤ pos || s.memberUp a (x.memberAt pos) then none else some (x.memberAt pos)

/-- The end of ARR_REBUILD's check (R319, R334): a rebuild may have started meanwhile, or the array's state have changed (log entry 167). -/
def State.arrRebuildEnd (s : State) (id : Nat) : State :=
  match s.cmd? id with
  | none => s.checkDone .arc 0 0
  | some c =>
    let a := c.f 8 1
    let old := s.rebuildOld a (c.f 10 1)
    let y := c.f 11 1
    let t := if y = 255 then s.spareTarget a else if y < 64 then some y else none
    let n := if 2 ≤ (s.arr a).rebuild.state || !([4, 5].contains (s.arr a).state) then 0x3002 else pickReason
      [(match t with
          | none => true
          | some z => !((s.member z).state = 1 || ((s.member z).state = 2 && (s.arr a).spares.getLsbD z)), 0x3011),
       (t.any fun z => !s.fits a z, 0x3021), (old.isNone, 0x3022)]
    if n ≠ 0 then (s.checkDone .arc n a).complete id 0x0203 (BitVec.ofNat 32 n) 0
    else
      let z := t.getD 0
      (((s.setRbRate a (c.f 12 2)).startRebuild a (old.getD 0) z).checkDone .arc 0 a).complete id 0 0 (BitVec.ofNat 32 z)

/-- A rebuild paused or resumed (R319, R334). -/
def State.rebuildTo (s : State) (id a rate src dest : Nat) : State :=
  let r := (s.arr a).rebuild
  if r.state ≠ src || !([4, 5].contains (s.arr a).state) then s.done id 0x0200
  else
    ((s.setRbRate a rate).updArr a fun x => { x with rebuild := { x.rebuild with state := dest } }).complete id 0 0 (BitVec.ofNat 32 r.member)

/-- ARR_REBUILD_PAUSE (R319). -/
def execArrRebuildPause (id : Nat) (s : State) : Out1 :=
  rebuildCmd s id 1 "no ARR_REBUILD pause with this id" fun c a => s.rebuildTo id a (c.f 12 2) 2 3

/-- ARR_REBUILD_RESUME (R319). -/
def execArrRebuildResume (id : Nat) (s : State) : Out1 :=
  rebuildCmd s id 2 "no ARR_REBUILD resume with this id" fun c a => s.rebuildTo id a (c.f 12 2) 3 2

/-! ## Reshape (R321 to R325) -/

/-- Whether k and m form a geometry (R269). -/
def geometryOk (k m : Nat) : Bool := (2 ≤ k && k ≤ 32 && m ≤ 4) || (k = 1 && 1 ≤ m && m ≤ 3)

/-- The member numbers of the first n bytes of a POS field. -/
def Cmd.posList (c : Cmd) (n : Nat) : List Nat := (List.range (min n 36)).map fun i => c.f (32 + i) 1

/-- Whether POS names exactly n members (R295, R296). -/
def Cmd.posOk (c : Cmd) (n : Nat) : Bool :=
  n ≤ 36 && (c.posList n).all (· ≠ 255) && (List.range (36 - n)).all fun i => c.f (32 + n + i) 1 = 255

/-- Whether a list names a member twice. -/
def twice (l : List Nat) : Bool := l.eraseDups.length < l.length

/-- S of members with a vault of v MiB (R267). -/
def State.slotsFor (s : State) (ms : List Nat) (v : Nat) : Nat :=
  match ms.map fun y => slotsOf (s.member y).cap.toNat v with
  | [] => 0
  | x :: r => r.foldl min x

/-- Blocks the volumes of an array take, but volume v's. -/
def State.vblkSum (s : State) (a : Nat) (but : Option Nat) : Nat :=
  (s.volsOf a).foldl (fun n v => if some v = but then n else n + (s.vol v).vblk) 0

/-- ARR_RESHAPE (R321), up to its check. -/
def execArrReshape (id : Nat) (s : State) : Out1 := withCmd s id 0x9D "no ARR_RESHAPE with this id" fun c =>
  let a := c.f 8 1
  let x := s.arr a
  if !c.zeros [(11, 1), (14, 18), (68, 28)] then s.done id 0x0100
  else if 63 < a || 4095 < c.f 12 2 then s.done id 0x0105
  else if x.reshaping || 2 ≤ x.rebuild.state then s.done id 0x0201
  else if x.state ≠ 3 then s.done id 0x0200
  else (s.phase id .checking).queueCheck .arc (.arrReshape id)

/-- The reason of ARR_RESHAPE's check (R321). -/
def State.reshapeReason (s : State) (c : Cmd) : Nat :=
  let a := c.f 8 1
  let x := s.arr a
  let k := c.f 9 1
  let n := k + c.f 10 1
  let ms := c.posList n
  let new := ms.filter fun y => !x.members.contains y
  let both := (x.members ++ new).eraseDups
  let sNew := s.slotsFor ms x.vault.toNat
  pickReason
    [(ms.any (fun y => 63 < y && y ≠ 255), 0x3001), (!geometryOk k (c.f 10 1) || !c.posOk n, 0x3010),
     (twice ms || new.any (fun y => (s.member y).state ≠ 1), 0x3011),
     (ms.any (fun y => !(s.member y).nsOk) || sNew < 1024 || 2 ^ 36 ≤ sNew * k, 0x3012),
     (!s.flushOk both x.cacheU.toNat, 0x3013), (!vaultOk both.length x.vault.toNat x.cacheU.toNat, 0x3015),
     (volumeBlocks x.rsv k sNew < s.vblkSum a none, 0x3017), (x.freeStripes < 2 * x.hvLow, 0x3020)]

/-- The end of ARR_RESHAPE's check (R321, R325). -/
def State.arrReshapeEnd (s : State) (id : Nat) : State :=
  match s.cmd? id with
  | none => s.checkDone .arc 0 0
  | some c =>
    let a := c.f 8 1
    let x := s.arr a
    let busy := x.reshaping || 2 ≤ x.rebuild.state || x.state ≠ 3
    let n := if busy then 0x3002 else s.reshapeReason c
    if n ≠ 0 then (s.checkDone .arc n a).complete id 0x0203 (BitVec.ofNat 32 n) 0
    else
      let ms := c.posList (c.f 9 1 + c.f 10 1)
      let sNew := s.slotsFor ms x.vault.toNat
      let rate := if c.f 12 2 = 0 then 20 else c.f 12 2
      let s1 := ms.zipIdx.foldl (fun (y : State) e =>
        if x.members.contains e.1 then y else y.updMember e.1 fun w => { w with state := 3, array := a, pos := e.2 }) s
      let s2 := s1.updArr a fun y =>
        { y with reshape := { state := 1, k := c.f 9 1, m := c.f 10 1, pos := ms, s := sNew, rate := BitVec.ofNat 12 rate
                              pairs := ms.zipIdx.filterMap fun e => ((x.geo false).posOf e.1).map fun p => (p, e.2) } }
      ((((s2.writeLabels a false).writeSys a).writeProgress a).checkDone .arc 0 a).complete id 0 0 (BitVec.ofNat 32 sNew)

/-- A progress record with B_d = b, after a map checkpoint (R323, R325); none where its pages cannot be written. -/
def State.advanceDurable (s : State) (a b : Nat) : Option State :=
  (s.checkpoint? a).map fun t => (t.updArr a fun x => { x with reshape := { x.reshape with bd := b } }).writeProgress a

/-- A step that takes a checkpoint, or waits until its pages can be written. -/
def afterCheckpoint (r : Option State) : Out1 := match r with | some t => .next t | none => no "the checkpoint's pages cannot be written"

/-- RESHAPE_STEP (R323, R325): a record is due, the boundary has reached S_old, or slot B is passed or emptied. -/
def execReshapeStep (a : Nat) (s : State) : Out1 :=
  let x := s.arr a
  let r := x.reshape
  let st := x.stripe r.b
  if !(s.arrWrites a && x.state ≠ 6 && r.state = 1) then no "no reshape moves"
  else if recordBytes ≤ r.since then afterCheckpoint (s.advanceDurable a r.b)
  else if x.s ≤ r.b then
    afterCheckpoint ((s.updArr a fun y => { y with reshape := { y.reshape with state := 3 } }).advanceDurable a x.s)
  else if st.state = 0 then .next (s.updArr a fun y => { y with reshape := { y.reshape with b := y.reshape.b + 1 } })
  else if st.state = 3 then .next ((s.updArr a fun y => y.updStripe r.b fun z => { z with state := 4 }).fillHarvest a)
  else no "slot B is not yet FREE"

/-- A member leaves its array: ATTACHED, its labels erased (R266, R298, R325). -/
def State.eraseLabels (s : State) (z : Nat) : State :=
  let s1 := (s.writeMember z (labelBlk 0) zeroBlock).writeMember z (labelBlk 1) zeroBlock
  s1.updMember z fun w => { w with state := 1, array := 0, pos := 0 }

/-- What a name of a failed position becomes when the new set alone is left: 64 + its new position; none where the new set lacks it. -/
def Reshape.rename (r : Reshape) (z : Nat) : Option Nat := (r.pos.findIdx? (· = z)).map (64 + ·)

/-- The array with its new geometry alone: the positions that failed meanwhile keep their member's number, and what waits for a rebuild, or is
rebuilt, has its new name (R306, R325). -/
def Arr.finishReshape (x : Arr) : Arr :=
  let r := x.reshape
  let b := x.rebuild
  let old := r.rename b.old
  { x.setMembers (r.pos.map fun z => if z < 64 then (z, true) else (x.failedMember z, false)) with
    geom := Tri.of (geomWord x.rsv r.k r.m), s := r.s, reshape := { rate := r.rate }
    rebuild :=
      if 2 ≤ b.state then
        { b with state := if old.isNone then 0 else b.state, old := old.getD 0, pos := old.getD 64 - 64, member := if old.isNone then 0 else b.member
                 waiting := b.waiting.filterMap r.rename }
      else { b with waiting := b.waiting.filterMap r.rename, state := if (b.waiting.filterMap r.rename).isEmpty then 0 else b.state } }

/-- RESHAPE_FINISH (R325); a target that stands for a leaving position leaves with it. -/
def execReshapeFinish (a : Nat) (s : State) : Out1 :=
  let x := s.arr a
  let r := x.reshape
  if !(a < 64 && [3, 4].contains x.state && r.state = 3 && s.arcRuns) then no "no reshape finishes"
  else
    let target := if 2 ≤ x.rebuild.state && (r.rename x.rebuild.old).isNone then [x.rebuild.member] else []
    let leaving := (x.members ++ target).filter fun y => !r.pos.contains y
    let s1 := leaving.foldl (fun (y : State) z => if [3, 5].contains (y.member z).state then y.eraseLabels z else y) s
    let s2 := s1.updArr a Arr.finishReshape
    let s3 := r.pos.zipIdx.foldl (fun (y : State) e => y.updMember e.1 fun w => if w.state = 3 then { w with pos := e.2 } else w) s2
    let now := (s3.arr a).rebuild
    let s4 := if 2 ≤ now.state then s3.updMember now.member fun w => { w with pos := now.pos } else s3
    .next (((((s4.judge a).writeLabels a false).writeSys a).writeProgress a).nextRebuild a)

end Sys2Proof.Machine
end

