-- ==== Sys2Proof/Machine/ArcAdmin.lean ====
section
/-! DEFINITION. Machine/ArcAdmin.lean: the administration of members, arrays and volumes, and ARC's registers (R265, R266, R295 to
R305, R334). -/

namespace Sys2Proof.Machine

/-! ## Members (R266, R295) -/

/-- A detached member: what stands on its medium stays (log entry 4). -/
def Member.detached (x : Member) : Member := { medium := x.medium, bad := x.bad, sys := x.sys }

/-- What initialises a controller: it is identified, its health read, the volatile write cache set, and 8 I/O queue pairs of 1,024 entries
created with a vector each (R264, R266; log entry 53). -/
def attachCmds : List MbrCmd :=
  [.identify, .logPage, .numberOfQueues 8, .writeCache]
    ++ (List.range 8).flatMap fun q => [.createCq (q + 1) (q + 1) 1024, .createSq (q + 1) (q + 1) 1024]

/-- What shuts it down: its cache flushed, its I/O queues deleted (R264, R266; log entry 53). -/
def detachCmds : List MbrCmd := .flush memberNs :: (List.range 8).flatMap fun q => [.deleteSq (q + 1), .deleteCq (q + 1)]

/-- Links of a drive port as BIF selects (R263, R305). -/
def State.linksOf (s : State) (p : Nat) : Nat := match (look 0 s.arc.bifur p + 2 : BitVec 2) with | 0 => 1 | 1 => 2 | _ => 4

/-- MBR_ATTACH (R266, R295): `info` is what the controller reports; where it cannot be initialised the spec states no status:
one of R57's (log entry 53). -/
def execMbrAttach (id : Nat) (info : Option MemberInfo) (s : State) : Out1 := withCmd s id 0x90 "no MBR_ATTACH with this id" fun c =>
  let n := c.f 8 1
  let rate := c.f 12 2
  if !c.zeros [(14, 18)] then s.done id 0x0100
  else if 63 < n || 5 < c.f 9 1 || rate = 0 || 4095 < rate then s.done id 0x0105
  else if (s.member n).state ≠ 0 then s.done id 0x0200
  else
    let f := s.free
    match info with
    | none => f.2.done id (issuedStatus f.1.toNat)
    | some i =>
      let p := c.f 9 1
      let l := f.1.toNat % s.linksOf p
      let s1 := f.2.updMember n fun w =>
        { w with state := 1, lbas := i.lbas, mwrate := BitVec.ofNat 12 rate, dp := BitVec.ofNat 3 p, rid := BitVec.ofNat 16 (c.f 10 2)
                 cap := i.cap, nsOk := i.nsOk, link := l, ioQueues := 8 }
      let s2 := { s1 with arc := { s1.arc with up := put 0 s1.arc.up p (look 0 s1.arc.up p ||| BitVec.ofNat 4 (2 ^ l)) } }
      (s2.toMember n attachCmds).complete id 0 (lo32 i.cap) (hi32 i.cap)

/-- MBR_DETACH (R266). -/
def execMbrDetach (id : Nat) (s : State) : Out1 := withCmd s id 0x91 "no MBR_DETACH with this id" fun c =>
  let n := c.f 8 1
  if !c.zeros [(9, 23)] then s.done id 0x0100
  else if 63 < n then s.done id 0x0105
  else if !([1, 4].contains (s.member n).state) then s.done id 0x0200
  else (((s.toMember n detachCmds).updMember n Member.detached).emit (.memberShutdown n)).done id 0

/-! ## ARR_CREATE (R295 to R297) -/

/-- A field whose default stands where it is 0 (R295). -/
def orDefault (v d : Nat) : Nat := if v = 0 then d else v

/-- V in MiB that VAULT 0 selects (R295). -/
def autoVault (cacheU n : Nat) : Nat := roundUp (ceilDiv (2 * (cacheU * 256 + 16)) n + 1) 64

/-- V in MiB of an ARR_CREATE. -/
def Cmd.vaultMib (c : Cmd) : Nat := if c.f 14 2 = 0 then autoVault (c.f 12 2) (c.f 9 1 + c.f 10 1) else c.f 14 2 * 64

/-- Whether the settings that ARR_CREATE and ARR_SET name are in range, those selected by the mask (R295). -/
def settingsOk (mask cacheU thresh rate close : Nat) : Bool :=
  (!bit mask 0 || (1 ≤ cacheU && cacheU ≤ 16)) && (!bit mask 2 || (10 ≤ thresh && thresh ≤ 95))
    && (!bit mask 3 || (1 ≤ rate && rate ≤ 50)) && (!bit mask 4 || (100 ≤ close && close ≤ 10000))

/-- The members in a mask. -/
def maskList (m : Nat) : List Nat := (List.range 64).filter fun i => bit m i

/-- Cache units of every array that is not NONE, but array a (R281). -/
def State.cacheUnits (s : State) (a : Nat) : Nat :=
  s.arc.arrays.foldl (fun n e => if e.2.state ≠ 0 && e.1 ≠ a then n + e.2.cacheU.toNat else n) 0

/-- The largest CACHE that passes the flushable check (R296). -/
def State.largestCache (s : State) (ms : List Nat) : Nat := ((List.range 17).filter fun c => s.flushOk ms c).foldl max 0

/-- ARR_CREATE, up to its check (R295 to R298). -/
def execArrCreate (id : Nat) (s : State) : Out1 := withCmd s id 0x92 "no ARR_CREATE with this id" fun c =>
  let a := c.f 8 1
  if !c.zeros [(19, 1), (68, 28)] || c.f 16 1 / 4 ≠ 0 then s.done id 0x0100
  else if 63 < a then s.done id 0x0105
  else if (s.arr a).state ≠ 0 then s.done id 0x0200
  else ((s.updArr a fun x => { x with state := 1, prev := 0, cmd := some id }).phase id .checking).queueCheck .arc (.arrCreate id)

/-- The reason of ARR_CREATE's check (R296). -/
def State.createReason (s : State) (c : Cmd) : Nat :=
  let k := c.f 9 1
  let m := c.f 10 1
  let cu := c.f 12 2
  let v := c.vaultMib
  let ms := c.posList (k + m)
  let sp := maskList (c.f 24 8)
  let n := s.slotsFor ms v
  pickReason
    [(!settingsOk 0x1F cu (orDefault (c.f 17 1) 75) (orDefault (c.f 18 1) 20) (orDefault (c.f 20 4) 1000)
        || orDefault (c.f 11 1) 10 < 5 || 50 < c.f 11 1 || 65535 < v || ms.any (fun y => 63 < y && y ≠ 255), 0x3001),
     (bit (c.f 16 1) 0 && !s.plk.mirEn, 0x3002), (!geometryOk k m || !c.posOk (k + m), 0x3010),
     (twice (ms ++ sp) || (ms ++ sp).any (fun y => (s.member y).state ≠ 1), 0x3011),
     (ms.any (fun y => !(s.member y).nsOk) || n < 1024 || 2 ^ 36 ≤ n * k, 0x3012), (!s.flushOk ms cu, 0x3013),
     (16 < s.cacheUnits (c.f 8 1) + cu, 0x3014), (!vaultOk (k + m) v cu, 0x3015), (s.ownerRefused (cu * 128 + 8), 0x3019)]

/-- A check of ARC that fails: the command completes with the reason, and for 0x3013 the largest CACHE (R296). -/
def State.arcFail (s : State) (id reason obj largest : Nat) : State :=
  (s.checkDone .arc reason obj).complete id 0x0203 (BitVec.ofNat 32 reason) (if reason = 0x3013 then BitVec.ofNat 32 largest else 0)

/-- The end of ARR_CREATE's check (R296 to R298): labels and checkpoint slots with an empty map on every position. -/
def State.arrCreateEnd (s : State) (id : Nat) : State :=
  match s.cmd? id with
  | none => s.checkDone .arc 0 0
  | some c =>
    let a := c.f 8 1
    let k := c.f 9 1
    let m := c.f 10 1
    let ms := c.posList (k + m)
    let n := (s.setArr a {}).createReason c
    if n ≠ 0 then (s.setArr a {}).arcFail id n a (s.largestCache ms)
    else
      let f := s.free
      let g := f.2.free
      let v := c.vaultMib
      let x : Arr :=
        { state := 3, mirror := bit (c.f 16 1) 0, scanchk := bit (c.f 16 1) 1
          geom := Tri.of (geomWord (orDefault (c.f 11 1) 10) k m), cacheU := BitVec.ofNat 5 (c.f 12 2)
          hvThresh := BitVec.ofNat 8 (orDefault (c.f 17 1) 75), hvRate := BitVec.ofNat 8 (orDefault (c.f 18 1) 20)
          closeUs := orDefault (c.f 20 4) 1000, spares := BitVec.ofNat 64 (c.f 24 8), s := s.slotsFor ms v
          vault := BitVec.ofNat 16 v, arrayId := f.1 ++ g.1, ckptAt := s.clk.alm }
      let s1 := g.2.setArr a (x.setMembers (ms.map fun y => (y, true)))
      let empty := ({ seq := 0, dirs := [] } : Ckpt).bytes
      let s2 := ms.zipIdx.foldl (fun (y : State) e =>
        let w := y.member e.1
        let area := .deallocate memberNs (w.lba (dataBlk v)) (w.lba (16 * x.s))
        let y1 := (y.setMember e.1 { w with state := 3, array := a, pos := e.2, medium := w.medium.filter fun b => b.1 < dataBlk v }).toMember e.1 [area]
        (y1.writeMember e.1 (ckptBlk 0) empty).writeMember e.1 (ckptBlk 1) empty) s1
      let s3 := (maskList (c.f 24 8)).foldl (fun (y : State) e => y.updMember e fun w => { w with state := 2, array := a }) s2
      ((((s3.writeLabels a false).writeSys a).checkDone .arc 0 a)).done id 0

/-! ## ARR_SET (R295, R296) -/

/-- ARR_SET, up to its check: of an array on line or FAILED (log entry 54). -/
def execArrSet (id : Nat) (s : State) : Out1 := withCmd s id 0x95 "no ARR_SET with this id" fun c =>
  let a := c.f 8 1
  if !c.zeros [(10, 22), (32, 12), (46, 2), (51, 1)] || c.f 9 1 / 64 ≠ 0 || c.f 48 1 / 2 ≠ 0 then s.done id 0x0100
  else if 63 < a then s.done id 0x0105
  else if !([3, 4, 5].contains (s.arr a).state) then s.done id 0x0200
  else (s.phase id .checking).queueCheck .arc (.arrSet id)

/-- The reason of ARR_SET's check (R296). -/
def State.setReason (s : State) (c : Cmd) : Nat :=
  let a := c.f 8 1
  let x := s.arr a
  let mask := c.f 9 1
  let cu := c.f 44 2
  let added := (maskList (c.f 56 8)).filter fun y => !x.spares.getLsbD y
  let gone := (maskList x.spares.toNat).filter fun y => !bit (c.f 56 8) y
  let ch := bit mask 0
  pickReason
    [(!settingsOk mask cu (orDefault (c.f 49 1) 75) (orDefault (c.f 50 1) 20) (orDefault (c.f 52 4) 1000), 0x3001),
     (bit mask 1 && bit (c.f 48 1) 0 && !s.plk.mirEn, 0x3002),
     (bit mask 5 && (added.any (fun y => (s.member y).state ≠ 1) || gone.any (fun y => (s.member y).state ≠ 2)), 0x3011),
     (ch && !s.flushOk (s.upMembers a) cu, 0x3013), (ch && 16 < s.cacheUnits a + cu, 0x3014),
     (ch && !vaultOk x.allMembers.length x.vault.toNat cu, 0x3015),
     (ch && x.cacheU.toNat < cu && s.ownerRefused ((cu - x.cacheU.toNat) * 128), 0x3019)]

/-- The end of ARR_SET's check. -/
def State.arrSetEnd (s : State) (id : Nat) : State :=
  match s.cmd? id with
  | none => s.checkDone .arc 0 0
  | some c =>
    let a := c.f 8 1
    let mask := c.f 9 1
    let n := s.setReason c
    if n ≠ 0 then s.arcFail id n a (s.largestCache (s.upMembers a))
    else
      let old := (s.arr a).spares
      let s1 := s.updArr a fun x =>
        { x with cacheU := if bit mask 0 then BitVec.ofNat 5 (c.f 44 2) else x.cacheU
                 mirror := if bit mask 1 then bit (c.f 48 1) 0 else x.mirror
                 hvThresh := if bit mask 2 then BitVec.ofNat 8 (orDefault (c.f 49 1) 75) else x.hvThresh
                 hvRate := if bit mask 3 then BitVec.ofNat 8 (orDefault (c.f 50 1) 20) else x.hvRate
                 closeUs := if bit mask 4 then orDefault (c.f 52 4) 1000 else x.closeUs
                 spares := if bit mask 5 then BitVec.ofNat 64 (c.f 56 8) else x.spares }
      let s2 := if bit mask 5 then
          (List.range 64).foldl (fun (y : State) e =>
            let was := old.getLsbD e
            let is := bit (c.f 56 8) e
            if is && !was then y.updMember e fun w => { w with state := 2, array := a }
            else if was && !is then y.updMember e fun w => { w with state := 1, array := 0 }
            else y) s1
        else s1
      let s3 := if (s2.arr a).rebuild.state = 1 then s2.nextRebuild a else s2
      (((s3.writeSys a).checkDone .arc 0 a).done id 0)

/-! ## ARR_STOP and ARC_DESTROY (R297, R298, R304) -/

/-- The open stripe of each stream of array a is closed (R297). -/
def State.closeStreams (s : State) (a : Nat) : State :=
  [0, 1, 2].foldl (fun (y : State) st => match (s.arr a).openOf st with | some i => y.closeStripe a i | none => y) s

/-- A rebuild stops with its array: its progress record stands on the members (R318, R319). -/
def Arr.stopRebuild (x : Arr) : Arr := { x with rebuild := { x.rebuild with state := 0 } }

/-- The writes to array a that stand in an ARR_STOP's FCLK (R302). -/
def State.lateWrites (s : State) (a : Nat) : List (Nat × Nat) :=
  s.pending.filterMap fun i => match i with
    | .volWrite id => if (s.cmd? id).any fun c => (s.vol (c.f 8 2)).array = a then some (0, id) else none
    | .nvmeWrite c cid nsid .. => if (s.nsVol (s.conn c).part nsid).any fun v => (s.vol v).array = a then some (1 + c, cid) else none
    | _ => none

/-- ARR_STOP (R297, R298, R302): the open stripes close, and the cache drains, with the writes that reach ARC in the same FCLK; a FAILED array
stops without. -/
def execArrStop (id : Nat) (s : State) : Out1 := withCmd s id 0x94 "no ARR_STOP with this id" fun c =>
  let a := c.f 8 1
  let x := s.arr a
  if !c.zeros [(9, 23)] then s.done id 0x0100
  else if 63 < a then s.done id 0x0105
  else if x.state = 5 then ((s.writeLabels a false).updArr a fun y => { y with state := 7 }.stopRebuild).done id 0
  else if x.state = 6 then s.done id 0x0201
  else if !([3, 4].contains x.state) then s.done id 0x0200
  else
    (((s.updArr a fun y => { y with state := 6, cmd := some id, late := s.lateWrites a }).writeLabels a false).phase id .running).closeStreams a

/-- ARR_DRAIN_COMPLETE (R297, R298). -/
def execArrDrainComplete (a : Nat) (s : State) : Out1 :=
  let x := s.arr a
  let waits := s.hif.cmds.any fun c =>
    (c.phase = waitSpace || (c.phase = waitLeaf && c.op = 0x21) || x.late.contains (0, c.id)) && (s.vol (c.f 8 2)).array = a
  let written := x.cache.isEmpty && x.reserved.isEmpty && x.stripes.all (fun e => e.2.state ≠ 1 && e.2.state ≠ 2)
  if !(a < 64 && x.state = 6 && s.arcRuns && written && !waits) then no "the array does not drain, or is not drained"
  else
    match s.checkpoint? a with
    | none => no "the checkpoint's pages cannot be written"
    | some t =>
      let s2 := (t.writeLabels a true).updArr a fun y => { y with state := 7, cmd := none, late := [] }.stopRebuild
      .next (match x.cmd with | some id => s2.done id 0 | none => s2)

/-- A STOPPED array is destroyed (R298, R304): its members are ATTACHED, its volumes, cache and map freed. -/
def State.destroyArr (s : State) (a : Nat) : State :=
  let s1 := (List.range 64).foldl (fun (y : State) z =>
    if (y.member z).array = a && [2, 3, 5].contains (y.member z).state then y.eraseLabels z else y) s
  let s2 := (s.mapsOf a).foldl (fun (y : State) v => y.setVol v {}) s1
  s2.setArr a {}

/-- A write of ARC_DESTROY, after the guard (R304). -/
def State.writeDestroy (s : State) (v : Word) : State :=
  let a := bits v.toNat 5 0
  let s1 := { s with arc := { s.arc with destroyArr := BitVec.ofNat 6 a } }
  if !bit v.toNat 31 then s1
  else if (s.arr a).state = 7 then
    let s2 := s1.destroyArr a
    { s2 with arc := { s2.arc with destroyDone := true, destroyRefused := false } }
  else { s1 with arc := { s1.arc with destroyDone := false, destroyRefused := true } }

/-- ARC_DESTROY_GO (R304): the write with GO = 1 (log entry 9). -/
def execArcDestroyGo (r : Req) (v : Word) (s : State) : Out1 :=
  busRow s r 0x330020 (v ||| 0x80000000) (s.gWrite r 0x330020 fun x => x.writeDestroy (v ||| 0x80000000))

/-- A write of ARC_MAPC (R303, R547); a value above 64 is discarded too (log entry 55). -/
def State.writeMapc (s : State) (v : Word) : State :=
  let g : BitVec 7 := v.setWidth 7
  if 64 < g.toNat || s.arc.arrays.any (fun e => e.2.state ≠ 0)
      || (mapGib s.arc.mapc < mapGib g && s.ownerRefused ((mapGib g - mapGib s.arc.mapc) * 512)) then s
  else { s with arc := { s.arc with mapc := g } }

/-- ARC_MAPC_WRITE (R303). -/
def execArcMapcWrite (r : Req) (v : Word) (s : State) : Out1 := busRow s r 0x330010 v (s.writeMapc v)

/-- A write of ARC_DP of port p, after the guard (R305); the reserved code 3 is discarded (log entry 55); links that BIF takes away are
down. -/
def State.writeDp (s : State) (p : Nat) (v : Word) : State :=
  let b : BitVec 2 := v.setWidth 2
  if b = 3 || s.arc.members.any (fun e => e.2.state ≠ 0 && e.2.dp.toNat = p) then s
  else
    let up := look 0 s.arc.up p &&& (if b = 0 then 1 else if b = 1 then 3 else 15)
    { s with arc := { s.arc with bifur := put 0 s.arc.bifur p (b - 2), up := put 0 s.arc.up p up } }

/-- ARC_DP_WRITE (R305). -/
def execArcDpWrite (r : Req) (p : Nat) (v : Word) (s : State) : Out1 :=
  if 5 < p then no "no such drive port" else busRow s r (0x330100 + 4 * p) v (s.gWrite r (0x330100 + 4 * p) fun x => x.writeDp p v)

/-! ## Volumes (R295, R296, R299) -/

/-- Whether a bound run names a volume (R299). -/
def State.volNamed (s : State) (v : Nat) : Bool :=
  s.runs.any fun r => match s.planOf r with
    | none => false
    | some pl => (pl.params.zip r.params).any fun e => e.1.byref && e.2.any fun b => fieldLE b 12 2 = 1 && fieldLE b 14 2 = v

/-- Whether the pinned roots with n more root pages leave 1,024 leaf pages (R296). -/
def State.rootsFit (s : State) (but : Option Nat) (n : Nat) : Bool :=
  let roots := s.arc.vols.foldl (fun k e => if e.2.state = 1 && some e.1 ≠ but then k + rootPages e.2.vblk else k) 0
  roots + n + 1024 ≤ mapGib s.arc.mapc * 16384

/-- VOL_CREATE, up to its check (R295, R296). -/
def execVolCreate (id : Nat) (s : State) : Out1 := withCmd s id 0x98 "no VOL_CREATE with this id" fun c =>
  let v := c.f 8 2
  if !c.zeros [(14, 2), (24, 8)] || c.f 11 1 / 2 ≠ 0 then s.done id 0x0100
  else if 16383 < v || 63 < c.f 10 1 then s.done id 0x0105
  else if (s.vol v).state ≠ 0 then s.done id 0x0200
  else (s.phase id .checking).queueCheck .arc (.volCreate id)

/-- The reason of VOL_CREATE's check (R296). -/
def State.volReason (s : State) (c : Cmd) : Nat :=
  let a := c.f 10 1
  let x := s.arr a
  let shared := bit (c.f 11 1) 0
  let p := c.f 12 2
  let n := c.f 16 8
  pickReason
    [(n = 0 || 2 ^ 36 < n || (!shared && 4095 < p), 0x3001),
     (!([3, 4].contains x.state) || (!shared && p < 4096 && !tri (s.part p).en), 0x3002), ((s.vol (c.f 8 2)).state ≠ 0, 0x3005),
     (!s.rootsFit none (rootPages n), 0x3016), (volumeBlocks x.rsv x.k x.s < s.vblkSum a none + n, 0x3017)]

/-- The end of VOL_CREATE's check. -/
def State.volCreateEnd (s : State) (id : Nat) : State :=
  match s.cmd? id with
  | none => s.checkDone .arc 0 0
  | some c =>
    let v := c.f 8 2
    let n := s.volReason c
    if n ≠ 0 then s.arcFail id n v 0
    else
      let shared := bit (c.f 11 1) 0
      let s1 := s.setVol v { state := 1, array := c.f 10 1, shared := shared, owner := if shared then 0x1000 else BitVec.ofNat 13 (c.f 12 2)
                             vblk := c.f 16 8, leaves := [{ first := 0, resident := true, dirty := true, used := 0 }], rootDirty := true }
      (((s1.writeSys (c.f 10 1)).checkDone .arc 0 v).done id 0)

/-- VOL_RESIZE, up to its check (R295, R296). -/
def execVolResize (id : Nat) (s : State) : Out1 := withCmd s id 0x9A "no VOL_RESIZE with this id" fun c =>
  let v := c.f 8 2
  if !c.zeros [(10, 6), (24, 8)] then s.done id 0x0100
  else if 16383 < v then s.done id 0x0105
  else if (s.vol v).state ≠ 1 then s.done id 0x0200
  else (s.phase id .checking).queueCheck .arc (.volResize id)

/-- The journal with room for n more bytes: a checkpoint frees it where it has none (R280, R288; log entry 177). -/
def State.withRoom (s : State) (a n : Nat) : State := if (s.arr a).room n then s else s.checkpoint a

/-- The end of VOL_RESIZE's check (R296, R299): a smaller volume deallocates the blocks beyond. -/
def State.volResizeEnd (s : State) (id : Nat) : State :=
  match s.cmd? id with
  | none => s.checkDone .arc 0 0
  | some c =>
    let v := c.f 8 2
    let x := s.vol v
    let a := x.array
    let n := c.f 16 8
    let r := pickReason
      [(n = 0 || 2 ^ 36 < n, 0x3001), (x.state ≠ 1 || !([3, 4].contains (s.arr a).state), 0x3002),
       (!s.rootsFit (some v) (rootPages n), 0x3016),
       (volumeBlocks (s.arr a).rsv (s.arr a).k (s.arr a).s < s.vblkSum a (some v) + n, 0x3017)]
    if r ≠ 0 then s.arcFail id r v 0
    else
      let s1 := if n < x.vblk then (s.withRoom a 48).trim v 2 n (x.vblk - n) else s
      let s2 := s1.updVol v fun y =>
        { y with vblk := n, leaves := y.leaves.filter (fun l => l.first < n || l.first = 0), roots := y.roots.take (rootPages n), rootDirty := true }
      (((s2.writeSys a).checkDone .arc 0 v).done id 0)

/-- Whether a volume command on v is in flight, besides command id (R299). -/
def State.volBusy (s : State) (v id : Nat) : Bool :=
  s.hif.cmds.any fun c => c.id ≠ id && 0x20 ≤ c.op && c.op ≤ 0x24 && c.f 8 2 = v

/-- VOL_DESTROY's map and record dropped (R299): the journal says that its blocks are deallocated (log entry 56). -/
def State.dropVol (s : State) (v : Nat) : State :=
  let a := (s.vol v).array
  ((((s.withRoom a 48).trim v 2 0 (s.vol v).vblk).setVol v {}).recount a).writeSys a

/-- A command on an existing volume, which waits for the volume's commands in flight: the row that fetched it again is the end
of the wait (log entry 56). -/
def volAdmin (s : State) (id op : Nat) (what : String) (zeros : Cmd → Bool) (ok : Cmd → Bool) (begin_ finish : Cmd → Nat → State → State) : Out1 :=
  match s.cmd? id with
  | none => no what
  | some c =>
    let v := c.f 8 2
    if c.op = op && c.phase = .running then
      when_ (!s.volBusy v id && s.arcRuns) "commands on the volume are in flight" ((finish c v s).done id 0)
    else withCmd s id op what fun c =>
      if !zeros c then s.done id 0x0100
      else if 16383 < v || !ok c then s.done id 0x0105
      else if (s.vol v).state ≠ 1 || !([3, 4, 5].contains (s.arr (s.vol v).array).state) then s.done id 0x0200
      else if (s.vol v).waiter.isSome then s.done id 0x0201
      else if (s.vol v).exported.isSome || s.volNamed v then s.done id 0x0202
      else
        let s1 := begin_ c v s
        if s1.volBusy v id then (s1.updVol v fun x => { x with waiter := some id }).phase id .running else (finish c v s1).done id 0

/-- VOL_DESTROY (R299). -/
def execVolDestroy (id : Nat) (s : State) : Out1 :=
  volAdmin s id 0x99 "no VOL_DESTROY with this id" (fun c => c.zeros [(10, 22)]) (fun _ => true)
    (fun _ v x => x.updVol v fun y => { y with state := 2 }) (fun _ v x => x.dropVol v)

/-- VOL_OWNER (R299). -/
def execVolOwner (id : Nat) (s : State) : Out1 :=
  volAdmin s id 0x9B "no VOL_OWNER with this id" (fun c => c.zeros [(10, 1), (14, 18)] && c.f 11 1 / 2 = 0)
    (fun c => bit (c.f 11 1) 0 || c.f 12 2 ≤ 4095) (fun _ _ x => x)
    (fun c v x => (x.updVol v fun y =>
      { y with shared := bit (c.f 11 1) 0, owner := if bit (c.f 11 1) 0 then 0x1000 else BitVec.ofNat 13 (c.f 12 2), waiter := none }).writeSys (x.vol v).array)

/-! ## ARR_LOSTLIST (R334) -/

/-- LOST runs that touch, joined. -/
def joinLost : List Extent → List (Nat × Nat)
  | [] => []
  | e :: r =>
    match joinLost r with
    | [] => [(e.vlba, e.len)]
    | (l, n) :: t => if e.stop = l then (e.vlba, e.len + n) :: t else (e.vlba, e.len) :: (l, n) :: t

/-- ARR_LOSTLIST (R334). -/
def execArrLostlist (id : Nat) (s : State) : Out1 :=
  if (s.cmd? id).any s.hostWaits then no "the command waits for its function"
  else withCmd s id 0x9E "no ARR_LOSTLIST with this id" fun c =>
    let a := c.f 8 1
    if !c.zeros [(9, 3), (24, 8)] then s.done id 0x0100
    else if 63 < a || c.f 16 8 % 64 ≠ 0 then s.done id 0x0105
    else if (s.arr a).state < 3 then s.done id 0x0200
    else
      let all := (s.volsOf a).flatMap fun v => (joinLost ((s.vol v).map.filter (·.kind = 2))).map fun e => (v, e.1, e.2)
      let now := all.take (c.f 12 4)
      let bs := now.flatMap fun e => natLE 2 e.1 ++ natLE 2 0 ++ natLE 4 e.2.2 ++ natLE 8 e.2.1
      (s.hostWrite c.fn (c.f 16 8) bs).complete id 0 (BitVec.ofNat 32 now.length) (BitVec.ofNat 32 all.length)

end Sys2Proof.Machine
end

