-- ==== Sys2Proof/Machine/ArcPower.lean ====
section
/-! DEFINITION. Machine/ArcPower.lean: power loss, the vault, import and replay (R326 to R333, R512). -/

namespace Sys2Proof.Machine

/-! ## The freeze (R327 to R329) -/

/-- Image blocks of an array with ns positions in service: the ring, and the in-use cache blocks as far as X_MAX allows (R329). -/
def Arr.imageLen (x : Arr) (ns : Nat) : Nat := min (4096 + x.cache.length) (ns * ((x.vault.toNat - 1) * 0x100000) / 8192)

/-- Image block i of an array: the journal ring as it stands, then the in-use cache blocks in ascending index (R329). -/
def Arr.imageBlock (x : Arr) (i : Nat) : List Byte :=
  if i < 4096 then ringBlock x.journal i else (((x.cache[i - 4096]?).bind (·.2)).map (·.data)).getD zeroBlock

/-- The vault header of the member with a VIDX, of an array frozen with its streams named (R326, R327). -/
def Arr.vaultHdr (x : Arr) (alm : DWord) (vidx : Nat) : VaultHdr :=
  { arrayId := x.arrayId, ckptSeq := x.ckptSeq, freezeSeq := x.freezeSeq, alm := alm, x := x.imageLen x.streams.length
    cblk := x.cacheU.toNat * 65536, jtail := x.jpos, ns := x.streams.length, vidx := vidx }

/-- The headers and in-use bitmaps of an array's vault on every member in service, which are numbered in ascending position (R326 to
R329). -/
def State.vaultHeaders (s : State) (a : Nat) : State :=
  let s1 := s.updArr a fun y => { y with freezeSeq := y.nextSeq - 1, isSealed := false, streams := s.upMembers a, seals := [] }
  let x := s1.arr a
  let used := (x.cache.take (x.imageLen x.streams.length - 4096)).map (·.1)
  let map := (List.range 32).flatMap (bitmapBlock used)
  x.streams.zipIdx.foldl (fun (y : State) e => (y.writeMember e.1 hdrBlk (x.vaultHdr s.clk.alm e.2).bytes).writeMember e.1 bitmapBlk map) s1

/-- An array that has nothing to vault says so on its members (R330; log entry 44). -/
def State.nothingToVault (s : State) (a : Nat) : State :=
  (s.upMembers a).foldl (fun (y : State) z => y.updMember z fun w =>
    { w with sys := w.sys.map fun r => { r with covered := some (s.arr a).ckptSeq } }) s

/-- What the freeze writes for array a (R327, R328, R330). -/
def State.freezeArr (s : State) (a : Nat) : State :=
  let x := s.arr a
  if s.vaulted a then s.vaultHeaders a else if 3 ≤ x.state && x.state ≠ 7 && x.flushed then s.nothingToVault a else s

/-- FREEZE (R327, R328): FREEZE_SEQ is latched, the headers are written, the tiles are gated; with nothing to write the device is
VAULTED at once. -/
def execFreeze (s : State) : Out1 :=
  if !(s.arc.pf = 0 && !(look {} s.evc.pins 0).flt) then no "PWRFAIL_N is not low, or the device is frozen"
  else
    let s1 := (List.range 64).foldl (fun (y : State) a => y.freezeArr a) s
    let s2 := { s1 with arc := { s1.arc with pf := 1, freezeAlm := s.clk.alm }, net := { s1.net with conns := [], ctrls := [] } }
    .next (s2.onTiles 0 fun t => { t with gated := true }).settleVault

/-- The slots that the member with a VIDX writes, in order: write w = 2x + c goes to VIDX w mod ns, slot w / ns (R329). -/
def Arr.imageSlots (x : Arr) (vidx : Nat) : List (List Byte) :=
  let ns := x.streams.length
  (List.range (slotsOfVidx (x.imageLen ns) ns vidx)).map fun t => x.imageBlock ((t * ns + vidx) / 2)

/-- VAULT_SEAL (R328): a member's stream has completed and its seal record is written. -/
def execVaultSeal (a n : Nat) (s : State) : Out1 :=
  let x := s.arr a
  match x.streams.findIdx? (· = n) with
  | none => no "the member writes no stream"
  | some v =>
    let slots := x.imageSlots v
    when_ (s.arc.pf = 1 && a < 64 && s.memberUp a n && s.vaulted a && !x.seals.contains n) "the member writes no stream"
      (((s.writeMember n (imageBlk 0) slots.flatten).writeMember n sealBlk (sealBytes (x.vaultHdr s.arc.freezeAlm v) slots)).updArr a fun y =>
        { y with seals := y.seals ++ [n] }).settleVault

/-! ## ARR_IMPORT (R295 to R298) -/

/-- The labels that stand on the members of a mask. -/
def State.labelsIn (s : State) (mask : Nat) : List (Nat × Label) :=
  (maskList mask).filterMap fun y => ((s.member y).label).map fun l => (y, l)

/-- The members' reads of both labels (R264, R268). -/
def State.readLabels (s : State) (mask : Nat) : State :=
  (maskList mask).foldl (fun (y : State) n => if (y.member n).works then (y.sendRead n (labelBlk 0) 1).sendRead n (labelBlk 1) 1 else y) s

/-- The newest of labels. -/
def newestLabel (ls : List (Nat × Label)) : Option Label :=
  ls.foldl (fun (b : Option Label) e => match b with
    | some l => if l.seq < e.2.seq then some e.2 else b
    | none => some e.2) none

/-- The settings that a member keeps (log entry 44). -/
def State.sysOf (s : State) (ls : List (Nat × Label)) (l : Label) : Option SysRec :=
  ((ls.filter (·.2.seq = l.seq)).filterMap fun e => (s.member e.1).sys).head?

/-- ARR_IMPORT, up to its check (R296, R298). -/
def execArrImport (id : Nat) (s : State) : Out1 := withCmd s id 0x93 "no ARR_IMPORT with this id" fun c =>
  let a := c.f 8 1
  if !c.zeros [(9, 7), (24, 8)] then s.done id 0x0100
  else if 63 < a then s.done id 0x0105
  else if (s.arr a).state ≠ 0 && (s.arr a).state ≠ 7 then s.done id 0x0200
  else
    ((s.updArr a fun x => { x with prev := x.state, state := 1, cmd := some id }).phase id .checking).queueCheck .arc (.arrImport id)

/-- Whether a member that answers is a rebuild's target (R268, R316): its label says so, or its position is a failed one; of a reshape's
leaving position, a member in service has a progress record, a target none (R324). -/
def State.isTarget (s : State) (l : Label) (e : Nat × Label) : Bool :=
  e.2.state = 2 || (if e.2.pos < 36 then l.failed.getLsbD e.2.pos else ((s.member e.1).progress l.arrayId).isEmpty)

/-- The members in service among those that answer with the newest label l. -/
def State.importUp (s : State) (ls : List (Nat × Label)) (l : Label) : List Nat :=
  (ls.filter fun e => e.2.seq = l.seq && !s.isTarget l e).map (·.1)

/-- The write cache of an imported array, in units (R281; log entry 44). -/
def State.importCache (s : State) (ls : List (Nat × Label)) (l : Label) : BitVec 5 :=
  match s.sysOf ls l with | some r => r.cacheU | none => 1

/-- The reason of ARR_IMPORT's check (R296; log entry 58). -/
def State.importReason (s : State) (c : Cmd) : Nat :=
  let a := c.f 8 1
  let ls := s.labelsIn (c.f 16 8)
  let free := fun (y : Nat) => (s.member y).state = 1 || ([2, 3, 5].contains (s.member y).state && (s.member y).array = a)
  match newestLabel ls with
  | none => 0x3018
  | some l =>
    let now := ls.filter fun e => e.2.seq = l.seq && e.2.state ≠ 2 && e.2.pos < 36 && !l.failed.getLsbD e.2.pos
    let sys := s.sysOf ls l
    let cu := (s.importCache ls l).toNat
    let up := s.importUp ls l
    let x := s.arr a
    let held := if x.prev = 0 then 0 else x.cacheU.toNat * 128 + 8
    let roots := ((sys.map (·.vols)).getD []).foldl (fun n v => n + rootPages v.2.2.2) 0
    pickReason
      [(sys.any (·.mirror) && !s.plk.mirEn, 0x3002),
       ((maskList (c.f 16 8)).any (fun y => !free y), 0x3011), (ls.any (fun e => !(s.member e.1).nsOk), 0x3012), (!s.flushOk up cu, 0x3013),
       (16 < s.cacheUnits a + cu, 0x3014), (!vaultOk (max (l.k + l.m) up.length) l.vault cu, 0x3015),
       ((s.arr a).prev = 0 && !s.rootsFit none roots, 0x3016),
       (ls.any (fun e => e.2.arrayId ≠ l.arrayId) || twice (now.map (·.2.pos)) || now.length < l.k, 0x3018),
       (held < cu * 128 + 8 && s.ownerRefused (cu * 128 + 8 - held), 0x3019)]

/-- The end of ARR_IMPORT's check (R266, R296, R298, R396, R464): the members that answer take their positions, the cache's pages are taken, and
the array replays; of a MIRROR array the partner is asked for its copy. -/
def State.arrImportEnd (s0 : State) (id : Nat) : State :=
  match s0.cmd? id with
  | none => s0.checkDone .arc 0 0
  | some c =>
    let s := s0.readLabels (c.f 16 8)
    let a := c.f 8 1
    let n := s.importReason c
    let ls := s.labelsIn (c.f 16 8)
    if n ≠ 0 then
      let largest := match newestLabel ls with | some l => s.largestCache (s.importUp ls l) | none => 0
      (s.updArr a fun x => { x with state := x.prev, cmd := none }).arcFail id n a largest
    else
      match newestLabel ls with
      | none => s
      | some l =>
        let now := ls.filter fun e => e.2.seq = l.seq
        let target := s.isTarget l
        let s1 := now.foldl (fun (y : State) e => y.updMember e.1 fun w =>
          { w with state := if target e then 5 else 3, array := a, pos := e.2.pos % 64 }) s
        let s2 := s1.updArr a fun x =>
          let y : Arr := if x.prev = 7 && x.arrayId = l.arrayId then x else { prev := 0, cacheU := s.importCache ls l }
          { y.setMembers ((List.range (l.k + l.m)).map fun p =>
              match now.find? (fun e => e.2.pos = p && !target e) with
              | some e => (e.1, true)
              | none => (0, false)) with
            state := 2, fault := false, geom := Tri.of (geomWord y.rsv l.k l.m), s := l.s, vault := BitVec.ofNat 16 l.vault, arrayId := l.arrayId
            labelSeq := l.seq, cmd := some id }
        let s3 := if (s.sysOf ls l).any (·.mirror) && s.reaches s.partner then s2.plkSend s2.partner (.plkAsk l.arrayId) else s2
        (s3.phase id .running).checkDone .arc 0 a

/-! ## Replay: what stands on the members (R324, R332 step 1) -/

/-- The newest of checkpoints. -/
def newestCkpt (cs : List Ckpt) : Option Ckpt :=
  cs.foldl (fun (b : Option Ckpt) e => match b with
    | some x => if x.seq < e.seq then some e else b
    | none => some e) none

/-- The newest of progress records. -/
def newestProgress (ps : List Progress) : Option Progress :=
  ps.foldl (fun (b : Option Progress) e => match b with
    | some x => if x.pseq < e.pseq then some e else b
    | none => some e) none

/-- The members an array has taken at its import, those that leave it among them. -/
def State.importedMembers (s : State) (a : Nat) : List Nat :=
  (List.range 64).filter fun y => [3, 5].contains (s.member y).state && (s.member y).array = a

/-- The progress record that stands on any member of an array (R326). -/
def State.progress (s : State) (a : Nat) : Option Progress :=
  newestProgress ((s.importedMembers a).flatMap fun y => (s.member y).progress (s.arr a).arrayId)

/-- Both geometries of an array whose reshape was under way, from the progress records: the labels name the new one alone (R322, R324,
R325); a member that has failed keeps one name in both sets. -/
def State.restoreGeometry (s : State) (a : Nat) : State :=
  match s.progress a with
  | none => s
  | some q =>
    if q.rsPhase = 0 then s
    else
      let x := s.arr a
      let olds := (s.importedMembers a).filter fun y => (s.member y).state = 3
      let pairs := (((s.importedMembers a).filterMap fun y => (s.member y).sys).head?.map (·.pairs)).getD []
      let oldPos := (List.range (q.kOld + q.mOld)).map fun i =>
        match olds.find? fun y => (newestProgress ((s.member y).progress x.arrayId)).any fun z => z.oldPos = some i with
        | some y => (y, true)
        | none => (0, false)
      s.updArr a fun y =>
        { y.setMembers oldPos with
          geom := Tri.of (geomWord y.rsv q.kOld q.mOld), s := q.sOld
          reshape := { state := if q.rsPhase = 2 then 3 else 1, k := x.k, m := x.m, pairs := pairs
                       pos := x.members.map fun z => if z < 64 then z else failedName ((pairs.find? (·.2 = z - 64)).map (·.1)) 0 (z - 64)
                       s := x.s, b := q.bd, bd := q.bd, rate := 20, moved := q.moved } }

/-- Slots taken to be SEALED while their pages are read, until the maps say which are (R332). -/
def State.assume (s : State) (a : Nat) (abns : List Nat) : State :=
  s.updArr a fun x => abns.foldl (fun (y : Arr) n => y.updStripe (y.slotAt n) fun w => { w with state := 3 }) x

/-- The members' reads of pages whose first blocks have these ABNs (R264). -/
def State.readPages (s : State) (a : Nat) (abns : List Nat) : State :=
  let t := s.assume a abns
  s.sendReads (abns.flatMap fun n => (List.range 16).flatMap fun i => (t.readAbn a (n + i)).reads)

/-- The members' reads of what the control areas hold: checkpoints, progress, vault headers, bitmaps, seals and images (R264, R332). -/
def State.readControl (s : State) (a : Nat) : State :=
  (s.importedMembers a).foldl (fun (y : State) n =>
    let image := match ((s.member n).blocks hdrBlk 1).bind vaultHdrOf with | some h => slotsOfVidx h.x h.ns h.vidx | none => 0
    let y1 := [(ckptBlk 0, 64), (ckptBlk 1, 64), (progBlk 0, 1), (progBlk 1, 1), (hdrBlk, 1), (bitmapBlk, 32), (sealBlk, 1)].foldl
      (fun (z : State) r => z.sendRead n r.1 r.2) y
    if image = 0 then y1 else y1.sendRead n (imageBlk 0) image) s

/-- The 64 KiB page whose first block has an ABN; none where a block of it cannot be read. -/
def State.pageAt (s : State) (a abn : Nat) : Option (List Byte) :=
  (List.range 16).foldl (fun (p : Option (List Byte)) i => p.bind fun bs => match (s.readAbn a (abn + i)).res with
    | .ok d => some (bs ++ d)
    | .error _ => none) (some [])

/-- The runs of the system volume that a checkpoint's directory pages give (R276, R332). -/
def State.directory (s : State) (a : Nat) (c : Ckpt) : List Extent :=
  let t := s.assume a c.dirs
  c.dirs.zipIdx.flatMap fun e => ((t.pageAt a e.1).map (dirRuns e.2)).getD []

/-- The pages that the system volume's runs name: page, and VOLUME, LEVEL, FIRST_VLBA and entries; none where it cannot be read or is not good. -/
def State.pagesOf (s : State) (a : Nat) (m : List Extent) : List (Nat × Option (Nat × Nat × Nat × List Nat)) :=
  let ps := m.flatMap fun e => (List.range (e.len / 16)).map fun i => (e.vlba / 16 + i, e.abn + 16 * i)
  let t := s.assume a (ps.map (·.2))
  ps.map fun p => (p.1, (t.pageAt a p.2).bind pageOf)

/-! ## Replay: the journal (R332, R333) -/

/-- What replay works on: the maps, and what it counts. -/
structure Replay where
  maps : List (Nat × List Extent)
  lost : Nat := 0
  lostWrites : Nat := 0
  unordered : Bool := false

/-- A volume's map. -/
def Replay.map (r : Replay) (v : Nat) : List Extent := ((r.maps.find? (·.1 = v)).map (·.2)).getD []
/-- A volume's map replaced; a volume that is no more has none. -/
def Replay.setMap (r : Replay) (v : Nat) (m : List Extent) : Replay :=
  if r.maps.any (·.1 = v) then { r with maps := r.maps.filter (·.1 ≠ v) ++ [(v, m)] } else r

/-- Blocks of a volume marked LOST by a record of this SEQ. -/
def Replay.lose (r : Replay) (v lba n seq : Nat) : Replay :=
  { r.setMap v (mapSet (r.map v) ⟨lba, n, 2, 0, seq40 seq⟩) with lost := r.lost + n }

/-- Whether a record later than q covers a block (R284). -/
def coveredLater (js : List JRec) (v lba q : Nat) : Bool :=
  js.any fun r => q < r.seq && match r.body with
    | .write w _ _ l bs => w = v && l ≤ lba && lba < l + bs.length
    | .trim w _ l n => w = v && l ≤ lba && lba < l + n
    | _ => false

/-- A journal record applied in SEQ order (R278, R293, R332 steps 5 and 7); `gap` is true after a missing range, and a move
that then finds its block elsewhere or unmapped cannot be applied in order (log entry 59). -/
def Replay.apply (js : List JRec) (r : Replay) (q : JRec) (gap : Bool) : Replay :=
  match q.body with
  | .mapDelta v es => r.setMap v (es.foldl mapSet (r.map v))
  | .moveDelta v e victim =>
    match mapAt (r.map v) e.vlba with
    | some x =>
      if x.kind = 0 && x.abn + (e.vlba - x.vlba) = victim then r.setMap v (mapSet (r.map v) e)
      else if gap && x.seq ≤ e.seq then { r.lose v e.vlba e.len e.seq with unordered := true }
      else r
    | none => if gap && !coveredLater js v e.vlba e.seq then { r.lose v e.vlba e.len e.seq with unordered := true } else r
  | .trim v kind lba n =>
    r.setMap v (if kind = 1 then mapSet (r.map v) ⟨lba, n, 1, 0, seq40 q.seq⟩ else mapDrop (r.map v) lba (lba + n) (seq40 q.seq))
  | _ => r

/-- A WRITE record of a volume that stands checked (R332 step 6): each block mapped with a SEQ at least its own, held in a recovered cache block, or
covered by a later record; otherwise every block of the write is LOST. -/
def Replay.check (js : List JRec) (cache : SMap (Option CBlk)) (r : Replay) (q : JRec) : Replay :=
  match q.body with
  | .write v _ _ lba bs =>
    let ok := bs.zipIdx.all fun e =>
      (mapAt (r.map v) (lba + e.2)).any (fun x => seq40 q.seq ≤ x.seq)
        || (look none cache e.1).any (fun b => b.seq = q.seq && b.vol = v && b.lba = lba + e.2)
        || coveredLater js v (lba + e.2) q.seq
    if ok || !r.maps.any (·.1 = v) then r else { r.lose v lba bs.length q.seq with lostWrites := r.lostWrites + 1 }
  | _ => r

/-- The ranges of SEQ between first and last that no record of a rising list has. -/
def gapsIn : List Nat → Nat → Nat → List (Nat × Nat)
  | [], lo, hi => if lo ≤ hi then [(lo, hi)] else []
  | q :: r, lo, hi => if lo < q then (lo, q - 1) :: gapsIn r (q + 1) hi else gapsIn r (q + 1) hi

/-- The image that the usable vaults of a freeze give (R329, R330, R332 steps 3 and 4). -/
structure Image where
  journal : List JRec
  cache : SMap (Option CBlk)
  freezeSeq : Nat
  alm : DWord
  x : Nat
  fromCopy1 : Nat
  blocksLost : Nat
  missing : List (Nat × Nat)

/-- The header of a member's vault where its copies are usable: header and seal name the array and the checkpoint, and the slots match
STREAM_CRC (R332 step 3). -/
def Member.usableVault (w : Member) (arrayId : BitVec 128) (ckptSeq : Nat) : Option VaultHdr :=
  ((w.blocks hdrBlk 1).bind vaultHdrOf).filter fun h =>
    h.arrayId = arrayId && h.ckptSeq = ckptSeq
      && ((w.blocks sealBlk 1).any fun b => sealGood h b fun n => (List.range n).map fun t => w.block (imageBlk t))

/-- A record of a volume that outlives the runs: a command's, or the system volume (log entry 91). -/
def JBody.stands (a : Nat) : JBody → Bool
  | .mapDelta v _ => realVol v || v = sysVol a
  | .moveDelta v _ _ => realVol v || v = sysVol a
  | .write v _ _ _ _ => realVol v
  | .trim v _ _ _ => realVol v || v = sysVol a
  | _ => true

/-- The cached block that image bytes at a cache index are: the newest WRITE record that names the index and is not done says (R287,
R332 step 6). -/
def cachedBlock (ws : List JRec) (ix : Nat) (d : List Byte) : Option CBlk :=
  (ws.reverse.findSome? fun q => match q.body with
    | .write v ctx gen lba bs => (bs.findIdx? (· = ix)).map fun k => (v, ctx, gen, lba + k, q.seq)
    | _ => none).map fun e =>
      { vol := e.1, lba := e.2.2.2.1, seq := e.2.2.2.2, ctx := e.2.1, gen := e.2.2.1, data := d, placed := none, committed := false, superseded := false }

/-- WRITE records of volumes that stand whose space no WRITE_DONE releases. -/
def openWrites (a : Nat) (js : List JRec) : List JRec :=
  let past := js.filterMap fun q => match q.body with | .writeDone n => some n | _ => none
  js.filter fun q => (match q.body with | .write .. => q.body.stands a | _ => false) && !past.contains q.seq

/-- The SEQ of a checkpoint's own record. -/
def ckptRecord (js : List JRec) (n : Nat) : Option Nat :=
  (js.find? fun q => match q.body with | .checkpoint m _ => m = n | _ => false).map (·.seq)

/-- The image read back from the members of array a that hold a sealed copy: copy 0 of each block, or else copy 1 (R332 step 4); what of SEQ
`first` to FREEZE_SEQ no record has is missing (R333). -/
def State.imageOf (s : State) (a first : Nat) (vs : List (Nat × VaultHdr)) : Option Image :=
  match vs.foldl (fun (b : Option VaultHdr) e => match b with
    | some v => if v.freezeSeq < e.2.freezeSeq then some e.2 else b
    | none => some e.2) none with
  | none => none
  | some v =>
    let at_ := fun (w : Nat) => (vs.find? fun e => e.2.freezeSeq = v.freezeSeq && e.2.vidx = w % v.ns).map fun e => (s.member e.1).block (imageBlk (w / v.ns))
    let blk := fun (x : Nat) => if v.x ≤ x then none else (at_ (2 * x)).orElse fun _ => at_ (2 * x + 1)
    let js := (sortRecs (recordsIn a blk)).filter fun r => r.seq ≤ v.freezeSeq
    let ixs := ((vs.findSome? fun e => if e.2.freezeSeq = v.freezeSeq then (s.member e.1).blocks bitmapBlk 32 else none).map fun b =>
      bitmapOf ((List.range 32).map fun j => sub b (4096 * j) 4096)).getD []
    some
      { journal := js
        cache := ixs.zipIdx.filterMap fun e => (blk (4096 + e.2)).bind fun d => (cachedBlock (openWrites a js) e.1 d).map fun c => (e.1, some c)
        freezeSeq := v.freezeSeq, alm := v.alm, x := v.x
        fromCopy1 := ((List.range v.x).filter fun x => (at_ (2 * x)).isNone && (at_ (2 * x + 1)).isSome).length
        blocksLost := ((List.range v.x).filter fun x => (blk x).isNone).length
        missing := gapsIn ((js.map (·.seq)).filter (first ≤ ·)) first v.freezeSeq }

/-- A journal whose WRITE records that stand name cache places of their own, from 0 on (R287, R464). -/
def renumbered (a : Nat) (js : List JRec) : List JRec :=
  let stand := (openWrites a js).map (·.seq)
  (js.foldl (fun (p : List JRec × Nat) r => match r.body with
    | .write v c g l bs =>
      if stand.contains r.seq then (p.1 ++ [{ r with body := .write v c g l ((List.range bs.length).map (· + p.2)) }], p.2 + bs.length)
      else (p.1 ++ [r], p.2)
    | _ => (p.1 ++ [r], p.2)) ([], 0)).1

/-- The image that the partner's copy of an array gives (R464): its journal, and the blocks of the WRITE records that stand. -/
def State.copyImage (s : State) (a : Nat) (ckptSeq : Nat) : Option Image :=
  ((s.plk.answers.find? (·.1 = (s.arr a).arrayId)).map (·.2)).map fun c =>
    let js := renumbered a (sortRecs c.1)
    let block := fun (v lba q : Nat) => c.2.find? fun b => b.vol = v && b.lba = lba && b.seq = q
    let cache := (openWrites a js).flatMap fun q => match q.body with
      | .write v ctx gen lba bs => bs.zipIdx.filterMap fun e => (block v (lba + e.2) q.seq).map fun b =>
          (e.1, ({ vol := v, lba := lba + e.2, seq := q.seq, ctx := ctx, gen := gen, data := b.data, placed := none, committed := false
                   superseded := false } : CBlk))
      | _ => []
    let top := c.1.foldl (fun n r => max n r.seq) 0
    let lo := (ckptRecord js ckptSeq).getD 1
    { journal := js, cache := cache.foldl (fun m e => put none m e.1 (some e.2)) [], freezeSeq := top, alm := 0, x := 0, fromCopy1 := 0
      blocksLost := 0, missing := gapsIn (((sortRecs c.1).map (·.seq)).filter (lo ≤ ·)) lo top }

/-- The source of a replay: of the vault's image and the partner's copy the one that reaches the higher SEQ (R464). -/
def newerImage (vault copy : Option Image) : Option Image :=
  match vault, copy with
  | some v, some c => if v.freezeSeq < c.freezeSeq then some c else some v
  | v, c => v.or c

/-- The maps of an array with the journal's records after the checkpoint applied (R280, R332 step 5). -/
def replayMaps (c : Ckpt) (i : Image) (maps : List (Nat × List Extent)) : Replay :=
  let from_ := (ckptRecord i.journal c.seq).getD 0
  i.journal.foldl (fun r q => if from_ < q.seq then r.apply i.journal q (i.missing.any fun m => m.1 < q.seq) else r) { maps := maps }

/-- The cache and the maps after the WRITE records are checked (R332 steps 5 to 7). -/
def replayImage (c : Ckpt) (i : Image) (maps : List (Nat × List Extent)) : Replay × SMap (Option CBlk) :=
  let r1 := replayMaps c i maps
  let r2 := i.journal.foldl (Replay.check i.journal i.cache) r1
  let cache := (i.cache.filter fun e => match e.2 with
      | some b => (mapAt (r2.map b.vol) b.lba).all (fun x => !(x.kind = 2 && x.seq = seq40 b.seq))
      | none => false).map fun (e : Nat × Option CBlk) =>
    (e.1, e.2.map fun b => { b with committed := (mapAt (r2.map b.vol) b.lba).any fun x => seq40 b.seq ≤ x.seq
                                    superseded := coveredLater i.journal b.vol b.lba b.seq })
  (r2, cache)

/-- The leaves that a volume's pages give, by rising first block: none held, dirty where the page is not what the map now is (R276, R279). -/
def leavesOf (vblk : Nat) (m : List Extent) (ps : List (Nat × Nat × List Nat)) : List Leaf :=
  let ls := ps.foldr (fun e (l : List (Leaf × List Nat)) =>
    let x : Leaf := { first := e.2.1, resident := false, dirty := false, used := 0, page := some e.1 }
    l.takeWhile (fun y => y.1.first < x.first) ++ (x, e.2.2) :: l.dropWhile (fun y => y.1.first < x.first)) []
  let all : List (Leaf × List Nat) := if ls.any (·.1.first = 0) then ls else ({ first := 0, resident := false, dirty := true, used := 0 }, []) :: ls
  (leafSpans vblk (all.map (·.1))).zip (all.map (·.2)) |>.map fun e => { e.1.1 with dirty := e.1.1.page.isNone || leafEntries m e.1.1.first e.1.2 ≠ e.2 }

/-- The settings and volumes of an imported array placed (log entry 44); where no member keeps them, the defaults of R295. -/
def State.placeSys (s : State) (a : Nat) (r : Option SysRec) (maps : List (Nat × List Extent)) (pages : List (Nat × Nat × Nat × Nat × List Nat)) :
    State :=
  let s1 := s.updArr a fun x => match r with
    | some y => { x with geom := Tri.of (geomWord y.rsv x.k x.m), cacheU := y.cacheU, mirror := y.mirror, scanchk := y.scanchk
                         hvThresh := y.hvThresh, hvRate := y.hvRate, closeUs := y.closeUs, spares := y.spares }
    | none => { x with geom := Tri.of (geomWord 10 x.k x.m), cacheU := 1, hvThresh := 75, hvRate := 20, closeUs := 1000 }
  let map := fun (v : Nat) => ((maps.find? (·.1 = v)).map (·.2)).getD []
  let s2 := ((r.map (·.vols)).getD []).foldl (fun (y : State) v =>
    let mine := pages.filter fun p => p.2.1 = v.1
    y.setVol v.1 (Vol.rebalance
      { state := 1, array := a, shared := v.2.1, owner := v.2.2.1, vblk := v.2.2.2, map := map v.1
        leaves := leavesOf v.2.2.2 (map v.1) ((mine.filter (·.2.2.1 = 0)).map fun p => (p.1, p.2.2.2))
        roots := (mine.filter (·.2.2.1 = 1)).map (·.1) })) s1
  let s3 := s2.setVol (sysVol a) { state := 3, array := a, map := map (sysVol a) }
  (maskList ((r.map (·.spares.toNat)).getD 0)).foldl (fun (y : State) z => y.updMember z fun w =>
    if w.state = 1 then { w with state := 2, array := a } else w) s3

/-- The generation that the journal's last STRIPE_OPEN gives a slot; 0 where none stands (log entry 59). -/
def genOf (js : List JRec) (i : Nat) : Nat :=
  (js.reverse.findSome? fun q => match q.body with | .stripeOpen st g _ => if st = i then some g else none | _ => none).getD 0

/-- The stripes of an imported array: those that a map's runs point into are SEALED, every other FREE (R332 step 5); at the offsets given up
nothing is reconstructed, and what lives there is moved out (R313). -/
def State.restoreStripes (s : State) (a : Nat) (js : List JRec) (lost : List (Nat × List Nat)) : State :=
  let x := s.arr a
  let abns := (s.mapsOf a).flatMap fun v => (s.vol v).map.flatMap fun e => if e.kind = 0 then [e.abn, e.abn + e.len - 1] else []
  let st := (sortNat (abns.map x.slotAt).eraseDups).map fun i => (i, { state := 3, gen := genOf js i, at_ := s.clk.alm, lostOfs := look [] lost i : Stripe })
  let s1 := s.updArr a fun y => { y with stripes := st }
  let out := lost.flatMap fun e => (s1.liveOf a e.1).filterMap fun b => if e.2.contains ((b.1 - x.baseAbn e.1) % 16) then some (b.1, false) else none
  (s1.updArr a fun y => { y with relocs := out }).recount a

/-- The failed position that an imported target stands for: the one with its label's position, and of several, as those a reshape leaves, the
one that the progress record names (R318, R324). -/
def State.targetOf (s : State) (a t : Nat) (waiting : List Nat) (rbPos : Option Nat) : Option Nat :=
  let x := s.arr a
  let mine := waiting.filter fun z => (s.member t).label.any fun l => posOr ((x.geo x.reshaping).posOf z) = l.pos
  (mine.find? fun z => x.rebuildPos z = rbPos).orElse fun _ => mine.head?

/-- A rebuild and a reshape resumed from the progress record (R318, R324, R332 step 8). -/
def State.resume (s : State) (a : Nat) : State :=
  let targets := (s.importedMembers a).filter fun y => (s.member y).state = 5
  let p := s.progress a
  let rbPos := p.bind (·.rbPos)
  let x := s.arr a
  let waiting := x.allMembers.filter (64 ≤ ·)
  let s2 := s.updArr a fun y =>
    { y with pseq := match p with | some q => q.pseq | none => 0
             reshape := if y.reshape.state = 1 && !waiting.isEmpty then { y.reshape with state := 2 } else y.reshape
             rebuild := { y.rebuild with state := 0, waiting := waiting } }
  match targets.head?.bind fun t => (s.targetOf a t waiting rbPos).map fun old => (t, old) with
  | some (t, old) =>
    let pos := (x.rebuildPos old).getD 0
    let cur := if rbPos = some pos then (p.map (·.rbCur)).getD 0 else 0
    let s3 := (s2.updMember t fun w => { w with pos := pos }).updArr a fun y =>
      { y.clearMarks with rebuild := { y.rebuild with state := 2, pos := pos, member := t, old := old, cur := cur, waiting := y.rebuild.waiting.filter (· ≠ old)
                                                      rate := if y.rebuild.rate = 0 then 20 else y.rebuild.rate } }
    s3.updArr a fun y => { y with stripes := y.stripes.map fun (e : Nat × Stripe) => (e.1, if e.1 < cur && 3 ≤ e.2.state then { e.2 with rebuilt := true } else e.2) }
  | none => s2.nextRebuild a

/-- The report of a replay that had no vault to read (R334). -/
def noVault (outcome ckptSeq : Nat) : Report :=
  { outcome := outcome, alm := 0, freezeSeq := 0, ckptSeq := ckptSeq, x := 0, fromCopy1 := 0, blocksLost := 0, writesLost := 0, lost := 0, sealed := 0
    missing := [] }

/-- What a replay brings back of array a, by the checkpoint, the journal and the vault image that stand (R332). -/
def State.replay (s : State) (a : Nat) : State :=
  let s0 := (s.restoreGeometry a).readControl a
  let x := s0.arr a
  let all := s0.importedMembers a
  let up := s0.upMembers a
  let ck : Ckpt := (newestCkpt (up.flatMap fun y => [0, 1].filterMap fun c => (s0.member y).ckpt c)).getD { seq := 0, dirs := [] }
  let clean := all.all fun y => (s0.member y).label.any fun l => l.state = 3
  let sys := (up.filterMap fun y => (s0.member y).sys).head?
  let vs := up.filterMap fun y => ((s0.member y).usableVault x.arrayId ck.seq).map fun h => (y, h)
  if x.prev = 7 then s0.updArr a fun y => { y with report := some (noVault 0 ck.seq), rinc := false }
  else
    let covered := clean || sys.any fun r => r.covered = some ck.seq
    let image := if covered then none else newerImage (s0.imageOf a ((sys.map (·.journalFrom)).getD 1) vs) (s0.copyImage a ck.seq)
    let dir := s0.directory a ck
    let sysMap := match image with
      | some i => (replayMaps ck { i with journal := i.journal.filter fun q => (match q.body with | .mapDelta v _ => v = sysVol a | .trim v _ _ _ => v = sysVol a | _ => false) || (ckptRecord [q] ck.seq).isSome } [(sysVol a, dir)]).map (sysVol a)
      | none => dir
    let read := s0.pagesOf a sysMap
    let pages := read.filterMap fun p => p.2.map fun q => (p.1, q)
    let damaged := read.any (·.2.isNone)
    let vols := ((sys.map (·.vols)).getD []).map (·.1)
    let maps := (sysVol a, dir) :: vols.map fun v => (v, (pages.filter fun p => p.2.1 = v && p.2.2.1 = 0).flatMap fun p => p.2.2.2.2.map extentOf)
    let sorted := maps.map fun m => (m.1, m.2.foldl (fun l e => insertRun e l) [])
    let lost := (sys.map (·.lostOfs)).getD []
    let sp := (s0.readPages a ck.dirs).readPages a (sysMap.flatMap fun e => (List.range (e.len / 16)).map fun i => e.abn + 16 * i)
    let dirMap : Vol := { state := 3, array := a, map := ck.dirs.zipIdx.map fun e => ⟨16 * e.2, 16, 0, e.1, 0⟩ }
    match image with
    | none =>
      let s1 := (sp.placeSys a sys sorted pages).setVol (dirVol a) dirMap
      let top := sorted.foldl (fun n m => m.2.foldl (fun k e => max k e.seq) n) 0
      (s1.restoreStripes a [] lost).updArr a fun y =>
        { y with ckptSeq := ck.seq, nextSeq := top + 1, report := some (noVault (if covered then 0 else 3) ck.seq), rinc := !covered || damaged }
    | some i =>
      let r := replayImage ck i sorted
      let bad := 0 < r.1.lostWrites || r.1.unordered || !i.missing.isEmpty || damaged
      let s1 := (sp.placeSys a sys r.1.maps pages).setVol (dirVol a) dirMap
      let sealed := vs.foldl (fun m e => m ||| BitVec.ofNat 64 (2 ^ (s0.member e.1).pos)) (0 : BitVec 64)
      (s1.restoreStripes a i.journal lost).updArr a fun y =>
        { y with
          ckptSeq := ck.seq, journal := i.journal, nextSeq := i.freezeSeq + 1, cache := r.2
          jpos := match i.journal.getLast? with | some q => (q.ofs + q.body.size) % ringBytes | none => 0
          rinc := bad, lostCnt := satAdd y.lostCnt r.1.lost
          report := some
            { outcome := if bad then 2 else 1, alm := i.alm, freezeSeq := i.freezeSeq, ckptSeq := ck.seq, x := i.x
              fromCopy1 := i.fromCopy1, blocksLost := i.blocksLost, writesLost := r.1.lostWrites, lost := r.1.lost, sealed := sealed
              missing := i.missing } }

/-- The array comes on line after its replay (R298, R332). -/
def State.bringUp (s : State) (a : Nat) : State :=
  let s3 := s.updArr a fun y => { y with state := 3, cmd := none, rebuild := { y.rebuild with state := 0 } }
  let s4 := ((s3.resume a).judge a).releaseCache a
  let s5 := (((s4.writeLabels a false).checkpoint a).writeSys a).fillHost a
  let s6 := { s5 with plk := { s5.plk with answers := s5.plk.answers.filter (·.1 ≠ (s.arr a).arrayId) } }
  if s6.reaches s6.partner then s6.plkSend s6.partner (.plkImported (s.arr a).arrayId) else s6

/-- REPLAY_END (R298, R332): the whole replay of a REPLAYING array. -/
def execReplayEnd (a : Nat) (s : State) : Out1 :=
  let x := s.arr a
  when_ (a < 64 && x.state = 2 && s.arcRuns) "the array does not replay"
    (match x.cmd with | some id => ((s.replay a).bringUp a).done id 0 | none => (s.replay a).bringUp a)

/-! ## ARR_VAULT_INFO (R334, R337) -/

/-- The report's 256 bytes. -/
def Report.bytes (r : Report) : List Byte :=
  natLE 8 r.outcome ++ natLE 8 r.alm.toNat ++ natLE 8 r.freezeSeq ++ natLE 8 r.ckptSeq ++ natLE 4 r.x ++ natLE 4 r.fromCopy1
    ++ natLE 4 r.blocksLost ++ natLE 4 r.writesLost ++ natLE 8 r.lost ++ natLE 8 r.sealed.toNat
    ++ sub (r.missing.flatMap fun m => natLE 8 m.1 ++ natLE 8 m.2) 0 128 ++ natLE 64 0

/-- ARR_VAULT_INFO (R334). -/
def execArrVaultInfo (id : Nat) (s : State) : Out1 :=
  if (s.cmd? id).any s.hostWaits then no "the command waits for its function"
  else withCmd s id 0x9F "no ARR_VAULT_INFO with this id" fun c =>
    let a := c.f 8 1
    if !c.zeros [(9, 7), (24, 8)] then s.done id 0x0100
    else if 63 < a || c.f 16 8 % 64 ≠ 0 then s.done id 0x0105
    else
      match (s.arr a).report with
      | none => s.done id 0x0581
      | some r => (s.hostWrite c.fn (c.f 16 8) r.bytes).done id 0

end Sys2Proof.Machine
end

