-- ==== Sys2Proof/Machine/Astore.lean ====
section
/-! DEFINITION. Machine/Astore.lean: the associative store: units, entries and tables (R222 to R229), key encoding (R225,
R226), the commands (R230 to R239), the Ember scrub (R240 to R242), the direct windows (R243). -/

namespace Sys2Proof.Machine

/-! ## Units, entries, tables -/

/-- The hole pattern of unit 0 (R223), which is also what a cleared unit holds (R228). -/
def holeUnit : AUnit := { data := -1, mask := 0 }

/-- Whether an entry is a hole (R223): its unit 0 has MASK 0 and DATA all ones. -/
def isHole (e : List AUnit) : Bool := e.head? = some holeUnit

/-- Whether an entry matches a key (R223). -/
def entryMatches (key : List DWord) (e : List AUnit) : Bool :=
  !isHole e && (key.zip e).all fun p => ((p.1 ^^^ p.2.data) &&& p.2.mask) = 0

/-- Table n's record. -/
def State.atable (s : State) (n : Nat) : ATable := look {} s.astore.tables n

/-- f applied to table n's record. -/
def State.updAtable (s : State) (n : Nat) (f : ATable → ATable) : State :=
  { s with astore := { s.astore with tables := upd {} s.astore.tables n f } }

/-- Entry width in units (R229). -/
def ATable.width (t : ATable) : Nat := 2 ^ t.wcode.toNat

/-- Entries a bank of the table holds (R222). -/
def ATable.perBank (t : ATable) : Nat := 65536 / t.width

/-- The logical banks a mask names, ascending (R224). -/
def banksIn (m : Word) : List Nat := (List.range 32).filter fun b => m.getLsbD b

/-- Positions of the table (R224). -/
def ATable.size (t : ATable) : Nat := (banksIn t.banks).length * t.perBank

/-- Where unit j of table position p stands: physical bank x 65,536 + unit (R222, R224). -/
def State.unitAt (s : State) (t : ATable) (p j : Nat) : Nat :=
  s.physBank (nth (banksIn t.banks) (p / t.perBank) 0) * 65536 + p % t.perBank * t.width + j

/-- The unit at an index. -/
def State.unit (s : State) (k : Nat) : AUnit := look holeUnit s.astore.units k

/-- The entry at table position p. -/
def State.entryAt (s : State) (t : ATable) (p : Nat) : List AUnit :=
  (List.range t.width).map fun j => s.unit (s.unitAt t p j)

/-- A unit written to the shadow and then to the bank, both parity bits good (R240). -/
def State.putUnit (s : State) (k : Nat) (u : AUnit) : State :=
  { s with astore := { s.astore with
    units := put holeUnit s.astore.units k u, shadow := put holeUnit s.astore.shadow k u
    badParity := put false s.astore.badParity k false, badMask := put false s.astore.badMask k false
    badShadow := put false s.astore.badShadow k false } }

/-- Whether a parity bit of the unit is bad (R240). -/
def State.unitParityBad (s : State) (k : Nat) : Bool := look false s.astore.badParity k || look false s.astore.badMask k

/-- 32 bits of a unit's MASK or DATA replaced. -/
def AUnit.setHalf (u : AUnit) (mask high : Bool) (v : Word) : AUnit :=
  if mask then { u with mask := Machine.setHalf u.mask high v } else { u with data := Machine.setHalf u.data high v }

/-- A 32-bit write of a unit through a window (R243): the shadow first, then the bank; the parity of the word written is good, the
other's stays, and an uncorrectable shadow stays so (R240; log entry 139). -/
def State.putHalf (s : State) (k : Nat) (mask high : Bool) (v : Word) : State :=
  let a := s.astore
  { s with astore := { a with
    units := upd holeUnit a.units k fun u => u.setHalf mask high v, shadow := upd holeUnit a.shadow k fun u => u.setHalf mask high v
    badParity := if mask then a.badParity else put false a.badParity k false
    badMask := if mask then put false a.badMask k false else a.badMask } }

/-- An entry written at table position p. -/
def State.putEntry (s : State) (t : ATable) (p : Nat) (e : List AUnit) : State :=
  e.zipIdx.foldl (fun (x : State) u => x.putUnit (s.unitAt t p u.2) u.1) s

/-- Entries written one after the other. -/
def State.putEntries (s : State) (t : ATable) (l : List (Nat × List AUnit)) : State :=
  l.foldl (fun (x : State) w => x.putEntry t w.1 w.2) s

/-- An entry of holes only. -/
def ATable.hole (t : ATable) : List AUnit := List.replicate t.width holeUnit

/-- The positions that hold entries, ascending: those whose unit 0 is not the hole pattern (R223, R229). -/
def State.used (s : State) (t : ATable) : List Nat :=
  (banksIn t.banks).zipIdx.flatMap fun b =>
    let k := s.physBank b.1 * 65536
    (s.astore.units.filter fun u => k ≤ u.1 && u.1 < k + 65536 && (u.1 - k) % t.width = 0).map
      fun u => b.2 * t.perBank + (u.1 - k) / t.width

/-- Whether position p is a layout hole (R235). -/
def layoutHole (i p : Nat) : Bool := i ≠ 0 && p % i = i - 1

/-- Capacity under an interval (R235). -/
def ATable.capacity (t : ATable) (i : Nat) : Nat := if i = 0 then t.size else t.size - t.size / i

/-- The position after the last entry (R235). -/
def State.afterLast (s : State) (t : ATable) : Nat := match (s.used t).getLast? with | some p => p + 1 | none => 0

/-- What a search returns (R224): the lowest matching address, and MULTI. -/
def State.search (s : State) (t : ATable) (key : List DWord) : Option Nat × Bool :=
  let hits := (s.used t).filter fun p => entryMatches key (s.entryAt t p)
  (hits.head?, 2 ≤ hits.length)

/-- Bank-searches started (R233, R245). -/
def State.countSearches (s : State) (n : Nat) : State := { s with astore := { s.astore with srch := s.astore.srch + BitVec.ofNat 64 n } }

/-! ## Key encoding (R225, R226) -/

/-- w key words with the given ones first. -/
def keyWords (w : Nat) (l : List DWord) : List DWord := l ++ List.replicate (w - l.length) 0

/-- Bytes as key words, byte 0 in bits 63:56 of word 0, followed by zero bytes. -/
def keyBytes (w : Nat) (bs : List Byte) : List DWord :=
  (List.range w).map fun j => ((sub bs (8 * j) 8).foldl (fun (x : DWord) b => (x <<< 8) ||| b.setWidth 64) 0)

/-- The FP64 bits of an FP value as a key word (R225). -/
def keyFp (x : Nat) : DWord :=
  let b : DWord := if (unpack f64 x).isNan then 0x7FF8000000000000 else if x = f64.signBit then 0 else BitVec.ofNat 64 x
  if b.getLsbD 63 then ~~~b else b ^^^ (1 <<< 63)

/-- The scale a DEC128 value is brought to; none where it is not exact (R226). -/
def rescaleExact (z : Int) (sc dest : Nat) : Option Int :=
  if sc ≤ dest then some (z * 10 ^ (dest - sc)) else if z % 10 ^ (sc - dest) = 0 then some (z / 10 ^ (sc - dest)) else none

/-- The key words of a column value of attribute `attr` in a table of KEYTYPE kt, KATTR ka and width w; none where the
KEYTYPE cannot represent it, which matches no entry (R225, R226). -/
def keyOf (kt ka w attr : Nat) (v : Val) : Option (List DWord) :=
  match v with
  | .bool b => some (keyWords w [if b then 1 else 0])
  | .int z =>
    if 6 ≤ kt && kt ≤ 9 then
      (if 0 ≤ z && z < 2 ^ (8 * 2 ^ (kt - 6)) then some (keyWords w [BitVec.ofInt 64 z]) else none)
    else if kt = 0x0C then
      match rescaleExact z attr ka with
      | some y =>
        if inTy 0x0C y then
          (let b : BitVec 128 := BitVec.ofInt 128 y ^^^ (1 <<< 127)
           some (keyWords w [(b >>> 64).setWidth 64, b.setWidth 64]))
        else none
      | none => none
    else
      let bits := if kt = 2 then 8 else if kt = 3 then 16 else if kt = 4 || kt = 0x0D then 32 else 64
      if fitsS bits z then some (keyWords w [BitVec.ofInt 64 z ^^^ (1 <<< 63)]) else none
  | .f32 b => some (keyWords w [keyFp (fpToFp f32 f64 b.toNat).1])
  | .f64 b =>
    let back := (fpToFp f32 f64 (fpToFp f64 f32 b.toNat).1).1
    if kt = 0x0A && back ≠ b.toNat && !(unpack f64 b.toNat).isNan then none else some (keyWords w [keyFp b.toNat])
  | .bytes bs =>
    if kt = 0x11 then (if bs.length = ka + 1 then some (keyBytes w bs) else none)
    else if bs.length ≤ 8 * w - 1 then
      some ((keyBytes w bs).zipIdx.map fun e => if e.2 = w - 1 then e.1 ||| BitVec.ofNat 64 bs.length else e.1)
    else none
  | _ => none

/-! ## The checks of a unit (R234, R242) -/

/-- The CTX of a bank's VIGIL record: its owner's, the owner context where the bank is unassigned (R242, R469). -/
def State.bankCtx (s : State) (b : Nat) : Nat := let o := (tri (s.bank b).owner).toNat; if o < 4096 then o else ownerCtx

/-- A unit or its shadow corrected (R242): both hold w; CORR_CNT, and a corrected record. OFFSET is the unit's in its bank (log entry 139). -/
def State.emberFix (s : State) (b u : Nat) (w : AUnit) : State :=
  let s1 := s.putUnit (s.physBank b * 65536 + u) w
  let s2 := { s1 with astore := { s1.astore with corr := satInc s1.astore.corr, lastBank := BitVec.ofNat 6 b } }
  s2.record 0 (s.bankCtx b) 0x30 0x0A (s.physBank b) 0 (BitVec.ofNat 32 (8 * u)) false 0

/-- A unit that cannot be recovered (R242). -/
def State.emberFault (s : State) (b u : Nat) : State :=
  let s1 := { s with astore := { s.astore with
    uncorr := satInc s.astore.uncorr, lastBank := BitVec.ofNat 6 b
    tables := mapAll {} 64 (fun (t : ATable) => if t.enable && t.banks.getLsbD b then { t with fault := true } else t) s.astore.tables } }
  (s1.updBank b fun x => { x with fault := true }).record 1 (s.bankCtx b) 0x30 0x0A (s.physBank b) 0 (BitVec.ofNat 32 (8 * u))
    false 0

/-- The check of unit u of logical bank b against its shadow (R242). -/
def State.checkUnit (s : State) (b u : Nat) : State :=
  let a := s.astore
  let k := s.physBank b * 65536 + u
  if look false a.pending k || (s.bank b).clearing then s
  else if look false a.badShadow k then (if s.unitParityBad k then s.emberFault b u else s.emberFix b u (s.unit k))
  else if s.unit k ≠ look holeUnit a.shadow k || s.unitParityBad k then s.emberFix b u (look holeUnit a.shadow k)
  else s

/-- The units of n positions of a table checked from position p on, as a read checks them (R234; log entry 139). -/
def State.checkEntries (s : State) (t : ATable) (p n : Nat) : State :=
  (List.range n).foldl (fun (x : State) i => (List.range t.width).foldl (fun (y : State) j =>
    y.checkUnit (nth (banksIn t.banks) ((p + i) / t.perBank) 0) ((p + i) % t.perBank * t.width + j)) x) s

/-- The units a check would not pass over, ascending: those that differ from their shadow, or whose parity or shadow is bad (R242). -/
def State.suspects (s : State) : List Nat :=
  let a := s.astore
  let differ := ((a.units ++ a.shadow).map (·.1)).filter fun k => s.unit k ≠ look holeUnit a.shadow k
  (sortNat (differ ++ (a.badParity ++ a.badMask ++ a.badShadow).map (·.1))).eraseDups

/-- The units of positions lo to hi - 1 of a table checked, as the reads of a move or a save check them (R234; log entry 139): a unit that
is no suspect passes. -/
def State.checkTable (s : State) (t : ATable) (lo hi : Nat) : State :=
  s.suspects.foldl (fun (x : State) k =>
    (banksIn t.banks).zipIdx.foldl (fun (y : State) b =>
      let p := b.2 * t.perBank + k % 65536 / t.width
      if s.physBank b.1 = k / 65536 && lo ≤ p && p < hi then y.checkUnit b.1 (k % 65536) else y) x) s

/-! ## AST_CREATE and its check (R230) -/

/-- Whether KEYTYPE and KATTR are codes in range (R225). -/
def keyTypeOk (kt ka : Nat) : Bool :=
  (kt ≤ 0x0E && (if kt = 0x0C then ka ≤ 38 else ka = 0)) || (kt = 0x10 && ka = 0) || kt = 0x11

/-- Whether KEYTYPE and KATTR fit the width (R225). -/
def keyFits (kt ka w : Nat) : Bool := (kt ≠ 0x0C || 2 ≤ w) && (kt ≠ 0x11 || ka + 1 ≤ 8 * w)

/-- Whether INTERVAL is a hole interval: 0, or 4 to 256 (R229). -/
def intervalOk (i : Nat) : Bool := i = 0 || (4 ≤ i && i ≤ 256)

/-- The reason of AST_CREATE's check (R230). -/
def State.astReason (s : State) (c : Cmd) : Nat :=
  let n := c.f 8 2
  let w := c.f 10 1
  let kt := c.f 11 1
  let ka := c.f 12 1
  let bs := banksIn (BitVec.ofNat 32 (c.f 16 4))
  pickReason
    [(63 < n || !([1, 2, 4].contains w) || !intervalOk (c.f 14 2) || !keyTypeOk kt ka, 0x4001),
     (bs.any fun b => tri (s.bank b).owner ≠ c.ctx, 0x4003), (!s.astp, 0x4004), ((s.atable n).enable, 0x4005),
     (bs.isEmpty, 0x4010), (bs.any fun b => (s.bank b).inuse, 0x4011),
     (bs.any fun b => (s.bank b).clearing || (s.bank b).fault, 0x4012), (keyTypeOk kt ka && !keyFits kt ka w, 0x4013)]

/-- The check of AST_CREATE ends (R230, R232): the table is enabled, or 0x0203 with the reason. -/
def State.astCreateEnd (s : State) (id : Nat) : State :=
  match s.cmd? id with
  | none => s.checkDone .astore 0 0
  | some c =>
    let r := s.astReason c
    let n := c.f 8 2
    if r ≠ 0 then (s.checkDone .astore r n).complete id 0x0203 (BitVec.ofNat 32 r) 0
    else
      let s1 := s.updAtable n fun _ =>
        { enable := true, ctx := c.ctx, wcode := BitVec.ofNat 2 (c.f 10 1 / 2), interval := BitVec.ofNat 9 (c.f 14 2)
          kattr := BitVec.ofNat 8 (c.f 12 1), keytype := BitVec.ofNat 8 (c.f 11 1), banks := BitVec.ofNat 32 (c.f 16 4) }
      let s2 := (banksIn (BitVec.ofNat 32 (c.f 16 4))).foldl (fun (x : State) b => x.updBank b fun k => { k with inuse := true }) s1
      (s2.checkDone .astore 0 n).done id 0

/-- Whether an earlier command on the same table has not taken effect, an AST_DESTROY whose banks are being cleared among them (R232). -/
def State.astWaits (s : State) (id : Nat) : Bool :=
  (s.cmd? id).any fun c => s.hif.cmds.any fun x =>
    x.id < c.id && 0x68 ≤ x.op && x.op ≤ 0x6F && x.f 8 2 = c.f 8 2
      && (x.phase = .fetched || x.phase = .checking || (x.phase = .running && x.op = 0x69))

/-- AST_CREATE, up to its check (R230, R231). -/
def execAstCreate (id : Nat) (s : State) : Out1 :=
  if s.astWaits id then no "an earlier command on the table has not taken effect"
  else withCmd s id 0x68 "no AST_CREATE with this id" fun c =>
    if !c.zeros [(13, 1), (20, 12)] then s.done id 0x0100
    else (s.phase id .checking).queueCheck .astore (.astTable id)

/-- What the commands on an existing table check first (R231, R232): reserved bytes, TABLE, enabled, owned, no RESPREAD in
progress where the command changes the table. The order is the model's (log entry 39). -/
def astCmd (s : State) (id op : Nat) (what : String) (zeros : List (Nat × Nat)) (changes : Bool) (k : Cmd → Nat → ATable → State) : Out1 :=
  if s.astWaits id then no "an earlier command on the table has not taken effect"
  else withCmd s id op what fun c =>
    let n := c.f 8 2
    let t := s.atable n
    if !c.zeros zeros then s.done id 0x0100
    else if 63 < n then s.done id 0x0105
    else if !t.enable then s.done id 0x0200
    else if t.ctx ≠ c.ctx then s.done id 0x0601
    else if changes && t.rsp then s.done id 0x0201
    else k c n t

/-- AST_DESTROY (R230, R232): the table is disabled and its banks are cleared; INUSE falls and it completes after the clear. -/
def execAstDestroy (id : Nat) (s : State) : Out1 :=
  astCmd s id 0x69 "no AST_DESTROY with this id" [(10, 22)] true fun _ n t =>
    if s.runs.any fun r => r.ctx = t.ctx && r.tables.contains n then s.done id 0x0202
    else
      let s1 := (s.updAtable n fun x => { x with enable := false, fault := false, destroyCmd := some id }).phase id .running
      (banksIn t.banks).foldl (fun (x : State) b => x.clearBank b) s1

/-- The tables in destruction whose banks are all clear: INUSE falls, the record is empty again, the command completes (R230; log entry
138). -/
def State.endDestroys (s : State) : State :=
  s.astore.tables.foldl (fun (x : State) e =>
    match e.2.destroyCmd with
    | none => x
    | some id =>
      if (banksIn e.2.banks).any fun b => (x.bank b).clearing then x
      else
        let x1 := (banksIn e.2.banks).foldl (fun (y : State) b => y.updBank b fun k => { k with inuse := false }) x
        (x1.updAtable e.1 fun _ => {}).done id 0) s

/-- BANK_CLEAR_COMPLETE (R228). -/
def execBankClearComplete (b : Nat) (s : State) : Out1 :=
  if b < 32 && (s.bank b).clearing then .next (s.updBank b fun x => { x with clearing := false }).endDestroys
  else no "the bank is not being cleared"

/-! ## Loading, inserting, deleting -/

/-- An entry of width w from 16 w bytes: the DATA words, then the MASK words (R231). -/
def entryOf (w : Nat) (bs : List Byte) : List AUnit :=
  (List.range w).map fun j => { data := BitVec.ofNat 64 (fieldLE bs (8 * j) 8), mask := BitVec.ofNat 64 (fieldLE bs (8 * w + 8 * j) 8) }

/-- The 16 w bytes of an entry (R231). -/
def entryBytes (e : List AUnit) : List Byte := (e.flatMap fun u => natLE 8 u.data.toNat) ++ (e.flatMap fun u => natLE 8 u.mask.toNat)

/-- The first n positions from p on that are no layout holes, among the positions below `size` (R235). -/
def freePositions (i p size n : Nat) : List Nat := (((List.range (size - p)).map (· + p)).filter fun q => !layoutHole i q).take n

/-- AST_LOAD (R231, R235). -/
def execAstLoad (id : Nat) (s : State) : Out1 :=
  if (s.cmd? id).any s.hostWaits then no "the command waits for its function"
  else astCmd s id 0x6A "no AST_LOAD with this id" [(10, 2), (24, 8)] true fun c n t =>
    let cnt := c.f 12 4
    let a := c.f 16 8
    if cnt = 0 || 2097152 < cnt || a % 64 ≠ 0 then s.done id 0x0105
    else
      let ps := freePositions t.interval.toNat (s.afterLast t) t.size cnt
      let bs := s.hostRead c.fn a (cnt * 16 * t.width)
      let es := (List.range cnt).map fun k => entryOf t.width (bs.drop (k * 16 * t.width))
      if ps.length < cnt then s.done id 0x0303
      else if s.hostFails c.fn a (cnt * 16 * t.width) then s.done id 0x0106
      else if es.any isHole then s.done id 0x0105
      else (s.putEntries (s.atable n) (ps.zip es)).complete id 0 (BitVec.ofNat 32 (nth ps 0 0)) (BitVec.ofNat 32 (nth ps (cnt - 1) 0))

/-- The shift descriptor (R231). -/
def shiftWord (down : Bool) (moved first : Nat) : Word := packW [(1, b2n down), (10, moved), (21, first)]

/-- An insert before position a (R237): the writes, the address and the shift descriptor; none where no hole is in reach. -/
def State.insertPlan (s : State) (t : ATable) (a : Nat) (e : List AUnit) : Option (List (Nat × List AUnit) × Nat × Word) :=
  let i := t.interval.toNat
  let free := fun p => isHole (s.entryAt t p)
  if free a then some ([(a, e)], a, shiftWord false 0 a)
  else if i = 0 then none
  else
    let up := ((List.range (i - 1)).map (fun k => a + 1 + k)).find? fun p => p < t.size && free p
    let dn := ((List.range (min (i - 1) a)).map (fun k => a - 1 - k)).find? free
    let goUp := fun u => (((List.range (u - a)).map fun k => (u - k, s.entryAt t (u - k - 1))) ++ [(a, e)], a, shiftWord false (u - a) a)
    let goDn := fun d =>
      (((List.range (a - 1 - d)).map fun k => (d + k, s.entryAt t (d + k + 1))) ++ [(a - 1, e)], a - 1, shiftWord true (a - 1 - d) (d + 1))
    match up, dn with
    | none, none => none
    | some u, none => some (goUp u)
    | none, some d => some (goDn d)
    | some u, some d => some (if u - a ≤ a - d then goUp u else goDn d)

/-- The reads of an insert before position a: the positions within reach of a hole (R234, R237). -/
def State.insertReads (s : State) (t : ATable) (a : Nat) : State := s.checkTable t (a - (t.interval.toNat - 1)) (max (a + 1) (a + t.interval.toNat))

/-- AST_INSERT (R231, R237). -/
def execAstInsert (id : Nat) (s : State) : Out1 :=
  astCmd s id 0x6B "no AST_INSERT with this id" [(10, 2), (16, 16)] true fun c _ t =>
    let before := c.f 12 4
    let e := entryOf t.width (c.bytes.drop 32)
    let a := if before = 0xFFFFFFFF then nth (freePositions t.interval.toNat (s.afterLast t) t.size 1) 0 t.size else before
    if c.bytes.length ≠ 32 * (1 + ceilDiv t.width 2) then s.done id 0x0103
    else if isHole e || (before ≠ 0xFFFFFFFF && t.size ≤ before) then s.done id 0x0105
    else if t.size ≤ a then s.done id 0x0303
    else
      let s1 := s.insertReads t a
      match s1.insertPlan t a e with
      | none => s1.done id 0x0303
      | some w => (s1.putEntries t w.1).complete id 0 (BitVec.ofNat 32 w.2.1) w.2.2

/-- AST_DELETE (R231, R238). -/
def execAstDelete (id : Nat) (s : State) : Out1 :=
  astCmd s id 0x6C "no AST_DELETE with this id" [(10, 2), (16, 16)] true fun c _ t =>
    let a := c.f 12 4
    if t.size ≤ a then s.done id 0x0105
    else if isHole (s.entryAt t a) then s.complete id 0 0 0
    else (s.putUnit (s.unitAt t a 0) holeUnit).complete id 0 1 0

/-! ## AST_SEARCH and AST_READ -/

/-- The result word of one key (R231). -/
def searchWord (r : Option Nat × Bool) : Word :=
  match r.1 with
  | some p => packW [(1, 1), (1, b2n r.2), (9, 0), (21, p)]
  | none => 0

/-- AST_SEARCH (R231). -/
def execAstSearch (id : Nat) (s : State) : Out1 :=
  if (s.cmd? id).any s.hostWaits then no "the command waits for its function"
  else astCmd s id 0x6D "no AST_SEARCH with this id" [(10, 2)] false fun c _ t =>
    let cnt := c.f 12 4
    let a := c.f 16 8
    let res := c.f 24 8
    if cnt = 0 || 4096 < cnt || a % 8 ≠ 0 || res % 4 ≠ 0 then s.done id 0x0105
    else if t.fault then s.done id 0x0704
    else if s.hostFails c.fn a (cnt * 8 * t.width) then s.done id 0x0106
    else
      let rs := (List.range cnt).map fun k =>
        s.search t ((List.range t.width).map fun j => BitVec.ofNat 64 (leNat (s.hostRead c.fn (a + 8 * (k * t.width + j)) 8)))
      let s1 := (s.hostWrite c.fn res (rs.flatMap fun r => natLE 4 (searchWord r).toNat)).countSearches (cnt * (banksIn t.banks).length)
      s1.complete id 0 (BitVec.ofNat 32 (rs.countP fun r => r.1.isSome)) 0

/-- AST_READ (R231, R234). -/
def execAstRead (id : Nat) (s : State) : Out1 :=
  if (s.cmd? id).any s.hostWaits then no "the command waits for its function"
  else astCmd s id 0x6F "no AST_READ with this id" [(10, 2), (20, 4)] false fun c _ t =>
    let first := c.f 12 4
    let cnt := c.f 16 4
    if cnt = 0 || 65536 < cnt || c.f 24 8 % 64 ≠ 0 || t.size < first + cnt then s.done id 0x0105
    else
      let s1 := s.checkEntries t first cnt
      (s1.hostWrite c.fn (c.f 24 8) ((List.range cnt).flatMap fun k => entryBytes (s1.entryAt t (first + k)))).complete id 0 (BitVec.ofNat 32 cnt) 0

/-! ## RESPREAD (R236) -/

/-- The position of the k-th entry under an interval (R236). -/
def spreadPos (i k : Nat) : Nat := if i = 0 then k else k + k / (i - 1)

/-- The writes that respread a table, in an order that loses no entry and keeps their relative order (log entry 40): the
entries that move up, from the last, then those that move down, from the first; each leaves a hole behind. -/
def State.respreadWrites (s : State) (t : ATable) (i : Nat) : List (Nat × List AUnit) :=
  let moves := (s.used t).zipIdx.map fun e => (e.1, spreadPos i e.2)
  let one := fun (m : Nat × Nat) => [(m.2, s.entryAt t m.1), (m.1, t.hole)]
  ((moves.filter fun m => m.1 < m.2).reverse ++ moves.filter fun m => m.2 < m.1).flatMap one

/-- AST_RESPREAD starts (R236). -/
def execAstRespread (id : Nat) (s : State) : Out1 :=
  astCmd s id 0x6E "no AST_RESPREAD with this id" [(10, 4), (16, 16)] true fun c n t =>
    let i := if c.f 14 2 = 0 then t.interval.toNat else c.f 14 2
    if !intervalOk (c.f 14 2) then s.done id 0x0105
    else if t.capacity i < (s.used t).length then s.done id 0x0303
    else
      let s1 := s.checkTable t 0 t.size
      (s1.updAtable n fun x => { x with rsp := true, rspInterval := BitVec.ofNat 9 i, rspWrites := s1.respreadWrites t i, rspCmd := some id }).phase
        id .running

/-- The writes of one step: the longest run of at most 256 in one bank (R236). -/
def stepPrefix (per : Nat) : Nat → List (Nat × List AUnit) → List (Nat × List AUnit)
  | 0, _ => []
  | _, [] => []
  | n + 1, w :: r =>
    match r with
    | [] => [w]
    | v :: _ => if v.1 / per = w.1 / per then w :: stepPrefix per n r else [w]

/-- RESPREAD_STEP (R236): at most 256 positions of one bank are rewritten; the last step clears RSP. -/
def execRespreadStep (n : Nat) (s : State) : Out1 :=
  let t := s.atable n
  if t.enable && t.rsp then
    let now := stepPrefix t.perBank 256 t.rspWrites
    let left := t.rspWrites.drop now.length
    let s1 := s.putEntries t now
    if left.isEmpty then
      let s2 := s1.updAtable n fun x => { x with rsp := false, interval := x.rspInterval, rspWrites := [], rspCmd := none }
      .next (match t.rspCmd with | some id => s2.done id 0 | none => s2)
    else .next (s1.updAtable n fun x => { x with rspWrites := left })
  else no "no RESPREAD runs on the table"

/-! ## Ember (R240, R241) -/

/-- The scrub moves on by one unit (R241, R245). -/
def Astore.nextPos (a : Astore) : Astore :=
  if a.pos.toNat + 1 = 2097152 then { a with pos := 0, sweeps := a.sweeps + 1 } else { a with pos := a.pos + 1 }

/-- EMBER_CHECK (R241, R242). -/
def execEmberCheck (s : State) : Out1 :=
  let p := s.astore.pos.toNat
  when_ s.astp "the part has no associative store" (({ s with astore := s.astore.nextPos }).checkUnit (p / 65536) (p % 65536))

/-! ## OWNER and the direct windows -/

/-- A write of ASTORE_BANK (R227, R228). -/
def State.writeOwner (s : State) (b : Nat) (v : Word) : State :=
  let x := s.bank b
  let o := BitVec.ofNat 13 (bits v.toNat 28 16)
  if x.inuse || x.clearing || tri x.owner = o then s
  else (s.updBank b fun k => { k with owner := Tri.of o }).clearBank b

/-- ASTORE_OWNER_WRITE (R228); on a part without the store its registers are reserved locations (R3). -/
def execAstoreOwnerWrite (r : Req) (b : Nat) (v : Word) (s : State) : Out1 :=
  if 31 < b then no "no bank with this number"
  else busRow s r (0x30A000 + 4 * b) v (s.writeOwner b v)

/-- A PF0 access to a direct window; a read checks its unit (R234, R243). -/
def State.window (s : State) (off : Nat) (wr : Bool) (v : Word) : State :=
  let x := off % 0x1000000
  let b := x / 0x80000
  let k := s.physBank b * 65536 + x % 0x80000 / 8
  let high := bit off 2
  let o := (tri (s.bank b).owner).toNat
  let reach := s.astp && (o = ownerCtx || o = 0x1FFF) && !(s.bank b).clearing && !(wr && (s.bank b).inuse)
  if !reach then s.reserved .pf0 .bar0 off wr false
  else if wr then
    s.putHalf k (0x2000000 ≤ off) high v
  else
    let s1 := s.checkUnit b (x % 0x80000 / 8)
    let w := s1.unit k
    let d := if off < 0x2000000 then w.data else w.mask
    s1.emit (.readData .pf0 (if high then hi32 d else lo32 d))

/-- DIRECT_WINDOW_ACCESS (R243). -/
def execDirectWindowAccess (off : Nat) (wr : Bool) (v : Word) (s : State) : Out1 :=
  if 0x1000000 ≤ off && off < 0x3000000 && off % 4 = 0 then 
    if wr then .next (s.inOrder .pf0 .bar0 [(off, v)] (s.window off true v))
    else when_ (s.holder .pf0).isNone "an earlier write of PF0 is held" (s.window off false v)
  else no "no direct window there"

end Sys2Proof.Machine
end

