-- ==== Sys2Proof/Machine/Encode.lean ====
section
/-! DEFINITION. Machine/Encode.lean: the DEFLATE encoder (R248 to R250): the match search of a LEVEL, the blocks, the shortest of the
three block types. What the rules leave open of it is in log entry 15. -/

namespace Sys2Proof.Machine

/-! ## The match search (R249, R250) -/

/-- What a LEVEL sets (R250): hash-chain depth, positions a match may be deferred over, the length that stops the search. -/
def levelSearch (level : Nat) : Nat × Nat × Nat :=
  nth [(1, 0, 16), (2, 0, 32), (4, 0, 32), (8, 1, 64), (16, 1, 64), (32, 1, 128), (64, 1, 128), (128, 1, 258), (256, 1, 258), (1024, 2, 258),
       (4096, 2, 258)] (level - 1) (4096, 0, 258)

/-- Byte i of the input. -/
def inByte (bs : Array Byte) (i : Nat) : Byte := (bs[i]?).getD 0

/-- The hash that chains the three bytes at a position. -/
def hashAt (bs : Array Byte) (i : Nat) : Nat := Config.matchHash (inByte bs i) (inByte bs (i + 1)) (inByte bs (i + 2))

/-- For each position the latest one before it with the same hash. -/
def chainOf (bs : Array Byte) : Array (Option Nat) :=
  ((List.range bs.size).foldl (fun (p : Array (Option Nat) × SMap (Option Nat)) i =>
    (p.1.push (look none p.2 (hashAt bs i)), put none p.2 (hashAt bs i) (some i))) (#[], [])).1

/-- How many of the next `most` bytes at i equal those at p. -/
def matchLen (bs : Array Byte) (p i : Nat) : Nat → Nat
  | 0 => 0
  | n + 1 => if inByte bs p = inByte bs i then 1 + matchLen bs (p + 1) (i + 1) n else 0

/-- The longest match at i along the hash chain from p on, as length and distance: at most `depth` links within the 32 KiB window, none
past a match that stops the search; of equal ones the nearest. -/
def longest (bs : Array Byte) (chain : Array (Option Nat)) (i most stop : Nat) : Nat → Option Nat → Nat × Nat → Nat × Nat
  | 0, _, best => best
  | _, none, best => best
  | depth + 1, some p, best =>
    if 32768 < i - p then best
    else
      let n := matchLen bs p i most
      let b := if best.1 < n then (n, i - p) else best
      if stop ≤ b.1 then b else longest bs chain i most stop depth ((chain[p]?).getD none) b

/-- The match at position i of a block that ends at `last`: 3 to 258 bytes, or none, of length 0 (R249). -/
def matchAt (level : Nat) (bs : Array Byte) (chain : Array (Option Nat)) (last i : Nat) : Nat × Nat :=
  let l := levelSearch level
  let m := longest bs chain i (min 258 (last - i)) l.2.2 l.1 ((chain[i]?).getD none) (0, 0)
  if m.1 < 3 then (0, 0) else m

/-- A token: a literal byte (0 and the byte), or a match (length and distance). -/
abbrev Tok := Nat × Nat

/-- The token at position i: greedy, deferred where one of the next positions starts a strictly longer match, or at level 12 of a length
that the cost decides (R250). -/
def tokenAt (level : Nat) (bs : Array Byte) (chain : Array (Option Nat)) (last i : Nat) : Tok :=
  let m := matchAt level bs chain last i
  let lit : Tok := (0, (inByte bs i).toNat)
  let later := fun k => i + 1 + k < last && m.1 < (matchAt level bs chain last (i + 1 + k)).1
  if m.1 = 0 then lit
  else if level = 12 then (let n := min m.1 (Config.cheapLength bs.toList i); if n < 3 then lit else (n, m.2))
  else if (List.range (levelSearch level).2.1).any later then lit
  else m

/-- The tokens of the bytes from i up to `last`. -/
def tokens (level : Nat) (bs : Array Byte) (chain : Array (Option Nat)) (last : Nat) : Nat → Nat → List Tok
  | 0, _ => []
  | fuel + 1, i =>
    if last ≤ i then []
    else let t := tokenAt level bs chain last i; t :: tokens level bs chain last fuel (i + max 1 t.1)

/-! ## Blocks (R249; RFC 1951) -/

/-- n bits of a number, the least significant first. -/
def lowBits (n x : Nat) : List Bool := (List.range n).map (bit x)

/-- The bits of a symbol's code, the most significant first; none where the set has no code for it. -/
def symBits (cs : List HCode) (s : Nat) : Option (List Bool) := (cs.find? fun c => c.sym = s).map fun c => (lowBits c.len c.code).reverse

/-- Symbol and extra bits of a length. -/
def lengthSym (n : Nat) : Nat × List Bool :=
  let s := if n = 258 then 285 else 257 + ((List.range 28).filter fun k => (lengthCode (257 + k)).1 ≤ n).length - 1
  (s, lowBits (lengthCode s).2 (n - (lengthCode s).1))

/-- Symbol and extra bits of a distance. -/
def distSym (d : Nat) : Nat × List Bool :=
  let s := ((List.range 30).filter fun k => (distCode k).1 ≤ d).length - 1
  (s, lowBits (distCode s).2 (d - (distCode s).1))

/-- The bits of a token under two codes. -/
def tokBits (lit dist : List HCode) (t : Tok) : Option (List Bool) :=
  if t.1 = 0 then symBits lit t.2
  else do
    let l ← symBits lit (lengthSym t.1).1
    let d ← symBits dist (distSym t.2).1
    some (l ++ (lengthSym t.1).2 ++ d ++ (distSym t.2).2)

/-- The bits of a block's tokens and its end. -/
def bodyBits (lit dist : List HCode) (ts : List Tok) : Option (List Bool) := do
  let l ← ts.mapM (tokBits lit dist)
  let e ← symBits lit 256
  some (l.flatten ++ e)

/-- A stored block after `pos` bits (BTYPE 00). -/
def storedBits (final : Bool) (pos : Nat) (bs : List Byte) : List Bool :=
  [final, false, false] ++ List.replicate ((8 - (pos + 3) % 8) % 8) false ++ lowBits 16 bs.length ++ lowBits 16 (65535 - bs.length) ++ bitsOf bs

/-- A block with the fixed codes (BTYPE 01). -/
def fixedBits (final : Bool) (ts : List Tok) : Option (List Bool) :=
  (bodyBits (canonCodes fixedLit) (canonCodes (List.replicate 32 5)) ts).map fun b => [final, true, false] ++ b

/-- A block with codes of its own (BTYPE 10): its header is open; one that does not give codes for every token is not taken. -/
def dynamicBits (final : Bool) (ts : List Tok) : Option (List Bool) := do
  let h := Config.dynamicHeader ts
  let (lit, dist, rest) ← readDynamic h
  let b ← bodyBits (canonCodes lit) (canonCodes dist) ts
  if rest.isEmpty then some ([final, false, true] ++ h ++ b) else none

/-- The shortest of the three forms of a block, of equal ones the lower BTYPE. -/
def blockBits (final : Bool) (pos : Nat) (bs : List Byte) (ts : List Tok) : List Bool :=
  ((fixedBits final ts).toList ++ (dynamicBits final ts).toList).foldl (fun (m : List Bool) b => if b.length < m.length then b else m)
    (storedBits final pos bs)

/-- Bits as bytes, the last one filled up with zeros. -/
def bytesOfBits : Nat → List Bool → List Byte
  | 0, _ => []
  | n + 1, l => if l.isEmpty then [] else BitVec.ofNat 8 ((l.take 8).foldr (fun b x => b2n b + 2 * x) 0) :: bytesOfBits n (l.drop 8)

/-- The DEFLATE stream of some bytes at a LEVEL: blocks of 65,535 input bytes, the last one with BFINAL (R249; log entry 15). -/
def deflate (level : Nat) (bs : List Byte) : List Byte :=
  let a := bs.toArray
  let chain := chainOf a
  let n := max 1 (ceilDiv bs.length 65535)
  let l := (List.range n).foldl (fun (out : List Bool) k =>
    let lo := k * 65535
    let hi := min (lo + 65535) bs.length
    out ++ blockBits (k + 1 = n) out.length ((bs.drop lo).take 65535) (tokens level a chain hi (hi - lo + 1) lo)) []
  bytesOfBits (l.length + 1) l

end Sys2Proof.Machine
end

