-- ==== Sys2Proof/Machine/PlanCheck.lean ====
section
/-! DEFINITION. Machine/PlanCheck.lean: check 7 of LOAD_PLAN (R74): parameter descriptors (R66), operand specifiers (R68), the
operand map (R102), slots (R103), and the type rules of 04 and 05; and the order of all the load checks. -/

namespace Sys2Proof.Machine

/-! ## The operand map (R102) -/

/-- What an opcode's fields may hold: modes of DST, SRC_A, SRC_B, SRC_C, the FLAGS bits and the IMM bits in use. -/
structure OpMap where
  dst : List Nat
  a : List Nat
  b : List Nat
  c : List Nat
  flags : Nat
  imm : Nat

/-- R102, by opcode. Modes: 0 C, 1 K, 2 P, 3 M, 4 X, 5 S, 15 none. -/
def opMap : Nat → OpMap
  | 0x01 => ⟨[0], [2, 3], [15], [15], 0x03, 0⟩
  | 0x02 => ⟨[0], [0], [15], [15], 0x01, 0⟩
  | 0x03 => ⟨[5, 15], [0, 5], [0, 1, 2, 5, 15], [0, 1, 2, 15], 0x3F, 0x3⟩
  | 0x04 => ⟨[0], [0, 1, 2, 5], [0, 1, 2, 15], [0, 1, 2, 4, 15], 0x3F, 0xF⟩
  | 0x05 => ⟨[0, 15], [0], [0, 15], [4], 0, 0xFFFFFFFF⟩
  | 0x06 => ⟨[3], [0], [0, 15], [15], 0x03, 0xFF⟩
  | 0x07 => ⟨[0, 15], [0], [3], [15], 0x07, 0xF⟩
  | 0x08 => ⟨[0, 15], [0], [2], [15], 0x0F, 0⟩
  | 0x09 => ⟨[3], [0, 15], [0, 15], [1, 15], 0x3F, 0xF⟩
  | 0x0A => ⟨[3], [0], [0, 15], [15], 0, 0xFFFF00FF⟩
  | 0x0B => ⟨[0], [3], [15], [15], 0, 0⟩
  | 0x0C => ⟨[3], [0], [0, 15], [1, 2], 0, 0xFFFF00FF⟩
  | 0x0D => ⟨[3], [0, 15], [0], [2, 15], 0x0F, 0xFFF⟩
  | 0x0E => ⟨[3], [0], [15], [15], 0, 0xF0⟩
  | 0x0F => ⟨[15], [1, 2], [1, 2, 15], [15], 0, 0⟩
  | 0x10 => ⟨[2], [0], [15], [15], 0, 0xF0⟩
  | 0x11 => ⟨[2], [0], [15], [15], 0x01, 0xF0⟩
  | 0x12 => ⟨[0], [0], [15], [15], 0x0F, 0⟩
  | 0x13 => ⟨[0], [0], [0, 15], [1, 2, 15], 0x0F, 0xFFFF00FF⟩
  | _ => ⟨[0], [0], [1, 2], [15], 0x07, 0x1FFF1F⟩

/-- Whether a specifier's index lies in its mode's range (R68). -/
def specOk (pl : Plan) (x : Nat) : Bool :=
  match omode x with
  | 0 => oix x < 64
  | 1 => oix x < pl.consts.length
  | 2 => oix x < pl.params.length
  | 3 => oix x < pl.mats.length
  | 4 => oix x < pl.kernels.length
  | 5 => oix x < 16
  | 15 => oix x = 0
  | _ => false

/-- The faults any op word may have: specifiers, reserved FLAGS and IMM bits, TYPE and ATTR (R68, R102, R153). -/
def plainFaults (pl : Plan) (w : OpWord) : List Nat :=
  let m := opMap w.op
  wrong [(m.dst.contains (omode w.dst) && specOk pl w.dst, 10), (m.a.contains (omode w.a) && specOk pl w.a, 8),
    (m.b.contains (omode w.b) && specOk pl w.b, 6), (m.c.contains (omode w.c) && specOk pl w.c, 4),
    (w.flags &&& m.flags = w.flags, 14), (w.imm &&& m.imm = w.imm, 0), (tyOk w.ty 0 || w.ty = 0x0C || w.ty = 0x11, 13),
    (!(tyOk w.ty 0 || w.ty = 0x0C || w.ty = 0x11) || tyOk w.ty w.attr, 12)]

/-- A parameter descriptor's faults, at its TYPE field (R66). -/
def paramFaults (pl : Plan) : List Nat :=
  pl.params.zipIdx.flatMap fun e =>
    let p := e.1
    let o := (sect pl.image 4).1 + 8 + 32 * e.2
    wrong [(p.dflags < 4 && (sub pl.image (o + 4) 12).all (· = 0)
      && (if p.byref then p.ty = 0 else tyOk p.ty p.attr && p.ty ≠ 0x10 && !(p.ty = 0x11 && 16 ≤ p.attr)), o)]

/-! ## Slots (R103, R122, R150) -/

/-- A column's type, none where it cannot be judged (R74). -/
abbrev MTy := Option Ty

/-- What stands in the slots of a pipeline: the written ones with their types; the tag of a column kept encoded (1, R122)
or prepared by COMPRESS (2, R150). -/
structure Scope where
  slots : SMap (Option MTy) := []
  tags : SMap Nat := []

/-- What an op word does to the scope, and the offsets of its faults. -/
structure OpOut where
  bad : List Nat := []
  writes : List (Nat × MTy) := []
  tag : List (Nat × Nat) := []
  cols : List MTy := []

/-- The op words that may name a tagged column. -/
def tagUser (tag op : Nat) : Bool := tag = 0 || (tag = 1 && (op = 2 || op = 3)) || (tag = 2 && (op = 0x0E || op = 0x11))

/-- Whether an op word may read slot k (R103, R122, R150). -/
def Scope.readable (sc : Scope) (op k : Nat) : Bool := k < 64 && (look none sc.slots k).isSome && tagUser (look 0 sc.tags k) op

/-- The type in slot k. -/
def Scope.ty (sc : Scope) (k : Nat) : MTy := (look none sc.slots k).getD none

/-- n slots read from operand x, whose field is at offset f: types, and faults. -/
def Scope.read (sc : Scope) (op x n f : Nat) : List MTy × List Nat :=
  if omode x ≠ 0 then ([], [])
  else
    ((List.range n).map fun i => sc.ty (oix x + i), if (List.range n).all fun i => sc.readable op (oix x + i) then [] else [f])

/-- The type of an operand that may be a column, a constant or a parameter; one by reference has the op word's (R63, R66). -/
def Scope.opTy (sc : Scope) (pl : Plan) (w : OpWord) (x : Nat) : MTy :=
  match omode x with
  | 0 => sc.ty (oix x)
  | 1 => some (w.ty, w.attr)
  | 2 => (pl.params[oix x]?).map fun p => if p.byref then (w.ty, w.attr) else (p.ty, p.attr)
  | _ => none

/-- A known type satisfies a condition, an unknown one is not judged (R74). -/
def MTy.all (t : MTy) (f : Ty → Bool) : Bool := match t with | some u => f u | none => true

/-- Columns written from a slot on; a fault at DST where they leave C0-C63 (R103). -/
def slotsFrom (x : Nat) (ts : List MTy) : List (Nat × MTy) × List Nat :=
  if omode x ≠ 0 then ([], [])
  else if 64 < oix x + ts.length then ([], [10])
  else (ts.zipIdx.map fun e => (oix x + e.2, e.1), [])

/-- A parameter or constant that must hold one value of given types. -/
def scalarOk (pl : Plan) (x : Nat) (types : List Nat) : Bool :=
  omode x ≠ 2 || match pl.params[oix x]? with
    | some p => !p.byref && types.contains p.ty
    | none => true

/-- NKEY, NPART: IMM 3:0. -/
def OpWord.nkey (w : OpWord) : Nat := w.imm % 16
/-- NPAY, NCOL, NORD: IMM 7:4. -/
def OpWord.ncol (w : OpWord) : Nat := w.imm / 16 % 16

/-- PRED's operand modes (R123): SRC_A, SRC_B, SRC_C. -/
def predModes (p : Nat) : List Nat × List Nat × List Nat :=
  if p ≤ 5 || p = 9 then ([0], [0, 1, 2], [15])
  else if p = 6 then ([0], [0, 1, 2], [0, 1, 2])
  else if p = 7 || p = 14 then ([0], [15], [15])
  else if p = 8 then ([0], [1], [15])
  else if p = 10 then ([0], [2], [15])
  else if p = 11 || p = 12 then ([5], [5], [15])
  else ([5], [15], [15])

/-- FN's operand modes (R126): SRC_A, SRC_B, SRC_C. -/
def fnModes (fn : Nat) : List Nat × List Nat × List Nat :=
  let v := [0, 1, 2]
  if [0x06, 0x07, 0x08, 0x0E, 0x12].contains fn then (v, [15], [15])
  else if fn = 0x10 then ([5], v, v)
  else if fn = 0x11 then ([0], [15], [15])
  else if fn = 0x3F then (v, [0, 1, 2, 15], [4])
  else (v, v, [15])

/-- Whether a PROJECT FN is defined (R126). -/
def fnOk (fn : Nat) : Bool := (1 ≤ fn && fn ≤ 0x12) || fn = 0x3F

/-- The faults of operand modes against a triple. -/
def modeFaults (w : OpWord) (m : List Nat × List Nat × List Nat) : List Nat :=
  wrong [(m.1.contains (omode w.a), 8), (m.2.1.contains (omode w.b), 6), (m.2.2.contains (omode w.c), 4)]

/-- Whether a constant is a list of COUNT entries (R123, R132). -/
def listOk (pl : Plan) (x most entry : Nat) (bits : Bool) : Bool :=
  match (if omode x = 1 then pl.consts[oix x]? else none) with
  | none => true
  | some c =>
    let n := fieldLE c 0 4
    4 ≤ c.length && 1 ≤ n && n ≤ most && 4 + entry * n + (if bits then ceilDiv n 8 else 0) ≤ c.length

/-- Faults of FILTER's types (R109, R110, R123, R125). -/
def filterFaults (pl : Plan) (sc : Scope) (w : OpWord) : List Nat :=
  let p := w.flags % 16
  let ta := if omode w.a = 0 then sc.ty (oix w.a) else none
  let tb := sc.opTy pl w w.b
  let tc := sc.opTy pl w w.c
  if p = 15 then [14]
  else
    modeFaults w (predModes p) ++ (sc.read 3 w.a 1 8).2 ++ (sc.read 3 w.b 1 6).2 ++ (sc.read 3 w.c 1 4).2
      ++ wrong [(if p = 10 then w.imm ≤ 2 else w.imm = 0, 0)]
      ++ (if p ≤ 6 || p = 8 then
            wrong [(ta.all fun t => tb.all fun u => omode w.b = 15 || comparable t.1 u.1, 6),
              (ta.all fun t => tc.all fun u => omode w.c = 15 || comparable t.1 u.1, 4),
              (!(2 ≤ p && p ≤ 6) || ta.all fun t => t.1 ≠ 0x12, 14), (p ≠ 8 || listOk pl w.b 4096 16 true, 6)]
          else if p = 9 || p = 10 then wrong [(ta.all fun t => isBytes t.1, 8), (p = 10 || tb.all fun t => isBytes t.1, 6)]
          else if p = 14 then wrong [(ta.all fun t => t.1 = 1, 8)]
          else [])

/-- Faults of PROJECT's types (R108, R109, R110, R126, R545); for COALESCE and IF see log entry 161. -/
def projectFaults (pl : Plan) (sc : Scope) (w : OpWord) : List Nat :=
  let fn := w.flags
  let rd := fun x f => if fn = 0x11 then [] else (sc.read 4 x 1 f).2
  let ops := ([(w.a, 8), (w.b, 6), (w.c, 4)].filter fun x => omode x.1 ≤ 2).map fun x => (sc.opTy pl w x.1, x.2)
  let ta := sc.opTy pl w w.a
  let tb := sc.opTy pl w w.b
  let each := fun (f : Ty → Bool) => ops.flatMap fun o => wrong [(o.1.all f, o.2)]
  if !fnOk fn then [14]
  else
    modeFaults w (fnModes fn) ++ rd w.a 8 ++ rd w.b 6 ++ rd w.c 4
      ++ wrong [(if fn = 0x0F then w.imm ≤ 5 else if fn = 0x11 then 1 ≤ w.imm && w.imm ≤ 8 else w.imm = 0, 0)]
      ++ (if fn = 9 || fn = 0x0A then
            each (fun t => castOk t.1 w.ty && t.1 ≠ 0x12) ++ wrong [(ta.all fun t => tb.all fun u => comparable t.1 u.1, 6), (w.ty ≠ 0x12, 13)]
          else if fn ≤ 7 || fn = 0x0B || fn = 0x10 then
            each (fun t => t.1 = w.ty)
              ++ wrong [(!(fn ≤ 2 && w.ty = 0x0C) || ops.all (fun o => o.1.all fun t => t.2 ≤ w.attr), 12),
                   (!(fn ≤ 7) || (w.ty ≠ 1 && !isBytes w.ty), 13), (!([4, 5, 7].contains fn) || w.ty ≠ 0x12, 13)]
          else if fn = 8 then wrong [(ta.all fun t => castOk t.1 w.ty, 13)]
          else if 0x0C ≤ fn && fn ≤ 0x0E then wrong [(w.ty = 1, 13)] ++ each (fun t => t.1 = 1)
          else if fn = 0x0F then
            wrong [(w.ty = 1, 13), (ta.all fun t => tb.all fun u => comparable t.1 u.1, 6),
              (w.imm < 2 || ops.all (fun o => o.1.all fun t => t.1 ≠ 0x12), 0)]
          else if fn = 0x11 then wrong [(w.ty = 9, 13)] ++ (sc.read 4 w.a w.imm 8).2
          else if fn = 0x12 then wrong [(w.ty = 4, 13)] ++ each (fun t => isBytes t.1)
          else [])

/-- The result type of an aggregate (R132); none where the argument's type is refused. -/
def aggType (fn : Nat) (t : Ty) : Option Ty :=
  if fn ≤ 2 then some (5, 0)
  else if fn = 3 || fn = 6 then
    (if t.1 = 0x0C then some t
     else if isFp t.1 || (isInteger t.1 && fn = 6) then some (0x0B, 0)
     else if isSInt t.1 then some (5, 0)
     else if isUInt t.1 then some (9, 0)
     else none)
  else if fn = 4 || fn = 5 then (if t.1 = 0x12 then none else some t)
  else if fn = 7 then some t
  else if fn ≤ 0x0A then (if isInteger t.1 then some t else none)
  else if t.1 = 1 then some t else none

/-- The aggregates of an AGG op word: FUNC and argument slot, none for no argument (R132). -/
def aggList (pl : Plan) (w : OpWord) : List (Nat × Option Nat) :=
  if omode w.c = 1 then
    match pl.consts[oix w.c]? with
    | none => []
    | some c => (List.range (fieldLE c 0 4)).map fun i =>
        (fieldLE c (4 + 8 * i) 1, if fieldLE c (5 + 8 * i) 1 = 0xFF then none else some (fieldLE c (5 + 8 * i) 1))
  else [(w.flags % 32, if omode w.b = 0 then some (oix w.b) else none)]

/-- The result column of an aggregate and whether it is in order (R132). -/
def Scope.agg (sc : Scope) (fn : Nat) (arg : Option Nat) : MTy × Bool :=
  let t : MTy := match arg with | some k => sc.ty k | none => none
  let r : MTy := if fn ≤ 2 then some (5, 0) else t.bind (aggType fn)
  (r, 1 ≤ fn && fn ≤ 0x0C && (fn ≠ 1) = arg.isSome && t.all (fun u => fn = 1 || (aggType fn u).isSome))

/-! ## One op word (R102, 04) -/

/-- Columns of a materialisation as far as they are known (R74). -/
abbrev MatTable := List (Option (List MTy))

/-- Columns of materialisation m, 64 unjudged ones where they are not known. -/
def matCols (tbl : MatTable) (m : Nat) (most : Nat) : List MTy := ((tbl[m]?).getD none).getD (List.replicate most none)

/-- Keys and payload of a hash table, from its producer's sink. -/
def Plan.buildShape (pl : Plan) (m : Nat) : Nat × Nat :=
  match (pl.mats[m]?).bind fun r => pl.sink r.producer with
  | some w => (w.nkey, w.ncol)
  | none => (0, 0)

/-- What an op word does (04), its faults at offsets within the op word. Fields that a function does not use are log entry 160, a
DECODE without an encoded column is log entry 163. -/
def opOut (pl : Plan) (tbl : MatTable) (sc : Scope) (w : OpWord) : OpOut :=
  let self : MTy := some (w.ty, w.attr)
  let rd := fun x n f => sc.read w.op x n f
  let wr := slotsFrom w.dst
  match w.op with
  | 0x01 =>
    if omode w.a = 2 then
      { bad := wrong [((pl.params[oix w.a]?).all (·.byref), 8), (w.flags % 4 ≠ 3 && !(w.flags % 4 = 2 && w.ty = 0x10), 14)]
        writes := (wr [self]).1 }
    else
      let cs := matCols tbl (oix w.a) (64 - oix w.dst)
      { bad := wrong [(w.flags % 4 = 0, 14)] ++ (wr cs).2, writes := (wr cs).1 }
  | 0x02 =>
    { bad := wrong [(w.dst = w.a, 10), (!(look 0 sc.tags (oix w.a) = 1 && bit w.flags 0), 14)] ++ (rd w.a 1 8).2
      tag := [(oix w.a, if bit w.flags 0 then 1 else 0)] }
  | 0x03 => { bad := filterFaults pl sc w }
  | 0x04 => { bad := projectFaults pl sc w, writes := (wr [self]).1 }
  | 0x05 => { bad := (rd w.a 1 8).2 ++ (rd w.b 1 6).2, writes := (wr [self]).1 }
  | 0x06 =>
    let k := rd w.a w.nkey 8
    let p := rd w.b w.ncol 6
    { bad := wrong [(1 ≤ w.nkey && w.nkey ≤ 8, 0), (omode w.b = (if w.ncol = 0 then 15 else 0), 6)] ++ k.2 ++ p.2
      cols := k.1 ++ p.1 ++ (if bit w.flags 1 then [some (1, 0)] else []) }
  | 0x07 =>
    let jk := w.flags % 8
    let m := oix w.b
    let shape := pl.buildShape m
    let known := ((tbl[m]?).getD none).isSome && (pl.mats[m]?).any (·.kind = 1)
    let cs := matCols tbl m 64
    let keys := rd w.a w.nkey 8
    let pays := if known then (cs.drop shape.1).take shape.2 else List.replicate (64 - oix w.dst) none
    let out : List MTy := if jk < 2 then pays else if jk = 5 then [some (1, 0)] else []
    { bad := wrong [(jk ≤ 5, 14), (1 ≤ w.nkey && w.nkey ≤ 8, 0), ((pl.mats[m]?).all (·.kind = 1), 6),
          (!known || shape.1 = w.nkey, 0), (if 5 < jk then true else if jk < 2 then !known || shape.2 = 0 || omode w.dst = 0 else omode w.dst = (if jk = 5 then 0 else 15), 10),
          (!known || (keys.1.zip cs).all fun p => p.1.all fun t => p.2.all fun u => comparable t.1 u.1, 8)]
        ++ keys.2 ++ (wr out).2
      writes := (wr out).1 }
  | 0x08 =>
    let out : List MTy := if w.flags % 4 = 2 then [some (8, 0)] ++ (if bit w.flags 2 then [some (1, 0)] else []) else []
    { bad := wrong [(w.flags % 4 ≠ 3, 14), (w.flags % 4 = 3 || omode w.dst = (if w.flags % 4 = 2 then 0 else 15), 10)] ++ (rd w.a 1 8).2 ++ (wr out).2
      writes := (wr out).1 }
  | 0x09 =>
    let k := rd w.a w.nkey 8
    let l := aggList pl w
    let rs := l.map fun e => sc.agg e.1 e.2
    let list := omode w.c = 1
    let slotsOk := l.all fun e => e.2.all fun k => sc.readable 9 k
    let spare := (pl.consts[oix w.c]?).all fun c => (List.range l.length).all fun i => fieldLE c (6 + 8 * i) 6 = 0
    { bad := wrong [(w.nkey ≤ 8, 0), (omode w.a = (if w.nkey = 0 then 15 else 0), 8), (!list || w.flags % 32 = 0, 14),
          (!list || omode w.b = 15, 6), (!list || (listOk pl w.c 15 8 false && spare && slotsOk && rs.all (·.2)), 4),
          (list || slotsOk, 6), (list || (1 ≤ w.flags % 32 && w.flags % 32 ≤ 0x0C), 14), (list || !(1 ≤ w.flags % 32 && w.flags % 32 ≤ 0x0C) || rs.all (·.2), 6)]
        ++ k.2
      cols := k.1 ++ rs.map (·.1) }
  | 0x0A | 0x0C =>
    let k := rd w.a w.nkey 8
    let p := rd w.b w.ncol 6
    { bad := wrong [(1 ≤ w.nkey && w.nkey ≤ 8, 0), (omode w.b = (if w.ncol = 0 then 15 else 0), 6),
          (k.1.all fun t => t.all fun u => u.1 ≠ 0x12, 8),
          (w.op = 0x0A || scalarOk pl w.c [8, 9], 4), (w.op = 0x0A || omode w.c ≠ 1 || w.ty = 8 || w.ty = 9, 13)] ++ k.2 ++ p.2
      cols := k.1 ++ p.1 }
  | 0x0B =>
    let cs := matCols tbl (oix w.a) (64 - oix w.dst)
    { bad := wrong [((pl.mats[oix w.a]?).all (·.kind = 2), 8)] ++ (wr cs).2, writes := (wr cs).1 }
  | 0x0D =>
    let scope := w.flags % 4
    let xm := w.flags / 4 % 4
    let c := rd w.b w.ncol 6
    { bad := wrong [(scope ≠ 3 && xm ≠ 3, 14), (omode w.c = (if scope = 0 then 15 else 2), 4), (scalarOk pl w.c [9], 4),
          (1 ≤ w.ncol && bits w.imm 11 8 ≤ 10, 0), (if xm = 0 then 1 ≤ w.nkey && w.nkey ≤ 8 else w.nkey = 0, 0),
          (omode w.a = (if xm = 0 then 0 else 15), 8)] ++ (rd w.a w.nkey 8).2 ++ c.2
      cols := c.1 }
  | 0x0E => let c := rd w.a w.ncol 8; { bad := wrong [(1 ≤ w.ncol, 0)] ++ c.2, cols := c.1 }
  | 0x0F =>
    { bad := wrong [(scalarOk pl w.a [9], 8), (scalarOk pl w.b [9], 6), (w.ty = 9, 13)] }
  | 0x10 | 0x11 =>
    { bad := wrong [(1 ≤ w.ncol, 0), ((pl.params[oix w.dst]?).all (·.byref), 10)] ++ (rd w.a w.ncol 8).2 }
  | 0x12 =>
    { bad := wrong [(w.dst = w.a, 10), (1 ≤ w.flags % 16 && w.flags % 16 ≤ 12, 14)] ++ (rd w.a 1 8).2, tag := [(oix w.a, 2)] }
  | 0x13 =>
    let fn := w.flags % 16
    let tb := sc.opTy pl w w.b
    let want : Ty → Option Ty := fun t => if fn = 8 then some t else aggType (nth [3, 2, 4, 5] (fn - 4) 0) t
    { bad := wrong [(1 ≤ fn && fn ≤ 8, 14), (omode w.b = (if 4 ≤ fn then 0 else 15), 6),
          (if fn = 8 then omode w.c = 1 || omode w.c = 2 else omode w.c = 15, 4),
          (if fn < 4 || fn = 5 then w.ty = 5 else tb.all fun t => want t = some (w.ty, w.attr), 13)]
        ++ (rd w.a (w.nkey + w.ncol) 8).2 ++ (rd w.b 1 6).2
      writes := (wr [self]).1 }
  | _ =>
    let out : List MTy := [some (5, 0), some (7, 0), some (if bit w.flags 2 then (0x12, 0) else (0x0A, 0))]
    { bad := wrong [(4 ≤ w.imm % 32 && w.imm % 32 ≤ 12, 0), (1 ≤ bits w.imm 20 8 && bits w.imm 20 8 ≤ 4096, 0), (w.flags % 4 ≠ 3, 14),
          ((sc.opTy pl w w.a).all fun t => t.1 = 0x0A || t.1 = 0x12, 8), (scalarOk pl w.b [8], 6)] ++ (rd w.a 1 8).2 ++ (wr out).2
      writes := (wr out).1 }

/-- The scope after an op word. -/
def Scope.after (sc : Scope) (o : OpOut) : Scope :=
  { slots := o.writes.foldl (fun m e => put none m e.1 (some e.2)) sc.slots
    tags := o.tag.foldl (fun m e => put 0 m e.1 e.2) (o.writes.foldl (fun m e => put 0 m e.1 0) sc.tags) }

/-- The scope before op word k of a pipeline. -/
def scopeAt (pl : Plan) (tbl : MatTable) (ws : List OpWord) (k : Nat) : Scope :=
  (ws.take k).foldl (fun sc w => sc.after (opOut pl tbl sc w)) {}

/-- Whether a materialisation's producer can be determined (R74). -/
def Plan.known (pl : Plan) (m : Nat) : Bool :=
  match pl.mats[m]? with
  | some r => pl.sinkMat r.producer = some m && !pl.onCycle r.producer
  | none => false

/-- The columns of each materialisation after n rounds over its producers. -/
def colRounds (pl : Plan) : Nat → MatTable
  | 0 => pl.mats.map fun _ => none
  | n + 1 =>
    let tbl := colRounds pl n
    pl.mats.zipIdx.map fun e =>
      if pl.known e.2 then
        let ws := pl.words e.1.producer
        match ws.getLast? with
        | some w => some (opOut pl tbl (scopeAt pl tbl ws (ws.length - 1)) w).cols
        | none => none
      else none

/-- The columns of each materialisation as check 7 takes them (R74). -/
def planCols (pl : Plan) : MatTable := colRounds pl (pl.mats.length + 1)

/-- Check 7 over the op words (R74); a descriptor that breaks R66 is answered at its own TYPE field, before them. -/
def operandFaults (pl : Plan) : List Nat :=
  let tbl := planCols pl
  (pl.ops.zipIdx.flatMap fun e => (plainFaults pl e.1).map fun f => opOfs pl.image e.2 + f)
    ++ pl.pipes.zipIdx.flatMap fun e =>
        let ws := pl.words e.2
        ws.zipIdx.flatMap fun w => ((opOut pl tbl (scopeAt pl tbl ws w.2) w.1).bad).map fun f => opOfs pl.image (e.1.opFirst + w.2) + f

/-! ## The load checks in order (R74) -/

/-- The lowest of some offsets. -/
def leastOf : List Nat → Option Nat
  | [] => none
  | x :: r => match leastOf r with
    | none => some x
    | some y => some (min x y)

/-- The first failing check: status and offset (R74). Within checks 4 and 7 the layout, and the parameters, are judged first (log entry
158). -/
def loadFault (img : List Byte) (len : Nat) : Option (Nat × Nat) :=
  let pl := fun (_ : Unit) => parsePlan img
  let zeroed := img.take 0x38 ++ List.replicate 8 0 ++ img.drop 0x40
  let checks : List (Nat × (Unit → List Nat)) :=
    [(0x400, fun _ => headerFaults img len), (0x401, fun _ => wrong [(fieldLE img 4 2 = 1, 4)]),
     (0x402, fun _ => wrong [(crc64 zeroed = BitVec.ofNat 64 (fieldLE img 0x38 8), 0x38)]),
     (0x403, fun _ => layoutFaults img), (0x403, fun _ => lengthFaults img), (0x412, fun _ => limitFaults img),
     (0x404, fun _ => opcodeFaults (pl ())), (0x405, fun _ => paramFaults (pl ())), (0x405, fun _ => operandFaults (pl ())), (0x406, fun _ => shapeFaults (pl ())),
     (0x407, fun _ => graphFaults (pl ())), (0x408, fun _ => kernelFaults (pl ()))]
  checks.findSome? fun c => (leastOf (c.2 ())).map fun o => (c.1, o)

/-- The plan of an image that passed the checks, with its materialisations' columns. -/
def loadedPlan (img : List Byte) : Plan :=
  let pl := parsePlan img
  { pl with cols := (planCols pl).map fun c => (c.getD []).map fun t => t.getD (0, 0) }

/-- A loaded plan's table of columns. -/
def Plan.table (pl : Plan) : MatTable := pl.cols.map fun c => some (c.map some)

/-- The type of slot k before op word n of pipeline i. -/
def Plan.slotTy (pl : Plan) (i n k : Nat) : Ty := ((scopeAt pl pl.table (pl.words i) n).ty k).getD (0, 0)

end Sys2Proof.Machine
end

