-- ==== Sys2Proof/Machine/Aggregates.lean ====
section
/-! DEFINITION. Machine/Aggregates.lean: aggregate functions (R132, R133), sort order (R135), and the rows a materialisation
delivers (R89, R111, R118, R120). -/

namespace Sys2Proof.Machine

/-! ## Aggregate functions (R132, R133) -/

/-- The sum of FP values over n, rounded once to FP64 (R133). -/
def fpExactMean (f : Fmt) (xs : List Nat) (n : Nat) : Nat :=
  let us := xs.map (unpack f)
  let pos := us.any fun u => match u with | .inf neg => !neg | _ => false
  let neg := us.any fun u => match u with | .inf neg => neg | _ => false
  let nan := us.any FpNum.isNan
  if nan || (pos && neg) then f64.nan
  else if pos then f64.inf
  else if neg then f64.signed true f64.inf
  else
    let sum := xs.foldl (fun (t : Int) x => t + (fpExact f x).getD 0) 0
    let allNeg := us.all fun u => match u with | .fin n m _ => n && m = 0 | _ => false
    if sum = 0 then (if allNeg && Config.zeroSumNegative then f64.signBit else 0)
    else ratToFp f64 sum (2 ^ 1074 * n)

/-- The bits of an FP value in its own format. -/
def fpBits : Val → Nat
  | .f32 b => b.toNat
  | .f64 b => b.toNat
  | _ => 0

/-- FP64 values added one pair after another in an open order, each sum rounded (R133; log entry 14). -/
def addPairs (k : Nat) : Nat → List Nat → Nat
  | 0, xs => xs.headD 0
  | n + 1, xs =>
    if xs.length < 2 then xs.headD 0
    else
      let i := Config.addOrder k (2 * n) % xs.length
      let rest := xs.eraseIdx i
      let j := Config.addOrder k (2 * n + 1) % rest.length
      addPairs k n ((fpAdd f64 (nth xs i 0) (nth rest j 0)).1 :: rest.eraseIdx j)

/-- An FP64 sum with EXACT = 0 (R133): a NaN is the canonical one (R107), the sign of a sum of negative zeros is open. -/
def fpSumOf (k : Nat) (xs : List Nat) : Nat :=
  let z := addPairs k xs.length xs
  if (unpack f64 z).isNan then f64.nan else if z = f64.signBit && !Config.zeroSumNegative then 0 else z

/-- SUM of values of a type that are not null (R132, R133): none is the trap; k numbers the free value. -/
def sumOf (mode k : Nat) (exact : Bool) (t : Ty) (vs : List Val) : Option Val :=
  let z := vs.foldl (fun (n : Int) v => match v with | .int i => n + i | _ => n) 0
  let xs := vs.map fpBits
  if vs.isEmpty then some .null
  else if t.1 = 0x0C then fitTy mode 0x0C z
  else if isSInt t.1 then fitTy mode 5 z
  else if isUInt t.1 then fitTy mode 9 z
  else if t.1 = 0x0A then some (.f64 (BitVec.ofNat 64 (fpExactMean f32 xs 1)))
  else if exact then some (.f64 (BitVec.ofNat 64 (fpExactMean f64 xs 1)))
  else some (.f64 (BitVec.ofNat 64 (fpSumOf k xs)))

/-- AVG of values of a type that are not null (R132, R133). -/
def avgOf (mode k : Nat) (exact : Bool) (t : Ty) (vs : List Val) : Option Val :=
  let n := vs.length
  let z := vs.foldl (fun (n : Int) v => match v with | .int i => n + i | _ => n) 0
  let xs := vs.map fpBits
  if vs.isEmpty then some .null
  else if t.1 = 0x0C then fitTy mode 0x0C (roundHalfAway z n)
  else if isInteger t.1 then some (.f64 (BitVec.ofNat 64 (ratToFp f64 z n)))
  else if t.1 = 0x0A then some (.f64 (BitVec.ofNat 64 (fpExactMean f32 xs n)))
  else if exact then some (.f64 (BitVec.ofNat 64 (fpExactMean f64 xs n)))
  else some (.f64 (BitVec.ofNat 64 (fpDiv f64 (fpSumOf k xs) (ratToFp f64 n 1)).1))

/-- The value with a NaN in canonical form (R107). -/
def canonNan (v : Val) : Val :=
  match v with
  | .f32 b => if (unpack f32 b.toNat).isNan then .f32 0x7FC00000 else v
  | .f64 b => if (unpack f64 b.toNat).isNan then .f64 0x7FF8000000000000 else v
  | v => v

/-- MIN or MAX of values that are not null, in origin order (R109, R132; log entry 14). -/
def extremeOf (most : Bool) (t : Ty) (vs : List Val) : Val :=
  match vs with
  | [] => .null
  | v :: r => canonNan (r.foldl (fun m x =>
      let c := if most then cmpVal t t m x else cmpVal t t x m
      if c < 0 || (c = 0 && Config.laterOfEqual) then x else m) v)

/-- An aggregate over the values of its argument in origin order, a null for a row without argument (R132). -/
def aggValue (mode k fn : Nat) (exact : Bool) (t : Ty) (all : List Val) : Option Val :=
  let vs := all.filter (· ≠ .null)
  let ints := vs.map fun v => match v with | .int z => z | _ => 0
  let w := 8 * tyWidth t.1 t.2
  let asInt := fun (b : BitVec w) => some (Val.int (if isUInt t.1 then (b.toNat : Int) else b.toInt))
  let bitsOf := ints.map (BitVec.ofInt w)
  match fn with
  | 1 => some (.int all.length)
  | 2 => some (.int vs.length)
  | 3 => sumOf mode k exact t vs
  | 4 => some (extremeOf false t vs)
  | 5 => some (extremeOf true t vs)
  | 6 => avgOf mode k exact t vs
  | 7 => some (vs.headD .null)
  | _ =>
    if vs.isEmpty then some .null
    else
      match fn with
      | 8 => asInt (bitsOf.foldl (· &&& ·) (BitVec.allOnes w))
      | 9 => asInt (bitsOf.foldl (· ||| ·) 0)
      | 0x0A => asInt (bitsOf.foldl (· ^^^ ·) 0)
      | 0x0B => some (.bool (vs.all (· = .bool true)))
      | _ => some (.bool (vs.any (· = .bool true)))

/-! ## Order (R118, R135) -/

/-- Rows put in order, equal ones keeping theirs. -/
def orderRows (lt : Row → Row → Bool) (rows : List Row) : List Row :=
  rows.foldr (fun x l => l.takeWhile (fun y => lt y x) ++ x :: l.dropWhile (fun y => lt y x)) []

/-- Value k of a row. -/
def rowCol (x : Row) (k : Nat) : Val := nth x.vals k .null

/-- Key i of two rows under KORD: negative where x comes first (R135). -/
def cmpKey (t : Ty) (desc nullsFirst : Bool) (v w : Val) : Int :=
  match v, w with
  | .null, .null => 0
  | .null, _ => if nullsFirst then -1 else 1
  | _, .null => if nullsFirst then 1 else -1
  | v, w => let c := cmpVal t t v w; if desc then -c else c

/-- Whether row x comes before row y under the first n keys and KORD, ties to the lower origin (R135). -/
def keysBefore (ts : List Ty) (kord n : Nat) (x y : Row) : Bool :=
  let cs := (List.range n).map fun i => cmpKey (nth ts i (0, 0)) (bit kord (2 * i)) (bit kord (2 * i + 1)) (rowCol x i) (rowCol y i)
  match cs.find? (· ≠ 0) with
  | some c => c < 0
  | none => x.ix < y.ix

/-! ## Materialisations (R89, R118) -/

/-- KORD of a sort op word. -/
def OpWord.kord (w : OpWord) : Nat := w.imm / 65536

/-- The sink op word that writes materialisation j. -/
def Plan.matSink (pl : Plan) (j : Nat) : Option OpWord := (pl.mats[j]?).bind fun r => pl.sink r.producer

/-- The column types of materialisation j. -/
def Plan.colsOf (pl : Plan) (j : Nat) : List Ty := nth pl.cols j []

/-- The rows of every segment in the segments' order. -/
def Mat.all (x : Mat) : List Row := x.segs.flatMap (·.2)

/-- Whether two rows have the same first n values, nulls alike (R105, R109). -/
def sameKeys (ts : List Ty) (n : Nat) (x y : Row) : Bool :=
  (List.range n).all fun i => sameVal (nth ts i (0, 0)) (nth ts i (0, 0)) (rowCol x i) (rowCol y i)

/-- The rows put into groups by their first n values, each group in origin order, the first seen first (R132). -/
def groupRows (ts : List Ty) (n : Nat) (rows : List Row) : List (List Row) :=
  rows.foldl (fun (gs : List (List Row)) x =>
    if gs.any fun g => (g.head?).any (sameKeys ts n x) then gs.map fun g => if (g.head?).any (sameKeys ts n x) then g ++ [x] else g
    else gs ++ [[x]]) []

/-- The groups of a materialisation of an AGG. -/
def Plan.groups (pl : Plan) (j : Nat) (w : OpWord) (x : Mat) : List (List Row) :=
  let gs := groupRows (pl.colsOf j) w.nkey x.all
  if w.nkey = 0 && gs.isEmpty then [[]] else gs

/-- One row of an aggregate table: canonical keys, then the aggregates (R111, R132); none is the trap. -/
def Plan.aggRow (pl : Plan) (j k : Nat) (w : OpWord) (g : List Row) : Option Row :=
  let p := (nth pl.mats j { kind := 0, mflags := 0, producer := 0, hbmPages := 0, spillParam := 0, rowBytes := 0 }).producer
  let last := (pl.words p).length - 1
  let keys := (List.range w.nkey).map fun i => canonVal (rowCol (g.headD { ix := 0, vals := [] }) i)
  let aggs := (aggList pl w).zipIdx.mapM fun e =>
    let t : Ty := match e.1.2 with | some c => pl.slotTy p last c | none => (0, 0)
    aggValue pl.arith (k + e.2) e.1.1 (bit w.flags 5) t (g.map fun x => rowCol x (w.nkey + e.2))
  aggs.map fun l => { ix := (g.headD { ix := 0, vals := [] }).ix, vals := keys ++ l }

/-- Whether an aggregate table's row comes before another: by DZH64 of the key, ties by the key, nulls last (R118). -/
def hashBefore (ts : List Ty) (n : Nat) (x y : Row) : Bool :=
  let h := fun (r : Row) => (hashKey ((List.range n).map fun i => ((nth ts i (0, 0)).1, rowCol r i))).toNat
  h x < h y || (h x = h y && keysBefore ts 0 n x y)

/-- The final rows of an aggregate table; none is the trap (R133). -/
def Plan.aggFinal (pl : Plan) (j k : Nat) (w : OpWord) (x : Mat) : Option (List Row) :=
  ((pl.groups j w x).zipIdx.mapM fun g => pl.aggRow j (k + 16 * g.2) w g.1).map fun rows =>
    orderRows (hashBefore (pl.colsOf j) w.nkey) rows

/-- The rows SCAN of a materialisation delivers, in order (R118, R128). -/
def Plan.scanRows (pl : Plan) (j : Nat) (x : Mat) : List Row :=
  match pl.matSink j with
  | none => []
  | some w =>
    if w.op = 9 then x.final
    else if w.op = 0x0C then orderRows (fun a b => a.ix < b.ix) x.final
    else if w.op = 6 && bit w.flags 1 then x.all.map fun r => { r with vals := r.vals ++ [.bool (look false x.marks r.ix)] }
    else x.all

/-- The rows MERGE delivers, in sorted order: its runs merged, the longer ones where passes made them (R120, R135). -/
def Plan.mergeRows (pl : Plan) (j : Nat) (x : Mat) : List Row :=
  match pl.matSink j with
  | none => []
  | some w =>
    if w.op = 0x0C then x.final
    else orderRows (keysBefore (pl.colsOf j) w.kord w.nkey) (if x.longRuns.isEmpty then x.all else x.longRuns.flatten)

/-- Where a segment of an exchange buffer stands: bucket, sending device, sending pipeline, sending morsel (R118). -/
def exchangeKey (bucket dev pipe m : Nat) : Nat := ((bucket * 8 + dev) * 256 + pipe) * 2 ^ 32 + m

/-- Rows of each bucket of an exchange buffer that holds any, in order. -/
def Mat.buckets (x : Mat) : List Nat :=
  let bs := (x.segs.map fun e => e.1 / 2 ^ 43).eraseDups
  bs.map fun b => x.segs.foldl (fun n e => if e.1 / 2 ^ 43 = b then n + e.2.length else n) 0

/-- The spans of rows of the morsels of an exchange buffer: no morsel spans two buckets (R118). -/
def bucketSpans (rows : Nat) : Nat → List Nat → List (Nat × Nat)
  | _, [] => []
  | lo, n :: r => ((List.range (ceilDiv n rows)).map fun i => (lo + i * rows, lo + min ((i + 1) * rows) n)) ++ bucketSpans rows (lo + n) r

end Sys2Proof.Machine
end

