-- ==== Sys2Proof/Machine/Columns.lean ====
section
/-! DEFINITION. Machine/Columns.lean: column layouts (05): the Druiz Column Block and its encodings (R155 to R166), sequence and
page directories (R168, R170), Parquet pages (R169 to R171), plain arrays (R172), the order of the checks (R546), Arrow
buffers (R175). -/

namespace Sys2Proof.Machine

/-- A decoding, or the status it fails with (R177). -/
abbrev Dec (α : Type) := Except Nat α

/-- A condition, or a status. -/
def need (ok : Bool) (code : Nat) : Dec Unit := if ok then .ok () else .error code

/-- f over a list, the first failure ending it. -/
def mapDec {α β : Type} (f : α → Dec β) : List α → Dec (List β)
  | [] => .ok []
  | x :: r => match f x with
    | .error e => .error e
    | .ok y => match mapDec f r with
      | .error e => .error e
      | .ok l => .ok (y :: l)

/-! ## Packed arrays and encodings (R157 to R164) -/

/-- Field i of a packed array of w-bit fields (R157). -/
def packedField (bs : List Byte) (w i : Nat) : Nat := fieldLE bs (i * w / 8) ((i * w % 8 + w + 7) / 8) / 2 ^ (i * w % 8) % 2 ^ w

/-- A number as n bytes of packed w-bit fields, rounded up to a multiple of 8 bytes (R157). -/
def packFields (w : Nat) (xs : List Nat) : List Byte :=
  let n := xs.foldr (fun x acc => x % 2 ^ w + acc * 2 ^ w) 0
  natLE (roundUp (ceilDiv (xs.length * w) 8) 8) n

/-- Bytes of a packed array (R157). -/
def packedLen (w n : Nat) : Nat := roundUp (ceilDiv (n * w) 8) 8

/-- A 64-bit value in an exact type; none where it lies outside the range (R163, R164). -/
def inType (t : Nat) (x : DWord) : Option Val :=
  let z : Int := if isUInt t then x.toNat else x.toInt
  if inTy t z then some (.int z) else none

/-- A w-bit field extended to 64 bits (R160). -/
def extend (t w x : Nat) : DWord := if isUInt t then BitVec.ofNat 64 x else (BitVec.ofNat w x).signExtend 64

/-- Rows of the PLAIN layout (R159): the bytes of each row and the bytes used; none where the structure is wrong.
`boolBytes` gives BOOL a byte each, as a dictionary does (R162). -/
def plainRows (t a : Nat) (boolBytes : Bool) (n : Nat) (bs : List Byte) : Option (List (List Byte) × Nat) :=
  if t = 0x10 then
    let off := fun i => fieldLE bs (4 * i) 4
    let base := roundUp (4 * (n + 1)) 8
    let total := roundUp (base + off n) 8
    if off 0 = 0 && (List.range n).all (fun i => off i ≤ off (i + 1) && off (i + 1) ≤ off i + 65535) && total ≤ bs.length then
      some ((List.range n).map (fun i => sub bs (base + off i) (off (i + 1) - off i)), total)
    else none
  else if t = 1 && !boolBytes then
    if packedLen 1 n ≤ bs.length then
      some ((List.range n).map (fun i => [BitVec.ofNat 8 (packedField bs 1 i)]), packedLen 1 n)
    else none
  else
    let w := tyWidth t a
    if roundUp (n * w) 8 ≤ bs.length then some ((List.range n).map (fun i => sub bs (i * w) w), roundUp (n * w) 8) else none

/-- The rows of a data part under an encoding (R158 to R164), each as bytes or as an exact value; the status where the
structure is wrong or a DICT code is out of range. Rows that are null may hold anything. -/
def dataRows (t a enc w n : Nat) (valid : Nat → Bool) (bs : List Byte) : Dec (List (Option Val)) :=
  let size := bs.length
  let nums := fun (f : Nat → DWord) => (List.range n).map fun i => inType t (f i)
  match enc with
  | 0 =>
    if size = 0 && (List.range n).all (fun i => !valid i) then .ok (List.replicate n none)
    else match plainRows t a false n bs with
      | some (rows, used) => if used = size then .ok (rows.map (valOf t)) else .error 0x0444
      | none => .error 0x0444
  | 1 => if packedLen w n = size then .ok (nums fun i => extend t w (packedField bs w i)) else .error 0x0444
  | 2 =>
    let k := fieldLE bs 0 4
    let vals := roundUp (8 + 2 * k) 8
    let len := fun i => fieldLE bs (8 + 2 * i) 2 + 1
    let tw := tyWidth t a
    if 1 ≤ k && k ≤ 65536 && roundUp (vals + k * tw) 8 = size && (List.range k).foldl (fun s i => s + len i) 0 = n then
      .ok ((List.range k).flatMap fun i => List.replicate (len i) (valOf t (sub bs (vals + i * tw) tw)))
    else .error 0x0444
  | 3 =>
    let k := fieldLE bs 0 4
    match (if 1 ≤ k && k ≤ 65536 then plainRows t a true k (bs.drop 8) else none) with
    | none => .error 0x0444
    | some (dict, used) =>
      let codes := bs.drop (8 + used)
      if packedLen w n ≠ codes.length then .error 0x0444
      else if (List.range n).any fun i => valid i && k ≤ packedField codes w i then .error 0x0445
      else .ok ((List.range n).map fun i => (dict[packedField codes w i]?).bind (valOf t))
  | 4 =>
    if 8 + packedLen w (n - 1) ≠ size then .error 0x0444
    else
      let d := fun i => let z : DWord := BitVec.ofNat 64 (packedField (bs.drop 8) w i); (z >>> 1) ^^^ -(z &&& 1)
      let vs := (List.range (n - 1)).foldl (fun (l : List DWord) i => (l.headD 0 + d i) :: l) [BitVec.ofNat 64 (fieldLE bs 0 8)]
      .ok (vs.reverse.map (inType t))
  | _ =>
    if 8 + packedLen w n ≠ size then .error 0x0444
    else .ok (nums fun i => BitVec.ofNat 64 (fieldLE bs 0 8) + BitVec.ofNat 64 (packedField (bs.drop 8) w i))

/-- Whether an encoding and its ENCW fit the type (R158). -/
def encOk (t enc w : Nat) : Bool :=
  let num := isInteger t || isTime t
  match enc with
  | 0 => w = 0
  | 1 => num && 1 ≤ w && w ≤ 8 * tyWidth t 0
  | 2 => t ≠ 0x10 && w = 0
  | 3 => 1 ≤ w && w ≤ 16
  | 4 | 5 => num && 1 ≤ w && w ≤ 64
  | _ => false

/-- Length of a validity bitmap (R156). -/
def bitmapLen (n : Nat) : Nat := roundUp (ceilDiv n 8) 8

/-- A DCB header's fields. -/
structure DcbHead where
  ty : Nat
  attr : Nat
  enc : Nat
  defl : Bool
  encw : Nat
  rows : Nat
  nulls : Nat
  dataLen : Nat
  rawLen : Nat

/-- A DCB header (R155); 0x0440 where it is not valid. -/
def dcbHead (h : List Byte) : Dec DcbHead :=
  let x : DcbHead :=
    { ty := fieldLE h 4 1, attr := fieldLE h 5 1, enc := fieldLE h 6 1 % 16, defl := bit (fieldLE h 6 1) 4, encw := fieldLE h 7 1
      rows := fieldLE h 8 4, nulls := fieldLE h 12 4, dataLen := fieldLE h 16 4, rawLen := fieldLE h 20 4 }
  let ok := fieldLE h 0 4 = 0x31424344 && !bit (fieldLE h 6 1) 7 && tyOk x.ty x.attr && encOk x.ty x.enc x.encw
    && 1 ≤ x.rows && x.rows ≤ 65536 && x.nulls ≤ x.rows && x.dataLen ≤ 0x1000000 && x.rawLen ≤ 0x1000000 && x.rawLen % 8 = 0
    && (x.defl || (x.dataLen % 8 = 0 && x.rawLen = x.dataLen))
  if ok then .ok x else .error 0x0440

/-- Bytes of a block (R155). -/
def DcbHead.size (x : DcbHead) : Nat := 64 + (if x.nulls = 0 then 0 else bitmapLen x.rows) + x.dataLen

/-- The values of a block (R546 steps 2 to 9): `rows` is what its directory entry gives. -/
def dcbValues (t a rows : Nat) (x : DcbHead) (bs : List Byte) : Dec (List Val) := do
  need (x.ty = t && x.attr = a) 0x0442
  need (x.rows = rows) 0x0448
  let v := if x.nulls = 0 then 0 else bitmapLen x.rows
  let body := sub bs 64 (v + x.dataLen)
  need (crc64 body = BitVec.ofNat 64 (fieldLE bs 0x18 8)) 0x0441
  let valid := fun i => x.nulls = 0 || packedField body 1 i = 1
  need (x.nulls = 0 || ((List.range x.rows).countP (fun i => !valid i) = x.nulls
    && (List.range (8 * v - x.rows)).all fun i => packedField body 1 (x.rows + i) = 0)) 0x0443
  let stored := sub body v x.dataLen
  let data ← if x.defl then
      match inflateWrap 0 stored x.rawLen with
      | .ok d => if d.length = x.rawLen then Except.ok d else .error 0x0447
      | .error _ => .error 0x0447
    else .ok stored
  let vals ← dataRows t a x.enc x.encw x.rows valid data
  mapDec (fun (e : Option Val × Nat) =>
    if !valid e.2 then .ok .null else match e.1 with | some v => .ok v | none => .error 0x0446) vals.zipIdx

/-! ## Sources (R168 to R172) -/

/-- How a source is read: n bytes from an address of its space, or the status a read fails with. -/
abbrev Reader := Nat → Nat → Dec (List Byte)

/-- The rows of a sequence directory; 0x0448 where its header fails (R168). -/
def seqRows (rd : Reader) (addr len : Nat) : Dec Nat := do
  need (32 ≤ len) 0x0448
  let h ← rd addr 32
  need (fieldLE h 0 4 = 0x51424344 && fieldLE h 4 4 = 0 && fieldLE h 12 4 = 0 && 1 ≤ fieldLE h 8 4 && len = 32 + 16 * fieldLE h 8 4) 0x0448
  .ok (fieldLE h 16 8)

/-- Rows lo to hi - 1 among rows that begin at `first`. -/
def cut {α : Type} (first lo hi : Nat) (l : List α) : List α := (l.drop (lo - first)).take (hi - max lo first)

/-- Rows lo to hi - 1 of a block sequence (R168, R546). -/
def seqValues (rd : Reader) (t a addr len lo hi : Nat) : Dec (List Val) := do
  let total ← seqRows rd addr len
  let dir ← rd addr len
  let n := fieldLE dir 8 4
  let entry := fun i => (fieldLE dir (32 + 16 * i) 8, fieldLE dir (40 + 16 * i) 8)
  let next := fun i => if i + 1 = n then total else (entry (i + 1)).2
  let parts ← mapDec (fun i => do
    let (ad, first) := entry i
    need (ad % 64 = 0 && first < next i && (i ≠ 0 || first = 0)) 0x0448
    let x ← dcbHead (← rd ad 64)
    let bs ← rd ad x.size
    let vs ← dcbValues t a (next i - first) x bs
    .ok (cut first lo hi vs)) ((List.range n).filter fun i => (entry i).2 < hi && lo < next i)
  need (parts.flatten.length = hi - lo) 0x0448
  .ok parts.flatten

/-- Rows lo to hi - 1 of a plain array (R172). -/
def plainValues (rd : Reader) (t a addr lo hi : Nat) : Dec (List Val) := do
  let w := tyWidth t a
  let bs ← rd (addr + lo * w) ((hi - lo) * w)
  mapDec (fun i => match valOf t (sub bs (i * w) w) with | some v => .ok v | none => .error 0x0446) (List.range (hi - lo))

/-! ### Parquet (R169 to R171) -/

/-- Whether a physical type can be read as a type (R171). -/
def ptypeOk (pt tlen t a : Nat) : Bool :=
  match pt with
  | 0 => t = 1
  | 1 => (isInteger t && t ≠ 5 && t ≠ 9) || t = 0x0D || t = 0x0C
  | 2 => t = 5 || t = 9 || t = 0x0E || t = 0x0C
  | 4 => t = 0x0A
  | 5 => t = 0x0B
  | 6 => t = 0x10
  | 7 => (t = 0x11 && a + 1 = tlen) || (t = 0x0C && tlen ≤ 16)
  | _ => false

/-- The rows of a page directory (R170, R173): 0x0449 where its header fails, 0x044C where PTYPE does not fit. -/
def pageRows (rd : Reader) (t a addr len : Nat) : Dec Nat := do
  need (64 ≤ len) 0x0449
  let h ← rd addr 64
  let pt := fieldLE h 4 1
  let tlen := fieldLE h 12 4
  let dict := fieldLE h 0x18 8 ≠ 0
  need (fieldLE h 0 4 = 0x44515056 && [0, 1, 2, 4, 5, 6, 7].contains pt && [0, 2].contains (fieldLE h 5 1) && fieldLE h 6 1 ≤ 1
    && fieldLE h 7 1 = 0 && 1 ≤ fieldLE h 8 4 && len = 64 + 32 * fieldLE h 8 4
    && (if pt = 7 then 1 ≤ tlen && tlen ≤ 256 else tlen = 0)
    && (!dict || (1 ≤ fieldLE h 0x28 4 && fieldLE h 0x28 4 ≤ 65536)) && (sub h 0x2C 20).all (· = 0)) 0x0449
  need (ptypeOk pt tlen t a) 0x044C
  .ok (fieldLE h 0x10 8)

/-- A value in PLAIN of a physical type: its bytes and the bytes used. -/
def plainOne (pt tlen : Nat) (bs : List Byte) : Option (List Byte × Nat) :=
  let n := if pt = 1 || pt = 4 then 4 else if pt = 2 || pt = 5 then 8 else tlen
  if pt = 6 then
    (let m := fieldLE bs 0 4
     if 4 ≤ bs.length && 4 + m ≤ bs.length then some (sub bs 4 m, 4 + m) else none)
  else if n ≤ bs.length then some (bs.take n, n) else none

/-- n values in PLAIN and nothing after them (R169, R174): the bytes of each. -/
def plainPage (pt tlen : Nat) : Nat → List Byte → Option (List (List Byte))
  | 0, bs => if bs.isEmpty then some [] else none
  | n + 1, bs => do
    let (v, used) ← plainOne pt tlen bs
    let r ← plainPage pt tlen n (bs.drop used)
    some (v :: r)

/-- A ULEB128 number and the bytes after it. -/
def uleb : Nat → List Byte → Option (Nat × List Byte)
  | 0, _ => none
  | _ + 1, [] => none
  | n + 1, b :: r => if b.toNat < 128 then some (b.toNat, r) else (uleb n r).map fun p => (b.toNat % 128 + 128 * p.1, p.2)

/-- n values of the RLE/bit-packed hybrid of width w and nothing after them; the last bit-packed group may be filled up (R169, R174). -/
def hybrid (w : Nat) : Nat → Nat → List Byte → Option (List Nat)
  | 0, n, bs => if n = 0 && bs.isEmpty then some [] else none
  | fuel + 1, n, bs =>
    if n = 0 then (if bs.isEmpty then some [] else none)
    else do
      let (h, r) ← uleb 5 bs
      if h % 2 = 0 then
        let k := h / 2
        let b := ceilDiv w 8
        if k = 0 || n < k || r.length < b then none
        else (hybrid w fuel (n - k) (r.drop b)).map fun l => List.replicate k (fieldLE r 0 b) ++ l
      else
        let g := h / 2
        let k := min (8 * g) n
        if g = 0 || n + 8 ≤ 8 * g || r.length < ceilDiv (k * w) 8 then none
        else (hybrid w fuel (n - k) (r.drop (g * w))).map fun l => (List.range k).map (packedField r w) ++ l

/-- The zigzag form undone, modulo 2^64. -/
def unzig (z : Nat) : DWord := let x : DWord := BitVec.ofNat 64 z; (x >>> 1) ^^^ -(x &&& 1)

/-- The miniblocks of a delta block: the values they give after `last`, at most n. -/
def deltaMinis (minD : DWord) (per : Nat) : List Byte → Nat → DWord → List Byte → Option (List DWord × List Byte)
  | [], _, _, bs => some ([], bs)
  | w :: ws, n, last, bs =>
    if n = 0 then some ([], bs)
    else if 64 < w.toNat || bs.length < ceilDiv (min n per * w.toNat) 8 then none
    else do
      let k := min n per
      let vs := ((List.range k).foldl (fun (l : List DWord) i =>
        (l.headD last + minD + BitVec.ofNat 64 (packedField bs w.toNat i)) :: l) [])
      let (r, rest) ← deltaMinis minD per ws (n - k) (vs.headD last) (bs.drop (per * w.toNat / 8))
      some (vs.reverse ++ r, rest)

/-- The blocks of DELTA_BINARY_PACKED after the header: n values after `last`. -/
def deltaBlocks (per minis : Nat) : Nat → Nat → DWord → List Byte → Option (List DWord)
  | 0, n, _, _ => if n = 0 then some [] else none
  | fuel + 1, n, last, bs =>
    if n = 0 then some []
    else do
      let (m, r) ← uleb 10 bs
      if r.length < minis then none
      else
        let (vs, rest) ← deltaMinis (unzig m) per (r.take minis) n last (r.drop minis)
        let l ← deltaBlocks per minis fuel (n - vs.length) (vs.getLastD last) rest
        some (vs ++ l)

/-- DELTA_BINARY_PACKED: n values (R169). -/
def deltaPage (n : Nat) (bs : List Byte) : Option (List DWord) := do
  let (block, r) ← uleb 5 bs
  let (minis, r) ← uleb 5 r
  let (total, r) ← uleb 5 r
  let (first, r) ← uleb 10 r
  if minis = 0 || block % 128 ≠ 0 || block % minis ≠ 0 || block / minis % 32 ≠ 0 || total ≠ n then none
  else if n = 0 then some []
  else do
    let l ← deltaBlocks (block / minis) minis n (n - 1) (unzig first) r
    some (unzig first :: l)

/-- A physical value as a value of the op word's type (R171); none where it does not fit. -/
def physVal (pt t : Nat) (bs : List Byte) : Option Val :=
  match pt with
  | 1 | 2 =>
    let w := 8 * bs.length
    let z : Int := if isUInt t then (leNat bs : Int) else (BitVec.ofNat w (leNat bs)).toInt
    if inTy t z then some (.int z) else none
  | 6 => if bs.length ≤ 65535 then some (.bytes bs) else none
  | 7 =>
    if t = 0x0C then
      (let z := (BitVec.ofNat (8 * bs.length) (leNat bs.reverse)).toInt
       if inTy t z then some (.int z) else none)
    else some (.bytes bs)
  | _ => valOf t bs

/-- The values of a page that are not null, as bytes of the physical type (R169, R170). -/
def pageVals (pt tlen venc n : Nat) (dict : List (List Byte)) (bs : List Byte) : Option (List (List Byte)) :=
  match venc with
  | 0 =>
    if pt = 0 then
      (if bs.length = ceilDiv n 8 then some ((List.range n).map fun i => [BitVec.ofNat 8 (packedField bs 1 i)]) else none)
    else plainPage pt tlen n bs
  | 3 =>
    if bs.length < 4 || bs.length < 4 + fieldLE bs 0 4 then none
    else (hybrid 1 (8 * n + 1) n (sub bs 4 (fieldLE bs 0 4))).map fun l => l.map fun b => [BitVec.ofNat 8 b]
  | 5 => (deltaPage n bs).map fun l => l.map fun d => natLE (if pt = 1 then 4 else 8) d.toNat
  | _ =>
    match bs with
    | [] => if n = 0 then some [] else none
    | w :: r =>
      if 32 < w.toNat then none
      else match hybrid w.toNat (n + 1) n r with
        | none => none
        | some l => l.mapM fun c => dict[c]?

/-- A page's bytes and whether their length is the raw one; a stream that does not give it is 0x0447 (R170, R174). -/
def unwrapPage (on : Bool) (bs : List Byte) (raw : Nat) : Dec (List Byte × Bool) :=
  if on then
    match inflateWrap 2 bs raw with
    | .ok d => if d.length = raw then .ok (d, true) else .error 0x0447
    | .error _ => .error 0x0447
  else .ok (bs, bs.length = raw)

/-- The levels of a page, by row, and the bytes of its values (R169, R170). -/
def pageLevels (v2 : Bool) (maxdef deflen rows : Nat) (page : List Byte) : Option (List Nat × List Byte) :=
  let n := fieldLE page 0 4
  if maxdef = 0 then some (List.replicate rows 1, if v2 then page.drop deflen else page)
  else if !v2 && (page.length < 4 || page.length < 4 + n) then none
  else
    match hybrid 1 (rows + 1) rows (if v2 then page.take deflen else sub page 4 n) with
    | some l => if l.all (· ≤ 1) then some (l, if v2 then page.drop deflen else page.drop (4 + n)) else none
    | none => none

/-- The rows of one page: KIND and VENC first, then the decompression, then the structure with the entry's rows (R169 to R171, R174,
R546). -/
def pageValues (rd : Reader) (t : Nat) (h e : List Byte) (inPlace : Bool) : Dec (List Val) := do
  let pt := fieldLE h 4 1
  let zip := fieldLE h 5 1 = 2
  let tlen := fieldLE h 12 4
  let kind := fieldLE e 0x1C 1
  let venc := fieldLE e 0x1D 1
  let deflen := fieldLE e 0x1E 2
  let rows := fieldLE e 0x18 4
  let raw := fieldLE e 0x14 4
  let isDict := venc = 2 || venc = 8
  let hasDict := isDict && fieldLE h 0x18 8 ≠ 0
  let v2 := kind % 4 = 2
  need ((kind % 4 = 1 || kind % 4 = 2) && bits kind 6 2 = 0
    && (venc = 0 || isDict || (venc = 3 && pt = 0) || (venc = 5 && (pt = 1 || pt = 2)))) 0x044A
  let stored ← rd (fieldLE e 0 8) (fieldLE e 0x10 4)
  let lead := if v2 then deflen else 0
  let body ← unwrapPage (zip && (!v2 || bit kind 7)) (stored.drop lead) (raw - lead)
  let packed ← if hasDict then rd (fieldLE h 0x18 8) (fieldLE h 0x20 4) else Except.ok []
  let words ← if hasDict then unwrapPage zip packed (fieldLE h 0x24 4) else Except.ok ([], true)
  let page := stored.take lead ++ body.1
  let most := 0x1000000
  need (inPlace && body.2 && words.2 && isDict = hasDict && raw ≤ most && stored.length ≤ most && packed.length ≤ most && words.1.length ≤ most
    && (v2 || deflen = 0) && lead ≤ stored.length && lead ≤ raw && 1 ≤ rows && rows ≤ 65536) 0x044B
  let dict ← if hasDict then
      (match pageVals pt tlen 0 (fieldLE h 0x28 4) [] words.1 with
       | some l => Except.ok l
       | none => .error 0x044B)
    else Except.ok []
  match pageLevels v2 (fieldLE h 6 1) deflen rows page with
  | none => .error 0x044B
  | some lv =>
    match pageVals pt tlen venc (lv.1.countP (· = 1)) dict lv.2 with
    | none => .error 0x044B
    | some vals =>
      let place := lv.1.foldl (fun (p : List (Option (List Byte)) × List (List Byte)) l =>
        if l = 1 then (p.2.head? :: p.1, p.2.tail) else (none :: p.1, p.2)) ([], vals)
      mapDec (fun (b : Option (List Byte)) => match b with
        | none => .ok .null
        | some bs => match physVal pt t bs with | some v => .ok v | none => .error 0x0446) place.1.reverse

/-- Rows lo to hi - 1 of a Parquet column chunk (R170). -/
def pagesValues (rd : Reader) (t a addr len lo hi : Nat) : Dec (List Val) := do
  let total ← pageRows rd t a addr len
  let dir ← rd addr len
  let n := fieldLE dir 8 4
  let entry := fun i => sub dir (64 + 32 * i) 32
  let first := fun i => fieldLE (entry i) 8 8
  let rows := fun i => fieldLE (entry i) 0x18 4
  let parts ← mapDec (fun i => do
    let inPlace := (i ≠ 0 || first 0 = 0) && (i = 0 || first i = first (i - 1) + rows (i - 1)) && first i + rows i ≤ total
    let vs ← pageValues rd t dir (entry i) inPlace
    .ok (cut (first i) lo hi vs)) ((List.range n).filter fun i => first i < hi && lo < first i + rows i)
  need (parts.flatten.length = hi - lo) 0x044B
  .ok parts.flatten

/-- The rows a parameter source holds (R77, R173), or the column-format code. -/
def sourceRows (rd : Reader) (fmt t a addr len : Nat) : Dec Nat :=
  match fmt with
  | 0 => seqRows rd addr len
  | 1 => pageRows rd t a addr len
  | _ => if len % tyWidth t a = 0 then .ok (len / tyWidth t a) else .error 0x044D

/-- Rows lo to hi - 1 of a parameter source, decoded (R121). -/
def sourceValues (rd : Reader) (fmt t a addr len lo hi : Nat) : Dec (List Val) :=
  match fmt with
  | 0 => seqValues rd t a addr len lo hi
  | 1 => pagesValues rd t a addr len lo hi
  | _ => plainValues rd t a addr lo hi

/-! ## Writing blocks (R148, R155, R166) -/

/-- Every null row takes the value of the nearest earlier valid row, or of the first valid row (R166). -/
def fillNulls (vs : List Val) : List Val :=
  let d := (vs.find? (· ≠ .null)).getD .null
  (vs.foldl (fun (p : List Val × Val) v => let x := if v = .null then p.2 else v; (x :: p.1, x)) ([], d)).1.reverse

/-- The exact value of a filled row as a 64-bit pattern. -/
def word64 : Val → DWord
  | .int z => BitVec.ofInt 64 z
  | _ => 0

/-- The smallest width, at least 1, that holds a signed or unsigned exact value (R166). -/
def widthOf (t : Nat) (z : Int) : Nat :=
  if isUInt t then max 1 (if z.toNat = 0 then 0 else Nat.log2 z.toNat + 1)
  else let n := if z < 0 then (-z - 1).toNat else z.toNat; 1 + (if n = 0 then 0 else Nat.log2 n + 1)

/-- The runs of equal rows, each of at most 65,536. -/
def valRuns : List Val → List (Val × Nat)
  | [] => []
  | v :: r => match valRuns r with
    | (w, n) :: l => if w = v && n < 65536 then (v, n + 1) :: l else (v, 1) :: (w, n) :: l
    | [] => [(v, 1)]

/-- Bytes padded with zeros to a multiple of 8. -/
def pad8 (bs : List Byte) : List Byte := bs ++ List.replicate (roundUp bs.length 8 - bs.length) 0

/-- The PLAIN layout of rows (R159). -/
def plainBytes (t a : Nat) (boolBytes : Bool) (vs : List Val) : List Byte :=
  if t = 0x10 then
    let ls := vs.map fun v => (valBytes t a v).length
    let offs := ls.foldl (fun (p : List Nat) n => (p.headD 0 + n) :: p) [0]
    pad8 (offs.reverse.flatMap (natLE 4)) ++ pad8 (vs.flatMap (valBytes t a))
  else if t = 1 && !boolBytes then packFields 1 (vs.map fun v => if v = .bool true then 1 else 0)
  else pad8 (vs.flatMap (valBytes t a))

/-- The distinct values, ascending under R109 (R166). -/
def dictOf (t : Ty) (vs : List Val) : List Val :=
  vs.foldl (fun (l : List Val) v =>
    if l.contains v then l else (l.filter fun w => cmpVal t t w v ≤ 0) ++ [v] ++ l.filter fun w => 0 < cmpVal t t w v) []

/-- The smallest width, at least 1, that holds an unsigned number. -/
def bitsFor (n : Nat) : Nat := if n = 0 then 1 else Nat.log2 n + 1

/-- The candidate encodings of a block's rows (R148, R158, R166): ENC, ENCW and the data part. DELTA is never written;
a block of nulls only has an empty data part (R159; log entry 42). -/
def encodings (t a : Nat) (plainOnly : Bool) (vs : List Val) : List (Nat × Nat × List Byte) :=
  let plain := (0, 0, plainBytes t a false vs)
  let fs := fillNulls vs
  if vs.all (· = .null) then [(0, 0, [])]
  else if plainOnly then [plain]
  else
    let ws := fs.map fun v => match v with | .int z => z | _ => 0
    let num := isInteger t || isTime t
    let bp := ws.foldl (fun m z => max m (widthOf t z)) 1
    let lo := ws.foldl min (ws.headD 0)
    let hi := ws.foldl max (ws.headD 0)
    let fw := bitsFor (hi - lo).toNat
    let rs := valRuns fs
    let dict := dictOf (t, a) fs
    let dw := bitsFor (dict.length - 1)
    [plain]
      ++ (if num then [(1, bp, packFields bp (fs.map fun v => (word64 v).toNat))] else [])
      ++ (if t ≠ 0x10 && rs.length ≤ 65536 then
            [(2, 0, pad8 (natLE 8 rs.length ++ rs.flatMap (fun r => natLE 2 (r.2 - 1))) ++ pad8 (rs.flatMap fun r => valBytes t a r.1))]
          else [])
      ++ (if dict.length ≤ 65536 then
            [(3, dw, natLE 8 dict.length ++ plainBytes t a true dict ++ packFields dw (fs.map fun v => dict.idxOf v))]
          else [])
      ++ (if num then [(5, fw, natLE 8 (BitVec.ofInt 64 lo).toNat ++ packFields fw (ws.map fun z => (z - lo).toNat))] else [])

/-- The encoding STORE picks: the shortest data part, the lower ENC code on a tie (R148, R166). -/
def bestEncoding (l : List (Nat × Nat × List Byte)) : Nat × Nat × List Byte :=
  l.foldl (fun m e => if e.2.2.length < m.2.2.length then e else m) (l.headD (0, 0, []))

/-- MIN or MAX of a block (R155): a value's parameter layout, or its 16-byte prefix. -/
def limitBytes (t a : Nat) (v : Val) : List Byte := sub (valBytes t a v) 0 16

/-- A block of a column (R155, R166), its data part already encoded and, under a DEFLATE wrap, compressed. -/
def dcbOf (t a : Nat) (vs : List Val) (enc : Nat × Nat × List Byte) (defl : Option (List Byte)) : List Byte :=
  let nulls := vs.countP (· = .null)
  let real := vs.filter (· ≠ .null)
  let mmv := t ≠ 0x12 && !real.isEmpty
  let mmt := mmv && isBytes t && real.any fun v => 16 < (valBytes t a v).length
  let least := real.foldl (fun m v => if cmpVal (t, a) (t, a) v m < 0 then v else m) (real.headD .null)
  let most := real.foldl (fun m v => if 0 < cmpVal (t, a) (t, a) v m then v else m) (real.headD .null)
  let data := defl.getD enc.2.2
  let map := if nulls = 0 then [] else packFields 1 (vs.map fun v => if v = .null then 0 else 1)
  let flags := enc.1 + (if defl.isSome then 16 else 0) + (if mmv then 32 else 0) + (if mmt then 64 else 0)
  natLE 4 0x31424344 ++ natLE 1 t ++ natLE 1 a ++ natLE 1 flags ++ natLE 1 enc.2.1 ++ natLE 4 vs.length ++ natLE 4 nulls
    ++ natLE 4 data.length ++ natLE 4 enc.2.2.length ++ natLE 8 (crc64 (map ++ data)).toNat
    ++ (if mmv then limitBytes t a least ++ limitBytes t a most else List.replicate 32 0) ++ map ++ data

/-- Rows taken while a block's limits hold: 65,536 rows, and RAW_LEN at most 16 MiB in the encoding STORE picks (R166). -/
def blockRows (t a : Nat) (plainOnly : Bool) (vs : List Val) : Nat :=
  let n := min vs.length 65536
  let fits := fun k => (bestEncoding (encodings t a plainOnly (vs.take k))).2.2.length ≤ 0x1000000
  if fits n then n else ((List.range n).reverse.find? fun k => k ≠ 0 && fits k).getD 1

/-- The blocks of a column of a morsel (R148). -/
def blocksOf (t a : Nat) (plainOnly : Bool) : Nat → List Val → List (List Val)
  | 0, _ => []
  | _, [] => []
  | n + 1, vs => let k := blockRows t a plainOnly vs; vs.take k :: blocksOf t a plainOnly n (vs.drop k)

/-! ## Arrow buffers (R146, R175) -/

/-- The validity buffer of a segment: one bit per row up to the next byte (R175). -/
def arrowValidity (vs : List Val) : List Byte :=
  natLE (ceilDiv vs.length 8) (vs.foldr (fun v n => (if v = .null then 0 else 1) + 2 * n) 0)

/-- The offsets buffer of a VARBYTES segment (R175). -/
def arrowOffsets (vs : List Val) : List Byte :=
  ((vs.foldl (fun (p : List Nat) v => (p.headD 0 + (valBytes 0x10 0 v).length) :: p) [0]).reverse).flatMap (natLE 4)

/-- The values buffer of a segment (R175). -/
def arrowValues (t a : Nat) (vs : List Val) : List Byte :=
  if t = 1 then natLE (ceilDiv vs.length 8) (vs.foldr (fun v n => (if v = .bool true then 1 else 0) + 2 * n) 0)
  else vs.flatMap (valBytes t a)

end Sys2Proof.Machine
end

