-- ==== Sys2Proof/Machine/SourceReads.lean ====
section
/-! DEFINITION. Machine/SourceReads.lean: what a run reads by reference: host memory, volumes and partition HBM (R73, R119),
the reads a column source makes, and what volume reads leave behind (R24, R311 to R314, R415). -/

namespace Sys2Proof.Machine

/-! ## References (R73) -/

/-- A reference value's fields (R73). -/
structure Ref where
  addr : Nat
  len : Nat
  kind : Nat
  volume : Nat

/-- The reference that 16 bytes hold. -/
def refOf (bs : List Byte) : Ref := { addr := fieldLE bs 0 8, len := fieldLE bs 8 4, kind := fieldLE bs 12 2, volume := fieldLE bs 14 2 }

/-- Whether a reference's KIND and VOLUME are valid (R73, R77). -/
def Ref.valid (r : Ref) : Bool := r.kind ≤ 2 && (r.kind = 1 || r.volume = 0)

/-- n bytes of a volume from byte a on, for a context (R293, R294). -/
def State.volBytes (s : State) (ctx v a n : Nat) : Dec (List Byte) :=
  let lo := a / 4096
  let k := ceilDiv (a + n) 4096 - lo
  let e := s.volRefusal ctx v lo k false
  if e ≠ 0 then .error e
  else (mapDec (fun i => (s.readBlock v (lo + i)).res) (List.range k)).map fun bs => sub bs.flatten (a % 4096) n

/-- How a run of a context reads a space (R73). -/
def State.reader (s : State) (ctx : Nat) (r : Ref) : Reader := fun a n =>
  match r.kind with
  | 0 => if s.hostFails (fnOf ctx) a n then .error 0x0106 else .ok (s.hostRead (fnOf ctx) a n)
  | 1 => s.volBytes ctx r.volume a n
  | _ => if s.hbmOk ctx a n then .ok (s.hbmRead ctx a n) else .error 0x0602

/-- A value of a type from its 16 bytes, read by reference where it must be (R73); bytes that are no value of it read as null (log
entry 164). -/
def State.valueAt (s : State) (ctx : Nat) (t : Ty) (byref : Bool) (bs : List Byte) : Dec Val :=
  if byref || t.1 = 0x10 || (t.1 = 0x11 && 16 ≤ t.2) then
    let r := refOf bs
    (s.reader ctx r r.addr r.len).bind fun b =>
      match valOf t.1 b with
      | some v => .ok v
      | none => .error 0x0446
  else .ok ((valOf t.1 (sub bs 0 (tyWidth t.1 t.2))).getD .null)

/-! ## The reads of a source (R168, R170, R172) -/

/-- The ranges that reading rows lo to hi - 1 of a source takes: address and length. -/
def sourceRanges (rd : Reader) (fmt t a addr len lo hi : Nat) : List (Nat × Nat) :=
  match fmt with
  | 0 =>
    match rd addr len with
    | .error _ => []
    | .ok dir =>
      let n := fieldLE dir 8 4
      let first := fun i => fieldLE dir (40 + 16 * i) 8
      (addr, len) :: ((List.range n).filter fun i => first i < hi && (i + 1 = n || lo < first (i + 1))).filterMap fun i =>
        let ad := fieldLE dir (32 + 16 * i) 8
        match (rd ad 64).bind dcbHead with
        | .ok h => some (ad, h.size)
        | .error _ => none
  | 1 =>
    match rd addr len with
    | .error _ => []
    | .ok dir =>
      let pages := (List.range (fieldLE dir 8 4)).filterMap fun i =>
        let e := sub dir (64 + 32 * i) 32
        if fieldLE e 8 8 < hi && lo < fieldLE e 8 8 + fieldLE e 0x18 4 then some (fieldLE e 0 8, fieldLE e 0x10 4) else none
      [(addr, len)] ++ (if fieldLE dir 0x18 8 = 0 then [] else [(fieldLE dir 0x18 8, fieldLE dir 0x20 4)]) ++ pages
  | _ => [(addr + lo * tyWidth t a, (hi - lo) * tyWidth t a)]

/-- The streams that the storage source path inflates for rows lo to hi - 1 of a source: its DEFL data parts, or its GZIP pages with their
dictionary page (R246, R259). -/
def sourceStreams (rd : Reader) (fmt addr len lo hi : Nat) : Nat :=
  match rd addr len with
  | .error _ => 0
  | .ok dir =>
    if fmt = 0 then
      let n := fieldLE dir 8 4
      let first := fun i => fieldLE dir (40 + 16 * i) 8
      ((List.range n).filter fun i => first i < hi && (i + 1 = n || lo < first (i + 1))
        && (match (rd (fieldLE dir (32 + 16 * i) 8) 64).bind dcbHead with | .ok h => h.defl | .error _ => false)).length
    else if fmt = 1 && fieldLE dir 5 1 = 2 then
      let pages := (List.range (fieldLE dir 8 4)).filter fun i =>
        let e := sub dir (64 + 32 * i) 32
        fieldLE e 8 8 < hi && lo < fieldLE e 8 8 + fieldLE e 0x18 4 && (fieldLE e 0x1C 1 % 4 = 1 || bit (fieldLE e 0x1C 1) 7)
      pages.length + b2n (fieldLE dir 0x18 8 ≠ 0 && !pages.isEmpty)
    else 0

/-- The 4 KiB blocks that byte ranges touch. -/
def blocksOfRanges (rs : List (Nat × Nat)) : List Nat :=
  (rs.flatMap fun r => (List.range (ceilDiv (r.1 + r.2) 4096 - r.1 / 4096)).map (r.1 / 4096 + ·)).eraseDups

/-- The ABN a volume block is read from, where it is not cached. -/
def State.abnOf (s : State) (v lba : Nat) : Option Nat :=
  if ((s.arr (s.vol v).array).cached v lba).isSome then none
  else match mapAt (s.vol v).map lba with
    | some e => if e.kind = 0 then some (e.abn + (lba - e.vlba)) else none
    | none => none

/-- The slots of an array whose k data chunks these ABNs cover (R314). -/
def State.wholeSlots (s : State) (a : Nat) (abns : List Nat) : List Nat :=
  ((abns.filterMap fun n => ((s.arr a).slotOf n).map (·.1)).eraseDups).filter fun i =>
    let x := s.arr a
    (List.range ((x.geoOf i).k * 16)).all fun b => abns.contains (x.baseAbn i + b)

/-- Whether a slot's stored parity differs from what its data chunks give (R270, R314). -/
def State.parityBad (s : State) (a i : Nat) : Bool :=
  let x := s.arr a
  let st := x.stripe i
  let g := x.geoOf i
  (List.range 16).any fun b =>
    match (List.range g.k).mapM fun e => s.direct a i e b st with
    | none => false
    | some data => (List.range g.m).any fun p =>
        match s.direct a i (g.k + p) b st with
        | some d => d ≠ parityOf g.k p data
        | none => false

/-- What a run's reads of a volume's blocks leave behind: leaves used, relocations, chunks rebuilt, bytes counted (R24, R279,
R312, R313, R415). -/
def State.afterVolume (s : State) (ctx v bytes : Nat) (lbas : List Nat) : State :=
  let a := (s.vol v).array
  let s1 := lbas.foldl (fun (y : State) l => ((y.touch v l (l + 1) false).afterRead a (y.readBlock v l))) s
  (s1.queryRebuild a (lbas.filterMap fun l => s.abnOf v l)).meter ctx 3 bytes

/-- A slot read whole whose parity does not agree, where the array has SCANCHK (R314). -/
def State.scanFault (s : State) (v : Nat) (lbas : List Nat) : Option Nat :=
  let a := (s.vol v).array
  if (s.arr a).scanchk then (s.wholeSlots a (lbas.filterMap fun l => s.abnOf v l)).find? (s.parityBad a) else none

/-- VIGIL's record of a parity mismatch: the array and the slot (R314; log entry 21). -/
def State.scanRecord (s : State) (ctx a slot : Nat) : State :=
  s.record Config.scanRecord.1.toNat ctx 0x33 Config.scanRecord.2.toNat a 0 (BitVec.ofNat 32 slot) false 0x0580

end Sys2Proof.Machine
end

