-- ==== Sys2Proof/Machine/Spectral.lean ====
section
/-! DEFINITION. Machine/Spectral.lean: the discrete Fourier transform of a SPECTRAL window (R138, R139): its exact value in fixed
point, and what the open order of the butterflies adds to it (R140; log entry 13). -/

namespace Sys2Proof.Machine

/-- Fraction bits of the fixed-point cosines and sines. -/
def trigBits : Nat := 160

/-- 1 in that fixed point. -/
def trigOne : Int := 2 ^ trigBits

/-- Cosine and sine of 2 pi / 2^k, for k from 2 on, by half angles. -/
def turnPart : Nat → Int × Int
  | 0 => (0, trigOne)
  | k + 1 =>
    let c := (turnPart k).1
    let root := fun (z : Int) => ((isqrt (z * trigOne / 2).toNat : Nat) : Int)
    (root (trigOne + c), root (trigOne - c))

/-- The product of two complex fixed-point numbers. -/
def turnMul (x y : Int × Int) : Int × Int := ((x.1 * y.1 - x.2 * y.2) / trigOne, (x.1 * y.2 + x.2 * y.1) / trigOne)

/-- The powers e^(2 pi i n / 2^k), n from 0 to 2^k - 1: those of half the turn, and those times one step more. -/
def turns : Nat → List (Int × Int)
  | 0 => [(trigOne, 0)]
  | k + 1 =>
    let step : Int × Int := if k = 0 then (-trigOne, 0) else turnPart (k - 1)
    (turns k).flatMap fun w => [w, turnMul w step]

/-- The window function at a place whose cosine is c (R138). -/
def windowAt (win : Nat) (c : Int) : Int :=
  match win with
  | 0 => trigOne
  | 1 => (trigOne - c) / 2
  | _ => (54 * trigOne - 46 * c) / 100

/-- An FP32 number's exact value in units of 2^-1074; 0 for what is not finite. -/
def exact32 (b : BitVec 32) : Int := (fpExact f32 b.toNat).getD 0

/-- The parts of X[k], each as a numerator over 2^1074 times 2^(2 trigBits) (R138). -/
def dftExact (nlog win k : Nat) (xs : List (BitVec 32 × BitVec 32)) : Int × Int :=
  let ts := turns nlog
  let n := 2 ^ nlog
  (xs.zipIdx.zip ts).foldl (fun (p : Int × Int) e =>
    let w := windowAt win e.2.1
    let re := w * exact32 e.1.1.1
    let im := w * exact32 e.1.1.2
    let t := nth ts (k * e.1.2 % n) (trigOne, 0)
    (p.1 + (re * t.1 + im * t.2), p.2 + (im * t.1 - re * t.2))) (0, 0)

/-- How far any order of radix-2 butterflies under R107 may round a part away from the exact transform, in the units of `dftExact`, for
values of absolute sum n: eight roundings a stage, each at most one unit in the last place of n or of the smallest number. Nothing rounds
where only the window's first value is not zero and WINFN is 0: its factors are 1 (log entry 13). -/
def spectralError (nlog win n : Nat) (xs : List (BitVec 32 × BitVec 32)) : Nat :=
  if win = 0 && (xs.drop 1).all (fun x => exact32 x.1 = 0 && exact32 x.2 = 0) then 0
  else 8 * (nlog + 2) * (n / 2 ^ 23 + 2 ^ (nlog + 1074 - 149)) * 2 ^ (2 * trigBits)

/-- A part of X[k]: the exact one rounded to FP32, or the open one within the butterflies' error of it. Zero inputs give a zero; where
inputs are not finite, or a sum may overflow, it is any number or the canonical NaN (log entry 13). -/
def spectralPart (nlog win k : Nat) (xs : List (BitVec 32 × BitVec 32)) (im : Bool) (exact : Int) : Nat :=
  let all := xs.flatMap fun x => [x.1, x.2]
  let finite := all.all fun b => (fpExact f32 b.toNat).isSome
  let sum := all.foldl (fun (n : Nat) b => n + (exact32 b).natAbs) 0
  let z := (Config.spectralBits nlog win xs k im).toNat
  if finite && sum = 0 then f32.signed (z.testBit 31) 0
  else if !finite || 2 ^ (1074 + 126) ≤ sum then (if (unpack f32 z).isNan then f32.nan else z)
  else
    match fpExact f32 z with
    | some v => if (v * 2 ^ (2 * trigBits) - exact).natAbs ≤ spectralError nlog win sum xs then z else ratToFp f32 exact (2 ^ (1074 + 2 * trigBits))
    | none => ratToFp f32 exact (2 ^ (1074 + 2 * trigBits))

/-- X[k] of a window as its CF32 parts (R138, R139). -/
def spectralBin (nlog win k : Nat) (xs : List (BitVec 32 × BitVec 32)) : Nat × Nat :=
  let z := dftExact nlog win k xs
  (spectralPart nlog win k xs false z.1, spectralPart nlog win k xs true z.2)

/-- |X[k]|^2 in FP32 (R139). -/
def spectralPower (x : Nat × Nat) : Nat := (fpAdd f32 (fpMul f32 x.1 x.1).1 (fpMul f32 x.2 x.2).1).1

end Sys2Proof.Machine
end

