-- ==== Sys2Proof/Machine/RowOps.lean ====
section
/-! DEFINITION. Machine/RowOps.lean: what the op words between source and sink do to the rows of a morsel (04). -/

namespace Sys2Proof.Machine

/-! ## A morsel's rows -/

/-- Value index of mask k. -/
def maskAt (k : Nat) : Nat := 64 + k
/-- Value index of whether a row is active. -/
def actAt : Nat := 80
/-- Value index of the first LIMIT position. -/
def limAt : Nat := 81

/-- Whether a row is active. -/
def rowAct (x : Row) : Bool := rowCol x actAt = .bool true

/-- A row with value k replaced. -/
def rowPut (x : Row) (k : Nat) (v : Val) : Row := { x with vals := setNth x.vals k v }

/-- A row with values from k on. -/
def rowPuts (x : Row) (k : Nat) (vs : List Val) : Row := vs.zipIdx.foldl (fun y e => rowPut y (k + e.2) e.1) x

/-- An active row whose slots hold nothing yet; a mask that no op word has written is UNKNOWN (log entry 159). -/
def freshRow (ix : Nat) : Row := { ix := ix, vals := List.replicate 80 .null ++ [.bool true] }

/-- The active rows. -/
def Eval.active (e : Eval) : List Row := e.rows.filter rowAct

/-- The morsel an op word works on. -/
structure OpEnv where
  s : State
  r : Run
  pl : Plan
  pipe : Nat
  m : Nat

/-- Statuses whose result word 0 is the op word's place (R95, R121, R204, R314; log entry 61). -/
def placedStatus (st : Nat) : Bool :=
  st = 0x40C || st = 0x40D || st = 0x40F || (0x440 ≤ st && st < 0x480) || st = 0x580

/-- A failure at op word k of a pipeline: status, result word 0 (R95). -/
def failAt (pipe k st : Nat) : Nat × Nat := (st, if placedStatus st then pipe * 0x10000 + k else 0)

/-- An op word's result on a morsel, or the status and result word 0 that end the run. -/
abbrev Step (α : Type) := Except (Nat × Nat) α

/-- A decoding's result at an op word. -/
def OpEnv.at_ {α : Type} (v : OpEnv) (k : Nat) (d : Dec α) : Step α :=
  match d with
  | .ok x => .ok x
  | .error st => .error (failAt v.pipe k st)

/-- f over a list, the first failure ending it. -/
def mapStep {α β : Type} (f : α → Step β) : List α → Step (List β)
  | [] => .ok []
  | x :: r => match f x with
    | .error e => .error e
    | .ok y => match mapStep f r with
      | .error e => .error e
      | .ok l => .ok (y :: l)

/-- f applied to the active rows. -/
def mapActive (f : Row → Step Row) (rows : List Row) : Step (List Row) := mapStep (fun x => if rowAct x then f x else .ok x) rows

/-! ## Operands (R63, R68, R73) -/

/-- The type of an operand before op word k. -/
def OpEnv.ty (v : OpEnv) (k : Nat) (w : OpWord) (x : Nat) : Ty :=
  match omode x with
  | 0 => v.pl.slotTy v.pipe k (oix x)
  | 2 => match v.pl.params[oix x]? with
    | some p => if p.byref then (w.ty, w.attr) else (p.ty, p.attr)
    | none => (0, 0)
  | 5 => (1, 0)
  | _ => (w.ty, w.attr)

/-- The 16 bytes of a constant or parameter, none where it is null. -/
def OpEnv.raw (v : OpEnv) (x : Nat) : ParamVal :=
  match omode x with
  | 1 => v.pl.consts[oix x]?
  | 2 => nth v.r.params (oix x) none
  | _ => none

/-- The value of a constant or parameter operand (R63, R73). -/
def OpEnv.fixed (v : OpEnv) (w : OpWord) (x : Nat) : Dec Val :=
  match v.raw x with
  | none => .ok .null
  | some bs =>
    let byref := omode x = 2 && (v.pl.params[oix x]?).any (·.byref)
    v.s.valueAt v.r.ctx.toNat (v.ty 0 w x) byref bs

/-- What an operand holds in a row. -/
def OpEnv.operand (v : OpEnv) (w : OpWord) (x : Nat) : Dec (Row → Val) :=
  match omode x with
  | 0 => .ok fun r => rowCol r (oix x)
  | 5 => .ok fun r => rowCol r (maskAt (oix x))
  | 15 => .ok fun _ => .null
  | _ => (v.fixed w x).map fun c => fun _ => c

/-- A number that a constant or parameter holds; none where it is null (log entry 62). -/
def OpEnv.number (v : OpEnv) (w : OpWord) (x : Nat) : Option Nat :=
  match v.fixed w x with
  | .ok (.int z) => some z.toNat
  | .ok .null => none
  | _ => (v.raw x).map fun bs => fieldLE bs 0 8

/-- The column slots an op word reads (R102, R103). -/
def OpWord.reads (pl : Plan) (w : OpWord) : List Nat :=
  let run := fun x n => if omode x = 0 then (List.range n).map (oix x + ·) else []
  match w.op with
  | 2 | 8 | 0x12 | 0x14 => run w.a 1
  | 3 => run w.a 1 ++ run w.b 1 ++ run w.c 1
  | 4 => if w.flags = 0x11 then run w.a w.imm else run w.a 1 ++ run w.b 1 ++ run w.c 1
  | 5 => run w.a 1 ++ run w.b 1
  | 6 | 0x0A | 0x0C => run w.a w.nkey ++ run w.b w.ncol
  | 7 => run w.a w.nkey
  | 9 => run w.a w.nkey ++ (aggList pl w).filterMap (·.2)
  | 0x0D => run w.a w.nkey ++ run w.b w.ncol
  | 0x0E | 0x10 | 0x11 => run w.a w.ncol
  | 0x13 => run w.a (w.nkey + w.ncol) ++ run w.b 1
  | _ => []

/-- The status of an encoded column that an op word names and that does not decode (R121; log entry 63). -/
def Eval.firstErr (e : Eval) (slots : List Nat) : Option Nat :=
  (slots.findSome? fun k => (e.errs.find? fun x => x.1 = k)).map (·.2)

/-! ## FILTER (R123 to R125) -/

/-- IN: TRUE on a match; UNKNOWN for a null or a list with one; else FALSE (R123). -/
def inList (t : Ty) (list : List Val) (v : Val) (u : Ty) : Val :=
  if v = .null then .null
  else if list.any fun x => x ≠ .null && cmpVal t u v x = 0 then .bool true
  else if list.contains .null then .null
  else .bool false

/-- The values of an IN list (R123). -/
def OpEnv.listOf (v : OpEnv) (w : OpWord) : Dec (List Val) :=
  let c := (v.raw w.b).getD []
  let n := fieldLE c 0 4
  mapDec (fun i =>
    if packedField (c.drop (4 + 16 * n)) 1 i = 0 then .ok .null
    else v.s.valueAt v.r.ctx.toNat (w.ty, w.attr) false (sub c (4 + 16 * i) 16)) (List.range n)

/-- The ASTORE table a parameter names. -/
def OpEnv.table (v : OpEnv) (w : OpWord) (x : Nat) : ATable := v.s.atable ((v.number w x).getD 0)

/-- PATTERN on a value: a search per byte offset (R125), and how many were made. -/
def OpEnv.pattern (v : OpEnv) (w : OpWord) (bs : List Byte) : Val × Nat :=
  let t := v.table w w.b
  let n := 8 * 2 ^ (w.imm % 4)
  let hits := (List.range bs.length).map fun o => (v.s.search t (keyWords t.width (keyBytes (n / 8) (sub bs o n)))).1.isSome
  (.bool (hits.any id), bs.length * (banksIn t.banks).length)

/-- The predicate of FILTER on a row, before NOT. -/
def OpEnv.predicate (v : OpEnv) (k : Nat) (w : OpWord) : Dec (Row → Val) := do
  let a ← v.operand w w.a
  let b ← if w.flags % 16 = 8 || w.flags % 16 = 10 then Except.ok fun _ => Val.null else v.operand w w.b
  let c ← v.operand w w.c
  let ta := v.ty k w w.a
  let tb := v.ty k w w.b
  let tc := v.ty k w w.c
  let list ← if w.flags % 16 = 8 then v.listOf w else Except.ok []
  .ok fun r =>
    match w.flags % 16 with
    | 6 => and3 (pred3 3 tb ta (b r) (a r)) (pred3 3 ta tc (a r) (c r))
    | 7 => .bool (a r = .null)
    | 8 => inList ta list (a r) (w.ty, w.attr)
    | 9 => match a r, b r with
      | .bytes x, .bytes y => .bool (x.take y.length = y)
      | _, _ => .null
    | 10 => match a r with
      | .bytes x => (v.pattern w x).1
      | _ => .null
    | 11 => and3 (a r) (b r)
    | 12 => or3 (a r) (b r)
    | 13 => a r
    | 14 => a r
    | p => pred3 p ta tb (a r) (b r)

/-- FILTER: narrows, or writes a mask (R123). -/
def OpEnv.filter (v : OpEnv) (k : Nat) (w : OpWord) (e : Eval) : Step Eval := do
  let p ← v.at_ k (v.predicate k w)
  let res := fun r => if bit w.flags 4 then not3 (p r) else p r
  let count := if w.flags % 16 = 10 then
      (e.active.foldl (fun n r => match rowCol r (oix w.a) with | .bytes x => n + (v.pattern w x).2 | _ => n) 0)
    else 0
  let put := fun r => if omode w.dst = 5 then rowPut r (maskAt (oix w.dst)) (res r) else rowPut r actAt (.bool (res r = .bool true))
  .ok { e with rows := e.rows.map fun r => if rowAct r then put r else r, searches := e.searches + count }

/-! ## PROJECT (R126, R545) -/

/-- An operand expressed in the result's type (R126, R545); none is the trap. -/
def OpEnv.express (v : OpEnv) (k : Nat) (w : OpWord) (x : Nat) (val : Val) : Option Val := castVal v.pl.arith (v.ty k w x) (w.ty, w.attr) val

/-- A built-in function of PROJECT on a row; none is the trap. -/
def OpEnv.project1 (v : OpEnv) (k : Nat) (w : OpWord) (a b c : Row → Val) (r : Row) : Option Val :=
  let ta := v.ty k w w.a
  let tb := v.ty k w w.b
  let fn := w.flags
  if 1 ≤ fn && fn ≤ 7 then arith fn v.pl.arith (w.ty, w.attr) ta tb (a r) (if fn = 6 || fn = 7 then a r else b r)
  else match fn with
    | 0x08 => v.express k w w.a (a r)
    | 0x09 | 0x0A =>
      match a r, b r with
      | .null, _ => some .null
      | _, .null => some .null
      | x, y =>
        let d := cmpVal ta tb x y
        if (if fn = 9 then d ≤ 0 else 0 ≤ d) then v.express k w w.a x else v.express k w w.b y
    | 0x0B => if a r ≠ .null then v.express k w w.a (a r) else v.express k w w.b (b r)
    | 0x0C => some (and3 (a r) (b r))
    | 0x0D => some (or3 (a r) (b r))
    | 0x0E => some (not3 (a r))
    | 0x0F => some (pred3 w.imm ta tb (a r) (b r))
    | 0x10 => if a r = .bool true then v.express k w w.b (b r) else v.express k w w.c (c r)
    | 0x11 => some (.int (hashKey ((List.range w.imm).map fun i => ((v.pl.slotTy v.pipe k (oix w.a + i)).1, rowCol r (oix w.a + i)))).toNat)
    | _ => match a r with
      | .bytes bs => some (.int bs.length)
      | _ => some .null

/-- PROJECT's built-in functions (R126). -/
def OpEnv.project (v : OpEnv) (k : Nat) (w : OpWord) (e : Eval) : Step Eval := do
  let a ← if w.flags = 0x11 then Except.ok fun _ => Val.null else v.at_ k (v.operand w w.a)
  let b ← v.at_ k (v.operand w w.b)
  let c ← v.at_ k (v.operand w w.c)
  let rows ← mapActive (fun r => match v.project1 k w a b c r with
    | some x => .ok (rowPut r (oix w.dst) x)
    | none => .error (failAt v.pipe k 0x40C)) e.rows
  .ok { e with rows := rows }

/-! ## PROBE and APROBE (R129 to R131) -/

/-- A row's n key values from a slot on. -/
def keyVals (r : Row) (a n : Nat) : List Val := (List.range n).map fun i => rowCol r (a + i)

/-- PROBE (R129, R130): INNER and LEFT give new rows, the other kinds narrow or mark. -/
def OpEnv.probe (v : OpEnv) (k : Nat) (w : OpWord) (e : Eval) : Eval :=
  let j := oix w.b
  let cols := v.pl.colsOf j
  let n := w.nkey
  let x := v.r.mat j
  let build := x.all
  let shape := v.pl.buildShape j
  let tk := (List.range n).map fun i => v.pl.slotTy v.pipe k (oix w.a + i)
  let hasNull := build.any fun b => (List.range n).any fun i => rowCol b i = .null
  let keyNull := fun r => (keyVals r (oix w.a) n).contains .null
  let hits := fun (r : Row) =>
    if keyNull r then []
    else build.filter fun b => (List.range n).all fun i =>
      rowCol b i ≠ .null && cmpVal (nth tk i (0, 0)) (nth cols i (0, 0)) (rowCol r (oix w.a + i)) (rowCol b i) = 0
  let kind := w.flags % 8
  let pay := fun (b : Row) => (b.vals.drop shape.1).take shape.2
  let keep := fun (f : Row → List Row → Bool) => e.rows.map fun r => if rowAct r then rowPut r actAt (.bool (f r (hits r))) else r
  let rows := match kind with
    | 0 => e.active.flatMap fun r => (hits r).map fun b => rowPuts r (oix w.dst) (pay b)
    | 1 => e.active.flatMap fun r =>
        let h := hits r
        if h.isEmpty then [rowPuts r (oix w.dst) (List.replicate shape.2 .null)] else h.map fun b => rowPuts r (oix w.dst) (pay b)
    | 2 => keep fun _ h => !h.isEmpty
    | 3 => keep fun _ h => h.isEmpty
    | 4 => keep fun r h => !keyNull r && h.isEmpty && !hasNull
    | _ => e.rows.map fun r =>
        if rowAct r then
          rowPut r (oix w.dst) (if !(hits r).isEmpty then .bool true else if keyNull r || hasNull then .null else .bool false)
        else r
  { e with rows := rows, marks := e.marks ++ (e.active.flatMap fun r => (hits r).map fun b => (j, b.ix)).eraseDups }

/-- APROBE (R131). -/
def OpEnv.aprobe (v : OpEnv) (k : Nat) (w : OpWord) (e : Eval) : Eval :=
  let t := v.table w w.b
  let attr := (v.ty k w w.a).2
  let found := fun (r : Row) =>
    match keyOf t.keytype.toNat t.kattr.toNat t.width attr (rowCol r (oix w.a)) with
    | some key => if t.enable then v.s.search t key else (none, false)
    | none => (none, false)
  let mode := w.flags % 4
  let one := fun (r : Row) =>
    if rowCol r (oix w.a) = .null then
      (if mode = 2 then rowPuts r (oix w.dst) (if bit w.flags 2 then [.null, .null] else [.null])
       else rowPut r actAt (.bool (mode = 1 && bit w.flags 3)))
    else
      let f := found r
      if mode = 2 then
        (let a : Val := match f.1 with | some p => .int p | none => .null
         rowPuts r (oix w.dst) (if bit w.flags 2 then [a, .bool f.2] else [a]))
      else rowPut r actAt (.bool (f.1.isSome = (mode = 0)))
  let searched := (e.active.filter fun r => rowCol r (oix w.a) ≠ .null).length
  { e with rows := e.rows.map (fun r => if rowAct r then one r else r), searches := e.searches + searched * (banksIn t.banks).length }

/-! ## WINDOW (R137) -/

/-- The rows of the window's partition up to this one: keys, then the argument. -/
def windowGroup (ts : List Ty) (npart : Nat) (prior : List Row) (x : Row) : List Row :=
  match prior.getLast? with
  | some l => if sameKeys ts npart l x then prior ++ [x] else [x]
  | none => [x]

/-- Whether a row starts a new peer group after another (R137). -/
def samePeers (ts : List Ty) (npart nord : Nat) (x y : Row) : Bool :=
  (List.range nord).all fun i => sameVal (nth ts (npart + i) (0, 0)) (nth ts (npart + i) (0, 0)) (rowCol x (npart + i)) (rowCol y (npart + i))

/-- Rows at the end of a partition's prefix that are peers of its last row. -/
def peerTail (ts : List Ty) (npart nord : Nat) (g : List Row) : Nat :=
  match g.getLast? with
  | some l => (g.reverse.takeWhile (samePeers ts npart nord l)).length
  | none => 0

/-- Peer groups in a partition's prefix. -/
def peerGroups (ts : List Ty) (npart nord : Nat) : List Row → Nat
  | [] => 0
  | [_] => 1
  | x :: y :: r => (if samePeers ts npart nord x y then 0 else 1) + peerGroups ts npart nord (y :: r)

/-- A window function over the partition up to its row; none is the trap. -/
def OpEnv.windowValue (v : OpEnv) (k : Nat) (w : OpWord) (ts : List Ty) (g : List Row) (free : Nat) : Option Val :=
  let np := w.nkey
  let no_ := w.ncol
  let frame := w.imm / 65536
  let fn := w.flags % 16
  let args := (if frame = 0 then g else g.drop (g.length - (frame + 1))).map fun x => rowCol x (np + no_)
  match fn with
  | 1 => some (.int g.length)
  | 2 => some (.int (g.length - peerTail ts np no_ g + 1 : Nat))
  | 3 => some (.int (peerGroups ts np no_ g))
  | 8 =>
    match v.number w w.c with
    | none => some .null
    | some n => some (if n < g.length then rowCol (nth g (g.length - 1 - n) { ix := 0, vals := [] }) (np + no_) else .null)
  | _ => aggValue v.pl.arith free (nth [3, 2, 4, 5] (fn - 4) 0) false (v.ty k w w.b) args

/-- WINDOW: the state after the pipeline's last DONE morsel goes on (R137); the n rows of the morsel itself leave theirs, the rows after
them, which a later SPECTRAL brings in (R140), do not. -/
def OpEnv.window (v : OpEnv) (k : Nat) (w : OpWord) (own : Nat) (e : Eval) : Step Eval := do
  let np := w.nkey
  let n := np + w.ncol
  let ts := (List.range n).map fun i => v.pl.slotTy v.pipe k (oix w.a + i)
  let arg := fun r => if omode w.b = 0 then rowCol r (oix w.b) else .null
  let init := look [] (v.r.pipe v.pipe).window k
  let p ← e.rows.zipIdx.foldl (fun (acc : Step (List Row × List Row × List Row)) x => do
      let (done, g, kept) ← acc
      let r := x.1
      if rowAct r then
        let g1 := windowGroup ts np g { ix := r.ix, vals := keyVals r (oix w.a) n ++ [arg r] }
        match v.windowValue k w ts g1 (v.s.freeCtr + r.ix) with
        | some y => .ok (rowPut r (oix w.dst) y :: done, g1, if x.2 < own then g1 else kept)
        | none => .error (failAt v.pipe k 0x40C)
      else .ok (r :: done, g, kept)) (.ok ([], init, init))
  .ok { e with rows := p.1.reverse, win := put [] e.win k p.2.2 }

/-! ## SPECTRAL (R138 to R140) -/

/-- SPECTRAL on the rows of a morsel that covers source rows lo to hi - 1 (R138 to R140): a window for each multiple of HOP in
it that has N rows. The other slots of an output row are open (log entry 13); rows that a KERNEL made inactive enter the
windows as well (log entry 165). -/
def OpEnv.spectral (v : OpEnv) (k : Nat) (w : OpWord) (lo hi : Nat) (e : Eval) : Eval :=
  let n := 2 ^ (w.imm % 32)
  let hop := bits w.imm 20 8
  let bins := (v.number w w.b).getD 0
  let blo := bits bins 15 0
  let bhi := bits bins 31 16
  let cplx := fun (x : Val) => match x with
    | .f32 b => (b, (0 : BitVec 32))
    | .cf re im => (re, im)
    | _ => (0, 0)
  let starts := (List.range (ceilDiv hi hop)).map (· * hop) |>.filter fun j => lo ≤ j && j < hi && j - lo + n ≤ e.rows.length
  let stale := fun (j i : Nat) =>
    let t : Ty := if i < 64 then v.pl.slotTy v.pipe k i else (1, 0)
    (valOf t.1 (Config.staleSlot j i)).getD .null
  let rows := starts.flatMap fun j =>
    let xs := ((e.rows.drop (j - lo)).take n).map fun r => rowCol r (oix w.a)
    (List.range (bhi + 1 - blo)).map fun i =>
      let bin := blo + i
      let z := spectralBin (w.imm % 32) (w.flags % 4) bin (xs.map cplx)
      let x : Val := if xs.contains .null then .null
        else if bit w.flags 2 then .cf (BitVec.ofNat 32 z.1) (BitVec.ofNat 32 z.2) else .f32 (BitVec.ofNat 32 (spectralPower z))
      let base : Row := { ix := 0, vals := (List.range 80).map (stale j) ++ [.bool true] }
      rowPuts base (oix w.dst) [.int j, .int bin, x]
  { e with rows := rows.zipIdx.map fun x => { x.1 with ix := x.2 } }

/-! ## The op words in order -/

/-- LIMIT: every row passes for now, with its position in the morsel (R88, R144). -/
def limitOp (e : Eval) : Eval :=
  let passing := e.active
  let rows := (e.rows.foldl (fun (p : List Row × Nat) r =>
    if rowAct r then ({ r with vals := r.vals ++ [.int p.2] } :: p.1, p.2 + 1) else (r :: p.1, p.2)) ([], 0)).1.reverse
  let places := passing.map fun r => (r.vals.drop limAt).map fun x => match x with | .int z => z.toNat | _ => 0
  { e with rows := rows, lims := e.lims ++ [places] }

/-- Whether an op word runs a kernel (R126, R127). -/
def OpWord.kernel (w : OpWord) : Bool := w.op = 5 || (w.op = 4 && w.flags = 0x3F)

/-- Whether a row makes a search: its key is not null (R131), its bytes not empty (R125). -/
def searchesRow (w : OpWord) (r : Row) : Bool :=
  match rowCol r (oix w.a) with
  | .null => false
  | .bytes x => w.op = 8 || !x.isEmpty
  | _ => w.op = 8

/-- One op word after the sources and before the sink, kernels apart. -/
def OpEnv.one (v : OpEnv) (k : Nat) (w : OpWord) (lo hi : Nat) (e : Eval) : Step Eval :=
  match e.firstErr (w.reads v.pl) with
  | some st => .error (failAt v.pipe k st)
  | none =>
    let searches := w.op = 8 || (w.op = 3 && w.flags % 16 = 10)
    if searches && (v.table w w.b).fault && e.active.any (searchesRow w) then .error (failAt v.pipe k 0x0704)
    else match w.op with
    | 3 => v.filter k w e
    | 4 => (v.project k w e).map fun x => { x with errs := x.errs.filter fun y => y.1 ≠ oix w.dst }
    | 7 => .ok (v.probe k w e)
    | 8 => .ok (v.aprobe k w e)
    | 0x0F => .ok (limitOp e)
    | 0x13 =>
      let ws := v.pl.words v.pipe
      v.window k w (if (ws.drop k).any (·.op = 0x14) && !(ws.take k).any (·.op = 0x14) then hi - lo else e.rows.length) e
    | 0x14 => .ok (v.spectral k w (if ((v.pl.words v.pipe).take k).any (·.op = 0x14) then 0 else lo) hi e)
    | _ => .ok e

/-- The op words from index k on, up to a kernel or the sink. -/
def OpEnv.run (v : OpEnv) (lo hi : Nat) : Nat → Nat → Eval → Work
  | 0, _, e => .rows e
  | fuel + 1, k, e =>
    match (v.pl.words v.pipe)[k]? with
    | none => .rows e
    | some w =>
      if k + 1 = (v.pl.words v.pipe).length then .rows e
      else if w.kernel then
        match e.firstErr (w.reads v.pl) with
        | some st => .fails (BitVec.ofNat 16 st) (BitVec.ofNat 32 (failAt v.pipe k st).2) e.searches
        | none => .kernel k e
      else
        match v.one k w lo hi e with
        | .error x => .fails (BitVec.ofNat 16 x.1) (BitVec.ofNat 32 x.2) e.searches
        | .ok e' => v.run lo hi fuel (k + 1) e'

end Sys2Proof.Machine
end

