-- ==== Sys2Proof/Machine/Sinks.lean ====
section
/-! DEFINITION. Machine/Sinks.lean: what the sinks write: EMIT's segments (R145 to R147), STORE's segments and region (R148 to
R150), materialisations and their spill (R91, R93), EXCHANGE's rows (R141, R457); LIMIT's cut (R144). -/

namespace Sys2Proof.Machine

/-! ## Rows at the sink -/

/-- The columns that a sink stores of a row, taken from the row's slots (R128, R132, R135, R141, R143). -/
def sinkCols (w : OpWord) : List Nat :=
  let run := fun x n => if omode x = 0 then (List.range n).map (oix x + ·) else []
  match w.op with
  | 6 | 0x0A | 0x0C => run w.a w.nkey ++ run w.b w.ncol
  | 9 => run w.a w.nkey
  | 0x0D => run w.b w.ncol
  | _ => run w.a w.ncol

/-- What a sink stores of a row: AGG stores the argument of each aggregate, null where it has none. -/
def sinkVals (pl : Plan) (w : OpWord) (x : Row) : List Val :=
  (sinkCols w).map (rowCol x)
    ++ (if w.op = 9 then (aggList pl w).map fun e => match e.2 with | some k => rowCol x k | none => .null else [])

/-- The origin of the i-th row of morsel m. -/
def origin (m i : Nat) : Nat := m * 2 ^ 32 + i

/-- The rows of morsel m as a materialisation's sink stores them; BUILD keeps a null key out unless NULLKEY (R128). -/
def sinkRows (pl : Plan) (w : OpWord) (m : Nat) (rows : List Row) : List Row :=
  let all := rows.zipIdx.map fun e => { ix := origin m e.2, vals := sinkVals pl w e.1 : Row }
  if w.op = 6 && !bit w.flags 0 then all.filter fun x => (List.range w.nkey).all fun i => rowCol x i ≠ .null else all

/-- The types of a sink's columns before op word k. -/
def sinkTypes (pl : Plan) (pipe k : Nat) (w : OpWord) : List Ty := (sinkCols w).map (pl.slotTy pipe k)

/-! ## EMIT (R145 to R147, R175) -/

/-- The emit descriptor a run's EMIT names (R145). -/
def OpEnv.emitDesc (v : OpEnv) (w : OpWord) : List Byte :=
  let r := refOf ((v.raw w.dst).getD [])
  v.s.hostRead (fnOf v.r.ctx.toNat) r.addr (64 + 64 * w.ncol)

/-- Column entry i of an emit descriptor. -/
def emitCol (d : List Byte) (i : Nat) : List Byte := sub d (64 + 64 * i) 64

/-- Bytes of a column that a VARBYTES value area would hold. -/
def varLen (rows : List Row) (k : Nat) : Nat := rows.foldl (fun n r => match rowCol r k with | .bytes b => n + b.length | _ => n) 0

/-- Whether EMIT's output exceeds its segment (R147). -/
def emitFault (d : List Byte) (ts : List Ty) (cols : List Nat) (m : Nat) (rows : List Row) : Bool :=
  fieldLE d 0 4 ≤ m || fieldLE d 4 4 < rows.length
    || (ts.zip cols).zipIdx.any fun e => e.1.1.1 = 0x10 && fieldLE (emitCol d e.2) 4 4 < varLen rows e.1.2

/-- Directory entry m of an EMIT (R146). -/
def State.emitEntry (s : State) (fn : Nat) (d : List Byte) (m n : Nat) : State :=
  s.hostWrite fn (fieldLE d 8 8 + 16 * m) (natLE 4 n ++ natLE 4 1 ++ natLE 8 0)

/-- Segment m of an EMIT: every column's buffers, then the directory entry (R146, R175). -/
def State.emitSegment (s : State) (fn : Nat) (d : List Byte) (ts : List Ty) (cols : List Nat) (m : Nat) (rows : List Row) : State :=
  let per := fieldLE d 4 4
  let stride := fun n => roundUp n 64
  let s1 := (ts.zip cols).zipIdx.foldl (fun (x : State) e =>
    let t := e.1.1
    let vs := rows.map fun r => rowCol r e.1.2
    let c := emitCol d e.2
    let width := if t.1 = 1 then ceilDiv per 8 else if t.1 = 0x10 then fieldLE c 4 4 else per * tyWidth t.1 t.2
    let x1 := x.hostWrite fn (fieldLE c 8 8 + m * stride (ceilDiv per 8)) (arrowValidity vs)
    let x2 := if t.1 = 0x10 then x1.hostWrite fn (fieldLE c 16 8 + m * stride (4 * (per + 1))) (arrowOffsets vs) else x1
    x2.hostWrite fn (fieldLE c 24 8 + m * stride width) (arrowValues t.1 t.2 vs)) s
  s1.emitEntry fn d m rows.length

/-! ## STORE and COMPRESS (R148, R150) -/

/-- LEVEL of the COMPRESS op word that prepared slot k before op word n, none where none did or the slot was written since (R150). -/
def compressLevel (pl : Plan) (pipe n k : Nat) : Option Nat :=
  if look 0 (scopeAt pl pl.table (pl.words pipe) n).tags k ≠ 2 then none
  else (((pl.words pipe).take n).reverse.find? fun w => w.op = 0x12 && oix w.a = k).map fun w => w.flags % 16

/-- The blocks of a column as STORE writes them: those a COMPRESS op word prepared carry the DEFLATE wrap (R148, R150). -/
def columnBlocks (t : Ty) (plainOnly : Bool) (level : Option Nat) (vs : List Val) : List (List Byte) :=
  let plain := plainOnly && level.isNone
  (blocksOf t.1 t.2 plain vs.length vs).map fun b =>
    let enc := bestEncoding (encodings t.1 t.2 plain b)
    dcbOf t.1 t.2 b enc (level.map fun l => deflate l enc.2.2)

/-- Whether a verifying decoder finds what the encoder wrote of some bytes to be them: CRC-64, length and wrapper agree (R252). -/
def verifies (fault : Bool) (wrap : Nat) (out bs : List Byte) : Bool :=
  !fault && (match inflateWrap wrap out bs.length with | .ok d => crc64 d = crc64 bs && d.length = bs.length | .error _ => false)

/-- Whether the job of a slot that COMPRESS prepared verifies: every body of its column (R150, R253, R259). -/
def slotVerifies (fault : Bool) (t : Ty) (level : Nat) (vs : List Val) : Bool :=
  (blocksOf t.1 t.2 false vs.length vs).all fun b =>
    let raw := (bestEncoding (encodings t.1 t.2 false b)).2.2
    verifies fault 0 (deflate level raw) raw

/-- What the sink finds wrong with a morsel's rows (R121, R147); otherwise they stay. -/
def OpEnv.finish (v : OpEnv) (x : Work) : Work :=
  match x, v.pl.sink v.pipe with
  | .rows e, some w =>
    let k := (v.pl.words v.pipe).length - 1
    let fails := fun (st : Nat) => Work.fails (BitVec.ofNat 16 st) (BitVec.ofNat 32 (failAt v.pipe k st).2) e.searches
    match e.firstErr (w.reads v.pl) with
    | some st => fails st
    | none =>
      if w.op = 0x10 && emitFault (v.emitDesc w) (sinkTypes v.pl v.pipe k w) (sinkCols w) v.m e.active then fails 0x040F
      else x
  | _, _ => x

/-- The slots that COMPRESS prepared for a pipeline's STORE or SPILL (R150). -/
def OpEnv.squeezed (v : OpEnv) : List Nat :=
  match v.pl.sink v.pipe with
  | some w =>
    if w.op = 0x11 || w.op = 0x0E then
      (sinkCols w).eraseDups.filter fun k => (compressLevel v.pl v.pipe ((v.pl.words v.pipe).length - 1) k).isSome
    else []
  | none => []

/-- One encode job for each slot of a morsel that COMPRESS prepared, once its rows stand at the sink (R259). -/
def State.encodeJobs (s : State) (v : OpEnv) (x : Work) : State :=
  match x with
  | .rows _ => v.squeezed.foldl (fun (y : State) k => y.queueJob 1 (v.r.id, v.pipe, v.m) k) s
  | _ => s

/-- A segment of STORE: each column's blocks in column order, each on a 64-byte boundary (R148, R168). -/
def storeSegment (pl : Plan) (pipe : Nat) (w : OpWord) (rows : List Row) : List Byte :=
  let n := (pl.words pipe).length - 1
  (sinkCols w).flatMap fun k =>
    (columnBlocks (pl.slotTy pipe n k) (bit w.flags 0) (compressLevel pl pipe n k) (rows.map fun r => rowCol r k)).flatMap fun b =>
      b ++ List.replicate (roundUp b.length 64 - b.length) 0

/-- Where a STORE's segments come to lie in its region: offsets after the manifest, each on a 4 KiB boundary, and the end
(R148). -/
def storePlaces (sizes : List Nat) : List Nat × Nat :=
  let base := roundUp (64 + 16 * sizes.length) 4096
  let p := sizes.foldl (fun (p : List Nat × Nat) n => (p.2 :: p.1, p.2 + roundUp n 4096)) ([], base)
  (p.1.reverse, p.2)

/-- The manifest of a region (R148). -/
def storeManifest (ncol : Nat) (entries : List (Nat × Nat × Nat)) : List Byte :=
  let bs := natLE 8 entries.length ++ natLE 2 ncol ++ List.replicate 54 0
    ++ entries.flatMap fun e => natLE 8 e.1 ++ natLE 4 e.2.1 ++ natLE 4 e.2.2
  bs ++ List.replicate (roundUp bs.length 4096 - bs.length) 0

/-! ## Materialisations: room and spill (R91, R93) -/

/-- The first k rows of a TOPK's runs (R136). -/
def OpEnv.topRows (v : OpEnv) (j : Nat) (w : OpWord) (x : Mat) : List Row :=
  (orderRows (keysBefore (v.pl.colsOf j) w.kord w.nkey) x.all).take ((v.number w w.c).getD 0)

/-- The partition that a key's row spills with: bits 31:26 of DZH64 of the key (R91, R116). -/
def Plan.spillPart (pl : Plan) (j n : Nat) (x : Row) : Nat :=
  bits (hashKey ((List.range n).map fun i => ((nth (pl.colsOf j) i (0, 0)).1, rowCol x i))).toNat 31 26

/-- What each stored row of a materialisation spills with: a hash or aggregate table's partition, else its run (R91, R120, R134): the
groups of an AGG, the first k rows of a TOPK. -/
def OpEnv.spillUnits (v : OpEnv) (j : Nat) : List Nat :=
  let x := v.r.mat j
  match v.pl.matSink j with
  | none => []
  | some w =>
    if w.op = 9 then (v.pl.groups j w x).map fun g => v.pl.spillPart j w.nkey (g.headD { ix := 0, vals := [] })
    else if w.op = 6 then x.all.map (v.pl.spillPart j w.nkey)
    else if w.op = 0x0C then (v.topRows j w x).map fun r => r.ix / 2 ^ 32
    else if !x.longRuns.isEmpty then x.longRuns.zipIdx.flatMap fun e => e.1.map fun _ => e.2
    else x.segs.flatMap fun e => e.2.map fun _ => e.1

/-- The bytes of each unit of a materialisation: its rows times ROW_BYTES (log entry 64). -/
def OpEnv.unitBytes (v : OpEnv) (j : Nat) : SMap Nat :=
  let n := ((v.pl.mats[j]?).map (·.rowBytes)).getD 0
  (v.spillUnits j).foldl (fun m u => upd 0 m u (· + n)) []

/-- What must be spilled for the rest to fit: the units already spilled, then the lowest ones more (R91; log entry 64). -/
def spillMore (units : SMap Nat) (room : Nat) (old : List Nat) : List Nat :=
  let resident := units.foldl (fun n e => if old.contains e.1 then n else n + e.2) 0
  (units.foldl (fun (p : Nat × List Nat) e => if p.1 ≤ room || old.contains e.1 then p else (p.1 - e.2, p.2 ++ [e.1])) (resident, old)).2

/-- Runs merged 16 at a time into longer ones until at most 16 are left (R120). -/
def mergedRuns (lt : Row → Row → Bool) : Nat → List (List Row) → List (List Row)
  | 0, rs => rs
  | n + 1, rs =>
    if rs.length ≤ 16 then rs
    else mergedRuns lt n ((List.range (ceilDiv rs.length 16)).map fun i => orderRows lt ((rs.drop (16 * i)).take 16).flatten)

/-- The spill region of a materialisation (R62). -/
def OpEnv.spillRegion (v : OpEnv) (j : Nat) : Option Ref :=
  match v.pl.mats[j]? with
  | some x => if x.spillParam = 0xFFFF then none else (nth v.r.params x.spillParam none).map refOf
  | none => none

/-- Whether a materialisation spills by runs, which have their place by their morsel (R87, R91). -/
def OpEnv.byRuns (v : OpEnv) (j : Nat) : Bool := (v.pl.matSink j).any fun w => w.op ≠ 6 && w.op ≠ 9

/-- The blocks of the spill region that unit u of n bytes takes (log entry 64). A run's place follows from its morsel: the region is cut
into pieces as long as a morsel's rows, run m takes piece m, and each further piece of it one round of all morsels later. A hash partition
follows what the region held before it, from block next on. -/
def OpEnv.spillBlocks (v : OpEnv) (j u n next : Nat) : List Nat :=
  let piece := max 1 (ceilDiv (((v.pl.pipes[v.pipe]?).map (·.rows)).getD 0 * ((v.pl.mats[j]?).map (·.rowBytes)).getD 0) 4096)
  let round := max 1 ((v.r.pipe v.pipe).morsels.getD 1)
  (List.range (ceilDiv n 4096)).map fun i => if v.byRuns j then (i / piece * round + u) * piece + i % piece else next + i

/-- The blocks that units newly spilled take, in their order. -/
def OpEnv.spillPlaces (v : OpEnv) (j : Nat) (units : SMap Nat) (set : List Nat) (old : Nat) : List Nat :=
  (set.foldl (fun (p : Nat × List Nat) u =>
    let bs := v.spillBlocks j u (look 0 units u) p.1
    (p.1 + bs.length, p.2 ++ bs)) (ceilDiv old 4096, [])).2

/-- What a materialisation must spill so that the rest fits HBM_PAGES: the units spilled from then on, their bytes, and the blocks newly
written in the spill region (R91). -/
def OpEnv.spillPlan (v : OpEnv) (j : Nat) : List Nat × Nat × List Nat :=
  let x := v.r.mat j
  let units := v.unitBytes j
  let set := spillMore units (((v.pl.mats[j]?).map (·.hbmPages)).getD 0 * 0x200000) x.spillSet
  let past := units.foldl (fun n e => if set.contains e.1 then n + e.2 else n) 0
  let more := set.filter fun u => !x.spillSet.contains u
  let grown := if v.byRuns j then [] else (List.range (ceilDiv past 4096 - ceilDiv x.spilled 4096)).map (ceilDiv x.spilled 4096 + ·)
  (set, past, if v.byRuns j then v.spillPlaces j units more x.spilled else grown)

/-- Blocks of a volume's spill region written, one by one (R91). -/
def State.spillWrite (s : State) (r : Run) (g : Ref) (bs : List Nat) : State :=
  bs.foldl (fun (x : State) b =>
    { x.runWrite r.id g.volume r.ctx.toNat r.gen.toNat (g.addr / 4096 + b) [undefinedBytes x.freeCtr 4096] with freeCtr := x.freeCtr + 1 }) s

/-- A materialisation after it has grown: while it outgrows HBM_PAGES whole partitions or runs spill, or the run fails with 0x040D at
the sink (R91, R93; log entry 64). -/
def State.makeRoom (s : State) (rid j : Nat) (pl : Plan) : State :=
  match s.run? rid with
  | none => s
  | some r =>
    let p := ((pl.mats[j]?).map (·.producer)).getD 0
    let v : OpEnv := { s := s, r := r, pl := pl, pipe := p, m := 0 }
    let plan := v.spillPlan j
    let keep := fun (x : State) => x.updRun rid fun r => r.updMat j fun y => { y with spillSet := plan.1, spilled := max y.spilled plan.2.1 }
    let full := fun (_ : Unit) => s.failRun rid 0x040D (BitVec.ofNat 32 (p * 0x10000 + ((pl.words p).length - 1)))
    if plan.2.2.isEmpty then (if plan.1 = (r.mat j).spillSet then s else keep s)
    else
      match v.spillRegion j with
      | none => full ()
      | some g =>
        let e := (plan.2.2.map fun b => s.volRefusal r.ctx.toNat g.volume (g.addr / 4096 + b) 1 true).find? (· ≠ 0)
        if plan.2.2.any fun b => g.len < 4096 * (b + 1) then full ()
        else if e.isSome then s.failRun rid (e.getD 0) 0
        else keep ((s.spillWrite r g plan.2.2).meter r.ctx.toNat 4 (plan.2.2.length * 4096))

/-! ## EXCHANGE (R141, R457, R458) -/

/-- The devices of a mask, rising. -/
def devicesOf (m : BitVec 8) : List Nat := (List.range 8).filter fun e => m.getLsbD e

/-- The destination devices of an EXCHANGE, in order (R141, R457). -/
def OpEnv.destinations (v : OpEnv) (w : OpWord) : List Nat :=
  let me := v.s.pwr.devid.toNat
  let all := devicesOf (look {} v.s.plk.bindings ((v.number w w.c).getD 0 % 64)).devmask
  match w.flags % 4 with
  | 0 => [me]
  | 1 => all
  | _ => all.filter (· ≠ me)

/-- Where a row goes: destination devices, and the bucket (R116, R141). -/
def OpEnv.routeRow (v : OpEnv) (w : OpWord) (k : Nat) (x : Row) : List Nat × Nat :=
  let ds := v.destinations w
  match w.flags / 4 % 4 with
  | 0 =>
    let h := (hashKey ((List.range w.nkey).map fun i => ((v.pl.slotTy v.pipe k (oix w.a + i)).1, rowCol x (oix w.a + i)))).toNat
    ([nth ds (bits h 63 48 * ds.length / 65536) 0], bits h 47 32 * 2 ^ bits w.imm 11 8 / 65536)
  | 1 => (ds, 0)
  | _ => (ds.take 1, 0)

/-- The rows of a morsel sent to their destinations: the own ones into the own buffer, the others over PLK with the run's
CTX and GEN (R16, R141, R457, R458). -/
def State.exchange (s : State) (rid : Nat) (v : OpEnv) (w : OpWord) (k : Nat) (m : Nat) (rows : List Row) : State :=
  let j := oix w.dst
  let me := s.pwr.devid.toNat
  let placed := rows.map fun x => (v.routeRow w k x, x)
  let buckets := (placed.map fun e => e.1.2).eraseDups
  let sent := fun (d b : Nat) => (placed.filter fun e => e.1.1.contains d && e.1.2 = b).zipIdx.map fun e =>
    { ix := origin m e.2, vals := sinkVals v.pl w e.1.2 : Row }
  let b := (v.number w w.c).getD 0
  let own := fun (g : SMap (List Row)) =>
    buckets.foldl (fun (g : SMap (List Row)) q => put [] g (exchangeKey q me v.pipe m) (sent me q))
      (g.filter fun e => e.1 % 2 ^ 43 ≠ exchangeKey 0 me v.pipe m)
  let s1 := s.updRun rid fun r => r.updMat j fun x => { x with segs := own x.segs }
  ((v.destinations w).filter (· ≠ me)).foldl (fun (y : State) d =>
    buckets.foldl (fun (z : State) q =>
      if (sent d q).isEmpty then z
      else z.plkSend d (.plkRows d (b % 64) (BitVec.ofNat 32 (b / 2 ^ 32)) v.r.ctx v.r.gen j v.pipe m q (sent d q))) y) s1

/-! ## LIMIT's cut (R88, R144) -/

/-- Count and offset of each LIMIT of a pipeline; none where a value is null (R144). -/
def OpEnv.limits (v : OpEnv) : List (Option (Nat × Nat)) :=
  ((v.pl.words v.pipe).filter fun w => w.op = 0x0F).map fun w =>
    match v.number w w.a, (if omode w.b = 15 then some 0 else v.number w w.b) with
    | some n, some o => some (n, o)
    | _, _ => none

/-- The rows that pass each LIMIT, as (morsel, position) pairs, over morsels in order (R144). -/
def keptRows (passed : List (Nat × List (List (List Nat)))) : List (Nat × Nat) → List (List (Nat × Nat)) → List (List (Nat × Nat))
  | [], ks => ks
  | l :: rest, ks =>
    let j := ks.length
    let alive := passed.flatMap fun e => ((nth e.2 j []).zipIdx.filter fun p =>
      p.1.zipIdx.all fun q => (nth ks q.2 []).contains (e.1, q.1)).map fun p => (e.1, p.2)
    keptRows passed rest (ks ++ [(alive.drop l.2).take l.1])

/-- The rows that pass each LIMIT of a pipeline over its first n morsels. -/
def OpEnv.kept (v : OpEnv) (n : Nat) : List (List (Nat × Nat)) :=
  let p := v.r.pipe v.pipe
  keptRows ((List.range n).map fun m => (m, (p.led m).passed)) (v.limits.map fun l => l.getD (0, 0)) []

/-- DONE morsels with no gap, from morsel 0 on. -/
def doneFrom (p : PipeRun) : Nat → Nat → Nat
  | 0, _ => 0
  | fuel + 1, m => if (p.led m).state = 2 then 1 + doneFrom p fuel (m + 1) else 0

/-- Whether a LIMIT pipeline has the rows it needs (R88). -/
def OpEnv.limitReached (v : OpEnv) : Bool :=
  let p := v.r.pipe v.pipe
  let ls := v.limits
  if ls.isEmpty then false
  else ((v.kept (doneFrom p (p.morsels.getD 0) 0)).zip ls).any fun e => e.1.length = (e.2.getD (0, 0)).1

/-- The rows of morsel m that LIMIT's cut leaves. -/
def survivors (ks : List (List (Nat × Nat))) (m : Nat) (rows : List Row) : List Row :=
  rows.filter fun x => (x.vals.drop limAt).zipIdx.all fun e =>
    match e.1 with
    | .int z => (nth ks e.2 []).contains (m, z.toNat)
    | _ => true

end Sys2Proof.Machine
end

