-- ==== Sys2Proof/Machine/RunEnds.lean ====
section
/-! DEFINITION. Machine/RunEnds.lean: the end of a pipeline, of a materialisation and of a run (R81, R84, R88 to R92, R148, R458). -/

namespace Sys2Proof.Machine

/-! ## The share (R80, R84, R94) -/

/-- Whether logical tile l moves onto a spare: it stays in its shares (R477). -/
def State.swapping (s : State) (l : Nat) : Bool := s.vigil.swap.any fun w => w.1 = l && w.2.1 ≠ 0x1F

/-- Whether logical tile l stands in the share of partition q: its TILES bit, a physical tile, in service and not leaving
(R84, R94). -/
def State.inShare (s : State) (q l : Nat) : Bool :=
  let t := s.physOf l
  q < 4096 && l < 16 && (s.part q).tiles.getLsbD l && t < s.tilesPhys && !(s.tile t).gated && s.clk.locked && (!(s.tile t).drain || s.swapping l)

/-- The logical tiles of a share. -/
def State.share (s : State) (q : Nat) : List Nat := (List.range 16).filter (s.inShare q)

/-! ## A pipeline -/

/-- A pipeline's view of its run. -/
def State.envOf (s : State) (r : Run) (pl : Plan) (i m : Nat) : OpEnv := { s := s, r := r, pl := pl, pipe := i, m := m }

/-- The source op words of a pipeline (R70). -/
def Plan.sources (pl : Plan) (i : Nat) : List OpWord := (pl.words i).takeWhile fun w => isSource w.op

/-- The materialisations that a pipeline's sources name. -/
def Plan.sourceMats (pl : Plan) (i : Nat) : List Nat := ((pl.sources i).filter fun w => omode w.a = 3).map fun w => oix w.a

/-- The materialisation whose rows a pipeline's morsels divide: an exchange buffer among its sources, whose buckets no morsel spans
(R118), else the first its sources name. -/
def Plan.sourceMat (pl : Plan) (i : Nat) : Option Nat :=
  match (pl.sourceMats i).find? fun j => (pl.mats[j]?).any (·.kind = 3) with
  | some j => some j
  | none => (pl.sourceMats i).head?

/-- Rows of a morsel of pipeline i (R62). -/
def Plan.morselRows (pl : Plan) (i : Nat) : Nat := match pl.pipes[i]? with | some p => p.rows | none => 16384

/-- The rows a source word delivers from a materialisation (R118, R120). -/
def Plan.delivered (pl : Plan) (op j : Nat) (x : Mat) : List Row := if op = 0x0B then pl.mergeRows j x else pl.scanRows j x

/-- Rows and morsels of a materialisation source (R81, R118, R120). -/
def Plan.matMorsels (pl : Plan) (r : Run) (i j : Nat) : Nat × Nat :=
  let op := ((pl.words i).head?.map (·.op)).getD 1
  let n := (pl.delivered op j (r.mat j)).length
  let kind : Nat := ((pl.mats[j]?).map (·.kind)).getD 0
  if kind = 3 then (n, (bucketSpans (pl.morselRows i) 0 (r.mat j).buckets).length) else (n, ceilDiv n (pl.morselRows i))

/-- Rows of each source of a pipeline whose materialisations are complete, the parameter sources' as RUN_PLAN found them (R70, R77). -/
def Plan.sourceCounts (pl : Plan) (r : Run) (i : Nat) : List Nat :=
  (pl.sources i).map fun w => if omode w.a = 3 then (pl.delivered w.op (oix w.a) (r.mat (oix w.a))).length else (r.pipe i).total

/-- The rows of morsel m of a pipeline: first, and one past the last (R81, R118). -/
def Plan.span (pl : Plan) (r : Run) (i m : Nat) : Nat × Nat :=
  let n := (r.pipe i).total
  let plain := (m * pl.morselRows i, min ((m + 1) * pl.morselRows i) n)
  match pl.sourceMat i with
  | none => plain
  | some j =>
    if ((pl.mats[j]?).map (·.kind)).getD 0 = 3 then nth (bucketSpans (pl.morselRows i) 0 (r.mat j).buckets) m (0, 0) else plain

/-- Whether every materialisation a pipeline waits for is complete (R84). -/
def Plan.depsDone (pl : Plan) (r : Run) (i : Nat) : Bool := match pl.pipes[i]? with | some p => p.needs.all fun j => (r.mat j).complete | none => false

/-- Whether every morsel of a pipeline is DONE, or a LIMIT has stopped it and none is in flight (R88, R89). -/
def PipeRun.finished (p : PipeRun) : Bool :=
  match p.morsels with
  | none => false
  | some n => (p.ledger.filter fun e => e.2.state = 2).length = n || (p.stopped && p.ledger.all fun e => e.2.state ≠ 1)

/-- The end markers a completed EXCHANGE pipeline sends: one to each device of its binding, its own among them (R141, R458). -/
def State.endMarkers (s : State) (rid : Nat) (v : OpEnv) (w : OpWord) : State :=
  let me := s.pwr.devid.toNat
  let b := (v.number w w.c).getD 0
  let s1 := s.updRun rid fun r => r.updMat (oix w.dst) fun x => { x with ends := x.ends ||| BitVec.ofNat 8 (2 ^ me) }
  if w.flags % 4 = 0 then s1
  else ((devicesOf (look {} s.plk.bindings (b % 64)).devmask).filter (· ≠ me)).foldl (fun (y : State) d =>
    y.plkSend d (.plkEnd d (b % 64) (BitVec.ofNat 32 (b / 2 ^ 32)) (oix w.dst) v.pipe)) s1

/-- Morsel m's rows written by the sink into its materialisation or to its destinations (R87). -/
def State.matSegment (s : State) (rid : Nat) (v : OpEnv) (w : OpWord) (m : Nat) (rows : List Row) : State :=
  if w.op = 0x0D then s.exchange rid v w ((v.pl.words v.pipe).length - 1) m rows
  else s.updRun rid fun r => r.updMat (oix w.dst) fun x => { x with segs := put [] x.segs m (sinkRows v.pl w m rows) }

/-- Bytes staged in the log under (run, pipeline, m), in place of an earlier staging: whole blocks of the run's staging volume (R87, R148). -/
def State.stage (s : State) (r : Run) (pipe m : Nat) (volume : Nat) (bs : List Byte) (rows : Nat) : State :=
  let v := stageVol r.id pipe
  let old := look (0, 0, 0) (r.pipe pipe).staged m
  let s1 := if old.2.1 = 0 then s else s.trim v 2 old.1 (ceilDiv old.2.1 4096)
  let n := ceilDiv bs.length 4096
  let base := (s1.vol v).vblk
  let s2 := s1.updVol v fun x => { x with state := 3, array := (s.vol volume).array, owner := r.ctx, vblk := base + n }
  (s2.runWrite r.id v r.ctx.toNat r.gen.toNat base (blocksFrom bs n)).updRun r.id fun x => x.updPipe pipe fun p =>
    { p with staged := put (0, 0, 0) p.staged m (base, bs.length, rows) }

/-- A segment of STORE staged (R148). -/
def State.stageRows (s : State) (r : Run) (pl : Plan) (pipe : Nat) (w : OpWord) (m : Nat) (rows : List Row) : State :=
  let g := refOf (((s.envOf r pl pipe m).raw w.dst).getD [])
  (s.stage r pipe m g.volume (storeSegment pl pipe w rows) rows.length).updRun r.id fun x => x.updPipe pipe fun p =>
    { p with segs := put none p.segs m (some rows) }

/-- What a completed STORE pipeline has staged, by morsel: first block, bytes, rows (R148). -/
def PipeRun.segments (p : PipeRun) : List (Nat × Nat × Nat) := (List.range (p.morsels.getD 0)).map fun m => look (0, 0, 0) p.staged m

/-- The manifest of a completed STORE pipeline is staged after its last segment (R148; log entry 91). -/
def State.stageManifest (s : State) (rid pipe : Nat) (pl : Plan) (w : OpWord) : State :=
  match s.run? rid with
  | none => s
  | some r =>
    let segs := (r.pipe pipe).segments
    let at_ := storePlaces (segs.map (·.2.1))
    let g := refOf (((s.envOf r pl pipe 0).raw w.dst).getD [])
    let man := storeManifest w.ncol ((at_.1.zip segs).map fun e => (e.1, e.2.2.1, e.2.2.2))
    (s.stage r pipe segs.length g.volume man 0).meter r.ctx.toNat 4 man.length

/-- What LIMIT's cut leaves of morsel m goes to its sink (R144; log entry 65). -/
def State.cutMorsel (s : State) (rid : Nat) (v : OpEnv) (w : OpWord) (ks : List (List (Nat × Nat))) (m : Nat) : State :=
  let rows := (look none (v.r.pipe v.pipe).segs m).getD []
  let keep := survivors ks m rows
  let ran := ((v.r.pipe v.pipe).led m).state = 2
  if w.op = 0x10 then
    let d := v.emitDesc w
    if fieldLE d 0 4 ≤ m || (ran && keep.length = rows.length) then s
    else if keep = rows.take keep.length then s.emitEntry (fnOf v.r.ctx.toNat) d m keep.length
    else s.emitSegment (fnOf v.r.ctx.toNat) d (sinkTypes v.pl v.pipe ((v.pl.words v.pipe).length - 1) w) (sinkCols w) m keep
  else if w.op = 0x11 then (if ran && keep.length ≠ rows.length then s.stageRows v.r v.pl v.pipe w m keep else s)
  else if ran then s.matSegment rid v w m keep
  else s

/-- The materialisations whose last consumer has completed are freed with their pages (R90). -/
def State.freeMats (s : State) (rid : Nat) (pl : Plan) : State :=
  s.updRun rid fun r => (List.range pl.mats.length).foldl (fun (x : Run) j =>
    let users := pl.pipes.zipIdx.filter fun p => p.1.needs.contains j
    if !users.isEmpty && (x.mat j).complete && !(x.mat j).freed && users.all (fun u => (x.pipe u.2).done) then
      { x.updMat j (fun y => { y with freed := true, segs := [], longRuns := [], final := [], marks := [], spillSet := [], spilled := 0 }) with
        pages := x.pages - ((pl.mats[j]?).map (·.hbmPages)).getD 0 }
    else x) r

/-- A pipeline completes: LIMIT's cut, the end markers, the materialisations it was the last to use (R88 to R90, R144, R458). -/
def State.finishPipe (s : State) (rid i : Nat) (pl : Plan) : State :=
  match s.run? rid, pl.sink i with
  | some r, some w =>
    let v := s.envOf r pl i 0
    let n := (r.pipe i).morsels.getD 0
    let s1 := if v.limits.isEmpty then s
      else
        let ks := v.kept n
        let cut := (List.range n).foldl (fun (x : State) m => x.cutMorsel rid v w ks m) s
        if sinkKind w.op ≠ 0 then cut.makeRoom rid (oix w.dst) pl else cut
    let s2 := if w.op = 0x0D then s1.endMarkers rid v w else if w.op = 0x11 then s1.stageManifest rid i pl w else s1
    (s2.updRun rid fun x => x.updPipe i fun p => { p with done := true }).freeMats rid pl
  | _, _ => s

/-- The merge passes that a MERGE pipeline's materialisations need before its first morsel (R120). -/
def State.mergePasses (s : State) (rid i : Nat) (pl : Plan) : State :=
  (((pl.sources i).filter fun w => w.op = 0x0B).map fun w => oix w.a).foldl (fun (x : State) j =>
    match x.run? rid, pl.matSink j with
    | some r, some w =>
      let m := r.mat j
      if m.segs.length ≤ 16 || !m.longRuns.isEmpty || w.op = 0x0C then x
      else
        let longer := mergedRuns (keysBefore (pl.colsOf j) w.kord w.nkey) m.segs.length (m.segs.map (·.2))
        (x.updRun rid fun r => r.updMat j fun y => { y with longRuns := longer, spillSet := [] }).makeRoom rid j pl
    | _, _ => x) s

/-- A pipeline whose materialisations are complete learns its morsels; a group of sources with unequal row counts fails the run
(R77, R81; log entry 137). -/
def State.learnMorsels (s : State) (rid i : Nat) (r : Run) (pl : Plan) : State :=
  match (r.pipe i).morsels, pl.sourceMat i with
  | none, some j =>
    let ns := pl.sourceCounts r i
    if ns.all fun n => n = ns.headD 0 then
      let e := pl.matMorsels r i j
      (s.updRun rid fun x => x.updPipe i fun p => { p with morsels := some e.2, total := e.1 }).mergePasses rid i pl
    else s.failRun rid 0x0409 0
  | _, _ => s

/-- A pipeline whose materialisations are complete learns its morsels and its server, and completes when its morsels are done
(R81, R84, R89). -/
def State.settlePipe (s : State) (rid i : Nat) : State :=
  match s.run? rid with
  | none => s
  | some r =>
    match s.planOf r with
    | none => s
    | some pl =>
      if (r.pipe i).done || !pl.depsDone r i then s
      else
        let serve := fun (p : PipeRun) =>
          if (pl.pipes[i]?).any (·.single) && p.server.isNone then { p with server := (s.share r.ctx.toNat).head? } else p
        let s1 := (s.learnMorsels rid i r pl).updRun rid fun x => x.updPipe i serve
        let stop := ((s1.run? rid).map fun x => (s1.envOf x pl i 0).limitReached).getD false
        let s2 := s1.updRun rid fun x => x.updPipe i fun p => { p with stopped := p.stopped || stop }
        if ((s2.run? rid).map fun x => (x.pipe i).finished).getD false then s2.finishPipe rid i pl else s2

/-- A run every pipeline and materialisation of which is complete, and every STORE placed, completes (R95, R148); a paused run goes on at the thaw (R409). -/
def State.settleRun (s : State) (rid : Nat) : State :=
  match s.run? rid with
  | none => s
  | some r0 =>
    if r0.paused then s else
    let n := ((s.planOf r0).map (·.pipes.length)).getD 0
    let s1 := (List.range n).foldl (fun (x : State) i => x.settlePipe rid i) s
    match s1.run? rid with
    | none => s1
    | some r =>
      match s1.planOf r with
      | none => s1
      | some pl =>
        let pipes := (List.range n).all fun i => (r.pipe i).done && ((pl.sink i).all (fun w => w.op ≠ 0x11) || (r.pipe i).placed)
        if pipes && (List.range pl.mats.length).all (fun j => (r.mat j).complete) then (s1.removeRun rid).complete r.cmd 0 0 r.reruns
        else s1

/-! ## Materialisations (R89, R92) -/

/-- The devices whose end markers an exchange buffer needs (R89, R458). -/
def OpEnv.markerDevices (v : OpEnv) (w : OpWord) : List Nat :=
  if w.flags % 4 = 0 then [v.s.pwr.devid.toNat] else devicesOf (look {} v.s.plk.bindings ((v.number w w.c).getD 0 % 64)).devmask

/-- A materialisation completes: the final merge of an AGG or TOPK, an overflow of which fails the run under TRAP (R89, R133). -/
def State.completeMat (s : State) (rid j : Nat) (v : OpEnv) (w : OpWord) : State :=
  let x := v.r.mat j
  let n := (v.pl.words v.pipe).length - 1
  let finals := if w.op = 9 then v.pl.aggFinal j s.freeCtr w x else if w.op = 0x0C then some (v.topRows j w x) else some []
  match finals with
  | none => s.failRun rid 0x040C (BitVec.ofNat 32 (v.pipe * 0x10000 + n))
  | some rows =>
    let used := if w.op = 9 then 16 * rows.length else 0
    ({ s with freeCtr := s.freeCtr + used }.updRun rid fun r => r.updMat j fun y => { y with complete := true, final := rows }).settleRun rid

/-- MATERIALISATION_COMPLETE (R89, R458). -/
def execMaterialisationComplete (run mat : Nat) (s : State) : Out1 :=
  match s.run? run with
  | none => no "no such run"
  | some r =>
    match s.planOf r with
    | none => no "the plan is not loaded"
    | some pl =>
      match pl.mats[mat]?, pl.matSink mat with
      | some x, some w =>
        let v := s.envOf r pl x.producer 0
        let ends := w.op ≠ 0x0D || (v.markerDevices w).all fun d => (r.mat mat).ends.getLsbD d
        if (r.pipe x.producer).done && !(r.mat mat).complete && ends && !r.paused && s.runMirrored r then s.unlessHeld (s.completeMat run mat v w)
        else no "the materialisation cannot complete"
      | _, _ => no "no such materialisation"

/-- A pipeline starts again from morsel 0: its morsels in flight are dropped, its ledger keeps its tokens (R92). -/
def State.restartPipe (s : State) (rid i : Nat) : State :=
  let s1 := (List.range 18).foldl (fun (x : State) t => x.dropFlights t (fun f => f.run = rid && f.pipe = i) fun _ y => y) s
  s1.updRun rid fun r => r.updPipe i fun p =>
    { p with ledger := p.ledger.map fun e => (e.1, { e.2 with state := 0, reissued := false, passed := [], ckpt := none })
             cursor := 0, stopped := false, done := false, window := [] }

/-- The pipelines that name a materialisation in DEPS. -/
def Plan.consumers (pl : Plan) (j : Nat) : List Nat := (List.range pl.pipes.length).filter fun i => (pl.pipes[i]?).any fun p => p.needs.contains j

/-- The pipelines that run again when materialisation j and the ones in l are produced anew: their producers, and the consumers of j. -/
def Plan.againPipes (pl : Plan) (j : Nat) (l : List Nat) : List Nat :=
  ((l.filterMap fun k => (pl.mats[k]?).map (·.producer)) ++ pl.consumers j).eraseDups

/-- The materialisations produced anew with j: itself, and the freed ones that those pipelines read or write (R90, R92; log entry 90). -/
def Plan.againMats (pl : Plan) (r : Run) (j : Nat) : Nat → List Nat → List Nat
  | 0, l => l
  | n + 1, l =>
    let more := (pl.againPipes j l).flatMap fun i => ((pl.pipes[i]?).map (·.needs)).getD [] ++ (pl.sinkMat i).toList
    pl.againMats r j n (l ++ (more.filter fun k => (r.mat k).freed && !l.contains k).eraseDups)

/-- A run with some materialisations discarded, the freed ones' pages held again, and the pipelines that read materialisations to learn
their morsels anew (R90, R92). -/
def Run.discard (r : Run) (pl : Plan) (mats pipes : List Nat) : Run :=
  let r1 := mats.foldl (fun (x : Run) j =>
    { x.updMat j (fun _ => {}) with
      pages := x.pages + if (x.mat j).freed then ((pl.mats[j]?).map (·.hbmPages)).getD 0 else 0 }) r
  pipes.foldl (fun (x : Run) i => if (pl.sourceMat i).isSome then x.updPipe i (fun p => { p with morsels := none }) else x) r1

/-- The record of an uncorrected error in a page of a materialisation (R468, R469): the pseudo-channel that failed is open (log entry
156). -/
def State.pageError (s : State) (r : Run) (action status : Nat) : State :=
  let pc := s.free.1.toNat % (64 * s.stacks)
  s.free.2.record 1 r.ctx.toNat (0x38 + pc / 64) 0x02 pc action 0 false status

/-- MATERIALISATION_ERROR (R92): the producer runs again and the consumers that had started, completed ones among them, begin anew;
a second error fails the run with 0x0701 (R486). -/
def execMaterialisationError (run mat : Nat) (s : State) : Out1 :=
  match s.run? run with
  | none => no "no such run"
  | some r =>
    match s.planOf r with
    | none => no "the plan is not loaded"
    | some pl =>
      match pl.mats[mat]? with
      | none => no "no such materialisation"
      | some _ =>
        if !(r.mat mat).complete || (r.mat mat).freed then no "the materialisation holds nothing complete"
        else if r.repaired then .next ((s.pageError r 0 0x0701).failRun run 0x0701 0)
        else
          let mats := pl.againMats r mat pl.mats.length [mat]
          let pipes := pl.againPipes mat mats
          let s1 := pipes.foldl (fun (y : State) i => y.restartPipe run i) (s.pageError r 8 0)
          .next ((s1.updRun run fun y => { y.discard pl mats pipes with repaired := true }).settleRun run)

/-! ## STORE (R87, R148, R149) -/

/-- The rows a morsel in flight brings to a sink, where it has run that far. -/
def State.flightRows (s : State) (run pipe m : Nat) : Option Eval :=
  (s.tiles.flatMap fun t => t.2.flights).findSome? fun f =>
    if f.run = run && f.pipe = pipe && f.m = m then (match f.work with | .rows e => some e | _ => none) else none

/-- STORE_COMMIT (R87, R148): the segment is staged in the log, once there is write-cache space, and committed under its key; a volume
that refuses the write ends the run. -/
def execStoreCommit (run pipe m : Nat) (s : State) : Out1 :=
  match s.run? run with
  | none => no "no such run"
  | some r =>
    match s.planOf r, s.flightRows run pipe m with
    | some pl, some e =>
      match pl.sink pipe with
      | some w =>
        if w.op ≠ 0x11 || ((r.pipe pipe).led m).committed || !(s.jobsOf run pipe m).isEmpty || !s.arcRuns then no "no STORE segment is staged"
        else
          let v := s.envOf r pl pipe m
          let g := refOf ((v.raw w.dst).getD [])
          let bad := s.volRefusal r.ctx.toNat g.volume (g.addr / 4096) 0 true
          let bytes := (storeSegment pl pipe w e.active).length
          if bad ≠ 0 then .next (s.failRun run bad 0)
          else
            when_ (s.admits r.ctx.toNat g.volume (ceilDiv bytes 4096)) "the segment waits for write-cache space"
              (((s.meter r.ctx.toNat 4 bytes).stageRows r pl pipe w m e.active).updRun run fun x => x.updPipe pipe fun p =>
                p.updLed m fun l => { l with committed := true })
      | none => no "no such pipeline"
    | _, _ => no "the morsel has no rows for its sink"

/-- Whether blocks base to base + n of a volume's map are in stripes. -/
def allMapped (m : List Extent) (base n : Nat) : Bool := (List.range n).all fun i => (mapAt m (base + i)).any fun e => e.kind = 0

/-- Whether everything a STORE pipeline has staged is in stripes (R148). -/
def State.stagedDown (s : State) (r : Run) (pipe : Nat) : Bool :=
  (r.pipe pipe).staged.all fun e => allMapped (s.vol (stageVol r.id pipe)).map e.2.1 (ceilDiv e.2.2.1 4096)

/-- Staged blocks come to stand in a volume by map updates alone (R148): each takes the place it has in the log, and older cached writes
there are superseded. -/
def State.placeRuns (s : State) (from_ base n v lba : Nat) : State :=
  let a := (s.vol v).array
  let runs := (mapIn (s.vol from_).map base (base + n)).map fun e => { e with vlba := e.vlba - base + lba }
  let s1 := (s.updArr a fun x => runs.foldl (fun (y : Arr) e => y.supersede v e.vlba e.stop e.seq) (x.appendRuns v runs)).releaseCache a
  s1.applyRuns v runs

/-- STORE_PLACE (R148, R149): once all of it is in stripes and, mirrored, acknowledged, the manifest and the segments in morsel order
come to stand in the region, each on a 4 KiB boundary; where they do not fit the run fails with 0x0510, and they stay in the log. -/
def execStorePlace (run pipe : Nat) (s : State) : Out1 :=
  match s.run? run with
  | none => no "no such run"
  | some r =>
    match s.planOf r with
    | none => no "the plan is not loaded"
    | some pl =>
      match pl.sink pipe with
      | none => no "no such pipeline"
      | some w =>
        let p := r.pipe pipe
        let ready := p.done && !p.placed && !r.paused && s.runMirrored r && s.stagedDown r pipe && s.arcRuns
        if w.op ≠ 0x11 || !ready then no "no STORE is ready to be placed"
        else
          let v := s.envOf r pl pipe 0
          let g := refOf ((v.raw w.dst).getD [])
          let segs := p.segments
          let at_ := storePlaces (segs.map (·.2.1))
          let bad := s.volRefusal r.ctx.toNat g.volume (g.addr / 4096) (ceilDiv at_.2 4096) true
          if g.len < at_.2 then .next (s.failRun run 0x0510 0)
          else if bad ≠ 0 then .next (s.failRun run bad 0)
          else
            let man := look (0, 0, 0) p.staged segs.length
            let from_ := stageVol r.id pipe
            let s1 := ((0 :: at_.1).zip (man :: segs)).foldl (fun (x : State) e =>
              x.placeRuns from_ e.2.1 (ceilDiv e.2.2.1 4096) g.volume ((g.addr + e.1) / 4096)) s
            let s2 := (s1.setVol from_ {}).recount (s.vol g.volume).array
            s.unlessHeld ((s2.updRun run fun x => x.updPipe pipe fun y => { y with placed := true }).settleRun run)

end Sys2Proof.Machine
end

