-- ==== Sys2Proof/Machine/Binding.lean ====
section
/-! DEFINITION. Machine/Binding.lean: the plan commands (R71 to R75), a run's parameters and its binding check
(R77 to R79). -/

namespace Sys2Proof.Machine

/-! ## Loading (R74, R75) -/

/-- Plan handle h of a context. -/
def State.plan? (s : State) (ctx h : Nat) : Option Plan := if h < 1024 then look none s.plans (ctx * 1024 + h) else none

/-- A plan handle put or removed. -/
def State.setPlan (s : State) (ctx h : Nat) (x : Option Plan) : State := { s with plans := put none s.plans (ctx * 1024 + h) x }

/-- A free handle of a context: the first at or above a free starting point, around the 1,024 (log entry 66). -/
def State.freeHandle (s : State) (ctx : Nat) : Option Nat :=
  if (List.range 1024).all fun h => (s.plan? ctx h).isSome then none
  else ((List.range 1024).map fun i => (Config.handleStart s.freeCtr + i) % 1024).find? fun h => (s.plan? ctx h).isNone

/-- Whether n more pages are refused to a context (R398, R547). -/
def State.pagesRefused (s : State) (ctx n : Nat) : Bool :=
  if ctx < 4096 then (tri (s.part ctx).pageMax).toNat < s.pagesUsed ctx + n else s.ownerRefused n

/-- LOAD_PLAN (R71, R74). -/
def execLoadPlan (id : Nat) (s : State) : Out1 :=
  if (s.cmd? id).any s.hostWaits then no "the command waits for its function"
  else withCmd s id 0x01 "no LOAD_PLAN with this id" fun c =>
    let ctx := c.ctx.toNat
    let a := c.f 8 8
    let n := c.f 16 4
    if !c.zeros [(20, 12)] then s.done id 0x0100
    else if a % 64 ≠ 0 then s.done id 0x0105
    else
      match s.freeHandle ctx with
      | none => s.done id 0x0301
      | some h =>
        if s.pagesRefused ctx (planPages n) then s.done id 0x0302
        else if s.hostFails c.fn a n then s.done id 0x0106
        else
          let img := s.hostRead c.fn a n
          match loadFault img n with
          | some (st, o) => s.complete id st (BitVec.ofNat 32 o) 0
          | none => ({ s.setPlan ctx h (some (loadedPlan img)) with freeCtr := s.freeCtr + 1 }).complete id 0 (BitVec.ofNat 32 h) 0

/-- UNLOAD_PLAN (R75). -/
def execUnloadPlan (id : Nat) (s : State) : Out1 := withCmd s id 0x02 "no UNLOAD_PLAN with this id" fun c =>
  let ctx := c.ctx.toNat
  let h := c.f 8 4
  if !c.zeros [(12, 20)] then s.done id 0x0100
  else if (s.plan? ctx h).isNone then s.done id 0x040A
  else if s.runs.any fun r => r.ctx = c.ctx && r.handle = h then s.done id 0x0202
  else (s.setPlan ctx h none).done id 0

/-! ## Parameters (R72, R73, R77, R173) -/

/-- The parameter values of a RUN_PLAN: from its slots, or from the parameter block (R72); none where the block cannot be read. -/
def State.paramsOf (s : State) (c : Cmd) : Option (List ParamVal) :=
  let n := c.f 12 2
  if bit (c.f 14 2) 0 then
    (let a := c.f 24 8
     if s.hostFails c.fn a (32 + 16 * n) then none
     else
       let bs := s.hostRead c.fn a (32 + 16 * n)
       some ((List.range n).map fun i => if packedField bs 1 i = 1 then none else some (sub bs (32 + 16 * i) 16)))
  else some ((List.range n).map fun i => if bit (c.f 24 8) i then none else some (sub c.bytes (32 + 16 * i) 16))

/-- A null parameter takes its DEFAULT, which all zero means null (R66). -/
def withDefault (p : ParamRec) (v : ParamVal) : ParamVal :=
  match v with
  | some b => some b
  | none => if p.required || p.dflt.all (· = 0) then none else some p.dflt

/-- The values a run takes: each null with its DEFAULT (R66, R77). -/
def Plan.fill (pl : Plan) (vals : List ParamVal) : List ParamVal :=
  vals.zipIdx.map fun e => match pl.params[e.2]? with | some p => withDefault p e.1 | none => e.1

/-- The reference a parameter operand holds. -/
def OpEnv.refAt (v : OpEnv) (x : Nat) : Option Ref := (v.raw x).map refOf

/-- Whether a volume a reference names may be used by the run's context; otherwise the binding check reports it (R78). -/
def OpEnv.volumeOk (v : OpEnv) (g : Ref) : Bool :=
  g.kind ≠ 1 || (g.volume < 16384 && (v.s.vol g.volume).state = 1 && (v.s.vol g.volume).ownedBy v.r.ctx.toNat)

/-- Rows of a SCAN's parameter source, or the status and result word 0 of RUN_PLAN (R77, R173). -/
def OpEnv.scanCount (v : OpEnv) (w : OpWord) : Step (Option Nat) :=
  match v.refAt w.a with
  | none => .error (0x0409, 0)
  | some g =>
    if !v.volumeOk g then .ok none
    else
      match sourceRows (v.s.reader v.r.ctx.toNat g) w.flags w.ty w.attr g.addr g.len with
      | .ok n => .ok (some n)
      | .error e => .error (if 0x440 ≤ e && e < 0x460 then (0x0409, e) else (e, 0))

/-- EMIT's descriptor against its op word (R145). -/
def OpEnv.emitOk (v : OpEnv) (w : OpWord) : Step Unit :=
  match v.refAt w.dst with
  | none => .error (0x0409, 0)
  | some g =>
    if g.kind ≠ 0 || g.len ≠ 64 + 64 * w.ncol || g.addr % 64 ≠ 0 then .error (0x0409, 0)
    else if v.s.hostFails (fnOf v.r.ctx.toNat) g.addr g.len then .error (0x0106, 0)
    else
      let d := v.emitDesc w
      let ts := sinkTypes v.pl v.pipe ((v.pl.words v.pipe).length - 1) w
      let col := fun (e : Ty × Nat) =>
        let c := emitCol d e.2
        fieldLE c 0 1 = e.1.1 && fieldLE c 1 1 = e.1.2 && fieldLE c 2 2 = 0 && (sub c 32 32).all (· = 0)
          && fieldLE c 8 8 % 64 = 0 && fieldLE c 16 8 % 64 = 0 && fieldLE c 24 8 % 64 = 0
      if 1 ≤ fieldLE d 0 4 && fieldLE d 0 4 ≤ 16777216 && 1 ≤ fieldLE d 4 4 && fieldLE d 4 4 ≤ 1048576 && fieldLE d 8 8 % 64 = 0
          && fieldLE d 16 2 = w.ncol && (sub d 18 46).all (· = 0) && ts.zipIdx.all col then .ok ()
      else .error (0x0409, 0)

/-- Whether a reference names a region of a volume that starts on a block (R91, R148; log entry 67). -/
def regionOk (g : Option Ref) : Bool := g.any fun r => r.kind = 1 && r.addr % 4096 = 0

/-- Whether the LEN of a comparand passed by reference matches its type (R77). -/
def OpEnv.refLenOk (v : OpEnv) (w : OpWord) (x : Nat) : Bool :=
  if omode x = 2 && (v.pl.params[oix x]?).any (·.byref) then
    (v.refAt x).all fun g => if w.ty = 0x10 then g.len ≤ 65535 else g.len = tyWidth w.ty w.attr
  else true

/-- What one op word needs of the parameters (R77). -/
def OpEnv.wordOk (v : OpEnv) (w : OpWord) : Step (Option Nat) :=
  match w.op with
  | 1 => if omode w.a = 2 then v.scanCount w else .ok none
  | 3 | 4 => if v.refLenOk w w.b && v.refLenOk w w.c && (w.op = 3 || v.refLenOk w w.a) then .ok none else .error (0x0409, 0)
  | 0x10 => (v.emitOk w).map fun _ => none
  | 0x11 => if regionOk (v.refAt w.dst) then .ok none else .error (0x0409, 0)
  | _ => .ok none

/-- A pipeline's parameters: the rows of its parameter sources, which must be equal; none where it has none (R77). -/
def OpEnv.pipeOk (v : OpEnv) : Step (Option Nat) := do
  let ns ← mapStep v.wordOk (v.pl.words v.pipe)
  let rows := ns.filterMap id
  if rows.all fun n => n = rows.headD 0 then .ok rows.head? else .error (0x0409, 0)

/-- The values of a run against its plan: rows of each pipeline's parameter source, or RUN_PLAN's status and result word 0
(R77, R173). -/
def State.paramCheck (s : State) (r : Run) (pl : Plan) : Step (List (Option Nat)) :=
  let refs := (pl.params.zip r.params).all fun e =>
    match e.2 with
    | none => !e.1.required
    | some b => !e.1.byref || (refOf b).valid
  if r.params.length ≠ pl.params.length || !refs then .error (0x0409, 0)
  else if !pl.mats.all (fun x => x.spillParam = 0xFFFF || regionOk ((nth r.params x.spillParam none).map refOf)) then .error (0x0409, 0)
  else mapStep (fun i => (s.envOf r pl i 0).pipeOk) (List.range pl.pipes.length)

/-! ## The binding check (R78, R79) -/

/-- The faults of a volume reference. -/
def OpEnv.volumeFaults (v : OpEnv) : List (Bool × Nat) :=
  ((v.pl.params.zip v.r.params).filterMap fun e => if e.1.byref then e.2.map refOf else none).flatMap fun g =>
    if g.kind ≠ 1 then []
    else
      let x := v.s.vol g.volume
      [(16384 ≤ g.volume || x.state ≠ 1, 0x8002), (g.volume < 16384 && x.state = 1 && !x.ownedBy v.r.ctx.toNat, 0x8003)]

/-- The ASTORE table an op word searches and whether the word is a PATTERN. -/
def OpWord.searches (w : OpWord) : Bool := w.op = 8 || (w.op = 3 && w.flags % 16 = 10)

/-- The faults of an op word that searches ASTORE (R78, R125, R226). -/
def OpEnv.tableFaults (v : OpEnv) (k : Nat) (w : OpWord) : List (Bool × Nat) :=
  if !w.searches then []
  else
    let n := v.number w w.b
    let t := v.table w w.b
    let kt := t.keytype.toNat
    let known := n.any (· < 64)
    let fits := if w.op = 8 then comparable (v.ty k w w.a).1 kt else kt = 0 && 2 ^ (w.imm % 4) ≤ t.width
    [(!known, 0x8001), (known && t.enable && !fits, 0x8001), (known && !t.enable, 0x8002),
     (known && t.enable && t.ctx.toNat ≠ v.r.ctx.toNat, 0x8003), (!v.s.astp, 0x8004)]

/-- The faults of an EXCHANGE with peers (R78, R141, R457, R458). -/
def OpEnv.exchangeFaults (v : OpEnv) (w : OpWord) : List (Bool × Nat) :=
  if w.op ≠ 0x0D || w.flags % 4 = 0 then []
  else
    let n := v.number w w.c
    let b := n.getD 0
    let x := look {} v.s.plk.bindings (b % 64)
    let ok := n.isSome && bits b 31 6 = 0
    [(!ok, 0x8001), (ok && w.flags % 4 = 2 && x.en && (devicesOf x.devmask).length ≤ 1, 0x8001), (ok && !(x.en && x.up &&& x.devmask = x.devmask), 0x8002),
     (ok && x.en && x.part.toNat ≠ v.r.ctx.toNat, 0x8003), (v.s.plkCount = 0, 0x8004),
     (ok && v.s.runs.any (fun r => r.id ≠ v.r.id && r.binds.contains (b % 64, BitVec.ofNat 32 (b / 2 ^ 32))), 0x8005)]

/-- The bindings a plan exchanges over (R457). -/
def OpEnv.bindsOf (v : OpEnv) : List (Nat × Word) :=
  (v.pl.ops.filterMap fun w =>
    if w.op = 0x0D && w.flags % 4 ≠ 0 then (v.number w w.c).map fun b => (b % 64, BitVec.ofNat 32 (b / 2 ^ 32)) else none).eraseDups

/-- The tables a plan searches (R78, R232). -/
def OpEnv.tablesOf (v : OpEnv) : List Nat := (v.pl.ops.filterMap fun w => if w.searches then v.number w w.b else none).eraseDups

/-- The pages a run reserves: every materialisation's, one, and one for each 524,288 morsels of parameter sources (R79). -/
def runPages (pl : Plan) (rows : List (Option Nat)) : Nat :=
  let morsels := rows.zipIdx.foldl (fun n e => n + match e.1 with | some k => ceilDiv k (pl.morselRows e.2) | none => 0) 0
  pl.mats.foldl (fun n x => n + x.hbmPages) 0 + 1 + morsels / 524288

/-- The reason of a run's binding check; 0 where it passes (R56, R78). -/
def State.bindReason (s : State) (r : Run) (pl : Plan) : Nat :=
  let q := r.ctx.toNat
  let share := q < 4096 && (List.range s.tilesSvc).any fun l => (s.part q).tiles.getLsbD l
  let others := s.runs.filter fun x => x.id ≠ r.id
  pickReason ((s.envOf r pl 0 0).volumeFaults
    ++ (List.range pl.pipes.length).flatMap (fun i => (pl.words i).zipIdx.flatMap fun w =>
        (s.envOf r pl i 0).tableFaults w.2 w.1 ++ (s.envOf r pl i 0).exchangeFaults w.1)
    ++ [(!share, 0x8010), (s.pagesRefused q r.pages, 0x8011),
        (64 ≤ (others.filter fun x => x.ctx = r.ctx).length || 1024 ≤ others.length, 0x8012)])

/-- Whether the values that a run itself checks are in range: LIMIT's, TOPK's k, SPECTRAL's bins (R136, R138, R144). -/
def State.valuesOk (s : State) (r : Run) (pl : Plan) : Bool :=
  (List.range pl.pipes.length).all fun i =>
    let v := s.envOf r pl i 0
    v.limits.all (·.isSome) && (pl.words i).all fun w =>
      if w.op = 0x0C then (v.number w w.c).any fun k => 1 ≤ k && k ≤ 65536
      else if w.op = 0x14 then
        (v.number w w.b).any fun b => bits b 15 0 ≤ bits b 31 16 && bits b 31 16 < 2 ^ (w.imm % 32)
      else true

/-- The run of a RUN_PLAN before its binding. -/
def newRun (c : Cmd) (rid : Nat) (params : List ParamVal) : Run :=
  { id := rid, cmd := c.id, ctx := c.ctx, gen := c.gen, handle := c.f 8 4, params := params, timeoutUs := c.f 16 4, pipes := [], mats := []
    pages := 0, reruns := 0, repaired := false, binds := [], paused := false, tables := [] }

/-- The run starts: its pipelines with a parameter source know their morsels (R79, R81); in a partition that freezes it is paused (R409). -/
def State.startRun (s : State) (c : Cmd) (r : Run) (pl : Plan) (rows : List (Option Nat)) : State :=
  let v := s.envOf r pl 0 0
  let pipes := rows.zipIdx.foldl (fun (m : SMap PipeRun) e =>
    match e.1 with
    | some n => put {} m e.2 { morsels := if (pl.sourceMat e.2).isSome then none else some (ceilDiv n (pl.morselRows e.2)), total := n }
    | none => m) []
  let r1 := { r with pipes := pipes, binds := v.bindsOf, tables := v.tablesOf, paused := r.ctx.toNat < 4096 && (s.part r.ctx.toNat).state = 2 }
  let s1 := { s with runs := s.runs ++ [r1], nextRun := s.nextRun + 1 }.phase c.id .running
  if s.valuesOk r pl then s1.settleRun r.id else s1.failRun r.id 0x0409 0

/-- RUN_PLAN (R71, R77). -/
def execRunPlan (id : Nat) (s : State) : Out1 :=
  if (s.cmd? id).any s.hostWaits then no "the command waits for its function"
  else withCmd s id 0x03 "no RUN_PLAN with this id" fun c =>
    let block := bit (c.f 14 2) 0
    if c.f 14 2 / 2 ≠ 0 || !c.zeros [(20, 4)] then s.done id 0x0100
    else if (!block && 62 < c.f 12 2) || (block && c.f 24 8 % 16 ≠ 0) then s.done id 0x0105
    else
      match s.plan? c.ctx.toNat (c.f 8 4) with
      | none => s.done id 0x040A
      | some pl =>
        match s.paramsOf c with
        | none => s.done id 0x0106
        | some vals =>
          let r := newRun c s.nextRun (pl.fill vals)
          match s.paramCheck r pl with
          | .error e => s.complete id e.1 (BitVec.ofNat 32 e.2) 0
          | .ok rows =>
            let r1 := { r with pages := runPages pl rows }
            let reason := s.bindReason r1 pl
            if reason ≠ 0 then s.complete id 0x040B (BitVec.ofNat 32 reason) 0 else s.startRun c r1 pl rows

end Sys2Proof.Machine
end

