-- ==== Sys2Proof/Machine/Clocks.lean ====
section
/-! DEFINITION. Machine/Clocks.lean: the PLL and its dividers, the Almanac across the board, steward timers, the core voltage
and the temperature (R465, R466, R513 to R523). -/

namespace Sys2Proof.Machine

/-! ## The PLL and PCLK (R513 to R516, R522) -/

/-- PLL_LOCK_LOSS (R513): CHECK 0x0F, which sets RESETREQ. -/
def execPllLockLoss (s : State) : Out1 :=
  when_ s.clk.locked "the PLL is not locked"
    ({ s with clk := { s.clk with locked := false, lossCnt := satInc s.clk.lossCnt } }.record 1 ownerCtx 0x01 0x0F 0 0x20 0 false 0).resetRequired

/-- ROOT_PLL_RELOCK (R513). -/
def execRootPllRelock (s : State) : Out1 :=
  when_ (!s.clk.locked && s.glb.start ≠ 0) "the PLL is locked" { s with clk := { s.clk with locked := true } }

/-- The divider one step up, then down (R522). -/
def divUp (d : BitVec 4) : BitVec 4 := if d = 3 then 4 else if d = 4 then 6 else 12

/-- The divider one step down (R522). -/
def divDown (d : BitVec 4) : BitVec 4 := if d = 12 then 6 else if d = 6 then 4 else 3

/-- The divider in force after a write of PDIV (R524): a throttle in force keeps it at least at the new PDIV. -/
def Clk.effAfter (c : Clk) (d : BitVec 4) : BitVec 4 :=
  if (tri c.pdiv).toNat < c.pdivEff.toNat && d.toNat < c.pdivEff.toNat then c.pdivEff else d

/-- A write of CLK_DIV, after the guard (R515, R524, R525): values but 3, 4, 6 and 12 are discarded; a throttle in force keeps
the divider at least at the new PDIV. -/
def State.writeDiv (s : State) (v : Word) : State :=
  let d := BitVec.ofNat 4 (bits v.toNat 3 0)
  if !([3, 4, 6, 12]).contains d.toNat then s
  else
    { s with clk := { s.clk with pdiv := Tri.of d, pdivEff := s.clk.effAfter d } }

/-- CLK_DIV_WRITE (R45, R515). -/
def execClkDivWrite (r : Req) (v : Word) (s : State) : Out1 := busRow s r 0x10010 v (s.gWrite r 0x10010 fun x => x.writeDiv v)

/-- A rate correction limited to ±100 ppm (R516). -/
def clampTrim (v : Word) : Word :=
  if v.toInt > 100000 then 100000 else if v.toInt < -100000 then -100000 else v

/-- CLK_TRIM_WRITE (R516). -/
def execClkTrimWrite (r : Req) (v : Word) (s : State) : Out1 := busRow s r 0x10020 v { s with clk := { s.clk with trim := clampTrim v } }

/-! ## Steward timers (R518, R525) -/

/-- f applied to timer i of steward w. -/
def State.updTimer (s : State) (w i : Nat) (f : StwTimer → StwTimer) : State :=
  { s with clk := { s.clk with timers := upd {} s.clk.timers (8 * w + i) f } }

/-- A write of the high word of a timer's DEADLINE, with which it takes effect (R525). -/
def deadlineWrite (w i : Nat) (c : Instr) : Bool :=
  match c with
  | .clkTmrDlWrite _ w' i' true _ => w' = w && i' = i
  | .registerWrite _ .bar0 o _ => o = 0x10408 + w * 0x80 + i * 0x10
  | _ => false

/-- STEWARD_TIMER_FIRE (R518): the Almanac has reached DEADLINE; a write of DEADLINE in the same TCLK takes effect first, so nothing fires
ahead of it (log entry 122). -/
def execStewardTimerFire (w i : Nat) (s : State) : Out1 :=
  let t := look {} s.clk.timers (8 * w + i)
  timeout (w < 4 && i < 8 && t.en && t.deadline.toNat ≤ s.alm) (deadlineWrite w i) "the timer does not run, or the Almanac has not reached its DEADLINE" s
    ((s.updTimer w i fun x =>
      if x.period = 0 then { x with en := false } else { x with deadline := x.deadline + x.period.setWidth 64 }).raisePriv w i)

/-- A write of a timer's DEADLINE (R525): the low word takes effect with the high word. -/
def State.writeDeadline (s : State) (w i : Nat) (hi : Bool) (v : Word) : State :=
  s.updTimer w i fun t => if hi then { t with deadline := join64 v t.dlLo } else { t with dlLo := v }

/-- CLK_TMR_DL_WRITE (R518, R525). -/
def execClkTmrDlWrite (r : Req) (w i : Nat) (hi : Bool) (v : Word) (s : State) : Out1 :=
  if !(w < 4 && i < 8) then no "no such timer" else busRow s r (0x10404 + w * 0x80 + i * 0x10 + 4 * b2n hi) v (s.writeDeadline w i hi v)

/-! ## The Almanac across a board (R465, R466) -/

/-- An offset saturated to 16 signed bits (R467). -/
def satOfs (x : Int) : BitVec 16 := BitVec.ofInt 16 (if x > 32767 then 32767 else if x < -32768 then -32768 else x)

/-- One measured offset (R466): OFS, LOCK over the last 8, and a rate correction within ±100 ppm whose value the rule leaves
open; it is suspended while the PLL is unlocked (R514). -/
def State.steer (s : State) (x : Int) : State :=
  let l := (x :: s.plk.offsets).take 8
  let f := s.free
  let s1 := if s.clk.locked then { f.2 with clk := { f.2.clk with trim := clampTrim (f.1.setWidth 32) } } else s
  { s1 with plk := { s1.plk with offsets := l, ofs := satOfs x, lock := l.length = 8 && l.all fun y => -8 ≤ y && y ≤ 8 } }

/-- The devices with TSRC = 1 that this one reaches, itself among them, ascending (R465; log entry 168). -/
def State.timeSources (s : State) : List Nat :=
  (List.range 8).filter fun e => if e = s.pwr.devid.toNat then s.plk.tsrc else s.reaches e && look false s.plk.peerTsrc e

/-- Whether this device is the time source: it has TSRC = 1 and reaches none with TSRC = 1 and a lower DEVID (R465). -/
def State.isSource (s : State) : Bool := s.timeSources.head? = some s.pwr.devid.toNat

/-- A TIME message over each link that is up (R455, R466). -/
def State.timeMessages (s : State) : State :=
  (List.range 4).foldl (fun (x : State) k =>
    if s.linkUp k then x.plkSend (s.pwr.devid ^^^ linkMask k).toNat (.plkTime k) else x) s

/-- TIME_EXCHANGE (R466): the offset from the source along the route to it steers; the source itself is not corrected by it, and without
a route the TSYNC pulses alone steer. -/
def execTimeExchange (ofs : Int) (s : State) : Out1 :=
  when_ ((List.range 4).any s.linkUp) "no link is up" (if s.isSource || s.timeSources.isEmpty then s.timeMessages else s.timeMessages.steer ofs)

/-- TSYNC_PULSE (R465): the source's Almanac has reached a multiple of 1,000,000. -/
def execTsyncPulse (s : State) : Out1 :=
  when_ (s.isSource && s.clk.counting && s.clk.tsyncDone < s.alm / 1000000) "the device drives no TSYNC pulse"
    ({ s with clk := { s.clk with tsyncDone := s.alm / 1000000 } }.emit .tsync)

/-- TSYNC_EDGE (R465, R466): the first edge starts the Almanac; later ones steer a device that has no route to the source. -/
def execTsyncEdge (ofs : Int) (s : State) : Out1 :=
  when_ (!s.isSource && s.glb.start ≠ 0) "the device does not follow TSYNC"
    (if !s.clk.counting then { s with clk := { s.clk with counting := true } }
     else if s.timeSources.isEmpty then s.steer ofs
     else s)

/-- ALMANAC_START_TIMEOUT (R465). -/
def execAlmanacStartTimeout (s : State) : Out1 :=
  timeout (!s.plk.tsrc && !s.clk.counting && s.glb.start ≠ 0) (· matches .tsyncEdge _) "the Almanac waits for no edge" s
    { s with clk := { s.clk with counting := true } }

/-- TIME_SOURCE_FIRST_EDGE (R465). -/
def execTimeSourceFirstEdge (s : State) : Out1 :=
  when_ (s.plk.tsrc && !s.clk.counting && s.glb.start ≠ 0) "the device drives no first edge"
    ({ s with clk := { s.clk with counting := true } }.emit .tsync)

/-- TIME_SOURCE_ABSENT (R466): the rate is kept, LOCK reads 0. -/
def execTimeSourceAbsent (s : State) : Out1 :=
  when_ (!s.isSource) "the device is its own time source" { s with plk := { s.plk with lock := false } }

/-! ## Core voltage (R519) -/

/-- Whether a readback is within ±10 mV of VSET. -/
def State.railOk (s : State) (vout : BitVec 10) : Bool := vout.toNat ≤ s.pwr.vset.toNat + 10 && s.pwr.vset.toNat ≤ vout.toNat + 10

/-- VSET taken into the fused window of −30 to +20 mV (R519). -/
def vsetTaken (v : BitVec 10) : BitVec 10 :=
  let f := Config.fusedMv.toNat
  if v.toNat + 30 < f then BitVec.ofNat 10 (f - 30) else if f + 20 < v.toNat then BitVec.ofNat 10 (f + 20) else v

/-- A write of PWR_AVS, after the guard, and the readback that follows it (R519, R526). -/
def State.writeAvs (s : State) (v : Word) (vout : BitVec 10) : State :=
  let x := vsetTaken (BitVec.ofNat 10 (bits v.toNat 9 0))
  let s1 := { s with pwr := { s.pwr with vset := x, vout := vout } }.emit (.avs x)
  if s1.railOk vout then { s1 with pwr := { s1.pwr with vGood := x, avsPend := false } } else { s1 with pwr := { s1.pwr with avsPend := true, avsAt := s.clk.alm } }

/-- PWR_AVS_WRITE (R45, R519). -/
def execPwrAvsWrite (r : Req) (v : Word) (vout : BitVec 10) (s : State) : Out1 :=
  busRow s r 0x60030 v (s.gWrite r 0x60030 fun x => x.writeAvs v vout)

/-- AVS_CONFIRM_TIMEOUT (R468, R519): AVSERR, CHECK 0x11, and the last confirmed value goes back to the regulator; a
ReadVout in the same TCLK that confirms wins (R28). -/
def execAvsConfirmTimeout (s : State) : Out1 :=
  timeout (s.pwr.avsPend && s.elapsed s.pwr.avsAt 1000000)
    (fun c => match c with | .pwrAvsWrite _ v vout => { s with pwr := { s.pwr with vset := vsetTaken (BitVec.ofNat 10 (bits v.toNat 9 0)) } }.railOk vout | _ => false)
    "the rail has confirmed VSET, or has time left" s
    ({ s with pwr := { s.pwr with avsErr := true, avsPend := false } }.record 1 ownerCtx 0x06 0x11 0 0 0 false 0 |>.emit (.avs s.pwr.vGood))

/-! ## Temperature (R521 to R523) -/

/-- Where the temperature and the power stand (R522): 2 throttled, 0 below THR − HYST, 1 between. -/
def State.zone (s : State) : Nat :=
  if s.pwr.thr.toNat * 8 ≤ s.pwr.tj.toNat || s.pwr.capW.toNat < s.pwr.estW.toNat then 2
  else if s.pwr.tj.toNat + s.pwr.hyst.toNat * 8 < s.pwr.thr.toNat * 8 then 0 else 1

/-- A change of zone restarts its 10 ms; reaching the throttled one is a step up (R522). -/
def State.rezone (s : State) : State :=
  if s.zone = s.pwr.thrZone then s
  else
    { s with pwr := { s.pwr with thrZone := s.zone, thrAt := s.clk.alm }
             clk := { s.clk with pdivEff := if s.zone = 2 then divUp s.clk.pdivEff else s.clk.pdivEff } }

/-- The tiles with their CPs gated, as the freeze gates them (R328, R523); CMP, NET and PLK stand still by State.ungated. -/
def State.gateTiles (s : State) : State := (List.range 18).foldl (fun (x : State) t => x.updTile t fun y => { y with gated := true }) s

/-- TEMPERATURE_SAMPLE (R521 to R523): TJ, with the device's estimate of its own power, which is open (log entry 146); reaching THR
raises the divider one step, reaching 120 °C asserts THERMTRIP_N. -/
def execTemperatureSample (tj : BitVec 11) (s : State) : Out1 :=
  let f := s.free
  let s2 := { f.2 with pwr := { s.pwr with tj := tj, estW := f.1.setWidth 10 } }.rezone
  .next (if 960 ≤ tj.toNat && !s.pwr.thermTrip then { s2 with pwr := { s2.pwr with thermTrip := true } }.gateTiles else s2)

/-- The PDIV that a write in the same SCLK sets: one of the guard's holder, of a divider there is (R45, R515, R524; log entry 122). -/
def State.divWritten (s : State) : Option (BitVec 4) :=
  s.pending.findSome? fun c =>
    let of_ := fun (r : Req) (v : Word) =>
      let d := BitVec.ofNat 4 (bits v.toNat 3 0)
      if s.lock.isOpen && s.lock.holder = r && ([3, 4, 6, 12]).contains d.toNat then some d else none
    match c with
    | .clkDivWrite r v | .registerWrite r .bar0 0x10010 v => of_ r v
    | _ => none

/-- THROTTLE_STEP (R522): after each 10 ms, up while TJ stays at or above THR, or power above CAP_W; down, never below PDIV, while TJ
stays below THR − HYST. It steps from the divider that a write of PDIV in the same SCLK sets (R524). -/
def execThrottleStep (up : Bool) (s : State) : Out1 :=
  let pdiv := (s.divWritten.getD (tri s.clk.pdiv)).toNat
  let eff := (s.divWritten.map s.clk.effAfter).getD s.clk.pdivEff
  let low := divDown eff
  let step := fun (d : BitVec 4) => { s with clk := { s.clk with pdivEff := d }, pwr := { s.pwr with thrAt := s.clk.alm } }
  if up then when_ (s.pwr.thrZone = 2 && s.elapsed s.pwr.thrAt 10000000) "nothing throttles" (step (divUp eff))
  else
    when_ (s.pwr.thrZone = 0 && s.elapsed s.pwr.thrAt 10000000 && pdiv < eff.toNat)
      "the divider does not step down" (step (if low.toNat < pdiv then BitVec.ofNat 4 pdiv else low))

end Sys2Proof.Machine
end

