-- ==== Sys2Proof/Machine/Compression.lean ====
section
/-! DEFINITION. Machine/Compression.lean: the compression engines: jobs, verification and faults (R246 to R258), and a fault of an
erasure engine. -/

namespace Sys2Proof.Machine

/-! ## The encoder's output (R249, R251) -/

/-- FLEVEL of a LEVEL (R250). -/
def flevel (level : Nat) : Nat := if level ≤ 1 then 0 else if level ≤ 5 then 1 else if level = 6 then 2 else 3

/-- What the encoder writes of some bytes: the stream in its wrapper (R249, R251). -/
def encoded (level wrap : Nat) (bs : List Byte) : List Byte :=
  let z := deflate level bs
  match wrap with
  | 0 => z
  | 1 => [0x78, nth [0x01, 0x5E, 0x9C, 0xDA] (flevel level) 0] ++ z ++ (natLE 4 (adler32 bs)).reverse
  | _ => [0x1F, 0x8B, 8, 0, 0, 0, 0, 0, if level = 1 then 4 else if level = 12 then 2 else 0, 0xFF] ++ z
      ++ natLE 4 (crc32 bs).toNat ++ natLE 4 bs.length

/-! ## Engines -/

/-- The list of jobs replaced. -/
def State.setJobs (s : State) (l : List Job) : State := { s with cmp := { s.cmp with jobs := l } }

/-- Whether engine e takes jobs (R261 INSVC). -/
def State.engineIn (s : State) (e : Nat) : Bool := e < 16 && !look false s.cmp.outSvc e

/-- Jobs that engine e runs (R261 ACTIVE). -/
def State.engineJobs (s : State) (e : Nat) : List Job := s.cmp.jobs.filter fun j => j.engine = some e

/-- A job that faults a second time fails with 0x0702, the command or the run it belongs to (R256, R486). -/
def State.jobLost (s : State) (j : Job) : State :=
  match j.morsel with
  | some (run, _, _) => s.failRun run 0x0702 0
  | none => s.done j.id 0x0702

/-- Engine e leaves service with a fault: its jobs run again on another engine, and one that had faulted before fails (R256). -/
def State.engineLost (s : State) (e : Nat) : State :=
  let lost := (s.engineJobs e).filter (·.retried)
  let s1 := { s with cmp := { s.cmp with
    outSvc := put false s.cmp.outSvc e true
    jobs := (s.cmp.jobs.filter fun j => !lost.contains j).map fun j => if j.engine = some e then { j with engine := none, retried := true } else j } }
  lost.foldl State.jobLost s1

/-- A verification mismatch on engine e (R253): the uncorrected record, the engine out for test, VFY_CNT and LAST_ENG. -/
def State.verifyFailed (s : State) (e ctx : Nat) : State :=
  let act := 4 + (if (s.engineJobs e).isEmpty then 0 else 8)
  let s1 := s.record 1 ctx 0x31 0x0C e act 0 false 0x0420
  { s1 with cmp := { s1.cmp with vfyCnt := satInc s1.cmp.vfyCnt, lastEng := BitVec.ofNat 4 e } }.engineLost e

/-! ## Streams (R246, R247) -/

/-- Jobs of a class that run. -/
def Cmp.running (c : Cmp) (k : Nat) : Nat := c.jobs.countP fun j => j.cls = k && j.engine.isSome

/-- Whether a job of a class waits. -/
def Cmp.waits (c : Cmp) (k : Nat) : Bool := c.jobs.any fun j => j.cls = k && j.engine = none

/-- The streams a class is guaranteed while it has jobs waiting: STOR_MIN, and 8 for each of the other two, fewer where STOR_MIN exceeds
80 (R247, R261). -/
def Cmp.share (c : Cmp) (k : Nat) : Nat := if k = 0 then c.storMin.toNat else min 8 ((96 - c.storMin.toNat) / 2)

/-- The class that a free stream serves next: first those below their guarantee, then any, round-robin (R247; log entry 140). -/
def Cmp.nextClass (c : Cmp) : Option Nat :=
  let order := [1, 2, 3].map fun i => (c.turn + i) % 3
  match order.find? fun k => c.waits k && c.running k < c.share k with
  | some k => some k
  | none => order.find? c.waits

/-! ## The commands (R257, R258) -/

/-- The checks of a command before its job starts, in order (R258); 0 where it passes. -/
def State.cmpRefusal (s : State) (c : Cmd) (deflate : Bool) : Nat :=
  let n := c.f 24 4
  let cap := c.f 28 4
  let level := c.f 32 1
  let wrap := c.f 33 1
  let sk := c.f 34 1
  let dk := c.f 35 1
  if !c.zeros [(36, 28)] then 0x0100
  else if !([0, 2].contains sk && [0, 2].contains dk) then 0x0105
  else if n = 0 || 2 ^ 24 < n || cap = 0 || 2 ^ 24 < cap then 0x0428
  else if 2 < wrap || (if deflate then level = 0 || 12 < level else level ≠ 0) then 0x0421
  else if deflate && cap < deflateBound n wrap then 0x0424
  else if (sk = 2 && !s.hbmOk c.ctx.toNat (c.f 8 8) n) || (dk = 2 && !s.hbmOk c.ctx.toNat (c.f 16 8) cap) then 0x0601
  else 0

/-- A command of the compression engines: refused, or its job waits for a stream (R247). -/
def cmpCommand (id op : Nat) (what : String) (s : State) : Out1 :=
  if (s.cmd? id).any (fun c => s.hostWaits c && (c.f 34 1 = 0 || c.f 35 1 = 0)) then no "the command waits for its function"
  else withCmd s id op what fun c =>
    let e := s.cmpRefusal c (op = 0x48)
    if e ≠ 0 then s.done id e
    else (s.setJobs (s.cmp.jobs ++ [{ id := id, cls := 2, morsel := none, slot := 0, engine := none, retried := false }])).phase id (.waiting 3)

/-- CMP_DEFLATE (R257). -/
def execCmpDeflate (id : Nat) (s : State) : Out1 := cmpCommand id 0x48 "no CMP_DEFLATE with this id" s

/-- CMP_INFLATE (R257). -/
def execCmpInflate (id : Nat) (s : State) : Out1 := cmpCommand id 0x49 "no CMP_INFLATE with this id" s

/-- CMP_JOB_START (R246, R247): a free stream of engine e takes the oldest job of the next class. -/
def execCmpJobStart (e : Nat) (s : State) : Out1 :=
  match s.cmp.nextClass.bind fun k => s.cmp.jobs.find? fun j => j.cls = k && j.engine = none with
  | none => no "no job waits"
  | some j =>
    if s.engineIn e && (s.engineJobs e).length < 6 && s.ungated then
      let s1 := s.setJobs (s.cmp.jobs.map fun (x : Job) => if x.id = j.id then { x with engine := some e } else x)
      .next ({ s1 with cmp := { s1.cmp with turn := j.cls } }.phase j.id .running)
    else no "the engine has no free stream"

/-- Bytes written to a command's destination. -/
def State.cmpWrite (s : State) (c : Cmd) (bs : List Byte) : State :=
  if c.f 35 1 = 0 then s.hostWrite c.fn (c.f 16 8) bs else s.hbmWrite c.ctx.toNat (c.f 16 8) bs

/-- What a job's end does on engine e (R252 to R257). -/
def State.cmpEnd (s : State) (c : Cmd) (e : Nat) : State :=
  let n := c.f 24 4
  let wrap := c.f 33 1
  let ok := fun (out plain : List Byte) => (s.cmpWrite c out).complete c.id 0 (BitVec.ofNat 32 out.length) (crc32 plain)
  if c.f 34 1 = 0 && s.hostFails c.fn (c.f 8 8) n then s.done c.id 0x0106
  else
    let bs := if c.f 34 1 = 0 then s.hostRead c.fn (c.f 8 8) n else s.hbmRead c.ctx.toNat (c.f 8 8) n
    if c.op = 0x48 then
      (let out := encoded (c.f 32 1) wrap bs
       let s := { s with freeCtr := s.freeCtr + 1 }
       let ok := fun (out plain : List Byte) => (s.cmpWrite c out).complete c.id 0 (BitVec.ofNat 32 out.length) (crc32 plain)
       if verifies (Config.encodeFault (s.freeCtr - 1)) wrap out bs then ok out bs else (s.done c.id 0x0420).verifyFailed e c.ctx.toNat)
    else
      match inflateWrap wrap bs (c.f 28 4) with
      | .ok out => ok out out
      | .error st => ({ s.cmpWrite c (undefinedBytes s.freeCtr (c.f 28 4)) with freeCtr := s.freeCtr + 1 }).done c.id st

/-- The end of a tile's job on engine e (R150, R252, R253, R259): a body that does not verify ends the run with 0x0420. -/
def State.slotEnd (s : State) (j : Job) (r : Run) (pl : Plan) (pipe m e : Nat) : State :=
  let k := (pl.words pipe).length - 1
  let vs := ((s.flightRows r.id pipe m).map fun x => x.active.map fun y => rowCol y j.slot).getD []
  let s1 := { s with freeCtr := s.freeCtr + 1 }
  if slotVerifies (Config.encodeFault s.freeCtr) (pl.slotTy pipe k j.slot) ((compressLevel pl pipe k j.slot).getD 1) vs then s1
  else (s1.failRun r.id 0x0420 0).verifyFailed e r.ctx.toNat

/-- CMP_JOB_COMPLETE (R252, R256, R259): a decode job of a morsel ends, a tile's is verified, a command's writes its result; one whose
owner's generation is old writes nothing. -/
def execCmpJobComplete (id : Nat) (s : State) : Out1 :=
  match s.cmp.jobs.find? (fun j => j.id = id && j.engine.isSome && s.ungated) with
  | none => no "no job with this number runs"
  | some j =>
    let s1 := s.setJobs (s.cmp.jobs.filter fun x => x.id ≠ id)
    match j.morsel, s.cmd? id with
    | some (run, pipe, m), _ =>
      match s.run? run with
      | none => .next s1
      | some r => match s.planOf r with
        | some pl => .next (if j.cls = 1 then s1.slotEnd j r pl pipe m (j.engine.getD 0) else s1)
        | none => .next s1
    | none, some c =>
      if !s.current c.ctx c.gen then .next (s1.done id 0x0703)
      else when_ (!(s.hostWaits c && (c.f 34 1 = 0 || c.f 35 1 = 0))) "the job waits for its function" (s1.cmpEnd c (j.engine.getD 0))
    | none, none => .next s1

/-- ENGINE_FAULT (R256, R468, R474): the record, whose CHECK is open, and the engine out of service; a CMP
engine's jobs run again, also where it was out of service already and finished them. A fault of an engine under test ends the test (R483). -/
def execEngineFault (ers : Bool) (e : Nat) (s : State) : Out1 :=
  let chk := Config.engineCheck.toNat
  if ers then
    when_ (e < 8 && (!look false s.arc.ersOut e || s.testing 3 e)) "no such engine in service or under test"
      (let s1 := s.record 1 ownerCtx 0x32 chk e 4 0 false 0
       { s1 with arc := { s1.arc with ersOut := put false s1.arc.ersOut e true } }.testFaulted 3 e)
  else
    let jobs := s.engineJobs e
    let ctx := (jobs.head?.bind fun j => match j.morsel with
      | some (run, _, _) => (s.run? run).map fun r => r.ctx.toNat
      | none => (s.cmd? j.id).map fun c => c.ctx.toNat).getD ownerCtx
    when_ (s.engineIn e || (e < 16 && (s.testing 2 e || !jobs.isEmpty))) "no such engine in service, under test or at work"
      (((s.record 1 ctx 0x31 chk e (4 + (if jobs.isEmpty then 0 else 8)) 0 false (if jobs.any (·.retried) then 0x0702 else 0)).engineLost e).testFaulted 2 e)

end Sys2Proof.Machine
end

