-- ==== Sys2Proof/Machine/Kernel.lean ====
section
/-! DEFINITION. Machine/Kernel.lean: executing one instruction on a column processor (R185, R200) and the failure of a
kernel (R204). -/

namespace Sys2Proof.Machine

/-- The fault registers of a CP capture a failure while VALID = 0, otherwise set OVF (R219, R220). -/
def Cp.captureFault (c : Cp) (code addr : Nat) : Cp :=
  if c.faultValid then { c with faultOvf := true }
  else { c with faultValid := true, faultCode := BitVec.ofNat 16 code, faultPc := c.pc
                faultAddr := BitVec.ofNat 32 addr, faultRix := c.rix }

/-- A kernel fails on CP u (R204): its fault registers capture, VIGIL copies them into a record of the partition, the
other CPs stop, and the run ends with the status and the op word's place (R95). -/
def State.kernelFail (s : State) (u : CpAt) (code addr : Nat) : State :=
  let s1 := s.setCp u.tile u.cp ((s.cpOf u.tile u.cp).captureFault code addr)
  let t := s1.tile u.tile
  let s2 := s1.record Config.kernelRecord.1.toNat t.ctx.toNat (0x10 + u.tile) Config.kernelRecord.2.toNat u.tile 0
    (BitVec.ofNat 32 addr) false code
  match t.kernel with
  | none => s2.stopKernel u.tile
  | some k =>
    match t.flights[k.flight]? with
    | none => s2.stopKernel u.tile
    | some f => (s2.stopKernel u.tile).failRun f.run code (BitVec.ofNat 32 (f.pipe * 0x10000 + k.opIx))

/-- Whether tile t stands still: gated, or its clock stopped (R328, R368, R513). -/
def State.tileGated (s : State) (t : Nat) : Bool := (s.tile t).gated || !s.clk.locked

/-- Whether the CP executes instructions: it runs, has not halted, waits for no staging fill, and its tile is
not gated (R197, R203, R328). -/
def State.cpRuns (s : State) (u : CpAt) : Bool :=
  let c := s.cpOf u.tile u.cp
  u.tile < s.tilesPhys && u.cp < 4 && c.run && !c.halted && c.staging = none && !s.tileGated u.tile

/-- What an instruction's result does to the machine. -/
def State.cpApply (s : State) (u : CpAt) (r : CpRes) : Out1 :=
  match r with
  | .go c t => .next ((s.setCp u.tile u.cp c).setTile u.tile t)
  | .fail code addr c t => .next (((s.setCp u.tile u.cp c).setTile u.tile t).kernelFail u code addr)
  | .miss w c t => .next ((s.setCp u.tile u.cp { c with staging := some w }).setTile u.tile t)
  | .wait => no "the column processor stalls"

/-- One instruction on CP u: a fetch at or beyond CODE_LEN fails with 0x0464 (R200). -/
def cpRun (s : State) (u : CpAt) (k : Cp → Tile → CpRes) : Out1 :=
  if s.cpRuns u then
    let c := s.cpOf u.tile u.cp
    if c.env.codeLen ≤ c.pc.toNat then .next (s.kernelFail u 0x0464 0) else s.cpApply u (k c (s.tile u.tile))
  else no "the column processor is not running"

/-- What a vector instruction's result does to the machine: CP_VINST counts it where it completes (R415; log entry 30). -/
def State.cpApplyV (s : State) (u : CpAt) (r : CpRes) : Out1 :=
  match r with
  | .go c t => .next (((s.setCp u.tile u.cp c).setTile u.tile t).meter t.ctx.toNat 1 1)
  | r => s.cpApply u r

/-- One vector instruction on CP u (formats V and VM). -/
def cpRunV (s : State) (u : CpAt) (k : Cp → Tile → CpRes) : Out1 :=
  if s.cpRuns u then
    let c := s.cpOf u.tile u.cp
    if c.env.codeLen ≤ c.pc.toNat then .next (s.kernelFail u 0x0464 0) else s.cpApplyV u (k c (s.tile u.tile))
  else no "the column processor is not running"

/-- An instruction that changes its CP alone and goes on to the next one. -/
def cpStep (s : State) (u : CpAt) (k : Cp → Cp) : Out1 := cpRun s u fun c t => .go (k c).adv t

/-- An instruction that is illegal where a condition fails (R185). -/
def legal (ok : Bool) (c : Cp) (t : Tile) (r : CpRes) : CpRes := if ok then r else .fail 0x0460 0 c t

/-- An instruction that breaks the vector configuration where a condition fails (R183). -/
def vecOk (ok : Bool) (c : Cp) (t : Tile) (r : CpRes) : CpRes := if ok then r else .fail 0x0463 0 c t

end Sys2Proof.Machine
end

