-- ==== Sys2Proof/Machine/CpScalar.lean ====
section
/-! DEFINITION. Machine/CpScalar.lean: the scalar instructions of a column processor, and VCFG (R179, R180, R186 to R188, R206). -/

namespace Sys2Proof.Machine

/-- A scalar integer instruction on G[A] and G[B] (R186, R187). -/
def scalarInt (op : DWord → DWord → DWord × KFlags) (u : CpAt) (d a b : BitVec 5) (s : State) : Out1 :=
  cpStep s u fun c =>
    let r := op (c.rd a) (c.rd b)
    (c.wr d r.1).flag r.2

/-- A scalar integer instruction on G[A] and an extended immediate (R186). -/
def scalarImm (op : DWord → DWord → DWord × KFlags) (imm : DWord) (u : CpAt) (d a : BitVec 5) (s : State) : Out1 :=
  cpStep s u fun c =>
    let r := op (c.rd a) imm
    (c.wr d r.1).flag r.2

/-- SEXT and ZEXT: from 8, 16 or 32 bits; the result for another width code is open (R186; log entry 26). -/
def extendBits (signed : Bool) (x : DWord) (code : BitVec 5) : DWord :=
  if 2 < code.toNat then Config.extendCode signed x code
  else
    let w := 8 * 2 ^ code.toNat
    if signed then (x.setWidth w).signExtend 64 else (x.setWidth w).setWidth 64

/-- The format of a scalar FP instruction: bit 5 of FN (R186). -/
def fmtOf (dbl : Bool) : Fmt := if dbl then f64 else f32

/-- A scalar FP operand: scalar FP32 takes G bits 31:0 (R188). -/
def fpIn (dbl : Bool) (x : DWord) : Nat := if dbl then x.toNat else x.toNat % 2 ^ 32

/-- A scalar FP instruction; scalar FP32 writes bits 63:32 as 0 (R188). -/
def scalarFp (op : Fmt → Nat → Nat → Nat × KFlags) (u : CpAt) (d a b : BitVec 5) (dbl : Bool) (s : State) : Out1 :=
  cpStep s u fun c =>
    let r := op (fmtOf dbl) (fpIn dbl (c.rd a)) (fpIn dbl (c.rd b))
    (c.wr d (BitVec.ofNat 64 r.1)).flag r.2

/-- A branch (R186). -/
def branchIf (taken : DWord → DWord → Bool) (u : CpAt) (a b : BitVec 5) (ofs : BitVec 16) (s : State) : Out1 :=
  cpRun s u fun c t => .go (if taken (c.rd a) (c.rd b) then { c with pc := c.pc + ofs * 4 } else c.adv) t

/-- Whether a range operation of the CP is queued or running (R179). -/
def rangeBusy (cp : Nat) (t : Tile) : Bool := t.ranges.any fun r => r.cp = cp

/-- A special register but CYCLE (R179). -/
def specialReg (vlen cp : Nat) (c : Cp) (t : Tile) (n : Nat) : Option DWord :=
  match n with
  | 0 => some (BitVec.ofNat 64 c.vl)
  | 1 => some (BitVec.ofNat 64 (c.sew.toNat + 4 * c.grp.toNat))
  | 2 => some (BitVec.ofNat 64 (vlen / 8))
  | 3 => some (c.rix.setWidth 64)
  | 4 => some (c.kstat.setWidth 64)
  | 5 => some (BitVec.ofNat 64 (b2n (rangeBusy cp t) * 2 ^ 63 + c.rngSkipped.toNat))
  | 7 => some (BitVec.ofNat 64 cp)
  | _ => none

/-- ADD (R187). -/
def execAdd (u : CpAt) (d a b : BitVec 5) (s : State) : Out1 := scalarInt iAdd u d a b s

/-- SUB (R187). -/
def execSub (u : CpAt) (d a b : BitVec 5) (s : State) : Out1 := scalarInt iSub u d a b s

/-- MUL (R187). -/
def execMul (u : CpAt) (d a b : BitVec 5) (s : State) : Out1 := scalarInt iMul u d a b s

/-- MULH (R187). -/
def execMulh (u : CpAt) (d a b : BitVec 5) (s : State) : Out1 := scalarInt iMulh u d a b s

/-- MULHU (R187). -/
def execMulhu (u : CpAt) (d a b : BitVec 5) (s : State) : Out1 := scalarInt iMulhu u d a b s

/-- DIV (R187). -/
def execDiv (u : CpAt) (d a b : BitVec 5) (s : State) : Out1 := scalarInt iDiv u d a b s

/-- DIVU (R187). -/
def execDivu (u : CpAt) (d a b : BitVec 5) (s : State) : Out1 := scalarInt iDivu u d a b s

/-- REM (R187). -/
def execRem (u : CpAt) (d a b : BitVec 5) (s : State) : Out1 := scalarInt iRem u d a b s

/-- REMU (R187). -/
def execRemu (u : CpAt) (d a b : BitVec 5) (s : State) : Out1 := scalarInt iRemu u d a b s

/-- AND (R186). -/
def execAnd (u : CpAt) (d a b : BitVec 5) (s : State) : Out1 := scalarInt iAnd u d a b s

/-- OR (R186). -/
def execOr (u : CpAt) (d a b : BitVec 5) (s : State) : Out1 := scalarInt iOr u d a b s

/-- XOR (R186). -/
def execXor (u : CpAt) (d a b : BitVec 5) (s : State) : Out1 := scalarInt iXor u d a b s

/-- SHL (R187). -/
def execShl (u : CpAt) (d a b : BitVec 5) (s : State) : Out1 := scalarInt iShl u d a b s

/-- SHR (R187). -/
def execShr (u : CpAt) (d a b : BitVec 5) (s : State) : Out1 := scalarInt iShr u d a b s

/-- SAR (R187). -/
def execSar (u : CpAt) (d a b : BitVec 5) (s : State) : Out1 := scalarInt iSar u d a b s

/-- ROTL (R186). -/
def execRotl (u : CpAt) (d a b : BitVec 5) (s : State) : Out1 := scalarInt iRotl u d a b s

/-- SLT (R186). -/
def execSlt (u : CpAt) (d a b : BitVec 5) (s : State) : Out1 := scalarInt iSlt u d a b s

/-- SLTU (R186). -/
def execSltu (u : CpAt) (d a b : BitVec 5) (s : State) : Out1 := scalarInt iSltu u d a b s

/-- MIN (R186). -/
def execMin (u : CpAt) (d a b : BitVec 5) (s : State) : Out1 := scalarInt iMin u d a b s

/-- MAX (R186). -/
def execMax (u : CpAt) (d a b : BitVec 5) (s : State) : Out1 := scalarInt iMax u d a b s

/-- MINU (R186). -/
def execMinu (u : CpAt) (d a b : BitVec 5) (s : State) : Out1 := scalarInt iMinu u d a b s

/-- MAXU (R186). -/
def execMaxu (u : CpAt) (d a b : BitVec 5) (s : State) : Out1 := scalarInt iMaxu u d a b s

/-- CLZ (R186). -/
def execClz (u : CpAt) (d a : BitVec 5) (s : State) : Out1 := scalarInt iClz u d a 0 s

/-- CTZ (R186). -/
def execCtz (u : CpAt) (d a : BitVec 5) (s : State) : Out1 := scalarInt iCtz u d a 0 s

/-- POPC (R186). -/
def execPopc (u : CpAt) (d a : BitVec 5) (s : State) : Out1 := scalarInt iPopc u d a 0 s

/-- ADDO (R187). -/
def execAddo (u : CpAt) (d a b : BitVec 5) (s : State) : Out1 := scalarInt iAddo u d a b s

/-- SUBO (R187). -/
def execSubo (u : CpAt) (d a b : BitVec 5) (s : State) : Out1 := scalarInt iSubo u d a b s

/-- MULO (R187). -/
def execMulo (u : CpAt) (d a b : BitVec 5) (s : State) : Out1 := scalarInt iMulo u d a b s

/-- SEXT (R186). -/
def execSext (u : CpAt) (d a b : BitVec 5) (s : State) : Out1 := cpStep s u fun c => c.wr d (extendBits true (c.rd a) b)

/-- ZEXT (R186). -/
def execZext (u : CpAt) (d a b : BitVec 5) (s : State) : Out1 := cpStep s u fun c => c.wr d (extendBits false (c.rd a) b)

/-- ADDI (R186). -/
def execAddi (u : CpAt) (d a : BitVec 5) (imm : BitVec 16) (s : State) : Out1 := scalarImm iAdd (imm.signExtend 64) u d a s

/-- ANDI (R186). -/
def execAndi (u : CpAt) (d a : BitVec 5) (imm : BitVec 16) (s : State) : Out1 := scalarImm iAnd (imm.setWidth 64) u d a s

/-- ORI (R186). -/
def execOri (u : CpAt) (d a : BitVec 5) (imm : BitVec 16) (s : State) : Out1 := scalarImm iOr (imm.setWidth 64) u d a s

/-- XORI (R186). -/
def execXori (u : CpAt) (d a : BitVec 5) (imm : BitVec 16) (s : State) : Out1 := scalarImm iXor (imm.setWidth 64) u d a s

/-- SHLI (R186). -/
def execShli (u : CpAt) (d a : BitVec 5) (imm : BitVec 16) (s : State) : Out1 := scalarImm iShl (imm.setWidth 64) u d a s

/-- SHRI (R186). -/
def execShri (u : CpAt) (d a : BitVec 5) (imm : BitVec 16) (s : State) : Out1 := scalarImm iShr (imm.setWidth 64) u d a s

/-- SARI (R186). -/
def execSari (u : CpAt) (d a : BitVec 5) (imm : BitVec 16) (s : State) : Out1 := scalarImm iSar (imm.setWidth 64) u d a s

/-- LUI (R186). -/
def execLui (u : CpAt) (d a : BitVec 5) (imm : BitVec 16) (s : State) : Out1 := cpRun s u fun c t => legal (a = 0) c t (.go (c.wr d (imm.signExtend 64 * 65536)).adv t)

/-- SLTI (R186). -/
def execSlti (u : CpAt) (d a : BitVec 5) (imm : BitVec 16) (s : State) : Out1 := scalarImm iSlt (imm.signExtend 64) u d a s

/-- FADD (R188). -/
def execFadd (u : CpAt) (d a b : BitVec 5) (dbl : Bool) (s : State) : Out1 := scalarFp fpAdd u d a b dbl s

/-- FSUB (R188). -/
def execFsub (u : CpAt) (d a b : BitVec 5) (dbl : Bool) (s : State) : Out1 := scalarFp fpSub u d a b dbl s

/-- FMUL (R188). -/
def execFmul (u : CpAt) (d a b : BitVec 5) (dbl : Bool) (s : State) : Out1 := scalarFp fpMul u d a b dbl s

/-- FDIV (R188). -/
def execFdiv (u : CpAt) (d a b : BitVec 5) (dbl : Bool) (s : State) : Out1 := scalarFp fpDiv u d a b dbl s

/-- FMIN (R188). -/
def execFmin (u : CpAt) (d a b : BitVec 5) (dbl : Bool) (s : State) : Out1 := scalarFp (fpMinMax false) u d a b dbl s

/-- FMAX (R188). -/
def execFmax (u : CpAt) (d a b : BitVec 5) (dbl : Bool) (s : State) : Out1 := scalarFp (fpMinMax true) u d a b dbl s

/-- FSQRT (R188). -/
def execFsqrt (u : CpAt) (d a : BitVec 5) (dbl : Bool) (s : State) : Out1 := scalarFp (fun f x _ => fpSqrt f x) u d a 0 dbl s

/-- FEQ (R188). -/
def execFeq (u : CpAt) (d a b : BitVec 5) (dbl : Bool) (s : State) : Out1 := scalarFp (fun f x y => let r := fpCmp 0 f x y; (b2n r.1, r.2)) u d a b dbl s

/-- FLT (R188). -/
def execFlt (u : CpAt) (d a b : BitVec 5) (dbl : Bool) (s : State) : Out1 := scalarFp (fun f x y => let r := fpCmp 1 f x y; (b2n r.1, r.2)) u d a b dbl s

/-- FLE (R188). -/
def execFle (u : CpAt) (d a b : BitVec 5) (dbl : Bool) (s : State) : Out1 := scalarFp (fun f x y => let r := fpCmp 2 f x y; (b2n r.1, r.2)) u d a b dbl s

/-- FCVTI (R188). -/
def execFcvti (u : CpAt) (d a : BitVec 5) (dbl : Bool) (s : State) : Out1 :=
  cpStep s u fun c =>
    let r := fpToInt (fmtOf dbl) 64 (fpIn dbl (c.rd a))
    (c.wr d r.1).flag r.2

/-- FCVTF (R188). -/
def execFcvtf (u : CpAt) (d a : BitVec 5) (dbl : Bool) (s : State) : Out1 :=
  cpStep s u fun c =>
    let r := intToFp (fmtOf dbl) (c.rd a).toInt
    (c.wr d (BitVec.ofNat 64 r.1)).flag r.2

/-- FCVTP (R186). -/
def execFcvtp (u : CpAt) (d a : BitVec 5) (dbl : Bool) (s : State) : Out1 :=
  cpStep s u fun c =>
    let r := fpToFp (fmtOf (!dbl)) (fmtOf dbl) (fpIn (!dbl) (c.rd a))
    (c.wr d (BitVec.ofNat 64 r.1)).flag r.2

/-- FMA (R188). -/
def execFma (u : CpAt) (d a b : BitVec 5) (dbl : Bool) (s : State) : Out1 :=
  cpStep s u fun c =>
    let r := fpFma (fmtOf dbl) (fpIn dbl (c.rd a)) (fpIn dbl (c.rd b)) (fpIn dbl (c.rd d))
    (c.wr d (BitVec.ofNat 64 r.1)).flag r.2

/-- BEQ (R186). -/
def execBeq (u : CpAt) (a b : BitVec 5) (ofs : BitVec 16) (s : State) : Out1 := branchIf (fun x y => x = y) u a b ofs s

/-- BNE (R186). -/
def execBne (u : CpAt) (a b : BitVec 5) (ofs : BitVec 16) (s : State) : Out1 := branchIf (fun x y => x ≠ y) u a b ofs s

/-- BLT (R186). -/
def execBlt (u : CpAt) (a b : BitVec 5) (ofs : BitVec 16) (s : State) : Out1 := branchIf (fun x y => x.slt y) u a b ofs s

/-- BGE (R186). -/
def execBge (u : CpAt) (a b : BitVec 5) (ofs : BitVec 16) (s : State) : Out1 := branchIf (fun x y => !x.slt y) u a b ofs s

/-- BLTU (R186). -/
def execBltu (u : CpAt) (a b : BitVec 5) (ofs : BitVec 16) (s : State) : Out1 := branchIf (fun x y => x.ult y) u a b ofs s

/-- BGEU (R186). -/
def execBgeu (u : CpAt) (a b : BitVec 5) (ofs : BitVec 16) (s : State) : Out1 := branchIf (fun x y => !x.ult y) u a b ofs s

/-- JMP (R186). -/
def execJmp (u : CpAt) (ofs : BitVec 26) (s : State) : Out1 := cpRun s u fun c t => .go { c with pc := c.pc + (ofs.setWidth 16) * 4 } t

/-- JAL (R186). -/
def execJal (u : CpAt) (ofs : BitVec 26) (s : State) : Out1 := cpRun s u fun c t => .go { c.wr 31 ((c.pc + 4).setWidth 64) with pc := c.pc + (ofs.setWidth 16) * 4 } t

/-- JR (R186). -/
def execJr (u : CpAt) (d a : BitVec 5) (s : State) : Out1 :=
  cpRun s u fun c t =>
    let c1 := c.wr d ((c.pc + 4).setWidth 64)
    .go { c1 with pc := (c1.rd a).setWidth 16 } t

/-- NOP (R186). -/
def execNop (u : CpAt) (s : State) : Out1 := cpStep s u fun c => c

/-- TRAP (R206). -/
def execTrap (u : CpAt) (a : BitVec 5) (s : State) : Out1 :=
  cpRun s u fun c t =>
    let code := bits (c.rd a).toNat 15 0
    if code = 0 then .fail 0x040C 0 c t else .fail 0x0466 code c t

/-- VCFG (R180). -/
def execVcfg (u : CpAt) (d a : BitVec 5) (imm : BitVec 16) (s : State) : Out1 :=
  cpRun s u fun c t =>
    legal (bits imm.toNat 15 4 = 0) c t
      (let c1 := { c with sew := imm.setWidth 2, grp := (imm >>> 2).setWidth 2 }
       let n := min (c.rd a).toNat (vlmax s.vlen c1.sewBits c1.grpN)
       .go ({ c1 with vl := n }.wr d (BitVec.ofNat 64 n)).adv t)

/-- RDSR (R179). -/
def execRdsr (u : CpAt) (d a : BitVec 5) (s : State) : Out1 :=
  if a = 6 then
    let f := s.free
    cpStep f.2 u fun c => c.wr d f.1
  else
    cpRun s u fun c t =>
      match specialReg s.vlen u.cp c t a.toNat with
      | some v => .go (c.wr d v).adv t
      | none => .fail 0x0460 0 c t

/-- WRSR (R179). -/
def execWrsr (u : CpAt) (d a : BitVec 5) (s : State) : Out1 :=
  cpRun s u fun c t =>
    if d = 3 then .go { c with rix := (c.rd a).setWidth 16 }.adv t
    else if d = 4 then .go { c with kstat := (c.rd a).setWidth 8 }.adv t
    else .fail 0x0460 0 c t

end Sys2Proof.Machine
end

