-- ==== Sys2Proof/Machine/CpMemory.lean ====
section
/-! DEFINITION. Machine/CpMemory.lean: loads, stores, vector memory, FENCE, the data cache and its range engine (R193 to R199, R205, R208 to R216). -/

namespace Sys2Proof.Machine

/-- A scalar load into G[D] (R186, R194). -/
def loadG (n : Nat) (signed : Bool) (u : CpAt) (d a : BitVec 5) (imm : BitVec 16) (s : State) : Out1 :=
  cpRun s u fun c t =>
    scalarLoad u.cp c t (c.ea a imm) n fun bs c1 t1 =>
      let v := BitVec.ofNat (8 * n) (leNat bs)
      .go (c1.wr d (if signed then v.signExtend 64 else v.setWidth 64)).adv t1

/-- The active elements from RIX on (R196). -/
def pendingElems (vlen : Nat) (c : Cp) (f : VFields) : List Nat := (c.actives vlen f).filter fun i => c.rix.toNat ≤ i

/-- An address as a 64-bit value. -/
def wrap64 (z : Int) : Int := z % 2 ^ 64

/-- The address of an indexed access's element: G[A] + V[B][i], the index unsigned (R196). -/
def idxAddr (vlen : Nat) (c : Cp) (f : VFields) (i : Nat) : Int :=
  wrap64 ((c.rd f.a).toNat + c.velem vlen c.sewBits f.b.toNat i)

/-- One element loaded into V[D], through the cache or directly (R196). -/
def loadElem (cached : Bool) (vlen w d i a : Nat) (c : Cp) (t : Tile) : Cp × Tile :=
  if cached then
    let r := cacheRead c t a (w / 8)
    (r.2.1.setVelem vlen w d i (leNat r.1), r.2.2)
  else (c.setVelem vlen w d i (leNat (directRead c t a (w / 8))), t)

/-- One element stored from V[D], through the cache or directly (R196). -/
def storeElem (cached : Bool) (vlen w d i a : Nat) (c : Cp) (t : Tile) : Cp × Tile :=
  let bs := natLE (w / 8) (c.velem vlen w d i)
  if cached then cacheWrite c t a bs else directWrite c t a bs

/-- A completed instruction goes on to the next one. -/
def advGo : CpRes → CpRes
  | .go c t => .go c.adv t
  | r => r

/-- A unit-stride or strided load (R196, R197). -/
def vecLoad (cached : Bool) (s : State) (u : CpAt) (f : VFields) (addr : Cp → Nat → Nat → Int) : Out1 :=
  cpRunV s u fun c t =>
    vecOk (c.vOk f.d.toNat && c.pmOk f) c t
      (advGo (vmemLoop u.cp c.sewBits false (fun i => wrap64 (addr c c.sewBits i)) (loadElem cached s.vlen c.sewBits f.d.toNat)
        (pendingElems s.vlen c f) c t))

/-- A unit-stride or strided store (R196, R197). -/
def vecStore (cached : Bool) (s : State) (u : CpAt) (f : VFields) (addr : Cp → Nat → Nat → Int) : Out1 :=
  cpRunV s u fun c t =>
    vecOk (c.vOk f.d.toNat && c.pmOk f) c t
      (advGo (vmemLoop u.cp c.sewBits true (fun i => wrap64 (addr c c.sewBits i)) (storeElem cached s.vlen c.sewBits f.d.toNat)
        (pendingElems s.vlen c f) c t))

/-- A line operation on the line holding an address: bits 63:32 must be 0 (R194), and it stalls behind the CP's own
range operation on that line (R213). -/
def lineOp (cp : Nat) (c : Cp) (t : Tile) (a : DWord) (k : Nat → CpRes) : CpRes :=
  if 2 ^ 32 ≤ a.toNat then .fail 0x0461 (a.toNat % 2 ^ 32) c t
  else if rangeStalls cp c t (lineOf a.toNat) 128 then .wait
  else k a.toNat

/-- The line of an address dropped. -/
def Cp.dropLine (c : Cp) (a : Nat) : Cp := { c with cache := c.cache.filter fun l => l.addr ≠ lineOf a }

/-- A range operation (R213): queued on the tile's engine; with the cache disabled or a length of 0 it completes at once
(R214). -/
def rangeOp (clean inval locked : Bool) (u : CpAt) (a b : BitVec 5) (s : State) : Out1 :=
  cpRun s u fun c t =>
    let start := (c.rd a).toNat
    let len := (c.rd b).toNat
    if !s.rngeng then .fail 0x0468 0 c t
    else if rangeBusy u.cp t then .wait
    else if 2 ^ 32 < start + len then .fail 0x0461 (start % 2 ^ 32) c t
    else if len = 0 || !c.cen then .go { c with rngSkipped := 0 }.adv t
    else
      .go c.adv { t with ranges := t.ranges ++
        [{ cp := u.cp, clean := clean, inval := inval, inclLocked := locked, start := start, len := len }] }

/-- What a range operation does to one line in its range: the line that stays, whether it is written back, whether it is
skipped (R213's table). -/
def rangeLine (r : RangeOp) (l : CacheLine) : Option CacheLine × Bool × Bool :=
  let whole := r.start ≤ l.addr && l.addr + 128 ≤ r.start + r.len
  if l.locked && !r.inclLocked then
    if r.clean then (some { l with dirty := false }, l.dirty, r.inval) else (some l, false, r.inval)
  else if !r.inval then (some { l with dirty := false }, l.dirty, false)
  else (none, l.dirty && (r.clean || !whole), false)

/-- A range operation over the CP's lines; the lines skipped go to RNGST and are added to RNG_SKIP (R213). -/
def applyRange (r : RangeOp) (c : Cp) (t : Tile) : Cp × Tile :=
  let hit := fun (l : CacheLine) => l.addr < r.start + r.len && r.start < l.addr + 128
  let t1 := c.cache.foldl (fun (x : Tile) l => if hit l && (rangeLine r l).2.1 then x.writeBack { l with dirty := true } else x) t
  let skipped := (c.cache.filter fun l => hit l && (rangeLine r l).2.2).length
  ({ c with cache := c.cache.filterMap (fun l => if hit l then (rangeLine r l).1 else some l)
            rngSkipped := BitVec.ofNat 16 skipped, rngSkip := satAdd c.rngSkip skipped }, t1)

/-- The flush of a disable ends: every line is written back and dropped, and CEN takes the value that waits (R214, R215). -/
def endFlush (c : Cp) (t : Tile) : Cp × Tile :=
  let r := flushCache c t
  ({ r.1 with cen := c.enableWait, enableWait := false, flushWait := false }, r.2)

/-- A write of CEN in TILE_CP_CTL (R214 to R216). -/
def State.writeCen (s : State) (u : CpAt) (v : Bool) : State :=
  let c := s.cpOf u.tile u.cp
  let t := s.tile u.tile
  if v then
    if c.flushWait then s.setCp u.tile u.cp { c with enableWait := true }
    else if c.cen then s
    else s.setCp u.tile u.cp { c with cen := true, cache := [] }
  else if !c.cen || c.flushWait then s
  else if rangeBusy u.cp t then s.setCp u.tile u.cp { c with flushWait := true }
  else
    let r := endFlush c t
    (s.setCp u.tile u.cp r.1).setTile u.tile r.2

/-- A predicate result: every element of the group is written (R182). -/
def writePred (vlen : Nat) (c : Cp) (n : Nat) (val : Nat → Bool) : Cp :=
  (List.range (c.pgElems vlen)).foldl (fun (x : Cp) i => x.setPelem vlen n i (val i)) c

/-- The checks of a bitmap access of n bytes: permission byte by byte, a range operation in the way, staging (R193, R194,
R197). -/
def bytesLoop (wr : Bool) (cp a n : Nat) (c : Cp) (t : Tile) (k : CpRes) : CpRes :=
  match (List.range n).find? fun i => (accFault c ((a + i : Nat) : Int) 1 1 wr).isSome with
  | some i => .fail 0x0461 ((a + i) % 2 ^ 32) c t
  | none =>
    if (List.range n).any fun i => rangeStalls cp c t (lineOf (a + i)) 128 then .wait
    else
      match (List.range n).findSome? fun i => unstaged t (a + i) with
      | some w => .miss w c t
      | none => k

/-- Byte k of a stored predicate: bits of elements at or beyond VL keep what memory held (R193). -/
def predByte (vlen : Nat) (c : Cp) (n : Nat) (old : Byte) (k : Nat) : Byte :=
  BitVec.ofNat 8 ((List.range 8).foldl (fun acc j =>
    acc + b2n (if 8 * k + j < c.vl then c.pelem vlen n (8 * k + j) else old.getLsbD j) * 2 ^ j) 0)

/-- LB (R194). -/
def execLb (u : CpAt) (d a : BitVec 5) (imm : BitVec 16) (s : State) : Out1 := loadG 1 true u d a imm s

/-- LH (R194). -/
def execLh (u : CpAt) (d a : BitVec 5) (imm : BitVec 16) (s : State) : Out1 := loadG 2 true u d a imm s

/-- LW (R194). -/
def execLw (u : CpAt) (d a : BitVec 5) (imm : BitVec 16) (s : State) : Out1 := loadG 4 true u d a imm s

/-- LD (R194). -/
def execLd (u : CpAt) (d a : BitVec 5) (imm : BitVec 16) (s : State) : Out1 := loadG 8 false u d a imm s

/-- LBU (R194). -/
def execLbu (u : CpAt) (d a : BitVec 5) (imm : BitVec 16) (s : State) : Out1 := loadG 1 false u d a imm s

/-- LHU (R194). -/
def execLhu (u : CpAt) (d a : BitVec 5) (imm : BitVec 16) (s : State) : Out1 := loadG 2 false u d a imm s

/-- LWU (R194). -/
def execLwu (u : CpAt) (d a : BitVec 5) (imm : BitVec 16) (s : State) : Out1 := loadG 4 false u d a imm s

/-- SB (R194). -/
def execSb (u : CpAt) (d a : BitVec 5) (imm : BitVec 16) (s : State) : Out1 := cpRun s u fun c t => scalarStore u.cp c t (c.ea a imm) (natLE 1 (c.rd d).toNat)

/-- SH (R194). -/
def execSh (u : CpAt) (d a : BitVec 5) (imm : BitVec 16) (s : State) : Out1 := cpRun s u fun c t => scalarStore u.cp c t (c.ea a imm) (natLE 2 (c.rd d).toNat)

/-- SW (R194). -/
def execSw (u : CpAt) (d a : BitVec 5) (imm : BitVec 16) (s : State) : Out1 := cpRun s u fun c t => scalarStore u.cp c t (c.ea a imm) (natLE 4 (c.rd d).toNat)

/-- SD (R194). -/
def execSd (u : CpAt) (d a : BitVec 5) (imm : BitVec 16) (s : State) : Out1 := cpRun s u fun c t => scalarStore u.cp c t (c.ea a imm) (natLE 8 (c.rd d).toNat)

/-- VLD (R196). -/
def execVld (u : CpAt) (f : VFields) (s : State) : Out1 := vecLoad false s u f fun c w i => (c.rd f.a).toNat + i * (w / 8)

/-- VLDS (R196). -/
def execVlds (u : CpAt) (f : VFields) (s : State) : Out1 := vecLoad false s u f fun c _ i => ((c.rd f.a).toNat : Int) + i * (c.rd f.b).toInt

/-- VLDX (R196). -/
def execVldx (u : CpAt) (f : VFields) (s : State) : Out1 :=
  cpRunV s u fun c t =>
    vecOk (c.vOk f.d.toNat && c.vOk f.b.toNat && c.pmOk f) c t
      (advGo (vmemLoop u.cp c.sewBits false (idxAddr s.vlen c f) (loadElem true s.vlen c.sewBits f.d.toNat) (pendingElems s.vlen c f) c t))

/-- VLDFF (R198). -/
def execVldff (u : CpAt) (f : VFields) (s : State) : Out1 :=
  cpRunV s u fun c t =>
    legal f.pe c t
      (vecOk (c.vOk f.d.toNat && c.vOk f.b.toNat && c.pmOk f) c t
        (match vmemLoop u.cp c.sewBits false (idxAddr s.vlen c f) (loadElem true s.vlen c.sewBits f.d.toNat)
            (pendingElems s.vlen c f) c t with
         | .fail _ _ c1 t1 =>
           let j := c1.rix.toNat
           let c2 := ((List.range c.vl).filter (fun i => j ≤ i)).foldl (fun (x : Cp) i => x.setPelem s.vlen f.pm.toNat i false) c1
           .go { c2 with rix := 0 }.adv t1
         | r => advGo r))

/-- VST (R196). -/
def execVst (u : CpAt) (f : VFields) (s : State) : Out1 := vecStore false s u f fun c w i => (c.rd f.a).toNat + i * (w / 8)

/-- VSTS (R196). -/
def execVsts (u : CpAt) (f : VFields) (s : State) : Out1 := vecStore false s u f fun c _ i => ((c.rd f.a).toNat : Int) + i * (c.rd f.b).toInt

/-- VSTX (R196). -/
def execVstx (u : CpAt) (f : VFields) (s : State) : Out1 :=
  cpRunV s u fun c t =>
    vecOk (c.vOk f.d.toNat && c.vOk f.b.toNat && c.pmOk f) c t
      (advGo (vmemLoop u.cp c.sewBits true (idxAddr s.vlen c f) (storeElem true s.vlen c.sewBits f.d.toNat) (pendingElems s.vlen c f) c t))

/-- FENCE (R199). -/
def execFence (u : CpAt) (s : State) : Out1 := cpRun s u fun c t => if rangeBusy u.cp t then .wait else .go c.adv t

/-- DCZ (R211). -/
def execDcz (u : CpAt) (a : BitVec 5) (s : State) : Out1 :=
  cpRun s u fun c t =>
    lineOp u.cp c t (c.rd a) fun x =>
      if !c.mayWrite (lineOf x) 128 then .fail 0x0461 x c t
      else if !c.cen then .go c.adv (t.store (lineOf x) (List.replicate 128 0))
      else
        match c.line? x with
        | some _ => .go (c.updLine x fun l => { l with data := List.replicate 128 0, dirty := true }).adv t
        | none =>
          let r := makeRoom c t
          .go { r.1 with cache := { addr := lineOf x, data := List.replicate 128 0, dirty := true, locked := false } :: r.1.cache }.adv r.2

/-- DCL (R211). -/
def execDcl (u : CpAt) (a : BitVec 5) (s : State) : Out1 :=
  cpRun s u fun c t =>
    lineOp u.cp c t (c.rd a) fun x =>
      match c.line? x with
      | some l => .go (c.updLine x fun y => { y with dirty := false }).adv (t.writeBack l)
      | none => .go c.adv t

/-- DCI (R211). -/
def execDci (u : CpAt) (a : BitVec 5) (s : State) : Out1 :=
  cpRun s u fun c t =>
    lineOp u.cp c t (c.rd a) fun x =>
      match c.line? x with
      | some l => if l.locked then .go { c with rngSkip := satInc c.rngSkip }.adv t else .go (c.dropLine x).adv t
      | none => .go c.adv t

/-- DCCI (R211). -/
def execDcci (u : CpAt) (a : BitVec 5) (s : State) : Out1 :=
  cpRun s u fun c t =>
    lineOp u.cp c t (c.rd a) fun x =>
      match c.line? x with
      | some l =>
        if l.locked then
          .go { c.updLine x (fun y => { y with dirty := false }) with rngSkip := satInc c.rngSkip }.adv (t.writeBack l)
        else .go (c.dropLine x).adv (t.writeBack l)
      | none => .go c.adv t

/-- DLOCK (R212). -/
def execDlock (u : CpAt) (d a : BitVec 5) (s : State) : Out1 :=
  cpRun s u fun c t =>
    lineOp u.cp c t (c.rd a) fun x =>
      if !c.mayRead x 1 then .fail 0x0461 x c t
      else if !c.cen then .go (c.wr d 0).adv t
      else if (c.line? x).any (fun l => l.locked) then .go (c.wr d 1).adv t
      else if 8 ≤ (c.cache.filter fun l => l.locked).length then .go (c.wr d 0).adv t
      else
        match (if (c.line? x).isSome then none else unstaged t x) with
        | some w => .miss w c t
        | none =>
          let r := fetchLine c t x
          .go ((r.1.updLine x fun l => { l with locked := true }).wr d 1).adv r.2

/-- DUNLOCK (R212). -/
def execDunlock (u : CpAt) (a : BitVec 5) (s : State) : Out1 := cpRun s u fun c t => lineOp u.cp c t (c.rd a) fun x => .go (c.updLine x fun l => { l with locked := false }).adv t

/-- RNGC (R213). -/
def execRngc (u : CpAt) (a b : BitVec 5) (s : State) : Out1 := rangeOp true false false u a b s

/-- RNGI (R213). -/
def execRngi (u : CpAt) (a b : BitVec 5) (s : State) : Out1 := rangeOp false true false u a b s

/-- RNGCI (R213). -/
def execRngci (u : CpAt) (a b : BitVec 5) (s : State) : Out1 := rangeOp true true false u a b s

/-- RNGI_INCLUDE_LOCKED (R213). -/
def execRngiIncludeLocked (u : CpAt) (a b : BitVec 5) (s : State) : Out1 := rangeOp false true true u a b s

/-- RNGCI_INCLUDE_LOCKED (R213). -/
def execRngciIncludeLocked (u : CpAt) (a b : BitVec 5) (s : State) : Out1 := rangeOp true true true u a b s

/-- RANGE_OPERATION_COMPLETE (R213); a gated tile's range engine stands still (R328). -/
def execRangeOperationComplete (t : Nat) (s : State) : Out1 :=
  match (if s.tileGated t then [] else (s.tile t).ranges) with
  | [] => no "no range operation is queued"
  | r :: rest =>
    let x := applyRange r (s.cpOf t r.cp) (s.tile t)
    let t1 : Tile := { x.2 with ranges := rest }
    let y := if x.1.flushWait && !rangeBusy r.cp t1 then endFlush x.1 t1 else (x.1, t1)
    .next ((s.setCp t r.cp y.1).setTile t y.2)

/-- STAGING_FILL_COMPLETE (R197). -/
def execStagingFillComplete (u : CpAt) (win : Nat) (s : State) : Out1 :=
  let c := s.cpOf u.tile u.cp
  when_ (u.tile < s.tilesPhys && u.cp < 4 && c.staging = some win && !s.tileGated u.tile) "the column processor waits for no such window"
    ((s.setCp u.tile u.cp { c with staging := none }).updTile u.tile fun t => { t with staged := win :: t.staged })

/-- KERNEL_WATCHDOG_EXPIRY (R205): a HALT of that CP in the same PCLK wins. -/
def execKernelWatchdogExpiry (u : CpAt) (s : State) : Out1 :=
  let c := s.cpOf u.tile u.cp
  timeout (u.tile < s.tilesPhys && u.cp < 4 && c.run && !c.halted && !s.tileGated u.tile) (· = .halt u) "no kernel runs on the column processor" s (s.kernelFail u 0x0465 0)

/-- CACHE_DISABLE_FLUSH (R214). -/
def execCacheDisableFlush (r : Req) (u : CpAt) (s : State) : Out1 :=
  if 18 ≤ u.tile || 4 ≤ u.cp then no "no such column processor"
  else busRow s r (tileOfs u.tile + 0x200 + 0x20 * u.cp) 0x00010000 (s.writeCen u false)

/-- CACHE_ENABLE (R215). -/
def execCacheEnable (r : Req) (u : CpAt) (s : State) : Out1 :=
  if 18 ≤ u.tile || 4 ≤ u.cp then no "no such column processor"
  else busRow s r (tileOfs u.tile + 0x200 + 0x20 * u.cp) 0x00010001 (s.writeCen u true)

/-- PLDB (R193). -/
def execPldb (u : CpAt) (f : VFields) (s : State) : Out1 :=
  cpRunV s u fun c t =>
    legal (pName f.d && !f.pe && f.pm = 0) c t
      (vecOk (c.pOk f.d.toNat) c t
        (bytesLoop false u.cp (c.rd f.a).toNat (ceilDiv c.vl 8) c t
          (let r := cacheRead c t (c.rd f.a).toNat (ceilDiv c.vl 8)
           .go (writePred s.vlen r.2.1 f.d.toNat fun i => i < c.vl && (nth r.1 (i / 8) 0).getLsbD (i % 8)).adv r.2.2)))

/-- PSTB (R193). -/
def execPstb (u : CpAt) (f : VFields) (s : State) : Out1 :=
  cpRunV s u fun c t =>
    legal (pName f.d && !f.pe && f.pm = 0) c t
      (vecOk (c.pOk f.d.toNat) c t
        (bytesLoop true u.cp (c.rd f.a).toNat (ceilDiv c.vl 8) c t
          (let r := cacheRead c t (c.rd f.a).toNat (ceilDiv c.vl 8)
           let bs := (List.range (ceilDiv c.vl 8)).map fun k => predByte s.vlen c f.d.toNat (nth r.1 k 0) k
           let q := cacheWrite r.2.1 r.2.2 (c.rd f.a).toNat bs
           .go q.1.adv q.2)))

end Sys2Proof.Machine
end

