-- ==== Sys2Proof/Machine/CpVector.lean ====
section
/-! DEFINITION. Machine/CpVector.lean: the vector, compare, FP, CF32, GF(2^8), reduction and predicate instructions (R180 to R193). -/

namespace Sys2Proof.Machine

/-- The B operand of element i: V[B], or the low SEW bits of G[B] (R186). -/
def vecB (vlen : Nat) (c : Cp) (f : VFields) (x : Bool) (i : Nat) : Nat :=
  if x then (c.rd f.b).toNat % 2 ^ c.sewBits else c.velem vlen c.sewBits f.b.toNat i

/-- The active elements of V[D] written with the values and flags val gives (R182). -/
def elemwise (vlen w : Nat) (f : VFields) (c : Cp) (val : Nat → Nat × KFlags) : Cp :=
  (c.actives vlen f).foldl (fun (y : Cp) i => (y.setVelem vlen w f.d.toNat i (val i).1).flag (val i).2) c

/-- A vector integer instruction (R186, R187). -/
def vecBin (op : (w : Nat) → BitVec w → BitVec w → BitVec w × KFlags) (s : State) (u : CpAt) (f : VFields) (x : Bool) : Out1 :=
  cpRunV s u fun c t =>
    vecOk (c.vOk f.d.toNat && c.vOk f.a.toNat && (x || c.vOk f.b.toNat) && c.pmOk f) c t
      (let w := c.sewBits
       .go (elemwise s.vlen w f c fun i =>
        let r := op w (BitVec.ofNat w (c.velem s.vlen w f.a.toNat i)) (BitVec.ofNat w (vecB s.vlen c f x i))
        (r.1.toNat, r.2)).adv t)

/-- A vector instruction on V[A] alone, where the SEW allows it (R183). -/
def vecUn (op : Nat → Nat → Nat × KFlags) (sewOk : Nat → Bool) (s : State) (u : CpAt) (f : VFields) : Out1 :=
  cpRunV s u fun c t =>
    vecOk (sewOk c.sewBits && c.vOk f.d.toNat && c.vOk f.a.toNat && c.pmOk f) c t
      (.go (elemwise s.vlen c.sewBits f c fun i => op c.sewBits (c.velem s.vlen c.sewBits f.a.toNat i)).adv t)

/-- A vector instruction on V[A], B and V[D], where the SEW allows it (R183). -/
def vecTri (sewOk : Nat → Bool) (op : Nat → Nat → Nat → Nat → Nat × KFlags) (s : State) (u : CpAt) (f : VFields) (x : Bool) : Out1 :=
  cpRunV s u fun c t =>
    vecOk (sewOk c.sewBits && c.vOk f.d.toNat && c.vOk f.a.toNat && (x || c.vOk f.b.toNat) && c.pmOk f) c t
      (.go (elemwise s.vlen c.sewBits f c fun i =>
        op c.sewBits (c.velem s.vlen c.sewBits f.a.toNat i) (vecB s.vlen c f x i) (c.velem s.vlen c.sewBits f.d.toNat i)).adv t)

/-- VSEXTH and VZEXTH: elements of half width from a group of half as many registers (R187). -/
def vecWiden (signed : Bool) (s : State) (u : CpAt) (f : VFields) : Out1 :=
  cpRunV s u fun c t =>
    vecOk (16 ≤ c.sewBits && c.vOk f.d.toNat && f.a.toNat % ceilDiv c.grpN 2 = 0 && c.pmOk f) c t
      (let w := c.sewBits
       .go (elemwise s.vlen w f c fun i =>
        let h := BitVec.ofNat (w / 2) (c.velem s.vlen (w / 2) f.a.toNat i)
        ((if signed then (h.signExtend w).toNat else h.toNat), 0)).adv t)

/-- The SEW an FP instruction allows (R186). -/
def fpSew (w : Nat) : Bool := w = 32 || w = 64

/-- SEW 32 means FP32 and SEW 64 means FP64 (R186). -/
def vfmt (w : Nat) : Fmt := if w = 32 then f32 else f64

/-- A compare into the predicate group P[D]: every element of the group is written (R182). -/
def vecCmp (sewOk : Nat → Bool) (op : Nat → Nat → Nat → Bool × KFlags) (s : State) (u : CpAt) (f : VFields) (x : Bool) : Out1 :=
  cpRunV s u fun c t =>
    legal (pName f.d) c t
      (vecOk (sewOk c.sewBits && c.pOk f.d.toNat && c.vOk f.a.toNat && (x || c.vOk f.b.toNat) && c.pmOk f) c t
        (let val := fun i => op c.sewBits (c.velem s.vlen c.sewBits f.a.toNat i) (vecB s.vlen c f x i)
         let c1 := writePred s.vlen c f.d.toNat fun i => c.active s.vlen f i && (val i).1
         .go ((c.actives s.vlen f).foldl (fun (y : Cp) i => y.flag (val i).2) c1).adv t))

/-- A byte of V[A]; bytes at or beyond VL read as 0 (R191). -/
def byteAt (vlen : Nat) (c : Cp) (n i : Nat) : Nat := if i < c.vl then c.velem vlen 8 n i else 0

/-- A pattern compare of the bytes of V[A] with G[B] (R191). -/
def vecPat (p : Cp → DWord → Nat → Bool) (s : State) (u : CpAt) (f : VFields) : Out1 :=
  cpRunV s u fun c t =>
    legal (pName f.d) c t
      (vecOk (c.sewBits = 8 && c.pOk f.d.toNat && c.vOk f.a.toNat && c.pmOk f) c t
        (.go (writePred s.vlen c f.d.toNat fun i => c.active s.vlen f i && p c (c.rd f.b) i).adv t))

/-- A reduction of the active elements, in ascending order, into G[D] (R192): start gives the value without an active
element. -/
def vecRed (sewOk : Nat → Bool) (start : Nat → Nat) (op : Nat → Nat → Nat → Nat × KFlags) (signed : Bool)
    (s : State) (u : CpAt) (f : VFields) : Out1 :=
  cpRunV s u fun c t =>
    vecOk (sewOk c.sewBits && c.vOk f.a.toNat && c.pmOk f) c t
      (let w := c.sewBits
       let r := (c.actives s.vlen f).foldl (fun (a : Nat × KFlags) i =>
         let q := op w a.1 (c.velem s.vlen w f.a.toNat i)
         (q.1, a.2 ||| q.2)) (start w, 0)
       let v := BitVec.ofNat w r.1
       .go ((c.wr f.d (if signed then v.signExtend 64 else v.setWidth 64)).flag r.2).adv t)

/-- The predicate major on P[A] and P[B] into P[D]: elements below VL; n operands are P names (R193). -/
def predLogic (n : Nat) (op : Bool → Bool → Bool) (s : State) (u : CpAt) (f : VFields) : Out1 :=
  cpRunV s u fun c t =>
    legal (pName f.d && (n < 1 || pName f.a) && (n < 2 || pName f.b) && !f.pe && f.pm = 0) c t
      (vecOk (c.pOk f.d.toNat && (n < 1 || c.pOk f.a.toNat) && (n < 2 || c.pOk f.b.toNat)) c t
        (.go (writePred s.vlen c f.d.toNat fun i =>
          i < c.vl && op (c.pelem s.vlen f.a.toNat i) (c.pelem s.vlen f.b.toNat i)).adv t))

/-- PCNT and PFIRST: a number from P[A] into G[D] (R193). -/
def predToG (val : Cp → Nat) (s : State) (u : CpAt) (f : VFields) : Out1 :=
  cpRunV s u fun c t =>
    legal (pName f.a && !f.pe && f.pm = 0) c t
      (vecOk (c.pOk f.a.toNat) c t (.go (c.wr f.d (BitVec.ofNat 64 (val c))).adv t))

/-- VADD (R187). -/
def execVadd (u : CpAt) (f : VFields) (x : Bool) (s : State) : Out1 := vecBin (fun w => @iAdd w) s u f x

/-- VSUB (R187). -/
def execVsub (u : CpAt) (f : VFields) (x : Bool) (s : State) : Out1 := vecBin (fun w => @iSub w) s u f x

/-- VMUL (R187). -/
def execVmul (u : CpAt) (f : VFields) (x : Bool) (s : State) : Out1 := vecBin (fun w => @iMul w) s u f x

/-- VMULH (R187). -/
def execVmulh (u : CpAt) (f : VFields) (x : Bool) (s : State) : Out1 := vecBin (fun w => @iMulh w) s u f x

/-- VMULHU (R187). -/
def execVmulhu (u : CpAt) (f : VFields) (x : Bool) (s : State) : Out1 := vecBin (fun w => @iMulhu w) s u f x

/-- VDIV (R187). -/
def execVdiv (u : CpAt) (f : VFields) (x : Bool) (s : State) : Out1 := vecBin (fun w => @iDiv w) s u f x

/-- VDIVU (R187). -/
def execVdivu (u : CpAt) (f : VFields) (x : Bool) (s : State) : Out1 := vecBin (fun w => @iDivu w) s u f x

/-- VREM (R187). -/
def execVrem (u : CpAt) (f : VFields) (x : Bool) (s : State) : Out1 := vecBin (fun w => @iRem w) s u f x

/-- VREMU (R187). -/
def execVremu (u : CpAt) (f : VFields) (x : Bool) (s : State) : Out1 := vecBin (fun w => @iRemu w) s u f x

/-- VAND (R186). -/
def execVand (u : CpAt) (f : VFields) (x : Bool) (s : State) : Out1 := vecBin (fun w => @iAnd w) s u f x

/-- VOR (R186). -/
def execVor (u : CpAt) (f : VFields) (x : Bool) (s : State) : Out1 := vecBin (fun w => @iOr w) s u f x

/-- VXOR (R186). -/
def execVxor (u : CpAt) (f : VFields) (x : Bool) (s : State) : Out1 := vecBin (fun w => @iXor w) s u f x

/-- VSHL (R187). -/
def execVshl (u : CpAt) (f : VFields) (x : Bool) (s : State) : Out1 := vecBin (fun w => @iShl w) s u f x

/-- VSHR (R187). -/
def execVshr (u : CpAt) (f : VFields) (x : Bool) (s : State) : Out1 := vecBin (fun w => @iShr w) s u f x

/-- VSAR (R187). -/
def execVsar (u : CpAt) (f : VFields) (x : Bool) (s : State) : Out1 := vecBin (fun w => @iSar w) s u f x

/-- VROTL (R186). -/
def execVrotl (u : CpAt) (f : VFields) (x : Bool) (s : State) : Out1 := vecBin (fun w => @iRotl w) s u f x

/-- VMIN (R186). -/
def execVmin (u : CpAt) (f : VFields) (x : Bool) (s : State) : Out1 := vecBin (fun w => @iMin w) s u f x

/-- VMAX (R186). -/
def execVmax (u : CpAt) (f : VFields) (x : Bool) (s : State) : Out1 := vecBin (fun w => @iMax w) s u f x

/-- VMINU (R186). -/
def execVminu (u : CpAt) (f : VFields) (x : Bool) (s : State) : Out1 := vecBin (fun w => @iMinu w) s u f x

/-- VMAXU (R186). -/
def execVmaxu (u : CpAt) (f : VFields) (x : Bool) (s : State) : Out1 := vecBin (fun w => @iMaxu w) s u f x

/-- VADDS (R187). -/
def execVadds (u : CpAt) (f : VFields) (x : Bool) (s : State) : Out1 := vecBin (fun w => @iAdds w) s u f x

/-- VSUBS (R187). -/
def execVsubs (u : CpAt) (f : VFields) (x : Bool) (s : State) : Out1 := vecBin (fun w => @iSubs w) s u f x

/-- VADDSU (R187). -/
def execVaddsu (u : CpAt) (f : VFields) (x : Bool) (s : State) : Out1 := vecBin (fun w => @iAddsu w) s u f x

/-- VSUBSU (R187). -/
def execVsubsu (u : CpAt) (f : VFields) (x : Bool) (s : State) : Out1 := vecBin (fun w => @iSubsu w) s u f x

/-- VADDO (R187). -/
def execVaddo (u : CpAt) (f : VFields) (x : Bool) (s : State) : Out1 := vecBin (fun w => @iAddo w) s u f x

/-- VSUBO (R187). -/
def execVsubo (u : CpAt) (f : VFields) (x : Bool) (s : State) : Out1 := vecBin (fun w => @iSubo w) s u f x

/-- VMULO (R187). -/
def execVmulo (u : CpAt) (f : VFields) (x : Bool) (s : State) : Out1 := vecBin (fun w => @iMulo w) s u f x

/-- VMV (R186). -/
def execVmv (u : CpAt) (f : VFields) (x : Bool) (s : State) : Out1 :=
  cpRunV s u fun c t =>
    legal (f.a = 0) c t
      (vecOk (c.vOk f.d.toNat && (x || c.vOk f.b.toNat) && c.pmOk f) c t
        (.go (elemwise s.vlen c.sewBits f c fun i => (vecB s.vlen c f x i, 0)).adv t))

/-- VMERGE (R186). -/
def execVmerge (u : CpAt) (f : VFields) (x : Bool) (s : State) : Out1 :=
  cpRunV s u fun c t =>
    vecOk (c.vOk f.d.toNat && c.vOk f.a.toNat && (x || c.vOk f.b.toNat) && c.pmOk f) c t
      (.go ((List.range c.vl).foldl (fun (y : Cp) i => y.setVelem s.vlen c.sewBits f.d.toNat i
        (if c.active s.vlen f i then c.velem s.vlen c.sewBits f.a.toNat i else vecB s.vlen c f x i)) c).adv t)

/-- VSEXTH (R187). -/
def execVsexth (u : CpAt) (f : VFields) (_ : Bool) (s : State) : Out1 := vecWiden true s u f

/-- VZEXTH (R187). -/
def execVzexth (u : CpAt) (f : VFields) (_ : Bool) (s : State) : Out1 := vecWiden false s u f

/-- VNARH (R187). -/
def execVnarh (u : CpAt) (f : VFields) (_ : Bool) (s : State) : Out1 :=
  cpRunV s u fun c t =>
    vecOk (16 ≤ c.sewBits && f.d.toNat % ceilDiv c.grpN 2 = 0 && c.vOk f.a.toNat && c.pmOk f) c t
      (.go ((c.actives s.vlen f).foldl (fun (y : Cp) i =>
        y.setVelem s.vlen (c.sewBits / 2) f.d.toNat i (c.velem s.vlen c.sewBits f.a.toNat i)) c).adv t)

/-- VPOPC (R186). -/
def execVpopc (u : CpAt) (f : VFields) (_ : Bool) (s : State) : Out1 := vecUn (fun w n => (popN w n, 0)) (fun _ => true) s u f

/-- VCLZ (R186). -/
def execVclz (u : CpAt) (f : VFields) (_ : Bool) (s : State) : Out1 := vecUn (fun w n => (clzN w n, 0)) (fun _ => true) s u f

/-- CEQ (R182). -/
def execCeq (u : CpAt) (f : VFields) (x : Bool) (s : State) : Out1 := vecCmp (fun _ => true) (fun w p q => (cmpS 0 (BitVec.ofNat w p) (BitVec.ofNat w q), 0)) s u f x

/-- CNE (R182). -/
def execCne (u : CpAt) (f : VFields) (x : Bool) (s : State) : Out1 := vecCmp (fun _ => true) (fun w p q => (cmpS 1 (BitVec.ofNat w p) (BitVec.ofNat w q), 0)) s u f x

/-- CLT (R182). -/
def execClt (u : CpAt) (f : VFields) (x : Bool) (s : State) : Out1 := vecCmp (fun _ => true) (fun w p q => (cmpS 2 (BitVec.ofNat w p) (BitVec.ofNat w q), 0)) s u f x

/-- CLE (R182). -/
def execCle (u : CpAt) (f : VFields) (x : Bool) (s : State) : Out1 := vecCmp (fun _ => true) (fun w p q => (cmpS 3 (BitVec.ofNat w p) (BitVec.ofNat w q), 0)) s u f x

/-- CGT (R182). -/
def execCgt (u : CpAt) (f : VFields) (x : Bool) (s : State) : Out1 := vecCmp (fun _ => true) (fun w p q => (cmpS 4 (BitVec.ofNat w p) (BitVec.ofNat w q), 0)) s u f x

/-- CGE (R182). -/
def execCge (u : CpAt) (f : VFields) (x : Bool) (s : State) : Out1 := vecCmp (fun _ => true) (fun w p q => (cmpS 5 (BitVec.ofNat w p) (BitVec.ofNat w q), 0)) s u f x

/-- CLTU (R182). -/
def execCltu (u : CpAt) (f : VFields) (x : Bool) (s : State) : Out1 := vecCmp (fun _ => true) (fun w p q => (cmpU 2 (BitVec.ofNat w p) (BitVec.ofNat w q), 0)) s u f x

/-- CLEU (R182). -/
def execCleu (u : CpAt) (f : VFields) (x : Bool) (s : State) : Out1 := vecCmp (fun _ => true) (fun w p q => (cmpU 3 (BitVec.ofNat w p) (BitVec.ofNat w q), 0)) s u f x

/-- CGTU (R182). -/
def execCgtu (u : CpAt) (f : VFields) (x : Bool) (s : State) : Out1 := vecCmp (fun _ => true) (fun w p q => (cmpU 4 (BitVec.ofNat w p) (BitVec.ofNat w q), 0)) s u f x

/-- CGEU (R182). -/
def execCgeu (u : CpAt) (f : VFields) (x : Bool) (s : State) : Out1 := vecCmp (fun _ => true) (fun w p q => (cmpU 5 (BitVec.ofNat w p) (BitVec.ofNat w q), 0)) s u f x

/-- CFEQ (R188). -/
def execCfeq (u : CpAt) (f : VFields) (x : Bool) (s : State) : Out1 := vecCmp fpSew (fun w => fpCmp 0 (vfmt w)) s u f x

/-- CFLT (R188). -/
def execCflt (u : CpAt) (f : VFields) (x : Bool) (s : State) : Out1 := vecCmp fpSew (fun w => fpCmp 1 (vfmt w)) s u f x

/-- CFLE (R188). -/
def execCfle (u : CpAt) (f : VFields) (x : Bool) (s : State) : Out1 := vecCmp fpSew (fun w => fpCmp 2 (vfmt w)) s u f x

/-- CFUN (R188). -/
def execCfun (u : CpAt) (f : VFields) (x : Bool) (s : State) : Out1 := vecCmp fpSew (fun w => fpUnord (vfmt w)) s u f x

/-- CFTLT (R188). -/
def execCftlt (u : CpAt) (f : VFields) (x : Bool) (s : State) : Out1 := vecCmp fpSew (fun w => fpTlt (vfmt w)) s u f x

/-- VBEQ (R191). -/
def execVbeq (u : CpAt) (f : VFields) (s : State) : Out1 := vecPat (fun c b i => byteAt s.vlen c f.a.toNat i = bits b.toNat 7 0) s u f

/-- VBRNG (R191). -/
def execVbrng (u : CpAt) (f : VFields) (s : State) : Out1 :=
  vecPat (fun c b i =>
    bits b.toNat 7 0 ≤ byteAt s.vlen c f.a.toNat i && byteAt s.vlen c f.a.toNat i ≤ bits b.toNat 15 8) s u f

/-- VPAT (R191). -/
def execVpat (u : CpAt) (f : VFields) (s : State) : Out1 :=
  vecPat (fun c b i =>
    (List.range 8).all fun k => byteAt s.vlen c f.a.toNat (i + k) = bits b.toNat (8 * k + 7) (8 * k)) s u f

/-- VPATM (R191). -/
def execVpatm (u : CpAt) (f : VFields) (s : State) : Out1 :=
  if f.b.toNat % 2 = 1 then cpRunV s u fun c t => .fail 0x0460 0 c t
  else
    vecPat (fun c b i =>
      let m := (c.rd (f.b + 1)).toNat
      (List.range 8).all fun k =>
        (byteAt s.vlen c f.a.toNat (i + k) ^^^ bits b.toNat (8 * k + 7) (8 * k)) &&& bits m (8 * k + 7) (8 * k) = 0) s u f

/-- VFADD (R188). -/
def execVfadd (u : CpAt) (f : VFields) (x : Bool) (s : State) : Out1 := vecTri fpSew (fun w p q _ => fpAdd (vfmt w) p q) s u f x

/-- VFSUB (R188). -/
def execVfsub (u : CpAt) (f : VFields) (x : Bool) (s : State) : Out1 := vecTri fpSew (fun w p q _ => fpSub (vfmt w) p q) s u f x

/-- VFMUL (R188). -/
def execVfmul (u : CpAt) (f : VFields) (x : Bool) (s : State) : Out1 := vecTri fpSew (fun w p q _ => fpMul (vfmt w) p q) s u f x

/-- VFDIV (R188). -/
def execVfdiv (u : CpAt) (f : VFields) (x : Bool) (s : State) : Out1 := vecTri fpSew (fun w p q _ => fpDiv (vfmt w) p q) s u f x

/-- VFMIN (R188). -/
def execVfmin (u : CpAt) (f : VFields) (x : Bool) (s : State) : Out1 := vecTri fpSew (fun w p q _ => fpMinMax false (vfmt w) p q) s u f x

/-- VFMAX (R188). -/
def execVfmax (u : CpAt) (f : VFields) (x : Bool) (s : State) : Out1 := vecTri fpSew (fun w p q _ => fpMinMax true (vfmt w) p q) s u f x

/-- VFSQRT (R188). -/
def execVfsqrt (u : CpAt) (f : VFields) (_ : Bool) (s : State) : Out1 := vecUn (fun w p => fpSqrt (vfmt w) p) fpSew s u f

/-- VFMA (R188). -/
def execVfma (u : CpAt) (f : VFields) (x : Bool) (s : State) : Out1 := vecTri fpSew (fun w p q r => fpFma (vfmt w) p q r) s u f x

/-- VFNMS (R188). -/
def execVfnms (u : CpAt) (f : VFields) (x : Bool) (s : State) : Out1 := vecTri fpSew (fun w p q r => fpFnms (vfmt w) p q r) s u f x

/-- VFABS (R186). -/
def execVfabs (u : CpAt) (f : VFields) (s : State) : Out1 := vecUn (fun w p => fpAbs (vfmt w) p) fpSew s u f

/-- VFNEG (R186). -/
def execVfneg (u : CpAt) (f : VFields) (s : State) : Out1 := vecUn (fun w p => fpNeg (vfmt w) p) fpSew s u f

/-- VCVTFI (R188). -/
def execVcvtfi (u : CpAt) (f : VFields) (s : State) : Out1 := vecUn (fun w p => let r := fpToInt (vfmt w) w p; (r.1.toNat, r.2)) fpSew s u f

/-- VCVTIF (R188). -/
def execVcvtif (u : CpAt) (f : VFields) (s : State) : Out1 := vecUn (fun w p => intToFp (vfmt w) (BitVec.ofNat w p).toInt) fpSew s u f

/-- VCVTUF (R188). -/
def execVcvtuf (u : CpAt) (f : VFields) (s : State) : Out1 := vecUn (fun w p => intToFp (vfmt w) p) fpSew s u f

/-- VCVTDS (R188). -/
def execVcvtds (u : CpAt) (f : VFields) (s : State) : Out1 := vecUn (fun _ p => fpToFp f64 f32 p) (fun w => w = 64) s u f

/-- VCVTSD (R188). -/
def execVcvtsd (u : CpAt) (f : VFields) (s : State) : Out1 := vecUn (fun _ p => fpToFp f32 f64 (p % 2 ^ 32)) (fun w => w = 64) s u f

/-- VCMUL (R189). -/
def execVcmul (u : CpAt) (f : VFields) (x : Bool) (s : State) : Out1 := vecTri (fun w => w = 64) (fun _ p q _ => cfMul p q) s u f x

/-- VCMULC (R189). -/
def execVcmulc (u : CpAt) (f : VFields) (x : Bool) (s : State) : Out1 := vecTri (fun w => w = 64) (fun _ p q _ => cfMulC p q) s u f x

/-- VCMAC (R189). -/
def execVcmac (u : CpAt) (f : VFields) (x : Bool) (s : State) : Out1 := vecTri (fun w => w = 64) (fun _ p q r => cfMac r p q) s u f x

/-- VCMACC (R189). -/
def execVcmacc (u : CpAt) (f : VFields) (x : Bool) (s : State) : Out1 := vecTri (fun w => w = 64) (fun _ p q r => cfMacC r p q) s u f x

/-- VCADD (R189). -/
def execVcadd (u : CpAt) (f : VFields) (x : Bool) (s : State) : Out1 := vecTri (fun w => w = 64) (fun _ p q _ => cfAdd p q) s u f x

/-- VCSUB (R189). -/
def execVcsub (u : CpAt) (f : VFields) (x : Bool) (s : State) : Out1 := vecTri (fun w => w = 64) (fun _ p q _ => cfSub p q) s u f x

/-- VCABS2 (R189). -/
def execVcabs2 (u : CpAt) (f : VFields) (s : State) : Out1 := vecUn (fun _ p => cfAbs2 p) (fun w => w = 64) s u f

/-- VBFLY (R189). -/
def execVbfly (u : CpAt) (f : VFields) (s : State) : Out1 :=
  cpRunV s u fun c t =>
    vecOk (c.sewBits = 64 && c.vOk f.d.toNat && c.vOk f.a.toNat && c.vOk f.b.toNat && c.pmOk f) c t
      (.go ((c.actives s.vlen f).foldl (fun (y : Cp) i =>
        let va := c.velem s.vlen 64 f.a.toNat i
        let p := cfMul (c.velem s.vlen 64 f.d.toNat i) (c.velem s.vlen 64 f.b.toNat i)
        let hi := cfAdd va p.1
        let lo := cfSub va p.1
        ((y.setVelem s.vlen 64 f.a.toNat i hi.1).setVelem s.vlen 64 f.b.toNat i lo.1).flag (p.2 ||| hi.2 ||| lo.2)) c).adv t)

/-- VGFMUL (R190). -/
def execVgfmul (u : CpAt) (f : VFields) (x : Bool) (s : State) : Out1 := vecTri (fun w => w = 8) (fun _ p q _ => (gfMul p q, 0)) s u f x

/-- VGFMAC (R190). -/
def execVgfmac (u : CpAt) (f : VFields) (x : Bool) (s : State) : Out1 := vecTri (fun w => w = 8) (fun _ p q r => (r ^^^ gfMul p q, 0)) s u f x

/-- VREDSUM (R192). -/
def execVredsum (u : CpAt) (f : VFields) (s : State) : Out1 := vecRed (fun _ => true) (fun _ => 0) (fun w p q => ((p + q) % 2 ^ w, 0)) true s u f

/-- VREDMIN (R192). -/
def execVredmin (u : CpAt) (f : VFields) (s : State) : Out1 := vecRed (fun _ => true) (fun w => 2 ^ (w - 1) - 1) (fun w p q => ((iMin (BitVec.ofNat w p) (BitVec.ofNat w q)).1.toNat, 0)) true s u f

/-- VREDMAX (R192). -/
def execVredmax (u : CpAt) (f : VFields) (s : State) : Out1 := vecRed (fun _ => true) (fun w => 2 ^ (w - 1)) (fun w p q => ((iMax (BitVec.ofNat w p) (BitVec.ofNat w q)).1.toNat, 0)) true s u f

/-- VREDMINU (R192). -/
def execVredminu (u : CpAt) (f : VFields) (s : State) : Out1 := vecRed (fun _ => true) (fun w => 2 ^ w - 1) (fun _ p q => (min p q, 0)) false s u f

/-- VREDMAXU (R192). -/
def execVredmaxu (u : CpAt) (f : VFields) (s : State) : Out1 := vecRed (fun _ => true) (fun _ => 0) (fun _ p q => (max p q, 0)) false s u f

/-- VFREDSUM (R192). -/
def execVfredsum (u : CpAt) (f : VFields) (s : State) : Out1 := vecRed fpSew (fun _ => 0) (fun w => fpAdd (vfmt w)) false s u f

/-- VFREDMIN (R192). -/
def execVfredmin (u : CpAt) (f : VFields) (s : State) : Out1 := vecRed fpSew (fun w => (vfmt w).inf) (fun w => fpMinMax false (vfmt w)) false s u f

/-- VFREDMAX (R192). -/
def execVfredmax (u : CpAt) (f : VFields) (s : State) : Out1 := vecRed fpSew (fun w => (vfmt w).signed true (vfmt w).inf) (fun w => fpMinMax true (vfmt w)) false s u f

/-- VGET (R192). -/
def execVget (u : CpAt) (f : VFields) (s : State) : Out1 :=
  cpRunV s u fun c t =>
    vecOk (c.vOk f.a.toNat && c.pmOk f) c t
      (let i := (c.rd f.b).toNat
       .go (c.wr f.d (BitVec.ofNat 64 (if i < c.vl then c.velem s.vlen c.sewBits f.a.toNat i else 0))).adv t)

/-- VINS (R192). -/
def execVins (u : CpAt) (f : VFields) (s : State) : Out1 :=
  cpRunV s u fun c t =>
    vecOk (c.vOk f.d.toNat && c.pmOk f) c t
      (let i := (c.rd f.b).toNat
       .go (if c.active s.vlen f i then c.setVelem s.vlen c.sewBits f.d.toNat i (c.rd f.a).toNat else c).adv t)

/-- VIOTA (R192). -/
def execViota (u : CpAt) (f : VFields) (s : State) : Out1 :=
  cpRunV s u fun c t =>
    vecOk (c.vOk f.d.toNat && c.pmOk f) c t (.go (elemwise s.vlen c.sewBits f c fun i => (i, 0)).adv t)

/-- VCOMPRESS (R192). -/
def execVcompress (u : CpAt) (f : VFields) (s : State) : Out1 :=
  cpRunV s u fun c t =>
    vecOk (c.vOk f.d.toNat && c.vOk f.a.toNat && c.pmOk f) c t
      (.go ((c.actives s.vlen f).zipIdx.foldl (fun (y : Cp) e =>
        y.setVelem s.vlen c.sewBits f.d.toNat e.2 (c.velem s.vlen c.sewBits f.a.toNat e.1)) c).adv t)

/-- VPERM (R192). -/
def execVperm (u : CpAt) (f : VFields) (s : State) : Out1 :=
  cpRunV s u fun c t =>
    vecOk (c.vOk f.d.toNat && c.vOk f.a.toNat && c.vOk f.b.toNat && c.pmOk f) c t
      (.go (elemwise s.vlen c.sewBits f c fun i =>
        let j := c.velem s.vlen c.sewBits f.b.toNat i
        (if j < c.vl then c.velem s.vlen c.sewBits f.a.toNat j else 0, 0)).adv t)

/-- VSLUP (R192). -/
def execVslup (u : CpAt) (f : VFields) (s : State) : Out1 :=
  cpRunV s u fun c t =>
    vecOk (c.vOk f.d.toNat && c.vOk f.a.toNat && c.pmOk f) c t
      (let k := (c.rd f.b).toNat
       .go (((c.actives s.vlen f).filter fun j => k ≤ j).foldl (fun (y : Cp) j =>
        y.setVelem s.vlen c.sewBits f.d.toNat j (c.velem s.vlen c.sewBits f.a.toNat (j - k))) c).adv t)

/-- VSLDN (R192). -/
def execVsldn (u : CpAt) (f : VFields) (s : State) : Out1 :=
  cpRunV s u fun c t =>
    vecOk (c.vOk f.d.toNat && c.vOk f.a.toNat && c.pmOk f) c t
      (let k := (c.rd f.b).toNat
       .go (elemwise s.vlen c.sewBits f c fun i =>
        (if i + k < c.vl then c.velem s.vlen c.sewBits f.a.toNat (i + k) else 0, 0)).adv t)

/-- PAND (R193). -/
def execPand (u : CpAt) (f : VFields) (s : State) : Out1 := predLogic 2 (fun p q => p && q) s u f

/-- POR (R193). -/
def execPor (u : CpAt) (f : VFields) (s : State) : Out1 := predLogic 2 (fun p q => p || q) s u f

/-- PXOR (R193). -/
def execPxor (u : CpAt) (f : VFields) (s : State) : Out1 := predLogic 2 (fun p q => p ^^ q) s u f

/-- PANDN (R193). -/
def execPandn (u : CpAt) (f : VFields) (s : State) : Out1 := predLogic 2 (fun p q => p && !q) s u f

/-- PNOT (R193). -/
def execPnot (u : CpAt) (f : VFields) (s : State) : Out1 := predLogic 1 (fun p _ => !p) s u f

/-- PMOV (R193). -/
def execPmov (u : CpAt) (f : VFields) (s : State) : Out1 := predLogic 1 (fun p _ => p) s u f

/-- PSET (R193). -/
def execPset (u : CpAt) (f : VFields) (s : State) : Out1 := predLogic 0 (fun _ _ => true) s u f

/-- PCLR (R193). -/
def execPclr (u : CpAt) (f : VFields) (s : State) : Out1 := predLogic 0 (fun _ _ => false) s u f

/-- PCNT (R193). -/
def execPcnt (u : CpAt) (f : VFields) (s : State) : Out1 := predToG (fun c => ((List.range c.vl).filter fun i => c.pelem s.vlen f.a.toNat i).length) s u f

/-- PFIRST (R193). -/
def execPfirst (u : CpAt) (f : VFields) (s : State) : Out1 := predToG (fun c => ((List.range c.vl).find? fun i => c.pelem s.vlen f.a.toNat i).getD c.vl) s u f

/-- PFROMG (R193). -/
def execPfromg (u : CpAt) (f : VFields) (s : State) : Out1 :=
  cpRunV s u fun c t =>
    legal (pName f.d && !f.pe && f.pm = 0) c t
      (vecOk (c.pOk f.d.toNat) c t
        (.go (writePred s.vlen c f.d.toNat fun i => i < min 64 c.vl && (c.rd f.a).getLsbD i).adv t))

end Sys2Proof.Machine
end

