-- ==== Sys2Proof/Machine/Exchange.lean ====
section
/-! DEFINITION. Machine/Exchange.lean: what peer devices send to a run that exchanges (R16, R87, R141, R457 to R460). -/

namespace Sys2Proof.Machine

/-- The run that an exchange key names on this device: it names the same binding and EXKEY in the bound partition (R458). -/
def State.exchangeRun (s : State) (b : Nat) (exkey : Word) : Option Run :=
  s.runs.find? fun r => r.ctx = (s.binding b).part && r.binds.contains (b, exkey)

/-- Whether a run takes what a device sends for an exchange buffer: it runs, its partition too, and the buffer is not complete
(R94, R458). -/
def State.exchangeOpen (s : State) (r : Run) (dev b mat : Nat) : Bool :=
  !r.paused && (s.part r.ctx.toNat).state = 1 && !(r.mat mat).complete
    && (s.binding b).en && dev < 8 && (s.binding b).devmask.getLsbD dev && dev ≠ s.pwr.devid.toNat && s.reaches dev
    && (s.planOf r).any fun pl => (pl.mats[mat]?).any fun x => x.kind = 3

/-- Rows that pass the check take their place in the run's exchange buffer as the segment of the sender's morsel (R458). -/
def State.placeExchange (s : State) (r : Run) (pl : Plan) (dev mat pipe m bucket : Nat) (rows : List Row) : State :=
  let seg := rows.zipIdx.map fun e => { e.1 with ix := origin m e.2 }
  (s.updRun r.id fun y => y.updMat mat fun z => { z with segs := put [] z.segs (exchangeKey bucket dev pipe m) seg }).makeRoom r.id mat pl

/-- EXCHANGE_ROWS (R16, R17, R458): rows under an old generation are discarded and counted on the partition their CTX names, whether
or not a run of the key is there; those of another partition are discarded and end the run of the key with 0x0601; without a run of the
key the device grants no credit, so none arrive. -/
def execExchangeRows (dev b : Nat) (exkey : Word) (ctx : BitVec 13) (gen : BitVec 16) (mat pipe m bucket : Nat) (rows : List Row)
    (s : State) : Out1 :=
  let s := s.hear dev
  let x := s.binding b
  let run := s.exchangeRun b exkey
  if 8 ≤ dev || dev = s.pwr.devid.toNat || !s.reaches dev || 256 ≤ pipe || 2 ^ 32 ≤ m then no "no device sends these rows"
  else if !x.en || !x.devmask.getLsbD dev || look 0 x.gens dev ≠ gen then .next (s.stale ctx.toNat)
  else if look 0 x.ctxs dev ≠ ctx then .next (match run with | some r => s.failRun r.id 0x0601 0 | none => s)
  else match run, run.bind s.planOf with
    | some r, some pl =>
      if s.exchangeOpen r dev b mat then s.unlessHeld (s.placeExchange r pl dev mat pipe m bucket rows) else no "the run grants no credit"
    | _, _ => no "no run of the key grants credit"

/-- EXCHANGE_END_MARKER (R89, R458). -/
def execExchangeEndMarker (dev b : Nat) (exkey : Word) (mat _pipe : Nat) (s : State) : Out1 :=
  let s := s.hear dev
  match s.exchangeRun b exkey with
  | none => no "no run of this exchange key takes the marker"
  | some r =>
    when_ (s.exchangeOpen r dev b mat) "no run of this exchange key takes the marker"
      (s.updRun r.id fun y => y.updMat mat fun z => { z with ends := z.ends ||| devBit dev })

/-- EXCHANGE_ABORT_MARKER (R460): the run of the key fails with 0x0410; without one nothing happens. -/
def execExchangeAbortMarker (dev b : Nat) (exkey : Word) (s : State) : Out1 :=
  let s := s.hear dev
  if !(dev < 8 && (s.binding b).en && (s.binding b).devmask.getLsbD dev) then no "the device is not of the binding"
  else
    match s.exchangeRun b exkey with
    | none => .next s
    | some r => .next (s.failRun r.id 0x0410 0)

end Sys2Proof.Machine
end

