-- ==== Sys2Proof/Machine/KernelEntry.lean ====
section
/-! DEFINITION. Machine/KernelEntry.lean: the start of a kernel on a tile's column processors (R200 to R202, R205), its end (R203),
HALT and an illegal instruction (R185). Where the areas lie in scratch is the model's choice (log entry 68). -/

namespace Sys2Proof.Machine

/-! ## The layout of a kernel's scratch (R202; log entry 68) -/

/-- An operand of a kernel: its type, its values by row, whether one value applies to every row. -/
structure KArg where
  ty : Ty
  vals : List Val
  broadcast : Bool

/-- An operand's column for a batch; none where the operand is absent. -/
def OpEnv.kernelArg (v : OpEnv) (k : Nat) (w : OpWord) (x : Nat) (rows : List Row) : Dec (Option KArg) :=
  if omode x = 15 || omode x = 4 then .ok none
  else
    (v.operand w x).map fun f =>
      let fixed := omode x = 1 || omode x = 2
      some { ty := v.ty k w x, vals := if fixed then [f { ix := 0, vals := [] }] else rows.map f, broadcast := fixed }

/-- The CP's rows of a batch of n: the first and the count (R200). -/
def cpRange (n c : Nat) : Nat × Nat := let q := 64 * ceilDiv n 256; (min (c * q) n, min ((c + 1) * q) n - min (c * q) n)

/-- Bytes of an area, on a 64-byte boundary. -/
def area (n : Nat) : Nat := roundUp n 64

/-- The values of a range of an operand. -/
def KArg.range (a : KArg) (first n : Nat) : List Val := if a.broadcast then a.vals else (a.vals.drop first).take n

/-- The bytes of a column range: data, validity bitmap, offsets (R202). -/
def rangeBytes (t : Ty) (vs : List Val) : List Byte × List Byte × List Byte :=
  (vs.flatMap (valBytes t.1 t.2), arrowValidity vs, if t.1 = 0x10 then arrowOffsets vs else [])

/-- A column descriptor (R202). -/
def descriptor (data valid offs rows : Nat) (t : Ty) (broadcast : Bool) (cap : Nat) : List Byte :=
  natLE 4 data ++ natLE 4 valid ++ natLE 4 offs ++ natLE 4 rows ++ natLE 1 t.1 ++ natLE 1 t.2 ++ natLE 2 (b2n broadcast) ++ natLE 4 cap ++ natLE 8 0

/-- An input column laid from address o on: where the next area starts, what is written, and the range's descriptor. -/
def layArg (a : Option KArg) (first n o : Nat) : Nat × List (Nat × List Byte) × List Byte :=
  match a with
  | none => (o, [], List.replicate 32 0)
  | some x =>
    let vs := x.range first n
    let b := rangeBytes x.ty vs
    let valid := o + area b.1.length
    let offs := valid + area b.2.1.length
    (offs + area b.2.2.length, [(o, b.1), (valid, b.2.1), (offs, b.2.2)],
      descriptor o valid (if x.ty.1 = 0x10 then offs else 0) vs.length x.ty x.broadcast 0)

/-- A CP's part of a kernel's scratch. -/
structure CpLay where
  first : Nat
  rows : Nat
  /-- What is written at entry. -/
  fill : List (Nat × List Byte)
  sel : Nat
  /-- DST: data, validity, offsets, CAP; the descriptors' address; the end of the areas. -/
  data : Nat
  valid : Nat
  offs : Nat
  cap : Nat
  desc : Nat
  stop : Nat
  /-- The column areas and the SEL bitmap, each with its length (R194). -/
  areas : List (Nat × Nat)

/-- The areas of CP c laid from address o on; cap is the room of a VARBYTES DST. -/
def layCp (a b : Option KArg) (dst : Option Ty) (rows : List Row) (cap c o : Nat) : CpLay :=
  let r := cpRange rows.length c
  let sel := o + 128
  let bits := natLE (ceilDiv r.2 8) (((rows.drop r.1).take r.2).foldr (fun x n => b2n (rowAct x) + 2 * n) 0)
  let la := layArg a r.1 r.2 (sel + area bits.length)
  let lb := layArg b r.1 r.2 la.1
  let data := lb.1
  let len := match dst with | some t => if t.1 = 0x10 then cap else r.2 * tyWidth t.1 t.2 | none => 0
  let valid := data + area len
  let vlen := if dst.isSome then ceilDiv r.2 8 else 0
  let offs := valid + area vlen
  let olen := match dst with | some t => if t.1 = 0x10 then 4 * (r.2 + 1) else 0 | none => 0
  let dd := match dst with
    | some t => descriptor data valid (if t.1 = 0x10 then offs else 0) r.2 t false (if t.1 = 0x10 then cap else 0)
    | none => List.replicate 32 0
  { first := r.1, rows := r.2, fill := [(o, la.2.2 ++ lb.2.2 ++ dd), (sel, bits), (valid, List.replicate vlen 0)] ++ la.2.1 ++ lb.2.1
    sel := sel, data := data, valid := valid, offs := offs, cap := cap, desc := o, stop := offs + area olen
    areas := [(sel, bits.length), (data, len), (valid, vlen), (offs, olen)] ++ (la.2.1 ++ lb.2.1).map fun e => (e.1, e.2.length) }

/-- The four CPs' parts, one after another. -/
def layCps (a b : Option KArg) (dst : Option Ty) (rows : List Row) (cap : Nat) : List CpLay :=
  (List.range 4).foldl (fun (l : List CpLay) c => l ++ [layCp a b dst rows cap c ((l.getLast?.map (·.stop)).getD 0)]) []

/-- The room of each CP's VARBYTES DST: a quarter of what the areas without it leave of the scratch allocation. -/
def varCap (a b : Option KArg) (dst : Option Ty) (rows : List Row) (room : Nat) : Nat :=
  match dst with
  | some t =>
    if t.1 = 0x10 then
      let used := ((layCps a b dst rows 0).getLast?.map (·.stop)).getD 0
      (room - used) / 4 / 64 * 64
    else 0
  | none => 0

/-! ## Start (R200, R201) -/

/-- The registers of CP c at kernel entry (R201), and what the kernel run gives it: its descriptors, the areas of every CP, its own private area (R194). base counts the morsel's rows in the
batches before. -/
def enterCp (base : Nat) (c : Cp) (v : OpEnv) (w : OpWord) (kr : KernelRec) (hasB : Bool) (dst : Option Ty) (ls : List CpLay) (l : CpLay)
    (priv privLen scratch : Nat) : Cp :=
  let regs : List Nat := [l.desc, if hasB then l.desc + 32 else 0, if dst.isSome then l.desc + 64 else 0, l.sel,
    if w.op = 5 then w.imm else 0, v.pl.arith, v.m, base + l.first, l.rows, priv, privLen, poolBase]
  let selLen := ceilDiv l.rows 8
  let isVar : Bool := match dst with | some t => t.1 = 0x10 | none => false
  let width := match dst with | some t => if t.1 = 0x10 then l.cap else l.rows * tyWidth t.1 t.2 | none => 0
  let writes := if dst.isSome then [(l.data, width), (l.valid, ceilDiv l.rows 8)] ++ (if isVar then [(l.offs, 4 * (l.rows + 1))] else [])
    else [(l.sel, selLen)]
  { c with
    g := regs.zipIdx.foldl (fun (m : SMap DWord) e => put 0 m (e.2 + 1) (BitVec.ofNat 64 e.1)) []
    v := [], p := [], pc := BitVec.ofNat 16 kr.entry, vl := 0, sew := 0, grp := 0, rix := 0, kstat := 0, run := true, halted := false
    staging := none, cache := []
    env := { codeLen := kr.len, code := kr.code, scratch := scratch, readable := (l.desc, 96) :: ls.flatMap (·.areas) ++ [(priv, privLen)]
             writable := writes ++ [(priv, privLen)], pool := v.pl.pool, wdog := kr.flags % 65536 } }

/-- A kernel's op word, its record, DST and operands on a batch. -/
def OpEnv.kernelOf (v : OpEnv) (k : Nat) : Option (OpWord × KernelRec × Option Ty) :=
  match (v.pl.words v.pipe)[k]? with
  | none => none
  | some w => (v.pl.kernels[oix w.c]?).map fun kr => (w, kr, if omode w.dst = 0 then some (w.ty, w.attr) else none)

/-- A kernel that does not fit fails at entry with 0x0469 (R205), on the lowest CP, whose fault registers hold it (R204, R219). -/
def State.entryFails (s : State) (t k opIx entry : Nat) : State :=
  let s1 := s.setCp t 0 { s.cpOf t 0 with pc := BitVec.ofNat 16 entry, rix := 0 }
  let stub : KernelRun := { flight := k, opIx := opIx, rows := [], later := [], done := [], ranges := [], sel := [] }
  (s1.updTile t fun x => { x with kernel := some stub }).kernelFail { tile := t, cp := 0 } 0x0469 0

/-- A kernel starts on tile t for flight k on a batch of rows; with too little scratch it fails at entry with 0x0469 (R205). -/
def State.enterKernel (s : State) (t k opIx : Nat) (v : OpEnv) (rows done : List Row) (later : List (List Row)) : State :=
  match v.kernelOf opIx with
  | none => s
  | some (w, kr, dst) =>
    match v.kernelArg opIx w w.a rows, v.kernelArg opIx w w.b rows with
    | .ok a, .ok b =>
      let room := ((v.pl.pipes[v.pipe]?).map (·.scratchKib)).getD 0 * 1024
      let privLen := bits kr.flags 23 16 * 1024
      let cap := varCap a b dst rows (room - 4 * privLen)
      let ls := layCps a b dst rows cap
      let columns := (ls.getLast?.map (·.stop)).getD 0
      let priv := roundUp columns 128
      if room < priv + 4 * privLen then s.entryFails t k opIx kr.entry
      else
        let x := s.tile t
        let filled := ls.foldl (fun (y : Tile) l => l.fill.foldl (fun (z : Tile) f => z.store f.1 f.2) y) x
        let run : KernelRun := { flight := k, opIx := opIx, rows := rows, later := later, done := done
                                 ranges := ls.map fun l => (l.first, l.rows, l.data, l.valid, l.offs, l.cap), sel := ls.map (·.sel) }
        let s1 := s.setTile t { filled with kernel := some run, staged := [], ranges := [] }
        ls.zipIdx.foldl (fun (y : State) e =>
          y.setCp t e.2 (enterCp done.length (y.cpOf t e.2) v w kr b.isSome dst ls e.1 (priv + e.2 * privLen) privLen room)) s1
    | .error e, _ => s.failRun v.r.id e 0
    | _, .error e => s.failRun v.r.id e 0

/-- Rows in batches of at most 65,536; at least one batch (R130). -/
def batches : Nat → List Row → List (List Row)
  | 0, rows => [rows]
  | n + 1, rows => if rows.length ≤ 65536 then [rows] else rows.take 65536 :: batches n (rows.drop 65536)

/-- The oldest flight of tile t that waits for a kernel starts it, where the CPs are free. -/
def State.startKernel (s : State) (t : Nat) : State :=
  let x := s.tile t
  if x.kernel.isSome then s
  else
    match x.flights.zipIdx.findSome? fun e => match e.1.work with | .kernel i ev => some (e.2, e.1, i, ev) | _ => none with
    | none => s
    | some (k, f, i, ev) =>
      match s.run? f.run with
      | none => s
      | some r =>
        match s.planOf r with
        | none => s
        | some pl =>
          let bs := batches ev.rows.length ev.rows
          s.enterKernel t k i (s.envOf r pl f.pipe f.m) (bs.headD []) [] bs.tail

/-! ## End (R203) -/

/-- The value a kernel wrote (R203; log entry 68): BOOL by bit 0, DEC128 as it stands. -/
def kernelVal (t : Ty) (bs : List Byte) : Val :=
  if t.1 = 1 then .bool (leNat bs % 2 = 1)
  else if t.1 = 0x0C then .int (BitVec.ofNat 128 (leNat bs)).toInt
  else (valOf t.1 bs).getD .null

/-- Whether a VARBYTES range's offsets keep R203: from 0, not falling, at most CAP. -/
def varOk (t : Tile) (offs n cap : Nat) : Bool :=
  let o := fun i => leNat (memRead t.scratch (offs + 4 * i) 4)
  o 0 = 0 && (List.range n).all (fun i => o i ≤ o (i + 1)) && o n ≤ cap

/-- The DST values of a CP's range, null where not valid. -/
def rangeVals (t : Tile) (ty : Ty) (e : Nat × Nat × Nat × Nat × Nat × Nat) : List Val :=
  let (_, n, data, valid, offs, _) := e
  (List.range n).map fun i =>
    if packedField (memRead t.scratch valid (ceilDiv n 8)) 1 i = 0 then .null
    else if ty.1 = 0x10 then
      let lo := leNat (memRead t.scratch (offs + 4 * i) 4)
      .bytes (memRead t.scratch (data + lo) (leNat (memRead t.scratch (offs + 4 * i + 4) 4) - lo))
    else kernelVal ty (memRead t.scratch (data + i * tyWidth ty.1 ty.2) (tyWidth ty.1 ty.2))

/-- The rows of a batch after its kernel (R203): DST written at active rows, or rows narrowed by the SEL bitmaps. -/
def kernelRows (t : Tile) (w : OpWord) (dst : Option Ty) (kr : KernelRun) : List Row :=
  match dst with
  | some ty =>
    let vs := kr.ranges.flatMap (rangeVals t ty)
    (kr.rows.zip vs).map fun e => rowPut e.1 (oix w.dst) (if rowAct e.1 then e.2 else .null)
  | none =>
    let sel : List Bool := (kr.ranges.zip kr.sel).flatMap fun e =>
      (List.range e.1.2.1).map fun i => packedField (memRead t.scratch e.2 (ceilDiv e.1.2.1 8)) 1 i = 1
    (kr.rows.zip sel).map fun e => if e.2 then e.1 else rowPut e.1 actAt (.bool false)

/-- Flight k of tile t goes on with a work, its bank-searches counted, for each tile of a pair (R86, R131, R245), and its free values taken. -/
def State.setWork (s : State) (t k : Nat) (w : Work) : State :=
  let e : Work × Nat × Nat := match w with
    | .rows e => (.rows { e with searches := 0 }, e.searches, e.rows.length)
    | .kernel i e => (.kernel i { e with searches := 0 }, e.searches, e.rows.length)
    | .fails st r0 n => (.fails st r0 0, n, 0)
  let tiles := if ((s.tile t).flights[k]?).any (·.partner.isSome) then 2 else 1
  let s1 := s.countSearches (tiles * e.2.1)
  { s1 with freeCtr := s1.freeCtr + e.2.2 }.updTile t fun x =>
    { x with flights := match x.flights[k]? with | some f => setNth x.flights k { f with work := e.1 } | none => x.flights }

/-- The kernel of tile t has ended: caches cleaned, ranges checked and joined; the next batch, or the op words after it (R203). -/
def State.endKernel (s : State) (t : Nat) : State :=
  let s0 := (List.range 4).foldl (fun (y : State) c =>
    let f := flushCache (y.cpOf t c) (y.tile t)
    (y.setCp t c { f.1 with run := false, staging := none }).setTile t f.2) s
  match (s0.tile t).kernel with
  | none => s0
  | some kr =>
    match (s0.tile t).flights[kr.flight]? with
    | none => s0.stopKernel t
    | some f =>
      match s0.run? f.run with
      | none => s0.stopKernel t
      | some r =>
        match s0.planOf r with
        | none => s0.stopKernel t
        | some pl =>
          let v := s0.envOf r pl f.pipe f.m
          match v.kernelOf kr.opIx with
          | none => s0.stopKernel t
          | some (w, _, dst) =>
            let isVar := dst.any fun ty => ty.1 = 0x10
            match kr.ranges.findIdx? fun e => isVar && !varOk (s0.tile t) e.2.2.2.2.1 e.2.1 e.2.2.2.2.2 with
            | some c => s0.kernelFail { tile := t, cp := c } 0x0467 0
            | none =>
              let rows := kr.done ++ kernelRows (s0.tile t) w dst kr
              match kr.later with
              | b :: rest => s0.enterKernel t kr.flight kr.opIx v b rows rest
              | [] =>
                match f.work with
                | .kernel _ ev =>
                  let sp := pl.span r f.pipe f.m
                  let errs := ev.errs.filter fun x => omode w.dst ≠ 0 || x.1 ≠ oix w.dst
                  let next := v.run sp.1 sp.2 (pl.words f.pipe).length (kr.opIx + 1) { ev with rows := rows, errs := errs }
                  let w' := v.finish next
                  (((s0.stopKernel t).setWork t kr.flight w').encodeJobs v w').startKernel t
                | _ => s0.stopKernel t

/-! ## HALT and illegal instructions -/

/-- HALT (R203): a busy range operation of the CP stalls it; the last CP's HALT ends the kernel. -/
def execHalt (u : CpAt) (s : State) : Out1 :=
  match cpRun s u fun c t => if rangeBusy u.cp t then .wait else .go { c with halted := true } t with
  | .next s1 =>
    .next (if (s1.tile u.tile).kernel.isSome && (List.range 4).all (fun c => (s1.cpOf u.tile c).halted) then s1.endKernel u.tile else s1)
  | o => o

/-- ILLEGAL_INSTRUCTION (R185): an instruction that is defined nowhere, or has a reserved field that is not zero, fails the
kernel with 0x0460. -/
def execIllegalInstruction (u : CpAt) (w : Word) (s : State) : Out1 :=
  if (cpDecode u w).isSome then no "the instruction is defined" else cpRun s u fun c t => .fail 0x0460 0 c t

end Sys2Proof.Machine
end

