-- ==== Sys2Proof/Machine/Metering.lean ====
section
/-! DEFINITION. Machine/Metering.lean: the millisecond and Calends boundaries, meter records and batches, the meter ring
(R415 to R419). -/

namespace Sys2Proof.Machine

/-- The counts of a millisecond boundary for partition p (R415): PAGE_MS and BANK_MS. -/
def State.countMs (s : State) (p : Nat) : State := (s.meter p 2 (s.pagesUsed p)).meter p 6 (s.banksOf p).length

/-- The partitions with a record or a bank. -/
def State.metered (s : State) : List Nat :=
  sortNat ((s.parts.map (·.1) ++ ((List.range 32).map fun b => (tri (s.bank b).owner).toNat).filter (· < 4096)).eraseDups)

/-- The counts of a millisecond boundary (R415). -/
def State.msCounts (s : State) : State := s.metered.foldl (fun (x : State) p => x.countMs p) s

/-- The millisecond boundaries up to number n that have not been counted (R415). -/
def State.countTo (s : State) (n : Nat) : State :=
  (List.range (n - s.clk.msDone)).foldl (fun (x : State) _ => x.msCounts) { s with clk := { s.clk with msDone := max n s.clk.msDone } }

/-- MILLISECOND_BOUNDARY (R415): the Almanac has reached a multiple of 1,000,000. -/
def execMillisecondBoundary (s : State) : Out1 :=
  when_ (s.clk.msDone < s.alm / 1000000) "the Almanac has reached no further millisecond" (s.countTo (s.clk.msDone + 1))

/-- A record put in its place by ascending PART (R419). -/
def insertRec (r : MeterRec) : List MeterRec → List MeterRec
  | [] => [r]
  | x :: l => if r.part ≤ x.part then r :: x :: l else x :: insertRec r l

/-- The batch of the Calends at Almanac `now` (R417 to R419); with 16 held none is formed, and the next is MERGED. -/
def State.formBatch (s : State) (now : DWord) : State :=
  if s.trust.batches.length = 16 then { s with trust := { s.trust with merged := true } }
  else
    let ps := s.parts.filterMap fun e => if e.2.wasOn then some e.1 else none
    let b : Batch :=
      { seq := s.trust.batchSeq, calends := now, bootId := s.trust.bootId, ptpOfs := if s.netp then s.net.ptpOfs else 0
        recs := (ps.map fun p => s.dueRec p now s.trust.merged).foldr insertRec []
          |> fun l => s.trust.carried.foldr insertRec l }
    let s1 := ps.foldl (fun (x : State) p => x.updPart p fun y => y.afterRec now) s
    { s1 with trust := { s1.trust with
        batches := s1.trust.batches ++ [b], batchSeq := s1.trust.batchSeq + 1, merged := false, carried := [] } }

/-- CALENDS (R417): the Almanac has reached the next multiple of 60,000,000,000, which is a millisecond boundary too; every count of that
TCLK belongs to the interval that ends there. -/
def execCalends (s : State) : Out1 :=
  let n := s.clk.calDone + 1
  let edge := 60000000000 * n
  when_ (edge ≤ s.alm) "the Almanac has reached no further Calends"
    ((List.range 18).foldl (fun (x : State) t => x.countTile t edge)
      ({ s with clk := { s.clk with calDone := n } }.countTo (60000 * n)) |>.formBatch (BitVec.ofNat 64 edge))

/-- The 128 bytes of a record (R416). -/
def recBytes (r : MeterRec) : List Byte :=
  natLE 2 r.part ++ natLE 2 r.gen.toNat ++ natLE 2 r.flags.toNat ++ natLE 2 r.tiles.toNat ++ natLE 8 r.tag.toNat
    ++ natLE 8 r.almStart.toNat ++ natLE 8 r.almEnd.toNat ++ r.counts.flatMap (natLE 8) ++ natLE 4 r.pages ++ natLE 4 0
    ++ natLE 8 r.recSeq ++ natLE 24 0

/-- An ML-DSA-65 signature under the identity key (R419, R500, R504). -/
def signature (k : Nat) (ctx : String) (m : List Byte) : List Byte :=
  (List.range 3309).map (Config.signatureByte identitySeed k (ctxBytes ctx) m)

/-- The header and records of a batch (R419). -/
def batchBody (b : Batch) : List Byte :=
  natLE 4 0x424D5A44 ++ natLE 2 1 ++ natLE 2 b.recs.length ++ natLE 8 b.seq ++ natLE 8 b.calends.toNat ++ natLE 16 b.bootId.toNat
    ++ natLE 8 b.ptpOfs.toNat ++ deviceId ++ b.recs.flatMap recBytes

/-- The 1 MiB of a batch's slot: body, signature, and the rest undefined (R419). -/
def batchSlot (b : Batch) (k : Nat) : List Byte :=
  let body := batchBody b
  let n := body.length + 3309
  body ++ signature k "DZMB" (shake256 64 body) ++ (List.range (0x100000 - n)).map (Config.freeByte k)

/-- METER_BATCH_WRITE (R418): the oldest batch held is written, P advances, source 78 is raised. -/
def execMeterBatchWrite (s : State) : Out1 :=
  let t := s.trust
  match t.batches with
  | [] => no "no batch is held"
  | b :: rest =>
    if t.mtrEn && (t.mtrP - t.mtrC).toNat ≠ 2 ^ t.mtrLog.toNat && s.canSend 0 then
      let a := t.mtrBase.toNat + t.mtrP.toNat % 2 ^ t.mtrLog.toNat * 0x100000
      let s1 := s.hostWrite 0 a (batchSlot b s.freeCtr)
      .next ({ s1 with freeCtr := s1.freeCtr + 1, trust := { t with batches := rest, mtrP := t.mtrP + 1 } }.raise 78)
    else no "the meter ring takes no batch"

/-- A write of TRUST_MTR_C (R361, R418). -/
def State.writeMtrC (s : State) (v : Word) : State :=
  if (v - s.trust.mtrC).toNat ≤ (s.trust.mtrP - s.trust.mtrC).toNat then { s with trust := { s.trust with mtrC := v } } else s

/-- TRUST_MTR_C_WRITE (R418). -/
def execTrustMtrCWrite (r : Req) (v : Word) (s : State) : Out1 := busRow s r 0x50810 v (s.writeMtrC v)

end Sys2Proof.Machine
end

