-- ==== Sys2Proof/Machine/Morsels.lean ====
section
/-! DEFINITION. Machine/Morsels.lean: the tile sequencer: which morsel a tile claims (R84, R85, R403, R404), what it reads and
computes (R118, R119, R130), Equinox pairs (R86, R479, R480), the end of a morsel (R82, R83, R87), the cancel and the timeout of a run (R94, R370), NOCLAIM (R100). -/

namespace Sys2Proof.Machine

/-! ## The rows a morsel reads (R81, R117 to R120, R140) -/

/-- The row after the last that a morsel reads: the overlap a SPECTRAL needs included (R140). -/
def Plan.readTo (pl : Plan) (r : Run) (i hi : Nat) : Nat :=
  let n := ((pl.words i).filter (·.op = 0x14)).foldl (fun n w => max n (2 ^ (w.imm % 32))) 1
  min (hi + n - 1) (r.pipe i).total

/-- Rows with one more column from slot k on. -/
def putColumn (rows : List Row) (k : Nat) (vs : List Val) : List Row := (rows.zip vs).map fun e => rowPut e.1 k e.2

/-- One SCAN of a parameter: a column-format failure waits for the op word that decodes the slot (R117, R121; log entry 63). -/
def OpEnv.scanColumn (v : OpEnv) (k : Nat) (w : OpWord) (lo hi : Nat) (e : Eval) : Step Eval :=
  match v.refAt w.a with
  | none => .ok e
  | some g =>
    match sourceValues (v.s.reader v.r.ctx.toNat g) w.flags w.ty w.attr g.addr g.len lo hi with
    | .ok vs => .ok { e with rows := putColumn e.rows (oix w.dst) vs }
    | .error st => if 0x440 ≤ st && st < 0x460 then .ok { e with errs := e.errs ++ [(oix w.dst, st)] } else .error (failAt v.pipe k st)

/-- One source word brings in its columns of rows lo to hi - 1: a parameter one column, a materialisation all its columns (R70). -/
def OpEnv.loadSource (v : OpEnv) (k : Nat) (w : OpWord) (lo hi : Nat) (e : Eval) : Step Eval :=
  if omode w.a = 3 then
    let rows := ((v.pl.delivered w.op (oix w.a) (v.r.mat (oix w.a))).drop lo).take (hi - lo)
    .ok { e with rows := (e.rows.zip rows).map fun x => rowPuts x.1 (oix w.dst) x.2.vals }
  else v.scanColumn k w lo hi e

/-- The rows lo to hi - 1 as the sources bring them in. -/
def OpEnv.load (v : OpEnv) (lo hi : Nat) : Step Eval :=
  let start : Eval := { rows := (List.range (hi - lo)).map freshRow, errs := [], win := [], lims := [], marks := [], searches := 0 }
  (v.pl.sources v.pipe).zipIdx.foldl (fun (acc : Step Eval) w => acc.bind fun e => v.loadSource w.2 w.1 lo hi e) (.ok start)

/-- What a morsel computes up to its sink or its first kernel. -/
def OpEnv.work (v : OpEnv) : Work :=
  let sp := v.pl.span v.r v.pipe v.m
  match v.load sp.1 (v.pl.readTo v.r v.pipe sp.2) with
  | .error x => .fails (BitVec.ofNat 16 x.1) (BitVec.ofNat 32 x.2) 0
  | .ok e => v.finish (v.run sp.1 sp.2 ((v.pl.words v.pipe).length + 1) (v.pl.sources v.pipe).length e)

/-- The reads of volumes a morsel makes: op index, volume, bytes, blocks. -/
def OpEnv.volumeReads (v : OpEnv) : List (Nat × Nat × Nat × List Nat) :=
  let sp := v.pl.span v.r v.pipe v.m
  (v.pl.sources v.pipe).zipIdx.filterMap fun w =>
    match v.refAt w.1.a with
    | none => none
    | some g =>
      if g.kind ≠ 1 then none
      else
        let rs := sourceRanges (v.s.reader v.r.ctx.toNat g) w.1.flags w.1.ty w.1.attr g.addr g.len sp.1 (v.pl.readTo v.r v.pipe sp.2)
        some (w.2, g.volume, rs.foldl (fun n e => n + e.2) 0, blocksOfRanges rs)

/-- The decode jobs of a morsel: one for each DEFL data part and GZIP page it reads (R246, R259). -/
def OpEnv.decodeJobs (v : OpEnv) : Nat :=
  let sp := v.pl.span v.r v.pipe v.m
  (v.pl.sources v.pipe).foldl (fun n w =>
    if omode w.a = 3 then n
    else match v.refAt w.a with
      | some g => n + sourceStreams (v.s.reader v.r.ctx.toNat g) w.flags g.addr g.len sp.1 (v.pl.readTo v.r v.pipe sp.2)
      | none => n) 0

/-- Whether a morsel of this pipeline needs the host: a source or an EMIT in host memory (R365). -/
def OpEnv.needsHost (v : OpEnv) : Bool :=
  (v.pl.sources v.pipe).any (fun w => (v.refAt w.a).any fun g => g.kind = 0) || (v.pl.sink v.pipe).any (·.op = 0x10)

/-! ## Which morsel (R84, R85, R403, R404) -/

/-- Whether any morsel of a pipeline is in flight. -/
def State.flying (s : State) (rid i : Nat) : Bool := s.tiles.any fun e => e.2.flights.any fun f => f.run = rid && f.pipe = i

/-- The logical tile that serves a SINGLE pipeline (R84). -/
def State.serverOf (s : State) (r : Run) (i : Nat) : Option Nat :=
  match (r.pipe i).server with
  | some l => if s.inShare r.ctx.toNat l || s.flying r.id i then some l else (s.share r.ctx.toNat).head?
  | none => (s.share r.ctx.toNat).head?

/-- Whether a pipeline has a morsel that logical tile l may claim (R84, R88, R137). -/
def State.runnable (s : State) (r : Run) (pl : Plan) (l i : Nat) : Bool :=
  let p := r.pipe i
  let v := s.envOf r pl i 0
  !r.paused && !p.done && !p.stopped && pl.depsDone r i && p.morsels.any (fun n => p.cursor < n || p.ledger.any fun e => e.2.reissued)
    && (!(pl.pipes[i]?).any (·.single) || s.serverOf r i = some l)
    && (!(pl.words i).any (·.op = 0x13) || !s.flying r.id i)
    && (!v.needsHost || s.canSend (fnOf r.ctx.toNat))

/-- The run and pipeline of partition q that logical tile l would serve: the oldest run with a runnable pipeline, its lowest one
(R84). -/
def State.pipeFor (s : State) (q l : Nat) : Option (Run × Nat) :=
  let found := s.runs.filterMap fun r =>
    if r.ctx.toNat ≠ q then none
    else match s.planOf r with
      | none => none
      | some pl => ((List.range pl.pipes.length).find? (s.runnable r pl l)).map fun i => (r, i)
  found.foldl (fun m e => match m with
    | none => some e
    | some x => if e.1.cmd < x.1.cmd then some e else some x) none

/-- The candidates of weighted_pick on logical tile l (R403). -/
def State.candsAt (s : State) (l : Nat) : List Nat :=
  (s.parts.filter fun e => e.2.state = 1 && !(e.2.slotIn (s.alm / 1000000)).1 && e.2.tiles.getLsbD l && e.2.weight ≠ 0 && (s.pipeFor e.1 l).isSome).map (·.1)

/-- The pass value of a partition on a logical tile. -/
def State.passOf (s : State) (q l : Nat) : Nat := look 0 s.pass (16 * q + l)

/-- A boundary of logical tile l: partitions that enter the candidates take the lowest pass value among them (R403). -/
def State.enterCands (s : State) (l : Nat) : State :=
  let now := s.candsAt l
  let old := (look [] s.cands l).filter now.contains
  let s1 := match old with
    | [] => s
    | x :: r =>
      let low := r.foldl (fun m q => min m (s.passOf q l)) (s.passOf x l)
      (now.filter fun q => !old.contains q).foldl (fun (y : State) q => { y with pass := upd 0 y.pass (16 * q + l) fun p => max p low }) s
  { s1 with cands := put [] s1.cands l now }

/-- The partition whose fixed slot is current on logical tile l (R404). -/
def State.slotPart (s : State) (l : Nat) : Option Nat :=
  (s.parts.find? fun e => e.2.state ≠ 0 && s.slotNow e.1 && e.2.tiles.getLsbD l).map (·.1)

/-- weighted_pick (R403). -/
def State.weightedPick (s : State) (l : Nat) : Option Nat :=
  match s.slotPart l with
  | some f => if (s.part f).state = 1 && (s.pipeFor f l).isSome then some f else none
  | none =>
    match look [] s.cands l with
    | [] => none
    | x :: r => some (r.foldl (fun m q => if s.passOf q l < s.passOf m l then q else m) x)

/-- Whether tile x may take a morsel of a pipeline beside what it holds (R85). -/
def Tile.admits (x : Tile) (pl : Plan) (rid i : Nat) : Bool :=
  match x.flights with
  | [] => true
  | [f] => f.run = rid && f.pipe = i && 2 * ((pl.pipes[i]?).map (·.scratchKib)).getD 0 ≤ 8192
  | _ => false

/-! ## Equinox (R86, R479, R480) -/

/-- Whether physical tile p is free to run beside tile t as its digest partner. -/
def State.partnerFree (s : State) (t p : Nat) : Bool :=
  let x := s.tile p
  let lent := s.tiles.any fun e => e.1 ≠ t && e.2.flights.any fun f => f.partner = some p
  p ≠ t && p < 18 && x.flights.isEmpty && !x.noclaim && !x.drain && !x.gated && !lent
    && (s.tile t).flights.all fun f => f.partner = none || f.partner = some p

/-- The digest partners tile t, serving logical tile l, may take in the share of partition q: another pair than the one that
disagreed, where the share allows it (R86). -/
def State.partnersIn (s : State) (t l q : Nat) (higher : Bool) (last : Option (Nat × Nat)) : List Nat :=
  let all := ((s.share q).filter fun k => (if higher then l < k else k ≠ l) && (s.slotPart k).all (· = q)).map s.physOf
  let free := all.filter (s.partnerFree t)
  if (s.share q).length ≤ 2 then free else free.filter fun p => last ≠ some (t, p) && last ≠ some (p, t)

/-- How a claim pairs. -/
inductive Pairing where
  /-- No claim is possible now. -/
  | waits
  /-- With a partner or alone. -/
  | takes (partner : Option Nat)
  /-- With a SPARE tile that the device borrows. -/
  | borrows (p : Nat)
  /-- Alone, as no tile is available (R479). -/
  | bare
  deriving DecidableEq, Repr

/-- The pair of a claim (R479): partition mode, a spare's first morsels, a morsel run again. A SPARE tile with NOCLAIM is not borrowed
(R100; log entry 154). -/
def State.pairing (s : State) (t l q : Nat) (e : Ledger) : Pairing :=
  let others := (s.share q).filter (· ≠ l)
  if (s.part q).eqx then
    match s.partnersIn t l q true e.pair with
    | p :: _ => .takes (some p)
    | [] => .waits
  else if look 0 s.vigil.eqxLeft t ≠ 0 then
    if !others.isEmpty then
      match s.partnersIn t l q false e.pair with
      | p :: _ => .takes (some p)
      | [] => .waits
    else
      match look none s.vigil.borrowed l with
      | some p => if s.partnerFree t p then .takes (some p) else .waits
      | none => match (List.range s.tilesPhys).find? fun p => s.isSpare p && !(s.tile p).noclaim with
        | some p => .borrows p
        | none => .bare
  else if e.reissued then .takes (s.partnersIn t l q false e.pair).head?
  else .takes none

/-- A tile takes partition q as its owner (R16, R402): the lines tagged q are its scratch, and those of the owner before it keep their
tag until q writes them. -/
def State.ownTile (s : State) (t q : Nat) : State :=
  s.updTile t fun x =>
    if x.ctx.toNat = q then x
    else { x with ctx := BitVec.ofNat 13 q, scratch := look [] x.foreign q, staged := []
                  foreign := put [] (put [] x.foreign x.ctx.toNat x.scratch) q [] }

/-- The pair's partner prepared: a borrowed tile leaves SPARE; without one VIGIL notes it (R479). -/
def State.preparePair (s : State) (t l q : Nat) : Pairing → State × Option Nat
  | .waits => (s, none)
  | .takes p => (match p with | some k => s.ownTile k q | none => s, p)
  | .borrows p =>
    let s1 := ({ s with vigil := { s.vigil with borrowed := put none s.vigil.borrowed l (some p) } }.setSpare p false)
    (s1.ownTile p q, some p)
  | .bare =>
    let s1 := s.record 3 q (0x10 + t) 0x10 t 0x40 0 false 0
    ({ s1 with vigil := { s1.vigil with eqxLeft := put 0 s1.vigil.eqxLeft t 0 } }, none)

/-- One more morsel has run on a tile: its mismatch watch and its paired morsels count down; the 64th returns a borrowed tile
(R479, R480). -/
def State.ranOn (s : State) (t : Nat) : State :=
  let n := look 0 s.vigil.eqxLeft t
  let s1 := { s with vigil := { s.vigil with eqxWatch := upd 0 s.vigil.eqxWatch t (· - 1), eqxLeft := put 0 s.vigil.eqxLeft t (n - 1) } }
  match s1.logOf t with
  | some l => if n = 1 then s1.returnBorrowed l else s1
  | none => s1

/-- A tile of a pair that disagreed: a corrected record; on the second mismatch within 1,024 morsels it leaves service (R480). -/
def State.mismatchAt (s : State) (t ctx : Nat) : State :=
  let s1 := s.record 0 ctx (0x10 + t) 0x0B t 1 0 false 0
  if look 0 s1.vigil.eqxWatch t ≠ 0 then
    ({ s1 with vigil := { s1.vigil with eqxWatch := put 0 s1.vigil.eqxWatch t 0 } }).tileOutOf t 3 0x10
  else { s1 with vigil := { s1.vigil with eqxWatch := put 0 s1.vigil.eqxWatch t 1024 } }

/-! ## The claim -/

/-- The morsel a pipeline gives next: the lowest re-issued one, else the cursor's (R84). -/
def PipeRun.next (p : PipeRun) : Nat := ((p.ledger.find? fun e => e.2.reissued).map (·.1)).getD p.cursor

/-- What a morsel's reads of volumes leave behind, and the parity mismatch they find (R24, R312 to R314). -/
def State.sourceEffects (s : State) (v : OpEnv) : State × Option (Nat × Nat × Nat) :=
  v.volumeReads.foldl (fun (p : State × Option (Nat × Nat × Nat)) e =>
    let bad := match s.scanFault e.2.1 e.2.2.2 with | some i => some (e.1, (s.vol e.2.1).array, i) | none => none
    (p.1.afterVolume v.r.ctx.toNat e.2.1 e.2.2.1 e.2.2.2, match p.2 with | some x => some x | none => bad)) (s, none)

/-- The vector instructions of a morsel's built-in functions: PROJECT's and SPECTRAL's code on the CPs (R126, R140, R415; log entry 166). -/
def OpEnv.builtins (v : OpEnv) : Nat :=
  let sp := v.pl.span v.r v.pipe v.m
  (v.pl.words v.pipe).foldl (fun n w =>
    if w.op = 0x14 || (w.op = 4 && w.flags ≠ 0x3F) then n + Config.builtinVector w.op w.flags (sp.2 - sp.1) else n) 0

/-- Tile t, serving logical tile l, claims morsel m of a pipeline (R82, R84, R402). -/
def State.claim (s : State) (t l : Nat) (r : Run) (pl : Plan) (i : Nat) (how : Pairing) : State :=
  let q := r.ctx.toNat
  let p := r.pipe i
  let m := p.next
  let token := (p.led m).token + 1
  let s1 := s.ownTile t q
  let s2 := s1.preparePair t l q how
  let s3 := s2.1.updRun r.id fun x => x.updPipe i fun y =>
    { y.updLed m (fun e => { e with state := 1, token := token, reissued := false }) with
      cursor := if m = y.cursor then y.cursor + 1 else y.cursor
      server := if (pl.pipes[i]?).any (·.single) then some l else y.server }
  let v := s.envOf r pl i m
  let eff := s3.sourceEffects v
  let w := match eff.2 with
    | some e => Work.fails 0x0580 (BitVec.ofNat 32 (failAt i e.1 0x0580).2) 0
    | none => v.work
  let s4 := match eff.2 with | some e => eff.1.scanRecord q e.2.1 e.2.2 | none => eff.1
  let f : Flight := { run := r.id, pipe := i, m := m, token := token, ctx := r.ctx, paired := s2.2.isSome, partner := s2.2
                      since := s.clk.alm, work := w }
  let k := (s4.tile t).flights.length
  let s5 := (s4.updTile t fun x => { x with flights := x.flights ++ [f] }).setWork t k w
  let s6 := (List.range v.decodeJobs).foldl (fun (x : State) _ => x.queueJob 0 (r.id, i, m) 0) s5
  ((s6.encodeJobs v w).meter q 1 v.builtins).startKernel t

/-- MORSEL_CLAIM on physical tile t (R84). -/
def execMorselClaim (t : Nat) (s : State) : Out1 :=
  match s.logOf t with
  | none => no "the tile serves no logical tile"
  | some l =>
    let x := s.tile t
    if 18 ≤ t || x.noclaim || x.drain || x.gated || !s.clk.locked || s.isPartner t then no "the tile claims nothing"
    else
      let s0 := s.enterCands l
      match (s0.weightedPick l).bind fun q => s0.pipeFor q l with
      | none => no "no morsel is runnable on this tile"
      | some (r, i) =>
        match s0.planOf r with
        | none => no "no morsel is runnable on this tile"
        | some pl =>
          let how := s0.pairing t l r.ctx.toNat ((r.pipe i).led (r.pipe i).next)
          if x.admits pl r.id i && how ≠ .waits then .next (s0.claim t l r pl i how) else no "the next morsel waits for those in flight"

/-! ## The end of a morsel (R82, R83, R86, R87) -/

/-- The sink's effect of a DONE morsel; under a LIMIT the rows wait for the cut (R87, R144; log entry 65). -/
def State.sinkEffect (s : State) (v : OpEnv) (w : OpWord) (e : Eval) : State :=
  let id := v.r.id
  let k := (v.pl.words v.pipe).length - 1
  let s1 := if w.op = 0x10 then s.emitSegment (fnOf v.r.ctx.toNat) (v.emitDesc w) (sinkTypes v.pl v.pipe k w) (sinkCols w) v.m e.active else s
  if w.op = 0x11 then s1
  else if !v.limits.isEmpty then s1.updRun id fun r => r.updPipe v.pipe fun p => { p with segs := put none p.segs v.m (some e.active) }
  else if w.op = 0x10 then s1
  else
    let s2 := s1.matSegment id v w v.m e.active
    if sinkKind w.op ≠ 0 then s2.makeRoom id (oix w.dst) v.pl else s2

/-- A morsel becomes DONE: its ledger entry with the checkpoint record's token, WINDOW state and matched rows (R82, R83, R128, R137). -/
def State.ledgerDone (s : State) (f : Flight) (e : Eval) : State :=
  s.updRun f.run fun r =>
    e.marks.foldl (fun (y : Run) (k : Nat × Nat) => y.updMat k.1 fun z => { z with marks := put false z.marks k.2 true })
      (r.updPipe f.pipe fun p =>
        { p.updLed f.m (fun l => { l with state := 2, passed := e.lims, pair := none, ckpt := some f.token }) with
          window := e.win.foldl (fun g x => put [] g x.1 x.2) p.window })

/-- A morsel of tile t abandoned in the SCLK of another's report frees its place (R82). -/
def State.dropGone (s : State) (t : Nat) : State :=
  match (s.tile t).flights.findIdx? (·.gone) with
  | some i => s.eraseFlight t i
  | none => s

/-- Flight k of tile t has left; the tile and its partner have run one more morsel. -/
def State.leave (s : State) (t k : Nat) (f : Flight) : State :=
  let s1 := ((s.dropFlight t k).dropGone t).ranOn t
  match f.partner with
  | some p => s1.ranOn p
  | none => s1

/-- The candidates of the tile's next boundary: those that still have work (R403). -/
def State.keepCands (s : State) (t : Nat) : State :=
  match s.logOf t with
  | some l => { s with cands := put [] s.cands l ((look [] s.cands l).filter (s.candsAt l).contains) }
  | none => s

/-- Result word 0 of a run that a trap ends: of the traps reported in one SCLK, the lowest pipeline and op index (R152; log entry 137). -/
def State.firstTrap (s : State) (f : Flight) (st : BitVec 16) (r0 : Word) : Word :=
  if st ≠ 0x040C then r0
  else s.pending.foldl (fun (m : Word) c => match c with
    | .morselComplete t k _ => match (s.tile t).flights[k]? with
      | some g => match g.work with
        | .fails x y _ => if g.run = f.run && x = st && y < m then y else m
        | _ => m
      | none => m
    | _ => m) r0

/-- A morsel that ends its run (R95). -/
def State.morselFails (s : State) (t : Nat) (f : Flight) (st : BitVec 16) (r0 : Word) : State :=
  ((s.failRun f.run st.toNat r0).keepCands t).startKernel t

/-- The digests of a pair differ: the morsel is abandoned, to run again on another pair (R86, R480). -/
def State.morselDiffers (s : State) (t k : Nat) (f : Flight) (p : Nat) : State :=
  let s1 := ((s.leave t k f).countAbn t (some p)).updRun f.run fun r => r.updPipe f.pipe fun y => y.updLed f.m fun e => { e with pair := some (t, p) }
  let s2 := s1.abandonLedger f
  (((s2.mismatchAt t f.ctx.toNat).mismatchAt p f.ctx.toNat).keepCands t).startKernel t

/-- A morsel's completion report (R82, R83). -/
def State.morselDone (s : State) (t k : Nat) (f : Flight) (v : OpEnv) (w : OpWord) (e : Eval) : State :=
  let s1 := (s.leave t k f).onPair t f.partner fun x => { x with doneCnt := x.doneCnt + 1 }
  let s2 := (s1.ledgerDone f e).sinkEffect v w e
  (((s2.settleRun f.run)).keepCands t).startKernel t

/-- A report with an earlier token, or of a morsel no longer CLAIMED: it and its checkpoint are discarded (R82). -/
def State.morselStale (s : State) (t k : Nat) (f : Flight) : State := ((s.leave t k f).keepCands t).startKernel t

/-- Whether a morsel in order has every earlier one DONE (R84). -/
def inOrder (p : PipeRun) (m : Nat) : Bool := (List.range m).all fun i => (p.led i).state = 2

/-- MORSEL_COMPLETE of flight k of tile t; agree tells whether an Equinox pair's digests match (R83, R86). -/
def execMorselComplete (t k : Nat) (agree : Bool) (s : State) : Out1 :=
  match (if (s.tile t).gated || !s.clk.locked then none else (s.tile t).flights[k]?) with
  | none => no "no such morsel is in flight"
  | some f =>
    match s.run? f.run with
    | none => no "the run has ended"
    | some r =>
      match s.planOf r with
      | none => no "the plan is not loaded"
      | some pl =>
        match pl.sink f.pipe with
        | none => no "no such pipeline"
        | some w =>
          let l := (r.pipe f.pipe).led f.m
          match f.work, f.partner with
          | .kernel _ _, _ => no "its kernel runs"
          | .fails st r0 _, _ =>
            if l.state ≠ 1 || l.token ≠ f.token then .next (s.morselStale t k f)
            else if !(s.jobsOf f.run f.pipe f.m).isEmpty then no "its compression jobs run"
            else .next (s.morselFails t f st (s.firstTrap f st r0))
          | .rows e, p =>
            if l.state ≠ 1 || l.token ≠ f.token then .next (s.morselStale t k f)
            else if !(s.jobsOf f.run f.pipe f.m).isEmpty then no "its compression jobs run"
            else if !agree then (match p with | some x => .next (s.morselDiffers t k f x) | none => no "the morsel runs alone")
            else if (pl.pipes[f.pipe]?).any (·.single) && !inOrder (r.pipe f.pipe) f.m then no "an earlier morsel is not DONE"
            else if w.op = 0x11 && !l.committed then no "the STORE segment is not committed"
            else if w.op = 0x10 && !s.canSend (fnOf f.ctx.toNat) then no "the sink waits for its function"
            else s.unlessHeld (s.morselDone t k f (s.envOf r pl f.pipe f.m) w e)

/-! ## Cancel and timeout (R94, R370) -/

/-- The number by which a command names an SQ of its context: the slot for a partition, the queue for PF0 (R344, R358). -/
def State.sqName (s : State) (x : Cmd) : Option Nat :=
  match x.origin with
  | .ring q => some (if x.ctx.toNat < 4096 then (tri (s.queue q).slot).toNat else q)
  | .net _ _ => none

/-- The state after an outcome; the state before where the row does not apply. -/
def settled (o : Out1) (s : State) : State := match o with | .next t => t | _ => s

/-- What the completion reports in the queue make of the state: no tick falls between them and the command that runs (R28, R94; log
entry 122). -/
def State.afterReports (s : State) : State :=
  s.pending.foldl (fun (x : State) c => match c with
    | .morselComplete t k a => settled (execMorselComplete t k a x) x
    | .materialisationComplete r m => settled (execMaterialisationComplete r m x) x
    | .storePlace r p => settled (execStorePlace r p x) x
    | _ => x) s

/-- Whether a run ends by the reports of the same SCLK. -/
def State.endsNow (s : State) (rid : Nat) : Bool := (s.afterReports.run? rid).isNone

/-- CANCEL_PLAN (R94): the RUN_PLAN ends with 0x040E; naming none that still runs, or one whose last report falls in the same
SCLK, 0x0204. -/
def execCancelPlan (id : Nat) (s : State) : Out1 := withCmd s id 0x04 "no CANCEL_PLAN with this id" fun c =>
  if !c.zeros [(12, 20)] then s.done id 0x0100
  else
    match s.hif.cmds.find? fun x => x.op = 0x03 && x.ctx = c.ctx && s.sqName x = some (c.f 8 2) && x.f 4 2 = c.f 10 2 with
    | none => s.done id 0x0204
    | some x =>
      match s.runs.find? fun r => r.cmd = x.id with
      | some r => if s.endsNow r.id then s.done id 0x0204 else (s.failRun r.id 0x040E 0).done id 0
      | none => (s.done x.id 0x040E).done id 0

/-- RUN_TIMEOUT (R94, R370): as a cancel, with 0x0800; the run's completion in the same TCLK wins (R28). -/
def execRunTimeout (id : Nat) (s : State) : Out1 :=
  match s.cmd? id with
  | none => no "no such command"
  | some c =>
    if c.op ≠ 0x03 || c.f 16 4 = 0 || !s.elapsed c.fetchedAt (1000 * c.f 16 4) then no "no RUN_PLAN's timeout has elapsed"
    else
      match s.runs.find? fun r => r.cmd = id with
      | some r => .next (if s.endsNow r.id then s else s.failRun r.id 0x0800 0)
      | none => .next (s.done id 0x0800)

/-! ## NOCLAIM (R100) -/

/-- A masked write of TILE_TSEQ_CTL of tile t (R40, R100). -/
def State.writeNoclaim (s : State) (t : Nat) (v : Word) : State :=
  if bit v.toNat 16 then s.updTile t fun x => { x with noclaim := bit v.toNat 0, faultClaim := false } else s

/-- NOCLAIM_WRITE (R100). -/
def execNoclaimWrite (r : Req) (t : Nat) (v : Word) (s : State) : Out1 :=
  if t < 18 then busRow s r (tileOfs t + 0x114) (v ||| 0x00010000) (s.writeNoclaim t (v ||| 0x00010000)) else no "no such tile"

/-! ## The thaw (R397, R413) -/

/-- A run is bound again: one whose check fails ends with 0x040B (R77, R413). -/
def State.rebind (s : State) (rid : Nat) : State :=
  match s.run? rid with
  | none => s
  | some r =>
    match s.planOf r with
    | none => s.failRun rid 0x040A 0
    | some pl =>
      let reason := ({ s with runs := s.runs.filter fun x => x.id ≠ rid }).bindReason r pl
      if reason ≠ 0 then s.failRun rid 0x040B (BitVec.ofNat 32 reason)
      else (s.updRun rid fun x => { x with paused := false }).settleRun rid

/-- PART_THAW (R397, R408, R421). -/
def execPartThaw (id : Nat) (s : State) : Out1 :=
  partCmd s id 0xAC "no PART_THAW with this id" [(10, 22)] (fun x => x.state = 3) (fun _ => true) fun _ p =>
    let rids := (s.runs.filter fun r => r.ctx.toNat = p).map (·.id)
    let s1 := rids.foldl State.rebind (s.updPart p fun x => { x with state := 1 })
    (s1.pvEvent p 0).done id 0

/-! ## Host reads that time out (R370) -/

/-- Whether a morsel of a run on some tile reads host memory (R73). -/
def State.runReadsHost (s : State) (r : Run) (pl : Plan) : Bool :=
  s.tiles.any fun e => e.2.flights.any fun f =>
    f.run = r.id && ((pl.sources f.pipe).any fun w => ((s.envOf r pl f.pipe f.m).refAt w.a).any fun g => g.kind = 0)

/-- Whether a read of host memory for a command's data may be outstanding (R370): before it starts, for a write that waits for its leaf or
its space, for a job of CMP, for a run with a morsel in flight. -/
def State.hostReadOpen (s : State) (c : Cmd) : Bool :=
  match c.phase with
  | .fetched => s.fenceOk c && c.readsHost
  | .waiting _ => c.op = 0x21
  | .running =>
    if c.op = 0x03 then (match s.runs.find? (·.cmd = c.id) with
      | some r => (s.planOf r).any (s.runReadsHost r)
      | none => false)
    else (c.op = 0x48 || c.op = 0x49) && c.readsHost
  | .checking => false

/-- The row by which a command's host data shows to have arrived (R28, R370). -/
def dataArrives (s : State) (c : Cmd) (i : Instr) : Bool :=
  match i with
  | .leafReadComplete id | .cmpJobComplete id => id = c.id
  | .morselComplete t _ _ => (s.tile t).flights.any fun f => (s.run? f.run).any (·.cmd = c.id)
  | _ => startsCmd i = some c.id

/-- HOST_READ_TIMEOUT (R28, R370, R373): 0x0801; a run ends with it. -/
def execHostReadTimeout (id : Nat) (s : State) : Out1 :=
  match s.cmd? id with
  | none => no "no such command"
  | some c =>
    timeout (s.hostReadOpen c && !s.hostWaits c && !(s.func (fnOf c.ctx.toNat)).ctoDisable
        && (match c.origin with | .ring _ => true | .net _ _ => false))
      (dataArrives s c) "the command has no host read outstanding" s
      (match s.runs.find? (·.cmd = id) with
       | some r => s.failRun r.id 0x0801 0
       | none => (s.forget id).done id 0x0801)

end Sys2Proof.Machine
end

