-- ==== Sys2Proof/Machine/Net.lean ====
section
/-! DEFINITION. Machine/Net.lean: the network ports and the NVMe/TCP target (R375 to R392). -/

namespace Sys2Proof.Machine

/-! ## Ports (R375 to R377, R391) -/

/-- The NVMe status of a data digest error (R386, R387): SCT, SC, DNR. -/
def digestStatus : Nat × Nat × Bool := (0, 0x22, false)

/-- Port p. -/
def State.port (s : State) (p : Nat) : NetPort := look {} s.net.ports p

/-- f applied to port p. -/
def State.updPort (s : State) (p : Nat) (f : NetPort → NetPort) : State :=
  { s with net := { s.net with ports := upd {} s.net.ports p f } }

/-- Whether port p of this device takes traffic: NET is present and not gated by the freeze, the link is up (R388). -/
def State.portOpen (s : State) (p : Nat) : Bool := s.netp && s.ungated && p < 2 && (s.port p).link

/-- Interface i of port p is enabled (R392). -/
def State.ifOn (s : State) (p i : Nat) : Bool := i < 8 && bit (look ({} : NetIf) s.net.ifs (8 * p + i)).ctl.toNat 31

/-- The lanes a MODE uses (R375). -/
def modeLanes (m : BitVec 2) : BitVec 4 := match m.toNat with | 1 => 15 | 2 => 3 | 3 => 1 | _ => 0

/-- NET_LINK_CHANGE (R391, R424). -/
def execNetLinkChange (port : Nat) (lanes : BitVec 4) (s : State) : Out1 :=
  let need := modeLanes (s.port port).mode
  let up := need ≠ 0 && lanes &&& need = need
  let s1 := s.updPort port fun x => { x with lanes := lanes &&& need, link := up }
  when_ (s.netp && port < 2 && s.ungated) "no such port" (if up = (s.port port).link then s1 else s1.raise 82)

/-- UNCORRECTABLE_FEC_CODEWORD (R391). -/
def execUncorrectableFecCodeword (port : Nat) (s : State) : Out1 :=
  when_ (s.netp && s.ungated && port < 2 && (s.port port).mode ≠ 0) "the port is off" (s.updPort port fun x => { x with uncorr := satInc x.uncorr })

/-- TCP_SEGMENT_CHECKSUM_ERROR (R377). -/
def execTcpSegmentChecksumError (port : Nat) (s : State) : Out1 :=
  when_ (s.portOpen port) "the port's link is down" (s.updPort port fun x => { x with badSegs := x.badSegs + 1 })

/-- ARP_REQUEST (R376). -/
def execArpRequest (port ifc : Nat) (s : State) : Out1 :=
  when_ (s.portOpen port && s.ifOn port ifc) "no enabled interface has this address" (s.emit (.arpReply port ifc))

/-! ## Timestamps (R389, R391) -/

/-- PTP_EVENT_MESSAGE (R389, R391): dropped where the FIFO is full. -/
def execPtpEventMessage (port : Nat) (tx : Bool) (msgType : BitVec 4) (seqId : BitVec 16) (s : State) : Out1 :=
  let e : NetTs := { port := port, tx := tx, msgType := msgType, seqId := seqId, ts := s.clk.alm }
  when_ (s.portOpen port && msgType.toNat < 4) "no event message crosses this port"
    (if s.net.fifo.length < 64 then { s with net := { s.net with fifo := s.net.fifo ++ [e] } } else s)

/-- A write of NET_TS_POP (R391). -/
def State.writeTsPop (s : State) (v : Word) : State :=
  if bit v.toNat 0 then { s with net := { s.net with fifo := s.net.fifo.drop 1 } } else s

/-- NET_TS_POP (R391). -/
def execNetTsPop (r : Req) (v : Word) (s : State) : Out1 :=
  busRow s r 0x35013C (v ||| 1) (s.writeTsPop (v ||| 1))

/-! ## Connections and their end (R381, R387) -/

/-- The commands of a connection. -/
def State.connCmds (s : State) (c : Nat) : List Cmd := s.hif.cmds.filter fun k => match k.origin with | .net n _ => n = c | .ring _ => false

/-- A connection's commands end: those wholly recorded run on, the others release what they reserved (R387). -/
def State.dropConn (s : State) (c : Nat) : State :=
  let gone := ((s.connCmds c).filter fun k => !s.awaitsAck k.id).map (·.id)
  let s1 := s.setCmds (s.hif.cmds.filter fun k => !gone.contains k.id)
  let s2 := { s1 with arc := { s1.arc with arrays := s1.arc.arrays.map fun (e : Nat × Arr) =>
    (e.1, { e.2 with reserved := e.2.reserved.filter fun r => !gone.contains r.1 }) } }
  ({ s2 with net := { s2.net with conns := put {} s2.net.conns c {} } }).settleExports

/-- The connections of a controller. -/
def State.connsOf (s : State) (cntl : Nat) : List Nat := (s.net.conns.filter fun e => e.2.state = 3 && e.2.cntl = cntl).map (·.1)

/-- A connection closes; the end of an admin queue ends its controller (R387). -/
def State.closeConn (s : State) (c : Nat) : State :=
  let x := s.conn c
  if x.state = 3 && x.qid = 0 then
    let s1 := ((s.connsOf x.cntl).filter (· ≠ c)).foldl (fun (y : State) k => (y.dropConn k).emit (.tcpClose k)) (s.dropConn c)
    { s1 with net := { s1.net with ctrls := put {} s1.net.ctrls x.cntl {} } }
  else s.dropConn c

/-- A fatal transport error: C2HTermReq with its FES, and the connection closes (R387). -/
def State.fatal (s : State) (c fes : Nat) : State := ((s.netBytes c 24).emit (.c2hTermReq c fes)).closeConn c |>.emit (.tcpClose c)

/-- Whether a PDU can arrive on connection c; reading stops while its partition is frozen (R388), and where a device reset is required
(R484). -/
def State.pduCan (s : State) (c : Nat) : Bool :=
  let x := s.conn c
  x.state ≠ 0 && s.portOpen x.port && !s.vigil.resetReq && (x.state ≠ 3 || (s.part x.part).state = 1)

/-- TCP_RST_OR_FIN (R387). -/
def execTcpRstOrFin (c : Nat) (s : State) : Out1 := when_ ((s.conn c).state ≠ 0) "no such connection" (s.closeConn c)

/-- H2CTERMREQ (R387). -/
def execH2ctermreq (c : Nat) (s : State) : Out1 :=
  when_ (s.pduCan c) "no PDU arrives on this connection" ((s.netBytes c 24).closeConn c |>.emit (.tcpClose c))

/-- The FES of a PDU that is fatal by itself (R387): a type that is not listed or comes the wrong way is an invalid header field. -/
def pduFes : BadPdu → Nat
  | .type _ => 0x01
  | .field => 0x01
  | .headerDigest => 0x03

/-- UNSUPPORTED_PDU (R382, R387; log entry 172): a PDU of any kind that is fatal by its type, a field of its header or its header digest. -/
def execUnsupportedPdu (c : Nat) (bad : BadPdu) (s : State) : Out1 :=
  let can := match bad with
    | .type n => !([0, 2, 4, 6]).contains n
    | .field => true
    | .headerDigest => (s.conn c).hdgst
  when_ (s.pduCan c && can) "no such PDU arrives on this connection" (s.fatal c (pduFes bad))

/-- Whether a command arrives on the admin queue of a controller (R385, R387). -/
def State.adminOf (s : State) (cntl : Nat) (i : Instr) : Bool :=
  match i with
  | .keepAlive c _ | .identify c _ _ _ | .getLogPage c _ _ | .propertyGet c _ _ | .propertySet c _ _ _ | .invalidCommandOpcode c _ _ =>
    (s.conn c).state = 3 && (s.conn c).qid = 0 && (s.conn c).cntl = cntl
  | _ => false

/-- KEEP_ALIVE_TIMEOUT (R387). -/
def execKeepAliveTimeout (cntl : Nat) (s : State) : Out1 :=
  let x := look {} s.net.ctrls cntl
  timeout (x.live && x.kato ≠ 0 && s.elapsed x.heardAt (1000000 * x.kato)) (s.adminOf cntl) "no controller with this timer" s
    (let s1 := (s.connsOf cntl).foldl (fun (y : State) k => (y.dropConn k).emit (.tcpClose k)) s
     { s1 with net := { s1.net with ctrls := put {} s1.net.ctrls cntl {} } })

/-- The port's connections close; the link is down (R391). -/
def State.closePort (s : State) (p : Nat) : State :=
  (s.net.conns.filter fun e => e.2.state ≠ 0 && e.2.port = p).foldl (fun (y : State) e => y.closeConn e.1) s

/-- A write of NET_PORT (R391): a change of MODE retrains the link; a reserved MEDIA is not taken (log entry 55). -/
def State.writeNetPort (s : State) (p : Nat) (v : Word) : State :=
  let x := s.port p
  let mode := BitVec.ofNat 2 (bits v.toNat 1 0)
  if bits v.toNat 3 2 = 3 then s
  else
    let s1 := s.updPort p fun y => { y with jumbo := bit v.toNat 4, media := BitVec.ofNat 2 (bits v.toNat 3 2), mode := mode }
    if mode = x.mode then s1
    else
      let s2 := (s1.closePort p).updPort p fun y => { y with link := false, lanes := 0 }
      if x.link then s2.raise 82 else s2

/-- NET_PORT_WRITE (R391). -/
def execNetPortWrite (r : Req) (p : Nat) (v : Word) (s : State) : Out1 :=
  if p < 2 then busRow s r (0x350100 + 4 * p) v (s.writeNetPort p v) else no "no such port"

/-- A write of word o of interface record i of port p: while EN = 1 only EN is taken (R392). -/
def State.writeNetIf (s : State) (p i o : Nat) (v : Word) : State :=
  let k := 8 * p + i
  let x := look ({} : NetIf) s.net.ifs k
  let put_ := fun (y : NetIf) => { s with net := { s.net with ifs := put {} s.net.ifs k y } }
  if bit x.ctl.toNat 31 then (if o = 0 then put_ { x with ctl := (x.ctl &&& 0x7FFFFFFF) ||| (v &&& 0x80000000) } else s)
  else if o = 0 then put_ { x with ctl := v &&& 0xE00FFFFF }
  else put_ { x with addr := put 0 x.addr (o / 4 - 1) v }

/-! ## Subsystems and namespaces (R378 to R380) -/

/-- Subsystem of partition p. -/
def State.subsys (s : State) (p : Nat) : Subsys := look {} s.net.subsys p

/-- f applied to a partition's subsystem. -/
def State.setSubsys (s : State) (p : Nat) (x : Subsys) : State := { s with net := { s.net with subsys := put {} s.net.subsys p x } }

/-- Whether an entry of 256 bytes is a well-formed NQN (R379; log entry 71): NUL-terminated, at most 223 bytes, nqn.yyyy-mm. and a
name. -/
def nqnOk (e : List Byte) : Bool :=
  let n := e.takeWhile (· ≠ 0)
  let digit := fun (i : Nat) => 0x30 ≤ fieldLE n i 1 && fieldLE n i 1 ≤ 0x39
  n.length < 224 && e.contains 0 && 12 < n.length && fieldLE n 0 4 = 0x2E6E716E && [4, 5, 6, 7, 9, 10].all digit
    && fieldLE n 8 1 = 0x2D && fieldLE n 11 1 = 0x2E

/-- The NQNs of a block, entry by entry. -/
def nqnEntries (bs : List Byte) : List (List Byte) := (List.range 17).map fun i => sub bs (256 * i) 256

/-- An entry's name. -/
def nqnName (e : List Byte) : List Byte := e.takeWhile (· ≠ 0)

/-- NET_SUBSYS_ENABLE, up to its check (R379). -/
def execNetSubsysEnable (id : Nat) (s : State) : Out1 :=
  if (s.cmd? id).any fun c => s.hostWaits c || c.f 10 1 = 1 then no "no NET_SUBSYS that enables has this id, or it waits for its function"
  else withCmd s id 0xA0 "no NET_SUBSYS with this id" fun c =>
    if !c.zeros [(11, 1), (14, 2), (24, 8)] then s.done id 0x0100
    else if c.f 10 1 ≠ 0 || 4096 ≤ c.f 8 2 || c.f 12 2 = 0 || 4096 < c.f 12 2 || c.f 16 8 % 64 ≠ 0 then s.done id 0x0105
    else if s.hostFails c.fn (c.f 16 8) 4352 then s.done id 0x0106
    else if (s.subsys (c.f 8 2)).en then s.done id 0x0200
    else (s.phase id .checking).queueCheck .net (.netSubsys id)

/-- The check of a subsystem (R380). -/
def State.subsysReason (s : State) (p maxConn : Nat) (es : List (List Byte)) : Nat :=
  let others := s.net.subsys.filter fun e => e.2.en && e.1 ≠ p
  let hosts := (es.drop 1).filter fun e => fieldLE e 0 1 ≠ 0
  pickReason [(!s.netp, 0x5004), (others.any (fun e => e.2.nqn = nqnName (es.headD [])), 0x5005),
    (!nqnOk (es.headD []) || !hosts.all nqnOk, 0x5011), (4096 < others.foldl (fun n e => n + e.2.maxConn) maxConn, 0x5012)]

/-- The check of a subsystem ends (R379, R380). -/
def State.netSubsysEnd (s : State) (id : Nat) : State :=
  match s.cmd? id with
  | none => s.checkDone .net 0 0
  | some c =>
    let p := c.f 8 2
    let es := nqnEntries (s.hostRead c.fn (c.f 16 8) 4352)
    let n := s.subsysReason p (c.f 12 2) es
    let s1 := s.checkDone .net n p
    if n ≠ 0 then s1.complete id 0x0203 (BitVec.ofNat 32 n) 0
    else
      (s1.setSubsys p { en := true, maxConn := c.f 12 2, nqn := nqnName (es.headD [])
                        hosts := ((es.drop 1).filter fun e => fieldLE e 0 1 ≠ 0).map nqnName }).done id 0

/-- NET_SUBSYS_DISABLE (R379): the subsystem's connections close. -/
def execNetSubsysDisable (id : Nat) (s : State) : Out1 :=
  if (s.cmd? id).any fun c => c.f 10 1 ≠ 1 then no "no NET_SUBSYS that disables has this id"
  else withCmd s id 0xA0 "no NET_SUBSYS with this id" fun c =>
    let p := c.f 8 2
    if !c.zeros [(11, 1), (14, 2), (24, 8)] then s.done id 0x0100
    else if 4096 ≤ p then s.done id 0x0105
    else if !(s.subsys p).en then s.done id 0x0200
    else if !(s.exportsOf p).isEmpty then s.done id 0x0202
    else
      let mine := s.net.conns.filter fun e => e.2.state = 3 && e.2.part = p
      let s1 := mine.foldl (fun (y : State) e => (y.closeConn e.1).emit (.tcpClose e.1)) s
      (s1.setSubsys p {}).done id 0

/-- NET_EXPORT, up to its check (R379). -/
def execNetExport (id : Nat) (s : State) : Out1 :=
  if (s.cmd? id).any fun c => c.f 10 1 = 1 then no "no NET_EXPORT that exports has this id"
  else withCmd s id 0xA1 "no NET_EXPORT with this id" fun c =>
    if !c.zeros [(11, 1), (16, 16)] then s.done id 0x0100
    else if c.f 10 1 ≠ 0 || 16384 ≤ c.f 8 2 || c.f 12 4 = 0 || 1024 < c.f 12 4 then s.done id 0x0105
    else if (s.vol (c.f 8 2)).exported.isSome then s.done id 0x0200
    else (s.phase id .checking).queueCheck .net (.netExport id)

/-- The check of an export (R380). -/
def State.exportReason (s : State) (v nsid : Nat) : Nat :=
  let x := s.vol v
  pickReason [(!s.netp, 0x5004), (x.state ≠ 1 || (!x.shared && !(s.subsys x.owner.toNat).en), 0x5002),
    ((s.exportsOf x.owner.toNat).any (fun e => e.1 = nsid), 0x5005), (x.state = 1 && x.shared, 0x5010)]

/-- The check of an export ends (R379, R380). -/
def State.netExportEnd (s : State) (id : Nat) : State :=
  match s.cmd? id with
  | none => s.checkDone .net 0 0
  | some c =>
    let v := c.f 8 2
    let n := s.exportReason v (c.f 12 4)
    let s1 := s.checkDone .net n v
    if n ≠ 0 then s1.complete id 0x0203 (BitVec.ofNat 32 n) 0
    else (s1.updVol v fun x => { x with exported := some (c.f 12 4), unexporting := none }).done id 0

/-- NET_UNEXPORT (R379): EXP clears once the namespace's commands have ended. -/
def execNetUnexport (id : Nat) (s : State) : Out1 :=
  if (s.cmd? id).any fun c => c.f 10 1 ≠ 1 then no "no NET_EXPORT that unexports has this id"
  else withCmd s id 0xA1 "no NET_EXPORT with this id" fun c =>
    let v := c.f 8 2
    if !c.zeros [(11, 1), (16, 16)] then s.done id 0x0100
    else if 16384 ≤ v || c.f 12 4 = 0 || 1024 < c.f 12 4 then s.done id 0x0105
    else if (s.vol v).exported.isNone then s.done id 0x0200
    else if (s.vol v).unexporting.isSome then s.done id 0x0201
    else ((s.phase id .running).updVol v fun x => { x with unexporting := some id }).settleExports

/-! ## Opening a queue (R381, R382) -/

/-- The MTU of a port (R391). -/
def State.mtu (s : State) (port : Nat) : Nat := if (s.port port).jumbo then 9000 else 1500

/-- The device's segment size on an interface (R377): the MTU less the headers of IPv4 or IPv6 and of TCP (log entry 173). -/
def State.mss (s : State) (port ifc : Nat) : Nat :=
  s.mtu port - (if bit (look ({} : NetIf) s.net.ifs (8 * port + ifc)).ctl.toNat 30 then 60 else 40)

/-- The options of the answer to a SYN: each that the SYN offers; the device's own shift is a free value (R377; log entry 173). -/
def State.synOpts (s : State) (port ifc : Nat) (o : TcpOpts) : TcpOpts :=
  { wscale := o.wscale.map fun _ => s.free.1.toNat % 15, sack := o.sack, stamps := o.stamps, mss := s.mss port ifc }

/-- TCP_SYN (R376, R377, R381). -/
def execTcpSyn (port ifc dport : Nat) (syn : Syn) (s : State) : Out1 :=
  if !(s.portOpen port && s.ifOn port ifc) then no "no enabled interface has this address"
  else
    let held := (s.net.conns.filter fun e => e.2.state ≠ 0 && e.2.port = port).length
    let full := syn.target.any fun p => (s.subsys p).maxConn ≤ (s.net.conns.filter fun e => e.2.state = 3 && e.2.part = p).length
    if dport ≠ 4420 || 2048 ≤ held || full then .next (s.emit (.tcpRst port))
    else
      let c := s.net.nextConn
      let x : Conn := { state := 1, port := port, ifc := ifc, mac := syn.mac, opts := syn.opts }
      let s1 := s.free.2
      .next ({ s1 with net := { s1.net with conns := put {} s1.net.conns c x, nextConn := c + 1 } }.emit
        (.tcpSynAck c port ifc syn.mac (s.synOpts port ifc syn.opts)))

/-- ICREQ (R382, R387). -/
def execIcreq (c pfv hpda : Nat) (hdgst ddgst : Bool) (maxr2t : Nat) (s : State) : Out1 :=
  if !s.pduCan c then no "no PDU arrives on this connection"
  else if (s.conn c).state ≠ 1 then .next (s.fatal c 0x02)
  else if pfv ≠ 0 || 31 < hpda then .next (s.fatal c 0x06)
  else .next ((s.updConn c fun x => { x with state := 2, hdgst := hdgst, ddgst := ddgst, hpda := hpda, maxr2t := maxr2t }).emit (.icResp c hdgst ddgst 0 131072))

/-- Commands in flight on a port (R384). -/
def State.portCmds (s : State) (p : Nat) : Nat :=
  (s.hif.cmds.filter fun k => match k.origin with | .net n _ => (s.conn n).port = p | .ring _ => false).length

/-- A command on a controller's admin queue restarts its keep-alive timer (R387). -/
def State.heard (s : State) (c : Nat) : State :=
  let x := s.conn c
  if x.state = 3 && x.qid = 0 then { s with net := { s.net with ctrls := upd {} s.net.ctrls x.cntl fun k => { k with heardAt := s.clk.alm } } }
  else s

/-- A capsule's arrival: in PS2 it waits, and starts a wake where WAKEANY is set (R388; log entry 72); otherwise k takes it. -/
def State.capsuleIn (s : State) (c cid bytes : Nat) (k : State → State) : Out1 :=
  let x := s.conn c
  if !s.pduCan c || 16384 ≤ s.portCmds x.port then no "no capsule is taken on this connection"
  else if s.pwr.ps = 2 then
    when_ (s.pwr.phase = 0 && s.pwr.wakeAny) "the capsule waits in PS2" (s.startWake 0)
  else if x.state = 1 then .next (s.fatal c 0x02)
  else
    let s1 := (s.netBytes c (x.pduLen 72 4 bytes)).heard c
    if (s.connCmds c).any fun e => e.origin = .net c cid then .next (s1.capsule c cid 0 (0, 0x03, true)) else .next (k s1)

/-- A command of a connected queue; on a queue of the other kind its opcode is invalid, before the Connect it is out of sequence
(R385, R387; log entry 70). -/
def State.command (s : State) (c cid bytes : Nat) (admin : Bool) (k : State → State) : Out1 :=
  s.capsuleIn c cid bytes fun y =>
    let x := y.conn c
    if x.state ≠ 3 then y.fatal c 0x02
    else if (x.qid = 0) ≠ admin then y.capsule c cid 0 (0, 0x01, true)
    else k y

/-- Why a Connect is refused, in SCT and SC; none where it succeeds (R381). -/
def State.connectRefusal (s : State) (qid cntlid : Nat) (host sub_ : List Byte) : Option (Nat × Nat) :=
  match s.net.subsys.find? fun e => e.2.en && e.2.nqn = sub_ with
  | none => some (1, 0x82)
  | some (p, x) =>
    let conns := s.net.conns.filter fun e => e.2.state = 3 && e.2.part = p
    let k := look ({} : Ctrl) s.net.ctrls cntlid
    if !x.hosts.isEmpty && !x.hosts.contains host then some (1, 0x84)
    else if (s.part p).state ≠ 1 || x.maxConn ≤ conns.length then some (1, 0x82)
    else if qid = 0 then (if cntlid = 0xFFFF then none else some (1, 0x82))
    else if qid ≤ 64 && k.live && k.part = p && k.hostnqn = host && !conns.any (fun e => e.2.cntl = cntlid && e.2.qid = qid) then none
    else some (1, 0x82)

/-- CONNECT (R381, R383, R387): on a connected queue, or for more entries than R383 reports, it is refused with Connect Invalid Parameters. -/
def execConnect (c cid qid cntlid : Nat) (hostnqn subnqn : List Byte) (prm : ConnectParams) (s : State) : Out1 :=
  s.capsuleIn c cid 1024 fun y =>
    let host := nqnName hostnqn
    let sub_ := nqnName subnqn
    if !prm.dataOk then y.capsule c cid 0 digestStatus
    else if (y.conn c).state = 3 || (if qid = 0 then 31 else 127) < prm.sqsize then y.capsule c cid 0 (1, 0x82, true)
    else
      match y.connectRefusal qid cntlid host sub_ with
      | some e => y.capsule c cid 0 (e.1, e.2, true)
      | none =>
        let p := ((y.net.subsys.find? fun e => e.2.en && e.2.nqn = sub_).map (·.1)).getD 0
        let n := if qid = 0 then y.net.nextCntl else cntlid
        let y1 := y.updConn c fun x => { x with state := 3, part := p, qid := qid, cntl := n, sqsize := prm.sqsize }
        let y2 := if qid = 0 then
            { y1 with net := { y1.net with ctrls := put {} y1.net.ctrls n { live := true, part := p, hostnqn := host, kato := prm.kato, heardAt := y1.clk.alm }, nextCntl := n + 1 } }
          else y1
        y2.capsule c cid (BitVec.ofNat 64 n) (0, 0, false)

/-! ## The admin queue (R383, R385; log entry 70) -/

/-- The controller of a connection. -/
def State.ctrlOf (s : State) (c : Nat) : Ctrl := look {} s.net.ctrls (s.conn c).cntl

/-- Property CAP (R383). -/
def capProperty : DWord := (Config.nvmeCap &&& 0xFF00FFFF00FE0000#64) ||| 0x000000001401007F#64

/-- Property CSTS: ready while enabled, shutdown complete once notified. -/
def cstsProperty (x : Ctrl) : DWord := BitVec.ofNat 64 (b2n (bit x.cc.toNat 0) + (if bits x.cc.toNat 15 14 ≠ 0 then 8 else 0))

/-- A property's value (R383, R385). -/
def property (x : Ctrl) (ofs : Nat) : Option DWord :=
  match ofs with
  | 0x00 => some capProperty
  | 0x08 => some 0x00020000
  | 0x14 => some (x.cc.setWidth 64)
  | 0x1C => some (cstsProperty x)
  | _ => none

/-- PROPERTY_GET (R385). -/
def execPropertyGet (c cid ofs : Nat) (s : State) : Out1 :=
  s.command c cid 0 true fun y =>
    match property (y.ctrlOf c) ofs with
    | some v => y.capsule c cid v (0, 0, false)
    | none => y.capsule c cid 0 (0, 0x02, true)

/-- PROPERTY_SET (R385): of these properties only CC is written. -/
def execPropertySet (c cid ofs : Nat) (v : DWord) (s : State) : Out1 :=
  s.command c cid 0 true fun y =>
    if ofs = 0x14 then
      let n := (y.conn c).cntl
      ({ y with net := { y.net with ctrls := upd {} y.net.ctrls n fun x => { x with cc := v.setWidth 32 } } }).capsule c cid 0 (0, 0, false)
    else y.capsule c cid 0 (0, 0x02, true)

/-- Bytes with some of them replaced. -/
def overlay (bs : List Byte) (es : List (Nat × List Byte)) : List Byte :=
  es.foldl (fun l e => l.take e.1 ++ e.2 ++ l.drop (e.1 + e.2.length)) bs

/-- Identify Controller: what R382 and R383 report (OACS 0, ICDOFF 0), the rest open. -/
def State.identifyCtrl (s : State) (c : Nat) : List Byte :=
  overlay (undefinedBytes s.freeCtr 4096)
    [(77, [8]), (78, natLE 2 (s.conn c).cntl), (80, natLE 4 0x20000), (92, natLE 4 0), (256, natLE 2 0), (512, [0x66, 0x44]), (516, natLE 4 1024),
     (520, natLE 2 0x000C), (525, [0]), (768, (s.subsys (s.conn c).part).nqn ++ List.replicate (256 - (s.subsys (s.conn c).part).nqn.length) 0),
     (1792, natLE 4 516 ++ natLE 4 1 ++ natLE 2 0)]

/-- Identify Namespace: its size, one LBA format, no reservations, NAWUN and NAWUPF. -/
def State.identifyNs (s : State) (v : Nat) : List Byte :=
  let n := natLE 8 (s.vol v).vblk
  overlay (undefinedBytes s.freeCtr 4096) [(0, n ++ n), (25, [0, 0]), (29, [0]), (31, [0]), (34, natLE 2 63 ++ natLE 2 63), (128, [0, 0, 12])]

/-- IDENTIFY (R383, R385). -/
def execIdentify (c cid cns nsid : Nat) (s : State) : Out1 :=
  s.command c cid 0 true fun y =>
    let p := (y.conn c).part
    let send := fun (bs : List Byte) => ({ y.sendData c cid bs with freeCtr := y.freeCtr + 1 }).capsule c cid 0 (0, 0, false)
    match cns with
    | 0 => match y.nsVol p nsid with
      | some v => send (y.identifyNs v)
      | none => y.capsule c cid 0 (0, 0x0B, true)
    | 1 => send (y.identifyCtrl c)
    | 2 =>
      let ids := sortNat (((y.exportsOf p).map (·.1)).filter (nsid < ·))
      let bs := ids.flatMap (natLE 4 ·)
      send (bs ++ List.replicate (4096 - bs.length) 0)
    | 3 => match y.nsVol p nsid with
      | some _ => send (undefinedBytes y.freeCtr 4096)
      | none => y.capsule c cid 0 (0, 0x0B, true)
    | _ => y.capsule c cid 0 (0, 0x02, true)

/-- GET_LOG_PAGE (R385): the pages' contents are open. -/
def execGetLogPage (c cid lid : Nat) (s : State) : Out1 :=
  s.command c cid 0 true fun y =>
    let send := fun (n : Nat) => ({ y.sendData c cid (undefinedBytes y.freeCtr n) with freeCtr := y.freeCtr + 1 }).capsule c cid 0 (0, 0, false)
    match lid with
    | 1 => send 64
    | 2 => send 512
    | 3 => send 512
    | _ => y.capsule c cid 0 (1, 0x09, true)

/-- KEEP_ALIVE (R385, R387). -/
def execKeepAlive (c cid : Nat) (s : State) : Out1 := s.command c cid 0 true fun y => y.capsule c cid 0 (0, 0, false)

/-- INVALID_COMMAND_OPCODE (R385): an opcode the device handles has a row of its own. -/
def execInvalidCommandOpcode (c cid op : Nat) (s : State) : Out1 :=
  let admin := (s.conn c).qid = 0
  let known := if admin then [0x02, 0x06, 0x18, 0x7F] else [0x00, 0x01, 0x02, 0x08, 0x09, 0x7F]
  if 256 ≤ op || known.contains op then no "the device handles this opcode"
  else s.command c cid 0 admin fun y => y.capsule c cid 0 (0, 0x01, true)

/-! ## I/O commands (R384, R385) -/

/-- A volume command of a connection, fetched with the partition's CTX and GEN (R12, R385). -/
def State.netCmd (s : State) (c cid op : Nat) (bytes : List Byte) : State × Cmd :=
  let p := (s.conn c).part
  let k : Cmd := { id := s.hif.nextId, origin := .net c cid, op := op, bytes := bytes, ctx := BitVec.ofNat 13 p, gen := (s.part p).gen
                   cq := 0, place := .ring, ctmo := 0, phase := .fetched, fetchedAt := s.clk.alm }
  ({ s with hif := { s.hif with cmds := s.hif.cmds ++ [k], nextId := s.hif.nextId + 1 } }, k)

/-- An I/O command on a namespace. -/
def State.ioCommand (s : State) (c cid nsid bytes : Nat) (k : State → Nat → State) : Out1 :=
  s.command c cid bytes false fun y =>
    match y.nsVol (y.conn c).part nsid with
    | some v => k y v
    | none => y.capsule c cid 0 (0, 0x0B, true)

/-- NVME_READ (R385): NLB is zero-based. -/
def execNvmeRead (c cid nsid slba nlb : Nat) (s : State) : Out1 :=
  s.ioCommand c cid nsid 0 fun y v =>
    let z := y.netCmd c cid 0x20 (volEntry 0x20 v (nlb + 1) slba)
    z.1.beginRead z.2

/-- NVME_WRITE (R384, R385, R387): with its data in the capsule, or paced by R2Ts. -/
def execNvmeWrite (c cid nsid slba nlb : Nat) (capsule : List Byte) (dataOk : Bool) (s : State) : Out1 :=
  s.ioCommand c cid nsid capsule.length fun y v =>
    let n := nlb + 1
    if 8192 < capsule.length then y.fatal c 0x01
    else if !capsule.isEmpty && !dataOk then y.capsule c cid 0 digestStatus
    else if !capsule.isEmpty && capsule.length ≠ 4096 * n then y.capsule c cid 0 (nvmeStatus 0x0105 true)
    else
      let z := y.netCmd c cid 0x21 (volEntry 0x21 v n slba ++ capsule)
      let w : NetWrite := { cid := cid, vol := v, lba := slba, nblk := n, cmd := z.2.id, parts := [], r2t := 0, reserved := 0, recorded := 0, bad := false }
      let y1 := if capsule.isEmpty then z.1.updConn c fun x => { x with writes := x.writes.filter (fun q => q.cid ≠ cid) ++ [w] } else z.1
      let y2 := y1.beginWrite z.2
      if (y2.cmd? z.2.id).isNone then y2.updConn c fun x => { x with writes := x.writes.filter fun q => q.cid ≠ cid } else y2

/-- NVME_FLUSH (R385): every write that has completed is protected already. -/
def execNvmeFlush (c cid nsid : Nat) (s : State) : Out1 :=
  s.ioCommand c cid nsid 0 fun y v =>
    let z := y.netCmd c cid 0x22 (volEntry 0x22 v 0 0)
    z.1.done z.2.id (z.1.volRefusal z.2.ctx.toNat v 0 0 false)

/-- NVME_WRITE_ZEROES (R385). -/
def execNvmeWriteZeroes (c cid nsid slba nlb : Nat) (s : State) : Out1 :=
  s.ioCommand c cid nsid 0 fun y v =>
    let z := y.netCmd c cid 0x23 (volEntry 0x23 v (nlb + 1) slba)
    z.1.trimBegin 1 z.2

/-- The ranges of a Dataset Management, one after another; the first that is refused ends it. -/
def State.dealloc (s : State) (ctx v : Nat) : List (Nat × Nat) → State × Nat
  | [] => (s, 0)
  | e :: r =>
    let st := if e.2 = 0 then 0x0105 else s.volRefusal ctx v e.1 e.2 false
    if st ≠ 0 then (s, st) else (s.trim v 2 e.1 e.2).dealloc ctx v r

/-- DATASET_MANAGEMENT (R385, R387). -/
def execDatasetManagement (c cid nsid : Nat) (ad : Bool) (dsm : DsmData) (s : State) : Out1 :=
  if (s.nsVol (s.conn c).part nsid).any (fun v => !(s.arr (s.vol v).array).room (48 * dsm.ranges.length)) then no "the journal has no room"
  else s.ioCommand c cid nsid (16 * dsm.ranges.length) fun y v =>
    if !dsm.dataOk then y.capsule c cid 0 digestStatus
    else if !ad then y.capsule c cid 0 (0, 0, false)
    else if dsm.ranges.isEmpty || 256 < dsm.ranges.length then y.capsule c cid 0 (nvmeStatus 0x0105 true)
    else
      let z := y.netCmd c cid 0x24 (volEntry 0x24 v 0 0)
      let d := z.1.dealloc z.2.ctx.toNat v dsm.ranges
      d.1.done z.2.id d.2

/-! ## The data of a paced write (R384, R387) -/

/-- The bytes of piece i, where all have arrived. -/
def NetWrite.pieceData (w : NetWrite) (i : Nat) : Option (List Byte) :=
  let lo := 262144 * i
  let len := 4096 * (w.piece i).2
  let mine := w.parts.filter fun p => lo ≤ p.1 && p.1 < lo + len
  if mine.foldl (fun n p => n + p.2.length) 0 = len then some (mine.foldl (fun l p => overlay l [(p.1 - lo, p.2)]) (List.replicate len 0)) else none

/-- A paced write ends without its later pieces: what it reserved is released. -/
def State.endWrite (s : State) (c : Nat) (w : NetWrite) : State :=
  let s1 := s.updConn c fun x => { x with writes := x.writes.filter fun q => q.cid ≠ w.cid }
  { s1 with arc := { s1.arc with arrays := s1.arc.arrays.map fun (e : Nat × Arr) =>
    (e.1, { e.2 with reserved := e.2.reserved.filter fun r => r.1 ≠ w.cmd }) } }

/-- A whole piece is recorded, in order; the CapsuleResp follows the last one (R283, R384, R463). -/
def State.recordPieces (s : State) (c cid : Nat) : Nat → State
  | 0 => s
  | fuel + 1 =>
    match (s.conn c).write? cid with
    | none => s
    | some w =>
      match s.cmd? w.cmd, (if w.bad || w.reserved ≤ w.recorded then none else w.pieceData w.recorded) with
      | some k, some bs =>
        let p := w.piece w.recorded
        let st := s.volRefusal k.ctx.toNat w.vol p.1 p.2 true
        if st ≠ 0 && st ≠ 0x0200 then (s.endWrite c w).done w.cmd st
        else
          let a := (s.vol w.vol).array
          let q := (s.arr a).nextSeq
          let s1 := s.updArr a fun x => { x with reserved := x.reserved.erase (w.cmd, p.2) }
          let s2 := (s1.appendWrite w.vol k.ctx.toNat k.gen.toNat p.1 (blocksFrom bs p.2)).meter k.ctx.toNat 4 bs.length
          let mirrored := s2.mirrored a
          let s3 := if mirrored then s2.plkSend s2.partner (.plkMirror (s2.arr a).arrayId q w.vol p.1 k.ctx k.gen (blocksFrom bs p.2)) else s2
          let s4 := s3.updWrite c cid fun x => { x with recorded := x.recorded + 1 }
          if 64 * (w.recorded + 1) < w.nblk then s4.recordPieces c cid fuel
          else
            let s5 := s4.endWrite c w
            if mirrored then s5.awaitAck w.cmd else s5.done w.cmd 0
      | _, _ => s

/-- Whether H2CData of n bytes at an offset answers an R2T not yet answered. -/
def NetWrite.fits (w : NetWrite) (ofs n : Nat) : Bool :=
  n ≠ 0 && ofs + n ≤ w.r2t && ofs / 131072 = (ofs + n - 1) / 131072 && w.parts.all fun p => p.1 + p.2.length ≤ ofs || ofs + n ≤ p.1

/-- H2CDATA (R384, R387): data outside an R2T is fatal; a data digest error ends the recording, and the command once the R2Ts sent
are answered. -/
def execH2cdata (c cid ofs : Nat) (data : List Byte) (hdrOk dataOk : Bool) (s : State) : Out1 :=
  let x := s.conn c
  if !s.pduCan c || s.pwr.ps = 2 then no "no PDU arrives on this connection"
  else if (x.write? cid).any fun w => s.mirrorHolds (s.vol w.vol).array then no "the array's writes wait for SYNCING"
  else
    let s1 := s.netBytes c (x.pduLen 24 4 data.length)
    if !hdrOk then .next (s1.fatal c 0x03)
    else if x.state ≠ 3 then .next (s1.fatal c 0x02)
    else
      match x.write? cid with
      | none => .next (s1.fatal c 0x04)
      | some w =>
        if !w.fits ofs data.length then .next (s1.fatal c 0x04)
        else if (s1.cmd? w.cmd).any fun k => !s1.current k.ctx k.gen then .next (s1.stale x.part)
        else
          let s2 := s1.updWrite c cid fun y => { y with parts := y.parts ++ [(ofs, data)], bad := y.bad || !dataOk }
          let s3 := (s2.recordPieces c cid 5).sendR2t c cid 8 |>.pump w.cmd c cid 8
          match (s3.conn c).write? cid with
          | some y =>
            if y.bad && y.outstanding = 0 then
              let s4 := s3.endWrite c y
              .next (((s4.setCmds (s4.hif.cmds.filter fun k => k.id ≠ y.cmd)).capsule c cid 0 digestStatus).settleExports)
            else .next s3
          | none => .next s3

end Sys2Proof.Machine
end

