-- ==== Sys2Proof/Machine/Aes.lean ====
section
/-! DEFINITION. Machine/Aes.lean: AES-256 of FIPS 197, its XTS mode, and the AES Key Wrap of RFC 3394, which the spec names for save
images and key blobs (R412, R413, R497). A block is a number, its byte i in bits 8 i and up. -/

namespace Sys2Proof.Machine

/-- Byte i of a number. -/
def octet (x i : Nat) : Nat := (x >>> (8 * i)) % 256

/-- The substitution box, entry b in byte b (FIPS 197, SubBytes). -/
def aesBox : Nat :=
  0x16BB54B00F2D99416842E6BF0D89A18CDF2855CEE9871E9B948ED9691198F8E19E1DC186B95735610EF6034866B53E708A8BBD4B1F74DDE8C6B4A61C2E2578BA08AE7A65EAF4566CA94ED58D6D37C8E779E4959162ACD3C25C2406490A3A32E0DB0B5EDE14B8EE4688902A22DC4F816073195D643D7EA7C41744975FEC130CCDD2F3FF1021DAB6BCF5389D928F40A351A89F3C507F02F94585334D43FBAAEFD0CF584C4A39BECB6A5BB1FC20ED00D153842FE329B3D63B52A05A6E1B1A2C830975B227EBE28012079A059618C323C7041531D871F1E5A534CCF73F362693FDB7C072A49CAFA2D4ADF04759FA7DC982CA76ABD7FE2B670130C56F6BF27B777C63

/-- Its inverse (FIPS 197, InvSubBytes). -/
def aesBoxInverse : Nat :=
  0x7D0C2155631469E126D677BA7E042B17619953833CBBEBC8B0F52AAE4D3BE0A0EF9CC9939F7AE52D0D4AB519A97F51605FEC8027591012B131C7078833A8DD1FF45ACD78FEC0DB9A2079D2C64B3E56FC1BBE18AA0E62B76F89C5291D711AF1476EDF751CE837F9E28535ADE72274AC9673E6B4F0CECFF297EADC674F4111913A6B8A130103BDAFC1020F3FCA8F1E2CD00645B3B80558E4F70AD3BC8C00ABD890849D8DA75746155EDAB9EDFD5048706C92B6655DCC5CA4D41698688664F6F87225D18B6D49A25B76B224D92866A12E084EC3FA420B954CEE3D23C2A632947B54CBE9DEC444438E3487FF2F9B8239E37CFBD7F3819EA340BF38A53630D56A0952

/-- The first n bytes of a number, each replaced by its substitute. -/
def subBytes (box n x : Nat) : Nat := (List.range n).foldl (fun y i => y ^^^ (octet box (octet x i) <<< (8 * i))) 0

/-- Row r of the state rotated by `by_ r` columns; the state is column by column (FIPS 197, ShiftRows). -/
def shiftRows (by_ : Nat → Nat) (x : Nat) : Nat :=
  (List.range 16).foldl (fun y i => y ^^^ (octet x (4 * ((i / 4 + by_ (i % 4)) % 4) + i % 4) <<< (8 * i))) 0

/-- Each byte of a block times x in the field of FIPS 197. -/
def xtime (x : Nat) : Nat :=
  ((x &&& 0x7F7F7F7F7F7F7F7F7F7F7F7F7F7F7F7F) <<< 1) ^^^ (((x >>> 7) &&& 0x01010101010101010101010101010101) * 0x1B)

/-- Each byte of a block times a constant below 16 in that field. -/
def fieldTimes (n x : Nat) : Nat :=
  (if bit n 0 then x else 0) ^^^ (if bit n 1 then xtime x else 0) ^^^ (if bit n 2 then xtime (xtime x) else 0)
    ^^^ (if bit n 3 then xtime (xtime (xtime x)) else 0)

/-- Each row of the state moved up by one within its column. -/
def nextRow (x : Nat) : Nat :=
  ((x >>> 8) &&& 0x00FFFFFF00FFFFFF00FFFFFF00FFFFFF) ^^^ ((x &&& 0x000000FF000000FF000000FF000000FF) <<< 24)

/-- Each column times the circulant matrix with the first row m0, m1, m2, m3 (FIPS 197, MixColumns). -/
def mixColumns (m0 m1 m2 m3 x : Nat) : Nat :=
  fieldTimes m0 x ^^^ fieldTimes m1 (nextRow x) ^^^ fieldTimes m2 (nextRow (nextRow x)) ^^^ fieldTimes m3 (nextRow (nextRow (nextRow x)))

/-- The 60 words of the key schedule (FIPS 197, KeyExpansion for eight key words). -/
def keySchedule (key : List Byte) : List Nat :=
  (List.range 52).foldl (fun (w : List Nat) n =>
    let i := n + 8
    let t := nth w (i - 1) 0
    let t := if i % 8 = 0 then subBytes aesBox 4 ((t >>> 8) + (t % 256) <<< 24) ^^^ 2 ^ (i / 8 - 1)
      else if i % 8 = 4 then subBytes aesBox 4 t else t
    w ++ [nth w (i - 8) 0 ^^^ t]) ((List.range 8).map fun i => fieldLE key (4 * i) 4)

/-- Round key r. -/
def roundKey (w : List Nat) (r : Nat) : Nat := (List.range 4).foldl (fun y i => y ^^^ (nth w (4 * r + i) 0 <<< (32 * i))) 0

/-- A block enciphered under a key's schedule (FIPS 197). -/
def aesEncrypt (w : List Nat) (block : Nat) : Nat :=
  (List.range 14).foldl (fun b n =>
    let t := shiftRows (fun r => r) (subBytes aesBox 16 b)
    (if n = 13 then t else mixColumns 2 3 1 1 t) ^^^ roundKey w (n + 1)) (block ^^^ roundKey w 0)

/-- A block deciphered (FIPS 197, the inverse cipher). -/
def aesDecrypt (w : List Nat) (block : Nat) : Nat :=
  (List.range 14).foldl (fun b n =>
    let t := subBytes aesBoxInverse 16 (shiftRows (fun r => 4 - r) b) ^^^ roundKey w (13 - n)
    if n = 13 then t else mixColumns 14 11 13 9 t) (block ^^^ roundKey w 14)

/-! ## Key wrap (RFC 3394) -/

/-- The initial value A6A6A6A6A6A6A6A6. -/
def wrapStart : Nat := 0xA6A6A6A6A6A6A6A6

/-- A step's number as 8 bytes, the high one first. -/
def stepBytes (t : Nat) : Nat := leNat (natLE 8 t).reverse

/-- The n blocks of 8 bytes of a string from byte o on. -/
def halfBlocks (o n : Nat) (bs : List Byte) : List Nat := (List.range n).map fun i => fieldLE bs (o + 8 * i) 8

/-- Key data (a multiple of 8 bytes) wrapped under a 32-byte key. -/
def aesWrap (key data : List Byte) : List Byte :=
  let w := keySchedule key
  let n := data.length / 8
  let r := (List.range (6 * n)).foldl (fun (p : Nat × List Nat) k =>
    let b := aesEncrypt w (p.1 + nth p.2 (k % n) 0 <<< 64)
    ((b % 2 ^ 64) ^^^ stepBytes (k + 1), p.2.set (k % n) (b >>> 64))) (wrapStart, halfBlocks 0 n data)
  natLE 8 r.1 ++ r.2.flatMap (natLE 8)

/-- The key data that a wrapped string holds; none where the integrity check fails. -/
def aesUnwrap (key data : List Byte) : Option (List Byte) :=
  let w := keySchedule key
  let n := data.length / 8 - 1
  let r := (List.range (6 * n)).foldl (fun (p : Nat × List Nat) j =>
    let k := 6 * n - 1 - j
    let b := aesDecrypt w ((p.1 ^^^ stepBytes (k + 1)) + nth p.2 (k % n) 0 <<< 64)
    (b % 2 ^ 64, p.2.set (k % n) (b >>> 64))) (fieldLE data 0 8, halfBlocks 8 n data)
  if r.1 = wrapStart then some (r.2.flatMap (natLE 8)) else none

/-- A 32-byte key of 256 bits, byte 0 lowest. -/
def key256 (bs : List Byte) : BitVec 256 := BitVec.ofNat 256 (leNat bs)

/-- The 32 bytes of a key. -/
def keyBytes32 (k : BitVec 256) : List Byte := natLE 32 k.toNat

/-! ## XTS -/

/-- The tweak of the next block of a data unit: times x in the field of 2^128 (IEEE 1619). -/
def nextTweak (t : Nat) : Nat := if bit t 127 then (2 * t % 2 ^ 128) ^^^ 0x87 else 2 * t

/-- The blocks of a data unit enciphered one after the other. -/
def xtsBlocks (w : List Nat) : Nat → Nat → List Byte → List Byte
  | 0, _, _ => []
  | n + 1, t, bs => natLE 16 (aesEncrypt w (fieldLE bs 0 16 ^^^ t) ^^^ t) ++ xtsBlocks w n (nextTweak t) (bs.drop 16)

/-- A data unit of a whole number of blocks under data-unit number u. Which two AES keys the 32-byte key gives is open (log entry 16). -/
def xtsUnit (k : BitVec 256) (u : Nat) (bs : List Byte) : List Byte :=
  let ks := Config.xtsKeys k
  xtsBlocks (keySchedule ks.1) (bs.length / 16) (aesEncrypt (keySchedule ks.2) (u % 2 ^ 128)) bs

/-- The data units of 4 KiB of a string, the first with number u. -/
def xtsUnits (k : BitVec 256) : Nat → Nat → List Byte → List Byte
  | 0, _, _ => []
  | n + 1, u, bs => xtsUnit k u (bs.take 4096) ++ xtsUnits k n (u + 1) (bs.drop 4096)

end Sys2Proof.Machine
end

