-- ==== Sys2Proof/Machine/Trust.lean ====
section
/-! DEFINITION. Machine/Trust.lean: the boot flash, image checks, measurements, key import, activation and the mailbox
(R488 to R505). -/

namespace Sys2Proof.Machine

/-- TRUST replaced. -/
def State.setTrust (s : State) (f : Trust → Trust) : State := { s with trust := f s.trust }

/-! ## Boot records and images (R488 to R491) -/

/-- Bytes of an image slot (R488). -/
def slotBytes : Nat := 0x1FF0000

/-- The flash offset of slot A (false) or B (R488). -/
def slotBase (b : Bool) : Nat := if b then 0x2000000 else 0

/-- What a boot record says (R489). -/
structure BootRec where
  /-- ACTIVE is slot B. -/
  active : Bool
  /-- FLAGS.TRIAL. -/
  trial : Bool
  /-- FLAGS.TRIED. -/
  tried : Bool
  /-- SEQ. -/
  seq : Nat
  deriving DecidableEq, Repr

/-- The flash offset of a copy of the boot record (R488). -/
def bootRecBase (copy1 : Bool) : Nat := slotBase copy1 + slotBytes

/-- A boot record's 4 KiB (R489). -/
def BootRec.bytes (r : BootRec) : List Byte :=
  closeRecord [(0, 4, leNat (ctxBytes "DZBR")), (4, 2, 1), (6, 1, b2n r.active), (7, 1, b2n r.trial + 2 * b2n r.tried), (8, 8, r.seq)]

/-- A copy of the boot record; none where it is not valid (R489). -/
def Trust.bootRec (t : Trust) (copy1 : Bool) : Option BootRec :=
  let b := memRead t.flash (bootRecBase copy1) 4096
  if recordGood (leNat (ctxBytes "DZBR")) b && fieldLE b 4 2 = 1 then
    some { active := fieldLE b 6 1 = 1, trial := bit (fieldLE b 7 1) 0, tried := bit (fieldLE b 7 1) 1, seq := fieldLE b 8 8 }
  else none

/-- Whether copy 1 of the boot record stands (R489). -/
def Trust.stands1 (t : Trust) : Bool :=
  match t.bootRec false, t.bootRec true with
  | some a, some b => decide (a.seq < b.seq)
  | none, some _ => true
  | _, none => false

/-- The standing boot record (R489); with neither copy valid, ACTIVE and FLAGS 0. -/
def Trust.standing (t : Trust) : BootRec :=
  ((t.bootRec t.stands1).or (t.bootRec true)).getD { active := false, trial := false, tried := false, seq := 0 }

/-- A rewrite overwrites the copy that does not stand, with SEQ one higher (R489; log entry 75: copy 0 where neither is valid). -/
def Trust.rewrite (t : Trust) (active trial tried : Bool) : Trust :=
  let r : BootRec := { active := active, trial := trial, tried := tried, seq := t.standing.seq + 1 }
  { t with flash := memWrite t.flash (bootRecBase ((t.bootRec false).isSome && !t.stands1)) r.bytes }

/-- Bytes of an image slot. -/
def Trust.image (t : Trust) (b : Bool) (o n : Nat) : List Byte := memRead t.flash (slotBase b + o) n

/-- A little-endian field of an image. -/
def Trust.imageF (t : Trust) (b : Bool) (o n : Nat) : Nat := leNat (t.image b o n)

/-- SVN and VERSION of the image in a slot (R490). -/
def Trust.svnOf (t : Trust) (b : Bool) : Nat := t.imageF b 6 1
/-- VERSION of the image in a slot (R490). -/
def Trust.versionOf (t : Trust) (b : Bool) : Nat := t.imageF b 8 8

/-- Whether stage i of an image matches its DIGEST (R490, R491): it lies inside the image. -/
def Trust.stageOk (t : Trust) (b : Bool) (i : Nat) : Bool :=
  let e := 0x40 + 96 * i
  let len := t.imageF b (e + 4) 4
  let ofs := t.imageF b (e + 8) 8
  ofs + len ≤ t.imageF b 0x10 4 && shake256 64 (t.image b ofs len) = t.image b (e + 0x10) 64

/-- The key-hash fuse slot that holds the hash of an image's PK and is not revoked (R491). -/
def Trust.keySlot (t : Trust) (b : Bool) : Option Bool :=
  let h := shake256 32 (t.image b 0x400 1952)
  [false, true].find? fun k => Config.keyHash k = h && !Config.keyRevoked k

/-- What the ROM finds of an image before its stages (R490, R491, R495): 0, or the MSTATUS code 5 or 6. -/
def Trust.headerCode (t : Trust) (b : Bool) : Nat :=
  let n := t.imageF b 7 1
  let good := t.image b 0 4 = ctxBytes "DZFW" && t.imageF b 4 2 = 1 && 1 ≤ n && n ≤ 8 && t.imageF b 0x10 4 ≤ slotBytes
    && t.svnOf b ≤ 64 && t.imageF b 0x40 2 = 1 && (t.keySlot b).isSome
    && Config.signatureOk (t.image b 0x400 1952) (ctxBytes "DZFW") (shake256 64 (t.image b 0 0xC00)) (t.image b 0xC00 3309)
  if !good then 5 else if t.svnOf b < t.svnCnt then 6 else 0

/-- The MSTATUS code of a whole image: FW_VERIFY reads every stage (R491, R498). -/
def Trust.imageCode (t : Trust) (b : Bool) : Nat :=
  if t.headerCode b ≠ 0 then t.headerCode b
  else if (List.range (t.imageF b 7 1)).all (t.stageOk b) then 0 else 5

/-! ## Measurements (R493) -/

/-- The bytes of M0 to M7. -/
def Trust.measBytes (t : Trust) : List Byte := (List.range 8).flatMap fun i => natLE 64 (look 0 t.meas i).toNat

/-- Mi is extended with a 64-byte digest (R493). -/
def Trust.extend (t : Trust) (i : Nat) (d : List Byte) : Trust :=
  { t with meas := put 0 t.meas i (BitVec.ofNat 512 (leNat (shake256 64 (natLE 64 (look 0 t.meas i).toNat ++ d)))) }

/-! ## The boot chain (R492) -/

/-- The ROM's measurements of the slot it boots (R493): M0, M1, M2 and stage 1. -/
def Trust.measureRom (t : Trust) (b : Bool) : Trust :=
  let f := shake256 64 (Config.fuseState ((t.keySlot b).getD false) t.svnCnt)
  (((t.extend 0 Config.romDigest).extend 1 f).extend 2 (shake256 64 (t.image b 0 0xC00))).extend 3 (t.image b 0x50 64)

/-- Stage 1 loads the other stages, measures each and checks it; a mismatch stops boot in RECOVERY (R492). -/
def Trust.loadStages (t : Trust) (b : Bool) : List Nat → Trust
  | [] => { t with boot := 2 }
  | i :: r =>
    if t.stageOk b i then
      let ty := t.imageF b (0x40 + 96 * i) 2
      let t1 := if 1 ≤ ty && ty ≤ 4 then t.extend (2 + ty) (t.image b (0x50 + 96 * i) 64) else t
      t1.loadStages b r
    else { t with boot := 3, failCode := 5 }

/-- The ROM tries slot b, at most n slots in all, then RECOVERY (R492); r is the standing record at the start. -/
def Trust.tryBoot (t : Trust) (b fb trial : Bool) : Nat → Trust
  | 0 => { t with boot := 3, fallback := fb }
  | n + 1 =>
    let code := if t.headerCode b ≠ 0 then t.headerCode b else if t.stageOk b 0 then 0 else 5
    if code = 0 then
      let t1 := if fb then t.rewrite b false false else t
      let t2 : Trust := { t1 with slotB := b, fallback := fb, trial := trial && !fb, fwVer := BitVec.ofNat 64 (t1.versionOf b) }
      (t2.measureRom b).loadStages b ((List.range (t2.imageF b 7 1)).drop 1)
    else ({ t with failCode := BitVec.ofNat 8 code } : Trust).tryBoot (!b) true trial n

/-- The boot chain from the ROM step (R492). -/
def Trust.bootChain (t : Trust) : Trust :=
  let r := t.standing
  if r.trial && r.tried then t.tryBoot (!r.active) true false 2
  else (if r.trial then t.rewrite r.active true true else t).tryBoot r.active false r.trial 2

/-! ## Key import (R497) -/

/-- The load of the blob at TRUST_KEYLOAD_LO and HI (R497): RESULT 2 bad blob, 4 slot not loadable, 3 unwrap failed, 1 done,
which extends M7; where the host read fails RESULT is a free value (log entry 76). -/
def State.keyload (s : State) : State :=
  let a := s.trust.klAddr.toNat
  let result := fun (v : BitVec 3) => s.setTrust fun t => { t with klResult := v }
  if s.hostFails 0 a 1144 then
    let (v, s1) := s.free
    s1.setTrust fun t => { t with klResult := v.setWidth 3 }
  else
    let blob := s.hostRead 0 a 1144
    let slot := fieldLE blob 4 2
    if sub blob 0 4 ≠ ctxBytes "DZKB" || (sub blob 6 10).any (· ≠ 0) then result 2
    else if !(slot = 4097 || (slot < 4096 && !tri (s.part slot).en)) then result 4
    else match (aesUnwrap (wrapKey (sub blob 0x10 1088) slot) (sub blob 0x450 40)).map key256 with
      | none => result 3
      | some k => s.setTrust fun t =>
          ({ t with klResult := 1, keys := put none t.keys slot (some k) } : Trust).extend 7 (Config.eventDigest false blob)

/-- A write of TRUST_KEYLOAD_CTL, after the guard (R505). -/
def State.writeKeyload (s : State) (v : Word) : State := if bit v.toNat 31 then s.keyload else s

/-- TRUST_KEYLOAD_GO (R45, R497). -/
def execTrustKeyloadGo (r : Req) (s : State) : Out1 := busRow s r 0x50038 0x80000000 (s.gWrite r 0x50038 fun x => x.writeKeyload 0x80000000)

/-! ## Activation (R498, R499) -/

/-- The slot FW_STAGE writes: the one that is not running; slot A in RECOVERY (R494, R498). -/
def Trust.stagingSlot (t : Trust) : Bool := if t.boot = 3 then false else !t.slotB

/-- GO (R498): the staged slot becomes the trial image, or RESULT 2. -/
def Trust.activate (t : Trust) : Trust :=
  if !t.verified then { t with actResult := 2 }
  else ({ t.rewrite t.stagingSlot true false with actResult := 1 } : Trust).extend 7
      (Config.eventDigest true (natLE 8 (t.versionOf t.stagingSlot)))

/-- COMMIT (R495, R498): while the trial image runs the record loses TRIAL and the count rises to its SVN; otherwise RESULT 2
(log entry 179). -/
def Trust.commit (t : Trust) : Trust :=
  if t.trial && t.boot = 2 then
    let r := t.standing
    { t.rewrite r.active false r.tried with actResult := 1, trial := false, svnCnt := max t.svnCnt (t.svnOf t.slotB) }
  else { t with actResult := 2 }

/-- A write of TRUST_FW_ACT, after the guard: COMMIT acts first, then GO (R499). -/
def State.writeFwAct (s : State) (v : Word) : State :=
  let s1 := if bit v.toNat 30 then s.setTrust Trust.commit else s
  if bit v.toNat 31 then s1.setTrust Trust.activate else s1

/-- TRUST_FW_ACT_GO (R45, R498). -/
def execTrustFwActGo (r : Req) (s : State) : Out1 := busRow s r 0x50020 0x80000000 (s.gWrite r 0x50020 fun x => x.writeFwAct 0x80000000)

/-- TRUST_FW_ACT_COMMIT (R45, R498). -/
def execTrustFwActCommit (r : Req) (s : State) : Out1 := busRow s r 0x50020 0x40000000 (s.gWrite r 0x50020 fun x => x.writeFwAct 0x40000000)

/-! ## The mailbox (R501 to R505) -/

/-- The words that n bytes take (R501). -/
def mbxWords (n : Nat) : Nat := ceilDiv n 4

/-- Words as bytes. -/
def wordsToBytes (ws : List Word) : List Byte := ws.flatMap fun w => natLE 4 w.toNat

/-- Bytes as words, the last one filled with zeros (R501). -/
def bytesToWords (bs : List Byte) : List Word := (List.range (mbxWords bs.length)).map fun i => BitVec.ofNat 32 (fieldLE bs (4 * i) 4)

/-- The command completes (R501): a failing one with RLEN 0. -/
def Trust.reply (t : Trust) (status : Nat) (bs : List Byte) : Trust :=
  let out := if status = 0 then bs else []
  { t with mbx := if out.isEmpty then 0 else 3, mbxStatus := BitVec.ofNat 4 status, mbxRlen := out.length, mbxOut := bytesToWords out, mbxIn := [] }

/-- The last request word has arrived: BUSY; a command that is none of R503's completes at once (R501, R503). -/
def Trust.startCmd (t : Trust) : Trust :=
  if 1 ≤ t.mbxCmd.toNat && t.mbxCmd.toNat ≤ 5 then { t with mbx := 2 } else ({ t with mbx := 2 } : Trust).reply 1 []

/-- The abort of the mailbox's command (R502). -/
def Trust.mbxAbort (t : Trust) : Trust := { t.reply 8 [] with mbxCmd := 0 }

/-- Whether an access is the owner's (R501). -/
def Trust.owns (t : Trust) (side : Bool) (r : Req) : Bool := side = t.mbxSide && (side || r = .pf0)

/-- A write of MBX_CMD by PF0 (R502). -/
def mbxCmdPf0 (i : Instr) : Bool :=
  match i with
  | .mbxCmdWrite false .pf0 v | .registerWrite .pf0 .bar0 0x50100 v => v.toNat % 256 ≠ 0
  | _ => false

/-- A write of MBX_CMD (R501, R502): of two in one SCLK PF0's takes ownership (log entry 122). -/
def State.writeMbxCmd (s : State) (side : Bool) (r : Req) (v : Word) : State :=
  let c : Byte := v.setWidth 8
  s.setTrust fun t =>
    if t.mbx = 0 then
      if c = 0 || !(side || r = .pf0) || (side && s.comes mbxCmdPf0) then t
      else
        let t1 : Trust := { t with mbxCmd := c, mbxSide := side, mbx := 1, mbxStatus := 0, mbxRlen := 0, mbxIn := [], mbxOut := [], mbxAt := s.clk.alm }
        if t1.mbxLen = 0 then t1.startCmd else t1
    else if c = 0 && t.owns side r then t.mbxAbort else t

/-- Which requesters reach the mailbox: the side band, and what reaches BAR0's block TRUST (R501). -/
def mbxRow (s : State) (side : Bool) (r : Req) (ofs : Nat) (v : Word) (t : State) : Out1 :=
  if side then (if 2 ≤ s.glb.start then .next (t.setTrust fun x => { x with mbxAt := s.clk.alm }) else no "TRUST does not serve") else busRow s r ofs v t

/-- MBX_CMD_WRITE (R501, R502). -/
def execMbxCmdWrite (side : Bool) (r : Req) (v : Word) (s : State) : Out1 := mbxRow s side r 0x50100 v (s.writeMbxCmd side r v)

/-- A write of MBX_LEN (R501, R502). -/
def State.writeMbxLen (s : State) (side : Bool) (r : Req) (v : Word) : State :=
  s.setTrust fun t =>
    if (t.mbx = 0 && (side || r = .pf0)) || t.owns side r then { t with mbxLen := v.setWidth 17 } else { t with mbxNown := satInc t.mbxNown }

/-- A write of MBX_DATA (R501, R502). -/
def State.writeMbxData (s : State) (side : Bool) (r : Req) (v : Word) : State :=
  s.setTrust fun t =>
    if !t.owns side r then { t with mbxNown := satInc t.mbxNown }
    else if t.mbx ≠ 1 then { t with mbxOvr := true }
    else
      let t1 := { t with mbxIn := t.mbxIn ++ [v] }
      if mbxWords t.mbxLen.toNat ≤ t1.mbxIn.length then t1.startCmd else t1

/-- MBX_DATA_WRITE (R501, R502). -/
def execMbxDataWrite (side : Bool) (r : Req) (v : Word) (s : State) : Out1 := mbxRow s side r 0x50108 v (s.writeMbxData side r v)

/-- A read of MBX_DATA (R501, R502): the word it returns and the state after; what a non-owner reads is a free value (log
entry 77). -/
def State.readMbxData (s : State) (side : Bool) (r : Req) : Word × State :=
  if !s.trust.owns side r then
    let (v, s1) := s.free
    (v.setWidth 32, s1)
  else match s.trust.mbx, s.trust.mbxOut with
    | 3, w :: rest => (w, s.setTrust fun t => { t with mbxOut := rest, mbx := if rest.isEmpty then 0 else 3 })
    | _, _ => (0, s.setTrust fun t => { t with mbxOvr := true })

/-- MBX_DATA_READ (R501, R502). -/
def execMbxDataRead (side : Bool) (r : Req) (s : State) : Out1 :=
  let x := s.readMbxData side r
  if !side && (s.holder r).isSome then no "an earlier write of the requester is held"
  else mbxRow s side r 0x50108 0 (x.2.emit (.readData r x.1))

/-- A word on the mailbox's side band (R502). -/
def mbxSideWord (i : Instr) : Bool :=
  match i with
  | .mbxCmdWrite b _ _ | .mbxDataWrite b _ _ | .mbxDataRead b _ => b
  | _ => false

/-- MAILBOX_SIDEBAND_TIMEOUT (R28, R502). -/
def execMailboxSidebandTimeout (s : State) : Out1 :=
  timeout (s.trust.mbx ≠ 0 && s.trust.mbxSide && s.elapsed s.trust.mbxAt 1000000000) mbxSideWord "no side-band command is open" s (s.setTrust Trust.mbxAbort)

/-- The mailbox's command with this number runs to its end: k gives the status and the response from the request's bytes. -/
def mbxRun (s : State) (cmd : Nat) (k : List Byte → Nat × List Byte × State) : Out1 :=
  if s.trust.mbx = 2 && s.trust.mbxCmd.toNat = cmd then
    let x := k (sub (wordsToBytes s.trust.mbxIn) 0 s.trust.mbxLen.toNat)
    .next (x.2.2.setTrust fun t => t.reply x.1 x.2.1)
  else no "the mailbox runs no such command"

/-- TRUST_BOOT (R505). -/
def Trust.bootWord (t : Trust) : Word :=
  packW [(3, t.boot), (1, b2n t.slotB), (1, b2n t.fallback), (1, b2n t.trial), (3, 0), (7, t.svnCnt), (8, 0), (8, t.failCode.toNat)]

/-- GET_INFO (R503). -/
def execGetInfo (s : State) : Out1 :=
  mbxRun s 1 fun req =>
    let t := s.trust
    if req.length ≠ 0 then (2, [], s)
    else (0, (List.range 64).map (Config.infoByte t.bootWord (t.versionOf false, t.svnOf false) (t.versionOf true, t.svnOf true) (BitVec.ofNat 128 (leNat deviceId))), s)

/-- GET_CERT (R496, R503). -/
def execGetCert (s : State) : Out1 :=
  mbxRun s 2 fun req =>
    let slot := fieldLE req 0 1
    let ofs := fieldLE req 4 4
    let len := fieldLE req 8 4
    if req.length ≠ 12 then (2, [], s)
    else if slot > 1 || fieldLE req 1 3 ≠ 0 || len > 65536 || ofs + len > (Config.certChain (slot = 1)).length then (3, [], s)
    else (0, sub (Config.certChain (slot = 1)) ofs len, s)

/-- The first 0x260 bytes of an attestation report (R504). -/
def State.reportBody (s : State) (nonce : List Byte) : List Byte :=
  let t := s.trust
  ctxBytes "DZAR" ++ natLE 2 1 ++ natLE 2 8 ++ nonce ++ deviceId ++ natLE 16 t.bootId.toNat ++ natLE 8 s.alm
    ++ natLE 8 t.fwVer.toNat ++ natLE 1 t.svnCnt ++ natLE 1 (b2n t.slotB) ++ natLE 2 (b2n t.fallback + 2 * b2n t.trial) ++ natLE 4 0
    ++ t.measBytes

/-- ATT_REPORT (R504). -/
def execAttReport (s : State) : Out1 :=
  mbxRun s 3 fun req =>
    if req.length ≠ 32 then (2, [], s)
    else
      let body := s.reportBody req
      (0, body ++ signature s.freeCtr "DZAR" (shake256 64 body), { s with freeCtr := s.freeCtr + 1 })

/-- FW_STAGE (R503, R494): the 64 KiB sector of the staging slot is erased and programmed; on a flash error what it holds is free. -/
def execFwStage (flashOk : Bool) (s : State) : Out1 :=
  mbxRun s 4 fun req =>
    let n := req.length - 8
    let ofs := fieldLE req 0 4
    if req.length < 9 || 65544 < req.length then (2, [], s)
    else if ofs % 65536 ≠ 0 || slotBytes < ofs + 65536 || fieldLE req 4 4 ≠ 0 then (3, [], s)
    else
      let fill := if flashOk then req.drop 8 ++ List.replicate (65536 - n) 0xFF
        else (List.range 65536).map (Config.freeByte s.freeCtr)
      let s1 := if flashOk then s else { s with freeCtr := s.freeCtr + 1 }
      (if flashOk then 0 else 7, [],
       s1.setTrust fun t => { t with flash := memWrite t.flash (slotBase t.stagingSlot + ofs) fill, verified := false })

/-- FW_VERIFY (R498, R503). -/
def execFwVerify (s : State) : Out1 :=
  mbxRun s 5 fun req =>
    let t := s.trust
    let b := t.stagingSlot
    if req.length ≠ 0 then (2, [], s)
    else
      let code := t.imageCode b
      let svn := t.svnOf b
      (0, natLE 1 code ++ natLE 1 svn ++ natLE 6 0,
       s.setTrust fun t => { t with verified := code = 0, stagedSvn := if code = 0 then BitVec.ofNat 8 svn else t.stagedSvn })

end Sys2Proof.Machine
end

