-- ==== Sys2Proof/Machine/Resets.lean ====
section
/-! DEFINITION. Machine/Resets.lean: power-on, device and test reset, and the start-up sequence (R506 to R512). -/

namespace Sys2Proof.Machine

/-! ## What lies outside a reset's scope -/

/-- A member drive's medium (R263 to R268): it outlives every reset of the device. -/
def Member.drive (m : Member) : Member := { medium := m.medium, bad := m.bad, sys := m.sys }

/-- The device in power-on reset (R506): every field at its reset value; the host's memory, the media, the flash, the fuses and
the pins' levels and the other devices are outside it, and so is what has left the device. -/
def State.powerOff (s : State) : State :=
  { State.resetOf s.variant with
    hostMem := s.hostMem, hostBad := s.hostBad, images := s.images, freeCtr := s.freeCtr, out := s.out, pending := s.pending
    evc := { pins := s.evc.pins.map fun (e : Nat × Pin) => (e.1, { raw := e.2.raw }) }
    arc := { members := s.arc.members.map fun (e : Nat × Member) => (e.1, e.2.drive) }
    trust := { flash := s.trust.flash, svnCnt := s.trust.svnCnt }
    plk := { peerTsrc := s.plk.peerTsrc } }

/-- The record that the next batch carries for a partition whose interval the reset ends (R417, R508). -/
def State.carriedRec (s : State) (p : Nat) : MeterRec :=
  let r := s.dueRec p s.clk.alm s.trust.merged
  { r with flags := r.flags ||| 1 }

/-- A partition after a device reset: OFF, its meter counters kept (R506, R508). -/
def Part.afterDeviceReset (x : Part) (now : DWord) : Part :=
  let y := if x.wasOn then x.afterRec now else x
  { mtr := y.mtr, mtrPrev := y.mtrPrev, recSeq := y.recSeq }

/-- The device after the DEV write (R506, R508): what R506 keeps, and every other field as power-on reset leaves it; a unit under
test stays out of service (R483). -/
def State.deviceReset (s : State) : State :=
  let s0 := (List.range 18).foldl (fun (x : State) t => x.countTile t s.alm) s
  let due := s0.parts.filterMap fun e => if e.2.wasOn then some e.1 else none
  let n := s0.powerOff
  { n with
    clk := { alm := s0.clk.alm, counting := s0.clk.counting, locked := s0.clk.locked, lossCnt := s0.clk.lossCnt
             trim := s0.clk.trim, timers := s0.clk.timers, sclkPhase := s0.clk.sclkPhase
             msDone := s0.clk.msDone, calDone := s0.clk.calDone, tsyncDone := s0.clk.tsyncDone }
    glb := { n.glb with rstCause := 2 }
    plk := { n.plk with tsrc := s0.pwr.devid = 0, lock := s0.plk.lock, ofs := s0.plk.ofs, offsets := s0.plk.offsets }
    pwr := { n.pwr with devid := s0.pwr.devid, thermTrip := s0.pwr.thermTrip }
    parts := s0.parts.filterMap fun e =>
      let y := e.2.afterDeviceReset s0.clk.alm
      if y = {} then none else some (e.1, y)
    trust := { n.trust with
      meas := s0.trust.meas
      keys := put none [] 4097 (look none s0.trust.keys 4097)
      carried := s0.trust.carried ++ due.map s0.carriedRec } }

/-! ## Start-up (R510) -/

/-- Milliseconds that the current step was reached after, within the step's bound: a free value (R510, R526). -/
def State.startAt (s : State) (step bound : Nat) : State :=
  let (v, s1) := s.free
  { s1 with glb := { s1.glb with start := BitVec.ofNat 3 step, startMs := BitVec.ofNat 16 (v.toNat % (bound + 1)) } }

/-- The ROM step (R492, R497, R508, R510): a fresh owner key, a new BOOT_ID, the boot chain. -/
def State.romStep (s : State) (env : BootEnv) : State :=
  let s1 := { s with freeCtr := s.freeCtr + 1 }
  s1.setTrust fun t =>
    ({ t with keys := put none t.keys 4096 (some (Config.freeKey s.freeCtr)), bootId := env.bootId } : Trust).bootChain

/-- A physical tile fails its start-up self-test (R474, R479, R510): CHECK 0x0D; a spare that passed takes its logical tile. -/
def State.selfTestFails (s : State) (fails : BitVec 18) (t : Nat) : State :=
  let s1 := s.setSpare t false
  let spare := (List.range s.tilesPhys).find? fun p => s1.isSpare p && !fails.getLsbD p
  match s.logOf t with
  | none => s1.record 1 ownerCtx (0x10 + t) 0x0D t 4 0 false 0
  | some l =>
    match spare with
    | some p => ((s1.setPhys l p).setSpare p false).record 1 ownerCtx (0x10 + t) 0x0D t 6 0 false 0
    | none => (s1.setPhys l 0x1F).record 1 ownerCtx (0x10 + t) 0x0D t 4 0 false 0

/-- The unit whose online test the reset aborted, by kind and index (R483). -/
def State.underTest (s : State) : Option (Nat × Nat) :=
  let w := s.vigil.svcCtl.toNat
  if s.vigil.svcBusy && bits w 19 18 = 1 then some (bits w 23 20, if bits w 23 20 = 1 then s.spareBank else bits w 7 0) else none

/-- A unit whose test the reset aborted is out of service after it (R483). -/
def State.keepOut (s : State) : Option (Nat × Nat) → State
  | none => s
  | some (0, t) => match s.logOf t with
    | some l => match s.lowestSpare with
      | some p => if p = t then s.setSpare t false else ((s.setPhys l p).setSpare p false).setSpare t false
      | none => s.setPhys l 0x1F
    | none => s.setSpare t false
  | some (2, i) => { s with cmp := { s.cmp with outSvc := put false s.cmp.outSvc i true } }
  | some (3, i) => { s with arc := { s.arc with ersOut := put false s.arc.ersOut i true } }
  | some (5, i) => s.updStw i fun x => { x with inService := false }
  | some (k, i) => { s with vigil := { s.vigil with outSvc := put false s.vigil.outSvc (256 * k + i) true } }

/-- PLK leaves reset: every link goes from DOWN to TRAINING (R451). -/
def State.trainLinks (s : State) : State :=
  (List.range s.plkCount).foldl (fun (x : State) k => (x.updLink k fun l => { l with state := 1, trainAt := x.clk.alm }).raise 83) s

/-- The sequence from the ROM step (R492, R494, R510): RECOVERY after a stage-check failure, FAILED after an HBM stack that does
not train, otherwise READY. -/
def State.startUp (s : State) (env : BootEnv) : State :=
  let s1 := { s.romStep env with hif := { s.hif with portUp := env.hostUp } }
  if s1.trust.boot = 3 then s1.startAt 6 60
  else
    let s2 := { s1 with pwr := { s1.pwr with vset := Config.fusedMv, vout := Config.fusedMv, vGood := Config.fusedMv } }.emit (.avs Config.fusedMv)
    match env.failStack with
    | some n =>
      if n < s.stacks then { s2.startAt 7 160 with glb := { (s2.startAt 7 160).glb with failCode := BitVec.ofNat 8 (n + 0x40) } }
      else s2
    | none =>
      let failed := (List.range s2.tilesPhys).filter fun t => env.failTiles.getLsbD t
      ((failed.foldl (fun (x : State) t => x.selfTestFails env.failTiles t) s2).startAt 5 1000).trainLinks

/-- POWER_ON_RESET (R506, R510): DEVID is sampled, the PLL locks, and the sequence runs. The Almanac stays 0 until R465 starts it. -/
def execPowerOnReset (env : BootEnv) (s : State) : Out1 :=
  match env.failStack with
  | some n => if n < s.stacks then .next (go s) else no "the part has no such HBM stack"
  | none => .next (go s)
where
  /-- The reset and the sequence. -/
  go (s : State) : State :=
    let s1 := s.powerOff
    { s1 with clk := { s1.clk with locked := true }
              pwr := { s1.pwr with devid := env.devid }
              plk := { s1.plk with tsrc := env.devid = 0 } }.startUp env

/-- A write of PWR_RESET, after the guard (R524, R526): refused while FLUSHING. -/
def State.writeReset (s : State) (v : Word) (env : BootEnv) : State :=
  if bit v.toNat 31 && s.arc.pf ≠ 1 then (s.deviceReset.startUp env).keepOut s.underTest else s

/-- DEVICE_RESET (R45, R506, R508). -/
def execDeviceReset (r : Req) (env : BootEnv) (s : State) : Out1 :=
  match env.failStack with
  | some n => if n < s.stacks then busRow s r 0x60010 0x80000000 (s.gWrite r 0x60010 fun x => x.writeReset 0x80000000 env) else no "the part has no such HBM stack"
  | none => busRow s r 0x60010 0x80000000 (s.gWrite r 0x60010 fun x => x.writeReset 0x80000000 env)

/-- TEST_RESET (R506): only the TAP, which holds no state of the device. -/
def execTestReset (s : State) : Out1 := .next s

end Sys2Proof.Machine
end

