-- ==== Sys2Proof/Machine/Sdma.lean ====
section
/-! DEFINITION. Machine/Sdma.lean: the service DMA's records, its check, abort and resume (R438 to R449). What a burst moves
stands in Machine/SdmaMove.lean, since it reaches registers. -/

namespace Sys2Proof.Machine

/-- Channel c. -/
def State.chan (s : State) (c : Nat) : Sdma := look {} s.sdma c

/-- f applied to channel c. -/
def State.updChan (s : State) (c : Nat) (f : Sdma → Sdma) : State := { s with sdma := upd {} s.sdma c f }

/-- REQSEL (R449). -/
def Sdma.reqsel (x : Sdma) : Nat := bits x.ctl.toNat 14 10
/-- DFIX (R449). -/
def Sdma.dfix (x : Sdma) : Bool := x.ctl.getLsbD 9
/-- SFIX (R449). -/
def Sdma.sfix (x : Sdma) : Bool := x.ctl.getLsbD 8
/-- DSPACE (R449). -/
def Sdma.dspace (x : Sdma) : Nat := bits x.ctl.toNat 7 6
/-- SSPACE (R449). -/
def Sdma.sspace (x : Sdma) : Nat := bits x.ctl.toNat 5 4
/-- IEN (R449). -/
def Sdma.ien (x : Sdma) : Bool := x.ctl.getLsbD 3

/-- GO reads 1 from ARMED to HALTED (R446). -/
def Sdma.go (x : Sdma) : Bool := [1, 2, 3, 4, 7].contains x.state

/-- SDMA_CTL as read (R449). -/
def Sdma.ctlWord (x : Sdma) : Word := (x.ctl &&& 0x7FF8).setWidth 32 ||| BitVec.ofNat 32 (b2n x.go)

/-- Bytes an end of the transfer spans: a fixed end stays at its first burst, or at one register (R439; log entry 38). -/
def endSpan (space : Nat) (fix : Bool) (cnt : Nat) : Nat := if !fix then cnt else if space = 3 then 4 else min cnt 512

/-- The faults of one end of a transfer (R448). -/
def State.endFaults (s : State) (space a n cnt : Nat) : List (Bool × Nat) :=
  [(space = 3 && (a % 4 ≠ 0 || cnt % 4 ≠ 0), 0x7021),
   ((space = 0 && 2 ^ 64 < a + n) || (space = 1 && 2 ^ 38 < a + n) || (space = 2 && 0x400000 < a + n) || (space = 3 && 0x4000000 < a + n), 0x7022),
   (space = 1 && a + n ≤ 2 ^ 38 && !s.hbmOk ownerCtx a n, 0x7023)]

/-- The channel check (R448). -/
def State.sdmaReason (s : State) (c : Nat) : Nat :=
  let x := s.chan c
  let n := x.cnt.toNat
  pickReason (([(n = 0, 0x7020), (4 ≤ x.reqsel, 0x7024)] : List (Bool × Nat))
    ++ s.endFaults x.sspace x.src.toNat (endSpan x.sspace x.sfix n) n ++ s.endFaults x.dspace x.dst.toNat (endSpan x.dspace x.dfix n) n)

/-- The check of a channel ends (R446). -/
def State.sdmaCheckEnd (s : State) (c : Nat) : State :=
  let n := s.sdmaReason c
  (if n = 0 then s.updChan c fun x => { x with state := 1, resid := x.cnt, tries := 0, done := 0, aborting := false, inReadback := false, rbTries := 0, armedAt := s.clk.alm }
   else s).checkDone .sdma n c

/-- The channel ends ABORTED (R444): RESID, then its source. -/
def State.sdmaAborted (s : State) (c : Nat) : State :=
  (s.updChan c fun x => { x with state := 6, resid := BitVec.ofNat 32 (x.cnt.toNat - x.done), aborting := false, inReadback := false }).raise (8 + c)

/-- The abort acts (R444): the read-back of the last byte written first, where any burst has completed. -/
def State.sdmaAbortNow (s : State) (c : Nat) : State :=
  if (s.chan c).done = 0 then s.sdmaAborted c
  else s.updChan c fun x => { x with state := 4, aborting := true, rbTries := 0, inReadback := true }

/-- The bytes of the burst in flight (R439). -/
def Sdma.burstLen (x : Sdma) : Nat := min 512 (x.cnt.toNat - x.done)

/-- Whether the last burst of channel c succeeds in this SCLK (R447). -/
def State.lastBurstEnds (s : State) (c : Nat) : Bool :=
  let x := s.chan c
  x.cnt.toNat ≤ x.done + x.burstLen && s.comes fun i => match i with | .burstComplete j .ok _ => j = c | _ => false

/-- ABORT written (R444, R446, R447): it waits for the burst in flight, and has no effect where the last burst succeeds in the same SCLK or
has completed; in HALTED it acts also where the read-back failed (log entry 176). -/
def State.sdmaAbort (s : State) (c : Nat) : State :=
  let x := s.chan c
  if x.state = 2 then (if s.lastBurstEnds c then s else s.updChan c fun y => { y with aborting := true })
  else if x.state = 1 || x.state = 3 || x.state = 7 then s.sdmaAbortNow c
  else s

/-- RESUME written (R442, R446): a fresh retry count. -/
def State.sdmaResume (s : State) (c : Nat) : State :=
  if (s.chan c).state = 7 then
    s.updChan c fun x => if x.inReadback then { x with state := 4, rbTries := 0 } else { x with state := 2, tries := 0 }
  else s

/-- A write of SDMA_CTL (R40, R446, R447, R449). -/
def State.writeSdmaCtl (s : State) (c : Nat) (v : Word) : State :=
  let x := s.chan c
  let mask := BitVec.ofNat 16 (bits v.toNat 31 16)
  let w := BitVec.ofNat 16 (bits v.toNat 15 0)
  let on := fun (i : Nat) => mask.getLsbD i && w.getLsbD i
  if x.go then (if on 1 then s.sdmaAbort c else if on 2 then s.sdmaResume c else s)
  else
    let s1 := s.updChan c fun y => { y with ctl := ((y.ctl &&& ~~~mask) ||| (w &&& mask)) &&& 0x7FF8 }
    if on 0 then s1.queueCheck .sdma (.sdma c) else s1

/-- A write of word o of channel c's record (R446, R449). -/
def State.writeSdma (s : State) (r : Req) (c o : Nat) (v : Word) : State :=
  let x := s.chan c
  if (s.ccr .sdma).queue.contains (.sdma c) then s.holdWrite .sdma r (0x3A000 + c * 0x40 + o) v
  else if o = 0x14 then s.writeSdmaCtl c v
  else if x.go then s
  else if o = 0x00 || o = 0x04 then s.updChan c fun y => { y with src := setHalf y.src (o = 0x04) v }
  else if o = 0x08 || o = 0x0C then s.updChan c fun y => { y with dst := setHalf y.dst (o = 0x0C) v }
  else if o = 0x10 then s.updChan c fun y => { y with cnt := v }
  else if o = 0x28 then
    s.updChan c fun y => { y with tmoUs := BitVec.ofNat 16 (bits v.toNat 31 16), retry := BitVec.ofNat 4 (bits v.toNat 3 0) }
  else s

/-- A write of SDMA_CTL by row, one bit forced with its mask bit (log entry 9). -/
def sdmaRow (r : Req) (c : Nat) (v force : Word) (s : State) : Out1 :=
  if 64 ≤ c then no "no such channel" else busRow s r (0x3A000 + c * 0x40 + 0x14) (v ||| force) (s.writeSdma r c 0x14 (v ||| force))

/-- SDMA_GO (R439). -/
def execSdmaGo (r : Req) (c : Nat) (v : Word) (s : State) : Out1 := sdmaRow r c v 0x00010001 s

/-- SDMA_ABORT (R444). -/
def execSdmaAbort (r : Req) (c : Nat) (v : Word) (s : State) : Out1 := sdmaRow r c v 0x00020002 s

/-- SDMA_RESUME (R442); an ABORT in the same write wins (R447). -/
def execSdmaResume (r : Req) (c : Nat) (v : Word) (s : State) : Out1 := sdmaRow r c v 0x00040004 s

/-- Whether MBX_DATA can take or supply n bytes (R440, R501). -/
def State.mailboxMoves (s : State) (n : Nat) : Bool :=
  let t := s.trust
  (t.mbx = 1 && 4 * t.mbxIn.length + n ≤ 4 * ceilDiv t.mbxLen.toNat 4) || (t.mbx = 3 && n ≤ 4 * t.mbxOut.length)

/-- The request of channel c as it stands (R440; log entry 150): none asked for, SDREQ0 or SDREQ1 after its filter, the mailbox. -/
def State.sdmaRequest (s : State) (c : Nat) : Bool :=
  let x := s.chan c
  x.reqsel = 0 || (if x.reqsel = 3 then s.mailboxMoves (min 512 (x.cnt.toNat - x.done)) else (look {} s.evc.pins (x.reqsel + 1)).flt)

/-- BURST_START (R440, R446, R447): the request is sampled in ARMED, but from FLUSH2 to the wake; in RETRY the repeat starts. -/
def execBurstStart (c : Nat) (request : Bool) (s : State) : Out1 :=
  let x := s.chan c
  if 64 ≤ c || s.pwr.ps = 2 then no "no channel samples its request"
  else if x.state = 1 then
    when_ (s.pwr.phase ≠ 3 && (x.reqsel = 0 || request = s.sdmaRequest c)) "the request does not stand so"
      (if s.sdmaRequest c then s.updChan c fun y => { y with state := 2, tries := 0 } else s)
  else if x.state = 3 then .next (s.updChan c fun y => { y with state := 2 })
  else no "the channel starts no burst"

/-- SDMA_ARMED_TIMEOUT (R445, R447). -/
def execSdmaArmedTimeout (c : Nat) (s : State) : Out1 :=
  timeout (c < 64 && (s.chan c).state = 1 && (s.chan c).tmoUs ≠ 0 && s.pwr.ps ≠ 2 && s.elapsed (s.chan c).armedAt (1000 * (s.chan c).tmoUs.toNat)) (fun i => match i with | .burstStart j r => j = c && r | _ => false) "no ARMED timeout runs" s
    ((s.updChan c fun x => { x with state := 8, resid := BitVec.ofNat 32 (x.cnt.toNat - x.done) }).raise (8 + c))

end Sys2Proof.Machine
end

