-- ==== Sys2Proof/Machine/SpdmResponder.lean ====
section
/-! DEFINITION. Machine/SpdmResponder.lean: the SPDM responder (R500). Message layouts and error codes are DSP0274's, version 1.2,
which the spec names without repeating (log entry 73). -/

namespace Sys2Proof.Machine

/-- A request of R500's list, as the responder reads it. -/
inductive SpdmReq where
  | version
  | capabilities (xfer maxMsg : Nat)
  | algorithms (ext hash meas : Bool)
  | digests
  | certificate (slot ofs len : Nat)
  | challenge (slot summary : Nat) (nonce : BitVec 256)
  | measurements (slot index : Nat) (sign : Bool) (nonce : BitVec 256)
  | invalid
  deriving DecidableEq, Repr

/-- A response: its code and what follows it, from Param1 on. -/
abbrev SpdmResp := Nat × List Byte

/-- An ERROR response. -/
def spdmError (code : Nat) : SpdmResp := (0x7F, natLE 1 code ++ natLE 1 0)

/-- f applied to what SPDM keeps. -/
def State.updSpdm (s : State) (f : Spdm → Spdm) : State := s.setTrust fun t => { t with spdm := f t.spdm }

/-- The bytes of a request that its transcript takes: its code and operands (log entry 73). -/
def SpdmReq.bytes : SpdmReq → List Byte
  | .version => [0x84]
  | .capabilities x m => 0xE1 :: natLE 4 x ++ natLE 4 m
  | .algorithms e h m => [0xE3, BitVec.ofNat 8 (b2n e), BitVec.ofNat 8 (b2n h), BitVec.ofNat 8 (b2n m)]
  | .digests => [0x81]
  | .certificate sl o l => 0x82 :: natLE 1 sl ++ natLE 2 o ++ natLE 2 l
  | .challenge sl su n => 0x83 :: natLE 1 sl ++ natLE 1 su ++ natLE 32 n.toNat
  | .measurements sl ix sg n => 0xE0 :: natLE 1 sl ++ natLE 1 ix ++ natLE 1 (b2n sg) ++ natLE 32 n.toNat
  | .invalid => []

/-- A fresh 32-byte nonce. -/
def freshNonce (k : Nat) : List Byte := (List.range 32).map (Config.freeByte k)

/-- The combined SPDM prefix of DSP0274: the version string four times, zeros, and the context string of the response. -/
def spdmPrefix (what : String) : List Byte :=
  let p := ctxBytes "dmtf-spdm-v1.2.*"
  let c := ctxBytes what
  p ++ p ++ p ++ p ++ List.replicate (36 - c.length) 0 ++ c

/-- A signed response: SHA3-512 of the combined prefix and the transcript's digest, signed with an empty context string (R500). -/
def State.spdmSign (s : State) (what : String) (q : SpdmReq) (body : List Byte) : List Byte :=
  let m := Config.transcript s.trust.spdm.transcript q.bytes body
  signature s.freeCtr "" (sha3_512 (spdmPrefix what ++ natLE 64 m.toNat))

/-- The DMTF measurement block of Mi at index i + 1 (R500). -/
def Trust.measBlock (t : Trust) (i : Nat) : List Byte :=
  natLE 1 (i + 1) ++ natLE 1 1 ++ natLE 2 67 ++ natLE 1 (0x80 + (Config.measurementType i).toNat) ++ natLE 2 64
    ++ natLE 64 (look 0 t.meas i).toNat

/-- VERSION: 1.2 and 1.3. -/
def spdmVersion : SpdmResp := (0x04, natLE 2 0 ++ natLE 1 0 ++ natLE 1 2 ++ natLE 2 0x1200 ++ natLE 2 0x1300)

/-- CAPABILITIES: CTExponent 12; CERT, CHAL, MEAS with signatures, CHUNK; sizes 4,096 and 65,536. -/
def spdmCapabilities : SpdmResp :=
  (0x61, natLE 2 0 ++ natLE 1 0 ++ natLE 1 12 ++ natLE 2 0 ++ natLE 4 0x20016 ++ natLE 4 4096 ++ natLE 4 65536)

/-- ALGORITHMS: SHA3-512, raw-bit-stream measurements, and the ExtAsym entry where the requester offers it. -/
def spdmAlgorithms (ext hash meas : Bool) : SpdmResp :=
  (0x63, natLE 2 0 ++ natLE 2 (36 + 4 * b2n ext) ++ natLE 1 (b2n meas) ++ natLE 1 0 ++ natLE 4 (b2n meas) ++ natLE 4 0
    ++ natLE 4 (if hash then 0x20 else 0) ++ natLE 12 0 ++ natLE 1 (b2n ext) ++ natLE 1 0 ++ natLE 2 0
    ++ (if ext then natLE 1 4 ++ natLE 1 0 ++ natLE 2 0x8D65 else []))

/-- CERTIFICATE: a portion of a slot's chain. -/
def spdmCertificate (slot ofs len : Nat) : SpdmResp :=
  let ch := Config.spdmChain (slot = 1)
  if slot > 1 || ch.length ≤ ofs then spdmError 1
  else
    let n := min len (ch.length - ofs)
    (0x02, natLE 1 slot ++ natLE 1 0 ++ natLE 2 n ++ natLE 2 (ch.length - ofs - n) ++ sub ch ofs n)

/-- CHALLENGE_AUTH, signed. -/
def State.spdmChallenge (s : State) (slot summary : Nat) (nonce : BitVec 256) : SpdmResp × State :=
  if slot > 1 || !([0, 1, 0xFF]).contains summary then (spdmError 1, s)
  else if !s.trust.spdm.algOk then (spdmError 4, s)
  else
    let sum := if summary = 0 then [] else (List.range 64).map (Config.summaryByte summary s.trust.measBytes)
    let body := natLE 1 slot ++ natLE 1 3 ++ sha3_512 (Config.spdmChain (slot = 1)) ++ freshNonce (s.freeCtr + 1) ++ sum ++ natLE 2 0
    ((0x03, body ++ s.spdmSign "responder-challenge_auth signing" (.challenge slot summary nonce) body),
     { s with freeCtr := s.freeCtr + 2 })

/-- MEASUREMENTS: index 0 counts them, i + 1 is Mi, 0xFF all eight; signed where asked. -/
def State.spdmMeasurements (s : State) (slot index : Nat) (sign : Bool) (nonce : BitVec 256) : SpdmResp × State :=
  let t := s.trust
  let blocks := if index = 0xFF then (List.range 8).map t.measBlock else if index = 0 then [] else [t.measBlock (index - 1)]
  if (8 < index && index ≠ 0xFF) || (sign && slot > 1) then (spdmError 1, s)
  else if sign && !t.spdm.algOk then (spdmError 4, s)
  else
    let rec_ := blocks.flatten
    let body := natLE 1 (if index = 0 then 8 else 0) ++ natLE 1 (if sign then slot else 0) ++ natLE 1 blocks.length ++ natLE 3 rec_.length
      ++ rec_ ++ freshNonce (s.freeCtr + 1) ++ natLE 2 0
    ((0x60, body ++ (if sign then s.spdmSign "responder-measurements signing" (.measurements slot index sign nonce) body else [])),
     { s with freeCtr := s.freeCtr + 2 })

/-- What the responder answers (R500): requests out of their order get UnexpectedRequest, bad fields InvalidRequest. -/
def State.spdmAnswer (s : State) (q : SpdmReq) : SpdmResp × State :=
  let p := s.trust.spdm.phase
  match q with
  | .version => (spdmVersion, s.updSpdm fun _ => { phase := 1 })
  | .capabilities x m =>
    if p = 0 then (spdmError 4, s)
    else if x < 42 || m < x then (spdmError 1, s)
    else (spdmCapabilities, s.updSpdm fun y => { y with phase := 2, xfer := x, maxMsg := m })
  | .algorithms e h m =>
    if p < 2 then (spdmError 4, s)
    else (spdmAlgorithms e h m, s.updSpdm fun y => { y with phase := 3, algOk := e && h })
  | .digests =>
    if p < 3 then (spdmError 4, s)
    else ((0x01, natLE 1 0 ++ natLE 1 3 ++ sha3_512 (Config.spdmChain false) ++ sha3_512 (Config.spdmChain true)), s)
  | .certificate sl o l => if p < 3 then (spdmError 4, s) else (spdmCertificate sl o l, s)
  | .challenge sl su n => if p < 3 then (spdmError 4, s) else s.spdmChallenge sl su n
  | .measurements sl ix sg n => if p < 3 then (spdmError 4, s) else s.spdmMeasurements sl ix sg n
  | .invalid => (spdmError 1, s)

/-- A response joins the transcript with its request. -/
def State.spdmRecord (s : State) (q : SpdmReq) (r : SpdmResp) : State :=
  s.updSpdm fun y => { y with transcript := Config.transcript y.transcript q.bytes r.2 }

/-- A response as one message: SPDMVersion, the code, the rest. -/
def SpdmResp.message (r : SpdmResp) : List Byte := 0x12 :: BitVec.ofNat 8 r.1 :: r.2

/-- A response longer than the requester's DataTransferSize is kept for CHUNK_GET, and ERROR LargeResponse names its handle. -/
def State.spdmFit (s : State) (r : SpdmResp) : SpdmResp × State :=
  let n := r.message.length
  if s.trust.spdm.phase < 2 || n ≤ s.trust.spdm.xfer then (r, s)
  else
    let (v, s1) := s.free
    let h := v.toNat % 256
    ((0x7F, natLE 1 0x0F ++ natLE 1 0 ++ natLE 1 h), s1.updSpdm fun y => { y with chunkOut := some (h, 0, r.message) })

/-- The responder answers where the TRUST firmware runs (R494, R500). -/
def State.spdmReply (s : State) (k : State → SpdmResp × State) : Out1 :=
  if s.trust.boot = 2 then
    let x := k s
    .next (x.2.emit (.spdm x.1.1 x.1.2))
  else .next s

/-- A request other than the two chunk requests: an open chunk transfer ends. -/
def State.spdmRequest (s : State) (q : SpdmReq) : Out1 :=
  s.spdmReply fun x =>
    let a := (x.updSpdm fun y => { y with chunkIn := none, chunkOut := none }).spdmAnswer q
    (a.2.spdmRecord q a.1).spdmFit a.1

/-- GET_VERSION (R500). -/
def execGetVersion (s : State) : Out1 := s.spdmRequest .version

/-- GET_CAPABILITIES (R500). -/
def execGetCapabilities (_ctExp xferSize maxMsg : Nat) (s : State) : Out1 := s.spdmRequest (.capabilities xferSize maxMsg)

/-- NEGOTIATE_ALGORITHMS (R500). -/
def execNegotiateAlgorithms (ext hash meas : Bool) (s : State) : Out1 := s.spdmRequest (.algorithms ext hash meas)

/-- GET_DIGESTS (R500). -/
def execGetDigests (s : State) : Out1 := s.spdmRequest .digests

/-- GET_CERTIFICATE (R500). -/
def execGetCertificate (slot ofs len : Nat) (s : State) : Out1 := s.spdmRequest (.certificate slot ofs len)

/-- CHALLENGE (R500). -/
def execChallenge (slot summary : Nat) (nonce : BitVec 256) (s : State) : Out1 := s.spdmRequest (.challenge slot summary nonce)

/-- GET_MEASUREMENTS (R500). -/
def execGetMeasurements (slot index : Nat) (sign : Bool) (nonce : BitVec 256) (s : State) : Out1 :=
  s.spdmRequest (.measurements slot index sign nonce)

/-! ## Chunks (R500) -/

/-- The request a chunked message's bytes spell; requests that DSP0274 does not chunk are invalid. -/
def spdmParse (m : List Byte) : SpdmReq :=
  let p1 := fieldLE m 2 1
  match fieldLE m 1 1 with
  | 0x81 => .digests
  | 0x82 => .certificate (p1 % 16) (fieldLE m 4 2) (fieldLE m 6 2)
  | 0x83 => .challenge p1 (fieldLE m 3 1) (BitVec.ofNat 256 (fieldLE m 4 32))
  | 0xE0 => .measurements (fieldLE m 36 1 % 16) (fieldLE m 3 1) (bit p1 0) (BitVec.ofNat 256 (fieldLE m 4 32))
  | _ => .invalid

/-- A chunk of a request that is in order: what the request holds so far; none where it is not. -/
def Spdm.chunk (y : Spdm) (handle seq : Nat) (data : List Byte) : Option (List Byte) :=
  match y.chunkIn with
  | none => if seq = 0 then some data else none
  | some (h, n, bs) => if h = handle && n = seq && bs.length + data.length ≤ 65536 then some (bs ++ data) else none

/-- CHUNK_SEND (R500): the acknowledgement carries the response once the last chunk is in. -/
def execChunkSend (handle seq : Nat) (last : Bool) (data : List Byte) (s : State) : Out1 :=
  s.spdmReply fun x =>
    let ack := natLE 1 handle ++ natLE 2 seq
    if x.trust.spdm.phase < 2 then (spdmError 4, x)
    else match x.trust.spdm.chunk handle seq data with
      | none => (spdmError 1, x.updSpdm fun y => { y with chunkIn := none })
      | some bs =>
        if last then
          let q := spdmParse bs
          let a := (x.updSpdm fun y => { y with chunkIn := none, chunkOut := none }).spdmAnswer q
          let f := (a.2.spdmRecord q a.1).spdmFit a.1
          ((0x05, natLE 1 0 ++ ack ++ f.1.message), f.2)
        else ((0x05, natLE 1 0 ++ ack), x.updSpdm fun y => { y with chunkIn := some (handle, seq + 1, bs) })

/-- CHUNK_GET (R500): the next chunk of a large response. -/
def execChunkGet (handle seq : Nat) (s : State) : Out1 :=
  s.spdmReply fun x =>
    match x.trust.spdm.chunkOut with
    | none => (spdmError 4, x)
    | some (h, n, bs) =>
      if h ≠ handle || n ≠ seq then (spdmError 1, x.updSpdm fun y => { y with chunkOut := none })
      else
        let room := x.trust.spdm.xfer - 12 - (if n = 0 then 4 else 0)
        let part := bs.take room
        let rest := bs.drop room
        let done := rest.isEmpty
        ((0x06, natLE 1 (b2n done) ++ natLE 1 h ++ natLE 2 n ++ natLE 2 0 ++ natLE 4 part.length
            ++ (if n = 0 then natLE 4 bs.length else []) ++ part),
         x.updSpdm fun y => { y with chunkOut := if done then none else some (h, n + 1, rest) })

end Sys2Proof.Machine
end

