-- ==== Sys2Proof/Machine/RegRead.lean ====
section
/-! DEFINITION. Machine/RegRead.lean: what every register of the map returns to a read without side effect: BAR0 by block, the
partition page, the queue windows (R30 to R44 and the register tables of every chapter). -/

namespace Sys2Proof.Machine

/-- A Bool as one bit of a packed word. -/
def flag (b : Bool) : Nat × Nat := (1, b2n b)

/-! ## 64-bit values read low word first (R29, R44) -/

/-- The requester part of a latch's index. -/
def reqKey : Req → Nat
  | .vf n => 8 + n
  | r => reqCode r

/-- The latch of a requester for the counter whose low word stands at an offset. -/
def latchKey (r : Req) (ofs : Nat) : Nat := reqKey r * 2 ^ 27 + ofs

/-- The 64-bit value whose low word stands at a BAR0 offset: the Almanac, DONE, SRCH, CAP, SKIP, the timestamp at the FIFO's head,
the meter counters, ERRADDR, VERSION. -/
def State.wide (s : State) (ofs : Nat) : Option DWord :=
  let b := ofs / 0x10000
  let o := ofs % 0x10000
  if ofs = 0x10100 then some s.clk.alm
  else if 0x10 ≤ b && b < 0x22 then (if o = 0x108 then some (s.tile (b - 0x10)).doneCnt else none)
  else if ofs = 0x300018 then some s.astore.srch
  else if b = 0x33 then
    if 0xB000 ≤ o && o < 0xB400 && o % 16 = 8 then some (s.member ((o - 0xB000) / 16)).cap
    else if 0xB800 ≤ o && o < 0xC000 && o % 32 = 0x18 then some (s.arr ((o - 0xB800) / 32)).rebuild.skip
    else none
  else if ofs = 0x350134 then some (match s.net.fifo with | [] => 0 | t :: _ => t.ts)
  else if b = 3 then (if 0xA000 ≤ o && o < 0xB000 && o % 64 = 0x20 then some (s.chan ((o - 0xA000) / 64)).errAddr else none)
  else if ofs = 0x50014 then some s.trust.fwVer
  else if 0x400000 ≤ ofs && ofs < 0x500000 then
    let x := ofs % 0x100
    if 0x40 ≤ x && x < 0x78 && x % 8 = 0 then some (s.meterRead ((ofs - 0x400000) / 0x100) ((x - 0x40) / 8)) else none
  else none

/-- The 64-bit value whose low word stands at an offset of partition p's page: its Almanac copy and PV_MTR (R32, R421). -/
def State.wideVf (s : State) (p ofs : Nat) : Option DWord :=
  if ofs = 0x100 then some s.clk.alm
  else if 0x840 ≤ ofs && ofs < 0x878 && ofs % 8 = 0 then some (s.meterRead p ((ofs - 0x840) / 8))
  else none

/-! ## Blocks -/

/-- BLOCK_CCR and BLOCK_CCR_OBJ (R54). -/
def State.peekCcr (s : State) (b : CheckBlock) (o : Nat) : Option Word :=
  let c := s.ccr b
  if o = 0x1FF0 then some (packW [flag (!c.queue.isEmpty), flag c.fail, (14, 0), (16, c.reason.toNat)])
  else if o = 0x1FF4 then some c.obj
  else none

/-- GLB_GUARD (R47). -/
def State.guardWord (s : State) : Word :=
  let l := s.lock
  packW [(17, 0), (11, l.remain.toNat), (3, if l.isOpen then reqCode l.holder else 0), flag l.isOpen]

/-- GLB_GUARD_LOG (R48). -/
def State.guardLog (s : State) : Word :=
  packW [(8, s.glb.badKey.toNat), (8, s.glb.refused.toNat), (13, 0), (3, s.glb.lastSrc.toNat)]

/-- GLB_COMPAT (R5). -/
def compatWord : Variant → Word
  | .drz8640 => 0x86400101
  | .drz8620 => 0x86200101
  | .drz8610 => 0x86100101

/-- Block GLB (R2, R5, R47, R48, R52, R396, R475, R476, R526). -/
def State.peekGlb (s : State) (o : Nat) : Option Word :=
  let g := s.glb
  if o = 0x10 then some (capWord s.variant)
  else if o = 0x14 then some (compatWord s.variant)
  else if o = 0x20 then some s.guardWord
  else if o = 0x24 then some s.guardLog
  else if o = 0x30 then some g.buserr
  else if o = 0x34 then some g.buserrOfs
  else if o = 0x40 then some (packW [(15, 0), (17, s.pool)])
  else if 0x50 ≤ o && o < 0x60 then some (s.mapReg ((o - 0x50) / 4))
  else if o = 0x60 then some (g.spare.setWidth 32)
  else if o = 0x70 then some (packW [(3, g.start.toNat), (5, 0), (8, g.failCode.toNat), (16, g.startMs.toNat)])
  else if o = 0x74 then some (g.rstCause.setWidth 32)
  else s.peekCcr .glb o

/-- Block CLK (R525). -/
def State.peekClk (s : State) (o : Nat) : Option Word :=
  let c := s.clk
  if o = 0x10 then some (packW [(12, 0), (4, c.pdivEff.toNat), (12, 0), (4, (tri c.pdiv).toNat)])
  else if o = 0x14 then some (packW [flag c.locked, (23, 0), (8, c.lossCnt.toNat)])
  else if o = 0x20 then some c.trim
  else if 0x400 ≤ o && o < 0x600 then
    let t := look {} c.timers ((o - 0x400) / 0x10)
    some (match o % 0x10 with
      | 0 => packW [flag t.en, (31, 0)]
      | 4 => t.dlLo
      | 8 => hi32 t.deadline
      | _ => t.period)
  else none

/-- EVC_ROUTE of a source (R437). -/
def State.routeWord (s : State) (src : Nat) : Word :=
  let x := s.route src
  packW [flag x.en, flag x.pend, flag x.act, flag (isLevel src), flag x.wake, flag (isLevel src && s.levelIn src), (2, 0), (4, x.prio.toNat),
         flag x.pf0, (1, 0), (2, x.stw.toNat), (5, 0), (11, x.vec.toNat)]

/-- Block EVC (R437). -/
def State.peekEvc (s : State) (o : Nat) : Option Word :=
  if 0x100 ≤ o && o < 0x110 then
    let p := look {} s.evc.pins ((o - 0x100) / 4)
    some (packW [flag p.raw, flag p.flt, (18, 0), (12, p.filt.toNat)])
  else if o = 0x200 || o = 0x204 then some 0
  else if o = 0x208 then some (packW [(8, s.evc.hackBad.toNat), (8, 0), (16, s.evc.mergeCnt.toNat)])
  else if 0x300 ≤ o && o < 0x310 then
    let x := s.stw ((o - 0x300) / 4)
    some (packW [flag (x.seq.any (!·.exiting)), flag (x.seq.any (·.exiting)), (1, 0), (5, x.cur), (3, 0), (5, x.stack.length), (16, 0)])
  else if 0xA000 ≤ o && o < 0xC000 then some (s.routeWord ((o - 0xA000) / 4))
  else if 0xE000 ≤ o && o < 0xE400 then
    let x := look {} s.evc.privs ((o - 0xE000) / 4)
    some (packW [flag x.en, flag x.pend, flag x.act, (9, 0), (4, x.prio.toNat), (16, 0)])
  else s.peekCcr .evc o

/-- Block SDMA (R449). -/
def State.peekSdma (s : State) (o : Nat) : Option Word :=
  if 0xA000 ≤ o && o < 0xB000 then
    let x := s.chan ((o - 0xA000) / 64)
    match o % 64 with
    | 0x00 => some (lo32 x.src)
    | 0x04 => some (hi32 x.src)
    | 0x08 => some (lo32 x.dst)
    | 0x0C => some (hi32 x.dst)
    | 0x10 => some x.cnt
    | 0x14 => some x.ctlWord
    | 0x18 => some (packW [(4, x.state), flag x.dirWrite, (3, 0), (4, x.tries.toNat), (20, 0)])
    | 0x1C => some x.resid
    | 0x28 => some (packW [(16, x.tmoUs.toNat), (12, 0), (4, x.retry.toNat)])
    | _ => none
  else s.peekCcr .sdma o

/-- Word i of a VIGIL record (R469). -/
def VRec.word (r : VRec) : Nat → Word
  | 0 => packW [(1, 1), (2, r.cls.toNat), (13, r.ctx.toNat), (8, r.blk.toNat), (8, r.check.toNat)]
  | 1 => packW [(16, r.unit.toNat), (16, r.action.toNat)]
  | 2 => r.offset
  | 3 => packW [flag r.write, (15, 0), (16, r.status.toNat)]
  | 4 => lo32 r.alm
  | 5 => hi32 r.alm
  | 6 => r.seq
  | _ => 0

/-- Word i of a slot of a record ring; a slot not written reads 0. -/
def slotWord (m : SMap (Option VRec)) (slot i : Nat) : Word := match look none m slot with | some r => r.word i | none => 0

/-- Whether a logical tile is out of service (R474, R487). -/
def State.short (s : State) : Bool := (List.range s.tilesSvc).any fun l => s.physOf l = 0x1F

/-- Block VIGIL (R470, R482, R487). -/
def State.peekVigil (s : State) (o : Nat) : Option Word :=
  let v := s.vigil
  if o = 0x10 then some (packW [flag s.faultN, flag v.resetReq, flag s.short, (13, 0), (16, min v.unack.length 65535)])
  else if o = 0x14 then some v.logP
  else if o = 0x18 then some v.logC
  else if o = 0x1C then some v.uack
  else if o = 0x20 then some (packW [(16, v.supp.toNat), (16, v.drop.toNat)])
  else if o = 0x100 then some (packW [flag v.svcBusy, (3, v.svcResult.toNat), (28, 0)] ||| v.svcCtl)
  else if o = 0x104 then some (packW [(16, v.svcMs.toNat), (16, v.svcReason.toNat)])
  else if 0xA000 ≤ o && o < 0xE000 then some (slotWord v.ring ((o - 0xA000) / 32) (o % 32 / 4))
  else none

/-- Block TRUST (R418, R505). -/
def State.peekTrust (s : State) (o : Nat) : Option Word :=
  let t := s.trust
  if o = 0x10 then some t.bootWord
  else if o = 0x20 then some (packW [(2, 0), (2, t.actResult.toNat), (20, 0), (8, t.stagedSvn.toNat)])
  else if o = 0x30 then some (lo32 t.klAddr)
  else if o = 0x34 then some (hi32 t.klAddr)
  else if o = 0x38 then some (packW [(2, 0), (3, t.klResult.toNat), (27, 0)])
  else if o = 0x100 then some (t.mbxCmd.setWidth 32)
  else if o = 0x104 then some (t.mbxLen.setWidth 32)
  else if o = 0x108 then some (if t.mbx = 3 then t.mbxOut.headD 0 else 0)
  else if o = 0x10C then
    some (packW [(2, t.mbx), flag t.mbxSide, flag t.mbxOvr, (4, t.mbxNown.toNat), (4, t.mbxStatus.toNat), (3, 0), (17, t.mbxRlen)])
  else if o = 0x800 then some (lo32 t.mtrBase)
  else if o = 0x804 then some (hi32 t.mtrBase)
  else if o = 0x808 then some (packW [flag t.mtrEn, (27, 0), (4, t.mtrLog.toNat)])
  else if o = 0x80C then some t.mtrP
  else if o = 0x810 then some t.mtrC
  else if o = 0x814 then some (BitVec.ofNat 32 t.batches.length)
  else none

/-- Block PWR (R526). -/
def State.peekPwr (s : State) (o : Nat) : Option Word :=
  let p := s.pwr
  if o = 0x10 then some 0
  else if o = 0x14 then some (packW [(2, p.ps), flag (p.phase ≠ 0), (19, 0), (10, p.estW.toNat)])
  else if o = 0x20 then some (p.tj.setWidth 32)
  else if o = 0x24 then some (packW [(16, p.hyst.toNat), (16, p.thr.toNat)])
  else if o = 0x28 then some (p.capW.setWidth 32)
  else if o = 0x30 then some (packW [flag p.avsErr, (5, 0), (10, p.vout.toNat), (6, 0), (10, p.vset.toNat)])
  else none

/-- The registers of column processor c of tile t (R216 to R220). -/
def State.peekCp (s : State) (t c o : Nat) : Option Word :=
  let x := s.cpOf t c
  let mine := fun (r : RangeOp) => decide (r.cp = c)
  let ranges := (s.tile t).ranges
  match o with
  | 0x00 => some (packW [(31, 0), flag x.cen])
  | 0x04 =>
    some (packW [flag x.run, (1, 0), flag x.flushWait, (9, 0), (4, (x.cache.filter (·.locked)).length), (2, 0), (6, (x.cache.filter (·.dirty)).length), (2, 0),
                 (6, x.cache.length)])
  | 0x08 =>
    if s.rngeng then
      some (packW [flag (ranges.any mine), flag (ranges.any mine && !(ranges.head?.any mine)), (14, 0), (16, x.rngSkip.toNat)])
    else none
  | 0x0C => some (packW [flag x.faultValid, flag x.faultOvf, (14, 0), (16, x.faultCode.toNat)])
  | 0x10 => some (x.faultPc.setWidth 32)
  | 0x14 => some x.faultAddr
  | 0x18 => some (x.faultRix.setWidth 32)
  | _ => none

/-- Whether tile t completes its morsels before it leaves: for a swap or PS1, for NOCLAIM, for Solstice, or as its logical tile has
left the share (R94, R96, R100). -/
def State.leaving (s : State) (t : Nat) : Bool :=
  let x := s.tile t
  let fs := s.flightsOn t
  !fs.isEmpty && (x.drain || x.noclaim || fs.any (fun f => f.ctx.toNat < 4096 && (s.part f.ctx.toNat).state = 2)
    || (s.logOf t).any fun l => fs.any fun f => f.ctx.toNat < 4096 && !(s.part f.ctx.toNat).tiles.getLsbD l)

/-- Block TILE of physical tile t (R96 to R100, R216 to R220). -/
def State.peekTile (s : State) (t o : Nat) : Option Word :=
  let x := s.tile t
  let fs := s.flightsOn t
  if o = 0x100 then
    let eqx := match fs with | f :: _ => f.paired | [] => false
    let pipe := match fs with | f :: _ => f.pipe | [] => 0
    some (packW [flag !fs.isEmpty, flag eqx, flag (s.leaving t), (13, x.ctx.toNat), (8, pipe), (6, 0), (2, fs.length)])
  else if o = 0x104 then some (BitVec.ofNat 32 (match fs with | f :: _ => f.m | [] => 0))
  else if o = 0x110 then some (x.abn.setWidth 32)
  else if o = 0x114 then some (packW [(31, 0), flag x.noclaim])
  else if 0x200 ≤ o && o < 0x280 then s.peekCp t ((o - 0x200) / 32) (o % 32)
  else none

/-- Block ASTORE (R227, R229, R245). -/
def State.peekAstore (s : State) (o : Nat) : Option Word :=
  let a := s.astore
  if o = 0x10 then some (packW [(11, a.sweeps.toNat), (21, a.pos.toNat)])
  else if o = 0x14 then some (packW [(8, a.corr.toNat), (8, a.uncorr.toNat), (10, 0), (6, a.lastBank.toNat)])
  else if 0xA000 ≤ o && o < 0xA080 then
    let b := (o - 0xA000) / 4
    let x := s.bank b
    some (packW [flag x.clearing, flag x.inuse, flag x.fault, (13, (tri x.owner).toNat), (10, 0), (6, s.physBank b)])
  else if 0xA800 ≤ o && o < 0xAC00 then
    let t := s.atable ((o - 0xA800) / 16)
    some (match o % 16 with
      | 0 => packW [flag t.enable, flag t.fault, flag t.rsp, (13, t.ctx.toNat), (2, 0), (2, t.wcode.toNat), (3, 0), (9, t.interval.toNat)]
      | 4 => packW [(16, 0), (8, t.kattr.toNat), (8, t.keytype.toNat)]
      | 8 => t.banks
      | _ => BitVec.ofNat 32 (s.used t).length)
  else s.peekCcr .astore o

/-- Block CMP (R261). -/
def State.peekCmp (s : State) (o : Nat) : Option Word :=
  let c := s.cmp
  if o = 0x10 then some (c.storMin.setWidth 32)
  else if o = 0x14 then some (packW [(16, 0), (8, c.vfyCnt.toNat), (4, 0), (4, c.lastEng.toNat)])
  else if 0xA000 ≤ o && o < 0xA040 then
    let e := (o - 0xA000) / 4
    let out := look false c.outSvc e
    some (packW [flag (!out), flag (s.testing 2 e), (27, 0), (3, (c.jobs.filter fun j => j.engine = some e).length)])
  else none

/-- An array's record (R306). -/
def State.peekArr (s : State) (a o : Nat) : Option Word :=
  let x := s.arr a
  if o = 0x00 then
    some (packW [(4, x.state), flag x.rinc, flag x.mirror, flag (x.rebuild.state = 2), flag (x.reshape.state ≠ 0),
                 flag (x.state ≠ 0 && x.freeStripes < x.hvLow), flag x.fault, (16, 0),
                 (6, (s.failedMembers a).length)])
  else if o = 0x04 then some (tri x.geom)
  else if 0x08 ≤ o && o < 0x2C then some (x.posReg ((o - 0x08) / 4))
  else if o = 0x2C then
    some (packW [(5, x.cacheU.toNat), (14, if x.state = 0 then 0 else s.effective a / 256), (13, ceilDiv x.cacheUsed 256)])
  else if o = 0x30 then some (packW [(8, x.hvThresh.toNat), (8, x.hvRate.toNat), (16, x.freeStripes * 1000 / x.s)])
  else if o = 0x34 then some (BitVec.ofNat 32 x.s)
  else if o = 0x38 then some (x.vault.setWidth 32)
  else none

/-- A rebuild and reshape record (R336). -/
def State.peekRb (s : State) (a o : Nat) : Option Word :=
  let x := s.arr a
  match o with
  | 0x00 => some (packW [(3, x.rebuild.state), (2, x.reshape.state), (13, 0), (6, x.rebuild.pos), (2, 0), (6, x.rebuild.member)])
  | 0x04 => some (BitVec.ofNat 32 x.rebuild.cur)
  | 0x08 => some (packW [(4, 0), (12, x.reshape.rate.toNat), (4, 0), (12, x.rebuild.rate.toNat)])
  | 0x0C => some (BitVec.ofNat 32 x.reshape.b)
  | 0x10 => some (BitVec.ofNat 32 x.reshape.bd)
  | 0x14 => some (packW [(16, x.lostCnt.toNat), (16, x.relocCnt.toNat)])
  | _ => none

/-- The byte of ARC_VOLST that describes volume v (R308). -/
def State.volByte (s : State) (v : Nat) : Nat :=
  let x := s.vol v
  b2n (x.state = 1) * 128 + b2n x.exported.isSome * 64 + b2n x.shared * 32 + x.state

/-- Block ARC (R303 to R309, R335, R336). -/
def State.peekArc (s : State) (o : Nat) : Option Word :=
  let c := s.arc
  if o = 0x10 then some (c.mapc.setWidth 32)
  else if o = 0x20 then some (packW [(1, 0), flag c.destroyDone, flag c.destroyRefused, (23, 0), (6, c.destroyArr.toNat)])
  else if o = 0x24 then some (c.mbrTmo.setWidth 32)
  else if o = 0x30 then
    some (packW [(2, c.pf), (6, 0), (8, if c.pf = 0 then 0 else min 255 ((s.alm - c.freezeAlm.toNat) / 1000000)), (9, 0),
                 (7, (c.arrays.filter fun e => e.2.isSealed).length)])
  else if 0x100 ≤ o && o < 0x118 then
    let p := (o - 0x100) / 4
    some (packW [(20, 0), (4, (look 0 c.up p).toNat), (6, 0), (2, (look 0 c.bifur p + 2).toNat)])
  else if 0xA000 ≤ o && o < 0xB000 then s.peekArr ((o - 0xA000) / 64) (o % 64)
  else if 0xB000 ≤ o && o < 0xB400 then
    let x := s.member ((o - 0xB000) / 16)
    match o % 16 with
    | 0 => some (packW [(4, x.state), (6, x.array), (6, x.pos), (4, x.lbas.toNat), (12, x.mwrate.toNat)])
    | 4 => some (packW [(13, 0), (3, x.dp.toNat), (16, x.rid.toNat)])
    | _ => none
  else if 0xB800 ≤ o && o < 0xC000 then s.peekRb ((o - 0xB800) / 32) (o % 32)
  else if 0xC000 ≤ o then
    let v := o - 0xC000
    some (packW [(8, s.volByte (v + 3)), (8, s.volByte (v + 2)), (8, s.volByte (v + 1)), (8, s.volByte v)])
  else s.peekCcr .arc o

/-- Block HIF (R342, R362). -/
def State.peekHif (s : State) (o : Nat) : Option Word :=
  if o = 0x10 then some (s.hif.ovfMib.setWidth 32)
  else if 0xA000 ≤ o && o < 0xE000 then
    let n := (o - 0xA000) / 4 + 1
    some (packW [(4, 0), (12, (look 0 s.hif.granted n).toNat), (4, 0), (12, (look 15 s.hif.vfCount n).toNat)])
  else s.peekCcr .hif o

/-- Block NET (R391, R392). -/
def State.peekNet (s : State) (o : Nat) : Option Word :=
  let n := s.net
  if 0x100 ≤ o && o < 0x108 then
    let x := s.port ((o - 0x100) / 4)
    some (packW [flag x.link, (7, 0), (4, x.lanes.toNat), (15, 0), flag x.jumbo, (2, x.media.toNat), (2, x.mode.toNat)])
  else if 0x110 ≤ o && o < 0x118 then some (s.port ((o - 0x110) / 4)).uncorr
  else if o = 0x120 then some n.ptpLo
  else if o = 0x124 then some (hi32 n.ptpOfs)
  else if o = 0x130 then
    some (match n.fifo with
      | [] => 0
      | t :: _ => packW [(1, 1), (1, t.port), flag t.tx, (9, 0), (4, t.msgType.toNat), (16, t.seqId.toNat)])
  else if o = 0x13C then some 0
  else if 0xA000 ≤ o && o < 0xA200 then
    let x := look ({} : NetIf) n.ifs ((o - 0xA000) / 32)
    let w := o % 32 / 4
    if w = 0 then some x.ctl else if w ≤ 4 then some (look 0 x.addr (w - 1)) else none
  else s.peekCcr .net o

/-- Block PLK (R467). -/
def State.peekPlk (s : State) (o : Nat) : Option Word :=
  let p := s.plk
  if 0x100 ≤ o && o < 0x110 then
    let x := s.link ((o - 0x100) / 4)
    some (packW [(3, x.state), flag x.conflict, (3, x.peer.toNat), (1, 0), (8, x.insvc.toNat), (8, 0), (8, x.offl.toNat)])
  else if o = 0x200 then some (packW [flag p.tsrc, flag p.lock, (14, 0), (16, p.ofs.toNat)])
  else if o = 0x210 then
    some (packW [flag p.mirEn, (3, p.mirState), flag p.holdCopy, (1, 0), flag p.mirFail, (9, 0), (16, p.mirTmo.toNat)])
  else if 0xA000 ≤ o && o < 0xA800 then
    let x := s.binding ((o - 0xA000) / 32)
    let w := o % 32 / 4
    if w = 0 then some (packW [flag x.en, (7, 0), (8, x.devmask.toNat), (3, 0), (13, x.part.toNat)])
    else if w ≤ 4 then some (packW [(3, 0), (13, (look 0 x.ctxs (2 * w - 1)).toNat), (3, 0), (13, (look 0 x.ctxs (2 * w - 2)).toNat)])
    else if w = 5 then some (packW [(16, 0), (8, x.up.toNat), (8, x.lost.toNat)])
    else none
  else s.peekCcr .plk o

/-! ## Tables -/

/-- Queues of a context with a half enabled (R393). -/
def State.queuesUsed (s : State) (ctx : Nat) : Nat := (s.hif.queues.filter fun e => (e.2.sqen || e.2.cqen) && e.2.ctxN = ctx).length

/-- Word o of partition p's record (R393); offsets not listed read 0. -/
def State.peekPart (s : State) (p o : Nat) : Word :=
  let x := s.part p
  match o with
  | 0x00 => packW [flag (tri x.en), (3, x.state), flag x.fixslot, flag x.eqx, flag (tri x.ksrc), flag (s.keyValid p), (2, x.stw.toNat), (22, 0)]
  | 0x04 => x.gen.setWidth 32
  | 0x08 => packW [(8, 0), (8, x.weight.toNat), (16, x.tiles.toNat)]
  | 0x0C => (tri x.pageMax).setWidth 32
  | 0x10 => packW [(15, 0), (17, s.pagesUsed p)]
  | 0x14 => packW [(3, 0), (13, (tri x.qmax).toNat), (3, 0), (13, s.queuesUsed p)]
  | 0x18 => packW [(3, 0), (13, ceilDiv (s.wcUsed p) 256), (3, 0), (13, (tri x.wcMax).toNat)]
  | 0x1C => x.ovfMib.setWidth 32
  | 0x20 => packW [(16, x.slotOfs.toNat), (16, x.slotLen.toNat)]
  | 0x24 => x.stale
  | 0x28 => lo32 x.tag
  | 0x2C => hi32 x.tag
  | _ => 0

/-- Q_INFL.HELD and INFLIGHT (R345). -/
def Queue.heldCnt (x : Queue) : Nat := min x.held.length 65535

/-- Word o of queue q's record (R345). -/
def State.peekQ (s : State) (q o : Nat) : Word :=
  let x := s.queue q
  match o with
  | 0x00 => packW [flag x.sqen, flag x.cqen, flag x.ien, (8, 0), (5, x.cqlog.toNat), (3, 0), (5, x.sqlog.toNat), (4, 0), (4, x.weight.toNat)]
  | 0x04 => packW [(3, 0), (13, x.ctxN), (4, 0), (12, (tri x.slot).toNat)]
  | 0x08 => packW [(16, x.cqq.toNat), (5, 0), (11, x.vec.toNat)]
  | 0x0C => packW [(16, x.modUs.toNat), (16, x.modCnt.toNat)]
  | 0x10 => lo32 x.sqb
  | 0x14 => hi32 x.sqb
  | 0x18 => lo32 x.cqb
  | 0x1C => hi32 x.cqb
  | 0x20 => x.sqp
  | 0x24 => x.sqc
  | 0x28 => x.cqp
  | 0x2C => x.cqc
  | 0x30 => x.ctmo.setWidth 32
  | 0x34 => packW [(16, min (s.cmdsOfSq q).length 65535), (16, x.heldCnt)]
  | _ => 0

/-- A unit of a direct window as PF0 reaches it (R243). -/
def State.peekWindow (s : State) (ofs : Nat) : Option Word :=
  let x := ofs % 0x1000000
  let b := x / 0x80000
  let o := (tri (s.bank b).owner).toNat
  let u := s.unit (s.physBank b * 65536 + x % 0x80000 / 8)
  let d := if ofs < 0x2000000 then u.data else u.mask
  if (o = ownerCtx || o = 0x1FFF) && !(s.bank b).clearing then some (if bit ofs 2 then hi32 d else lo32 d) else none

/-! ## The whole map -/

/-- The canonical area, the PEEK mirror and the tables of block b of BAR0. -/
def State.peekBlock (s : State) (b o : Nat) : Option Word :=
  if b = 0 then s.peekGlb o
  else if b = 1 then s.peekClk o
  else if b = 2 then s.peekEvc o
  else if b = 3 then s.peekSdma o
  else if b = 4 then s.peekVigil o
  else if b = 5 then s.peekTrust o
  else if b = 6 then s.peekPwr o
  else if 0x10 ≤ b && b < 0x22 then s.peekTile (b - 0x10) o
  else if b = 0x30 then s.peekAstore o
  else if b = 0x31 then s.peekCmp o
  else if b = 0x33 then s.peekArc o
  else if b = 0x34 then s.peekHif o
  else if b = 0x35 then s.peekNet o
  else if b = 0x36 then s.peekPlk o
  else none

/-- The canonical offset that an offset of a block's PEEK mirror shows (R37). -/
def canonOfs (ofs : Nat) : Nat := if 0x8000 ≤ ofs % 0x10000 && ofs % 0x10000 < 0xA000 then ofs - 0x8000 else ofs

/-- What a requester reads at a BAR0 offset without side effect; none where the location is reserved for reads (R30, R37, R43, R51). -/
def State.peek (s : State) (r : Req) (ofs : Nat) : Option Word :=
  if ofs % 4 ≠ 0 || !s.serves ofs || !s.presentAt (canonOfs ofs) then none
  else if 0x1000000 ≤ ofs then (if ofs < 0x3000000 then s.peekWindow ofs else none)
  else if 0x800000 ≤ ofs then (if ofs < 0xC00000 then some (s.peekQ ((ofs - 0x800000) / 64) (ofs % 64)) else none)
  else if 0x400000 ≤ ofs then
    if 0x500000 ≤ ofs then none
    else match s.wide ofs with
      | some d => some (lo32 d)
      | none =>
        if ofs % 8 = 4 && (s.wide (ofs - 4)).isSome then some (look 0 s.latches (latchKey r (ofs - 4)))
        else some (s.peekPart ((ofs - 0x400000) / 0x100) (ofs % 0x100))
  else
    let c := canonOfs ofs
    match s.wide c with
    | some d => some (lo32 d)
    | none =>
      if 4 ≤ c && (s.wide (c - 4)).isSome then some (look 0 s.latches (latchKey r (c - 4)))
      else s.peekBlock (c / 0x10000) (c % 0x10000)

/-- What VF p + 1 reads at an offset of its partition page without side effect (R32, R421, R471). -/
def State.peekVf (s : State) (p ofs : Nat) : Option Word :=
  let x := s.part p
  let c := canonOfs ofs
  let quota := fun (o : Nat) => s.peekPart p (o - 0x800 + 8)
  if ofs % 4 ≠ 0 || 0xA000 ≤ ofs then none
  else match s.wideVf p c with
  | some d => some (lo32 d)
  | none =>
    if 4 ≤ c && (s.wideVf p (c - 4)).isSome then some (look 0 s.latches (latchKey (.vf (p + 1)) (c - 4)))
    else if c = 0x0 then some (packW [(16, x.gen.toNat), (1, 0), (3, x.state), (12, p)])
    else if c = 0x4 then some x.stale
    else if c = 0x230 then some x.buserr
    else if c = 0x234 then some x.buserrOfs
    else if 0x400 ≤ c && c < 0x800 then some (slotWord s.vigil.page (32 * p + (c - 0x400) / 32) (c % 32 / 4))
    else if 0x800 ≤ c && c < 0x81C then some (quota c)
    else if c = 0x81C then some (packW [(30, 0), flag x.fixslot, flag x.eqx])
    else if c = 0x1000 then some (x.evt.setWidth 32)
    else if c = 0x1004 then some (packW [(17, 0), (11, x.evVec.toNat), (4, x.evEn.toNat)])
    else none

/-- The queue status register (R349). -/
def State.queueStatus (s : State) (q : Nat) : Word :=
  let x := s.queue q
  packW [flag x.sqen, flag x.cqen, flag (s.stopped q), flag x.cqOvf, flag x.ferr, flag (s.fetchHeld q), flag x.dberr, (9, 0), (16, x.heldCnt)]

/-- What a function reads at an offset of BAR2 (R33, R34). -/
def State.peekBar2 (s : State) (r : Req) (ofs : Nat) : Option Word :=
  match s.windowQueue r (ofs / 0x1000) with
  | none => none
  | some q =>
    let o := ofs % 0x1000
    if ofs % 4 ≠ 0 then none
    else if o = 0 then some (s.queue q).sqp
    else if o = 4 then some (s.queue q).cqc
    else if o = 0x40 then some (s.queueStatus q)
    else if 0x100 ≤ o && o < 0x200 then some 0
    else none

/-- A read without side effect of any location by any requester; none where the location is reserved. -/
def State.peekAt (s : State) (r : Req) (sp : Space) (ofs : Nat) : Option Word :=
  match sp, r with
  | .bar0, .vf n => s.peekVf (n - 1) ofs
  | .bar0, _ => s.peek r ofs
  | .bar2, _ => s.peekBar2 r ofs

end Sys2Proof.Machine
end

