-- ==== Sys2Proof/Machine/Solstice.lean ====
section
/-! DEFINITION. Machine/Solstice.lean: the save image of a partition, its sealing and its restore (R408, R410 to R414). -/

namespace Sys2Proof.Machine

/-! ### The save image (R410 to R412) -/

/-- The queues bound to partition p. -/
def State.queuesOf (s : State) (p : Nat) : List Nat := s.hif.queues.filterMap fun e => if e.2.ctxN = p then some e.1 else none

/-- The slot of a queue. -/
def State.slotOf (s : State) (q : Nat) : Nat := (tri (s.queue q).slot).toNat

/-- What partition p's save image holds (R411). -/
def State.saveContent (s : State) (p : Nat) (image : List Byte) : SaveImage :=
  let qs := (s.queuesOf p).filter fun q => (s.queue q).sqen || (s.queue q).cqen
  { image := image, key := look none s.trust.keys p
    part := { s.part p with recSeq := (s.part p).recSeq + 1 }
    queues := qs.map fun q =>
      let x := s.queue q
      { x with cqq := BitVec.ofNat 16 (s.slotOf x.cqq.toNat), held := x.held.map (fun (h : HeldCqe) => { h with sq := s.slotOf h.sq })
               push := [], pushed := [] }
    plans := s.plans.filterMap fun e =>
      if p * 1024 ≤ e.1 && e.1 < (p + 1) * 1024 then e.2.map fun pl => (e.1 - p * 1024, pl) else none
    runs := s.runs.filterMap fun r =>
      if r.ctx.toNat = p then
        match s.cmd? r.cmd with
        | some c => match c.origin with | .ring q => some (r, c, s.slotOf q, s.slotOf c.cq) | .net _ _ => none
        | none => none
      else none
    tables := s.astore.tables.filterMap fun e =>
      if e.2.enable && e.2.ctx.toNat = p then
        some (e.1, e.2, ((List.range 32).filter fun b => e.2.banks.getLsbD b).flatMap fun b =>
          (List.range 65536).map fun u => look { data := -1, mask := 0 } s.astore.units (s.physBank b * 65536 + u))
      else none
    pages := s.pageList p
    hbm := (s.hbm.filter fun c => p * 2 ^ 38 ≤ c.1 && c.1 < (p + 1) * 2 ^ 38).map fun c => (c.1 - p * 2 ^ 38, c.2) }

/-- COUNT and LENGTH of the eight sections of a save image (R411): 64 B a queue, 32 B a held completion; the layouts the
rule leaves open have free lengths (log entry 35). -/
def SaveImage.sections (m : SaveImage) : List (Nat × Nat × Nat) :=
  let held := m.queues.foldl (fun n q => n + q.held.length) 0
  let planBytes := m.plans.foldl (fun n e => n + e.2.image.length) 0
  [(1, 1, Config.saveLength 1 0), (2, m.queues.length, 64 * m.queues.length), (3, held, 32 * held),
   (4, m.plans.length, planBytes + Config.saveLength 4 m.plans.length), (5, m.runs.length, Config.saveLength 5 m.runs.length),
   (6, m.tables.length, Config.saveLength 6 m.tables.length), (7, 1, Config.saveLength 7 0),
   (8, m.pages.length, Config.saveLength 8 m.pages.length + 0x200000 * m.pages.length)]

/-- The sections with their offsets: each starts on a 4 KiB boundary (R410). -/
def placeSections : Nat → List (Nat × Nat × Nat) → List (Nat × Nat × Nat × Nat)
  | _, [] => []
  | o, (t, n, l) :: r => (t, n, o, l) :: placeSections (o + roundUp l 4096) r

/-- IMAGE_LEN (R410). -/
def SaveImage.length (m : SaveImage) : Nat := (m.sections).foldl (fun o e => o + roundUp e.2.2 4096) 0x1000

/-- An image with KWRAP taken as zero (R412). -/
def withoutWrap (bs : List Byte) : List Byte := sub bs 0 0x40 ++ List.replicate 104 0 ++ bs.drop 0xA8

/-- KWRAP (R412): the partition key and the image's digest D, wrapped under the migration key. -/
def wrapImage (migration key : BitVec 256) (bs : List Byte) : List Byte :=
  aesWrap (keyBytes32 migration) (keyBytes32 key ++ shake256 64 (withoutWrap bs))

/-- The image's bytes: header and directory as R410 gives them, the sections encrypted, KWRAP over all of it (R412). -/
def State.saveBytes (s : State) (p : Nat) (m : SaveImage) : List Byte :=
  let x := s.part p
  let key := fun (k : Nat) => (look none s.trust.keys k).getD 0
  let dir := (placeSections 0x1000 m.sections).flatMap fun e =>
    natLE 2 e.1 ++ natLE 2 0 ++ natLE 4 e.2.1 ++ natLE 8 e.2.2.1 ++ natLE 8 e.2.2.2 ++ natLE 8 0
  let head := natLE 4 0x49535A44 ++ natLE 2 1 ++ natLE 2 1 ++ natLE 2 p ++ natLE 2 x.gen.toNat ++ natLE 4 8
    ++ natLE 8 m.length ++ natLE 8 x.almFrozen.toNat ++ deviceId ++ natLE 8 x.tag.toNat ++ natLE 8 m.part.recSeq
    ++ List.replicate 128 0 ++ dir
  let body := (List.range (m.length - 0x1000)).map fun i => Config.sealedByte s.freeCtr (0x1000 + i)
  let bs := sub head 0 0x1000 ++ xtsUnits (key p) (body.length / 4096) 1 body
  sub bs 0 0x40 ++ wrapImage (key 4097) (key p) bs ++ bs.drop 0xA8

/-- The tables of a partition as a save reads them: their units are checked (R234). -/
def State.checkTables (s : State) (p : Nat) : State :=
  s.astore.tables.foldl (fun (x : State) e => if e.2.enable && e.2.ctx.toNat = p then x.checkTable e.2 0 e.2.size else x) s

/-- PART_SAVE (R408, R410). -/
def execPartSave (id : Nat) (s : State) : Out1 :=
  if (s.cmd? id).any s.hostWaits then no "the command waits for its function"
  else partCmd s id 0xAA "no PART_SAVE with this id" [(10, 6)] (fun x => x.state = 3) (fun c => c.f 16 8 % 4096 = 0) fun c p =>
    let m := s.saveContent p []
    let n := m.length
    let w0 := BitVec.ofNat 32 n
    let w1 := BitVec.ofNat 32 (n / 2 ^ 32)
    if c.f 24 8 < n then s.complete id 0x0300 w0 w1
    else
      let s1 := s.checkTables p
      let bs := s1.saveBytes p m
      { (s1.hostWrite c.fn (c.f 16 8) bs) with images := s1.saveContent p bs :: s1.images, freeCtr := s1.freeCtr + 1 }.complete id 0 w0 w1

/-! ### Restore (R413) -/

/-- The image a restore finds (R413 step 2): KWRAP unwraps under this device's migration key to the partition key and the digest of
these bytes. What the sections hold is known of the images the device has written (R411; log entry 35). -/
def State.openImage (s : State) (bs : List Byte) : Option SaveImage :=
  match (look none s.trust.keys 4097).bind fun k => aesUnwrap (keyBytes32 k) (sub bs 0x40 104) with
  | none => none
  | some kd =>
    if kd.drop 32 = shake256 64 (withoutWrap bs) then s.images.find? fun m => m.image = bs && m.key = some (key256 (kd.take 32)) else none

/-- PART_RESTORE, up to its check (R413 steps 1 and 2). -/
def execPartRestore (id : Nat) (s : State) : Out1 :=
  if (s.cmd? id).any s.hostWaits then no "the command waits for its function"
  else partCmd s id 0xAB "no PART_RESTORE with this id" [(10, 6)] (fun x => x.state = 0 && !tri x.en) (fun c => c.f 16 8 % 4096 = 0)
    fun c _ =>
    let a := c.f 16 8
    let h := s.hostRead c.fn a 0x40
    let n := fieldLE h 0x10 8
    if s.hostFails c.fn a (c.f 24 8) then s.done id 0x0106
    else if c.f 24 8 < 0x1000 || fieldLE h 0 4 ≠ 0x49535A44 || fieldLE h 4 2 ≠ 1 || 1 < fieldLE h 6 2 then s.done id 0x0604
    else if c.f 24 8 < n || (s.openImage (s.hostRead c.fn a n)).isNone then s.done id 0x0603
    else (s.phase id .checking).queueCheck .glb (.partRestore id)

/-- The banks a saved table takes on the target: the lowest-numbered of the partition with INUSE = 0 (R244). -/
def State.freeBanks (s : State) (p : Nat) : List Nat := (s.banksOf p).filter fun b => !(s.bank b).inuse

/-- The queue of partition p with a slot and both halves disabled (R413). -/
def State.slotQueue (s : State) (p slot : Nat) : Option Nat :=
  (s.queuesOf p).find? fun q => s.slotOf q = slot && !(s.queue q).sqen && !(s.queue q).cqen

/-- Pages the image needs: mapped, plans, runs and the overflow area (R395, R398). -/
def SaveImage.pagesNeeded (m : SaveImage) (x : Part) : Nat :=
  m.pages.length + m.plans.foldl (fun n e => n + planPages e.2.image.length) 0 + m.runs.foldl (fun n e => n + e.1.pages) 0
    + ceilDiv x.ovfMib.toNat 2

/-- The check of a restore into partition p (R395, R413 step 3). -/
def State.restoreReason (s : State) (p : Nat) (m : SaveImage) : Nat :=
  let x := s.part p
  let banks := m.tables.foldl (fun n e => n + popCount e.2.1.banks) 0
  pickReason (s.partFaults p x ++
    [(!m.tables.isEmpty && !s.astp, 0x1004),
     (m.queues.any (fun q => (s.slotQueue p (tri q.slot).toNat).isNone)
        || m.tables.any (fun e => (look {} s.astore.tables e.1).enable || (look {} s.astore.tables e.1).destroyCmd.isSome) || (s.freeBanks p).length < banks, 0x1017),
     ((tri x.pageMax).toNat < m.pagesNeeded x, 0x1018)])

/-- Tables placed in the lowest-numbered free banks, in table order (R244). -/
def State.placeTables (s : State) (p : Nat) : List (Nat × ATable × List AUnit) → State
  | [] => s
  | (n, t, us) :: r =>
    let bs := (s.freeBanks p).take (popCount t.banks)
    let s1 := bs.zipIdx.foldl (fun (x : State) e =>
      let k := x.physBank e.1 * 65536
      (((us.drop (65536 * e.2)).take 65536).zipIdx.foldl (fun (y : State) u => y.putUnit (k + u.2) u.1) x).updBank e.1
        fun b => { b with inuse := true }) s
    let mask := bs.foldl (fun (w : Word) b => w ||| BitVec.ofNat 32 (2 ^ b)) 0
    let t' := { t with ctx := BitVec.ofNat 13 p, banks := mask }
    State.placeTables { s1 with astore := { s1.astore with tables := put {} s1.astore.tables n t' } } p r

/-- Step 4 and 5 of a restore (R413): key, TAG and meter, pages, plans, tables, queues and held completions, runs; the queues
are enabled with HOLD set, GEN increments and the partition enters FROZEN. -/
def State.placeImage (s : State) (p : Nat) (m : SaveImage) : State :=
  let x := s.part p
  let slotQ := fun (n : Nat) => (s.slotQueue p n).getD 65536
  let s1 := { s with trust := { s.trust with keys := put none s.trust.keys p m.key } }
  let s2 := s1.setPart p { (x.startInterval s.clk.alm) with
    tag := m.part.tag, mtr := m.part.mtr, mtrPrev := m.part.counted, recSeq := m.part.recSeq, restored := true
    en := Tri.of true, state := 3, almFrozen := s.clk.alm }
  let s3 := m.pages.foldl (fun (y : State) pg => y.mapPage p pg) { s2 with pass := clearRange s2.pass (16 * p) 16 }
  let s4 := m.hbm.foldl (fun (y : State) c => y.hbmWrite p c.1 [c.2]) s3
  let s5 := m.plans.foldl (fun (y : State) e => { y with plans := put none y.plans (p * 1024 + e.1) (some e.2) }) s4
  let s6 := s5.placeTables p m.tables
  let s7 := m.queues.foldl (fun (y : State) q =>
    y.setQueue (slotQ (tri q.slot).toNat)
      { q with ctx := Tri.of (BitVec.ofNat 13 p), cqq := BitVec.ofNat 16 (slotQ q.cqq.toNat)
               held := q.held.map fun (h : HeldCqe) => { h with sq := slotQ h.sq } }) s6
  let s8 := s7.genIncrement p
  m.runs.foldl (fun (y : State) e =>
    let id := y.hif.nextId
    let c := { e.2.1 with id := id, ctx := BitVec.ofNat 13 p, gen := (y.part p).gen, origin := .ring (slotQ e.2.2.1), cq := slotQ e.2.2.2 }
    { y with hif := { y.hif with cmds := y.hif.cmds ++ [c], nextId := id + 1 }
             runs := y.runs ++ [{ e.1 with id := y.nextRun, cmd := id, ctx := c.ctx, gen := c.gen, paused := true }]
             nextRun := y.nextRun + 1 }) s8

/-- The check of a restore ends (R397, R413): its partition is no longer OFF, 0x0203 with the reason, or the image is placed; its completion follows the report of
the new generation (R18). -/
def State.restoreEnd (s : State) (id : Nat) : State :=
  match s.cmd? id with
  | none => s.checkDone .glb 0 0
  | some c =>
    let p := c.f 8 2
    match s.openImage (s.hostRead c.fn (c.f 16 8) (fieldLE (s.hostRead c.fn (c.f 16 8) 0x40) 0x10 8)) with
    | none => (s.checkDone .glb 0 p).done id 0x0603
    | some m =>
      let x := s.part p
      let n := s.restoreReason p m
      if x.state ≠ 0 || tri x.en then (s.checkDone .glb 0 p).done id (if x.state = 2 || x.state = 4 then 0x0201 else 0x0200)
      else if n ≠ 0 then (s.checkDone .glb n p).complete id 0x0203 (BitVec.ofNat 32 n) 0
      else ((s.placeImage p m).checkDone .glb 0 p).updPart p fun x => { x with restorer := some id }

/-- Whether a restore must wait: a free bank of its partition is being cleared, and nothing reaches a bank until its clear completes (R228). -/
def State.restoreWaits (s : State) (id : Nat) : Bool := (s.cmd? id).any fun c => (s.freeBanks (c.f 8 2)).any fun b => (s.bank b).clearing

end Sys2Proof.Machine
end

