-- ==== Sys2Proof/Machine/Registers.lean ====
section
/-! DEFINITION. Machine/Registers.lean: writes of the whole map, reserved locations, reads with side effects, the guard, the vote of
T fields and the consistency checks (R30 to R56, and the register tables of every chapter). -/

namespace Sys2Proof.Machine

/-! ## The guard (R45 to R47) -/

/-- A write of GLB_GUARD (R45, R46). -/
def State.writeGuard (s : State) (r : Req) (v : Word) : State :=
  let l := s.lock
  let mayOpen := match r with | .pf0 => true | .stw _ => true | _ => false
  if !mayOpen || v ≠ 0x0000A5C3 || (l.isOpen && l.holder ≠ r) then s.badKey r
  else s.setLock { isOpen := true, holder := r, remain := 1024 }

/-- GLB_GUARD_WRITE (R45, R46). -/
def execGlbGuardWrite (r : Req) (v : Word) (s : State) : Out1 := busRow s r 0x20 v (s.writeGuard r v)

/-- The offsets of the G registers (R45). -/
def gOffset (o : Nat) : Bool :=
  [0x10010, 0x40100, 0x50020, 0x50038, 0x60010, 0x60030, 0x330020].contains o || (0x50 ≤ o && o < 0x60) || (0x330100 ≤ o && o < 0x330118)

/-- The requester of a row that writes a G register. -/
def gRow (c : Instr) : Option Req :=
  match c with
  | .registerWrite r .bar0 o _ => if gOffset o then some r else none
  | .glbTileMapWrite r _ _ | .vigilSvcOut r _ | .vigilSvcTest r _ | .vigilSvcIn r _ | .clkDivWrite r _ | .pwrAvsWrite r _ _
  | .arcDestroyGo r _ | .arcDpWrite r _ _ | .deviceReset r _ => some r
  | .trustKeyloadGo r | .trustFwActGo r | .trustFwActCommit r => some r
  | _ => none

/-- GUARD_EXPIRY (R45, R47): the count has run out, and the lock re-arms; the holder's G write in the same SCLK wins (R46). -/
def execGuardExpiry (s : State) : Out1 :=
  timeout (s.lock.isOpen && s.lock.remain = 0) (fun c => gRow c = some s.lock.holder) "the lock is armed, or has time left" s (s.setLock {})

/-! ## Writes of BAR0, by block -/

/-- A masked write of a 16-bit field (R40). -/
def masked (old v : Word) : Word :=
  let m := v >>> 16
  ((old &&& ~~~m) ||| (v &&& m)) &&& 0xFFFF

/-- Block GLB. -/
def State.writeGlb (s : State) (r : Req) (o : Nat) (v : Word) : State :=
  if o = 0x20 then s.writeGuard r v
  else if 0x50 ≤ o && o < 0x60 then s.gWrite r o fun x => x.writeTileMap r ((o - 0x50) / 4) v
  else s

/-- Block CLK (R525). -/
def State.writeClk (s : State) (r : Req) (o : Nat) (v : Word) : State :=
  if o = 0x10 then s.gWrite r 0x10010 fun x => x.writeDiv v
  else if o = 0x20 then { s with clk := { s.clk with trim := clampTrim v } }
  else if 0x400 ≤ o && o < 0x600 then
    let w := (o - 0x400) / 0x80
    let i := (o - 0x400) % 0x80 / 0x10
    match o % 0x10 with
    | 0 => s.updTimer w i fun t => { t with en := bit v.toNat 31 }
    | 4 => s.writeDeadline w i false v
    | 8 => s.writeDeadline w i true v
    | _ => s.updTimer w i fun t => { t with period := v }
  else s

/-- A write of EVC_PRIV of source k, 64 w + i (R433, R437). -/
def State.writePriv (s : State) (k : Nat) (v : Word) : State :=
  { s with evc := { s.evc with privs := upd {} s.evc.privs k fun x =>
      { x with en := bit v.toNat 31, prio := BitVec.ofNat 4 (bits v.toNat 19 16), pend := x.pend && (bit v.toNat 31 || !x.act) } } }

/-- Block EVC (R437). -/
def State.writeEvc (s : State) (r : Req) (o : Nat) (v : Word) : State :=
  if 0x100 ≤ o && o < 0x110 then s.updPin ((o - 0x100) / 4) fun p => { p with filt := v.setWidth 12 }
  else if o = 0x200 then s.writeSwset v
  else if o = 0x204 then s.writeHack r v
  else if 0xA000 ≤ o && o < 0xC000 then s.writeRoute r ((o - 0xA000) / 4) v
  else if 0xE000 ≤ o && o < 0xE400 then s.writePriv ((o - 0xE000) / 4) v
  else s

/-- Block VIGIL (R482, R487). -/
def State.writeVigil (s : State) (r : Req) (o : Nat) (v : Word) : State :=
  if o = 0x18 then s.writeLogC r v
  else if o = 0x1C then s.writeUack r v
  else if o = 0x100 then s.gWrite r 0x40100 fun x => x.writeSvc v
  else s

/-- A write of TRUST_MTR_BASE or TRUST_MTR_CTL (R418): BASE and LOG stand still while EN = 1; a LOG outside 2 to 8 is discarded (log
entry 55). -/
def State.writeMtr (s : State) (o : Nat) (v : Word) : State :=
  let t := s.trust
  let log := bits v.toNat 3 0
  if o = 0x808 then
    if t.mtrEn then s.setTrust fun t => { t with mtrEn := bit v.toNat 31 }
    else if log < 2 || 8 < log then s
    else s.setTrust fun t => { t with mtrEn := bit v.toNat 31, mtrLog := BitVec.ofNat 4 log }
  else if t.mtrEn then s
  else if o = 0x800 then s.setTrust fun t => { t with mtrBase := setHalf t.mtrBase false (v &&& 0xFFF00000) }
  else s.setTrust fun t => { t with mtrBase := setHalf t.mtrBase true v }

/-- Block TRUST (R418, R505). -/
def State.writeTrust (s : State) (r : Req) (o : Nat) (v : Word) : State :=
  if o = 0x20 then s.gWrite r 0x50020 fun x => x.writeFwAct v
  else if o = 0x30 then s.setTrust fun t => { t with klAddr := setHalf t.klAddr false (v &&& 0xFFFFFFC0) }
  else if o = 0x34 then s.setTrust fun t => { t with klAddr := setHalf t.klAddr true v }
  else if o = 0x38 then s.gWrite r 0x50038 fun x => x.writeKeyload v
  else if o = 0x100 then s.writeMbxCmd false r v
  else if o = 0x104 then s.writeMbxLen false r v
  else if o = 0x108 then s.writeMbxData false r v
  else if o = 0x800 || o = 0x804 || o = 0x808 then s.writeMtr o v
  else if o = 0x810 then s.writeMtrC v
  else s

/-- Block PWR (R526): values outside the fields' ranges are discarded (log entry 55). -/
def State.writePwr (s : State) (r : Req) (o : Nat) (v : Word) : State :=
  let n := v.toNat
  if o = 0x10 then s.gWrite r 0x60010 fun x => { x with freeCtr := x.freeCtr + 1 }.writeReset v (Config.bootEnv x.freeCtr)
  else if o = 0x24 then
    if 1 ≤ n / 65536 && n / 65536 ≤ 10 && 70 ≤ n % 65536 && n % 65536 ≤ 105 then
      { s with pwr := { s.pwr with hyst := BitVec.ofNat 16 (n / 65536), thr := v.setWidth 16 } }.rezone
    else s
  else if o = 0x28 then
    if 200 ≤ n % 1024 && n % 1024 ≤ 620 then { s with pwr := { s.pwr with capW := v.setWidth 10 } }.rezone else s
  else if o = 0x30 then s.gWrite r 0x60030 fun x => { x with freeCtr := x.freeCtr + 1 }.writeAvs v (Config.railRead x.freeCtr)
  else s

/-- Block TILE of physical tile t (R100, R216). -/
def State.writeTile (s : State) (t o : Nat) (v : Word) : State :=
  if o = 0x114 then s.writeNoclaim t v
  else if 0x200 ≤ o && o < 0x280 && o % 32 = 0 then
    (if bit v.toNat 16 then s.writeCen { tile := t, cp := (o - 0x200) / 32 } (bit v.toNat 0) else s)
  else s

/-- A write of CMP_CTL (R40, R261): values of STOR_MIN above 96 are taken as 96. -/
def State.writeCmpCtl (s : State) (v : Word) : State :=
  let x := (masked (s.cmp.storMin.setWidth 32) v).toNat % 128
  { s with cmp := { s.cmp with storMin := BitVec.ofNat 7 (min x 96) } }

/-- Block ARC (R303 to R309). -/
def State.writeArc (s : State) (r : Req) (o : Nat) (v : Word) : State :=
  if o = 0x10 then s.writeMapc v
  else if o = 0x20 then s.gWrite r 0x330020 fun x => x.writeDestroy v
  else if o = 0x24 then
    let n := v.toNat % 65536
    if 100 ≤ n && n ≤ 60000 then { s with arc := { s.arc with mbrTmo := BitVec.ofNat 16 n } } else s
  else if 0x100 ≤ o && o < 0x118 then s.gWrite r (0x330000 + o) fun x => x.writeDp ((o - 0x100) / 4) v
  else s

/-- Block HIF (R342, R362). -/
def State.writeHif (s : State) (o : Nat) (v : Word) : State :=
  if o = 0x10 then
    if s.hif.queues.any (fun e => e.2.cqen && e.2.ctxN = ownerCtx) then s
    else { s with hif := { s.hif with ovfMib := ovfTaken (v.toNat % 128) } }
  else if 0xA000 ≤ o && o < 0xE000 then
    if s.hif.vfEnable then s
    else { s with hif := { s.hif with vfCount := put 15 s.hif.vfCount ((o - 0xA000) / 4 + 1) (v.setWidth 12) } }
  else s

/-- Block NET (R391, R392). -/
def State.writeNet (s : State) (o : Nat) (v : Word) : State :=
  if 0x100 ≤ o && o < 0x108 then s.writeNetPort ((o - 0x100) / 4) v
  else if o = 0x120 then { s with net := { s.net with ptpLo := v } }
  else if o = 0x124 then { s with net := { s.net with ptpOfs := join64 v s.net.ptpLo } }
  else if o = 0x13C then s.writeTsPop v
  else if 0xA000 ≤ o && o < 0xA200 then s.writeNetIf ((o - 0xA000) / 0x100) ((o - 0xA000) % 0x100 / 0x20) (o % 0x20) v
  else s

/-- Block PLK (R467). -/
def State.writePlk (s : State) (r : Req) (o : Nat) (v : Word) : State :=
  if 0x100 ≤ o && o < 0x110 then s.writeLink ((o - 0x100) / 4) v
  else if o = 0x200 then { s with plk := { s.plk with tsrc := bit v.toNat 31 } }
  else if o = 0x210 then s.writeMirror r v
  else if 0xA000 ≤ o && o < 0xA800 then s.writeBinding r ((o - 0xA000) / 32) (o % 32) v
  else s

/-- A write of a direct window (R243). -/
def State.writeWindow (s : State) (ofs : Nat) (v : Word) : State :=
  let x := ofs % 0x1000000
  let k := s.physBank (x / 0x80000) * 65536 + x % 0x80000 / 8
  let u := s.unit k
  let high := bit ofs 2
  s.putUnit k (if ofs < 0x2000000 then { u with data := setHalf u.data high v } else { u with mask := setHalf u.mask high v })

/-- A write of a location of block b that is not reserved; RO registers and fields take nothing (R39). -/
def State.writeBlock (s : State) (r : Req) (b o : Nat) (v : Word) : State :=
  if b = 0 then s.writeGlb r o v
  else if b = 1 then s.writeClk r o v
  else if b = 2 then s.writeEvc r o v
  else if b = 3 then (if 0xA000 ≤ o then s.writeSdma r ((o - 0xA000) / 64) (o % 64) v else s)
  else if b = 4 then s.writeVigil r o v
  else if b = 5 then s.writeTrust r o v
  else if b = 6 then s.writePwr r o v
  else if 0x10 ≤ b && b < 0x22 then s.writeTile (b - 0x10) o v
  else if b = 0x30 then (if 0xA000 ≤ o && o < 0xA080 then s.writeOwner ((o - 0xA000) / 4) v else s)
  else if b = 0x31 then (if o = 0x10 then s.writeCmpCtl v else s)
  else if b = 0x33 then s.writeArc r o v
  else if b = 0x34 then s.writeHif o v
  else if b = 0x35 then s.writeNet o v
  else if b = 0x36 then s.writePlk r o v
  else s

/-! ## The whole map -/

/-- The canonical offsets of SCT registers (R41): the chapters' register tables give no register that type. -/
def sctRegs : List Nat := []

/-- What a SET, CLR or TOG alias makes of the canonical value (R41); none outside the aliases of an SCT register. -/
def State.sctValue (s : State) (r : Req) (ofs : Nat) (v : Word) : Option (Nat × Word) :=
  let o := ofs % 0x10000
  let c := ofs - o + o % 0x2000
  if 0x2000 ≤ o && o < 0x8000 && sctRegs.contains c then
    (s.peek r c).map fun old => (c, if o < 0x4000 then old ||| v else if o < 0x6000 then old &&& ~~~v else old ^^^ v)
  else none

/-- Whether a write of a BAR0 offset reaches a reserved location (R35, R37, R41, R51). -/
def State.wrReserved (s : State) (r : Req) (ofs : Nat) : Bool :=
  let o := ofs % 0x10000
  if ofs < 0x400000 && 0x2000 ≤ o && o < 0xA000 then true
  else (s.peek r ofs).isNone || (0x1000000 ≤ ofs && (s.bank (ofs % 0x1000000 / 0x80000)).inuse)

/-- A write of one aligned word at a BAR0 offset (R30, R31, R38 to R41, R51). -/
def State.writeBar0 (s : State) (r : Req) (ofs : Nat) (v : Word) : State :=
  match s.sctValue r ofs v with
  | some (c, w) => s.writeBlock r (c / 0x10000) (c % 0x10000) w
  | none =>
    if s.wrReserved r ofs then s.reserved r .bar0 ofs true (ofs % 4 ≠ 0)
    else if 0x1000000 ≤ ofs then s.writeWindow ofs v
    else if 0x800000 ≤ ofs then s.writeQ r ((ofs - 0x800000) / 64) (ofs % 64) v
    else if 0x400000 ≤ ofs then s.writePart r ((ofs - 0x400000) / 0x100) (ofs % 0x100) v
    else s.writeBlock r (ofs / 0x10000) (ofs % 0x10000) v

/-- A masked write of PV_EVEN (R40, R421): an EN bit written 1 over a set PV_EVT bit sends VEC. -/
def State.writePvEven (s : State) (p : Nat) (v : Word) : State :=
  let x := s.part p
  let n := (masked (packW [(17, 0), (11, x.evVec.toNat), (4, x.evEn.toNat)]) v).toNat
  let y := { x with evVec := BitVec.ofNat 11 (bits n 14 4), evEn := BitVec.ofNat 4 (bits n 3 0) }
  let on := (BitVec.ofNat 4 (bits v.toNat 19 16) &&& BitVec.ofNat 4 (bits v.toNat 3 0)) &&& x.evt
  let s1 := s.setPart p y
  if on ≠ 0 then s1.msix (p + 1) y.evVec.toNat else s1

/-- A write by VF p + 1 of its partition page (R32, R37, R421). -/
def State.writeVf (s : State) (p ofs : Nat) (v : Word) : State :=
  if 0x8000 ≤ ofs || (s.peekVf p ofs).isNone then s.reserved (.vf (p + 1)) .bar0 ofs true (ofs % 4 ≠ 0)
  else if ofs = 0x1004 then s.writePvEven p v
  else s

/-- A write of BAR2 by PF0 or a VF (R33, R34). -/
def State.writeBar2 (s : State) (r : Req) (ofs : Nat) (v : Word) : State :=
  let o := ofs % 0x1000
  match s.windowQueue r (ofs / 0x1000) with
  | none => s.reserved r .bar2 ofs true (ofs % 4 ≠ 0)
  | some q =>
    if (s.peekBar2 r ofs).isNone then s.reserved r .bar2 ofs true (ofs % 4 ≠ 0)
    else if o = 0 then s.doorbell q v
    else if o = 4 then s.consume q v
    else if o = 0x40 then s
    else s.pushBytes q (o - 0x100) [v]

/-- A write of one aligned word by any requester. -/
def State.busWrite (s : State) (r : Req) (sp : Space) (ofs : Nat) (v : Word) : State :=
  match sp, r with
  | .bar0, .vf n => s.writeVf (n - 1) ofs v
  | .bar0, _ => s.writeBar0 r ofs v
  | .bar2, _ => s.writeBar2 r ofs v

/-- Whether a requester can send an access to an offset of a space at all: the sizes of the BARs, the functions that exist, and no
BAR2 but a function's; nothing before FIRMWARE (R30 to R33, R511). -/
def State.canAccess (s : State) (r : Req) (sp : Space) (ofs : Nat) : Bool :=
  2 ≤ s.glb.start &&
    match sp, r with
    | .bar0, .vf n => s.vfExists n && ofs < 0x10000
    | .bar0, _ => ofs < 0x4000000
    | .bar2, .vf n => s.vfExists n && ofs < 0x1000000
    | .bar2, .pf0 => ofs < 0x10000000
    | .bar2, _ => false

/-- Whether a requester's read of an offset takes effect now: not behind a write of the requester that is held (R36). -/
def State.canRead (s : State) (r : Req) (sp : Space) (ofs : Nat) : Bool := s.canAccess r sp ofs && (s.holder r).isNone

/-- REGISTER_WRITE (R36, R41). -/
def execRegisterWrite (r : Req) (sp : Space) (off : Nat) (v : Word) (s : State) : Out1 :=
  when_ (s.canAccess r sp off) "the requester cannot send this access" (s.inOrder r sp [(off, v)] (s.busWrite r sp off v))

/-- Whether a write of these bytes lies within a queue window's push window in whole aligned words, at most 256 bytes of them (R35). -/
def pushFits (sp : Space) (off size : Nat) : Bool :=
  sp = .bar2 && off % 4 = 0 && size % 4 = 0 && 0 < size && 0x100 ≤ off % 0x1000 && off % 0x1000 + size ≤ 0x200

/-- Whether an access breaks R35's size and alignment: one aligned word everywhere, but for writes of the push window. -/
def badSize (sp : Space) (off size : Nat) (wr : Bool) : Bool := (size ≠ 4 || off % 4 ≠ 0) && !(wr && pushFits sp off size)

/-- Whether an access reaches a reserved location (R51). -/
def State.isReserved (s : State) (r : Req) (sp : Space) (off : Nat) (wr : Bool) : Bool :=
  match sp, r with
  | .bar0, .vf n => (s.peekVf (n - 1) off).isNone || (wr && 0x8000 ≤ off)
  | .bar0, _ => if wr then s.wrReserved r off else (s.peek r off).isNone
  | .bar2, _ => (s.peekBar2 r off).isNone

/-- RESERVED_ACCESS (R35, R51, R52). -/
def execReservedAccess (r : Req) (sp : Space) (off size : Nat) (wr : Bool) (s : State) : Out1 :=
  when_ (s.canAccess r sp off && (s.holder r).isNone && (badSize sp off size wr || s.isReserved r sp off wr)) "the location is not reserved"
    (s.reserved r sp off wr (badSize sp off size wr))

/-! ## Reads with side effects (R29, R42 to R44) -/

/-- The BAR0 RC register at an offset after its clearing read: the bits of an event in the same SCLK stay (R42); none where the
offset holds no RC register. -/
def State.rcClear (s : State) (ofs : Nat) (again : Word) : Option State :=
  let n := again.toNat
  let b := ofs / 0x10000
  let o := ofs % 0x10000
  if ofs = 0x24 then
    some { s with glb := { s.glb with badKey := BitVec.ofNat 8 (bits n 31 24), refused := BitVec.ofNat 8 (bits n 23 16), lastSrc := BitVec.ofNat 3 n } }
  else if ofs = 0x30 then some { s with glb := { s.glb with buserr := again } }
  else if ofs = 0x74 then some { s with glb := { s.glb with rstCause := BitVec.ofNat 4 n } }
  else if ofs = 0x20208 then some { s with evc := { s.evc with hackBad := BitVec.ofNat 8 (bits n 31 24), mergeCnt := BitVec.ofNat 16 n } }
  else if ofs = 0x40020 then some { s with vigil := { s.vigil with supp := BitVec.ofNat 16 (bits n 31 16), drop := BitVec.ofNat 16 n } }
  else if 0x10 ≤ b && b < 0x22 then
    let t := b - 0x10
    let c := (o - 0x200) / 32
    if o = 0x110 then some (s.updTile t fun x => { x with abn := BitVec.ofNat 16 n })
    else if 0x200 ≤ o && o < 0x280 && o % 32 = 0x08 then some (s.setCp t c { s.cpOf t c with rngSkip := BitVec.ofNat 16 n })
    else if 0x200 ≤ o && o < 0x280 && o % 32 = 0x0C then
      some (s.setCp t c { s.cpOf t c with faultValid := bit n 31, faultOvf := bit n 30, faultCode := BitVec.ofNat 16 n })
    else none
  else if ofs = 0x300014 then
    some { s with astore := { s.astore with corr := BitVec.ofNat 8 (bits n 31 24), uncorr := BitVec.ofNat 8 (bits n 23 16), lastBank := BitVec.ofNat 6 n } }
  else if ofs = 0x310014 then some { s with cmp := { s.cmp with vfyCnt := BitVec.ofNat 8 (bits n 15 8), lastEng := BitVec.ofNat 4 n } }
  else if b = 0x33 && 0xB800 ≤ o && o < 0xC000 && o % 32 = 0x14 then
    some (s.updArr ((o - 0xB800) / 32) fun x => { x with lostCnt := BitVec.ofNat 16 (bits n 31 16), relocCnt := BitVec.ofNat 16 n })
  else if ofs = 0x350110 || ofs = 0x350114 then some (s.updPort ((ofs - 0x350110) / 4) fun x => { x with uncorr := again })
  else none

/-- The RC register of partition p's page after the clearing read of its VF (R32, R42, R421). -/
def State.rcClearVf (s : State) (p ofs : Nat) (again : Word) : Option State :=
  if ofs = 0x230 then some (s.updPart p fun x => { x with buserr := again })
  else if ofs = 0x1000 then some (s.updPart p fun x => { x with evt := again.setWidth 4 })
  else none

/-- RC_CLEARING_READ (R42, R43): a requester that is not the clearing owner only looks. -/
def execRcClearingRead (r : Req) (off : Nat) (again : Word) (s : State) : Out1 :=
  if !s.canRead r .bar0 off then no "the requester cannot send this access"
  else match s.peekAt r .bar0 off, (match r with | .vf n => s.rcClearVf (n - 1) off again | _ => s.rcClear off again) with
    | _, none => no "the location holds no RC register"
    | none, _ => .next (s.reserved r .bar0 off false false)
    | some v, some t =>
      let owner := match r with | .pf0 => true | .vf _ => true | _ => false
      .next ((if owner then t else s).emit (.readData r v))

/-- A read of a 64-bit value's low word: it is returned, and the high word latched for the requester (R29, R44). -/
def State.lowRead (s : State) (r : Req) (ofs : Nat) (d : DWord) : State :=
  { s with latches := put 0 s.latches (latchKey r ofs) (hi32 d) }.emit (.readData r (lo32 d))

/-- COUNTER_LOW_READ (R44), at the canonical location; a read of its PEEK mirror latches nothing (log entry 157). -/
def execCounterLowRead (r : Req) (off : Nat) (s : State) : Out1 :=
  if !s.canRead r .bar0 off then no "the requester cannot send this access"
  else match (match r with | .vf n => s.wideVf (n - 1) off | _ => s.wide off) with
    | none => no "the location is no low word of a 64-bit counter"
    | some d =>
      .next (if (s.peekAt r .bar0 off).isNone then s.reserved r .bar0 off false false else s.lowRead r off d)

/-- CLK_ALM_LO_READ (R29). -/
def execClkAlmLoRead (r : Req) (s : State) : Out1 :=
  if !s.canRead r .bar0 (match r with | .vf _ => 0x100 | _ => 0x10100) then no "the requester cannot send this access"
  else match r with
    | .vf _ => .next (s.lowRead r 0x100 s.clk.alm)
    | _ => .next (if s.serves 0x10100 then s.lowRead r 0x10100 s.clk.alm else s.reserved r .bar0 0x10100 false false)

/-! ## The vote of T fields (R49, R50) -/

/-- What the comparer finds: every copy agrees; one differs and is rewritten; all differ. -/
inductive Vote (α : Type) where
  | same
  | fixed (t : Tri α)
  | lost
  deriving DecidableEq, Repr

/-- The comparer's view of a field's three copies (R49). -/
def compare3 {α : Type} [DecidableEq α] (t : Tri α) : Vote α :=
  match vote t with
  | none => .lost
  | some x => if t = Tri.of x then .same else .fixed (Tri.of x)

/-- A vote's outcome on the state: a repair reports a corrected event with the block, the offset and the CTX; a three-way disagreement
an uncorrected one, after which `act` stops the object (R49, R50, R468). -/
def State.voted (s : State) {α : Type} [DecidableEq α] (t : Tri α) (ofs ctx action status : Nat) (repair : Tri α → State)
    (act : State → State) : State :=
  let report := fun (x : State) (cls a st : Nat) => x.record cls ctx (ofs / 0x10000 % 256) 0x06 0 a (BitVec.ofNat 32 (ofs % 0x10000)) false st
  match compare3 t with
  | .same => s
  | .fixed u => report (repair u) 0 0 0
  | .lost => act (report s 1 action status)

/-- A partition is stopped by a voting failure (R50): its commands in flight complete with 0x0705, and it is torn down as by a reset
that ends in OFF. In STATE 0 and 4 nothing is in flight: the enable reads 0, the generation increments, and a reset under way ends in
OFF. -/
def State.stopPart (s : State) (p : Nat) : State :=
  let n := (s.part p).state
  if n = 0 || n = 4 then (s.updPart p fun x => { x with en := Tri.of false, toOff := n = 4 }).genIncrement p
  else
    let ids := (s.hif.cmds.filter fun c => c.ctx.toNat = p).map (·.id)
    let s1 := (s.runs.filter fun r => r.ctx.toNat = p).foldl (fun (x : State) r => x.failRun r.id 0x0705 0) s
    let s2 := ids.foldl (fun (x : State) id => x.done id 0x0705) s1
    s2.startReset p true none

/-- The volume that a volume command names. -/
def Cmd.volume? (c : Cmd) : Option Nat := if 0x20 ≤ c.op && c.op ≤ 0x24 then some (c.f 8 2) else none

/-- An array is taken off line by a voting failure (R50, R298): STOPPED with FAULT, no drain, volume commands in flight complete with
0x0705, the cache is retained; the labels are rewritten (R268). -/
def State.stopArr (s : State) (a : Nat) : State :=
  if (s.arr a).state = 0 then s
  else
    let waits := (s.arr a).cmd.toList
    let ids := (s.hif.cmds.filter fun c => c.phase ≠ .fetched && c.volume?.any fun v => (s.vol v).state ≠ 0 && (s.vol v).array = a).map (·.id)
    let s1 := (s.writeLabels a false).updArr a fun x =>
      { x with state := 7, fault := true, cmd := none, reserved := [], rebuild := { x.rebuild with state := 0 } }
    (ids ++ waits).foldl (fun (x : State) id => x.done id 0x0705) s1

/-- A queue is disabled by a voting failure (R50): fetching stops, its entries stay. -/
def State.stopQueue (s : State) (q : Nat) : State := s.updQueue q fun x => { x with sqen := false, cqen := false }

/-- The CTX a record names for a queue's field. -/
def Queue.voteCtx (x : Queue) : Nat := if x.ctxN < 4096 then x.ctxN else ownerCtx

/-- TRIPLICATED_FIELD_VOTE (R49, R50). -/
def execTriplicatedFieldVote (f : TField) (s : State) : Out1 :=
  match f with
  | .guard => .next (s.voted s.glb.guard 0x20 ownerCtx 0 0 (fun u => { s with glb := { s.glb with guard := u } }) fun x => x.setLock {})
  | .tileMap r =>
    when_ (r < 4) "no such register"
      (s.voted (look (Tri.of 0) s.glb.tileMap r) (0x50 + 4 * r) ownerCtx 0x20 0
        (fun u => { s with glb := { s.glb with tileMap := put (Tri.of 0) s.glb.tileMap r u } }) State.resetRequired)
  | .pdiv =>
    .next (s.voted s.clk.pdiv 0x10010 ownerCtx 0x20 0 (fun u => { s with clk := { s.clk with pdiv := u } }) State.resetRequired)
  | .partEn p =>
    when_ (p < 4096) "no such partition"
      (s.voted (s.part p).en (0x400000 + 0x100 * p) p 0x10 0x0705 (fun u => s.updPart p fun x => { x with en := u }) fun x => x.stopPart p)
  | .partKsrc p =>
    when_ (p < 4096) "no such partition"
      (s.voted (s.part p).ksrc (0x400000 + 0x100 * p) p 0x10 0x0705 (fun u => s.updPart p fun x => { x with ksrc := u }) fun x => x.stopPart p)
  | .partPageMax p =>
    when_ (p < 4096) "no such partition"
      (s.voted (s.part p).pageMax (0x40000C + 0x100 * p) p 0x10 0x0705 (fun u => s.updPart p fun x => { x with pageMax := u }) fun x => x.stopPart p)
  | .partQmax p =>
    when_ (p < 4096) "no such partition"
      (s.voted (s.part p).qmax (0x400014 + 0x100 * p) p 0x10 0x0705 (fun u => s.updPart p fun x => { x with qmax := u }) fun x => x.stopPart p)
  | .partWcMax p =>
    when_ (p < 4096) "no such partition"
      (s.voted (s.part p).wcMax (0x400018 + 0x100 * p) p 0x10 0x0705 (fun u => s.updPart p fun x => { x with wcMax := u }) fun x => x.stopPart p)
  | .queueCtx q =>
    when_ (q < 65536) "no such queue"
      (s.voted (s.queue q).ctx (0x800004 + 0x40 * q) (s.queue q).voteCtx 0x10 0 (fun u => s.updQueue q fun x => { x with ctx := u }) fun x => x.stopQueue q)
  | .queueSlot q =>
    when_ (q < 65536) "no such queue"
      (s.voted (s.queue q).slot (0x800004 + 0x40 * q) (s.queue q).voteCtx 0x10 0 (fun u => s.updQueue q fun x => { x with slot := u }) fun x => x.stopQueue q)
  | .bankOwner b =>
    let o := (tri (s.bank b).owner).toNat
    when_ (b < 32 && s.astp) "no such bank"
      (s.voted (s.bank b).owner (0x30A000 + 4 * b) (if o < 4096 then o else ownerCtx) 0 0 (fun u => s.updBank b fun x => { x with owner := u }) id)
  | .arrGeom a =>
    when_ (a < 64) "no such array"
      (s.voted (s.arr a).geom (0x33A004 + 0x40 * a) ownerCtx 0x10 0x0705 (fun u => s.updArr a fun x => { x with geom := u }) fun x => x.stopArr a)
  | .arrPos a r =>
    when_ (a < 64 && r < 9) "no such array or register"
      (s.voted (look (Tri.of 0) (s.arr a).pos r) (0x33A008 + 0x40 * a + 4 * r) ownerCtx 0x10 0x0705
        (fun u => s.updArr a fun x => { x with pos := put (Tri.of 0) x.pos r u }) fun x => x.stopArr a)

/-! ## Consistency checks (R53 to R56) -/

/-- The check of an EVC route ends (R436). -/
def State.routeEnd (s : State) (src : Nat) : State :=
  let n := s.routeCheck src
  (if n = 0 then s.updRoute src fun r => { r with en := true } else s).checkDone .evc n src

/-- A check ends, as its kind has it. -/
def State.endCheck (s : State) : CheckObj → State
  | .partition p => s.partEnableEnd p
  | .partGen _ => s
  | .partField p o v => s.partFieldEnd p o v
  | .queue q sq cq => s.queueCheckEnd q sq cq
  | .astTable id => s.astCreateEnd id
  | .arrCreate id => s.arrCreateEnd id
  | .arrImport id => s.arrImportEnd id
  | .arrSet id => s.arrSetEnd id
  | .arrReshape id => s.arrReshapeEnd id
  | .arrRebuild id => s.arrRebuildEnd id
  | .volCreate id => s.volCreateEnd id
  | .volResize id => s.volResizeEnd id
  | .netSubsys id => s.netSubsysEnd id
  | .netExport id => s.netExportEnd id
  | .partRestore id => s.restoreEnd id
  | .binding b => s.bindingEnd b
  | .mirror => s.mirrorEnd
  | .sdma c => s.sdmaCheckEnd c
  | .evcRoute src => s.routeEnd src

/-- The writes a block holds take effect in the order they arrived; those whose object is still checked are held again, and their
requester's later ones behind them (R36, R54). -/
def State.replayHeld (s : State) (b : CheckBlock) : State :=
  let held := (s.ccr b).held
  held.foldl (fun (x : State) h => x.inOrder h.req h.sp [(h.off, h.v)] (x.busWrite h.req h.sp h.off h.v)) (s.updCcr b fun c => { c with held := [] })

/-- Whether a block runs nothing more because of the freeze, THERMTRIP_N or the clocks: ARC appends no record, NET and
PLK are gated (R327, R328, R513, R523). -/
def State.stoppedAt (s : State) (b : CheckBlock) : Bool := (!s.arcRuns && b = .arc) || (!s.ungated && (b = .net || b = .plk))

/-- CONSISTENCY_CHECK_COMPLETE (R53, R54, R56): the oldest check of the block ends; an enable that has passed waits for the report of
its generation (R18). -/
def execConsistencyCheckComplete (b : CheckBlock) (s : State) : Out1 :=
  match (if s.stoppedAt b then [] else (s.ccr b).queue) with
  | [] => no "the block runs no check"
  | .partGen _ :: _ => no "the enable waits for the report of its generation"
  | .partRestore id :: _ =>
    if s.restoreWaits id then no "a free bank of the partition is being cleared"
    else .next ((s.endCheck (.partRestore id)).replayHeld b)
  | o :: _ => .next ((s.endCheck o).replayHeld b)

/-- What waited for the report of partition p's generation goes on (R18): an enable reaches RUN, a PART_RESTORE completes. -/
def State.genReported (s : State) (p : Nat) : State :=
  if (s.ccr .glb).queue.head? = some (.partGen p) then (s.partEnabled p).replayHeld .glb
  else match (s.part p).restorer with
    | some id => (s.updPart p fun y => { y with restorer := none }).done id 0
    | none => s

/-- GENERATION_INCREMENT_REPORT (R18, R459): every check point and every reachable bound peer holds the new value. -/
def execGenerationIncrementReport (p : Nat) (s : State) : Out1 :=
  let x := s.part p
  if p < 4096 && x.genWait = some 0 then .next ((s.setPart p { x with genWait := none }).genReported p)
  else no "no generation increment waits for its report"

end Sys2Proof.Machine
end

