-- ==== Sys2Proof/Machine/SdmaMove.lean ====
section
/-! DEFINITION. Machine/SdmaMove.lean: what a burst of the service DMA moves, and the read-back that ends a transfer (R438 to
R446). -/

namespace Sys2Proof.Machine

/-- The source address of the burst in flight (R439). -/
def Sdma.srcAt (x : Sdma) : Nat := if x.sfix then x.src.toNat else x.src.toNat + x.done

/-- The destination address of the burst in flight (R439). -/
def Sdma.dstAt (x : Sdma) : Nat := if x.dfix then x.dst.toNat else x.dst.toNat + x.done

/-- The register offsets a burst of n bytes reaches from a (R439): one register where the end is fixed. -/
def regSpan (a n : Nat) (fix : Bool) : List Nat := (List.range (n / 4)).map fun i => if fix then a else a + 4 * i

/-- n bytes read from a space, or the address at which the read meets a bus error (R438, R442). -/
def State.sdmaRead (s : State) (space a n : Nat) (fix : Bool) : Except Nat (List Byte) :=
  if space = 0 then
    if s.hostFails 0 a n then .error (((List.range n).find? fun i => s.hostFails 0 (a + i) 1).elim a (a + ·)) else .ok (s.hostRead 0 a n)
  else if space = 1 then
    if s.hbmOk ownerCtx a n then .ok (s.hbmRead ownerCtx a n)
    else .error (((List.range n).find? fun i => !s.hbmOk ownerCtx (a + i) 1).elim a (a + ·))
  else if space = 2 then .ok (memRead s.stwMem a n)
  else
    match (regSpan a n fix).find? fun o => (s.peek .pf0 o).isNone with
    | some o => .error o
    | none => .ok ((regSpan a n fix).flatMap fun o => natLE 4 ((s.peek .pf0 o).getD 0).toNat)

/-- Words written to registers in order, up to the first reserved location (R442). -/
def State.sdmaRegs (s : State) : List Nat → List Byte → State × Option Nat
  | [], _ => (s, none)
  | o :: r, bs =>
    if s.wrReserved .pf0 o then (s, some o)
    else (s.writeBar0 .pf0 o (BitVec.ofNat 32 (fieldLE bs 0 4))).sdmaRegs r (bs.drop 4)

/-- Bytes written to a space: the state after, and the address at which the write meets a bus error (R438, R442). -/
def State.sdmaWrite (s : State) (space a : Nat) (fix : Bool) (bs : List Byte) : State × Option Nat :=
  if space = 0 then (s.hostWrite 0 a bs, none)
  else if space = 1 then (if s.hbmOk ownerCtx a bs.length then (s.hbmWrite ownerCtx a bs, none) else (s, some a))
  else if space = 2 then ({ s with stwMem := memWrite s.stwMem a bs }, none)
  else s.sdmaRegs (regSpan a bs.length fix) bs

/-- The burst meets a bus error (R442, R444, R446). -/
def State.burstFails (s : State) (c a : Nat) (wr : Bool) : State :=
  let x := s.chan c
  if x.aborting then s.sdmaAbortNow c
  else if x.tries.toNat < x.retry.toNat && !(x.sfix && x.sspace = 3) then s.updChan c fun y => { y with state := 3, tries := y.tries + 1 }
  else (s.updChan c fun y => { y with state := 7, errAddr := BitVec.ofNat 64 a, dirWrite := wr, inReadback := false }).raise (8 + c)

/-- The burst succeeds (R443 to R446). -/
def State.burstDone (s : State) (c n : Nat) : State :=
  let s1 := s.updChan c fun y => { y with done := y.done + n, resid := BitVec.ofNat 32 (y.cnt.toNat - (y.done + n)) }
  let x := s1.chan c
  if x.aborting then s1.sdmaAbortNow c
  else if x.cnt.toNat ≤ x.done then s1.updChan c fun y => { y with state := 4, inReadback := true, rbTries := 0 }
  else s1.updChan c fun y => { y with state := 1, armedAt := s.clk.alm }

/-- Whether a space can be reached now: PF0's host memory needs PF0 in D0 with Bus Master Enable (R365). -/
def State.sdmaReaches (s : State) (space : Nat) : Bool := space ≠ 0 || s.canSend 0

/-- BURST_COMPLETE (R441, R442, R446): an error from outside names a direction; its address within the burst is a free value (log
entry 78). -/
def execBurstComplete (c : Nat) (res : BusResult) (wr : Bool) (s : State) : Out1 :=
  let x := s.chan c
  let n := x.burstLen
  if !(c < 64 && x.state = 2 && s.sdmaReaches x.sspace && s.sdmaReaches x.dspace) then no "the channel has no burst in flight"
  else if res = .err then
    let (v, s1) := s.free
    .next (s1.burstFails c ((if wr then x.dstAt else x.srcAt) + v.toNat % n) wr)
  else match s.sdmaRead x.sspace x.srcAt n x.sfix with
    | .error a => .next (s.burstFails c a false)
    | .ok bs =>
      match s.sdmaWrite x.dspace x.dstAt x.dfix bs with
      | (t, some a) => .next (t.burstFails c a true)
      | (t, none) => .next (t.burstDone c n)

/-- The aligned word that holds the last byte the channel wrote (R443). -/
def Sdma.lastWord (x : Sdma) : Nat :=
  let last := if x.done % 512 = 0 then 512 else x.done % 512
  let a := if !x.dfix then x.dst.toNat + x.done - 1 else if x.dspace = 3 then x.dst.toNat else x.dst.toNat + last - 1
  a / 4 * 4

/-- READBACK_COMPLETE (R443, R444, R446). -/
def execReadbackComplete (c : Nat) (res : BusResult) (s : State) : Out1 :=
  let x := s.chan c
  let a := x.lastWord
  if !(c < 64 && x.state = 4 && s.sdmaReaches x.dspace) then no "the channel reads nothing back"
  else
    let ok := res = .ok && (match s.sdmaRead x.dspace a 4 x.dfix with | .ok _ => true | .error _ => false)
    .next (
      if ok then
        if x.aborting then s.sdmaAborted c
        else
          let s1 := s.updChan c fun y => { y with state := 5, inReadback := false }
          if x.ien then s1.raise (8 + c) else s1
      else if x.rbTries < x.retry.toNat then s.updChan c fun y => { y with rbTries := y.rbTries + 1 }
      else (s.updChan c fun y => { y with state := 7, errAddr := BitVec.ofNat 64 a, dirWrite := false, inReadback := true }).raise (8 + c))

end Sys2Proof.Machine
end

