-- ==== Sys2Proof/Machine/Dispatch.lean ====
section
/-! DEFINITION. Machine/Dispatch.lean: the meaning of every command, one arm per row of the table. -/

namespace Sys2Proof.Machine

/-- The effect of a command on everything but the queue. -/
def exec (i : Instr) (s : State) : Host.Outcome State Fault Refusal :=
  match i with
  | .registerWrite r sp off v => Sys2Proof.Machine.execRegisterWrite r sp off v s
  | .reservedAccess r sp off size wr => Sys2Proof.Machine.execReservedAccess r sp off size wr s
  | .rcClearingRead r off again => Sys2Proof.Machine.execRcClearingRead r off again s
  | .counterLowRead r off => Sys2Proof.Machine.execCounterLowRead r off s
  | .clkAlmLoRead r => Sys2Proof.Machine.execClkAlmLoRead r s
  | .glbGuardWrite r v => Sys2Proof.Machine.execGlbGuardWrite r v s
  | .guardExpiry => Sys2Proof.Machine.execGuardExpiry s
  | .triplicatedFieldVote f => Sys2Proof.Machine.execTriplicatedFieldVote f s
  | .consistencyCheckComplete b => Sys2Proof.Machine.execConsistencyCheckComplete b s
  | .generationIncrementReport p => Sys2Proof.Machine.execGenerationIncrementReport p s
  | .loadPlan id => Sys2Proof.Machine.execLoadPlan id s
  | .unloadPlan id => Sys2Proof.Machine.execUnloadPlan id s
  | .runPlan id => Sys2Proof.Machine.execRunPlan id s
  | .cancelPlan id => Sys2Proof.Machine.execCancelPlan id s
  | .runTimeout id => Sys2Proof.Machine.execRunTimeout id s
  | .morselClaim t => Sys2Proof.Machine.execMorselClaim t s
  | .morselComplete t k agree => Sys2Proof.Machine.execMorselComplete t k agree s
  | .materialisationComplete run mat => Sys2Proof.Machine.execMaterialisationComplete run mat s
  | .materialisationError run mat => Sys2Proof.Machine.execMaterialisationError run mat s
  | .storeCommit run pipe m => Sys2Proof.Machine.execStoreCommit run pipe m s
  | .storePlace run pipe => Sys2Proof.Machine.execStorePlace run pipe s
  | .exchangeRows dev bind exkey ctx gen mat pipe m bucket rows => Sys2Proof.Machine.execExchangeRows dev bind exkey ctx gen mat pipe m bucket rows s
  | .exchangeEndMarker dev bind exkey mat pipe => Sys2Proof.Machine.execExchangeEndMarker dev bind exkey mat pipe s
  | .exchangeAbortMarker dev bind exkey => Sys2Proof.Machine.execExchangeAbortMarker dev bind exkey s
  | .noclaimWrite r t v => Sys2Proof.Machine.execNoclaimWrite r t v s
  | .stagingFillComplete u win => Sys2Proof.Machine.execStagingFillComplete u win s
  | .kernelWatchdogExpiry u => Sys2Proof.Machine.execKernelWatchdogExpiry u s
  | .rangeOperationComplete t => Sys2Proof.Machine.execRangeOperationComplete t s
  | .cacheDisableFlush r u => Sys2Proof.Machine.execCacheDisableFlush r u s
  | .cacheEnable r u => Sys2Proof.Machine.execCacheEnable r u s
  | .illegalInstruction u w => Sys2Proof.Machine.execIllegalInstruction u w s
  | .add u d a b => Sys2Proof.Machine.execAdd u d a b s
  | .sub u d a b => Sys2Proof.Machine.execSub u d a b s
  | .mul u d a b => Sys2Proof.Machine.execMul u d a b s
  | .mulh u d a b => Sys2Proof.Machine.execMulh u d a b s
  | .mulhu u d a b => Sys2Proof.Machine.execMulhu u d a b s
  | .div u d a b => Sys2Proof.Machine.execDiv u d a b s
  | .divu u d a b => Sys2Proof.Machine.execDivu u d a b s
  | .rem u d a b => Sys2Proof.Machine.execRem u d a b s
  | .remu u d a b => Sys2Proof.Machine.execRemu u d a b s
  | .and u d a b => Sys2Proof.Machine.execAnd u d a b s
  | .or u d a b => Sys2Proof.Machine.execOr u d a b s
  | .xor u d a b => Sys2Proof.Machine.execXor u d a b s
  | .shl u d a b => Sys2Proof.Machine.execShl u d a b s
  | .shr u d a b => Sys2Proof.Machine.execShr u d a b s
  | .sar u d a b => Sys2Proof.Machine.execSar u d a b s
  | .rotl u d a b => Sys2Proof.Machine.execRotl u d a b s
  | .slt u d a b => Sys2Proof.Machine.execSlt u d a b s
  | .sltu u d a b => Sys2Proof.Machine.execSltu u d a b s
  | .min u d a b => Sys2Proof.Machine.execMin u d a b s
  | .max u d a b => Sys2Proof.Machine.execMax u d a b s
  | .minu u d a b => Sys2Proof.Machine.execMinu u d a b s
  | .maxu u d a b => Sys2Proof.Machine.execMaxu u d a b s
  | .clz u d a => Sys2Proof.Machine.execClz u d a s
  | .ctz u d a => Sys2Proof.Machine.execCtz u d a s
  | .popc u d a => Sys2Proof.Machine.execPopc u d a s
  | .addo u d a b => Sys2Proof.Machine.execAddo u d a b s
  | .subo u d a b => Sys2Proof.Machine.execSubo u d a b s
  | .mulo u d a b => Sys2Proof.Machine.execMulo u d a b s
  | .sext u d a b => Sys2Proof.Machine.execSext u d a b s
  | .zext u d a b => Sys2Proof.Machine.execZext u d a b s
  | .addi u d a imm => Sys2Proof.Machine.execAddi u d a imm s
  | .andi u d a imm => Sys2Proof.Machine.execAndi u d a imm s
  | .ori u d a imm => Sys2Proof.Machine.execOri u d a imm s
  | .xori u d a imm => Sys2Proof.Machine.execXori u d a imm s
  | .shli u d a imm => Sys2Proof.Machine.execShli u d a imm s
  | .shri u d a imm => Sys2Proof.Machine.execShri u d a imm s
  | .sari u d a imm => Sys2Proof.Machine.execSari u d a imm s
  | .lui u d a imm => Sys2Proof.Machine.execLui u d a imm s
  | .slti u d a imm => Sys2Proof.Machine.execSlti u d a imm s
  | .fadd u d a b dbl => Sys2Proof.Machine.execFadd u d a b dbl s
  | .fsub u d a b dbl => Sys2Proof.Machine.execFsub u d a b dbl s
  | .fmul u d a b dbl => Sys2Proof.Machine.execFmul u d a b dbl s
  | .fdiv u d a b dbl => Sys2Proof.Machine.execFdiv u d a b dbl s
  | .fsqrt u d a dbl => Sys2Proof.Machine.execFsqrt u d a dbl s
  | .fmin u d a b dbl => Sys2Proof.Machine.execFmin u d a b dbl s
  | .fmax u d a b dbl => Sys2Proof.Machine.execFmax u d a b dbl s
  | .feq u d a b dbl => Sys2Proof.Machine.execFeq u d a b dbl s
  | .flt u d a b dbl => Sys2Proof.Machine.execFlt u d a b dbl s
  | .fle u d a b dbl => Sys2Proof.Machine.execFle u d a b dbl s
  | .fcvti u d a dbl => Sys2Proof.Machine.execFcvti u d a dbl s
  | .fcvtf u d a dbl => Sys2Proof.Machine.execFcvtf u d a dbl s
  | .fcvtp u d a dbl => Sys2Proof.Machine.execFcvtp u d a dbl s
  | .fma u d a b dbl => Sys2Proof.Machine.execFma u d a b dbl s
  | .lb u d a imm => Sys2Proof.Machine.execLb u d a imm s
  | .lh u d a imm => Sys2Proof.Machine.execLh u d a imm s
  | .lw u d a imm => Sys2Proof.Machine.execLw u d a imm s
  | .ld u d a imm => Sys2Proof.Machine.execLd u d a imm s
  | .lbu u d a imm => Sys2Proof.Machine.execLbu u d a imm s
  | .lhu u d a imm => Sys2Proof.Machine.execLhu u d a imm s
  | .lwu u d a imm => Sys2Proof.Machine.execLwu u d a imm s
  | .sb u d a imm => Sys2Proof.Machine.execSb u d a imm s
  | .sh u d a imm => Sys2Proof.Machine.execSh u d a imm s
  | .sw u d a imm => Sys2Proof.Machine.execSw u d a imm s
  | .sd u d a imm => Sys2Proof.Machine.execSd u d a imm s
  | .beq u a b ofs => Sys2Proof.Machine.execBeq u a b ofs s
  | .bne u a b ofs => Sys2Proof.Machine.execBne u a b ofs s
  | .blt u a b ofs => Sys2Proof.Machine.execBlt u a b ofs s
  | .bge u a b ofs => Sys2Proof.Machine.execBge u a b ofs s
  | .bltu u a b ofs => Sys2Proof.Machine.execBltu u a b ofs s
  | .bgeu u a b ofs => Sys2Proof.Machine.execBgeu u a b ofs s
  | .jmp u ofs => Sys2Proof.Machine.execJmp u ofs s
  | .jal u ofs => Sys2Proof.Machine.execJal u ofs s
  | .vld u f => Sys2Proof.Machine.execVld u f s
  | .vlds u f => Sys2Proof.Machine.execVlds u f s
  | .vldx u f => Sys2Proof.Machine.execVldx u f s
  | .vldff u f => Sys2Proof.Machine.execVldff u f s
  | .vst u f => Sys2Proof.Machine.execVst u f s
  | .vsts u f => Sys2Proof.Machine.execVsts u f s
  | .vstx u f => Sys2Proof.Machine.execVstx u f s
  | .halt u => Sys2Proof.Machine.execHalt u s
  | .fence u => Sys2Proof.Machine.execFence u s
  | .rdsr u d a => Sys2Proof.Machine.execRdsr u d a s
  | .wrsr u d a => Sys2Proof.Machine.execWrsr u d a s
  | .trap u a => Sys2Proof.Machine.execTrap u a s
  | .jr u d a => Sys2Proof.Machine.execJr u d a s
  | .nop u => Sys2Proof.Machine.execNop u s
  | .dcz u a => Sys2Proof.Machine.execDcz u a s
  | .dcl u a => Sys2Proof.Machine.execDcl u a s
  | .dci u a => Sys2Proof.Machine.execDci u a s
  | .dcci u a => Sys2Proof.Machine.execDcci u a s
  | .dlock u d a => Sys2Proof.Machine.execDlock u d a s
  | .dunlock u a => Sys2Proof.Machine.execDunlock u a s
  | .rngc u a b => Sys2Proof.Machine.execRngc u a b s
  | .rngi u a b => Sys2Proof.Machine.execRngi u a b s
  | .rngci u a b => Sys2Proof.Machine.execRngci u a b s
  | .rngiIncludeLocked u a b => Sys2Proof.Machine.execRngiIncludeLocked u a b s
  | .rngciIncludeLocked u a b => Sys2Proof.Machine.execRngciIncludeLocked u a b s
  | .vcfg u d a imm => Sys2Proof.Machine.execVcfg u d a imm s
  | .vredsum u f => Sys2Proof.Machine.execVredsum u f s
  | .vredmin u f => Sys2Proof.Machine.execVredmin u f s
  | .vredmax u f => Sys2Proof.Machine.execVredmax u f s
  | .vredminu u f => Sys2Proof.Machine.execVredminu u f s
  | .vredmaxu u f => Sys2Proof.Machine.execVredmaxu u f s
  | .vfredsum u f => Sys2Proof.Machine.execVfredsum u f s
  | .vfredmin u f => Sys2Proof.Machine.execVfredmin u f s
  | .vfredmax u f => Sys2Proof.Machine.execVfredmax u f s
  | .vget u f => Sys2Proof.Machine.execVget u f s
  | .vins u f => Sys2Proof.Machine.execVins u f s
  | .viota u f => Sys2Proof.Machine.execViota u f s
  | .vcompress u f => Sys2Proof.Machine.execVcompress u f s
  | .vperm u f => Sys2Proof.Machine.execVperm u f s
  | .vslup u f => Sys2Proof.Machine.execVslup u f s
  | .vsldn u f => Sys2Proof.Machine.execVsldn u f s
  | .vadd u f x => Sys2Proof.Machine.execVadd u f x s
  | .vsub u f x => Sys2Proof.Machine.execVsub u f x s
  | .vmul u f x => Sys2Proof.Machine.execVmul u f x s
  | .vmulh u f x => Sys2Proof.Machine.execVmulh u f x s
  | .vmulhu u f x => Sys2Proof.Machine.execVmulhu u f x s
  | .vdiv u f x => Sys2Proof.Machine.execVdiv u f x s
  | .vdivu u f x => Sys2Proof.Machine.execVdivu u f x s
  | .vrem u f x => Sys2Proof.Machine.execVrem u f x s
  | .vremu u f x => Sys2Proof.Machine.execVremu u f x s
  | .vand u f x => Sys2Proof.Machine.execVand u f x s
  | .vor u f x => Sys2Proof.Machine.execVor u f x s
  | .vxor u f x => Sys2Proof.Machine.execVxor u f x s
  | .vshl u f x => Sys2Proof.Machine.execVshl u f x s
  | .vshr u f x => Sys2Proof.Machine.execVshr u f x s
  | .vsar u f x => Sys2Proof.Machine.execVsar u f x s
  | .vrotl u f x => Sys2Proof.Machine.execVrotl u f x s
  | .vmin u f x => Sys2Proof.Machine.execVmin u f x s
  | .vmax u f x => Sys2Proof.Machine.execVmax u f x s
  | .vminu u f x => Sys2Proof.Machine.execVminu u f x s
  | .vmaxu u f x => Sys2Proof.Machine.execVmaxu u f x s
  | .vadds u f x => Sys2Proof.Machine.execVadds u f x s
  | .vsubs u f x => Sys2Proof.Machine.execVsubs u f x s
  | .vaddsu u f x => Sys2Proof.Machine.execVaddsu u f x s
  | .vsubsu u f x => Sys2Proof.Machine.execVsubsu u f x s
  | .vaddo u f x => Sys2Proof.Machine.execVaddo u f x s
  | .vsubo u f x => Sys2Proof.Machine.execVsubo u f x s
  | .vmulo u f x => Sys2Proof.Machine.execVmulo u f x s
  | .vmv u f x => Sys2Proof.Machine.execVmv u f x s
  | .vmerge u f x => Sys2Proof.Machine.execVmerge u f x s
  | .vsexth u f x => Sys2Proof.Machine.execVsexth u f x s
  | .vzexth u f x => Sys2Proof.Machine.execVzexth u f x s
  | .vnarh u f x => Sys2Proof.Machine.execVnarh u f x s
  | .vpopc u f x => Sys2Proof.Machine.execVpopc u f x s
  | .vclz u f x => Sys2Proof.Machine.execVclz u f x s
  | .ceq u f x => Sys2Proof.Machine.execCeq u f x s
  | .cne u f x => Sys2Proof.Machine.execCne u f x s
  | .clt u f x => Sys2Proof.Machine.execClt u f x s
  | .cle u f x => Sys2Proof.Machine.execCle u f x s
  | .cgt u f x => Sys2Proof.Machine.execCgt u f x s
  | .cge u f x => Sys2Proof.Machine.execCge u f x s
  | .cltu u f x => Sys2Proof.Machine.execCltu u f x s
  | .cleu u f x => Sys2Proof.Machine.execCleu u f x s
  | .cgtu u f x => Sys2Proof.Machine.execCgtu u f x s
  | .cgeu u f x => Sys2Proof.Machine.execCgeu u f x s
  | .cfeq u f x => Sys2Proof.Machine.execCfeq u f x s
  | .cflt u f x => Sys2Proof.Machine.execCflt u f x s
  | .cfle u f x => Sys2Proof.Machine.execCfle u f x s
  | .cfun u f x => Sys2Proof.Machine.execCfun u f x s
  | .cftlt u f x => Sys2Proof.Machine.execCftlt u f x s
  | .vbeq u f => Sys2Proof.Machine.execVbeq u f s
  | .vbrng u f => Sys2Proof.Machine.execVbrng u f s
  | .vpat u f => Sys2Proof.Machine.execVpat u f s
  | .vpatm u f => Sys2Proof.Machine.execVpatm u f s
  | .vfadd u f x => Sys2Proof.Machine.execVfadd u f x s
  | .vfsub u f x => Sys2Proof.Machine.execVfsub u f x s
  | .vfmul u f x => Sys2Proof.Machine.execVfmul u f x s
  | .vfdiv u f x => Sys2Proof.Machine.execVfdiv u f x s
  | .vfsqrt u f x => Sys2Proof.Machine.execVfsqrt u f x s
  | .vfmin u f x => Sys2Proof.Machine.execVfmin u f x s
  | .vfmax u f x => Sys2Proof.Machine.execVfmax u f x s
  | .vfma u f x => Sys2Proof.Machine.execVfma u f x s
  | .vfnms u f x => Sys2Proof.Machine.execVfnms u f x s
  | .vfabs u f => Sys2Proof.Machine.execVfabs u f s
  | .vfneg u f => Sys2Proof.Machine.execVfneg u f s
  | .vcvtfi u f => Sys2Proof.Machine.execVcvtfi u f s
  | .vcvtif u f => Sys2Proof.Machine.execVcvtif u f s
  | .vcvtuf u f => Sys2Proof.Machine.execVcvtuf u f s
  | .vcvtds u f => Sys2Proof.Machine.execVcvtds u f s
  | .vcvtsd u f => Sys2Proof.Machine.execVcvtsd u f s
  | .vcmul u f x => Sys2Proof.Machine.execVcmul u f x s
  | .vcmulc u f x => Sys2Proof.Machine.execVcmulc u f x s
  | .vcmac u f x => Sys2Proof.Machine.execVcmac u f x s
  | .vcmacc u f x => Sys2Proof.Machine.execVcmacc u f x s
  | .vcadd u f x => Sys2Proof.Machine.execVcadd u f x s
  | .vcsub u f x => Sys2Proof.Machine.execVcsub u f x s
  | .vcabs2 u f => Sys2Proof.Machine.execVcabs2 u f s
  | .vbfly u f => Sys2Proof.Machine.execVbfly u f s
  | .vgfmul u f x => Sys2Proof.Machine.execVgfmul u f x s
  | .vgfmac u f x => Sys2Proof.Machine.execVgfmac u f x s
  | .pand u f => Sys2Proof.Machine.execPand u f s
  | .por u f => Sys2Proof.Machine.execPor u f s
  | .pxor u f => Sys2Proof.Machine.execPxor u f s
  | .pandn u f => Sys2Proof.Machine.execPandn u f s
  | .pnot u f => Sys2Proof.Machine.execPnot u f s
  | .pset u f => Sys2Proof.Machine.execPset u f s
  | .pclr u f => Sys2Proof.Machine.execPclr u f s
  | .pmov u f => Sys2Proof.Machine.execPmov u f s
  | .pcnt u f => Sys2Proof.Machine.execPcnt u f s
  | .pfirst u f => Sys2Proof.Machine.execPfirst u f s
  | .pfromg u f => Sys2Proof.Machine.execPfromg u f s
  | .pldb u f => Sys2Proof.Machine.execPldb u f s
  | .pstb u f => Sys2Proof.Machine.execPstb u f s
  | .astoreOwnerWrite r b v => Sys2Proof.Machine.execAstoreOwnerWrite r b v s
  | .bankClearComplete b => Sys2Proof.Machine.execBankClearComplete b s
  | .astCreate id => Sys2Proof.Machine.execAstCreate id s
  | .astDestroy id => Sys2Proof.Machine.execAstDestroy id s
  | .astLoad id => Sys2Proof.Machine.execAstLoad id s
  | .astInsert id => Sys2Proof.Machine.execAstInsert id s
  | .astDelete id => Sys2Proof.Machine.execAstDelete id s
  | .astSearch id => Sys2Proof.Machine.execAstSearch id s
  | .astRespread id => Sys2Proof.Machine.execAstRespread id s
  | .respreadStep n => Sys2Proof.Machine.execRespreadStep n s
  | .astRead id => Sys2Proof.Machine.execAstRead id s
  | .emberCheck => Sys2Proof.Machine.execEmberCheck s
  | .directWindowAccess off wr v => Sys2Proof.Machine.execDirectWindowAccess off wr v s
  | .cmpDeflate id => Sys2Proof.Machine.execCmpDeflate id s
  | .cmpInflate id => Sys2Proof.Machine.execCmpInflate id s
  | .cmpJobStart e => Sys2Proof.Machine.execCmpJobStart e s
  | .cmpJobComplete id => Sys2Proof.Machine.execCmpJobComplete id s
  | .mbrAttach id info => Sys2Proof.Machine.execMbrAttach id info s
  | .mbrDetach id => Sys2Proof.Machine.execMbrDetach id s
  | .arrCreate id => Sys2Proof.Machine.execArrCreate id s
  | .arrImport id => Sys2Proof.Machine.execArrImport id s
  | .replayEnd a => Sys2Proof.Machine.execReplayEnd a s
  | .arrStop id => Sys2Proof.Machine.execArrStop id s
  | .arrDrainComplete a => Sys2Proof.Machine.execArrDrainComplete a s
  | .arrSet id => Sys2Proof.Machine.execArrSet id s
  | .volCreate id => Sys2Proof.Machine.execVolCreate id s
  | .volDestroy id => Sys2Proof.Machine.execVolDestroy id s
  | .volResize id => Sys2Proof.Machine.execVolResize id s
  | .volOwner id => Sys2Proof.Machine.execVolOwner id s
  | .volRead id => Sys2Proof.Machine.execVolRead id s
  | .volWrite id => Sys2Proof.Machine.execVolWrite id s
  | .volFlush id => Sys2Proof.Machine.execVolFlush id s
  | .volWriteZeroes id => Sys2Proof.Machine.execVolWriteZeroes id s
  | .volDealloc id => Sys2Proof.Machine.execVolDealloc id s
  | .writeCacheReserve id => Sys2Proof.Machine.execWriteCacheReserve id s
  | .memberCommandTimeout n retryOk => Sys2Proof.Machine.execMemberCommandTimeout n retryOk s
  | .memberCommandCompletion n blk mediaErr => Sys2Proof.Machine.execMemberCommandCompletion n blk mediaErr s
  | .memberLinkDown w => Sys2Proof.Machine.execMemberLinkDown w s
  | .stripeOpen a stream => Sys2Proof.Machine.execStripeOpen a stream s
  | .stripeCloseTimeout a stream => Sys2Proof.Machine.execStripeCloseTimeout a stream s
  | .stripeCommit a st => Sys2Proof.Machine.execStripeCommit a st s
  | .stripeFree a st => Sys2Proof.Machine.execStripeFree a st s
  | .harvest a => Sys2Proof.Machine.execHarvest a s
  | .leafReadComplete id => Sys2Proof.Machine.execLeafReadComplete id s
  | .mapCheckpoint a => Sys2Proof.Machine.execMapCheckpoint a s
  | .arcMapcWrite r v => Sys2Proof.Machine.execArcMapcWrite r v s
  | .arcDestroyGo r v => Sys2Proof.Machine.execArcDestroyGo r v s
  | .arcDpWrite r p v => Sys2Proof.Machine.execArcDpWrite r p v s
  | .arrRebuildStart id => Sys2Proof.Machine.execArrRebuildStart id s
  | .arrRebuildPause id => Sys2Proof.Machine.execArrRebuildPause id s
  | .arrRebuildResume id => Sys2Proof.Machine.execArrRebuildResume id s
  | .rebuildCursorStep a => Sys2Proof.Machine.execRebuildCursorStep a s
  | .arrReshape id => Sys2Proof.Machine.execArrReshape id s
  | .reshapeStep a => Sys2Proof.Machine.execReshapeStep a s
  | .reshapeFinish a => Sys2Proof.Machine.execReshapeFinish a s
  | .arrLostlist id => Sys2Proof.Machine.execArrLostlist id s
  | .arrVaultInfo id => Sys2Proof.Machine.execArrVaultInfo id s
  | .freeze => Sys2Proof.Machine.execFreeze s
  | .vaultSeal a n => Sys2Proof.Machine.execVaultSeal a n s
  | .vfEnableSet numVfs => Sys2Proof.Machine.execVfEnableSet numVfs s
  | .vfFunctionLevelReset n => Sys2Proof.Machine.execVfFunctionLevelReset n s
  | .hostPortReset cause => Sys2Proof.Machine.execHostPortReset cause s
  | .perstRelease => Sys2Proof.Machine.execPerstRelease s
  | .functionD3hotEntry fn => Sys2Proof.Machine.execFunctionD3hotEntry fn s
  | .functionD0Return fn => Sys2Proof.Machine.execFunctionD0Return fn s
  | .busMasterEnableClear fn => Sys2Proof.Machine.execBusMasterEnableClear fn s
  | .busMasterEnableSet fn => Sys2Proof.Machine.execBusMasterEnableSet fn s
  | .vectorUnmask fn vec => Sys2Proof.Machine.execVectorUnmask fn vec s
  | .sqEnable r q v => Sys2Proof.Machine.execSqEnable r q v s
  | .cqEnable r q v => Sys2Proof.Machine.execCqEnable r q v s
  | .sqDisable r q v => Sys2Proof.Machine.execSqDisable r q v s
  | .cqDisable r q v => Sys2Proof.Machine.execCqDisable r q v s
  | .producerDoorbell r win n => Sys2Proof.Machine.execProducerDoorbell r win n s
  | .pushWrite r win off ws => Sys2Proof.Machine.execPushWrite r win off ws s
  | .completionConsumerWrite r win n => Sys2Proof.Machine.execCompletionConsumerWrite r win n s
  | .entryFetch q => Sys2Proof.Machine.execEntryFetch q s
  | .sqFetchError q => Sys2Proof.Machine.execSqFetchError q s
  | .moderationTimeout q => Sys2Proof.Machine.execModerationTimeout q s
  | .startTimeout id => Sys2Proof.Machine.execStartTimeout id s
  | .hostReadTimeout id => Sys2Proof.Machine.execHostReadTimeout id s
  | .devPstate id => Sys2Proof.Machine.execDevPstate id s
  | .pstateEntryComplete => Sys2Proof.Machine.execPstateEntryComplete s
  | .flush2Start => Sys2Proof.Machine.execFlush2Start s
  | .pstateEntryTimeout => Sys2Proof.Machine.execPstateEntryTimeout s
  | .wakeComplete => Sys2Proof.Machine.execWakeComplete s
  | .netSubsysEnable id => Sys2Proof.Machine.execNetSubsysEnable id s
  | .netSubsysDisable id => Sys2Proof.Machine.execNetSubsysDisable id s
  | .netExport id => Sys2Proof.Machine.execNetExport id s
  | .netUnexport id => Sys2Proof.Machine.execNetUnexport id s
  | .arpRequest port ifc => Sys2Proof.Machine.execArpRequest port ifc s
  | .tcpSyn port ifc dport syn => Sys2Proof.Machine.execTcpSyn port ifc dport syn s
  | .tcpRstOrFin c => Sys2Proof.Machine.execTcpRstOrFin c s
  | .icreq c pfv hpda hdgst ddgst maxr2t => Sys2Proof.Machine.execIcreq c pfv hpda hdgst ddgst maxr2t s
  | .h2ctermreq c => Sys2Proof.Machine.execH2ctermreq c s
  | .h2cdata c cid ofs data hdrOk dataOk => Sys2Proof.Machine.execH2cdata c cid ofs data hdrOk dataOk s
  | .connect c cid qid cntlid hostnqn subnqn prm => Sys2Proof.Machine.execConnect c cid qid cntlid hostnqn subnqn prm s
  | .propertyGet c cid ofs => Sys2Proof.Machine.execPropertyGet c cid ofs s
  | .propertySet c cid ofs v => Sys2Proof.Machine.execPropertySet c cid ofs v s
  | .identify c cid cns nsid => Sys2Proof.Machine.execIdentify c cid cns nsid s
  | .getLogPage c cid lid => Sys2Proof.Machine.execGetLogPage c cid lid s
  | .keepAlive c cid => Sys2Proof.Machine.execKeepAlive c cid s
  | .keepAliveTimeout cntl => Sys2Proof.Machine.execKeepAliveTimeout cntl s
  | .nvmeRead c cid nsid slba nlb => Sys2Proof.Machine.execNvmeRead c cid nsid slba nlb s
  | .nvmeWrite c cid nsid slba nlb capsule dataOk => Sys2Proof.Machine.execNvmeWrite c cid nsid slba nlb capsule dataOk s
  | .nvmeFlush c cid nsid => Sys2Proof.Machine.execNvmeFlush c cid nsid s
  | .nvmeWriteZeroes c cid nsid slba nlb => Sys2Proof.Machine.execNvmeWriteZeroes c cid nsid slba nlb s
  | .datasetManagement c cid nsid ad dsm => Sys2Proof.Machine.execDatasetManagement c cid nsid ad dsm s
  | .ptpEventMessage port tx msgType seqId => Sys2Proof.Machine.execPtpEventMessage port tx msgType seqId s
  | .netLinkChange port lanes => Sys2Proof.Machine.execNetLinkChange port lanes s
  | .netTsPop r v => Sys2Proof.Machine.execNetTsPop r v s
  | .netPortWrite r p v => Sys2Proof.Machine.execNetPortWrite r p v s
  | .partitionEnable r p v => Sys2Proof.Machine.execPartitionEnable r p v s
  | .partitionDisable r p v => Sys2Proof.Machine.execPartitionDisable r p v s
  | .hbmAlloc id => Sys2Proof.Machine.execHbmAlloc id s
  | .hbmFree id => Sys2Proof.Machine.execHbmFree id s
  | .memCopy id => Sys2Proof.Machine.execMemCopy id s
  | .partReset id => Sys2Proof.Machine.execPartReset id s
  | .partitionResetComplete p => Sys2Proof.Machine.execPartitionResetComplete p s
  | .partFreeze id => Sys2Proof.Machine.execPartFreeze id s
  | .freezeComplete p => Sys2Proof.Machine.execFreezeComplete p s
  | .partSave id => Sys2Proof.Machine.execPartSave id s
  | .partRestore id => Sys2Proof.Machine.execPartRestore id s
  | .partThaw id => Sys2Proof.Machine.execPartThaw id s
  | .partRelease id => Sys2Proof.Machine.execPartRelease id s
  | .fixedSlotStart p => Sys2Proof.Machine.execFixedSlotStart p s
  | .fixedSlotEnd p => Sys2Proof.Machine.execFixedSlotEnd p s
  | .millisecondBoundary => Sys2Proof.Machine.execMillisecondBoundary s
  | .calends => Sys2Proof.Machine.execCalends s
  | .meterBatchWrite => Sys2Proof.Machine.execMeterBatchWrite s
  | .trustMtrCWrite r v => Sys2Proof.Machine.execTrustMtrCWrite r v s
  | .pvEvenWrite n v => Sys2Proof.Machine.execPvEvenWrite n v s
  | .edgeEvent src => Sys2Proof.Machine.execEdgeEvent src s
  | .levelSourceAssert src => Sys2Proof.Machine.execLevelSourceAssert src s
  | .pinFilterExpiry pin => Sys2Proof.Machine.execPinFilterExpiry pin s
  | .handlerEntry w => Sys2Proof.Machine.execHandlerEntry w s
  | .eret w => Sys2Proof.Machine.execEret w s
  | .pf0EventMessage => Sys2Proof.Machine.execPf0EventMessage s
  | .evcHackWrite r v => Sys2Proof.Machine.execEvcHackWrite r v s
  | .evcSwsetWrite r v => Sys2Proof.Machine.execEvcSwsetWrite r v s
  | .evcRouteEnable r src v => Sys2Proof.Machine.execEvcRouteEnable r src v s
  | .sdmaGo r c v => Sys2Proof.Machine.execSdmaGo r c v s
  | .sdmaAbort r c v => Sys2Proof.Machine.execSdmaAbort r c v s
  | .sdmaResume r c v => Sys2Proof.Machine.execSdmaResume r c v s
  | .burstStart c request => Sys2Proof.Machine.execBurstStart c request s
  | .burstComplete c res wr => Sys2Proof.Machine.execBurstComplete c res wr s
  | .readbackComplete c res => Sys2Proof.Machine.execReadbackComplete c res s
  | .sdmaArmedTimeout c => Sys2Proof.Machine.execSdmaArmedTimeout c s
  | .linkTrainingComplete k lanes peer => Sys2Proof.Machine.execLinkTrainingComplete k lanes peer s
  | .linkTrainingTimeout k => Sys2Proof.Machine.execLinkTrainingTimeout k s
  | .linkFlitTimeout k => Sys2Proof.Machine.execLinkFlitTimeout k s
  | .laneErrorRate k lane => Sys2Proof.Machine.execLaneErrorRate k lane s
  | .plkRetrain r k => Sys2Proof.Machine.execPlkRetrain r k s
  | .plkOfflWrite r p v => Sys2Proof.Machine.execPlkOfflWrite r p v s
  | .peerBindingEnable r b v => Sys2Proof.Machine.execPeerBindingEnable r b v s
  | .bindingMessage dev b devmask ctxs gen => Sys2Proof.Machine.execBindingMessage dev b devmask ctxs gen s
  | .generationUpdateMessage dev b gen => Sys2Proof.Machine.execGenerationUpdateMessage dev b gen s
  | .generationUpdateAck dev p gen => Sys2Proof.Machine.execGenerationUpdateAck dev p gen s
  | .plkMirrorEnable r v => Sys2Proof.Machine.execPlkMirrorEnable r v s
  | .plkMirrorDisable r => Sys2Proof.Machine.execPlkMirrorDisable r s
  | .mirrorWriteMessage arrayId seq vol lba blocks => Sys2Proof.Machine.execMirrorWriteMessage arrayId seq vol lba blocks s
  | .mirrorAck id => Sys2Proof.Machine.execMirrorAck id s
  | .mirrorAckTimeout => Sys2Proof.Machine.execMirrorAckTimeout s
  | .plkMirrorRelease r => Sys2Proof.Machine.execPlkMirrorRelease r s
  | .partnerCopyRequest m => Sys2Proof.Machine.execPartnerCopyRequest m s
  | .timeExchange ofs => Sys2Proof.Machine.execTimeExchange ofs s
  | .tsyncPulse => Sys2Proof.Machine.execTsyncPulse s
  | .tsyncEdge ofs => Sys2Proof.Machine.execTsyncEdge ofs s
  | .almanacStartTimeout => Sys2Proof.Machine.execAlmanacStartTimeout s
  | .tileFault phys check => Sys2Proof.Machine.execTileFault phys check s
  | .heartbeatMiss stw n => Sys2Proof.Machine.execHeartbeatMiss stw n s
  | .sparePlaced l => Sys2Proof.Machine.execSparePlaced l s
  | .glbTileMapWrite r ix v => Sys2Proof.Machine.execGlbTileMapWrite r ix v s
  | .swapComplete => Sys2Proof.Machine.execSwapComplete s
  | .vigilSvcOut r v => Sys2Proof.Machine.execVigilSvcOut r v s
  | .vigilSvcTest r v => Sys2Proof.Machine.execVigilSvcTest r v s
  | .vigilSvcIn r v => Sys2Proof.Machine.execVigilSvcIn r v s
  | .serviceActionComplete pass ms => Sys2Proof.Machine.execServiceActionComplete pass ms s
  | .vigilUackWrite r v => Sys2Proof.Machine.execVigilUackWrite r v s
  | .vigilLogCWrite r v => Sys2Proof.Machine.execVigilLogCWrite r v s
  | .checkerSelfTest blk n pass => Sys2Proof.Machine.execCheckerSelfTest blk n pass s
  | .resetRequiredFault blk check => Sys2Proof.Machine.execResetRequiredFault blk check s
  | .trustKeyloadGo r => Sys2Proof.Machine.execTrustKeyloadGo r s
  | .trustFwActGo r => Sys2Proof.Machine.execTrustFwActGo r s
  | .trustFwActCommit r => Sys2Proof.Machine.execTrustFwActCommit r s
  | .mbxCmdWrite side r v => Sys2Proof.Machine.execMbxCmdWrite side r v s
  | .mbxDataWrite side r v => Sys2Proof.Machine.execMbxDataWrite side r v s
  | .mbxDataRead side r => Sys2Proof.Machine.execMbxDataRead side r s
  | .mailboxSidebandTimeout => Sys2Proof.Machine.execMailboxSidebandTimeout s
  | .getInfo => Sys2Proof.Machine.execGetInfo s
  | .getCert => Sys2Proof.Machine.execGetCert s
  | .attReport => Sys2Proof.Machine.execAttReport s
  | .fwStage flashOk => Sys2Proof.Machine.execFwStage flashOk s
  | .fwVerify => Sys2Proof.Machine.execFwVerify s
  | .getVersion => Sys2Proof.Machine.execGetVersion s
  | .getCapabilities ctExp xferSize maxMsg => Sys2Proof.Machine.execGetCapabilities ctExp xferSize maxMsg s
  | .negotiateAlgorithms ext hash meas => Sys2Proof.Machine.execNegotiateAlgorithms ext hash meas s
  | .getDigests => Sys2Proof.Machine.execGetDigests s
  | .getCertificate slot ofs len => Sys2Proof.Machine.execGetCertificate slot ofs len s
  | .challenge slot summary nonce => Sys2Proof.Machine.execChallenge slot summary nonce s
  | .getMeasurements slot index sign nonce => Sys2Proof.Machine.execGetMeasurements slot index sign nonce s
  | .chunkSend handle seq last data => Sys2Proof.Machine.execChunkSend handle seq last data s
  | .chunkGet handle seq => Sys2Proof.Machine.execChunkGet handle seq s
  | .powerOnReset env => Sys2Proof.Machine.execPowerOnReset env s
  | .deviceReset r env => Sys2Proof.Machine.execDeviceReset r env s
  | .testReset => Sys2Proof.Machine.execTestReset s
  | .pllLockLoss => Sys2Proof.Machine.execPllLockLoss s
  | .clkDivWrite r v => Sys2Proof.Machine.execClkDivWrite r v s
  | .clkTrimWrite r v => Sys2Proof.Machine.execClkTrimWrite r v s
  | .stewardTimerFire w ix => Sys2Proof.Machine.execStewardTimerFire w ix s
  | .clkTmrDlWrite r w ix hi v => Sys2Proof.Machine.execClkTmrDlWrite r w ix hi v s
  | .pwrAvsWrite r v vout => Sys2Proof.Machine.execPwrAvsWrite r v vout s
  | .avsConfirmTimeout => Sys2Proof.Machine.execAvsConfirmTimeout s
  | .temperatureSample tj => Sys2Proof.Machine.execTemperatureSample tj s
  | .throttleStep up => Sys2Proof.Machine.execThrottleStep up s
  | .engineFault ers e => Sys2Proof.Machine.execEngineFault ers e s
  | .rootPllRelock => Sys2Proof.Machine.execRootPllRelock s
  | .pinRawLevelChange pin level => Sys2Proof.Machine.execPinRawLevelChange pin level s
  | .timeSourceAbsent => Sys2Proof.Machine.execTimeSourceAbsent s
  | .timeSourceFirstEdge => Sys2Proof.Machine.execTimeSourceFirstEdge s
  | .partnerMirrorMessage ev => Sys2Proof.Machine.execPartnerMirrorMessage ev s
  | .unsupportedPdu c bad => Sys2Proof.Machine.execUnsupportedPdu c bad s
  | .invalidCommandOpcode c cid op => Sys2Proof.Machine.execInvalidCommandOpcode c cid op s
  | .tcpSegmentChecksumError port => Sys2Proof.Machine.execTcpSegmentChecksumError port s
  | .uncorrectableFecCodeword port => Sys2Proof.Machine.execUncorrectableFecCodeword port s

end Sys2Proof.Machine
end

