-- ==== Sys2Proof/Machine/Time.lean ====
section
/-! DEFINITION. Machine/Time.lean: the always-on clock: one TCLK, the Almanac, and the SCLK that counts the guard down
(R8, R25, R45, R47; log entry 3). -/

namespace Sys2Proof.Machine

/-- Nanoseconds the Almanac counts per tick: one TCLK while the root PLL is locked, ten per REFCLK edge otherwise; none
before it counts (R25, R26, R514). -/
def State.almStep (s : State) : Nat := if !s.clk.counting then 0 else if s.clk.locked then 1 else 10

/-- The guard's count falls by one per SCLK, down to 0; in that SCLK the lock is still open, and with the next it re-arms
(R47). -/
def State.sclk (s : State) : State :=
  let l := s.lock
  if !l.isOpen then s else if l.remain = 0 then s.setLock {} else s.setLock { l with remain := l.remain - 1 }

/-- The stewards' entries and exits in one SCLK (R429 to R432). -/
def State.stewardEdges (s : State) : State := (List.range 4).foldl (fun (x : State) w => x.stwSclk w) s

/-- One TCLK: 4 TCLK are 3 SCLK (R8), so every tick but each fourth carries an SCLK edge, while the PLL is locked; each peer link sends
a flit where one waits (R455). -/
def State.tick (s : State) : State :=
  let s1 := { s with clk := { s.clk with alm := s.clk.alm + BitVec.ofNat 64 s.almStep, sclkPhase := (s.clk.sclkPhase + 1) % 4 } }
  let s2 := if s.clk.locked && s.clk.sclkPhase ≠ 3 then s1.sclk.pinSclk.stewardEdges else s1
  s2.linkTick

end Sys2Proof.Machine
end

