-- ==== Sys2Proof/Laws/PerInstr.lean ====
section
/-! SUPPORT. Laws/PerInstr.lean: for every command, the word of a column processor instruction whose fields are well formed
decodes to it (R184 to R186). -/

namespace Sys2Proof.Laws

/-- Bits of the high part of an append. -/
theorem extract_append_high {m n : Nat} (x : BitVec m) (y : BitVec n) (k w : Nat) :
    (x ++ y).extractLsb' (n + k) w = x.extractLsb' k w := by
  apply BitVec.eq_of_getLsbD_eq; intro i hi
  simp only [BitVec.getLsbD_extractLsb', BitVec.getLsbD_append]
  rw [if_neg (by omega)]
  congr 2; omega

/-- The low part of an append. -/
theorem extract_append_low {m n : Nat} (x : BitVec m) (y : BitVec n) : (x ++ y).extractLsb' 0 n = y := by
  apply BitVec.eq_of_getLsbD_eq; intro i hi
  simp only [BitVec.getLsbD_extractLsb', BitVec.getLsbD_append]
  rw [if_pos (by omega)]
  simp [hi]

/-- All bits of a vector. -/
theorem extract_all {n : Nat} (x : BitVec n) : x.extractLsb' 0 n = x := by
  apply BitVec.eq_of_getLsbD_eq; intro i hi
  simp [hi]

/-- The fields of a joined word (R184). -/
theorem splitWord_joinWord (f : WordFields) : splitWord (joinWord f) = f := by
  obtain ⟨major, d, a, b, pe, pm, fn⟩ := f
  have h0 : (major ++ d ++ a ++ b ++ pe ++ pm ++ fn).extractLsb' 0 6 = fn := extract_append_low _ _
  have h1 : (major ++ d ++ a ++ b ++ pe ++ pm ++ fn).extractLsb' (6 + 0) 4 = pm := by
    rw [extract_append_high, extract_append_low]
  have h2 : (major ++ d ++ a ++ b ++ pe ++ pm ++ fn).extractLsb' (6 + (4 + 0)) 1 = pe := by
    rw [extract_append_high, extract_append_high, extract_append_low]
  have h3 : (major ++ d ++ a ++ b ++ pe ++ pm ++ fn).extractLsb' (6 + (4 + (1 + 0))) 5 = b := by
    rw [extract_append_high, extract_append_high, extract_append_high, extract_append_low]
  have h4 : (major ++ d ++ a ++ b ++ pe ++ pm ++ fn).extractLsb' (6 + (4 + (1 + (5 + 0)))) 5 = a := by
    rw [extract_append_high, extract_append_high, extract_append_high, extract_append_high, extract_append_low]
  have h5 : (major ++ d ++ a ++ b ++ pe ++ pm ++ fn).extractLsb' (6 + (4 + (1 + (5 + (5 + 0))))) 5 = d := by
    rw [extract_append_high, extract_append_high, extract_append_high, extract_append_high, extract_append_high,
      extract_append_low]
  have h6 : (major ++ d ++ a ++ b ++ pe ++ pm ++ fn).extractLsb' (6 + (4 + (1 + (5 + (5 + (5 + 0)))))) 6 = major := by
    rw [extract_append_high, extract_append_high, extract_append_high, extract_append_high, extract_append_high,
      extract_append_high, extract_all]
  exact congr (congr (congr (congr (congr (congr (congrArg WordFields.mk h6) h5) h4) h3) h2) h1) h0

/-- The decoder on a joined word whose raw instruction is i. -/
theorem cpDecode_joinWord (u : CpAt) (f : WordFields) (i : Instr) (h : cpDecodeRaw u f = some i) (ok : cpFieldsOk i = true) :
    cpDecode u (joinWord f) = some i := by
  simp only [cpDecode, splitWord_joinWord, h, ok, if_true]

/-- Two adjacent fields join to one. -/
theorem extract_join {n : Nat} (x : BitVec n) (k a b : Nat) :
    x.extractLsb' (k + b) a ++ x.extractLsb' k b = x.extractLsb' k (a + b) := by
  apply BitVec.eq_of_getLsbD_eq; intro i hi
  simp only [BitVec.getLsbD_append, BitVec.getLsbD_extractLsb']
  split
  · simp_all
  · have : k + b + (i - b) = k + i := by omega
    simp only [this]
    have h1 : decide (i - b < a) = true := by simp; omega
    simp [h1, hi]

/-- The four parts of IMM16 join to it (R184). -/
theorem imm16_parts (x : BitVec 16) :
    x.extractLsb' 11 5 ++ x.extractLsb' 10 1 ++ x.extractLsb' 6 4 ++ x.extractLsb' 0 6 = x := by
  have h1 : x.extractLsb' 11 5 ++ x.extractLsb' 10 1 = x.extractLsb' 10 6 := extract_join x 10 5 1
  have h2 : x.extractLsb' 10 6 ++ x.extractLsb' 6 4 = x.extractLsb' 6 10 := extract_join x 6 6 4
  have h3 : x.extractLsb' 6 10 ++ x.extractLsb' 0 6 = x.extractLsb' 0 16 := extract_join x 0 10 6
  rw [h1, h2, h3]; exact extract_all x

/-- The six parts of OFS26 join to it (R184). -/
theorem ofs26_parts (x : BitVec 26) :
    x.extractLsb' 21 5 ++ x.extractLsb' 16 5 ++ x.extractLsb' 11 5 ++ x.extractLsb' 10 1 ++ x.extractLsb' 6 4
      ++ x.extractLsb' 0 6 = x := by
  have h0 : x.extractLsb' 21 5 ++ x.extractLsb' 16 5 = x.extractLsb' 16 10 := extract_join x 16 5 5
  have h1 : x.extractLsb' 16 10 ++ x.extractLsb' 11 5 = x.extractLsb' 11 15 := extract_join x 11 10 5
  have h2 : x.extractLsb' 11 15 ++ x.extractLsb' 10 1 = x.extractLsb' 10 16 := extract_join x 10 15 1
  have h3 : x.extractLsb' 10 16 ++ x.extractLsb' 6 4 = x.extractLsb' 6 20 := extract_join x 6 16 4
  have h4 : x.extractLsb' 6 20 ++ x.extractLsb' 0 6 = x.extractLsb' 0 26 := extract_join x 0 20 6
  rw [h0, h1, h2, h3, h4]; exact extract_all x

/-- The word of instruction i, where it has one and its fields are well formed, decodes to i. -/
def CpWords.Statement (i : Instr) : Prop := ∀ w, cpEncode i = some w → cpFieldsOk i = true → ∃ u, cpDecode u w = some i

/-- The statement of an instruction with a word, from its decoding. -/
theorem cpWords_of (u : CpAt) (i : Instr) (w : Word) (h : cpEncode i = some w) (d : cpFieldsOk i = true → cpDecode u w = some i) :
    CpWords.Statement i := fun _ hx ok => ⟨u, Option.some.inj (h.symm.trans hx) ▸ d ok⟩

/-- The statement of a command that has no word. -/
theorem cpWords_none (i : Instr) (h : cpEncode i = none) : CpWords.Statement i := fun _ hx => nomatch h.symm.trans hx

theorem CpWords.registerWrite (r : Req) (sp : Space) (off : Nat) (v : Word) : CpWords.Statement (.registerWrite r sp off v) :=
  cpWords_none _ rfl

theorem CpWords.reservedAccess (r : Req) (sp : Space) (off size : Nat) (wr : Bool) : CpWords.Statement (.reservedAccess r sp off size wr) :=
  cpWords_none _ rfl

theorem CpWords.rcClearingRead (r : Req) (off : Nat) (again : Word) : CpWords.Statement (.rcClearingRead r off again) :=
  cpWords_none _ rfl

theorem CpWords.counterLowRead (r : Req) (off : Nat) : CpWords.Statement (.counterLowRead r off) :=
  cpWords_none _ rfl

theorem CpWords.clkAlmLoRead (r : Req) : CpWords.Statement (.clkAlmLoRead r) :=
  cpWords_none _ rfl

theorem CpWords.glbGuardWrite (r : Req) (v : Word) : CpWords.Statement (.glbGuardWrite r v) :=
  cpWords_none _ rfl

theorem CpWords.guardExpiry : CpWords.Statement (.guardExpiry) := cpWords_none _ rfl

theorem CpWords.triplicatedFieldVote (f : TField) : CpWords.Statement (.triplicatedFieldVote f) :=
  cpWords_none _ rfl

theorem CpWords.consistencyCheckComplete (b : CheckBlock) : CpWords.Statement (.consistencyCheckComplete b) :=
  cpWords_none _ rfl

theorem CpWords.generationIncrementReport (p : Nat) : CpWords.Statement (.generationIncrementReport p) :=
  cpWords_none _ rfl

theorem CpWords.loadPlan (id : Nat) : CpWords.Statement (.loadPlan id) :=
  cpWords_none _ rfl

theorem CpWords.unloadPlan (id : Nat) : CpWords.Statement (.unloadPlan id) :=
  cpWords_none _ rfl

theorem CpWords.runPlan (id : Nat) : CpWords.Statement (.runPlan id) :=
  cpWords_none _ rfl

theorem CpWords.cancelPlan (id : Nat) : CpWords.Statement (.cancelPlan id) :=
  cpWords_none _ rfl

theorem CpWords.runTimeout (id : Nat) : CpWords.Statement (.runTimeout id) :=
  cpWords_none _ rfl

theorem CpWords.morselClaim (t : Nat) : CpWords.Statement (.morselClaim t) :=
  cpWords_none _ rfl

theorem CpWords.morselComplete (t k : Nat) (agree : Bool) : CpWords.Statement (.morselComplete t k agree) :=
  cpWords_none _ rfl

theorem CpWords.materialisationComplete (run mat : Nat) : CpWords.Statement (.materialisationComplete run mat) :=
  cpWords_none _ rfl

theorem CpWords.materialisationError (run mat : Nat) : CpWords.Statement (.materialisationError run mat) :=
  cpWords_none _ rfl

theorem CpWords.storeCommit (run pipe m : Nat) : CpWords.Statement (.storeCommit run pipe m) :=
  cpWords_none _ rfl

theorem CpWords.storePlace (run pipe : Nat) : CpWords.Statement (.storePlace run pipe) :=
  cpWords_none _ rfl

theorem CpWords.exchangeRows (dev bind : Nat) (exkey : Word) (ctx : BitVec 13) (gen : BitVec 16) (mat pipe m bucket : Nat) (rows : List Row) : CpWords.Statement (.exchangeRows dev bind exkey ctx gen mat pipe m bucket rows) :=
  cpWords_none _ rfl

theorem CpWords.exchangeEndMarker (dev bind : Nat) (exkey : Word) (mat pipe : Nat) : CpWords.Statement (.exchangeEndMarker dev bind exkey mat pipe) :=
  cpWords_none _ rfl

theorem CpWords.exchangeAbortMarker (dev bind : Nat) (exkey : Word) : CpWords.Statement (.exchangeAbortMarker dev bind exkey) :=
  cpWords_none _ rfl

theorem CpWords.noclaimWrite (r : Req) (t : Nat) (v : Word) : CpWords.Statement (.noclaimWrite r t v) :=
  cpWords_none _ rfl

theorem CpWords.stagingFillComplete (u : CpAt) (win : Nat) : CpWords.Statement (.stagingFillComplete u win) :=
  cpWords_none _ rfl

theorem CpWords.kernelWatchdogExpiry (u : CpAt) : CpWords.Statement (.kernelWatchdogExpiry u) :=
  cpWords_none _ rfl

theorem CpWords.rangeOperationComplete (t : Nat) : CpWords.Statement (.rangeOperationComplete t) :=
  cpWords_none _ rfl

theorem CpWords.cacheDisableFlush (r : Req) (u : CpAt) : CpWords.Statement (.cacheDisableFlush r u) :=
  cpWords_none _ rfl

theorem CpWords.cacheEnable (r : Req) (u : CpAt) : CpWords.Statement (.cacheEnable r u) :=
  cpWords_none _ rfl

theorem CpWords.illegalInstruction (u : CpAt) (w : Word) : CpWords.Statement (.illegalInstruction u w) :=
  cpWords_none _ rfl

theorem CpWords.add (u : CpAt) (d a b : BitVec 5) : CpWords.Statement (.add u d a b) :=
  cpWords_of u _ _ rfl fun ok => cpDecode_joinWord u _ _ rfl ok

theorem CpWords.sub (u : CpAt) (d a b : BitVec 5) : CpWords.Statement (.sub u d a b) :=
  cpWords_of u _ _ rfl fun ok => cpDecode_joinWord u _ _ rfl ok

theorem CpWords.mul (u : CpAt) (d a b : BitVec 5) : CpWords.Statement (.mul u d a b) :=
  cpWords_of u _ _ rfl fun ok => cpDecode_joinWord u _ _ rfl ok

theorem CpWords.mulh (u : CpAt) (d a b : BitVec 5) : CpWords.Statement (.mulh u d a b) :=
  cpWords_of u _ _ rfl fun ok => cpDecode_joinWord u _ _ rfl ok

theorem CpWords.mulhu (u : CpAt) (d a b : BitVec 5) : CpWords.Statement (.mulhu u d a b) :=
  cpWords_of u _ _ rfl fun ok => cpDecode_joinWord u _ _ rfl ok

theorem CpWords.div (u : CpAt) (d a b : BitVec 5) : CpWords.Statement (.div u d a b) :=
  cpWords_of u _ _ rfl fun ok => cpDecode_joinWord u _ _ rfl ok

theorem CpWords.divu (u : CpAt) (d a b : BitVec 5) : CpWords.Statement (.divu u d a b) :=
  cpWords_of u _ _ rfl fun ok => cpDecode_joinWord u _ _ rfl ok

theorem CpWords.rem (u : CpAt) (d a b : BitVec 5) : CpWords.Statement (.rem u d a b) :=
  cpWords_of u _ _ rfl fun ok => cpDecode_joinWord u _ _ rfl ok

theorem CpWords.remu (u : CpAt) (d a b : BitVec 5) : CpWords.Statement (.remu u d a b) :=
  cpWords_of u _ _ rfl fun ok => cpDecode_joinWord u _ _ rfl ok

theorem CpWords.and (u : CpAt) (d a b : BitVec 5) : CpWords.Statement (.and u d a b) :=
  cpWords_of u _ _ rfl fun ok => cpDecode_joinWord u _ _ rfl ok

theorem CpWords.or (u : CpAt) (d a b : BitVec 5) : CpWords.Statement (.or u d a b) :=
  cpWords_of u _ _ rfl fun ok => cpDecode_joinWord u _ _ rfl ok

theorem CpWords.xor (u : CpAt) (d a b : BitVec 5) : CpWords.Statement (.xor u d a b) :=
  cpWords_of u _ _ rfl fun ok => cpDecode_joinWord u _ _ rfl ok

theorem CpWords.shl (u : CpAt) (d a b : BitVec 5) : CpWords.Statement (.shl u d a b) :=
  cpWords_of u _ _ rfl fun ok => cpDecode_joinWord u _ _ rfl ok

theorem CpWords.shr (u : CpAt) (d a b : BitVec 5) : CpWords.Statement (.shr u d a b) :=
  cpWords_of u _ _ rfl fun ok => cpDecode_joinWord u _ _ rfl ok

theorem CpWords.sar (u : CpAt) (d a b : BitVec 5) : CpWords.Statement (.sar u d a b) :=
  cpWords_of u _ _ rfl fun ok => cpDecode_joinWord u _ _ rfl ok

theorem CpWords.rotl (u : CpAt) (d a b : BitVec 5) : CpWords.Statement (.rotl u d a b) :=
  cpWords_of u _ _ rfl fun ok => cpDecode_joinWord u _ _ rfl ok

theorem CpWords.slt (u : CpAt) (d a b : BitVec 5) : CpWords.Statement (.slt u d a b) :=
  cpWords_of u _ _ rfl fun ok => cpDecode_joinWord u _ _ rfl ok

theorem CpWords.sltu (u : CpAt) (d a b : BitVec 5) : CpWords.Statement (.sltu u d a b) :=
  cpWords_of u _ _ rfl fun ok => cpDecode_joinWord u _ _ rfl ok

theorem CpWords.min (u : CpAt) (d a b : BitVec 5) : CpWords.Statement (.min u d a b) :=
  cpWords_of u _ _ rfl fun ok => cpDecode_joinWord u _ _ rfl ok

theorem CpWords.max (u : CpAt) (d a b : BitVec 5) : CpWords.Statement (.max u d a b) :=
  cpWords_of u _ _ rfl fun ok => cpDecode_joinWord u _ _ rfl ok

theorem CpWords.minu (u : CpAt) (d a b : BitVec 5) : CpWords.Statement (.minu u d a b) :=
  cpWords_of u _ _ rfl fun ok => cpDecode_joinWord u _ _ rfl ok

theorem CpWords.maxu (u : CpAt) (d a b : BitVec 5) : CpWords.Statement (.maxu u d a b) :=
  cpWords_of u _ _ rfl fun ok => cpDecode_joinWord u _ _ rfl ok

theorem CpWords.clz (u : CpAt) (d a : BitVec 5) : CpWords.Statement (.clz u d a) :=
  cpWords_of u _ _ rfl fun ok => cpDecode_joinWord u _ _ rfl ok

theorem CpWords.ctz (u : CpAt) (d a : BitVec 5) : CpWords.Statement (.ctz u d a) :=
  cpWords_of u _ _ rfl fun ok => cpDecode_joinWord u _ _ rfl ok

theorem CpWords.popc (u : CpAt) (d a : BitVec 5) : CpWords.Statement (.popc u d a) :=
  cpWords_of u _ _ rfl fun ok => cpDecode_joinWord u _ _ rfl ok

theorem CpWords.addo (u : CpAt) (d a b : BitVec 5) : CpWords.Statement (.addo u d a b) :=
  cpWords_of u _ _ rfl fun ok => cpDecode_joinWord u _ _ rfl ok

theorem CpWords.subo (u : CpAt) (d a b : BitVec 5) : CpWords.Statement (.subo u d a b) :=
  cpWords_of u _ _ rfl fun ok => cpDecode_joinWord u _ _ rfl ok

theorem CpWords.mulo (u : CpAt) (d a b : BitVec 5) : CpWords.Statement (.mulo u d a b) :=
  cpWords_of u _ _ rfl fun ok => cpDecode_joinWord u _ _ rfl ok

theorem CpWords.sext (u : CpAt) (d a b : BitVec 5) : CpWords.Statement (.sext u d a b) :=
  cpWords_of u _ _ rfl fun ok => cpDecode_joinWord u _ _ rfl ok

theorem CpWords.zext (u : CpAt) (d a b : BitVec 5) : CpWords.Statement (.zext u d a b) :=
  cpWords_of u _ _ rfl fun ok => cpDecode_joinWord u _ _ rfl ok

theorem CpWords.addi (u : CpAt) (d a : BitVec 5) (imm : BitVec 16) : CpWords.Statement (.addi u d a imm) :=
  cpWords_of u _ _ rfl fun ok =>
    cpDecode_joinWord u _ _ (congrArg (fun x => some (Instr.addi u d a x)) (imm16_parts imm)) ok

theorem CpWords.andi (u : CpAt) (d a : BitVec 5) (imm : BitVec 16) : CpWords.Statement (.andi u d a imm) :=
  cpWords_of u _ _ rfl fun ok =>
    cpDecode_joinWord u _ _ (congrArg (fun x => some (Instr.andi u d a x)) (imm16_parts imm)) ok

theorem CpWords.ori (u : CpAt) (d a : BitVec 5) (imm : BitVec 16) : CpWords.Statement (.ori u d a imm) :=
  cpWords_of u _ _ rfl fun ok =>
    cpDecode_joinWord u _ _ (congrArg (fun x => some (Instr.ori u d a x)) (imm16_parts imm)) ok

theorem CpWords.xori (u : CpAt) (d a : BitVec 5) (imm : BitVec 16) : CpWords.Statement (.xori u d a imm) :=
  cpWords_of u _ _ rfl fun ok =>
    cpDecode_joinWord u _ _ (congrArg (fun x => some (Instr.xori u d a x)) (imm16_parts imm)) ok

theorem CpWords.shli (u : CpAt) (d a : BitVec 5) (imm : BitVec 16) : CpWords.Statement (.shli u d a imm) :=
  cpWords_of u _ _ rfl fun ok =>
    cpDecode_joinWord u _ _ (congrArg (fun x => some (Instr.shli u d a x)) (imm16_parts imm)) ok

theorem CpWords.shri (u : CpAt) (d a : BitVec 5) (imm : BitVec 16) : CpWords.Statement (.shri u d a imm) :=
  cpWords_of u _ _ rfl fun ok =>
    cpDecode_joinWord u _ _ (congrArg (fun x => some (Instr.shri u d a x)) (imm16_parts imm)) ok

theorem CpWords.sari (u : CpAt) (d a : BitVec 5) (imm : BitVec 16) : CpWords.Statement (.sari u d a imm) :=
  cpWords_of u _ _ rfl fun ok =>
    cpDecode_joinWord u _ _ (congrArg (fun x => some (Instr.sari u d a x)) (imm16_parts imm)) ok

theorem CpWords.lui (u : CpAt) (d a : BitVec 5) (imm : BitVec 16) : CpWords.Statement (.lui u d a imm) :=
  cpWords_of u _ _ rfl fun ok =>
    cpDecode_joinWord u _ _ (congrArg (fun x => some (Instr.lui u d a x)) (imm16_parts imm)) ok

theorem CpWords.slti (u : CpAt) (d a : BitVec 5) (imm : BitVec 16) : CpWords.Statement (.slti u d a imm) :=
  cpWords_of u _ _ rfl fun ok =>
    cpDecode_joinWord u _ _ (congrArg (fun x => some (Instr.slti u d a x)) (imm16_parts imm)) ok

theorem CpWords.fadd (u : CpAt) (d a b : BitVec 5) (dbl : Bool) : CpWords.Statement (.fadd u d a b dbl) :=
  cpWords_of u _ _ rfl fun ok => by
    cases dbl <;> exact cpDecode_joinWord u _ _ (by simp [cpDecodeRaw, isSR, dec0B, fpFn]) ok

theorem CpWords.fsub (u : CpAt) (d a b : BitVec 5) (dbl : Bool) : CpWords.Statement (.fsub u d a b dbl) :=
  cpWords_of u _ _ rfl fun ok => by
    cases dbl <;> exact cpDecode_joinWord u _ _ (by simp [cpDecodeRaw, isSR, dec0B, fpFn]) ok

theorem CpWords.fmul (u : CpAt) (d a b : BitVec 5) (dbl : Bool) : CpWords.Statement (.fmul u d a b dbl) :=
  cpWords_of u _ _ rfl fun ok => by
    cases dbl <;> exact cpDecode_joinWord u _ _ (by simp [cpDecodeRaw, isSR, dec0B, fpFn]) ok

theorem CpWords.fdiv (u : CpAt) (d a b : BitVec 5) (dbl : Bool) : CpWords.Statement (.fdiv u d a b dbl) :=
  cpWords_of u _ _ rfl fun ok => by
    cases dbl <;> exact cpDecode_joinWord u _ _ (by simp [cpDecodeRaw, isSR, dec0B, fpFn]) ok

theorem CpWords.fsqrt (u : CpAt) (d a : BitVec 5) (dbl : Bool) : CpWords.Statement (.fsqrt u d a dbl) :=
  cpWords_of u _ _ rfl fun ok => by
    cases dbl <;> exact cpDecode_joinWord u _ _ (by simp [cpDecodeRaw, isSR, dec0B, fpFn]) ok

theorem CpWords.fmin (u : CpAt) (d a b : BitVec 5) (dbl : Bool) : CpWords.Statement (.fmin u d a b dbl) :=
  cpWords_of u _ _ rfl fun ok => by
    cases dbl <;> exact cpDecode_joinWord u _ _ (by simp [cpDecodeRaw, isSR, dec0B, fpFn]) ok

theorem CpWords.fmax (u : CpAt) (d a b : BitVec 5) (dbl : Bool) : CpWords.Statement (.fmax u d a b dbl) :=
  cpWords_of u _ _ rfl fun ok => by
    cases dbl <;> exact cpDecode_joinWord u _ _ (by simp [cpDecodeRaw, isSR, dec0B, fpFn]) ok

theorem CpWords.feq (u : CpAt) (d a b : BitVec 5) (dbl : Bool) : CpWords.Statement (.feq u d a b dbl) :=
  cpWords_of u _ _ rfl fun ok => by
    cases dbl <;> exact cpDecode_joinWord u _ _ (by simp [cpDecodeRaw, isSR, dec0B, fpFn]) ok

theorem CpWords.flt (u : CpAt) (d a b : BitVec 5) (dbl : Bool) : CpWords.Statement (.flt u d a b dbl) :=
  cpWords_of u _ _ rfl fun ok => by
    cases dbl <;> exact cpDecode_joinWord u _ _ (by simp [cpDecodeRaw, isSR, dec0B, fpFn]) ok

theorem CpWords.fle (u : CpAt) (d a b : BitVec 5) (dbl : Bool) : CpWords.Statement (.fle u d a b dbl) :=
  cpWords_of u _ _ rfl fun ok => by
    cases dbl <;> exact cpDecode_joinWord u _ _ (by simp [cpDecodeRaw, isSR, dec0B, fpFn]) ok

theorem CpWords.fcvti (u : CpAt) (d a : BitVec 5) (dbl : Bool) : CpWords.Statement (.fcvti u d a dbl) :=
  cpWords_of u _ _ rfl fun ok => by
    cases dbl <;> exact cpDecode_joinWord u _ _ (by simp [cpDecodeRaw, isSR, dec0B, fpFn]) ok

theorem CpWords.fcvtf (u : CpAt) (d a : BitVec 5) (dbl : Bool) : CpWords.Statement (.fcvtf u d a dbl) :=
  cpWords_of u _ _ rfl fun ok => by
    cases dbl <;> exact cpDecode_joinWord u _ _ (by simp [cpDecodeRaw, isSR, dec0B, fpFn]) ok

theorem CpWords.fcvtp (u : CpAt) (d a : BitVec 5) (dbl : Bool) : CpWords.Statement (.fcvtp u d a dbl) :=
  cpWords_of u _ _ rfl fun ok => by
    cases dbl <;> exact cpDecode_joinWord u _ _ (by simp [cpDecodeRaw, isSR, dec0B, fpFn]) ok

theorem CpWords.fma (u : CpAt) (d a b : BitVec 5) (dbl : Bool) : CpWords.Statement (.fma u d a b dbl) :=
  cpWords_of u _ _ rfl fun ok => by
    cases dbl <;> exact cpDecode_joinWord u _ _ (by simp [cpDecodeRaw, isSR, dec0B, fpFn]) ok

theorem CpWords.lb (u : CpAt) (d a : BitVec 5) (imm : BitVec 16) : CpWords.Statement (.lb u d a imm) :=
  cpWords_of u _ _ rfl fun ok =>
    cpDecode_joinWord u _ _ (congrArg (fun x => some (Instr.lb u d a x)) (imm16_parts imm)) ok

theorem CpWords.lh (u : CpAt) (d a : BitVec 5) (imm : BitVec 16) : CpWords.Statement (.lh u d a imm) :=
  cpWords_of u _ _ rfl fun ok =>
    cpDecode_joinWord u _ _ (congrArg (fun x => some (Instr.lh u d a x)) (imm16_parts imm)) ok

theorem CpWords.lw (u : CpAt) (d a : BitVec 5) (imm : BitVec 16) : CpWords.Statement (.lw u d a imm) :=
  cpWords_of u _ _ rfl fun ok =>
    cpDecode_joinWord u _ _ (congrArg (fun x => some (Instr.lw u d a x)) (imm16_parts imm)) ok

theorem CpWords.ld (u : CpAt) (d a : BitVec 5) (imm : BitVec 16) : CpWords.Statement (.ld u d a imm) :=
  cpWords_of u _ _ rfl fun ok =>
    cpDecode_joinWord u _ _ (congrArg (fun x => some (Instr.ld u d a x)) (imm16_parts imm)) ok

theorem CpWords.lbu (u : CpAt) (d a : BitVec 5) (imm : BitVec 16) : CpWords.Statement (.lbu u d a imm) :=
  cpWords_of u _ _ rfl fun ok =>
    cpDecode_joinWord u _ _ (congrArg (fun x => some (Instr.lbu u d a x)) (imm16_parts imm)) ok

theorem CpWords.lhu (u : CpAt) (d a : BitVec 5) (imm : BitVec 16) : CpWords.Statement (.lhu u d a imm) :=
  cpWords_of u _ _ rfl fun ok =>
    cpDecode_joinWord u _ _ (congrArg (fun x => some (Instr.lhu u d a x)) (imm16_parts imm)) ok

theorem CpWords.lwu (u : CpAt) (d a : BitVec 5) (imm : BitVec 16) : CpWords.Statement (.lwu u d a imm) :=
  cpWords_of u _ _ rfl fun ok =>
    cpDecode_joinWord u _ _ (congrArg (fun x => some (Instr.lwu u d a x)) (imm16_parts imm)) ok

theorem CpWords.sb (u : CpAt) (d a : BitVec 5) (imm : BitVec 16) : CpWords.Statement (.sb u d a imm) :=
  cpWords_of u _ _ rfl fun ok =>
    cpDecode_joinWord u _ _ (congrArg (fun x => some (Instr.sb u d a x)) (imm16_parts imm)) ok

theorem CpWords.sh (u : CpAt) (d a : BitVec 5) (imm : BitVec 16) : CpWords.Statement (.sh u d a imm) :=
  cpWords_of u _ _ rfl fun ok =>
    cpDecode_joinWord u _ _ (congrArg (fun x => some (Instr.sh u d a x)) (imm16_parts imm)) ok

theorem CpWords.sw (u : CpAt) (d a : BitVec 5) (imm : BitVec 16) : CpWords.Statement (.sw u d a imm) :=
  cpWords_of u _ _ rfl fun ok =>
    cpDecode_joinWord u _ _ (congrArg (fun x => some (Instr.sw u d a x)) (imm16_parts imm)) ok

theorem CpWords.sd (u : CpAt) (d a : BitVec 5) (imm : BitVec 16) : CpWords.Statement (.sd u d a imm) :=
  cpWords_of u _ _ rfl fun ok =>
    cpDecode_joinWord u _ _ (congrArg (fun x => some (Instr.sd u d a x)) (imm16_parts imm)) ok

theorem CpWords.beq (u : CpAt) (a b : BitVec 5) (ofs : BitVec 16) : CpWords.Statement (.beq u a b ofs) :=
  cpWords_of u _ _ rfl fun ok =>
    cpDecode_joinWord u _ _ (congrArg (fun x => some (Instr.beq u a b x)) (imm16_parts ofs)) ok

theorem CpWords.bne (u : CpAt) (a b : BitVec 5) (ofs : BitVec 16) : CpWords.Statement (.bne u a b ofs) :=
  cpWords_of u _ _ rfl fun ok =>
    cpDecode_joinWord u _ _ (congrArg (fun x => some (Instr.bne u a b x)) (imm16_parts ofs)) ok

theorem CpWords.blt (u : CpAt) (a b : BitVec 5) (ofs : BitVec 16) : CpWords.Statement (.blt u a b ofs) :=
  cpWords_of u _ _ rfl fun ok =>
    cpDecode_joinWord u _ _ (congrArg (fun x => some (Instr.blt u a b x)) (imm16_parts ofs)) ok

theorem CpWords.bge (u : CpAt) (a b : BitVec 5) (ofs : BitVec 16) : CpWords.Statement (.bge u a b ofs) :=
  cpWords_of u _ _ rfl fun ok =>
    cpDecode_joinWord u _ _ (congrArg (fun x => some (Instr.bge u a b x)) (imm16_parts ofs)) ok

theorem CpWords.bltu (u : CpAt) (a b : BitVec 5) (ofs : BitVec 16) : CpWords.Statement (.bltu u a b ofs) :=
  cpWords_of u _ _ rfl fun ok =>
    cpDecode_joinWord u _ _ (congrArg (fun x => some (Instr.bltu u a b x)) (imm16_parts ofs)) ok

theorem CpWords.bgeu (u : CpAt) (a b : BitVec 5) (ofs : BitVec 16) : CpWords.Statement (.bgeu u a b ofs) :=
  cpWords_of u _ _ rfl fun ok =>
    cpDecode_joinWord u _ _ (congrArg (fun x => some (Instr.bgeu u a b x)) (imm16_parts ofs)) ok

theorem CpWords.jmp (u : CpAt) (ofs : BitVec 26) : CpWords.Statement (.jmp u ofs) :=
  cpWords_of u _ _ rfl fun ok =>
    cpDecode_joinWord u _ _ (congrArg (fun x => some (Instr.jmp u x)) (ofs26_parts ofs)) ok

theorem CpWords.jal (u : CpAt) (ofs : BitVec 26) : CpWords.Statement (.jal u ofs) :=
  cpWords_of u _ _ rfl fun ok =>
    cpDecode_joinWord u _ _ (congrArg (fun x => some (Instr.jal u x)) (ofs26_parts ofs)) ok

theorem CpWords.vld (u : CpAt) (f : VFields) : CpWords.Statement (.vld u f) :=
  cpWords_of u _ _ rfl fun ok => by
    obtain ⟨d, a, b, pe, pm⟩ := f
    cases pe <;> exact cpDecode_joinWord u _ _ rfl ok

theorem CpWords.vlds (u : CpAt) (f : VFields) : CpWords.Statement (.vlds u f) :=
  cpWords_of u _ _ rfl fun ok => by
    obtain ⟨d, a, b, pe, pm⟩ := f
    cases pe <;> exact cpDecode_joinWord u _ _ rfl ok

theorem CpWords.vldx (u : CpAt) (f : VFields) : CpWords.Statement (.vldx u f) :=
  cpWords_of u _ _ rfl fun ok => by
    obtain ⟨d, a, b, pe, pm⟩ := f
    cases pe <;> exact cpDecode_joinWord u _ _ rfl ok

theorem CpWords.vldff (u : CpAt) (f : VFields) : CpWords.Statement (.vldff u f) :=
  cpWords_of u _ _ rfl fun ok => by
    obtain ⟨d, a, b, pe, pm⟩ := f
    cases pe <;> exact cpDecode_joinWord u _ _ rfl ok

theorem CpWords.vst (u : CpAt) (f : VFields) : CpWords.Statement (.vst u f) :=
  cpWords_of u _ _ rfl fun ok => by
    obtain ⟨d, a, b, pe, pm⟩ := f
    cases pe <;> exact cpDecode_joinWord u _ _ rfl ok

theorem CpWords.vsts (u : CpAt) (f : VFields) : CpWords.Statement (.vsts u f) :=
  cpWords_of u _ _ rfl fun ok => by
    obtain ⟨d, a, b, pe, pm⟩ := f
    cases pe <;> exact cpDecode_joinWord u _ _ rfl ok

theorem CpWords.vstx (u : CpAt) (f : VFields) : CpWords.Statement (.vstx u f) :=
  cpWords_of u _ _ rfl fun ok => by
    obtain ⟨d, a, b, pe, pm⟩ := f
    cases pe <;> exact cpDecode_joinWord u _ _ rfl ok

theorem CpWords.halt (u : CpAt) : CpWords.Statement (.halt u) :=
  cpWords_of u _ _ rfl fun ok => cpDecode_joinWord u _ _ rfl ok

theorem CpWords.fence (u : CpAt) : CpWords.Statement (.fence u) :=
  cpWords_of u _ _ rfl fun ok => cpDecode_joinWord u _ _ rfl ok

theorem CpWords.rdsr (u : CpAt) (d a : BitVec 5) : CpWords.Statement (.rdsr u d a) :=
  cpWords_of u _ _ rfl fun ok => cpDecode_joinWord u _ _ rfl ok

theorem CpWords.wrsr (u : CpAt) (d a : BitVec 5) : CpWords.Statement (.wrsr u d a) :=
  cpWords_of u _ _ rfl fun ok => cpDecode_joinWord u _ _ rfl ok

theorem CpWords.trap (u : CpAt) (a : BitVec 5) : CpWords.Statement (.trap u a) :=
  cpWords_of u _ _ rfl fun ok => cpDecode_joinWord u _ _ rfl ok

theorem CpWords.jr (u : CpAt) (d a : BitVec 5) : CpWords.Statement (.jr u d a) :=
  cpWords_of u _ _ rfl fun ok => cpDecode_joinWord u _ _ rfl ok

theorem CpWords.nop (u : CpAt) : CpWords.Statement (.nop u) :=
  cpWords_of u _ _ rfl fun ok => cpDecode_joinWord u _ _ rfl ok

theorem CpWords.dcz (u : CpAt) (a : BitVec 5) : CpWords.Statement (.dcz u a) :=
  cpWords_of u _ _ rfl fun ok => cpDecode_joinWord u _ _ rfl ok

theorem CpWords.dcl (u : CpAt) (a : BitVec 5) : CpWords.Statement (.dcl u a) :=
  cpWords_of u _ _ rfl fun ok => cpDecode_joinWord u _ _ rfl ok

theorem CpWords.dci (u : CpAt) (a : BitVec 5) : CpWords.Statement (.dci u a) :=
  cpWords_of u _ _ rfl fun ok => cpDecode_joinWord u _ _ rfl ok

theorem CpWords.dcci (u : CpAt) (a : BitVec 5) : CpWords.Statement (.dcci u a) :=
  cpWords_of u _ _ rfl fun ok => cpDecode_joinWord u _ _ rfl ok

theorem CpWords.dlock (u : CpAt) (d a : BitVec 5) : CpWords.Statement (.dlock u d a) :=
  cpWords_of u _ _ rfl fun ok => cpDecode_joinWord u _ _ rfl ok

theorem CpWords.dunlock (u : CpAt) (a : BitVec 5) : CpWords.Statement (.dunlock u a) :=
  cpWords_of u _ _ rfl fun ok => cpDecode_joinWord u _ _ rfl ok

theorem CpWords.rngc (u : CpAt) (a b : BitVec 5) : CpWords.Statement (.rngc u a b) :=
  cpWords_of u _ _ rfl fun ok => cpDecode_joinWord u _ _ rfl ok

theorem CpWords.rngi (u : CpAt) (a b : BitVec 5) : CpWords.Statement (.rngi u a b) :=
  cpWords_of u _ _ rfl fun ok => cpDecode_joinWord u _ _ rfl ok

theorem CpWords.rngci (u : CpAt) (a b : BitVec 5) : CpWords.Statement (.rngci u a b) :=
  cpWords_of u _ _ rfl fun ok => cpDecode_joinWord u _ _ rfl ok

theorem CpWords.rngiIncludeLocked (u : CpAt) (a b : BitVec 5) : CpWords.Statement (.rngiIncludeLocked u a b) :=
  cpWords_of u _ _ rfl fun ok => cpDecode_joinWord u _ _ rfl ok

theorem CpWords.rngciIncludeLocked (u : CpAt) (a b : BitVec 5) : CpWords.Statement (.rngciIncludeLocked u a b) :=
  cpWords_of u _ _ rfl fun ok => cpDecode_joinWord u _ _ rfl ok

theorem CpWords.vcfg (u : CpAt) (d a : BitVec 5) (imm : BitVec 16) : CpWords.Statement (.vcfg u d a imm) :=
  cpWords_of u _ _ rfl fun ok =>
    cpDecode_joinWord u _ _ (congrArg (fun x => some (Instr.vcfg u d a x)) (imm16_parts imm)) ok

theorem CpWords.vredsum (u : CpAt) (f : VFields) : CpWords.Statement (.vredsum u f) :=
  cpWords_of u _ _ rfl fun ok => by
    obtain ⟨d, a, b, pe, pm⟩ := f
    cases pe <;> exact cpDecode_joinWord u _ _ rfl ok

theorem CpWords.vredmin (u : CpAt) (f : VFields) : CpWords.Statement (.vredmin u f) :=
  cpWords_of u _ _ rfl fun ok => by
    obtain ⟨d, a, b, pe, pm⟩ := f
    cases pe <;> exact cpDecode_joinWord u _ _ rfl ok

theorem CpWords.vredmax (u : CpAt) (f : VFields) : CpWords.Statement (.vredmax u f) :=
  cpWords_of u _ _ rfl fun ok => by
    obtain ⟨d, a, b, pe, pm⟩ := f
    cases pe <;> exact cpDecode_joinWord u _ _ rfl ok

theorem CpWords.vredminu (u : CpAt) (f : VFields) : CpWords.Statement (.vredminu u f) :=
  cpWords_of u _ _ rfl fun ok => by
    obtain ⟨d, a, b, pe, pm⟩ := f
    cases pe <;> exact cpDecode_joinWord u _ _ rfl ok

theorem CpWords.vredmaxu (u : CpAt) (f : VFields) : CpWords.Statement (.vredmaxu u f) :=
  cpWords_of u _ _ rfl fun ok => by
    obtain ⟨d, a, b, pe, pm⟩ := f
    cases pe <;> exact cpDecode_joinWord u _ _ rfl ok

theorem CpWords.vfredsum (u : CpAt) (f : VFields) : CpWords.Statement (.vfredsum u f) :=
  cpWords_of u _ _ rfl fun ok => by
    obtain ⟨d, a, b, pe, pm⟩ := f
    cases pe <;> exact cpDecode_joinWord u _ _ rfl ok

theorem CpWords.vfredmin (u : CpAt) (f : VFields) : CpWords.Statement (.vfredmin u f) :=
  cpWords_of u _ _ rfl fun ok => by
    obtain ⟨d, a, b, pe, pm⟩ := f
    cases pe <;> exact cpDecode_joinWord u _ _ rfl ok

theorem CpWords.vfredmax (u : CpAt) (f : VFields) : CpWords.Statement (.vfredmax u f) :=
  cpWords_of u _ _ rfl fun ok => by
    obtain ⟨d, a, b, pe, pm⟩ := f
    cases pe <;> exact cpDecode_joinWord u _ _ rfl ok

theorem CpWords.vget (u : CpAt) (f : VFields) : CpWords.Statement (.vget u f) :=
  cpWords_of u _ _ rfl fun ok => by
    obtain ⟨d, a, b, pe, pm⟩ := f
    cases pe <;> exact cpDecode_joinWord u _ _ rfl ok

theorem CpWords.vins (u : CpAt) (f : VFields) : CpWords.Statement (.vins u f) :=
  cpWords_of u _ _ rfl fun ok => by
    obtain ⟨d, a, b, pe, pm⟩ := f
    cases pe <;> exact cpDecode_joinWord u _ _ rfl ok

theorem CpWords.viota (u : CpAt) (f : VFields) : CpWords.Statement (.viota u f) :=
  cpWords_of u _ _ rfl fun ok => by
    obtain ⟨d, a, b, pe, pm⟩ := f
    cases pe <;> exact cpDecode_joinWord u _ _ rfl ok

theorem CpWords.vcompress (u : CpAt) (f : VFields) : CpWords.Statement (.vcompress u f) :=
  cpWords_of u _ _ rfl fun ok => by
    obtain ⟨d, a, b, pe, pm⟩ := f
    cases pe <;> exact cpDecode_joinWord u _ _ rfl ok

theorem CpWords.vperm (u : CpAt) (f : VFields) : CpWords.Statement (.vperm u f) :=
  cpWords_of u _ _ rfl fun ok => by
    obtain ⟨d, a, b, pe, pm⟩ := f
    cases pe <;> exact cpDecode_joinWord u _ _ rfl ok

theorem CpWords.vslup (u : CpAt) (f : VFields) : CpWords.Statement (.vslup u f) :=
  cpWords_of u _ _ rfl fun ok => by
    obtain ⟨d, a, b, pe, pm⟩ := f
    cases pe <;> exact cpDecode_joinWord u _ _ rfl ok

theorem CpWords.vsldn (u : CpAt) (f : VFields) : CpWords.Statement (.vsldn u f) :=
  cpWords_of u _ _ rfl fun ok => by
    obtain ⟨d, a, b, pe, pm⟩ := f
    cases pe <;> exact cpDecode_joinWord u _ _ rfl ok

theorem CpWords.vadd (u : CpAt) (f : VFields) (x : Bool) : CpWords.Statement (.vadd u f x) :=
  cpWords_of u _ _ rfl fun ok => by
    obtain ⟨d, a, b, pe, pm⟩ := f
    cases x <;> cases pe <;> exact cpDecode_joinWord u _ _ rfl ok

theorem CpWords.vsub (u : CpAt) (f : VFields) (x : Bool) : CpWords.Statement (.vsub u f x) :=
  cpWords_of u _ _ rfl fun ok => by
    obtain ⟨d, a, b, pe, pm⟩ := f
    cases x <;> cases pe <;> exact cpDecode_joinWord u _ _ rfl ok

theorem CpWords.vmul (u : CpAt) (f : VFields) (x : Bool) : CpWords.Statement (.vmul u f x) :=
  cpWords_of u _ _ rfl fun ok => by
    obtain ⟨d, a, b, pe, pm⟩ := f
    cases x <;> cases pe <;> exact cpDecode_joinWord u _ _ rfl ok

theorem CpWords.vmulh (u : CpAt) (f : VFields) (x : Bool) : CpWords.Statement (.vmulh u f x) :=
  cpWords_of u _ _ rfl fun ok => by
    obtain ⟨d, a, b, pe, pm⟩ := f
    cases x <;> cases pe <;> exact cpDecode_joinWord u _ _ rfl ok

theorem CpWords.vmulhu (u : CpAt) (f : VFields) (x : Bool) : CpWords.Statement (.vmulhu u f x) :=
  cpWords_of u _ _ rfl fun ok => by
    obtain ⟨d, a, b, pe, pm⟩ := f
    cases x <;> cases pe <;> exact cpDecode_joinWord u _ _ rfl ok

theorem CpWords.vdiv (u : CpAt) (f : VFields) (x : Bool) : CpWords.Statement (.vdiv u f x) :=
  cpWords_of u _ _ rfl fun ok => by
    obtain ⟨d, a, b, pe, pm⟩ := f
    cases x <;> cases pe <;> exact cpDecode_joinWord u _ _ rfl ok

theorem CpWords.vdivu (u : CpAt) (f : VFields) (x : Bool) : CpWords.Statement (.vdivu u f x) :=
  cpWords_of u _ _ rfl fun ok => by
    obtain ⟨d, a, b, pe, pm⟩ := f
    cases x <;> cases pe <;> exact cpDecode_joinWord u _ _ rfl ok

theorem CpWords.vrem (u : CpAt) (f : VFields) (x : Bool) : CpWords.Statement (.vrem u f x) :=
  cpWords_of u _ _ rfl fun ok => by
    obtain ⟨d, a, b, pe, pm⟩ := f
    cases x <;> cases pe <;> exact cpDecode_joinWord u _ _ rfl ok

theorem CpWords.vremu (u : CpAt) (f : VFields) (x : Bool) : CpWords.Statement (.vremu u f x) :=
  cpWords_of u _ _ rfl fun ok => by
    obtain ⟨d, a, b, pe, pm⟩ := f
    cases x <;> cases pe <;> exact cpDecode_joinWord u _ _ rfl ok

theorem CpWords.vand (u : CpAt) (f : VFields) (x : Bool) : CpWords.Statement (.vand u f x) :=
  cpWords_of u _ _ rfl fun ok => by
    obtain ⟨d, a, b, pe, pm⟩ := f
    cases x <;> cases pe <;> exact cpDecode_joinWord u _ _ rfl ok

theorem CpWords.vor (u : CpAt) (f : VFields) (x : Bool) : CpWords.Statement (.vor u f x) :=
  cpWords_of u _ _ rfl fun ok => by
    obtain ⟨d, a, b, pe, pm⟩ := f
    cases x <;> cases pe <;> exact cpDecode_joinWord u _ _ rfl ok

theorem CpWords.vxor (u : CpAt) (f : VFields) (x : Bool) : CpWords.Statement (.vxor u f x) :=
  cpWords_of u _ _ rfl fun ok => by
    obtain ⟨d, a, b, pe, pm⟩ := f
    cases x <;> cases pe <;> exact cpDecode_joinWord u _ _ rfl ok

theorem CpWords.vshl (u : CpAt) (f : VFields) (x : Bool) : CpWords.Statement (.vshl u f x) :=
  cpWords_of u _ _ rfl fun ok => by
    obtain ⟨d, a, b, pe, pm⟩ := f
    cases x <;> cases pe <;> exact cpDecode_joinWord u _ _ rfl ok

theorem CpWords.vshr (u : CpAt) (f : VFields) (x : Bool) : CpWords.Statement (.vshr u f x) :=
  cpWords_of u _ _ rfl fun ok => by
    obtain ⟨d, a, b, pe, pm⟩ := f
    cases x <;> cases pe <;> exact cpDecode_joinWord u _ _ rfl ok

theorem CpWords.vsar (u : CpAt) (f : VFields) (x : Bool) : CpWords.Statement (.vsar u f x) :=
  cpWords_of u _ _ rfl fun ok => by
    obtain ⟨d, a, b, pe, pm⟩ := f
    cases x <;> cases pe <;> exact cpDecode_joinWord u _ _ rfl ok

theorem CpWords.vrotl (u : CpAt) (f : VFields) (x : Bool) : CpWords.Statement (.vrotl u f x) :=
  cpWords_of u _ _ rfl fun ok => by
    obtain ⟨d, a, b, pe, pm⟩ := f
    cases x <;> cases pe <;> exact cpDecode_joinWord u _ _ rfl ok

theorem CpWords.vmin (u : CpAt) (f : VFields) (x : Bool) : CpWords.Statement (.vmin u f x) :=
  cpWords_of u _ _ rfl fun ok => by
    obtain ⟨d, a, b, pe, pm⟩ := f
    cases x <;> cases pe <;> exact cpDecode_joinWord u _ _ rfl ok

theorem CpWords.vmax (u : CpAt) (f : VFields) (x : Bool) : CpWords.Statement (.vmax u f x) :=
  cpWords_of u _ _ rfl fun ok => by
    obtain ⟨d, a, b, pe, pm⟩ := f
    cases x <;> cases pe <;> exact cpDecode_joinWord u _ _ rfl ok

theorem CpWords.vminu (u : CpAt) (f : VFields) (x : Bool) : CpWords.Statement (.vminu u f x) :=
  cpWords_of u _ _ rfl fun ok => by
    obtain ⟨d, a, b, pe, pm⟩ := f
    cases x <;> cases pe <;> exact cpDecode_joinWord u _ _ rfl ok

theorem CpWords.vmaxu (u : CpAt) (f : VFields) (x : Bool) : CpWords.Statement (.vmaxu u f x) :=
  cpWords_of u _ _ rfl fun ok => by
    obtain ⟨d, a, b, pe, pm⟩ := f
    cases x <;> cases pe <;> exact cpDecode_joinWord u _ _ rfl ok

theorem CpWords.vadds (u : CpAt) (f : VFields) (x : Bool) : CpWords.Statement (.vadds u f x) :=
  cpWords_of u _ _ rfl fun ok => by
    obtain ⟨d, a, b, pe, pm⟩ := f
    cases x <;> cases pe <;> exact cpDecode_joinWord u _ _ rfl ok

theorem CpWords.vsubs (u : CpAt) (f : VFields) (x : Bool) : CpWords.Statement (.vsubs u f x) :=
  cpWords_of u _ _ rfl fun ok => by
    obtain ⟨d, a, b, pe, pm⟩ := f
    cases x <;> cases pe <;> exact cpDecode_joinWord u _ _ rfl ok

theorem CpWords.vaddsu (u : CpAt) (f : VFields) (x : Bool) : CpWords.Statement (.vaddsu u f x) :=
  cpWords_of u _ _ rfl fun ok => by
    obtain ⟨d, a, b, pe, pm⟩ := f
    cases x <;> cases pe <;> exact cpDecode_joinWord u _ _ rfl ok

theorem CpWords.vsubsu (u : CpAt) (f : VFields) (x : Bool) : CpWords.Statement (.vsubsu u f x) :=
  cpWords_of u _ _ rfl fun ok => by
    obtain ⟨d, a, b, pe, pm⟩ := f
    cases x <;> cases pe <;> exact cpDecode_joinWord u _ _ rfl ok

theorem CpWords.vaddo (u : CpAt) (f : VFields) (x : Bool) : CpWords.Statement (.vaddo u f x) :=
  cpWords_of u _ _ rfl fun ok => by
    obtain ⟨d, a, b, pe, pm⟩ := f
    cases x <;> cases pe <;> exact cpDecode_joinWord u _ _ rfl ok

theorem CpWords.vsubo (u : CpAt) (f : VFields) (x : Bool) : CpWords.Statement (.vsubo u f x) :=
  cpWords_of u _ _ rfl fun ok => by
    obtain ⟨d, a, b, pe, pm⟩ := f
    cases x <;> cases pe <;> exact cpDecode_joinWord u _ _ rfl ok

theorem CpWords.vmulo (u : CpAt) (f : VFields) (x : Bool) : CpWords.Statement (.vmulo u f x) :=
  cpWords_of u _ _ rfl fun ok => by
    obtain ⟨d, a, b, pe, pm⟩ := f
    cases x <;> cases pe <;> exact cpDecode_joinWord u _ _ rfl ok

theorem CpWords.vmv (u : CpAt) (f : VFields) (x : Bool) : CpWords.Statement (.vmv u f x) :=
  cpWords_of u _ _ rfl fun ok => by
    obtain ⟨d, a, b, pe, pm⟩ := f
    cases x <;> cases pe <;> exact cpDecode_joinWord u _ _ rfl ok

theorem CpWords.vmerge (u : CpAt) (f : VFields) (x : Bool) : CpWords.Statement (.vmerge u f x) :=
  cpWords_of u _ _ rfl fun ok => by
    obtain ⟨d, a, b, pe, pm⟩ := f
    cases x <;> cases pe <;> exact cpDecode_joinWord u _ _ rfl ok

theorem CpWords.vsexth (u : CpAt) (f : VFields) (x : Bool) : CpWords.Statement (.vsexth u f x) :=
  cpWords_of u _ _ rfl fun ok => by
    obtain ⟨d, a, b, pe, pm⟩ := f
    cases x <;> cases pe <;> exact cpDecode_joinWord u _ _ rfl ok

theorem CpWords.vzexth (u : CpAt) (f : VFields) (x : Bool) : CpWords.Statement (.vzexth u f x) :=
  cpWords_of u _ _ rfl fun ok => by
    obtain ⟨d, a, b, pe, pm⟩ := f
    cases x <;> cases pe <;> exact cpDecode_joinWord u _ _ rfl ok

theorem CpWords.vnarh (u : CpAt) (f : VFields) (x : Bool) : CpWords.Statement (.vnarh u f x) :=
  cpWords_of u _ _ rfl fun ok => by
    obtain ⟨d, a, b, pe, pm⟩ := f
    cases x <;> cases pe <;> exact cpDecode_joinWord u _ _ rfl ok

theorem CpWords.vpopc (u : CpAt) (f : VFields) (x : Bool) : CpWords.Statement (.vpopc u f x) :=
  cpWords_of u _ _ rfl fun ok => by
    obtain ⟨d, a, b, pe, pm⟩ := f
    cases x <;> cases pe <;> exact cpDecode_joinWord u _ _ rfl ok

theorem CpWords.vclz (u : CpAt) (f : VFields) (x : Bool) : CpWords.Statement (.vclz u f x) :=
  cpWords_of u _ _ rfl fun ok => by
    obtain ⟨d, a, b, pe, pm⟩ := f
    cases x <;> cases pe <;> exact cpDecode_joinWord u _ _ rfl ok

theorem CpWords.ceq (u : CpAt) (f : VFields) (x : Bool) : CpWords.Statement (.ceq u f x) :=
  cpWords_of u _ _ rfl fun ok => by
    obtain ⟨d, a, b, pe, pm⟩ := f
    cases x <;> cases pe <;> exact cpDecode_joinWord u _ _ rfl ok

theorem CpWords.cne (u : CpAt) (f : VFields) (x : Bool) : CpWords.Statement (.cne u f x) :=
  cpWords_of u _ _ rfl fun ok => by
    obtain ⟨d, a, b, pe, pm⟩ := f
    cases x <;> cases pe <;> exact cpDecode_joinWord u _ _ rfl ok

theorem CpWords.clt (u : CpAt) (f : VFields) (x : Bool) : CpWords.Statement (.clt u f x) :=
  cpWords_of u _ _ rfl fun ok => by
    obtain ⟨d, a, b, pe, pm⟩ := f
    cases x <;> cases pe <;> exact cpDecode_joinWord u _ _ rfl ok

theorem CpWords.cle (u : CpAt) (f : VFields) (x : Bool) : CpWords.Statement (.cle u f x) :=
  cpWords_of u _ _ rfl fun ok => by
    obtain ⟨d, a, b, pe, pm⟩ := f
    cases x <;> cases pe <;> exact cpDecode_joinWord u _ _ rfl ok

theorem CpWords.cgt (u : CpAt) (f : VFields) (x : Bool) : CpWords.Statement (.cgt u f x) :=
  cpWords_of u _ _ rfl fun ok => by
    obtain ⟨d, a, b, pe, pm⟩ := f
    cases x <;> cases pe <;> exact cpDecode_joinWord u _ _ rfl ok

theorem CpWords.cge (u : CpAt) (f : VFields) (x : Bool) : CpWords.Statement (.cge u f x) :=
  cpWords_of u _ _ rfl fun ok => by
    obtain ⟨d, a, b, pe, pm⟩ := f
    cases x <;> cases pe <;> exact cpDecode_joinWord u _ _ rfl ok

theorem CpWords.cltu (u : CpAt) (f : VFields) (x : Bool) : CpWords.Statement (.cltu u f x) :=
  cpWords_of u _ _ rfl fun ok => by
    obtain ⟨d, a, b, pe, pm⟩ := f
    cases x <;> cases pe <;> exact cpDecode_joinWord u _ _ rfl ok

theorem CpWords.cleu (u : CpAt) (f : VFields) (x : Bool) : CpWords.Statement (.cleu u f x) :=
  cpWords_of u _ _ rfl fun ok => by
    obtain ⟨d, a, b, pe, pm⟩ := f
    cases x <;> cases pe <;> exact cpDecode_joinWord u _ _ rfl ok

theorem CpWords.cgtu (u : CpAt) (f : VFields) (x : Bool) : CpWords.Statement (.cgtu u f x) :=
  cpWords_of u _ _ rfl fun ok => by
    obtain ⟨d, a, b, pe, pm⟩ := f
    cases x <;> cases pe <;> exact cpDecode_joinWord u _ _ rfl ok

theorem CpWords.cgeu (u : CpAt) (f : VFields) (x : Bool) : CpWords.Statement (.cgeu u f x) :=
  cpWords_of u _ _ rfl fun ok => by
    obtain ⟨d, a, b, pe, pm⟩ := f
    cases x <;> cases pe <;> exact cpDecode_joinWord u _ _ rfl ok

theorem CpWords.cfeq (u : CpAt) (f : VFields) (x : Bool) : CpWords.Statement (.cfeq u f x) :=
  cpWords_of u _ _ rfl fun ok => by
    obtain ⟨d, a, b, pe, pm⟩ := f
    cases x <;> cases pe <;> exact cpDecode_joinWord u _ _ rfl ok

theorem CpWords.cflt (u : CpAt) (f : VFields) (x : Bool) : CpWords.Statement (.cflt u f x) :=
  cpWords_of u _ _ rfl fun ok => by
    obtain ⟨d, a, b, pe, pm⟩ := f
    cases x <;> cases pe <;> exact cpDecode_joinWord u _ _ rfl ok

theorem CpWords.cfle (u : CpAt) (f : VFields) (x : Bool) : CpWords.Statement (.cfle u f x) :=
  cpWords_of u _ _ rfl fun ok => by
    obtain ⟨d, a, b, pe, pm⟩ := f
    cases x <;> cases pe <;> exact cpDecode_joinWord u _ _ rfl ok

theorem CpWords.cfun (u : CpAt) (f : VFields) (x : Bool) : CpWords.Statement (.cfun u f x) :=
  cpWords_of u _ _ rfl fun ok => by
    obtain ⟨d, a, b, pe, pm⟩ := f
    cases x <;> cases pe <;> exact cpDecode_joinWord u _ _ rfl ok

theorem CpWords.cftlt (u : CpAt) (f : VFields) (x : Bool) : CpWords.Statement (.cftlt u f x) :=
  cpWords_of u _ _ rfl fun ok => by
    obtain ⟨d, a, b, pe, pm⟩ := f
    cases x <;> cases pe <;> exact cpDecode_joinWord u _ _ rfl ok

theorem CpWords.vbeq (u : CpAt) (f : VFields) : CpWords.Statement (.vbeq u f) :=
  cpWords_of u _ _ rfl fun ok => by
    obtain ⟨d, a, b, pe, pm⟩ := f
    cases pe <;> exact cpDecode_joinWord u _ _ rfl ok

theorem CpWords.vbrng (u : CpAt) (f : VFields) : CpWords.Statement (.vbrng u f) :=
  cpWords_of u _ _ rfl fun ok => by
    obtain ⟨d, a, b, pe, pm⟩ := f
    cases pe <;> exact cpDecode_joinWord u _ _ rfl ok

theorem CpWords.vpat (u : CpAt) (f : VFields) : CpWords.Statement (.vpat u f) :=
  cpWords_of u _ _ rfl fun ok => by
    obtain ⟨d, a, b, pe, pm⟩ := f
    cases pe <;> exact cpDecode_joinWord u _ _ rfl ok

theorem CpWords.vpatm (u : CpAt) (f : VFields) : CpWords.Statement (.vpatm u f) :=
  cpWords_of u _ _ rfl fun ok => by
    obtain ⟨d, a, b, pe, pm⟩ := f
    cases pe <;> exact cpDecode_joinWord u _ _ rfl ok

theorem CpWords.vfadd (u : CpAt) (f : VFields) (x : Bool) : CpWords.Statement (.vfadd u f x) :=
  cpWords_of u _ _ rfl fun ok => by
    obtain ⟨d, a, b, pe, pm⟩ := f
    cases x <;> cases pe <;> exact cpDecode_joinWord u _ _ rfl ok

theorem CpWords.vfsub (u : CpAt) (f : VFields) (x : Bool) : CpWords.Statement (.vfsub u f x) :=
  cpWords_of u _ _ rfl fun ok => by
    obtain ⟨d, a, b, pe, pm⟩ := f
    cases x <;> cases pe <;> exact cpDecode_joinWord u _ _ rfl ok

theorem CpWords.vfmul (u : CpAt) (f : VFields) (x : Bool) : CpWords.Statement (.vfmul u f x) :=
  cpWords_of u _ _ rfl fun ok => by
    obtain ⟨d, a, b, pe, pm⟩ := f
    cases x <;> cases pe <;> exact cpDecode_joinWord u _ _ rfl ok

theorem CpWords.vfdiv (u : CpAt) (f : VFields) (x : Bool) : CpWords.Statement (.vfdiv u f x) :=
  cpWords_of u _ _ rfl fun ok => by
    obtain ⟨d, a, b, pe, pm⟩ := f
    cases x <;> cases pe <;> exact cpDecode_joinWord u _ _ rfl ok

theorem CpWords.vfsqrt (u : CpAt) (f : VFields) (x : Bool) : CpWords.Statement (.vfsqrt u f x) :=
  cpWords_of u _ _ rfl fun ok => by
    obtain ⟨d, a, b, pe, pm⟩ := f
    cases x <;> cases pe <;> exact cpDecode_joinWord u _ _ rfl ok

theorem CpWords.vfmin (u : CpAt) (f : VFields) (x : Bool) : CpWords.Statement (.vfmin u f x) :=
  cpWords_of u _ _ rfl fun ok => by
    obtain ⟨d, a, b, pe, pm⟩ := f
    cases x <;> cases pe <;> exact cpDecode_joinWord u _ _ rfl ok

theorem CpWords.vfmax (u : CpAt) (f : VFields) (x : Bool) : CpWords.Statement (.vfmax u f x) :=
  cpWords_of u _ _ rfl fun ok => by
    obtain ⟨d, a, b, pe, pm⟩ := f
    cases x <;> cases pe <;> exact cpDecode_joinWord u _ _ rfl ok

theorem CpWords.vfma (u : CpAt) (f : VFields) (x : Bool) : CpWords.Statement (.vfma u f x) :=
  cpWords_of u _ _ rfl fun ok => by
    obtain ⟨d, a, b, pe, pm⟩ := f
    cases x <;> cases pe <;> exact cpDecode_joinWord u _ _ rfl ok

theorem CpWords.vfnms (u : CpAt) (f : VFields) (x : Bool) : CpWords.Statement (.vfnms u f x) :=
  cpWords_of u _ _ rfl fun ok => by
    obtain ⟨d, a, b, pe, pm⟩ := f
    cases x <;> cases pe <;> exact cpDecode_joinWord u _ _ rfl ok

theorem CpWords.vfabs (u : CpAt) (f : VFields) : CpWords.Statement (.vfabs u f) :=
  cpWords_of u _ _ rfl fun ok => by
    obtain ⟨d, a, b, pe, pm⟩ := f
    cases pe <;> exact cpDecode_joinWord u _ _ rfl ok

theorem CpWords.vfneg (u : CpAt) (f : VFields) : CpWords.Statement (.vfneg u f) :=
  cpWords_of u _ _ rfl fun ok => by
    obtain ⟨d, a, b, pe, pm⟩ := f
    cases pe <;> exact cpDecode_joinWord u _ _ rfl ok

theorem CpWords.vcvtfi (u : CpAt) (f : VFields) : CpWords.Statement (.vcvtfi u f) :=
  cpWords_of u _ _ rfl fun ok => by
    obtain ⟨d, a, b, pe, pm⟩ := f
    cases pe <;> exact cpDecode_joinWord u _ _ rfl ok

theorem CpWords.vcvtif (u : CpAt) (f : VFields) : CpWords.Statement (.vcvtif u f) :=
  cpWords_of u _ _ rfl fun ok => by
    obtain ⟨d, a, b, pe, pm⟩ := f
    cases pe <;> exact cpDecode_joinWord u _ _ rfl ok

theorem CpWords.vcvtuf (u : CpAt) (f : VFields) : CpWords.Statement (.vcvtuf u f) :=
  cpWords_of u _ _ rfl fun ok => by
    obtain ⟨d, a, b, pe, pm⟩ := f
    cases pe <;> exact cpDecode_joinWord u _ _ rfl ok

theorem CpWords.vcvtds (u : CpAt) (f : VFields) : CpWords.Statement (.vcvtds u f) :=
  cpWords_of u _ _ rfl fun ok => by
    obtain ⟨d, a, b, pe, pm⟩ := f
    cases pe <;> exact cpDecode_joinWord u _ _ rfl ok

theorem CpWords.vcvtsd (u : CpAt) (f : VFields) : CpWords.Statement (.vcvtsd u f) :=
  cpWords_of u _ _ rfl fun ok => by
    obtain ⟨d, a, b, pe, pm⟩ := f
    cases pe <;> exact cpDecode_joinWord u _ _ rfl ok

theorem CpWords.vcmul (u : CpAt) (f : VFields) (x : Bool) : CpWords.Statement (.vcmul u f x) :=
  cpWords_of u _ _ rfl fun ok => by
    obtain ⟨d, a, b, pe, pm⟩ := f
    cases x <;> cases pe <;> exact cpDecode_joinWord u _ _ rfl ok

theorem CpWords.vcmulc (u : CpAt) (f : VFields) (x : Bool) : CpWords.Statement (.vcmulc u f x) :=
  cpWords_of u _ _ rfl fun ok => by
    obtain ⟨d, a, b, pe, pm⟩ := f
    cases x <;> cases pe <;> exact cpDecode_joinWord u _ _ rfl ok

theorem CpWords.vcmac (u : CpAt) (f : VFields) (x : Bool) : CpWords.Statement (.vcmac u f x) :=
  cpWords_of u _ _ rfl fun ok => by
    obtain ⟨d, a, b, pe, pm⟩ := f
    cases x <;> cases pe <;> exact cpDecode_joinWord u _ _ rfl ok

theorem CpWords.vcmacc (u : CpAt) (f : VFields) (x : Bool) : CpWords.Statement (.vcmacc u f x) :=
  cpWords_of u _ _ rfl fun ok => by
    obtain ⟨d, a, b, pe, pm⟩ := f
    cases x <;> cases pe <;> exact cpDecode_joinWord u _ _ rfl ok

theorem CpWords.vcadd (u : CpAt) (f : VFields) (x : Bool) : CpWords.Statement (.vcadd u f x) :=
  cpWords_of u _ _ rfl fun ok => by
    obtain ⟨d, a, b, pe, pm⟩ := f
    cases x <;> cases pe <;> exact cpDecode_joinWord u _ _ rfl ok

theorem CpWords.vcsub (u : CpAt) (f : VFields) (x : Bool) : CpWords.Statement (.vcsub u f x) :=
  cpWords_of u _ _ rfl fun ok => by
    obtain ⟨d, a, b, pe, pm⟩ := f
    cases x <;> cases pe <;> exact cpDecode_joinWord u _ _ rfl ok

theorem CpWords.vcabs2 (u : CpAt) (f : VFields) : CpWords.Statement (.vcabs2 u f) :=
  cpWords_of u _ _ rfl fun ok => by
    obtain ⟨d, a, b, pe, pm⟩ := f
    cases pe <;> exact cpDecode_joinWord u _ _ rfl ok

theorem CpWords.vbfly (u : CpAt) (f : VFields) : CpWords.Statement (.vbfly u f) :=
  cpWords_of u _ _ rfl fun ok => by
    obtain ⟨d, a, b, pe, pm⟩ := f
    cases pe <;> exact cpDecode_joinWord u _ _ rfl ok

theorem CpWords.vgfmul (u : CpAt) (f : VFields) (x : Bool) : CpWords.Statement (.vgfmul u f x) :=
  cpWords_of u _ _ rfl fun ok => by
    obtain ⟨d, a, b, pe, pm⟩ := f
    cases x <;> cases pe <;> exact cpDecode_joinWord u _ _ rfl ok

theorem CpWords.vgfmac (u : CpAt) (f : VFields) (x : Bool) : CpWords.Statement (.vgfmac u f x) :=
  cpWords_of u _ _ rfl fun ok => by
    obtain ⟨d, a, b, pe, pm⟩ := f
    cases x <;> cases pe <;> exact cpDecode_joinWord u _ _ rfl ok

theorem CpWords.pand (u : CpAt) (f : VFields) : CpWords.Statement (.pand u f) :=
  cpWords_of u _ _ rfl fun ok => by
    obtain ⟨d, a, b, pe, pm⟩ := f
    cases pe <;> exact cpDecode_joinWord u _ _ rfl ok

theorem CpWords.por (u : CpAt) (f : VFields) : CpWords.Statement (.por u f) :=
  cpWords_of u _ _ rfl fun ok => by
    obtain ⟨d, a, b, pe, pm⟩ := f
    cases pe <;> exact cpDecode_joinWord u _ _ rfl ok

theorem CpWords.pxor (u : CpAt) (f : VFields) : CpWords.Statement (.pxor u f) :=
  cpWords_of u _ _ rfl fun ok => by
    obtain ⟨d, a, b, pe, pm⟩ := f
    cases pe <;> exact cpDecode_joinWord u _ _ rfl ok

theorem CpWords.pandn (u : CpAt) (f : VFields) : CpWords.Statement (.pandn u f) :=
  cpWords_of u _ _ rfl fun ok => by
    obtain ⟨d, a, b, pe, pm⟩ := f
    cases pe <;> exact cpDecode_joinWord u _ _ rfl ok

theorem CpWords.pnot (u : CpAt) (f : VFields) : CpWords.Statement (.pnot u f) :=
  cpWords_of u _ _ rfl fun ok => by
    obtain ⟨d, a, b, pe, pm⟩ := f
    cases pe <;> exact cpDecode_joinWord u _ _ rfl ok

theorem CpWords.pset (u : CpAt) (f : VFields) : CpWords.Statement (.pset u f) :=
  cpWords_of u _ _ rfl fun ok => by
    obtain ⟨d, a, b, pe, pm⟩ := f
    cases pe <;> exact cpDecode_joinWord u _ _ rfl ok

theorem CpWords.pclr (u : CpAt) (f : VFields) : CpWords.Statement (.pclr u f) :=
  cpWords_of u _ _ rfl fun ok => by
    obtain ⟨d, a, b, pe, pm⟩ := f
    cases pe <;> exact cpDecode_joinWord u _ _ rfl ok

theorem CpWords.pmov (u : CpAt) (f : VFields) : CpWords.Statement (.pmov u f) :=
  cpWords_of u _ _ rfl fun ok => by
    obtain ⟨d, a, b, pe, pm⟩ := f
    cases pe <;> exact cpDecode_joinWord u _ _ rfl ok

theorem CpWords.pcnt (u : CpAt) (f : VFields) : CpWords.Statement (.pcnt u f) :=
  cpWords_of u _ _ rfl fun ok => by
    obtain ⟨d, a, b, pe, pm⟩ := f
    cases pe <;> exact cpDecode_joinWord u _ _ rfl ok

theorem CpWords.pfirst (u : CpAt) (f : VFields) : CpWords.Statement (.pfirst u f) :=
  cpWords_of u _ _ rfl fun ok => by
    obtain ⟨d, a, b, pe, pm⟩ := f
    cases pe <;> exact cpDecode_joinWord u _ _ rfl ok

theorem CpWords.pfromg (u : CpAt) (f : VFields) : CpWords.Statement (.pfromg u f) :=
  cpWords_of u _ _ rfl fun ok => by
    obtain ⟨d, a, b, pe, pm⟩ := f
    cases pe <;> exact cpDecode_joinWord u _ _ rfl ok

theorem CpWords.pldb (u : CpAt) (f : VFields) : CpWords.Statement (.pldb u f) :=
  cpWords_of u _ _ rfl fun ok => by
    obtain ⟨d, a, b, pe, pm⟩ := f
    cases pe <;> exact cpDecode_joinWord u _ _ rfl ok

theorem CpWords.pstb (u : CpAt) (f : VFields) : CpWords.Statement (.pstb u f) :=
  cpWords_of u _ _ rfl fun ok => by
    obtain ⟨d, a, b, pe, pm⟩ := f
    cases pe <;> exact cpDecode_joinWord u _ _ rfl ok

theorem CpWords.astoreOwnerWrite (r : Req) (b : Nat) (v : Word) : CpWords.Statement (.astoreOwnerWrite r b v) :=
  cpWords_none _ rfl

theorem CpWords.bankClearComplete (b : Nat) : CpWords.Statement (.bankClearComplete b) :=
  cpWords_none _ rfl

theorem CpWords.astCreate (id : Nat) : CpWords.Statement (.astCreate id) :=
  cpWords_none _ rfl

theorem CpWords.astDestroy (id : Nat) : CpWords.Statement (.astDestroy id) :=
  cpWords_none _ rfl

theorem CpWords.astLoad (id : Nat) : CpWords.Statement (.astLoad id) :=
  cpWords_none _ rfl

theorem CpWords.astInsert (id : Nat) : CpWords.Statement (.astInsert id) :=
  cpWords_none _ rfl

theorem CpWords.astDelete (id : Nat) : CpWords.Statement (.astDelete id) :=
  cpWords_none _ rfl

theorem CpWords.astSearch (id : Nat) : CpWords.Statement (.astSearch id) :=
  cpWords_none _ rfl

theorem CpWords.astRespread (id : Nat) : CpWords.Statement (.astRespread id) :=
  cpWords_none _ rfl

theorem CpWords.respreadStep (n : Nat) : CpWords.Statement (.respreadStep n) :=
  cpWords_none _ rfl

theorem CpWords.astRead (id : Nat) : CpWords.Statement (.astRead id) :=
  cpWords_none _ rfl

theorem CpWords.emberCheck : CpWords.Statement (.emberCheck) := cpWords_none _ rfl

theorem CpWords.directWindowAccess (off : Nat) (wr : Bool) (v : Word) : CpWords.Statement (.directWindowAccess off wr v) :=
  cpWords_none _ rfl

theorem CpWords.cmpDeflate (id : Nat) : CpWords.Statement (.cmpDeflate id) :=
  cpWords_none _ rfl

theorem CpWords.cmpInflate (id : Nat) : CpWords.Statement (.cmpInflate id) :=
  cpWords_none _ rfl

theorem CpWords.cmpJobStart (e : Nat) : CpWords.Statement (.cmpJobStart e) :=
  cpWords_none _ rfl

theorem CpWords.cmpJobComplete (id : Nat) : CpWords.Statement (.cmpJobComplete id) :=
  cpWords_none _ rfl

theorem CpWords.mbrAttach (id : Nat) (info : Option MemberInfo) : CpWords.Statement (.mbrAttach id info) :=
  cpWords_none _ rfl

theorem CpWords.mbrDetach (id : Nat) : CpWords.Statement (.mbrDetach id) :=
  cpWords_none _ rfl

theorem CpWords.arrCreate (id : Nat) : CpWords.Statement (.arrCreate id) :=
  cpWords_none _ rfl

theorem CpWords.arrImport (id : Nat) : CpWords.Statement (.arrImport id) :=
  cpWords_none _ rfl

theorem CpWords.replayEnd (a : Nat) : CpWords.Statement (.replayEnd a) :=
  cpWords_none _ rfl

theorem CpWords.arrStop (id : Nat) : CpWords.Statement (.arrStop id) :=
  cpWords_none _ rfl

theorem CpWords.arrDrainComplete (a : Nat) : CpWords.Statement (.arrDrainComplete a) :=
  cpWords_none _ rfl

theorem CpWords.arrSet (id : Nat) : CpWords.Statement (.arrSet id) :=
  cpWords_none _ rfl

theorem CpWords.volCreate (id : Nat) : CpWords.Statement (.volCreate id) :=
  cpWords_none _ rfl

theorem CpWords.volDestroy (id : Nat) : CpWords.Statement (.volDestroy id) :=
  cpWords_none _ rfl

theorem CpWords.volResize (id : Nat) : CpWords.Statement (.volResize id) :=
  cpWords_none _ rfl

theorem CpWords.volOwner (id : Nat) : CpWords.Statement (.volOwner id) :=
  cpWords_none _ rfl

theorem CpWords.volRead (id : Nat) : CpWords.Statement (.volRead id) :=
  cpWords_none _ rfl

theorem CpWords.volWrite (id : Nat) : CpWords.Statement (.volWrite id) :=
  cpWords_none _ rfl

theorem CpWords.volFlush (id : Nat) : CpWords.Statement (.volFlush id) :=
  cpWords_none _ rfl

theorem CpWords.volWriteZeroes (id : Nat) : CpWords.Statement (.volWriteZeroes id) :=
  cpWords_none _ rfl

theorem CpWords.volDealloc (id : Nat) : CpWords.Statement (.volDealloc id) :=
  cpWords_none _ rfl

theorem CpWords.writeCacheReserve (id : Nat) : CpWords.Statement (.writeCacheReserve id) :=
  cpWords_none _ rfl

theorem CpWords.memberCommandTimeout (n : Nat) (retryOk : Bool) : CpWords.Statement (.memberCommandTimeout n retryOk) :=
  cpWords_none _ rfl

theorem CpWords.memberCommandCompletion (n blk : Nat) (mediaErr : Bool) : CpWords.Statement (.memberCommandCompletion n blk mediaErr) :=
  cpWords_none _ rfl

theorem CpWords.memberLinkDown (w : MemberLoss) : CpWords.Statement (.memberLinkDown w) :=
  cpWords_none _ rfl

theorem CpWords.stripeOpen (a stream : Nat) : CpWords.Statement (.stripeOpen a stream) :=
  cpWords_none _ rfl

theorem CpWords.stripeCloseTimeout (a stream : Nat) : CpWords.Statement (.stripeCloseTimeout a stream) :=
  cpWords_none _ rfl

theorem CpWords.stripeCommit (a st : Nat) : CpWords.Statement (.stripeCommit a st) :=
  cpWords_none _ rfl

theorem CpWords.stripeFree (a st : Nat) : CpWords.Statement (.stripeFree a st) :=
  cpWords_none _ rfl

theorem CpWords.harvest (a : Nat) : CpWords.Statement (.harvest a) :=
  cpWords_none _ rfl

theorem CpWords.leafReadComplete (id : Nat) : CpWords.Statement (.leafReadComplete id) :=
  cpWords_none _ rfl

theorem CpWords.mapCheckpoint (a : Nat) : CpWords.Statement (.mapCheckpoint a) :=
  cpWords_none _ rfl

theorem CpWords.arcMapcWrite (r : Req) (v : Word) : CpWords.Statement (.arcMapcWrite r v) :=
  cpWords_none _ rfl

theorem CpWords.arcDestroyGo (r : Req) (v : Word) : CpWords.Statement (.arcDestroyGo r v) :=
  cpWords_none _ rfl

theorem CpWords.arcDpWrite (r : Req) (p : Nat) (v : Word) : CpWords.Statement (.arcDpWrite r p v) :=
  cpWords_none _ rfl

theorem CpWords.arrRebuildStart (id : Nat) : CpWords.Statement (.arrRebuildStart id) :=
  cpWords_none _ rfl

theorem CpWords.arrRebuildPause (id : Nat) : CpWords.Statement (.arrRebuildPause id) :=
  cpWords_none _ rfl

theorem CpWords.arrRebuildResume (id : Nat) : CpWords.Statement (.arrRebuildResume id) :=
  cpWords_none _ rfl

theorem CpWords.rebuildCursorStep (a : Nat) : CpWords.Statement (.rebuildCursorStep a) :=
  cpWords_none _ rfl

theorem CpWords.arrReshape (id : Nat) : CpWords.Statement (.arrReshape id) :=
  cpWords_none _ rfl

theorem CpWords.reshapeStep (a : Nat) : CpWords.Statement (.reshapeStep a) :=
  cpWords_none _ rfl

theorem CpWords.reshapeFinish (a : Nat) : CpWords.Statement (.reshapeFinish a) :=
  cpWords_none _ rfl

theorem CpWords.arrLostlist (id : Nat) : CpWords.Statement (.arrLostlist id) :=
  cpWords_none _ rfl

theorem CpWords.arrVaultInfo (id : Nat) : CpWords.Statement (.arrVaultInfo id) :=
  cpWords_none _ rfl

theorem CpWords.freeze : CpWords.Statement (.freeze) := cpWords_none _ rfl

theorem CpWords.vaultSeal (a n : Nat) : CpWords.Statement (.vaultSeal a n) :=
  cpWords_none _ rfl

theorem CpWords.vfEnableSet (numVfs : Nat) : CpWords.Statement (.vfEnableSet numVfs) :=
  cpWords_none _ rfl

theorem CpWords.vfFunctionLevelReset (n : Nat) : CpWords.Statement (.vfFunctionLevelReset n) :=
  cpWords_none _ rfl

theorem CpWords.hostPortReset (cause : HostResetCause) : CpWords.Statement (.hostPortReset cause) :=
  cpWords_none _ rfl

theorem CpWords.perstRelease : CpWords.Statement (.perstRelease) := cpWords_none _ rfl

theorem CpWords.functionD3hotEntry (fn : Nat) : CpWords.Statement (.functionD3hotEntry fn) :=
  cpWords_none _ rfl

theorem CpWords.functionD0Return (fn : Nat) : CpWords.Statement (.functionD0Return fn) :=
  cpWords_none _ rfl

theorem CpWords.busMasterEnableClear (fn : Nat) : CpWords.Statement (.busMasterEnableClear fn) :=
  cpWords_none _ rfl

theorem CpWords.busMasterEnableSet (fn : Nat) : CpWords.Statement (.busMasterEnableSet fn) :=
  cpWords_none _ rfl

theorem CpWords.vectorUnmask (fn vec : Nat) : CpWords.Statement (.vectorUnmask fn vec) :=
  cpWords_none _ rfl

theorem CpWords.sqEnable (r : Req) (q : Nat) (v : Word) : CpWords.Statement (.sqEnable r q v) :=
  cpWords_none _ rfl

theorem CpWords.cqEnable (r : Req) (q : Nat) (v : Word) : CpWords.Statement (.cqEnable r q v) :=
  cpWords_none _ rfl

theorem CpWords.sqDisable (r : Req) (q : Nat) (v : Word) : CpWords.Statement (.sqDisable r q v) :=
  cpWords_none _ rfl

theorem CpWords.cqDisable (r : Req) (q : Nat) (v : Word) : CpWords.Statement (.cqDisable r q v) :=
  cpWords_none _ rfl

theorem CpWords.producerDoorbell (r : Req) (win : Nat) (n : Word) : CpWords.Statement (.producerDoorbell r win n) :=
  cpWords_none _ rfl

theorem CpWords.pushWrite (r : Req) (win off : Nat) (ws : List Word) : CpWords.Statement (.pushWrite r win off ws) :=
  cpWords_none _ rfl

theorem CpWords.completionConsumerWrite (r : Req) (win : Nat) (n : Word) : CpWords.Statement (.completionConsumerWrite r win n) :=
  cpWords_none _ rfl

theorem CpWords.entryFetch (q : Nat) : CpWords.Statement (.entryFetch q) :=
  cpWords_none _ rfl

theorem CpWords.sqFetchError (q : Nat) : CpWords.Statement (.sqFetchError q) :=
  cpWords_none _ rfl

theorem CpWords.moderationTimeout (q : Nat) : CpWords.Statement (.moderationTimeout q) :=
  cpWords_none _ rfl

theorem CpWords.startTimeout (id : Nat) : CpWords.Statement (.startTimeout id) :=
  cpWords_none _ rfl

theorem CpWords.hostReadTimeout (id : Nat) : CpWords.Statement (.hostReadTimeout id) :=
  cpWords_none _ rfl

theorem CpWords.devPstate (id : Nat) : CpWords.Statement (.devPstate id) :=
  cpWords_none _ rfl

theorem CpWords.pstateEntryComplete : CpWords.Statement (.pstateEntryComplete) := cpWords_none _ rfl

theorem CpWords.flush2Start : CpWords.Statement (.flush2Start) := cpWords_none _ rfl

theorem CpWords.pstateEntryTimeout : CpWords.Statement (.pstateEntryTimeout) := cpWords_none _ rfl

theorem CpWords.wakeComplete : CpWords.Statement (.wakeComplete) := cpWords_none _ rfl

theorem CpWords.netSubsysEnable (id : Nat) : CpWords.Statement (.netSubsysEnable id) :=
  cpWords_none _ rfl

theorem CpWords.netSubsysDisable (id : Nat) : CpWords.Statement (.netSubsysDisable id) :=
  cpWords_none _ rfl

theorem CpWords.netExport (id : Nat) : CpWords.Statement (.netExport id) :=
  cpWords_none _ rfl

theorem CpWords.netUnexport (id : Nat) : CpWords.Statement (.netUnexport id) :=
  cpWords_none _ rfl

theorem CpWords.arpRequest (port ifc : Nat) : CpWords.Statement (.arpRequest port ifc) :=
  cpWords_none _ rfl

theorem CpWords.tcpSyn (port ifc dport : Nat) (syn : Syn) : CpWords.Statement (.tcpSyn port ifc dport syn) :=
  cpWords_none _ rfl

theorem CpWords.tcpRstOrFin (c : Nat) : CpWords.Statement (.tcpRstOrFin c) :=
  cpWords_none _ rfl

theorem CpWords.icreq (c pfv hpda : Nat) (hdgst ddgst : Bool) (maxr2t : Nat) : CpWords.Statement (.icreq c pfv hpda hdgst ddgst maxr2t) :=
  cpWords_none _ rfl

theorem CpWords.h2ctermreq (c : Nat) : CpWords.Statement (.h2ctermreq c) :=
  cpWords_none _ rfl

theorem CpWords.h2cdata (c cid ofs : Nat) (data : List Byte) (hdrOk dataOk : Bool) : CpWords.Statement (.h2cdata c cid ofs data hdrOk dataOk) :=
  cpWords_none _ rfl

theorem CpWords.connect (c cid qid cntlid : Nat) (hostnqn subnqn : List Byte) (prm : ConnectParams) : CpWords.Statement (.connect c cid qid cntlid hostnqn subnqn prm) :=
  cpWords_none _ rfl

theorem CpWords.propertyGet (c cid ofs : Nat) : CpWords.Statement (.propertyGet c cid ofs) :=
  cpWords_none _ rfl

theorem CpWords.propertySet (c cid ofs : Nat) (v : DWord) : CpWords.Statement (.propertySet c cid ofs v) :=
  cpWords_none _ rfl

theorem CpWords.identify (c cid cns nsid : Nat) : CpWords.Statement (.identify c cid cns nsid) :=
  cpWords_none _ rfl

theorem CpWords.getLogPage (c cid lid : Nat) : CpWords.Statement (.getLogPage c cid lid) :=
  cpWords_none _ rfl

theorem CpWords.keepAlive (c cid : Nat) : CpWords.Statement (.keepAlive c cid) :=
  cpWords_none _ rfl

theorem CpWords.keepAliveTimeout (cntl : Nat) : CpWords.Statement (.keepAliveTimeout cntl) :=
  cpWords_none _ rfl

theorem CpWords.nvmeRead (c cid nsid slba nlb : Nat) : CpWords.Statement (.nvmeRead c cid nsid slba nlb) :=
  cpWords_none _ rfl

theorem CpWords.nvmeWrite (c cid nsid slba nlb : Nat) (capsule : List Byte) (dataOk : Bool) : CpWords.Statement (.nvmeWrite c cid nsid slba nlb capsule dataOk) :=
  cpWords_none _ rfl

theorem CpWords.nvmeFlush (c cid nsid : Nat) : CpWords.Statement (.nvmeFlush c cid nsid) :=
  cpWords_none _ rfl

theorem CpWords.nvmeWriteZeroes (c cid nsid slba nlb : Nat) : CpWords.Statement (.nvmeWriteZeroes c cid nsid slba nlb) :=
  cpWords_none _ rfl

theorem CpWords.datasetManagement (c cid nsid : Nat) (ad : Bool) (dsm : DsmData) : CpWords.Statement (.datasetManagement c cid nsid ad dsm) :=
  cpWords_none _ rfl

theorem CpWords.ptpEventMessage (port : Nat) (tx : Bool) (msgType : BitVec 4) (seqId : BitVec 16) : CpWords.Statement (.ptpEventMessage port tx msgType seqId) :=
  cpWords_none _ rfl

theorem CpWords.netLinkChange (port : Nat) (lanes : BitVec 4) : CpWords.Statement (.netLinkChange port lanes) :=
  cpWords_none _ rfl

theorem CpWords.netTsPop (r : Req) (v : Word) : CpWords.Statement (.netTsPop r v) :=
  cpWords_none _ rfl

theorem CpWords.netPortWrite (r : Req) (p : Nat) (v : Word) : CpWords.Statement (.netPortWrite r p v) :=
  cpWords_none _ rfl

theorem CpWords.partitionEnable (r : Req) (p : Nat) (v : Word) : CpWords.Statement (.partitionEnable r p v) :=
  cpWords_none _ rfl

theorem CpWords.partitionDisable (r : Req) (p : Nat) (v : Word) : CpWords.Statement (.partitionDisable r p v) :=
  cpWords_none _ rfl

theorem CpWords.hbmAlloc (id : Nat) : CpWords.Statement (.hbmAlloc id) :=
  cpWords_none _ rfl

theorem CpWords.hbmFree (id : Nat) : CpWords.Statement (.hbmFree id) :=
  cpWords_none _ rfl

theorem CpWords.memCopy (id : Nat) : CpWords.Statement (.memCopy id) :=
  cpWords_none _ rfl

theorem CpWords.partReset (id : Nat) : CpWords.Statement (.partReset id) :=
  cpWords_none _ rfl

theorem CpWords.partitionResetComplete (p : Nat) : CpWords.Statement (.partitionResetComplete p) :=
  cpWords_none _ rfl

theorem CpWords.partFreeze (id : Nat) : CpWords.Statement (.partFreeze id) :=
  cpWords_none _ rfl

theorem CpWords.freezeComplete (p : Nat) : CpWords.Statement (.freezeComplete p) :=
  cpWords_none _ rfl

theorem CpWords.partSave (id : Nat) : CpWords.Statement (.partSave id) :=
  cpWords_none _ rfl

theorem CpWords.partRestore (id : Nat) : CpWords.Statement (.partRestore id) :=
  cpWords_none _ rfl

theorem CpWords.partThaw (id : Nat) : CpWords.Statement (.partThaw id) :=
  cpWords_none _ rfl

theorem CpWords.partRelease (id : Nat) : CpWords.Statement (.partRelease id) :=
  cpWords_none _ rfl

theorem CpWords.fixedSlotStart (p : Nat) : CpWords.Statement (.fixedSlotStart p) :=
  cpWords_none _ rfl

theorem CpWords.fixedSlotEnd (p : Nat) : CpWords.Statement (.fixedSlotEnd p) :=
  cpWords_none _ rfl

theorem CpWords.millisecondBoundary : CpWords.Statement (.millisecondBoundary) := cpWords_none _ rfl

theorem CpWords.calends : CpWords.Statement (.calends) := cpWords_none _ rfl

theorem CpWords.meterBatchWrite : CpWords.Statement (.meterBatchWrite) := cpWords_none _ rfl

theorem CpWords.trustMtrCWrite (r : Req) (v : Word) : CpWords.Statement (.trustMtrCWrite r v) :=
  cpWords_none _ rfl

theorem CpWords.pvEvenWrite (n : Nat) (v : Word) : CpWords.Statement (.pvEvenWrite n v) :=
  cpWords_none _ rfl

theorem CpWords.edgeEvent (src : Nat) : CpWords.Statement (.edgeEvent src) :=
  cpWords_none _ rfl

theorem CpWords.levelSourceAssert (src : Nat) : CpWords.Statement (.levelSourceAssert src) :=
  cpWords_none _ rfl

theorem CpWords.pinFilterExpiry (pin : Nat) : CpWords.Statement (.pinFilterExpiry pin) :=
  cpWords_none _ rfl

theorem CpWords.handlerEntry (w : Nat) : CpWords.Statement (.handlerEntry w) :=
  cpWords_none _ rfl

theorem CpWords.eret (w : Nat) : CpWords.Statement (.eret w) :=
  cpWords_none _ rfl

theorem CpWords.pf0EventMessage : CpWords.Statement (.pf0EventMessage) := cpWords_none _ rfl

theorem CpWords.evcHackWrite (r : Req) (v : Word) : CpWords.Statement (.evcHackWrite r v) :=
  cpWords_none _ rfl

theorem CpWords.evcSwsetWrite (r : Req) (v : Word) : CpWords.Statement (.evcSwsetWrite r v) :=
  cpWords_none _ rfl

theorem CpWords.evcRouteEnable (r : Req) (src : Nat) (v : Word) : CpWords.Statement (.evcRouteEnable r src v) :=
  cpWords_none _ rfl

theorem CpWords.sdmaGo (r : Req) (c : Nat) (v : Word) : CpWords.Statement (.sdmaGo r c v) :=
  cpWords_none _ rfl

theorem CpWords.sdmaAbort (r : Req) (c : Nat) (v : Word) : CpWords.Statement (.sdmaAbort r c v) :=
  cpWords_none _ rfl

theorem CpWords.sdmaResume (r : Req) (c : Nat) (v : Word) : CpWords.Statement (.sdmaResume r c v) :=
  cpWords_none _ rfl

theorem CpWords.burstStart (c : Nat) (request : Bool) : CpWords.Statement (.burstStart c request) :=
  cpWords_none _ rfl

theorem CpWords.burstComplete (c : Nat) (res : BusResult) (wr : Bool) : CpWords.Statement (.burstComplete c res wr) :=
  cpWords_none _ rfl

theorem CpWords.readbackComplete (c : Nat) (res : BusResult) : CpWords.Statement (.readbackComplete c res) :=
  cpWords_none _ rfl

theorem CpWords.sdmaArmedTimeout (c : Nat) : CpWords.Statement (.sdmaArmedTimeout c) :=
  cpWords_none _ rfl

theorem CpWords.linkTrainingComplete (k : Nat) (lanes : BitVec 8) (peer : BitVec 3) : CpWords.Statement (.linkTrainingComplete k lanes peer) :=
  cpWords_none _ rfl

theorem CpWords.linkTrainingTimeout (k : Nat) : CpWords.Statement (.linkTrainingTimeout k) :=
  cpWords_none _ rfl

theorem CpWords.linkFlitTimeout (k : Nat) : CpWords.Statement (.linkFlitTimeout k) :=
  cpWords_none _ rfl

theorem CpWords.laneErrorRate (k lane : Nat) : CpWords.Statement (.laneErrorRate k lane) :=
  cpWords_none _ rfl

theorem CpWords.plkRetrain (r : Req) (k : Nat) : CpWords.Statement (.plkRetrain r k) :=
  cpWords_none _ rfl

theorem CpWords.plkOfflWrite (r : Req) (p : Nat) (v : Word) : CpWords.Statement (.plkOfflWrite r p v) :=
  cpWords_none _ rfl

theorem CpWords.peerBindingEnable (r : Req) (b : Nat) (v : Word) : CpWords.Statement (.peerBindingEnable r b v) :=
  cpWords_none _ rfl

theorem CpWords.bindingMessage (dev b : Nat) (devmask : BitVec 8) (ctxs : List (BitVec 13)) (gen : BitVec 16) : CpWords.Statement (.bindingMessage dev b devmask ctxs gen) :=
  cpWords_none _ rfl

theorem CpWords.generationUpdateMessage (dev b : Nat) (gen : BitVec 16) : CpWords.Statement (.generationUpdateMessage dev b gen) :=
  cpWords_none _ rfl

theorem CpWords.generationUpdateAck (dev p : Nat) (gen : BitVec 16) : CpWords.Statement (.generationUpdateAck dev p gen) :=
  cpWords_none _ rfl

theorem CpWords.plkMirrorEnable (r : Req) (v : Word) : CpWords.Statement (.plkMirrorEnable r v) :=
  cpWords_none _ rfl

theorem CpWords.plkMirrorDisable (r : Req) : CpWords.Statement (.plkMirrorDisable r) :=
  cpWords_none _ rfl

theorem CpWords.mirrorWriteMessage (arrayId : BitVec 128) (seq : Nat) (vol : MirVol) (lba : Nat) (blocks : List (List Byte)) : CpWords.Statement (.mirrorWriteMessage arrayId seq vol lba blocks) :=
  cpWords_none _ rfl

theorem CpWords.mirrorAck (id : Nat) : CpWords.Statement (.mirrorAck id) :=
  cpWords_none _ rfl

theorem CpWords.mirrorAckTimeout : CpWords.Statement (.mirrorAckTimeout) := cpWords_none _ rfl

theorem CpWords.plkMirrorRelease (r : Req) : CpWords.Statement (.plkMirrorRelease r) :=
  cpWords_none _ rfl

theorem CpWords.partnerCopyRequest (m : CopyMessage) : CpWords.Statement (.partnerCopyRequest m) :=
  cpWords_none _ rfl

theorem CpWords.timeExchange (ofs : Int) : CpWords.Statement (.timeExchange ofs) :=
  cpWords_none _ rfl

theorem CpWords.tsyncPulse : CpWords.Statement (.tsyncPulse) := cpWords_none _ rfl

theorem CpWords.tsyncEdge (ofs : Int) : CpWords.Statement (.tsyncEdge ofs) :=
  cpWords_none _ rfl

theorem CpWords.almanacStartTimeout : CpWords.Statement (.almanacStartTimeout) := cpWords_none _ rfl

theorem CpWords.tileFault (phys : Nat) (check : Byte) : CpWords.Statement (.tileFault phys check) :=
  cpWords_none _ rfl

theorem CpWords.heartbeatMiss (stw : Bool) (n : Nat) : CpWords.Statement (.heartbeatMiss stw n) :=
  cpWords_none _ rfl

theorem CpWords.sparePlaced (l : Nat) : CpWords.Statement (.sparePlaced l) :=
  cpWords_none _ rfl

theorem CpWords.glbTileMapWrite (r : Req) (i : Nat) (v : Word) : CpWords.Statement (.glbTileMapWrite r i v) :=
  cpWords_none _ rfl

theorem CpWords.swapComplete : CpWords.Statement (.swapComplete) := cpWords_none _ rfl

theorem CpWords.vigilSvcOut (r : Req) (v : Word) : CpWords.Statement (.vigilSvcOut r v) :=
  cpWords_none _ rfl

theorem CpWords.vigilSvcTest (r : Req) (v : Word) : CpWords.Statement (.vigilSvcTest r v) :=
  cpWords_none _ rfl

theorem CpWords.vigilSvcIn (r : Req) (v : Word) : CpWords.Statement (.vigilSvcIn r v) :=
  cpWords_none _ rfl

theorem CpWords.serviceActionComplete (pass : Bool) (ms : BitVec 16) : CpWords.Statement (.serviceActionComplete pass ms) :=
  cpWords_none _ rfl

theorem CpWords.vigilUackWrite (r : Req) (v : Word) : CpWords.Statement (.vigilUackWrite r v) :=
  cpWords_none _ rfl

theorem CpWords.vigilLogCWrite (r : Req) (v : Word) : CpWords.Statement (.vigilLogCWrite r v) :=
  cpWords_none _ rfl

theorem CpWords.checkerSelfTest (blk : Byte) (n : Nat) (pass : Bool) : CpWords.Statement (.checkerSelfTest blk n pass) :=
  cpWords_none _ rfl

theorem CpWords.resetRequiredFault (blk check : Byte) : CpWords.Statement (.resetRequiredFault blk check) :=
  cpWords_none _ rfl

theorem CpWords.trustKeyloadGo (r : Req) : CpWords.Statement (.trustKeyloadGo r) :=
  cpWords_none _ rfl

theorem CpWords.trustFwActGo (r : Req) : CpWords.Statement (.trustFwActGo r) :=
  cpWords_none _ rfl

theorem CpWords.trustFwActCommit (r : Req) : CpWords.Statement (.trustFwActCommit r) :=
  cpWords_none _ rfl

theorem CpWords.mbxCmdWrite (side : Bool) (r : Req) (v : Word) : CpWords.Statement (.mbxCmdWrite side r v) :=
  cpWords_none _ rfl

theorem CpWords.mbxDataWrite (side : Bool) (r : Req) (v : Word) : CpWords.Statement (.mbxDataWrite side r v) :=
  cpWords_none _ rfl

theorem CpWords.mbxDataRead (side : Bool) (r : Req) : CpWords.Statement (.mbxDataRead side r) :=
  cpWords_none _ rfl

theorem CpWords.mailboxSidebandTimeout : CpWords.Statement (.mailboxSidebandTimeout) := cpWords_none _ rfl

theorem CpWords.getInfo : CpWords.Statement (.getInfo) := cpWords_none _ rfl

theorem CpWords.getCert : CpWords.Statement (.getCert) := cpWords_none _ rfl

theorem CpWords.attReport : CpWords.Statement (.attReport) := cpWords_none _ rfl

theorem CpWords.fwStage (flashOk : Bool) : CpWords.Statement (.fwStage flashOk) :=
  cpWords_none _ rfl

theorem CpWords.fwVerify : CpWords.Statement (.fwVerify) := cpWords_none _ rfl

theorem CpWords.getVersion : CpWords.Statement (.getVersion) := cpWords_none _ rfl

theorem CpWords.getCapabilities (ctExp xferSize maxMsg : Nat) : CpWords.Statement (.getCapabilities ctExp xferSize maxMsg) :=
  cpWords_none _ rfl

theorem CpWords.negotiateAlgorithms (ext hash meas : Bool) : CpWords.Statement (.negotiateAlgorithms ext hash meas) :=
  cpWords_none _ rfl

theorem CpWords.getDigests : CpWords.Statement (.getDigests) := cpWords_none _ rfl

theorem CpWords.getCertificate (slot ofs len : Nat) : CpWords.Statement (.getCertificate slot ofs len) :=
  cpWords_none _ rfl

theorem CpWords.challenge (slot summary : Nat) (nonce : BitVec 256) : CpWords.Statement (.challenge slot summary nonce) :=
  cpWords_none _ rfl

theorem CpWords.getMeasurements (slot index : Nat) (sign : Bool) (nonce : BitVec 256) : CpWords.Statement (.getMeasurements slot index sign nonce) :=
  cpWords_none _ rfl

theorem CpWords.chunkSend (handle seq : Nat) (last : Bool) (data : List Byte) : CpWords.Statement (.chunkSend handle seq last data) :=
  cpWords_none _ rfl

theorem CpWords.chunkGet (handle seq : Nat) : CpWords.Statement (.chunkGet handle seq) :=
  cpWords_none _ rfl

theorem CpWords.powerOnReset (env : BootEnv) : CpWords.Statement (.powerOnReset env) :=
  cpWords_none _ rfl

theorem CpWords.deviceReset (r : Req) (env : BootEnv) : CpWords.Statement (.deviceReset r env) :=
  cpWords_none _ rfl

theorem CpWords.testReset : CpWords.Statement (.testReset) := cpWords_none _ rfl

theorem CpWords.pllLockLoss : CpWords.Statement (.pllLockLoss) := cpWords_none _ rfl

theorem CpWords.clkDivWrite (r : Req) (v : Word) : CpWords.Statement (.clkDivWrite r v) :=
  cpWords_none _ rfl

theorem CpWords.clkTrimWrite (r : Req) (v : Word) : CpWords.Statement (.clkTrimWrite r v) :=
  cpWords_none _ rfl

theorem CpWords.stewardTimerFire (w i : Nat) : CpWords.Statement (.stewardTimerFire w i) :=
  cpWords_none _ rfl

theorem CpWords.clkTmrDlWrite (r : Req) (w i : Nat) (hi : Bool) (v : Word) : CpWords.Statement (.clkTmrDlWrite r w i hi v) :=
  cpWords_none _ rfl

theorem CpWords.pwrAvsWrite (r : Req) (v : Word) (vout : BitVec 10) : CpWords.Statement (.pwrAvsWrite r v vout) :=
  cpWords_none _ rfl

theorem CpWords.avsConfirmTimeout : CpWords.Statement (.avsConfirmTimeout) := cpWords_none _ rfl

theorem CpWords.temperatureSample (tj : BitVec 11) : CpWords.Statement (.temperatureSample tj) :=
  cpWords_none _ rfl

theorem CpWords.throttleStep (up : Bool) : CpWords.Statement (.throttleStep up) :=
  cpWords_none _ rfl

theorem CpWords.engineFault (ers : Bool) (e : Nat) : CpWords.Statement (.engineFault ers e) :=
  cpWords_none _ rfl

theorem CpWords.rootPllRelock : CpWords.Statement (.rootPllRelock) := cpWords_none _ rfl

theorem CpWords.pinRawLevelChange (pin : Nat) (level : Bool) : CpWords.Statement (.pinRawLevelChange pin level) :=
  cpWords_none _ rfl

theorem CpWords.timeSourceAbsent : CpWords.Statement (.timeSourceAbsent) := cpWords_none _ rfl

theorem CpWords.timeSourceFirstEdge : CpWords.Statement (.timeSourceFirstEdge) := cpWords_none _ rfl

theorem CpWords.partnerMirrorMessage (ev : PartnerEvent) : CpWords.Statement (.partnerMirrorMessage ev) :=
  cpWords_none _ rfl

theorem CpWords.unsupportedPdu (c : Nat) (bad : BadPdu) : CpWords.Statement (.unsupportedPdu c bad) :=
  cpWords_none _ rfl

theorem CpWords.invalidCommandOpcode (c cid op : Nat) : CpWords.Statement (.invalidCommandOpcode c cid op) :=
  cpWords_none _ rfl

theorem CpWords.tcpSegmentChecksumError (port : Nat) : CpWords.Statement (.tcpSegmentChecksumError port) :=
  cpWords_none _ rfl

theorem CpWords.uncorrectableFecCodeword (port : Nat) : CpWords.Statement (.uncorrectableFecCodeword port) :=
  cpWords_none _ rfl

end Sys2Proof.Laws
end

