-- ==== Sys2Proof/Safety.lean ====
section
/-! DEFINITION. Safety.lean: the terms the statements use: when a command may run, what its success leaves, and what a
safe state is. -/

namespace Sys2Proof.Machine

/-! ## Column processors -/

/-- CP u executes the instruction at its PC (R197, R200, R203). -/
def State.executes (s : State) (u : CpAt) : Bool :=
  s.cpRuns u && (s.cpOf u.tile u.cp).pc.toNat < (s.cpOf u.tile u.cp).env.codeLen

/-- s with CP u and its tile replaced. -/
def State.withCp (s : State) (u : CpAt) (c : Cp) (t : Tile) : State := (s.setCp u.tile u.cp c).setTile u.tile t

/-- s after an instruction that changes CP u alone and goes on to the next one. -/
def State.stepCp (s : State) (u : CpAt) (c : Cp) : State := s.withCp u c.adv (s.tile u.tile)

/-- s after a vector instruction that changes CP u alone: CP_VINST counts it (R415; log entry 30). -/
def State.stepVec (s : State) (u : CpAt) (c : Cp) : State := (s.stepCp u c).meter (s.tile u.tile).ctx.toNat 1 1

/-- The CP with G[d] written, flags set. -/
def Cp.result (c : Cp) (d : BitVec 5) (v : DWord) (f : KFlags) : Cp := (c.wr d v).flag f

/-- The CP runs none of its own range operations (R213). -/
def State.rangeIdle (s : State) (u : CpAt) : Bool := !rangeBusy u.cp (s.tile u.tile)

/-- A scalar load of n bytes may go: the CP may read them, they are aligned, no range operation is in the way and the
constant pool window is staged (R194, R195, R197, R213). -/
def State.canLoad (s : State) (u : CpAt) (a : DWord) (n : Nat) : Bool :=
  (accFault (s.cpOf u.tile u.cp) a.toNat n n false).isNone && !rangeStalls u.cp (s.cpOf u.tile u.cp) (s.tile u.tile) (lineOf a.toNat) 128
    && (unstaged (s.tile u.tile) a.toNat).isNone

/-- A scalar store of n bytes may go (R194, R195, R213). -/
def State.canStore (s : State) (u : CpAt) (a : DWord) (n : Nat) : Bool :=
  (accFault (s.cpOf u.tile u.cp) a.toNat n n true).isNone && !rangeStalls u.cp (s.cpOf u.tile u.cp) (s.tile u.tile) (lineOf a.toNat) 128

/-- A line operation may go: bits 63:32 of its address are 0 and no range operation covers the line (R194, R213). -/
def State.lineFree (s : State) (u : CpAt) (a : DWord) : Bool :=
  a.toNat < 2 ^ 32 && !rangeStalls u.cp (s.cpOf u.tile u.cp) (s.tile u.tile) (lineOf a.toNat) 128

/-- The V registers of a vector instruction are groups, and so is its predicate (R181, R183). -/
def Cp.groupsOk (c : Cp) (f : VFields) (x : Bool) : Bool :=
  c.vOk f.d.toNat && c.vOk f.a.toNat && (x || c.vOk f.b.toNat) && c.pmOk f

/-- Element i of V[A] (R181). -/
def Cp.srcA (c : Cp) (vlen : Nat) (f : VFields) (i : Nat) : BitVec c.sewBits :=
  BitVec.ofNat c.sewBits (c.velem vlen c.sewBits f.a.toNat i)

/-- Element i of the B operand: of V[B], or the low SEW bits of G[B] (R186). -/
def Cp.srcB (c : Cp) (vlen : Nat) (f : VFields) (x : Bool) (i : Nat) : BitVec c.sewBits :=
  BitVec.ofNat c.sewBits (vecB vlen c f x i)

/-- The CP with the active elements of V[D] written, their flags set (R182). -/
def Cp.vecWrite (c : Cp) (vlen : Nat) (f : VFields) (val : Nat → BitVec c.sewBits × KFlags) : Cp :=
  elemwise vlen c.sewBits f c fun i => ((val i).1.toNat, (val i).2)

/-- Every byte of a bitmap access may go (R193, R194, R197, R213). -/
def State.bytesOk (s : State) (u : CpAt) (wr : Bool) (a n : Nat) : Bool :=
  (List.range n).all fun i =>
    (accFault (s.cpOf u.tile u.cp) ((a + i : Nat) : Int) 1 1 wr).isNone && !rangeStalls u.cp (s.cpOf u.tile u.cp) (s.tile u.tile) (lineOf (a + i)) 128
      && (unstaged (s.tile u.tile) (a + i)).isNone

/-- Every element of a vector access from RIX on may go (R194, R195, R197, R213). -/
def State.vmemOk (s : State) (u : CpAt) (f : VFields) (wr : Bool) (addr : Nat → Int) : Bool :=
  let c := s.cpOf u.tile u.cp
  (pendingElems s.vlen c f).all fun i =>
    (accFault c (addr i) (c.sewBits / 8) (c.sewBits / 8) wr).isNone
      && !rangeStalls u.cp (s.cpOf u.tile u.cp) (s.tile u.tile) (lineOf (addr i).toNat) 128 && (unstaged (s.tile u.tile) (addr i).toNat).isNone

/-- The elements from RIX on, moved one after the other (R196). -/
def State.vmemAll (s : State) (u : CpAt) (f : VFields) (one : Nat → Nat → Cp → Tile → Cp × Tile) (addr : Nat → Int) : Cp × Tile :=
  (pendingElems s.vlen (s.cpOf u.tile u.cp) f).foldl (fun (x : Cp × Tile) i => one i (addr i).toNat x.1 x.2)
    (s.cpOf u.tile u.cp, s.tile u.tile)

/-- The product of two bytes as polynomials over GF(2): the xor of the shifts of a that the bits of b select (R190). -/
def polyMul (a b : Nat) : Nat := (List.range 8).foldl (fun p i => if b.testBit i then p ^^^ a <<< i else p) 0

/-! ## Registers and the bus -/

/-- The device is READY, the unit at this BAR0 offset is present, the requester is no VF, and none of its earlier writes is held (R2, R3,
R32, R36, R526). -/
def State.reachable (s : State) (r : Req) (ofs : Nat) : Bool :=
  (match r with | .vf _ => false | _ => true) && s.glb.start = 5 && s.presentAt ofs && (s.holder r).isNone

/-- The requester holds the open lock (R45). -/
def State.holds (s : State) (r : Req) : Bool := s.lock.isOpen && s.lock.holder = r

/-- s after an SPDM request that TRUST answers: the responder's turn and the response (R500). -/
def State.spdmTurn (s : State) (q : SpdmReq) : State :=
  let a := (s.updSpdm fun y => { y with chunkIn := none, chunkOut := none }).spdmAnswer q
  let f := (a.2.spdmRecord q a.1).spdmFit a.1
  f.2.emit (.spdm f.1.1 f.1.2)

/-! ## Ring commands -/

/-- Command `id` of this opcode is fetched, may start, and carries its context's generation (R17, R356, R368). -/
def State.ready (s : State) (id op : Nat) (c : Cmd) : Bool :=
  s.cmd? id = some c && c.op = op && c.phase = .fetched && s.fenceOk c && s.serving op && s.current c.ctx c.gen

/-- Nothing keeps the command from its host memory (R365). -/
def State.hostFree (s : State) (c : Cmd) : Bool := !s.hostWaits c

/-- Command `id` works on table t, which its context owns, and nothing on the table is in its way (R231, R232, R236). -/
def State.tableFor (s : State) (id : Nat) (c : Cmd) (t : ATable) : Bool :=
  !s.astWaits id && c.f 8 2 ≤ 63 && s.atable (c.f 8 2) = t && t.enable && t.ctx = c.ctx && !t.rsp

/-! ## NVMe over TCP -/

/-- Connection c takes a capsule with n bytes of data, of command cid: a queue of this kind is connected, the device is not in
PS2, and no command of this cid is in flight (R382, R384, R385, R388). -/
def State.capsuleOk (s : State) (c cid : Nat) (admin : Bool) : Bool :=
  s.pduCan c && s.portCmds (s.conn c).port < 16384 && s.pwr.ps ≠ 2 && (s.conn c).state = 3 && decide ((s.conn c).qid = 0) = admin
    && !(s.connCmds c).any fun e => e.origin = .net c cid

/-- s once the bytes of a capsule with n bytes of data are counted, and on an admin queue the keep-alive timer has restarted (R382, R387,
R415). -/
def State.capsuleCounted (s : State) (c n : Nat) : State := (s.netBytes c ((s.conn c).pduLen 72 4 n)).heard c

/-! ## What every step keeps -/

/-- The byte memories stand in their canonical form: host memory, HBM, the stewards' memory, the flash and the scratch of
every tile; and so does the page table. -/
def State.memWf (s : State) : Prop :=
  Memory.wf s.hostMem = true ∧ Memory.wf s.hbm = true ∧ Memory.wf s.stwMem = true ∧ Memory.wf s.trust.flash = true ∧
    tableWf false s.pages = true ∧ (∀ e ∈ s.tiles, Memory.wf e.2.scratch = true ∧ ∀ o ∈ e.2.foreign, Memory.wf o.2 = true) ∧
    Memory.wf s.stwLocal = true

/-- What a command leaves of a state besides its effect: the queue of waiting commands and the part are unchanged, and the
memories stay in their canonical form. -/
def Keeps (s t : State) : Prop := t.pending = s.pending ∧ t.variant = s.variant ∧ (s.memWf → t.memWf)

end Sys2Proof.Machine
end

