-- ==== Sys2Proof/Certificates/Slice0/Obligations.lean ====
section
/-! DEFINITION. Certificates/Slice0/Obligations.lean: the statements for the provers. -/

open Sys2Proof Sys2Proof.Machine

/-- Each of the nine register rows answers the state its rules give, under conditions on the state and the operands alone: the guard's key write and expiry; a write of a register; an access to a reserved location or of a bad size; a clearing read by PF0, by a VF, and by another requester, which clears nothing; a low-word read of a counter; the Almanac's low word by both paths; the vote of every T field, for copies that agree, for one that differs and is rewritten, and for three that differ; and the end of a check that is not waiting for a generation's report. (R41, R45, R47, R51, R42, R44, R29, R50, R53) -/
def Obligations.GuardCompletes : Prop :=
  (∀ (r : Req) (v : Word) (s : State),
    s.reachable r 0x20 = true →
    exec (.glbGuardWrite r v) s = .next (s.writeGuard r v)) ∧
  (∀ (s : State),
    s.lock.isOpen = true ∧ s.lock.remain = 0 →
    exec .guardExpiry s = .next (if s.comes (fun c => gRow c = some s.lock.holder) then s else s.setLock {})) ∧
  (∀ (r : Req) (sp : Space) (off : Nat) (v : Word) (s : State),
    s.canAccess r sp off = true →
    exec (.registerWrite r sp off v) s = .next (s.inOrder r sp [(off, v)] (s.busWrite r sp off v))) ∧
  (∀ (r : Req) (sp : Space) (off size : Nat) (wr : Bool) (s : State),
    s.canRead r sp off = true →
    (badSize sp off size wr || s.isReserved r sp off wr) = true →
    exec (.reservedAccess r sp off size wr) s = .next (s.reserved r sp off wr (badSize sp off size wr))) ∧
  (∀ (r : Req) (off : Nat) (again : Word) (s : State) (x : Word) (t : State),
    r = .pf0 →
    s.canRead r .bar0 off = true →
    s.peekAt r .bar0 off = some x →
    s.rcClear off again = some t →
    exec (.rcClearingRead r off again) s = .next (t.emit (.readData r x))) ∧
  (∀ (r : Req) (off : Nat) (again : Word) (s : State) (x : Word) (t : State) (n : Nat),
    r = .vf n →
    s.canRead r .bar0 off = true →
    s.peekAt r .bar0 off = some x →
    s.rcClearVf (n - 1) off again = some t →
    exec (.rcClearingRead r off again) s = .next (t.emit (.readData r x))) ∧
  (∀ (r : Req) (off : Nat) (again : Word) (s : State) (x : Word) (t : State),
    (r matches .jtag | .stw _) = true →
    s.canRead r .bar0 off = true →
    s.peekAt r .bar0 off = some x →
    s.rcClear off again = some t →
    exec (.rcClearingRead r off again) s = .next (s.emit (.readData r x))) ∧
  (∀ (r : Req) (off : Nat) (s : State) (d : DWord),
    s.canRead r .bar0 off = true →
    (r matches .vf _) = false →
    s.wide off = some d →
    (s.peekAt r .bar0 off).isSome = true →
    exec (.counterLowRead r off) s = .next (s.lowRead r off d)) ∧
  (∀ (r : Req) (s : State),
    s.reachable r 0x10100 = true →
    s.canRead r .bar0 0x10100 = true →
    exec (.clkAlmLoRead r) s = .next (s.lowRead r 0x10100 s.clk.alm)) ∧
  (∀ (r : Req) (s : State) (n : Nat),
    r = .vf n →
    s.canRead r .bar0 0x100 = true →
    exec (.clkAlmLoRead r) s = .next (s.lowRead r 0x100 s.clk.alm)) ∧
  (∀ (f : TField) (s : State),
    f = .guard →
    compare3 s.glb.guard = .same →
    exec (.triplicatedFieldVote f) s = .next (s)) ∧
  (∀ (f : TField) (s : State) (u : Tri (Lock)),
    f = .guard →
    compare3 s.glb.guard = .fixed u →
    exec (.triplicatedFieldVote f) s = .next (({ s with glb := { s.glb with guard := u } }).record 0 ownerCtx (0x20 / 0x10000 % 256) 0x06 0 0 (BitVec.ofNat 32 (0x20 % 0x10000)) false 0)) ∧
  (∀ (f : TField) (s : State),
    f = .guard →
    compare3 s.glb.guard = .lost →
    exec (.triplicatedFieldVote f) s = .next (((s).record 1 ownerCtx (0x20 / 0x10000 % 256) 0x06 0 0 (BitVec.ofNat 32 (0x20 % 0x10000)) false 0).setLock {})) ∧
  (∀ (f : TField) (s : State) (r : Nat),
    f = .tileMap r ∧ r < 4 →
    compare3 (look (Tri.of 0) s.glb.tileMap r) = .same →
    exec (.triplicatedFieldVote f) s = .next (s)) ∧
  (∀ (f : TField) (s : State) (r : Nat) (u : Tri (Word)),
    f = .tileMap r ∧ r < 4 →
    compare3 (look (Tri.of 0) s.glb.tileMap r) = .fixed u →
    exec (.triplicatedFieldVote f) s = .next (({ s with glb := { s.glb with tileMap := put (Tri.of 0) s.glb.tileMap r u } }).record 0 ownerCtx ((0x50 + 4 * r) / 0x10000 % 256) 0x06 0 0 (BitVec.ofNat 32 ((0x50 + 4 * r) % 0x10000)) false 0)) ∧
  (∀ (f : TField) (s : State) (r : Nat),
    f = .tileMap r ∧ r < 4 →
    compare3 (look (Tri.of 0) s.glb.tileMap r) = .lost →
    exec (.triplicatedFieldVote f) s = .next (((s).record 1 ownerCtx ((0x50 + 4 * r) / 0x10000 % 256) 0x06 0 0x20 (BitVec.ofNat 32 ((0x50 + 4 * r) % 0x10000)) false 0).resetRequired)) ∧
  (∀ (f : TField) (s : State),
    f = .pdiv →
    compare3 s.clk.pdiv = .same →
    exec (.triplicatedFieldVote f) s = .next (s)) ∧
  (∀ (f : TField) (s : State) (u : Tri (BitVec 4)),
    f = .pdiv →
    compare3 s.clk.pdiv = .fixed u →
    exec (.triplicatedFieldVote f) s = .next (({ s with clk := { s.clk with pdiv := u } }).record 0 ownerCtx (0x10010 / 0x10000 % 256) 0x06 0 0 (BitVec.ofNat 32 (0x10010 % 0x10000)) false 0)) ∧
  (∀ (f : TField) (s : State),
    f = .pdiv →
    compare3 s.clk.pdiv = .lost →
    exec (.triplicatedFieldVote f) s = .next (((s).record 1 ownerCtx (0x10010 / 0x10000 % 256) 0x06 0 0x20 (BitVec.ofNat 32 (0x10010 % 0x10000)) false 0).resetRequired)) ∧
  (∀ (f : TField) (s : State) (p : Nat),
    f = .partEn p ∧ p < 4096 →
    compare3 (s.part p).en = .same →
    exec (.triplicatedFieldVote f) s = .next (s)) ∧
  (∀ (f : TField) (s : State) (p : Nat) (u : Tri (Bool)),
    f = .partEn p ∧ p < 4096 →
    compare3 (s.part p).en = .fixed u →
    exec (.triplicatedFieldVote f) s = .next ((s.updPart p fun x => { x with en := u }).record 0 p ((0x400000 + 0x100 * p) / 0x10000 % 256) 0x06 0 0 (BitVec.ofNat 32 ((0x400000 + 0x100 * p) % 0x10000)) false 0)) ∧
  (∀ (f : TField) (s : State) (p : Nat),
    f = .partKsrc p ∧ p < 4096 →
    compare3 (s.part p).ksrc = .same →
    exec (.triplicatedFieldVote f) s = .next (s)) ∧
  (∀ (f : TField) (s : State) (p : Nat) (u : Tri (Bool)),
    f = .partKsrc p ∧ p < 4096 →
    compare3 (s.part p).ksrc = .fixed u →
    exec (.triplicatedFieldVote f) s = .next ((s.updPart p fun x => { x with ksrc := u }).record 0 p ((0x400000 + 0x100 * p) / 0x10000 % 256) 0x06 0 0 (BitVec.ofNat 32 ((0x400000 + 0x100 * p) % 0x10000)) false 0)) ∧
  (∀ (f : TField) (s : State) (p : Nat),
    f = .partPageMax p ∧ p < 4096 →
    compare3 (s.part p).pageMax = .same →
    exec (.triplicatedFieldVote f) s = .next (s)) ∧
  (∀ (f : TField) (s : State) (p : Nat) (u : Tri (BitVec 17)),
    f = .partPageMax p ∧ p < 4096 →
    compare3 (s.part p).pageMax = .fixed u →
    exec (.triplicatedFieldVote f) s = .next ((s.updPart p fun x => { x with pageMax := u }).record 0 p ((0x40000C + 0x100 * p) / 0x10000 % 256) 0x06 0 0 (BitVec.ofNat 32 ((0x40000C + 0x100 * p) % 0x10000)) false 0)) ∧
  (∀ (f : TField) (s : State) (p : Nat),
    f = .partPageMax p ∧ p < 4096 →
    compare3 (s.part p).pageMax = .lost →
    exec (.triplicatedFieldVote f) s = .next (((s).record 1 p ((0x40000C + 0x100 * p) / 0x10000 % 256) 0x06 0 0x10 (BitVec.ofNat 32 ((0x40000C + 0x100 * p) % 0x10000)) false 0x0705).stopPart p)) ∧
  (∀ (f : TField) (s : State) (p : Nat),
    f = .partQmax p ∧ p < 4096 →
    compare3 (s.part p).qmax = .same →
    exec (.triplicatedFieldVote f) s = .next (s)) ∧
  (∀ (f : TField) (s : State) (p : Nat) (u : Tri (BitVec 13)),
    f = .partQmax p ∧ p < 4096 →
    compare3 (s.part p).qmax = .fixed u →
    exec (.triplicatedFieldVote f) s = .next ((s.updPart p fun x => { x with qmax := u }).record 0 p ((0x400014 + 0x100 * p) / 0x10000 % 256) 0x06 0 0 (BitVec.ofNat 32 ((0x400014 + 0x100 * p) % 0x10000)) false 0)) ∧
  (∀ (f : TField) (s : State) (p : Nat),
    f = .partQmax p ∧ p < 4096 →
    compare3 (s.part p).qmax = .lost →
    exec (.triplicatedFieldVote f) s = .next (((s).record 1 p ((0x400014 + 0x100 * p) / 0x10000 % 256) 0x06 0 0x10 (BitVec.ofNat 32 ((0x400014 + 0x100 * p) % 0x10000)) false 0x0705).stopPart p)) ∧
  (∀ (f : TField) (s : State) (p : Nat),
    f = .partWcMax p ∧ p < 4096 →
    compare3 (s.part p).wcMax = .same →
    exec (.triplicatedFieldVote f) s = .next (s)) ∧
  (∀ (f : TField) (s : State) (p : Nat) (u : Tri (BitVec 13)),
    f = .partWcMax p ∧ p < 4096 →
    compare3 (s.part p).wcMax = .fixed u →
    exec (.triplicatedFieldVote f) s = .next ((s.updPart p fun x => { x with wcMax := u }).record 0 p ((0x400018 + 0x100 * p) / 0x10000 % 256) 0x06 0 0 (BitVec.ofNat 32 ((0x400018 + 0x100 * p) % 0x10000)) false 0)) ∧
  (∀ (f : TField) (s : State) (p : Nat),
    f = .partWcMax p ∧ p < 4096 →
    compare3 (s.part p).wcMax = .lost →
    exec (.triplicatedFieldVote f) s = .next (((s).record 1 p ((0x400018 + 0x100 * p) / 0x10000 % 256) 0x06 0 0x10 (BitVec.ofNat 32 ((0x400018 + 0x100 * p) % 0x10000)) false 0x0705).stopPart p)) ∧
  (∀ (f : TField) (s : State) (q : Nat),
    f = .queueCtx q ∧ q < 65536 →
    compare3 (s.queue q).ctx = .same →
    exec (.triplicatedFieldVote f) s = .next (s)) ∧
  (∀ (f : TField) (s : State) (q : Nat) (u : Tri (BitVec 13)),
    f = .queueCtx q ∧ q < 65536 →
    compare3 (s.queue q).ctx = .fixed u →
    exec (.triplicatedFieldVote f) s = .next ((s.updQueue q fun x => { x with ctx := u }).record 0 (if (s.queue q).ctxN < 4096 then (s.queue q).ctxN else ownerCtx) ((0x800004 + 0x40 * q) / 0x10000 % 256) 0x06 0 0 (BitVec.ofNat 32 ((0x800004 + 0x40 * q) % 0x10000)) false 0)) ∧
  (∀ (f : TField) (s : State) (q : Nat),
    f = .queueCtx q ∧ q < 65536 →
    compare3 (s.queue q).ctx = .lost →
    exec (.triplicatedFieldVote f) s = .next (((s).record 1 (if (s.queue q).ctxN < 4096 then (s.queue q).ctxN else ownerCtx) ((0x800004 + 0x40 * q) / 0x10000 % 256) 0x06 0 0x10 (BitVec.ofNat 32 ((0x800004 + 0x40 * q) % 0x10000)) false 0).stopQueue q)) ∧
  (∀ (f : TField) (s : State) (q : Nat),
    f = .queueSlot q ∧ q < 65536 →
    compare3 (s.queue q).slot = .same →
    exec (.triplicatedFieldVote f) s = .next (s)) ∧
  (∀ (f : TField) (s : State) (q : Nat) (u : Tri (BitVec 12)),
    f = .queueSlot q ∧ q < 65536 →
    compare3 (s.queue q).slot = .fixed u →
    exec (.triplicatedFieldVote f) s = .next ((s.updQueue q fun x => { x with slot := u }).record 0 (if (s.queue q).ctxN < 4096 then (s.queue q).ctxN else ownerCtx) ((0x800004 + 0x40 * q) / 0x10000 % 256) 0x06 0 0 (BitVec.ofNat 32 ((0x800004 + 0x40 * q) % 0x10000)) false 0)) ∧
  (∀ (f : TField) (s : State) (q : Nat),
    f = .queueSlot q ∧ q < 65536 →
    compare3 (s.queue q).slot = .lost →
    exec (.triplicatedFieldVote f) s = .next (((s).record 1 (if (s.queue q).ctxN < 4096 then (s.queue q).ctxN else ownerCtx) ((0x800004 + 0x40 * q) / 0x10000 % 256) 0x06 0 0x10 (BitVec.ofNat 32 ((0x800004 + 0x40 * q) % 0x10000)) false 0).stopQueue q)) ∧
  (∀ (f : TField) (s : State) (b : Nat),
    f = .bankOwner b ∧ b < 32 ∧ s.astp = true →
    compare3 (s.bank b).owner = .same →
    exec (.triplicatedFieldVote f) s = .next (s)) ∧
  (∀ (f : TField) (s : State) (b : Nat) (u : Tri (BitVec 13)),
    f = .bankOwner b ∧ b < 32 ∧ s.astp = true →
    compare3 (s.bank b).owner = .fixed u →
    exec (.triplicatedFieldVote f) s = .next ((s.updBank b fun x => { x with owner := u }).record 0 (if (tri (s.bank b).owner).toNat < 4096 then (tri (s.bank b).owner).toNat else ownerCtx) ((0x30A000 + 4 * b) / 0x10000 % 256) 0x06 0 0 (BitVec.ofNat 32 ((0x30A000 + 4 * b) % 0x10000)) false 0)) ∧
  (∀ (f : TField) (s : State) (b : Nat),
    f = .bankOwner b ∧ b < 32 ∧ s.astp = true →
    compare3 (s.bank b).owner = .lost →
    exec (.triplicatedFieldVote f) s = .next ((s).record 1 (if (tri (s.bank b).owner).toNat < 4096 then (tri (s.bank b).owner).toNat else ownerCtx) ((0x30A000 + 4 * b) / 0x10000 % 256) 0x06 0 0 (BitVec.ofNat 32 ((0x30A000 + 4 * b) % 0x10000)) false 0)) ∧
  (∀ (f : TField) (s : State) (a : Nat),
    f = .arrGeom a ∧ a < 64 →
    compare3 (s.arr a).geom = .same →
    exec (.triplicatedFieldVote f) s = .next (s)) ∧
  (∀ (f : TField) (s : State) (a : Nat) (u : Tri (Word)),
    f = .arrGeom a ∧ a < 64 →
    compare3 (s.arr a).geom = .fixed u →
    exec (.triplicatedFieldVote f) s = .next ((s.updArr a fun x => { x with geom := u }).record 0 ownerCtx ((0x33A004 + 0x40 * a) / 0x10000 % 256) 0x06 0 0 (BitVec.ofNat 32 ((0x33A004 + 0x40 * a) % 0x10000)) false 0)) ∧
  (∀ (f : TField) (s : State) (a : Nat),
    f = .arrGeom a ∧ a < 64 →
    compare3 (s.arr a).geom = .lost →
    exec (.triplicatedFieldVote f) s = .next (((s).record 1 ownerCtx ((0x33A004 + 0x40 * a) / 0x10000 % 256) 0x06 0 0x10 (BitVec.ofNat 32 ((0x33A004 + 0x40 * a) % 0x10000)) false 0x0705).stopArr a)) ∧
  (∀ (f : TField) (s : State) (a r : Nat),
    f = .arrPos a r ∧ a < 64 ∧ r < 9 →
    compare3 (look (Tri.of 0) (s.arr a).pos r) = .same →
    exec (.triplicatedFieldVote f) s = .next (s)) ∧
  (∀ (f : TField) (s : State) (a r : Nat) (u : Tri (Word)),
    f = .arrPos a r ∧ a < 64 ∧ r < 9 →
    compare3 (look (Tri.of 0) (s.arr a).pos r) = .fixed u →
    exec (.triplicatedFieldVote f) s = .next ((s.updArr a fun x => { x with pos := put (Tri.of 0) x.pos r u }).record 0 ownerCtx ((0x33A008 + 0x40 * a + 4 * r) / 0x10000 % 256) 0x06 0 0 (BitVec.ofNat 32 ((0x33A008 + 0x40 * a + 4 * r) % 0x10000)) false 0)) ∧
  (∀ (f : TField) (s : State) (a r : Nat),
    f = .arrPos a r ∧ a < 64 ∧ r < 9 →
    compare3 (look (Tri.of 0) (s.arr a).pos r) = .lost →
    exec (.triplicatedFieldVote f) s = .next (((s).record 1 ownerCtx ((0x33A008 + 0x40 * a + 4 * r) / 0x10000 % 256) 0x06 0 0x10 (BitVec.ofNat 32 ((0x33A008 + 0x40 * a + 4 * r) % 0x10000)) false 0x0705).stopArr a)) ∧
  (∀ (b : CheckBlock) (s : State) (o : CheckObj) (l : List CheckObj),
    (s.ccr b).queue = o :: l ∧ s.stoppedAt b = false →
    (match o with | .partGen _ => false | .partRestore id => !s.restoreWaits id | _ => true) = true →
    exec (.consistencyCheckComplete b) s = .next ((s.endCheck o).replayHeld b))

/-- Each row of the clocks, the Almanac's start and steering, the steward timers, the core rail and the temperature answers the state its rules give, under conditions on the state and the operands alone. (R45, R513, R515, R516, R518, R519, R521, R522, R465, R466) -/
def Obligations.ClockCompletes : Prop :=
  (∀ (r : Req) (v : Word) (s : State),
    s.reachable r 0x10010 = true →
    s.holds r = true →
    exec (.clkDivWrite r v) s = .next ((s.setLock {}).writeDiv v)) ∧
  (∀ (r : Req) (v : Word) (s : State),
    s.reachable r 0x10020 = true →
    exec (.clkTrimWrite r v) s = .next ({ s with clk := { s.clk with trim := clampTrim v } })) ∧
  (∀ (r : Req) (w i : Nat) (hi : Bool) (v : Word) (s : State),
    w < 4 ∧ i < 8 →
    s.reachable r (0x10404 + w * 0x80 + i * 0x10 + 4 * b2n hi) = true →
    exec (.clkTmrDlWrite r w i hi v) s = .next (s.writeDeadline w i hi v)) ∧
  (∀ (r : Req) (v : Word) (vout : BitVec 10) (s : State),
    s.reachable r 0x60030 = true →
    s.holds r = true →
    exec (.pwrAvsWrite r v vout) s = .next ((s.setLock {}).writeAvs v vout)) ∧
  (∀ (s : State),
    s.pwr.avsPend = true →
    s.elapsed s.pwr.avsAt 1000000 = true →
    exec .avsConfirmTimeout s = .next (if s.comes (fun c => match c with | .pwrAvsWrite _ v vout => ({ s with pwr := { s.pwr with vset := vsetTaken (BitVec.ofNat 10 (bits v.toNat 9 0)) } } : State).railOk vout | _ => false) then s else ({ s with pwr := { s.pwr with avsErr := true, avsPend := false } }.record 1 ownerCtx 0x06 0x11 0 0 0 false 0).emit (.avs s.pwr.vGood))) ∧
  (∀ (s : State),
    s.clk.locked = true →
    exec .pllLockLoss s = .next (({ s with clk := { s.clk with locked := false, lossCnt := satInc s.clk.lossCnt } }.record 1 ownerCtx 0x01 0x0F 0 0x20 0 false 0).resetRequired)) ∧
  (∀ (s : State),
    s.clk.locked = false ∧ s.glb.start ≠ 0 →
    exec .rootPllRelock s = .next ({ s with clk := { s.clk with locked := true } })) ∧
  (∀ (w i : Nat) (s : State),
    w < 4 ∧ i < 8 →
    (look {} s.clk.timers (8 * w + i)).en = true →
    (look {} s.clk.timers (8 * w + i)).period = 0 →
    (look {} s.clk.timers (8 * w + i)).deadline.toNat ≤ s.clk.alm.toNat →
    exec (.stewardTimerFire w i) s = .next (if s.comes (deadlineWrite w i) then s else (s.updTimer w i fun x => { x with en := false }).raisePriv w i)) ∧
  (∀ (w i : Nat) (s : State),
    w < 4 ∧ i < 8 →
    (look {} s.clk.timers (8 * w + i)).en = true →
    (look {} s.clk.timers (8 * w + i)).period ≠ 0 →
    (look {} s.clk.timers (8 * w + i)).deadline.toNat ≤ s.clk.alm.toNat →
    exec (.stewardTimerFire w i) s = .next (if s.comes (deadlineWrite w i) then s else (s.updTimer w i fun x => { x with deadline := x.deadline + x.period.setWidth 64 }).raisePriv w i)) ∧
  (∀ (ofs : Int) (s : State),
    (List.range 4).any s.linkUp = true →
    s.isSource = false ∧ s.timeSources ≠ [] →
    exec (.timeExchange ofs) s = .next (s.timeMessages.steer ofs)) ∧
  (∀ (ofs : Int) (s : State),
    (List.range 4).any s.linkUp = true →
    (s.isSource = true ∨ s.timeSources = []) →
    exec (.timeExchange ofs) s = .next (s.timeMessages)) ∧
  (∀ (s : State),
    s.isSource = true ∧ s.clk.counting = true →
    s.clk.tsyncDone < s.alm / 1000000 →
    exec .tsyncPulse s = .next ({ s with clk := { s.clk with tsyncDone := s.alm / 1000000 } }.emit .tsync)) ∧
  (∀ (ofs : Int) (s : State),
    s.isSource = false ∧ s.glb.start ≠ 0 →
    s.clk.counting = false →
    exec (.tsyncEdge ofs) s = .next ({ s with clk := { s.clk with counting := true } })) ∧
  (∀ (ofs : Int) (s : State),
    s.isSource = false ∧ s.glb.start ≠ 0 →
    s.clk.counting = true ∧ s.timeSources = [] →
    exec (.tsyncEdge ofs) s = .next (s.steer ofs)) ∧
  (∀ (ofs : Int) (s : State),
    s.isSource = false ∧ s.glb.start ≠ 0 →
    s.clk.counting = true ∧ s.timeSources ≠ [] →
    exec (.tsyncEdge ofs) s = .next (s)) ∧
  (∀ (s : State),
    s.plk.tsrc = false ∧ s.clk.counting = false ∧ s.glb.start ≠ 0 →
    exec .almanacStartTimeout s = .next (if s.comes (· matches .tsyncEdge _) then s else { s with clk := { s.clk with counting := true } })) ∧
  (∀ (s : State),
    s.plk.tsrc = true ∧ s.clk.counting = false ∧ s.glb.start ≠ 0 →
    exec .timeSourceFirstEdge s = .next ({ s with clk := { s.clk with counting := true } }.emit .tsync)) ∧
  (∀ (s : State),
    s.isSource = false →
    exec .timeSourceAbsent s = .next ({ s with plk := { s.plk with lock := false } })) ∧
  (∀ (tj : BitVec 11) (s : State),
    (tj.toNat < 960 || s.pwr.thermTrip) = true →
    exec (.temperatureSample tj) s = .next (({ s.free.2 with pwr := { s.pwr with tj := tj, estW := s.free.1.setWidth 10 } } : State).rezone)) ∧
  (∀ (tj : BitVec 11) (s : State),
    960 ≤ tj.toNat ∧ s.pwr.thermTrip = false →
    exec (.temperatureSample tj) s = .next ((fun u : State => ({ u with pwr := { u.pwr with thermTrip := true } } : State).gateTiles) ({ s.free.2 with pwr := { s.pwr with tj := tj, estW := s.free.1.setWidth 10 } } : State).rezone)) ∧
  (∀ (up : Bool) (s : State),
    up = true ∧ s.pwr.thrZone = 2 →
    s.elapsed s.pwr.thrAt 10000000 = true →
    exec (.throttleStep up) s = .next ({ s with clk := { s.clk with pdivEff := divUp ((s.divWritten.map s.clk.effAfter).getD s.clk.pdivEff) }, pwr := { s.pwr with thrAt := s.clk.alm } })) ∧
  (∀ (up : Bool) (s : State),
    up = false ∧ s.pwr.thrZone = 0 →
    s.elapsed s.pwr.thrAt 10000000 = true →
    (s.divWritten.getD (tri s.clk.pdiv)).toNat < ((s.divWritten.map s.clk.effAfter).getD s.clk.pdivEff).toNat →
    exec (.throttleStep up) s = .next ({ s with clk := { s.clk with pdivEff := if (divDown ((s.divWritten.map s.clk.effAfter).getD s.clk.pdivEff)).toNat < (s.divWritten.getD (tri s.clk.pdiv)).toNat then s.divWritten.getD (tri s.clk.pdiv) else divDown ((s.divWritten.map s.clk.effAfter).getD s.clk.pdivEff) }, pwr := { s.pwr with thrAt := s.clk.alm } }))

/-- Each row of EVC answers the state its rules give: an edge pends or merges, a level source asserts, a pin's change starts its filter and the filter's expiry moves the filtered level, a steward begins to enter a handler, an entry or exit under way is taken over, and a steward begins to leave a handler, PF0's event message is sent, and HACK, SWSET and a route write are performed. (R423, R426, R427, R428, R429, R434, R436, R437) -/
def Obligations.EventCompletes : Prop :=
  (∀ (src : Nat) (s : State),
    src < 2048 ∧ isLevel src = false ∧ srcReserved src = false ∧ s.srcAbsent src = false →
    exec (.edgeEvent src) s = .next (s.raise src)) ∧
  (∀ (src : Nat) (s : State),
    isLevel src = true ∧ s.srcAbsent src = false ∧ s.levelIn src = true →
    ((s.route src).act = false ∨ s.evc.gated = true) →
    exec (.levelSourceAssert src) s = .next (s.raise src)) ∧
  (∀ (src : Nat) (s : State),
    isLevel src = true ∧ s.srcAbsent src = false ∧ s.levelIn src = true →
    (s.route src).act = true ∧ s.evc.gated = false →
    exec (.levelSourceAssert src) s = .next (s)) ∧
  (∀ (pin : Nat) (level : Bool) (s : State),
    pin < 4 ∧ (s.pin pin).raw ≠ level →
    exec (.pinRawLevelChange pin level) s = .next (s.updPin pin fun p => { p with raw := level, counting := level ≠ p.flt, filtUsed := p.filt })) ∧
  (∀ (pin : Nat) (s : State),
    pin = 1 ∧ (s.pin pin).counting = true ∧ (s.pin pin).raw = true →
    (s.pin pin).filtUsed = 0 →
    exec (.pinFilterExpiry pin) s = .next ((s.updPin pin fun x => { x with flt := x.raw, counting := false }).raise 1)) ∧
  (∀ (pin : Nat) (s : State),
    pin = 1 ∧ (s.pin pin).counting = true ∧ (s.pin pin).raw = false →
    (s.pin pin).filtUsed = 0 →
    exec (.pinFilterExpiry pin) s = .next (s.updPin pin fun x => { x with flt := x.raw, counting := false })) ∧
  (∀ (pin : Nat) (s : State),
    pin < 4 ∧ pin ≠ 1 ∧ (s.pin pin).counting = true →
    (s.pin pin).filtUsed = 0 →
    exec (.pinFilterExpiry pin) s = .next ((fun u : State => if u.levelIn pin && !(u.route pin).act then u.raise pin else u) (s.updPin pin fun x => { x with flt := x.raw, counting := false }))) ∧
  (∀ (w : Nat) (s : State) (k : Nat × Nat × Nat),
    (s.stw w).seq = none →
    firstCand (s.stwCands w) = some k →
    w < 4 ∧ (s.stw w).inService = true →
    k.1 < (s.stw w).cur ∧ (s.stw w).stack.length < 16 →
    exec (.handlerEntry w) s = .next (((s.takeSource (candSrc w k)).stackFrame w { pc := (s.stw w).pc, status := (s.stw w).status, g := stwRegs (s.stw w), prio := (s.stw w).cur, src := candSrc w k }).updStw w fun y => { y with seq := some { exiting := false, k := 0, prio := k.1, src := candSrc w k } })) ∧
  (∀ (w : Nat) (s : State) (k : Nat × Nat × Nat) (q : StwSeq),
    (s.stw w).seq = some q →
    s.takeover w q = some k →
    (w < 4 ∧ (s.stw w).inService = true ∧ (q.exiting = true → q.k ≠ 0)) →
    exec (.handlerEntry w) s = .next (s.takeOver w q k)) ∧
  (∀ (w : Nat) (s : State) (f : StwFrame) (l : List StwFrame),
    (s.stw w).stack = f :: l →
    (s.stw w).seq = none →
    exec (.eret w) s = .next ((s.ackSource f.src).updStw w fun y => { y with seq := some { exiting := true, k := 0, prio := f.prio, src := f.src } })) ∧
  (∀ (s : State) (k : Nat × Nat × Nat),
    firstCand s.pf0Cands = some k →
    exec .pf0EventMessage s = .next ((s.updRoute k.2.2 fun r => { r with pend := false, act := true }).msix 0 (s.route k.2.2).vec.toNat)) ∧
  (∀ (r : Req) (v : Word) (s : State),
    s.reachable r 0x20204 = true →
    exec (.evcHackWrite r v) s = .next (s.writeHack r v)) ∧
  (∀ (r : Req) (v : Word) (s : State),
    s.reachable r 0x20200 = true →
    exec (.evcSwsetWrite r v) s = .next (s.writeSwset v)) ∧
  (∀ (r : Req) (src : Nat) (v : Word) (s : State),
    src < 2048 ∧ s.reachable r (0x2A000 + 4 * src) = true →
    exec (.evcRouteEnable r src v) s = .next (s.writeRoute r src (v ||| 0x80000000)))

/-- Each row of the service DMA answers the state its rules give: GO, ABORT and RESUME through the control register; a burst's start in ARMED, with or without its request, and in RETRY; a burst's end where it moves its bytes, where its read or its write meets a bus error, and where the error comes from outside; the read-back's end where it succeeds and where it fails; and the ARMED time-out, which does nothing where the burst starts in the same TCLK. (R439, R440, R441, R442, R443, R444, R445, R447) -/
def Obligations.SdmaCompletes : Prop :=
  (∀ (r : Req) (c : Nat) (v : Word) (s : State),
    c < 64 ∧ s.reachable r (0x3A000 + c * 0x40 + 0x14) = true →
    exec (.sdmaGo r c v) s = .next (s.writeSdma r c 0x14 (v ||| 0x00010001))) ∧
  (∀ (r : Req) (c : Nat) (v : Word) (s : State),
    c < 64 ∧ s.reachable r (0x3A000 + c * 0x40 + 0x14) = true →
    exec (.sdmaAbort r c v) s = .next (s.writeSdma r c 0x14 (v ||| 0x00020002))) ∧
  (∀ (r : Req) (c : Nat) (v : Word) (s : State),
    c < 64 ∧ s.reachable r (0x3A000 + c * 0x40 + 0x14) = true →
    exec (.sdmaResume r c v) s = .next (s.writeSdma r c 0x14 (v ||| 0x00040004))) ∧
  (∀ (c : Nat) (request : Bool) (s : State),
    c < 64 ∧ s.pwr.ps ≠ 2 ∧ s.pwr.phase ≠ 3 ∧ (s.chan c).state = 1 →
    ((s.chan c).reqsel = 0 ∨ request = s.sdmaRequest c) →
    exec (.burstStart c request) s = .next (if s.sdmaRequest c then s.updChan c fun y => { y with state := 2, tries := 0 } else s)) ∧
  (∀ (c : Nat) (request : Bool) (s : State),
    c < 64 ∧ s.pwr.ps ≠ 2 ∧ (s.chan c).state = 3 →
    exec (.burstStart c request) s = .next (s.updChan c fun y => { y with state := 2 })) ∧
  (∀ (c : Nat) (s : State),
    c < 64 ∧ s.pwr.ps ≠ 2 ∧ (s.chan c).state = 1 ∧ (s.chan c).tmoUs ≠ 0 →
    s.elapsed (s.chan c).armedAt (1000 * (s.chan c).tmoUs.toNat) = true →
    exec (.sdmaArmedTimeout c) s = .next (if s.comes (fun i => match i with | .burstStart j r => j = c && r | _ => false) then s else (s.updChan c fun x => { x with state := 8, resid := BitVec.ofNat 32 (x.cnt.toNat - x.done) }).raise (8 + c))) ∧
  (∀ (c : Nat) (res : BusResult) (wr : Bool) (s : State),
    c < 64 ∧ (s.chan c).state = 2 →
    s.sdmaReaches (s.chan c).sspace = true →
    s.sdmaReaches (s.chan c).dspace = true →
    res = .err →
    exec (.burstComplete c res wr) s = .next (s.free.2.burstFails c ((if wr then (s.chan c).dstAt else (s.chan c).srcAt) + s.free.1.toNat % (s.chan c).burstLen) wr)) ∧
  (∀ (c : Nat) (res : BusResult) (wr : Bool) (s : State) (a : Nat),
    c < 64 ∧ (s.chan c).state = 2 →
    s.sdmaReaches (s.chan c).sspace = true →
    s.sdmaReaches (s.chan c).dspace = true →
    res = .ok →
    s.sdmaRead (s.chan c).sspace (s.chan c).srcAt (s.chan c).burstLen (s.chan c).sfix = .error a →
    exec (.burstComplete c res wr) s = .next (s.burstFails c a false)) ∧
  (∀ (c : Nat) (res : BusResult) (wr : Bool) (s : State) (bs : List Byte) (t : State) (a : Nat),
    c < 64 ∧ (s.chan c).state = 2 →
    s.sdmaReaches (s.chan c).sspace = true →
    s.sdmaReaches (s.chan c).dspace = true →
    res = .ok →
    s.sdmaRead (s.chan c).sspace (s.chan c).srcAt (s.chan c).burstLen (s.chan c).sfix = .ok bs →
    s.sdmaWrite (s.chan c).dspace (s.chan c).dstAt (s.chan c).dfix bs = (t, some a) →
    exec (.burstComplete c res wr) s = .next (t.burstFails c a true)) ∧
  (∀ (c : Nat) (res : BusResult) (wr : Bool) (s : State) (bs : List Byte) (t : State),
    c < 64 ∧ (s.chan c).state = 2 →
    s.sdmaReaches (s.chan c).sspace = true →
    s.sdmaReaches (s.chan c).dspace = true →
    res = .ok →
    s.sdmaRead (s.chan c).sspace (s.chan c).srcAt (s.chan c).burstLen (s.chan c).sfix = .ok bs →
    s.sdmaWrite (s.chan c).dspace (s.chan c).dstAt (s.chan c).dfix bs = (t, none) →
    exec (.burstComplete c res wr) s = .next (t.burstDone c (s.chan c).burstLen)) ∧
  (∀ (c : Nat) (res : BusResult) (s : State) (bs : List Byte),
    c < 64 ∧ (s.chan c).state = 4 ∧ s.sdmaReaches (s.chan c).dspace = true →
    res = .ok →
    s.sdmaRead (s.chan c).dspace (s.chan c).lastWord 4 (s.chan c).dfix = .ok bs →
    exec (.readbackComplete c res) s = .next (if (s.chan c).aborting then s.sdmaAborted c else if (s.chan c).ien then (s.updChan c fun y => { y with state := 5, inReadback := false }).raise (8 + c) else s.updChan c fun y => { y with state := 5, inReadback := false })) ∧
  (∀ (c : Nat) (res : BusResult) (s : State),
    c < 64 ∧ (s.chan c).state = 4 ∧ s.sdmaReaches (s.chan c).dspace = true →
    (res = .err ∨ (s.sdmaRead (s.chan c).dspace (s.chan c).lastWord 4 (s.chan c).dfix).toOption = none) →
    exec (.readbackComplete c res) s = .next (if (s.chan c).rbTries < (s.chan c).retry.toNat then s.updChan c fun y => { y with rbTries := y.rbTries + 1 } else (s.updChan c fun y => { y with state := 7, errAddr := BitVec.ofNat 64 (s.chan c).lastWord, dirWrite := false, inReadback := true }).raise (8 + c)))

/-- Each row of VIGIL answers the state its rules give: a tile's fault, a missed heartbeat, the placing of a spare, a mapping write and the end of its swap, the three service actions and their end, the acknowledge and consume writes, a checker's self-test and a fault that requires a reset. (R45, R470, R472, R473, R474, R477, R478, R481, R482, R484, R485) -/
def Obligations.VigilCompletes : Prop :=
  (∀ (phys : Nat) (check : Byte) (s : State),
    (phys < s.tilesPhys ∧ (check = 1 ∨ check = 3 ∨ check = 4 ∨ check = 5 ∨ check = 6)) →
    exec (.tileFault phys check) s = .next (s.tileFaultAt phys check.toNat)) ∧
  (∀ (stw : Bool) (n : Nat) (s : State),
    stw = false ∧ n < s.tilesPhys →
    exec (.heartbeatMiss stw n) s = .next (s.tileFaultAt n 7)) ∧
  (∀ (stw : Bool) (n : Nat) (s : State),
    stw = true ∧ n < 4 ∧ (s.stw n).inService = true ∧ s.stewards ≠ [n] →
    exec (.heartbeatMiss stw n) s = .next ((s.record 1 ownerCtx 0xF1 8 n 4 0 false 0).moveSteward n)) ∧
  (∀ (stw : Bool) (n : Nat) (s : State),
    stw = true ∧ n < 4 ∧ (s.stw n).inService = true ∧ s.stewards = [n] →
    exec (.heartbeatMiss stw n) s = .next ((s.record 1 ownerCtx 0xF1 8 n 0x20 0 false 0).resetRequired)) ∧
  (∀ (l : Nat) (s : State) (p : Nat) (k : List (Nat × Nat)),
    s.vigil.sparing = (l, p) :: k →
    exec (.sparePlaced l) s = .next (let s1 := ((s.clearTile p).setPhys l p).setSpare p false; { s1 with vigil := { s1.vigil with sparing := k, eqxLeft := put 0 s1.vigil.eqxLeft p 64 } })) ∧
  (∀ (r : Req) (i : Nat) (v : Word) (s : State),
    i < 4 ∧ s.reachable r (0x50 + 4 * i) = true ∧ s.holds r = true →
    exec (.glbTileMapWrite r i v) s = .next ((s.setLock {}).writeTileMap r i v)) ∧
  (∀ (s : State) (l p : Nat) (out : Bool),
    s.vigil.swap = some (l, p, out) →
    p ≠ 0x1F →
    (s.flightsOn (s.physOf l)).isEmpty = true →
    exec .swapComplete s = .next (let s3 := ((((s.setPhys l p).setSpare p false).updTile (s.physOf l) fun x => { x with drain := false }).returnBorrowed l).setSpare (s.physOf l) (!out); { s3 with vigil := { s3.vigil with swap := none, eqxLeft := put 0 s3.vigil.eqxLeft (s.physOf l) 0 } })) ∧
  (∀ (s : State) (l : Nat) (out : Bool),
    s.vigil.swap = some (l, 0x1F, out) →
    (s.flightsOn (s.physOf l)).isEmpty = true →
    exec .swapComplete s = .next (let s3 := (((s.setPhys l 0x1F).updTile (s.physOf l) fun x => { x with drain := false }).returnBorrowed l).setSpare (s.physOf l) (!out); { s3 with vigil := { s3.vigil with swap := none, eqxLeft := put 0 s3.vigil.eqxLeft (s.physOf l) 0 } })) ∧
  (∀ (r : Req) (v : Word) (s : State),
    s.reachable r 0x40100 = true ∧ s.holds r = true →
    exec (.vigilSvcOut r v) s = .next ((s.setLock {}).writeSvc (v &&& ~~~0x000C0000))) ∧
  (∀ (r : Req) (v : Word) (s : State),
    s.reachable r 0x40100 = true ∧ s.holds r = true →
    exec (.vigilSvcTest r v) s = .next ((s.setLock {}).writeSvc ((v &&& ~~~0x000C0000) ||| 0x00040000))) ∧
  (∀ (r : Req) (v : Word) (s : State),
    s.reachable r 0x40100 = true ∧ s.holds r = true →
    exec (.vigilSvcIn r v) s = .next ((s.setLock {}).writeSvc ((v &&& ~~~0x000C0000) ||| 0x00080000))) ∧
  (∀ (pass : Bool) (ms : BitVec 16) (s : State),
    s.vigil.svcBusy = true ∧ s.svcReady = true →
    bits s.vigil.svcCtl.toNat 19 18 = 1 ∧ pass = true →
    exec (.serviceActionComplete pass ms) s = .next ({ s with vigil := { s.vigil with svcMs := ms } }.svcEnd 1 0)) ∧
  (∀ (pass : Bool) (ms : BitVec 16) (s : State),
    s.vigil.svcBusy = true ∧ s.svcReady = true →
    bits s.vigil.svcCtl.toNat 19 18 = 0 ∧ bits s.vigil.svcCtl.toNat 23 20 ≠ 1 →
    exec (.serviceActionComplete pass ms) s = .next ((({ s with vigil := { s.vigil with svcMs := ms } }).record 3 ownerCtx (svcBlock (bits s.vigil.svcCtl.toNat 23 20) s.vigil.svcUnit) 0x10 s.vigil.svcUnit 4 0 false 0).svcEnd 1 0)) ∧
  (∀ (r : Req) (v : Word) (s : State),
    s.reachable r 0x40018 = true →
    exec (.vigilLogCWrite r v) s = .next (s.writeLogC r v)) ∧
  (∀ (r : Req) (v : Word) (s : State),
    s.reachable r 0x4001C = true →
    exec (.vigilUackWrite r v) s = .next (s.writeUack r v)) ∧
  (∀ (blk : Byte) (n : Nat) (pass : Bool) (s : State),
    s.vigil.svcBusy = false ∧ s.vigil.swap.isSome = false ∧ s.vigil.sparing.isEmpty = true →
    pass = true →
    exec (.checkerSelfTest blk n pass) s = .next (s)) ∧
  (∀ (blk : Byte) (n : Nat) (pass : Bool) (s : State) (t : State),
    s.vigil.svcBusy = false ∧ s.vigil.swap.isSome = false ∧ s.vigil.sparing.isEmpty = true →
    pass = false ∧ s.checkerOut blk.toNat n = some (t, true) →
    exec (.checkerSelfTest blk n pass) s = .next (t.record 2 ownerCtx blk.toNat 0x0E n 4 0 false 0)) ∧
  (∀ (blk : Byte) (n : Nat) (pass : Bool) (s : State),
    s.vigil.svcBusy = false ∧ s.vigil.swap.isSome = false ∧ s.vigil.sparing.isEmpty = true →
    pass = false ∧ s.checkerOut blk.toNat n = none →
    exec (.checkerSelfTest blk n pass) s = .next (s.record 2 ownerCtx blk.toNat 0x0E n 0 0 false 0)) ∧
  (∀ (blk check : Byte) (s : State),
    (blk = 0x01 ∨ blk = 0x34 ∨ blk = 0xF0 ∨ blk = 0x05) →
    ∃ t, exec (.resetRequiredFault blk check) s = .next t ∧ t.vigil.resetReq = true)

/-- Each row of TRUST answers the state its rules give: key load, activation and commit by the holder of the open lock, the mailbox's command, data writes and data reads by either side, the side band's time-out, and each mailbox command that is BUSY with a request of the right length, which leaves its response. (R45, R497, R498, R501, R502, R503, R504, R494, R496) -/
def Obligations.TrustCompletes : Prop :=
  (∀ (r : Req) (s : State),
    s.reachable r 0x50038 = true ∧ s.holds r = true →
    exec (.trustKeyloadGo r) s = .next ((s.setLock {}).writeKeyload 0x80000000)) ∧
  (∀ (r : Req) (s : State),
    s.reachable r 0x50020 = true ∧ s.holds r = true →
    exec (.trustFwActGo r) s = .next ((s.setLock {}).writeFwAct 0x80000000)) ∧
  (∀ (r : Req) (s : State),
    s.reachable r 0x50020 = true ∧ s.holds r = true →
    exec (.trustFwActCommit r) s = .next ((s.setLock {}).writeFwAct 0x40000000)) ∧
  (∀ (side : Bool) (r : Req) (v : Word) (s : State),
    (if side then 2 ≤ s.glb.start else s.reachable r 0x50100 = true) →
    exec (.mbxCmdWrite side r v) s = .next (if side then (s.writeMbxCmd side r v).setTrust fun x => { x with mbxAt := s.clk.alm } else s.writeMbxCmd side r v)) ∧
  (∀ (side : Bool) (r : Req) (v : Word) (s : State),
    (if side then 2 ≤ s.glb.start else s.reachable r 0x50108 = true) →
    exec (.mbxDataWrite side r v) s = .next (if side then (s.writeMbxData side r v).setTrust fun x => { x with mbxAt := s.clk.alm } else s.writeMbxData side r v)) ∧
  (∀ (side : Bool) (r : Req) (s : State),
    (if side then 2 ≤ s.glb.start else s.reachable r 0x50108 = true ∧ s.holder r = none) →
    exec (.mbxDataRead side r) s = .next (if side then ((s.readMbxData side r).2.emit (.readData r (s.readMbxData side r).1)).setTrust fun x => { x with mbxAt := s.clk.alm } else (s.readMbxData side r).2.emit (.readData r (s.readMbxData side r).1))) ∧
  (∀ (s : State),
    s.trust.mbx ≠ 0 ∧ s.trust.mbxSide = true →
    s.elapsed s.trust.mbxAt 1000000000 = true →
    exec .mailboxSidebandTimeout s = .next (if s.comes mbxSideWord then s else s.setTrust Trust.mbxAbort)) ∧
  (∀ (s : State),
    s.trust.mbx = 2 ∧ s.trust.mbxCmd = 1 ∧ s.trust.mbxLen = 0 →
    exec .getInfo s = .next (s.setTrust fun t => t.reply 0 ((List.range 64).map (Config.infoByte s.trust.bootWord (s.trust.versionOf false, s.trust.svnOf false) (s.trust.versionOf true, s.trust.svnOf true) (BitVec.ofNat 128 (leNat deviceId)))))) ∧
  (∀ (s : State) (q : List Byte),
    s.trust.mbx = 2 ∧ s.trust.mbxCmd = 2 ∧ s.trust.mbxLen = 12 →
    q = sub (wordsToBytes s.trust.mbxIn) 0 12 →
    fieldLE q 0 1 ≤ 1 ∧ fieldLE q 1 3 = 0 ∧ fieldLE q 8 4 ≤ 65536 →
    exec .getCert s = .next (if (Config.certChain (fieldLE q 0 1 = 1)).length < fieldLE q 4 4 + fieldLE q 8 4 then s.setTrust fun t => t.reply 3 [] else s.setTrust fun t => t.reply 0 (sub (Config.certChain (fieldLE q 0 1 = 1)) (fieldLE q 4 4) (fieldLE q 8 4)))) ∧
  (∀ (s : State) (q : List Byte),
    s.trust.mbx = 2 ∧ s.trust.mbxCmd = 3 ∧ s.trust.mbxLen = 32 →
    q = sub (wordsToBytes s.trust.mbxIn) 0 32 →
    exec .attReport s = .next ({ s with freeCtr := s.freeCtr + 1 }.setTrust fun t => t.reply 0 (s.reportBody q ++ signature s.freeCtr "DZAR" (shake256 64 (s.reportBody q))))) ∧
  (∀ (flashOk : Bool) (s : State) (q : List Byte),
    s.trust.mbx = 2 ∧ s.trust.mbxCmd = 4 ∧ 9 ≤ s.trust.mbxLen.toNat ∧ s.trust.mbxLen.toNat ≤ 65544 →
    q = sub (wordsToBytes s.trust.mbxIn) 0 s.trust.mbxLen.toNat →
    fieldLE q 0 4 % 65536 = 0 ∧ fieldLE q 0 4 + 65536 ≤ slotBytes ∧ fieldLE q 4 4 = 0 →
    flashOk = true →
    exec (.fwStage flashOk) s = .next ((s.setTrust fun t => { t with flash := memWrite t.flash (slotBase t.stagingSlot + fieldLE q 0 4) (q.drop 8 ++ List.replicate (65536 - (q.length - 8)) 0xFF), verified := false }).setTrust fun t => t.reply 0 [])) ∧
  (∀ (s : State),
    s.trust.mbx = 2 ∧ s.trust.mbxCmd = 5 ∧ s.trust.mbxLen = 0 →
    ∃ t, exec .fwVerify s = .next t ∧ t.trust.verified = decide (s.trust.imageCode s.trust.stagingSlot = 0) ∧ t.trust.mbx = 3)

/-- While TRUST runs (BOOT.STATE 2), every SPDM request leaves one response: the state after is the responder's, with the response sent; in any other boot state nothing is answered and nothing changes. (R500) -/
def Obligations.SpdmCompletes : Prop :=
  (∀ (s : State),
    s.trust.boot = 2 →
    exec .getVersion s = .next (s.spdmTurn .version)) ∧
  (∀ (ctExp xferSize maxMsg : Nat) (s : State),
    s.trust.boot = 2 →
    exec (.getCapabilities ctExp xferSize maxMsg) s = .next (s.spdmTurn (.capabilities xferSize maxMsg))) ∧
  (∀ (ext hash meas : Bool) (s : State),
    s.trust.boot = 2 →
    exec (.negotiateAlgorithms ext hash meas) s = .next (s.spdmTurn (.algorithms ext hash meas))) ∧
  (∀ (s : State),
    s.trust.boot = 2 →
    exec .getDigests s = .next (s.spdmTurn .digests)) ∧
  (∀ (slot ofs len : Nat) (s : State),
    s.trust.boot = 2 →
    exec (.getCertificate slot ofs len) s = .next (s.spdmTurn (.certificate slot ofs len))) ∧
  (∀ (slot summary : Nat) (nonce : BitVec 256) (s : State),
    s.trust.boot = 2 →
    exec (.challenge slot summary nonce) s = .next (s.spdmTurn (.challenge slot summary nonce))) ∧
  (∀ (slot index : Nat) (sign : Bool) (nonce : BitVec 256) (s : State),
    s.trust.boot = 2 →
    exec (.getMeasurements slot index sign nonce) s = .next (s.spdmTurn (.measurements slot index sign nonce))) ∧
  (∀ (handle seq : Nat) (last : Bool) (data : List Byte) (s : State) (bs : List Byte),
    s.trust.boot = 2 ∧ 2 ≤ s.trust.spdm.phase →
    s.trust.spdm.chunk handle seq data = some bs →
    last = false →
    exec (.chunkSend handle seq last data) s = .next ((s.updSpdm fun y => { y with chunkIn := some (handle, seq + 1, bs) }).emit (.spdm 0x05 (natLE 1 0 ++ (natLE 1 handle ++ natLE 2 seq))))) ∧
  (∀ (handle seq : Nat) (s : State) (n : Nat) (bs : List Byte),
    s.trust.boot = 2 →
    s.trust.spdm.chunkOut = some (handle, seq, bs) →
    n = s.trust.spdm.xfer - 12 - (if seq = 0 then 4 else 0) →
    exec (.chunkGet handle seq) s = .next ((s.updSpdm fun y => { y with chunkOut := if (bs.drop n).isEmpty then none else some (handle, seq + 1, bs.drop n) }).emit (.spdm 0x06 (natLE 1 (b2n (bs.drop n).isEmpty) ++ natLE 1 handle ++ natLE 2 seq ++ natLE 2 0 ++ natLE 4 (bs.take n).length ++ (if seq = 0 then natLE 4 bs.length else []) ++ bs.take n)))) ∧
  (∀ (s : State),
    s.trust.boot ≠ 2 →
    exec .getVersion s = .next (s))

/-- Power-on reset runs the start-up sequence from the powered-off state with the PLL locked, DEVID sampled and the time source taken from it; a device reset by the holder of the open lock and the host-port resets are performed; TEST_RESET changes nothing; the function-level rows of VF Enable, PERST_N, VF reset, power state and Bus Master Enable answer as their rules say. (R45, R506, R508, R509, R510, R511, R343, R341, R342) -/
def Obligations.ResetCompletes : Prop :=
  (∀ (env : BootEnv) (s : State),
    (env.failStack = none ∨ ∃ n, env.failStack = some n ∧ n < s.stacks) →
    exec (.powerOnReset env) s = .next (execPowerOnReset.go env s)) ∧
  (∀ (r : Req) (env : BootEnv) (s : State),
    (env.failStack = none ∨ ∃ n, env.failStack = some n ∧ n < s.stacks) →
    s.reachable r 0x60010 = true ∧ s.holds r = true →
    exec (.deviceReset r env) s = .next ((s.setLock {}).writeReset 0x80000000 env)) ∧
  (∀ (s : State),
    exec .testReset s = .next (s)) ∧
  (∀ (cause : HostResetCause) (s : State),
    cause = .perst →
    ∃ t, exec (.hostPortReset cause) s = .next t ∧ t.hif.portUp = false ∧ t.glb.rstCause = s.portReset.glb.rstCause ||| 4) ∧
  (∀ (cause : HostResetCause) (s : State),
    cause = .pf0Flr ∧ s.hif.portUp = true →
    exec (.hostPortReset cause) s = .next ({ s.portReset with glb := { s.portReset.glb with rstCause := s.portReset.glb.rstCause ||| 8 } })) ∧
  (∀ (cause : HostResetCause) (s : State),
    cause = .vfEnableCleared ∧ s.hif.portUp = true ∧ s.hif.vfEnable = true →
    exec (.hostPortReset cause) s = .next ({ s.portReset with glb := { s.portReset.glb with rstCause := s.portReset.glb.rstCause ||| 8 } })) ∧
  (∀ (s : State),
    s.hif.portUp = false ∧ s.glb.start ≠ 0 →
    exec .perstRelease s = .next ({ s with hif := { s.hif with portUp := true } })) ∧
  (∀ (numVfs : Nat) (s : State),
    1 ≤ numVfs ∧ numVfs ≤ 4096 ∧ s.hif.portUp = true ∧ s.hif.vfEnable = false →
    s.glb.start = 5 →
    exec (.vfEnableSet numVfs) s = .next ({ s with hif := { s.hif with numVfs := numVfs, vfEnable := true, granted := grants s.hif.vfCount numVfs numVfs 1 0 } })) ∧
  (∀ (n : Nat) (s : State),
    s.vfExists n = true →
    exec (.vfFunctionLevelReset n) s = .next ((s.updFunc n fun _ => {}).resetIfOn (n - 1))) ∧
  (∀ (fn : Nat) (s : State),
    s.fnExists fn = true ∧ (s.func fn).d3hot = false →
    exec (.functionD3hotEntry fn) s = .next (s.free.2.updFunc fn fun f => { f with d3hot := true, pmeEn := s.free.1.getLsbD 0 })) ∧
  (∀ (fn : Nat) (s : State),
    s.fnExists fn = true ∧ (s.func fn).d3hot = true →
    exec (.functionD0Return fn) s = .next (let s1 := s.updFunc fn fun f => { f with d3hot := false }; ((s1.fnQueues fn).foldl (fun (x : State) q => x.updQueue q fun y => { y with pmeSent := false }) s1).fnResume fn)) ∧
  (∀ (fn : Nat) (s : State),
    s.fnExists fn = true ∧ (s.func fn).bme = true →
    exec (.busMasterEnableClear fn) s = .next (s.updFunc fn fun f => { f with bme := false })) ∧
  (∀ (fn : Nat) (s : State),
    s.fnExists fn = true ∧ (s.func fn).bme = false →
    exec (.busMasterEnableSet fn) s = .next ((s.updFunc fn fun f => { f with bme := true }).fnResume fn))

/-- Each row of the host queues answers the state its rules give: the enables and disables of a queue record, a doorbell, a push of whole aligned words and a consumer write that reach a queue, the fetch of an entry of one or more slots where the CQ has no place, of a slot that cannot be read, of padding, of an entry with a good header and of one with a bad one, a fetch error, the moderation timer, a vector's unmasking, the start timeout and a host read's timeout. (R346, R348, R352, R353, R354, R355, R357, R361, R364, R370, R371) -/
def Obligations.QueueCompletes : Prop :=
  (∀ (r : Req) (q : Nat) (v : Word) (s : State),
    q < 65536 ∧ s.reachable r (0x800000 + q * 0x40) = true →
    exec (.sqEnable r q v) s = .next (s.writeQ r q 0 (v ||| 0x80000000))) ∧
  (∀ (r : Req) (q : Nat) (v : Word) (s : State),
    q < 65536 ∧ s.reachable r (0x800000 + q * 0x40) = true →
    exec (.cqEnable r q v) s = .next (s.writeQ r q 0 (v ||| 0x40000000))) ∧
  (∀ (r : Req) (q : Nat) (v : Word) (s : State),
    q < 65536 ∧ s.reachable r (0x800000 + q * 0x40) = true →
    exec (.sqDisable r q v) s = .next (s.writeQ r q 0 (v &&& 0x7FFFFFFF))) ∧
  (∀ (r : Req) (q : Nat) (v : Word) (s : State),
    q < 65536 ∧ s.reachable r (0x800000 + q * 0x40) = true →
    exec (.cqDisable r q v) s = .next (s.writeQ r q 0 (v &&& 0xBFFFFFFF))) ∧
  (∀ (r : Req) (win : Nat) (n : Word) (s : State) (q : Nat),
    s.reachesBar2 r win = true →
    s.windowQueue r win = some q →
    exec (.producerDoorbell r win n) s = .next (s.inOrder r .bar2 [(win * 0x1000, n)] (s.doorbell q n))) ∧
  (∀ (r : Req) (win off : Nat) (ws : List Word) (s : State) (q : Nat),
    s.reachesBar2 r win = true ∧ off < 256 ∧ off % 4 = 0 ∧ off + 4 * ws.length ≤ 256 ∧ ws ≠ [] →
    s.windowQueue r win = some q →
    exec (.pushWrite r win off ws) s = .next (s.inOrder r .bar2 (ws.zipIdx.map fun e => (win * 0x1000 + 0x100 + off + 4 * e.2, e.1)) (s.pushBytes q off ws))) ∧
  (∀ (r : Req) (win : Nat) (n : Word) (s : State) (q : Nat),
    s.reachesBar2 r win = true →
    s.windowQueue r win = some q →
    exec (.completionConsumerWrite r win n) s = .next (s.inOrder r .bar2 [(win * 0x1000 + 4, n)] (s.consume q n))) ∧
  (∀ (q : Nat) (s : State),
    q < 65536 ∧ s.hasEntry q = true ∧ s.hasTurn q = true →
    s.placeOn (s.queue q).cqq.toNat = none →
    exec (.entryFetch q) s = .next ((s.sqsOf (s.queue q).cqq.toNat).foldl (fun y i => y.updQueue i fun z => { z with fstop := true }) s)) ∧
  (∀ (q : Nat) (s : State) (pl : Place) (u : State),
    q < 65536 ∧ s.hasEntry q = true ∧ s.hasTurn q = true →
    s.placeOn (s.queue q).cqq.toNat = some pl →
    (u = (s.takeTurn q).updQueue q fun z => { z with fstop := false }) →
    u.slotFails q (u.queue q).sqc = true →
    exec (.entryFetch q) s = .next (u.fetchError q)) ∧
  (∀ (q : Nat) (s : State) (pl : Place) (u : State),
    q < 65536 ∧ s.hasEntry q = true ∧ s.hasTurn q = true →
    s.placeOn (s.queue q).cqq.toNat = some pl →
    (u = (s.takeTurn q).updQueue q fun z => { z with fstop := false }) →
    u.slotFails q (u.queue q).sqc = false →
    fieldLE (u.slots q (u.queue q).sqc (u.entrySlots q)) 0 1 = 0 →
    exec (.entryFetch q) s = .next (u.consumeSlots q (u.entrySlots q))) ∧
  (∀ (q : Nat) (s : State) (pl : Place) (u : State) (bs : List Byte),
    q < 65536 ∧ s.hasEntry q = true ∧ s.hasTurn q = true →
    s.placeOn (s.queue q).cqq.toNat = some pl →
    (u = (s.takeTurn q).updQueue q fun z => { z with fstop := false }) →
    u.slotFails q (u.queue q).sqc = false →
    bs = u.slots q (u.queue q).sqc (u.entrySlots q) →
    fieldLE bs 0 1 ≠ 0 →
    ((List.range (u.entrySlots q)).any (fun i => u.slotFails q ((u.queue q).sqc + BitVec.ofNat 32 i)) = false) →
    headerStatus bs (u.queueFn q) (u.entrySlots q < fieldLE bs 1 1 % 32 + 1) = 0 →
    exec (.entryFetch q) s = .next ((((u.consumeSlots q (u.entrySlots q)).updQueue (u.queue q).cqq.toNat fun z => z.takePlace pl).deliver q bs pl).powerOnFetch (fieldLE bs 0 1))) ∧
  (∀ (q : Nat) (s : State) (pl : Place) (u : State) (bs : List Byte),
    q < 65536 ∧ s.hasEntry q = true ∧ s.hasTurn q = true →
    s.placeOn (s.queue q).cqq.toNat = some pl →
    (u = (s.takeTurn q).updQueue q fun z => { z with fstop := false }) →
    u.slotFails q (u.queue q).sqc = false →
    bs = u.slots q (u.queue q).sqc (u.entrySlots q) →
    fieldLE bs 0 1 ≠ 0 →
    ((List.range (u.entrySlots q)).any (fun i => u.slotFails q ((u.queue q).sqc + BitVec.ofNat 32 i)) = false) →
    headerStatus bs (u.queueFn q) (u.entrySlots q < fieldLE bs 1 1 % 32 + 1) ≠ 0 →
    exec (.entryFetch q) s = .next ((((u.consumeSlots q (u.entrySlots q)).updQueue (u.queue q).cqq.toNat fun z => z.takePlace pl).deliver q bs pl).done u.hif.nextId (headerStatus bs (u.queueFn q) (u.entrySlots q < fieldLE bs 1 1 % 32 + 1)))) ∧
  (∀ (q : Nat) (s : State),
    q < 65536 ∧ s.hasEntry q = true ∧ (s.placeOn (s.queue q).cqq.toNat).isSome = true ∧ (s.func (s.queueFn q)).ctoDisable = false →
    ((List.range (s.entrySlots q)).any (fun i => (look none (s.queue q).pushed (((s.queue q).sqc + BitVec.ofNat 32 i).toNat * 32)).isNone) = true) →
    exec (.sqFetchError q) s = .next (s.fetchError q)) ∧
  (∀ (q : Nat) (s : State),
    q < 65536 ∧ (s.queue q).modTimer = true ∧ (s.queue q).modUs ≠ 0 ∧ (s.queue q).modPend ≠ 0 →
    (s.queue q).ien = true ∧ s.elapsed (s.queue q).modAt (1000 * (s.queue q).modUs.toNat) = true →
    exec (.moderationTimeout q) s = .next (s.cqThreshold q)) ∧
  (∀ (fn vec : Nat) (s : State),
    (fn = 0 ∨ s.vfExists fn = true) →
    vec < s.vectorsOf fn ∧ look false (s.func fn).unmasked vec = false ∧ look false (s.func fn).pba vec = true →
    exec (.vectorUnmask fn vec) s = .next ((s.updFunc fn fun f => { f with unmasked := put false f.unmasked vec true, pba := put false f.pba vec false }).msix fn vec)) ∧
  (∀ (id : Nat) (s : State) (k : Cmd),
    s.cmd? id = some k →
    k.ctmo ≠ 0 ∧ s.notStarted k = true ∧ s.elapsed k.fetchedAt (1000000 * k.ctmo.toNat) = true →
    exec (.startTimeout id) s = .next (if s.comes (fun i => startsCmd i = some id) then s else (s.forget id).done id 0x0802)) ∧
  (∀ (id : Nat) (s : State) (k : Cmd) (q : Nat),
    s.cmd? id = some k →
    s.hostReadOpen k = true ∧ s.hostWaits k = false ∧ (s.func (fnOf k.ctx.toNat)).ctoDisable = false ∧ k.origin = .ring q →
    exec (.hostReadTimeout id) s = .next (if s.comes (dataArrives s k) then s else (match s.runs.find? (fun x => x.cmd = id) with | some r => s.failRun r.id 0x0801 0 | none => (s.forget id).done id 0x0801)))

/-- DEV_PSTATE into the present state completes at once with that state; into PS1 it starts the drain of the tiles from its number on; into PS2 it waits for the flush; out of a lower state it starts the wake. The flush starts, the entries complete or time out and the wake completes as R368 says. (R366, R367, R368, R369, R435, R447) -/
def Obligations.PowerStateCompletes : Prop :=
  (∀ (id : Nat) (s : State) (c : Cmd),
    s.ready id 0x80 c = true →
    c.zeros [(10, 2), (14, 2), (20, 12)] = true ∧ c.f 9 1 < 2 →
    c.f 8 1 ≤ 2 ∧ (if c.f 8 1 = 1 then c.f 12 2 ≠ 0 ∧ c.f 12 2 < s.tilesSvc else c.f 12 2 = 0) →
    s.pwr.phase = 0 ∧ c.f 8 1 = s.pwr.ps →
    exec (.devPstate id) s = .next (s.complete id 0 (BitVec.ofNat 32 (c.f 8 1)) 0)) ∧
  (∀ (id : Nat) (s : State) (c : Cmd),
    s.ready id 0x80 c = true →
    c.zeros [(10, 2), (14, 2), (20, 12)] = true ∧ c.f 9 1 < 2 →
    c.f 8 1 = 1 ∧ c.f 12 2 ≠ 0 ∧ c.f 12 2 < s.tilesSvc →
    s.pwr.phase = 0 ∧ s.pwr.ps = 0 →
    exec (.devPstate id) s = .next ({ (s.phase id .running) with pwr := { s.pwr with phase := 1, target := 1, cmd := some id, tiles := c.f 12 2 } }.onTiles (c.f 12 2) fun t => { t with noclaim := true, drain := true })) ∧
  (∀ (id : Nat) (s : State) (c : Cmd),
    s.ready id 0x80 c = true →
    c.zeros [(10, 2), (14, 2), (20, 12)] = true ∧ c.f 9 1 < 2 →
    c.f 8 1 = 2 ∧ c.f 12 2 = 0 →
    s.pwr.phase = 0 ∧ s.pwr.ps < 2 →
    exec (.devPstate id) s = .next ({ (s.phase id .running) with pwr := { s.pwr with phase := 2, target := 2, cmd := some id, wakeAny := bit (c.f 9 1) 0 } })) ∧
  (∀ (id : Nat) (s : State) (c : Cmd),
    s.ready id 0x80 c = true →
    c.zeros [(10, 2), (14, 2), (20, 12)] = true ∧ c.f 9 1 < 2 →
    c.f 8 1 = 0 ∧ c.f 12 2 = 0 →
    s.pwr.phase = 0 ∧ 0 < s.pwr.ps →
    exec (.devPstate id) s = .next ({ (s.phase id .running) with pwr := { s.pwr with phase := 4, target := 0, cmd := some id } })) ∧
  (∀ (s : State),
    (s.pwr.phase = 2 ∧ s.hif.cmds.all (fun k => some k.id = s.pwr.cmd) = true) →
    exec .flush2Start s = .next ({ s with pwr := { s.pwr with phase := 3 } })) ∧
  (∀ (s : State) (id : Nat),
    (s.pwr.phase = 1 ∧ s.pwr.cmd = some id ∧ s.hif.cmds.any (fun k => id < k.id) = false) →
    ((s.tilesFrom s.pwr.tiles).all (fun t => (s.tile t).flights.isEmpty) = true) →
    exec .pstateEntryComplete s = .next (({ s with pwr := { s.pwr with ps := 1, phase := 0 } }.onTiles s.pwr.tiles fun t => { t with gated := true }).pstateDone 0)) ∧
  (∀ (s : State),
    (s.pwr.phase = 3 ∧ s.hif.cmds.all (fun k => some k.id = s.pwr.cmd) = true) →
    (s.sdmaIdle = true ∧ s.arc.arrays.all (fun e => e.2.state = 0 || e.2.flushed) = true) →
    exec .pstateEntryComplete s = .next ((({ s with pwr := { s.pwr with ps := 2, phase := 0 }, evc := { s.evc with gated := true, latch := [] } }.leavePs1).onTiles 0 fun t => { t with gated := true }).pstateDone 0)) ∧
  (∀ (s : State),
    (s.pwr.phase = 2 ∨ s.pwr.phase = 3) →
    ((s.pwr.cmd.bind s.cmd?).any (fun c => s.elapsed c.fetchedAt (1000000 * c.tmoMs)) = true) →
    exec .pstateEntryTimeout s = .next (if s.comes (· = .pstateEntryComplete) then s else { s with pwr := { s.pwr with phase := 0, target := s.pwr.ps } }.pstateDone 0x0803)) ∧
  (∀ (s : State),
    s.pwr.phase = 1 →
    ((s.pwr.cmd.bind s.cmd?).any (fun c => s.elapsed c.fetchedAt (1000000 * c.tmoMs)) = true) →
    exec .pstateEntryTimeout s = .next (if s.comes (· = .pstateEntryComplete) then s else ({ s with pwr := { s.pwr with phase := 0, target := s.pwr.ps } }.leavePs1).pstateDone 0x0803)) ∧
  (∀ (s : State),
    s.pwr.phase = 4 ∧ s.ungated = true ∧ s.pwr.target ≠ 1 ∧ s.evc.gated = false →
    exec .wakeComplete s = .next ((({ s with pwr := { s.pwr with ps := s.pwr.target, phase := 0 } }.onTiles 0 fun t => { t with gated := false }).leavePs1).pstateDone 0)) ∧
  (∀ (s : State),
    s.pwr.phase = 4 ∧ s.ungated = true ∧ s.pwr.target ≠ 1 ∧ s.evc.gated = true →
    exec .wakeComplete s = .next (((({ s with pwr := { s.pwr with ps := s.pwr.target, phase := 0 } }.onTiles 0 fun t => { t with gated := false }).leavePs1).evcRestore).pstateDone 0))

/-- Each row of the partitions answers the state its rules give where the partition's state admits it and the fields are in range: enable and disable, HBM pages and copies, fixed slots, reset, release, freeze, save, restore up to its check, the reports that end them, and the partition page's event enables. (R18, R394, R397, R400, R404, R406, R407, R408, R409, R410, R413, R421) -/
def Obligations.PartitionCompletes : Prop :=
  (∀ (r : Req) (p : Nat) (v : Word) (s : State),
    p < 4096 ∧ s.reachable r (0x400000 + p * 0x100) = true →
    exec (.partitionEnable r p v) s = .next (s.writePart r p 0 (v ||| 0x80000000))) ∧
  (∀ (r : Req) (p : Nat) (v : Word) (s : State),
    p < 4096 ∧ s.reachable r (0x400000 + p * 0x100) = true →
    exec (.partitionDisable r p v) s = .next (s.writePart r p 0 (v &&& 0x7FFFFFFF))) ∧
  (∀ (id : Nat) (s : State) (c : Cmd) (a : Nat),
    s.ready id 0x60 c = true →
    c.zeros [(8, 4), (16, 16)] = true ∧ c.f 12 4 ≠ 0 ∧ c.f 12 4 ≤ 98304 →
    c.ctx.toNat < 4096 ∧ s.pagesUsed c.ctx.toNat + c.f 12 4 ≤ (tri (s.part c.ctx.toNat).pageMax).toNat →
    freeRange (s.pageList c.ctx.toNat) (c.f 12 4) = some a →
    exec (.hbmAlloc id) s = .next (((List.range (c.f 12 4)).foldl (fun (x : State) i => x.mapPage c.ctx.toNat (a + i)) s).complete id 0 (BitVec.ofNat 32 a) 0)) ∧
  (∀ (id : Nat) (s : State) (c : Cmd),
    s.ready id 0x61 c = true →
    c.zeros [(8, 4), (20, 12)] = true ∧ c.f 16 4 ≠ 0 ∧ c.f 16 4 ≤ 98304 ∧ c.f 12 4 + c.f 16 4 ≤ pagesPerCtx →
    ((List.range (c.f 16 4)).all (fun i => s.mapped c.ctx.toNat (c.f 12 4 + i)) = true) →
    ((List.range (c.f 16 4)).any (fun i => s.pageNamed c.ctx.toNat (c.f 12 4 + i)) = false) →
    exec (.hbmFree id) s = .next (((List.range (c.f 16 4)).foldl (fun (x : State) i => x.unmapPage c.ctx.toNat (c.f 12 4 + i)) s).done id 0)) ∧
  (∀ (id : Nat) (s : State) (c : Cmd),
    s.ready id 0x40 c = true →
    s.hostFree c = true →
    c.zeros [(34, 30)] = true ∧ c.f 32 1 = 0 ∧ c.f 33 1 = 0 ∧ c.f 24 8 ≠ 0 ∧ c.f 24 8 ≤ 2 ^ 36 →
    s.hostFails c.fn (c.f 8 8) (c.f 24 8) = false →
    exec (.memCopy id) s = .next ((s.hostWrite c.fn (c.f 16 8) (s.hostRead c.fn (c.f 8 8) (c.f 24 8))).complete id 0 (BitVec.ofNat 32 (c.f 24 8)) (BitVec.ofNat 32 (c.f 24 8 / 2 ^ 32)))) ∧
  (∀ (id : Nat) (s : State) (c : Cmd),
    s.ready id 0x40 c = true →
    c.zeros [(34, 30)] = true ∧ c.f 32 1 = 2 ∧ c.f 33 1 = 2 ∧ c.f 24 8 ≠ 0 ∧ c.f 24 8 ≤ 2 ^ 36 →
    s.hbmOk c.ctx.toNat (c.f 8 8) (c.f 24 8) = true ∧ s.hbmOk c.ctx.toNat (c.f 16 8) (c.f 24 8) = true →
    (c.f 16 8 + c.f 24 8 ≤ c.f 8 8 ∨ c.f 8 8 + c.f 24 8 ≤ c.f 16 8) →
    exec (.memCopy id) s = .next ((s.hbmWrite c.ctx.toNat (c.f 16 8) (s.hbmRead c.ctx.toNat (c.f 8 8) (c.f 24 8))).complete id 0 (BitVec.ofNat 32 (c.f 24 8)) (BitVec.ofNat 32 (c.f 24 8 / 2 ^ 32)))) ∧
  (∀ (p : Nat) (s : State),
    p < 4096 ∧ (s.part p).state = 1 ∧ s.slotNow p = true ∧ (s.part p).inSlot = false →
    exec (.fixedSlotStart p) s = .next ((List.range 18).foldl (fun (y : State) t => y.dropFlights t (fun f => f.ctx.toNat ≠ p && ((List.range 16).any (fun l => (s.part p).tiles.getLsbD l && s.physOf l = t) || f.partner.any fun m => (List.range 16).any fun l => (s.part p).tiles.getLsbD l && s.physOf l = m)) fun f z => z.abandonFree f) (s.setPart p { s.part p with inSlot := true }))) ∧
  (∀ (p : Nat) (s : State),
    p < 4096 ∧ (s.part p).inSlot = true ∧ s.slotNow p = false →
    exec (.fixedSlotEnd p) s = .next (s.updPart p fun x => { x with inSlot := false })) ∧
  (∀ (id : Nat) (s : State) (c : Cmd),
    s.ready id 0xA8 c = true →
    c.zeros [(10, 22)] = true ∧ c.f 8 2 < 4096 ∧ 1 ≤ (s.part (c.f 8 2)).state ∧ (s.part (c.f 8 2)).state ≤ 3 →
    exec (.partReset id) s = .next ((s.phase id .running).startReset (c.f 8 2) false (some id))) ∧
  (∀ (id : Nat) (s : State) (c : Cmd),
    s.ready id 0xAD c = true →
    c.zeros [(10, 22)] = true ∧ c.f 8 2 < 4096 ∧ (s.part (c.f 8 2)).state = 3 →
    exec (.partRelease id) s = .next ((s.phase id .running).startReset (c.f 8 2) true (some id))) ∧
  (∀ (id : Nat) (s : State) (c : Cmd),
    s.ready id 0xA9 c = true →
    c.zeros [(10, 22)] = true ∧ c.f 8 2 < 4096 ∧ (s.part (c.f 8 2)).state = 1 →
    exec (.partFreeze id) s = .next (((s.phase id .running).updPart (c.f 8 2) fun x => { x with state := 2, waiter := some id, freezeAt := c.fetchedAt }).pauseRuns (c.f 8 2))) ∧
  (∀ (p : Nat) (s : State) (id : Nat),
    p < 4096 ∧ (s.part p).state = 2 ∧ s.drained p = true →
    (s.part p).waiter = some id →
    exec (.freezeComplete p) s = .next ((s.setPart p { s.part p with state := 3, waiter := none, almFrozen := s.clk.alm }).complete id 0 (BitVec.ofNat 32 ((s.alm - (s.part p).freezeAt.toNat) / 1000)) 0)) ∧
  (∀ (p : Nat) (s : State) (id : Nat),
    (p < 4096 ∧ (s.part p).state = 4 ∧ (s.part p).genWait.isNone = true ∧ (s.banksOf p).all (fun b => !(s.bank b).clearing) = true) →
    (s.part p).toOff = false →
    (s.part p).waiter = some id →
    exec (.partitionResetComplete p) s = .next (((s.setPart p { s.part p with state := 1, waiter := none }).pvEvent p 1).done id 0)) ∧
  (∀ (p : Nat) (s : State),
    p < 4096 ∧ (s.part p).genWait = some 0 →
    exec (.generationIncrementReport p) s = .next ((s.setPart p { s.part p with genWait := none }).genReported p)) ∧
  (∀ (id : Nat) (s : State) (c : Cmd),
    s.ready id 0xAA c = true →
    s.hostFree c = true →
    c.zeros [(10, 6)] = true ∧ c.f 8 2 < 4096 ∧ c.f 16 8 % 4096 = 0 ∧ (s.part (c.f 8 2)).state = 3 →
    (s.saveContent (c.f 8 2) []).length ≤ c.f 24 8 →
    ∃ t : State, exec (.partSave id) s = .next (t.complete id 0 (BitVec.ofNat 32 (s.saveContent (c.f 8 2) []).length) (BitVec.ofNat 32 ((s.saveContent (c.f 8 2) []).length / 2 ^ 32))) ∧ t.hostMem = memWrite (s.checkTables (c.f 8 2)).hostMem (hostKey c.fn (c.f 16 8)) ((s.checkTables (c.f 8 2)).saveBytes (c.f 8 2) (s.saveContent (c.f 8 2) [])) ∧ t.parts = (s.checkTables (c.f 8 2)).parts) ∧
  (∀ (id : Nat) (s : State) (c : Cmd),
    s.ready id 0xAB c = true →
    s.hostFree c = true →
    c.zeros [(10, 6)] = true ∧ c.f 8 2 < 4096 ∧ c.f 16 8 % 4096 = 0 ∧ (s.part (c.f 8 2)).state = 0 ∧ tri (s.part (c.f 8 2)).en = false →
    s.hostFails c.fn (c.f 16 8) (c.f 24 8) = false ∧ 0x1000 ≤ c.f 24 8 →
    fieldLE (s.hostRead c.fn (c.f 16 8) 0x40) 0 4 = 0x49535A44 ∧ fieldLE (s.hostRead c.fn (c.f 16 8) 0x40) 4 2 = 1 ∧ fieldLE (s.hostRead c.fn (c.f 16 8) 0x40) 6 2 ≤ 1 →
    fieldLE (s.hostRead c.fn (c.f 16 8) 0x40) 0x10 8 ≤ c.f 24 8 ∧ (s.openImage (s.hostRead c.fn (c.f 16 8) (fieldLE (s.hostRead c.fn (c.f 16 8) 0x40) 0x10 8))).isSome = true →
    exec (.partRestore id) s = .next ((s.phase id .checking).queueCheck .glb (.partRestore id))) ∧
  (∀ (n : Nat) (v : Word) (s : State),
    s.vfExists n = true →
    v.extractLsb' 16 4 &&& BitVec.setWidth 4 v &&& (s.part (n - 1)).evt = 0 →
    ∃ t : Part, exec (.pvEvenWrite n v) s = .next (s.setPart (n - 1) t) ∧ t.evt = (s.part (n - 1)).evt ∧ t.gen = (s.part (n - 1)).gen)

/-- LOAD_PLAN of an image that passes every check takes a free handle and completes with it; UNLOAD_PLAN of a plan that no run uses frees it; RUN_PLAN whose parameters and binding pass starts the run; CANCEL_PLAN and a run's timeout end it with 0x040E and 0x0800. (R71, R72, R74, R75, R77, R79, R94, R370) -/
def Obligations.PlanCompletes : Prop :=
  (∀ (id : Nat) (s : State) (c : Cmd) (n a h0 : Nat) (img : List Byte),
    s.ready id 0x01 c = true →
    s.hostFree c = true →
    a = c.f 8 8 →
    n = c.f 16 4 →
    img = s.hostRead c.fn a n →
    c.zeros [(20, 12)] = true ∧ a % 64 = 0 ∧ h0 < 1024 ∧ s.plan? c.ctx.toNat h0 = none →
    s.pagesRefused c.ctx.toNat (planPages n) = false ∧ s.hostFails c.fn a n = false →
    loadFault img n = none →
    ∃ k, k < 1024 ∧ s.plan? c.ctx.toNat k = none ∧ exec (.loadPlan id) s = .next (({ s.setPlan c.ctx.toNat k (some (loadedPlan img)) with freeCtr := s.freeCtr + 1 }).complete id 0 (BitVec.ofNat 32 k) 0)) ∧
  (∀ (id : Nat) (s : State) (c : Cmd) (pl : Plan),
    s.ready id 0x02 c = true →
    c.zeros [(12, 20)] = true ∧ s.plan? c.ctx.toNat (c.f 8 4) = some pl →
    (s.runs.any (fun r => r.ctx = c.ctx && r.handle = c.f 8 4) = false) →
    exec (.unloadPlan id) s = .next ((s.setPlan c.ctx.toNat (c.f 8 4) none).done id 0)) ∧
  (∀ (id : Nat) (s : State) (c : Cmd) (pl : Plan) (vals : List ParamVal) (rows : List (Option Nat)) (r : Run),
    s.ready id 0x03 c = true →
    s.hostFree c = true →
    c.f 14 2 ≤ 1 ∧ c.zeros [(20, 4)] = true ∧ (if c.f 14 2 = 0 then c.f 12 2 ≤ 62 else c.f 24 8 % 16 = 0) →
    s.plan? c.ctx.toNat (c.f 8 4) = some pl →
    s.paramsOf c = some vals →
    r = newRun c s.nextRun (pl.fill vals) →
    (s.paramCheck r pl).toOption = some rows →
    s.bindReason { r with pages := runPages pl rows } pl = 0 →
    exec (.runPlan id) s = .next (s.startRun c { r with pages := runPages pl rows } pl rows)) ∧
  (∀ (id : Nat) (s : State) (c : Cmd) (x : Cmd) (r : Run),
    s.ready id 0x04 c = true →
    c.zeros [(12, 20)] = true →
    (s.hif.cmds.find? (fun y => y.op = 0x03 && y.ctx = c.ctx && s.sqName y = some (c.f 8 2) && y.f 4 2 = c.f 10 2) = some x) →
    (s.runs.find? (fun y => y.cmd = x.id) = some r) →
    exec (.cancelPlan id) s = .next (if s.endsNow r.id then s.done id 0x0204 else (s.failRun r.id 0x040E 0).done id 0)) ∧
  (∀ (id : Nat) (s : State) (c : Cmd) (r : Run),
    s.cmd? id = some c →
    c.op = 0x03 ∧ c.f 16 4 ≠ 0 ∧ s.elapsed c.fetchedAt (1000 * c.f 16 4) = true →
    (s.runs.find? (fun y => y.cmd = id) = some r) →
    exec (.runTimeout id) s = .next (if s.endsNow r.id then s else s.failRun r.id 0x0800 0))

/-- A tile that may claim takes the morsel the rules choose; a morsel whose rows reach its sink becomes DONE, a pair's whose digests differ runs again, one that fails ends its run, and a report that is no longer the ledger's is discarded; NOCLAIM is written; a frozen partition thaws; a materialisation completes; its error is repaired once, and ends the run the second time; a STORE segment is committed, and the STORE placed, or its run ends where the volume refuses it or it does not fit. (R82, R83, R84, R85, R87, R89, R92, R100, R148, R397) -/
def Obligations.MorselCompletes : Prop :=
  (∀ (t : Nat) (s : State) (l q i : Nat) (r : Run) (pl : Plan),
    s.logOf t = some l →
    t < 18 ∧ (s.tile t).noclaim = false ∧ (s.tile t).drain = false ∧ (s.tile t).gated = false ∧ s.clk.locked = true ∧ s.isPartner t = false →
    (s.enterCands l).weightedPick l = some q →
    (s.enterCands l).pipeFor q l = some (r, i) →
    (s.enterCands l).planOf r = some pl →
    (s.tile t).admits pl r.id i = true ∧ (s.enterCands l).pairing t l r.ctx.toNat ((r.pipe i).led (r.pipe i).next) ≠ .waits →
    exec (.morselClaim t) s = .next ((s.enterCands l).claim t l r pl i ((s.enterCands l).pairing t l r.ctx.toNat ((r.pipe i).led (r.pipe i).next)))) ∧
  (∀ (t k : Nat) (agree : Bool) (s : State) (f : Flight) (r : Run) (pl : Plan) (w : OpWord) (e : Eval),
    (s.tile t).gated = false ∧ s.clk.locked = true →
    (s.tile t).flights[k]? = some f →
    s.run? f.run = some r →
    s.planOf r = some pl →
    pl.sink f.pipe = some w →
    f.work = .rows e →
    ((r.pipe f.pipe).led f.m).state = 1 ∧ ((r.pipe f.pipe).led f.m).token = f.token ∧ (s.jobsOf f.run f.pipe f.m).isEmpty = true →
    agree = true →
    ((pl.pipes[f.pipe]?).any (·.single) && !inOrder (r.pipe f.pipe) f.m) = false →
    ((w.op = 0x11 → ((r.pipe f.pipe).led f.m).committed = true) ∧ (w.op = 0x10 → s.canSend (fnOf f.ctx.toNat) = true)) →
    s.writesHeld (s.morselDone t k f (s.envOf r pl f.pipe f.m) w e) = false →
    exec (.morselComplete t k agree) s = .next (s.morselDone t k f (s.envOf r pl f.pipe f.m) w e)) ∧
  (∀ (t k : Nat) (agree : Bool) (s : State) (f : Flight) (r : Run) (pl : Plan) (w : OpWord) (e : Eval) (x : Nat),
    (s.tile t).gated = false ∧ s.clk.locked = true →
    (s.tile t).flights[k]? = some f →
    s.run? f.run = some r →
    s.planOf r = some pl →
    pl.sink f.pipe = some w →
    f.work = .rows e ∧ f.partner = some x →
    ((r.pipe f.pipe).led f.m).state = 1 ∧ ((r.pipe f.pipe).led f.m).token = f.token ∧ (s.jobsOf f.run f.pipe f.m).isEmpty = true →
    agree = false →
    exec (.morselComplete t k agree) s = .next (s.morselDiffers t k f x)) ∧
  (∀ (t k : Nat) (agree : Bool) (s : State) (f : Flight) (r : Run) (pl : Plan) (w : OpWord) (e : Eval),
    (s.tile t).gated = false ∧ s.clk.locked = true →
    (s.tile t).flights[k]? = some f →
    s.run? f.run = some r →
    s.planOf r = some pl →
    pl.sink f.pipe = some w →
    f.work = .rows e →
    (((r.pipe f.pipe).led f.m).state ≠ 1 ∨ ((r.pipe f.pipe).led f.m).token ≠ f.token) →
    exec (.morselComplete t k agree) s = .next (s.morselStale t k f)) ∧
  (∀ (t k : Nat) (agree : Bool) (s : State) (f : Flight) (r : Run) (pl : Plan) (w : OpWord) (st : BitVec 16) (r0 : Word) (n : Nat),
    (s.tile t).gated = false ∧ s.clk.locked = true →
    (s.tile t).flights[k]? = some f →
    s.run? f.run = some r →
    s.planOf r = some pl →
    pl.sink f.pipe = some w →
    f.work = .fails st r0 n →
    (s.jobsOf f.run f.pipe f.m).isEmpty = true →
    exec (.morselComplete t k agree) s = .next (if ((r.pipe f.pipe).led f.m).state ≠ 1 || ((r.pipe f.pipe).led f.m).token ≠ f.token then s.morselStale t k f else s.morselFails t f st (s.firstTrap f st r0))) ∧
  (∀ (r : Req) (t : Nat) (v : Word) (s : State),
    t < 18 ∧ s.reachable r (tileOfs t + 0x114) = true →
    exec (.noclaimWrite r t v) s = .next (s.writeNoclaim t (v ||| 0x00010000))) ∧
  (∀ (id : Nat) (s : State) (c : Cmd),
    s.ready id 0xAC c = true →
    c.zeros [(10, 22)] = true ∧ c.f 8 2 < 4096 ∧ (s.part (c.f 8 2)).state = 3 →
    exec (.partThaw id) s = .next (((((s.runs.filter fun r => r.ctx.toNat = c.f 8 2).map (·.id)).foldl State.rebind (s.updPart (c.f 8 2) fun x => { x with state := 1 })).pvEvent (c.f 8 2) 0).done id 0)) ∧
  (∀ (run mat : Nat) (s : State) (r : Run) (pl : Plan) (x : MatRec) (w : OpWord),
    s.run? run = some r →
    s.planOf r = some pl →
    pl.mats[mat]? = some x →
    pl.matSink mat = some w →
    (w.op ≠ 0x0D ∨ ((s.envOf r pl x.producer 0).markerDevices w).all (fun d => (r.mat mat).ends.getLsbD d) = true) →
    (r.pipe x.producer).done = true ∧ (r.mat mat).complete = false ∧ r.paused = false ∧ s.runMirrored r = true →
    s.writesHeld (s.completeMat run mat (s.envOf r pl x.producer 0) w) = false →
    exec (.materialisationComplete run mat) s = .next (s.completeMat run mat (s.envOf r pl x.producer 0) w)) ∧
  (∀ (run mat : Nat) (s : State) (r : Run) (pl : Plan) (x : MatRec),
    s.run? run = some r →
    s.planOf r = some pl →
    pl.mats[mat]? = some x →
    (r.mat mat).complete = true ∧ (r.mat mat).freed = false →
    r.repaired = true →
    exec (.materialisationError run mat) s = .next ((s.pageError r 0 0x0701).failRun run 0x0701 0)) ∧
  (∀ (run mat : Nat) (s : State) (r : Run) (pl : Plan) (x : MatRec) (mats pipes : List Nat),
    s.run? run = some r →
    s.planOf r = some pl →
    pl.mats[mat]? = some x →
    (r.mat mat).complete = true ∧ (r.mat mat).freed = false →
    r.repaired = false →
    mats = pl.againMats r mat pl.mats.length [mat] →
    pipes = pl.againPipes mat mats →
    exec (.materialisationError run mat) s = .next ((((pipes.foldl (fun (y : State) i => y.restartPipe run i) (s.pageError r 8 0)).updRun run fun y => { y.discard pl mats pipes with repaired := true })).settleRun run)) ∧
  (∀ (run pipe m : Nat) (s : State) (r : Run) (pl : Plan) (w : OpWord) (e : Eval) (g : Ref) (n : Nat),
    s.run? run = some r →
    s.planOf r = some pl →
    s.flightRows run pipe m = some e →
    pl.sink pipe = some w →
    w.op = 0x11 ∧ ((r.pipe pipe).led m).committed = false ∧ (s.jobsOf run pipe m).isEmpty = true ∧ s.arcRuns = true →
    g = refOf (((s.envOf r pl pipe m).raw w.dst).getD []) →
    n = (storeSegment pl pipe w e.active).length →
    s.volRefusal r.ctx.toNat g.volume (g.addr / 4096) 0 true = 0 ∧ s.admits r.ctx.toNat g.volume (ceilDiv n 4096) = true →
    exec (.storeCommit run pipe m) s = .next (((s.meter r.ctx.toNat 4 n).stageRows r pl pipe w m e.active).updRun run fun x => x.updPipe pipe fun p => p.updLed m fun l => { l with committed := true })) ∧
  (∀ (run pipe m : Nat) (s : State) (r : Run) (pl : Plan) (w : OpWord) (e : Eval) (g : Ref),
    s.run? run = some r →
    s.planOf r = some pl →
    s.flightRows run pipe m = some e →
    pl.sink pipe = some w →
    w.op = 0x11 ∧ ((r.pipe pipe).led m).committed = false ∧ (s.jobsOf run pipe m).isEmpty = true ∧ s.arcRuns = true →
    g = refOf (((s.envOf r pl pipe m).raw w.dst).getD []) →
    s.volRefusal r.ctx.toNat g.volume (g.addr / 4096) 0 true ≠ 0 →
    exec (.storeCommit run pipe m) s = .next (s.failRun run (s.volRefusal r.ctx.toNat g.volume (g.addr / 4096) 0 true) 0)) ∧
  (∀ (run pipe : Nat) (s : State) (r : Run) (pl : Plan) (w : OpWord) (g : Ref) (segs : List (Nat × Nat × Nat)) (at_ : List Nat × Nat) (t1 : State),
    s.run? run = some r →
    s.planOf r = some pl →
    pl.sink pipe = some w →
    w.op = 0x11 ∧ (r.pipe pipe).done = true ∧ (r.pipe pipe).placed = false ∧ r.paused = false ∧ s.runMirrored r = true ∧ s.stagedDown r pipe = true ∧ s.arcRuns = true →
    g = refOf (((s.envOf r pl pipe 0).raw w.dst).getD []) →
    segs = (r.pipe pipe).segments →
    at_ = storePlaces (segs.map (·.2.1)) →
    at_.2 ≤ g.len ∧ s.volRefusal r.ctx.toNat g.volume (g.addr / 4096) (ceilDiv at_.2 4096) true = 0 →
    (t1 = ((0 :: at_.1).zip (look (0, 0, 0) (r.pipe pipe).staged segs.length :: segs)).foldl (fun (x : State) e => x.placeRuns (stageVol r.id pipe) e.2.1 (ceilDiv e.2.2.1 4096) g.volume ((g.addr + e.1) / 4096)) s) →
    (s.writesHeld ((((t1.setVol (stageVol r.id pipe) {}).recount (s.vol g.volume).array).updRun run fun x => x.updPipe pipe fun y => { y with placed := true }).settleRun run) = false) →
    exec (.storePlace run pipe) s = .next ((((t1.setVol (stageVol r.id pipe) {}).recount (s.vol g.volume).array).updRun run fun x => x.updPipe pipe fun y => { y with placed := true }).settleRun run)) ∧
  (∀ (run pipe : Nat) (s : State) (r : Run) (pl : Plan) (w : OpWord) (g : Ref),
    s.run? run = some r →
    s.planOf r = some pl →
    pl.sink pipe = some w →
    w.op = 0x11 ∧ (r.pipe pipe).done = true ∧ (r.pipe pipe).placed = false ∧ r.paused = false ∧ s.runMirrored r = true ∧ s.stagedDown r pipe = true ∧ s.arcRuns = true →
    g = refOf (((s.envOf r pl pipe 0).raw w.dst).getD []) →
    g.len < (storePlaces ((r.pipe pipe).segments.map (·.2.1))).2 →
    exec (.storePlace run pipe) s = .next (s.failRun run 0x0510 0))

/-- Each row of ASTORE answers the state its rules give: the commands on a table that the context owns, with their operands in range and room for what they write; a bank's clear that ends; a RESPREAD's step; an Ember check that finds the unit good, that corrects it or its shadow, that cannot, or that skips a unit being written or cleared; a bank's owner write and an access to the direct windows. (R228, R230, R231, R232, R235, R236, R237, R238, R240, R241, R242, R243) -/
def Obligations.TableCompletes : Prop :=
  (∀ (id : Nat) (s : State) (c : Cmd),
    s.ready id 0x68 c = true →
    s.astWaits id = false ∧ c.zeros [(13, 1), (20, 12)] = true →
    exec (.astCreate id) s = .next ((s.phase id .checking).queueCheck .astore (.astTable id))) ∧
  (∀ (id : Nat) (s : State) (c : Cmd) (t : ATable),
    s.ready id 0x69 c = true →
    s.tableFor id c t = true ∧ c.zeros [(10, 22)] = true →
    ((s.runs.any fun r => r.ctx = t.ctx && r.tables.contains (c.f 8 2)) = false) →
    exec (.astDestroy id) s = .next ((banksIn t.banks).foldl (fun (x : State) b => x.clearBank b) ((s.updAtable (c.f 8 2) fun x => { x with enable := false, fault := false, destroyCmd := some id }).phase id .running))) ∧
  (∀ (b : Nat) (s : State),
    b < 32 ∧ (s.bank b).clearing = true →
    exec (.bankClearComplete b) s = .next ((s.updBank b fun x => { x with clearing := false }).endDestroys)) ∧
  (∀ (id : Nat) (s : State) (c : Cmd) (t : ATable) (ps : List Nat) (es : List (List AUnit)),
    s.ready id 0x6A c = true →
    s.hostFree c = true →
    s.tableFor id c t = true ∧ c.zeros [(10, 2), (24, 8)] = true →
    c.f 12 4 ≠ 0 ∧ c.f 12 4 ≤ 2097152 ∧ c.f 16 8 % 64 = 0 →
    ps = freePositions t.interval.toNat (s.afterLast t) t.size (c.f 12 4) →
    (es = (List.range (c.f 12 4)).map (fun k => entryOf t.width ((s.hostRead c.fn (c.f 16 8) (c.f 12 4 * 16 * t.width)).drop (k * 16 * t.width)))) →
    c.f 12 4 ≤ ps.length ∧ s.hostFails c.fn (c.f 16 8) (c.f 12 4 * 16 * t.width) = false ∧ es.any isHole = false →
    exec (.astLoad id) s = .next ((s.putEntries t (ps.zip es)).complete id 0 (BitVec.ofNat 32 (nth ps 0 0)) (BitVec.ofNat 32 (nth ps (c.f 12 4 - 1) 0)))) ∧
  (∀ (id : Nat) (s : State) (c : Cmd) (t : ATable) (e : List AUnit) (w : List (Nat × List AUnit) × Nat × Word),
    s.ready id 0x6B c = true →
    s.tableFor id c t = true ∧ c.zeros [(10, 2), (16, 16)] = true →
    e = entryOf t.width (c.bytes.drop 32) →
    c.bytes.length = 32 * (1 + ceilDiv t.width 2) ∧ isHole e = false ∧ c.f 12 4 ≠ 0xFFFFFFFF ∧ c.f 12 4 < t.size →
    (s.insertReads t (c.f 12 4)).insertPlan t (c.f 12 4) e = some w →
    exec (.astInsert id) s = .next (((s.insertReads t (c.f 12 4)).putEntries t w.1).complete id 0 (BitVec.ofNat 32 w.2.1) w.2.2)) ∧
  (∀ (id : Nat) (s : State) (c : Cmd) (t : ATable),
    s.ready id 0x6C c = true →
    s.tableFor id c t = true ∧ c.zeros [(10, 2), (16, 16)] = true →
    c.f 12 4 < t.size ∧ isHole (s.entryAt t (c.f 12 4)) = false →
    exec (.astDelete id) s = .next ((s.putUnit (s.unitAt t (c.f 12 4) 0) holeUnit).complete id 0 1 0)) ∧
  (∀ (id : Nat) (s : State) (c : Cmd) (t : ATable) (rs : List (Option Nat × Bool)),
    s.ready id 0x6D c = true →
    s.hostFree c = true →
    s.tableFor id c t = true ∧ c.zeros [(10, 2)] = true →
    c.f 12 4 ≠ 0 ∧ c.f 12 4 ≤ 4096 ∧ c.f 16 8 % 8 = 0 ∧ c.f 24 8 % 4 = 0 →
    t.fault = false ∧ s.hostFails c.fn (c.f 16 8) (c.f 12 4 * 8 * t.width) = false →
    (rs = (List.range (c.f 12 4)).map (fun k => s.search t ((List.range t.width).map fun j => BitVec.ofNat 64 (leNat (s.hostRead c.fn (c.f 16 8 + 8 * (k * t.width + j)) 8))))) →
    exec (.astSearch id) s = .next (((s.hostWrite c.fn (c.f 24 8) (rs.flatMap fun r => natLE 4 (searchWord r).toNat)).countSearches (c.f 12 4 * (banksIn t.banks).length)).complete id 0 (BitVec.ofNat 32 (rs.countP fun r => r.1.isSome)) 0)) ∧
  (∀ (id : Nat) (s : State) (c : Cmd) (t : ATable) (i : Nat),
    s.ready id 0x6E c = true →
    s.tableFor id c t = true ∧ c.zeros [(10, 4), (16, 16)] = true →
    i = (if c.f 14 2 = 0 then t.interval.toNat else c.f 14 2) →
    intervalOk (c.f 14 2) = true ∧ (s.used t).length ≤ t.capacity i →
    exec (.astRespread id) s = .next (((s.checkTable t 0 t.size).updAtable (c.f 8 2) fun x => { x with rsp := true, rspInterval := BitVec.ofNat 9 i, rspWrites := (s.checkTable t 0 t.size).respreadWrites t i, rspCmd := some id }).phase id .running)) ∧
  (∀ (n : Nat) (s : State) (t : ATable),
    s.atable n = t →
    t.enable = true ∧ t.rsp = true →
    t.rspWrites.drop (stepPrefix t.perBank 256 t.rspWrites).length ≠ [] →
    exec (.respreadStep n) s = .next ((s.putEntries t (stepPrefix t.perBank 256 t.rspWrites)).updAtable n fun x => { x with rspWrites := t.rspWrites.drop (stepPrefix t.perBank 256 t.rspWrites).length })) ∧
  (∀ (n : Nat) (s : State) (t : ATable),
    s.atable n = t →
    t.enable = true ∧ t.rsp = true →
    t.rspWrites.drop (stepPrefix t.perBank 256 t.rspWrites).length = [] →
    t.rspCmd = none →
    exec (.respreadStep n) s = .next ((s.putEntries t (stepPrefix t.perBank 256 t.rspWrites)).updAtable n fun x => { x with rsp := false, interval := x.rspInterval, rspWrites := [], rspCmd := none })) ∧
  (∀ (id : Nat) (s : State) (c : Cmd) (t : ATable),
    s.ready id 0x6F c = true →
    s.hostFree c = true →
    s.tableFor id c t = true ∧ c.zeros [(10, 2), (20, 4)] = true →
    c.f 16 4 ≠ 0 ∧ c.f 16 4 ≤ 65536 ∧ c.f 24 8 % 64 = 0 ∧ c.f 12 4 + c.f 16 4 ≤ t.size →
    exec (.astRead id) s = .next ((fun u : State => (u.hostWrite c.fn (c.f 24 8) ((List.range (c.f 16 4)).flatMap fun k => entryBytes (u.entryAt t (c.f 12 4 + k)))).complete id 0 (BitVec.ofNat 32 (c.f 16 4)) 0) (s.checkEntries t (c.f 12 4) (c.f 16 4)))) ∧
  (∀ (s : State) (b n k : Nat),
    s.astp = true →
    b = s.astore.pos.toNat / 65536 ∧ n = s.astore.pos.toNat % 65536 →
    k = s.physBank b * 65536 + n →
    look false s.astore.badShadow k = false ∧ s.unit k = look holeUnit s.astore.shadow k ∧ s.unitParityBad k = false →
    exec .emberCheck s = .next ({ s with astore := s.astore.nextPos })) ∧
  (∀ (s : State) (b n k : Nat),
    s.astp = true →
    b = s.astore.pos.toNat / 65536 ∧ n = s.astore.pos.toNat % 65536 →
    k = s.physBank b * 65536 + n →
    look false s.astore.pending k = false ∧ (s.bank b).clearing = false ∧ look false s.astore.badShadow k = false →
    (s.unit k ≠ look holeUnit s.astore.shadow k ∨ s.unitParityBad k = true) →
    exec .emberCheck s = .next (({ s with astore := s.astore.nextPos } : State).emberFix b n (look holeUnit s.astore.shadow k))) ∧
  (∀ (s : State) (b n k : Nat),
    s.astp = true →
    b = s.astore.pos.toNat / 65536 ∧ n = s.astore.pos.toNat % 65536 →
    k = s.physBank b * 65536 + n →
    look false s.astore.pending k = false ∧ (s.bank b).clearing = false ∧ look false s.astore.badShadow k = true →
    s.unitParityBad k = false →
    exec .emberCheck s = .next (({ s with astore := s.astore.nextPos } : State).emberFix b n (s.unit k))) ∧
  (∀ (s : State) (b n k : Nat),
    s.astp = true →
    b = s.astore.pos.toNat / 65536 ∧ n = s.astore.pos.toNat % 65536 →
    k = s.physBank b * 65536 + n →
    look false s.astore.pending k = false ∧ (s.bank b).clearing = false ∧ look false s.astore.badShadow k = true →
    s.unitParityBad k = true →
    exec .emberCheck s = .next (({ s with astore := s.astore.nextPos } : State).emberFault b n)) ∧
  (∀ (s : State) (b n k : Nat),
    s.astp = true →
    b = s.astore.pos.toNat / 65536 ∧ n = s.astore.pos.toNat % 65536 →
    k = s.physBank b * 65536 + n →
    (look false s.astore.pending k = true ∨ (s.bank b).clearing = true) →
    exec .emberCheck s = .next ({ s with astore := s.astore.nextPos })) ∧
  (∀ (r : Req) (b : Nat) (v : Word) (s : State),
    b < 32 ∧ s.reachable r (0x30A000 + 4 * b) = true →
    exec (.astoreOwnerWrite r b v) s = .next (s.writeOwner b v)) ∧
  (∀ (off : Nat) (wr : Bool) (v : Word) (s : State),
    (0x1000000 ≤ off ∧ off < 0x3000000 ∧ off % 4 = 0 ∧ (wr = false → s.holder .pf0 = none)) →
    exec (.directWindowAccess off wr v) s = .next (if wr then s.inOrder .pf0 .bar0 [(off, v)] (s.window off true v) else s.window off false v))

/-- CMP_DEFLATE and CMP_INFLATE that pass the checks wait for a stream; a free stream takes the oldest job; a command's job that ends has its engine's effect, or writes nothing where its owner's generation is old, and a morsel's is verified where it encodes; an engine's fault takes it out of service, its jobs to run again. (R246, R247, R251, R252, R253, R256, R257, R258, R468) -/
def Obligations.CompressionCompletes : Prop :=
  (∀ (id : Nat) (s : State) (c : Cmd),
    s.ready id 0x48 c = true →
    s.hostFree c = true →
    s.cmpRefusal c true = 0 →
    exec (.cmpDeflate id) s = .next ((s.setJobs (s.cmp.jobs ++ [{ id := id, cls := 2, morsel := none, slot := 0, engine := none, retried := false }])).phase id (.waiting 3))) ∧
  (∀ (id : Nat) (s : State) (c : Cmd),
    s.ready id 0x49 c = true →
    s.hostFree c = true →
    s.cmpRefusal c false = 0 →
    exec (.cmpInflate id) s = .next ((s.setJobs (s.cmp.jobs ++ [{ id := id, cls := 2, morsel := none, slot := 0, engine := none, retried := false }])).phase id (.waiting 3))) ∧
  (∀ (e : Nat) (s : State) (k : Nat) (j : Job),
    s.cmp.nextClass = some k →
    (s.cmp.jobs.find? (fun j => j.cls = k && j.engine = none) = some j) →
    s.engineIn e = true ∧ (s.engineJobs e).length < 6 ∧ s.ungated = true →
    exec (.cmpJobStart e) s = .next ((fun u : State => ({ u with cmp := { u.cmp with turn := j.cls } } : State).phase j.id .running) (s.setJobs (s.cmp.jobs.map fun (x : Job) => if x.id = j.id then { x with engine := some e } else x)))) ∧
  (∀ (id : Nat) (s : State) (j : Job) (c : Cmd),
    (s.cmp.jobs.find? (fun j => j.id = id && j.engine.isSome) = some j) →
    s.ungated = true ∧ j.morsel = none →
    s.cmd? id = some c →
    s.current c.ctx c.gen = true ∧ (s.hostWaits c && (c.f 34 1 = 0 || c.f 35 1 = 0)) = false →
    exec (.cmpJobComplete id) s = .next ((s.setJobs (s.cmp.jobs.filter fun x => x.id ≠ id)).cmpEnd c (j.engine.getD 0))) ∧
  (∀ (id : Nat) (s : State) (j : Job) (c : Cmd),
    (s.cmp.jobs.find? (fun j => j.id = id && j.engine.isSome) = some j) →
    s.ungated = true ∧ j.morsel = none →
    s.cmd? id = some c →
    s.current c.ctx c.gen = false →
    exec (.cmpJobComplete id) s = .next ((s.setJobs (s.cmp.jobs.filter fun x => x.id ≠ id)).done id 0x0703)) ∧
  (∀ (id : Nat) (s : State) (j : Job) (run pipe m : Nat) (r : Run) (pl : Plan),
    (s.cmp.jobs.find? (fun j => j.id = id && j.engine.isSome) = some j) →
    s.ungated = true ∧ j.morsel = some (run, pipe, m) →
    s.run? run = some r →
    s.planOf r = some pl →
    exec (.cmpJobComplete id) s = .next (if j.cls = 1 then (s.setJobs (s.cmp.jobs.filter fun x => x.id ≠ id)).slotEnd j r pl pipe m (j.engine.getD 0) else s.setJobs (s.cmp.jobs.filter fun x => x.id ≠ id))) ∧
  (∀ (ers : Bool) (e : Nat) (s : State),
    ers = true ∧ e < 8 ∧ (!look false s.arc.ersOut e || s.testing 3 e) = true →
    exec (.engineFault ers e) s = .next ((fun u : State => ({ u with arc := { u.arc with ersOut := put false u.arc.ersOut e true } } : State).testFaulted 3 e) (s.record 1 ownerCtx 0x32 Config.engineCheck.toNat e 4 0 false 0))) ∧
  (∀ (ers : Bool) (e : Nat) (s : State) (jobs : List Job) (ctx : Nat),
    ers = false ∧ (s.engineIn e || (e < 16 && (s.testing 2 e || !(s.engineJobs e).isEmpty))) = true →
    jobs = s.engineJobs e →
    (ctx = (jobs.head?.bind fun j => match j.morsel with | some (run, _, _) => (s.run? run).map fun r => r.ctx.toNat | none => (s.cmd? j.id).map fun c => c.ctx.toNat).getD ownerCtx) →
    exec (.engineFault ers e) s = .next (((s.record 1 ctx 0x31 Config.engineCheck.toNat e (4 + (if jobs.isEmpty then 0 else 8)) 0 false (if jobs.any (·.retried) then 0x0702 else 0)).engineLost e).testFaulted 2 e))

/-- Rows that come from a peer take their place in the exchange buffer; rows of an old generation or outside the binding are discarded and counted, rows of another partition end the run of the key; an end marker is noted; an abort marker ends the run of its key; a column processor's HALT stops it; an instruction that is defined nowhere fails its kernel with 0x0460. (R83, R94, R185, R203, R458, R460) -/
def Obligations.KernelEntryCompletes : Prop :=
  (∀ (dev bind : Nat) (exkey : Word) (ctx : BitVec 13) (gen : BitVec 16) (mat pipe m bucket : Nat) (rows : List Row) (s : State) (u : State) (r : Run) (pl : Plan),
    u = s.hear dev →
    dev < 8 ∧ dev ≠ u.pwr.devid.toNat ∧ u.reaches dev = true ∧ pipe < 256 ∧ m < 2 ^ 32 →
    (u.binding bind).en = true ∧ (u.binding bind).devmask.getLsbD dev = true ∧ look 0 (u.binding bind).gens dev = gen →
    look 0 (u.binding bind).ctxs dev = ctx →
    u.exchangeRun bind exkey = some r →
    u.planOf r = some pl →
    u.exchangeOpen r dev bind mat = true →
    u.writesHeld (u.placeExchange r pl dev mat pipe m bucket rows) = false →
    exec (.exchangeRows dev bind exkey ctx gen mat pipe m bucket rows) s = .next (u.placeExchange r pl dev mat pipe m bucket rows)) ∧
  (∀ (dev bind : Nat) (exkey : Word) (ctx : BitVec 13) (gen : BitVec 16) (mat pipe m bucket : Nat) (rows : List Row) (s : State) (u : State),
    u = s.hear dev →
    dev < 8 ∧ dev ≠ u.pwr.devid.toNat ∧ u.reaches dev = true ∧ pipe < 256 ∧ m < 2 ^ 32 →
    (!(u.binding bind).en || !(u.binding bind).devmask.getLsbD dev || look 0 (u.binding bind).gens dev ≠ gen) = true →
    exec (.exchangeRows dev bind exkey ctx gen mat pipe m bucket rows) s = .next (u.stale ctx.toNat)) ∧
  (∀ (dev bind : Nat) (exkey : Word) (ctx : BitVec 13) (gen : BitVec 16) (mat pipe m bucket : Nat) (rows : List Row) (s : State) (u : State) (r : Run),
    u = s.hear dev →
    dev < 8 ∧ dev ≠ u.pwr.devid.toNat ∧ u.reaches dev = true ∧ pipe < 256 ∧ m < 2 ^ 32 →
    (u.binding bind).en = true ∧ (u.binding bind).devmask.getLsbD dev = true ∧ look 0 (u.binding bind).gens dev = gen →
    look 0 (u.binding bind).ctxs dev ≠ ctx →
    u.exchangeRun bind exkey = some r →
    exec (.exchangeRows dev bind exkey ctx gen mat pipe m bucket rows) s = .next (u.failRun r.id 0x0601 0)) ∧
  (∀ (dev bind : Nat) (exkey : Word) (mat pipe : Nat) (s : State) (u : State) (r : Run),
    u = s.hear dev →
    u.exchangeRun bind exkey = some r →
    u.exchangeOpen r dev bind mat = true →
    exec (.exchangeEndMarker dev bind exkey mat pipe) s = .next (u.updRun r.id fun y => y.updMat mat fun z => { z with ends := z.ends ||| devBit dev })) ∧
  (∀ (dev bind : Nat) (exkey : Word) (s : State) (u : State) (r : Run),
    u = s.hear dev →
    u.exchangeRun bind exkey = some r →
    dev < 8 ∧ (u.binding bind).en = true ∧ (u.binding bind).devmask.getLsbD dev = true →
    exec (.exchangeAbortMarker dev bind exkey) s = .next (u.failRun r.id 0x0410 0)) ∧
  (∀ (dev bind : Nat) (exkey : Word) (s : State) (u : State),
    u = s.hear dev →
    u.exchangeRun bind exkey = none →
    dev < 8 ∧ (u.binding bind).en = true ∧ (u.binding bind).devmask.getLsbD dev = true →
    exec (.exchangeAbortMarker dev bind exkey) s = .next (u))

/-- Each administration command of ARC, its reserved bytes zero, its operands in range and its object in a state that admits it, answers what its rules give: the attach and the detach of a member, the commands that wait for their check, the draining of an array, the destruction and the owner of a volume, the lists of lost blocks and of a replay's report, and the three registers. (R264, R266, R292, R295, R297, R298, R299, R303, R304, R305, R334, R337) -/
def Obligations.ArrayAdminCompletes : Prop :=
  (∀ (id : Nat) (info : Option MemberInfo) (s : State) (c : Cmd) (i : MemberInfo) (n d l : Nat) (t : State),
    s.ready id 0x90 c = true →
    n = c.f 8 1 ∧ d = c.f 9 1 ∧ l = s.free.1.toNat % s.linksOf d →
    c.zeros [(14, 18)] = true ∧ n ≤ 63 ∧ d ≤ 5 ∧ c.f 12 2 ≠ 0 ∧ c.f 12 2 ≤ 4095 ∧ (s.member n).state = 0 →
    info = some i →
    (t = s.free.2.updMember n fun w => { w with state := 1, lbas := i.lbas, mwrate := BitVec.ofNat 12 (c.f 12 2), dp := BitVec.ofNat 3 d, rid := BitVec.ofNat 16 (c.f 10 2), cap := i.cap, nsOk := i.nsOk, link := l, ioQueues := 8 }) →
    exec (.mbrAttach id info) s = .next ((({ t with arc := { t.arc with up := put 0 t.arc.up d (look 0 t.arc.up d ||| BitVec.ofNat 4 (2 ^ l)) } } : State).toMember n attachCmds).complete id 0 (lo32 i.cap) (hi32 i.cap))) ∧
  (∀ (id : Nat) (info : Option MemberInfo) (s : State) (c : Cmd),
    s.ready id 0x90 c = true →
    c.zeros [(14, 18)] = true ∧ c.f 8 1 ≤ 63 ∧ c.f 9 1 ≤ 5 ∧ c.f 12 2 ≠ 0 ∧ c.f 12 2 ≤ 4095 ∧ (s.member (c.f 8 1)).state = 0 →
    info = none →
    exec (.mbrAttach id info) s = .next (s.free.2.done id (issuedStatus s.free.1.toNat))) ∧
  (∀ (id : Nat) (s : State) (c : Cmd),
    s.ready id 0x91 c = true →
    (c.zeros [(9, 23)] = true ∧ c.f 8 1 ≤ 63 ∧ ((s.member (c.f 8 1)).state = 1 ∨ (s.member (c.f 8 1)).state = 4)) →
    exec (.mbrDetach id) s = .next ((((s.toMember (c.f 8 1) detachCmds).updMember (c.f 8 1) Member.detached).emit (.memberShutdown (c.f 8 1))).done id 0)) ∧
  (∀ (id : Nat) (s : State) (c : Cmd),
    s.ready id 0x92 c = true →
    c.zeros [(19, 1), (68, 28)] = true ∧ c.f 16 1 / 4 = 0 ∧ c.f 8 1 ≤ 63 ∧ (s.arr (c.f 8 1)).state = 0 →
    exec (.arrCreate id) s = .next (((s.updArr (c.f 8 1) fun x => { x with state := 1, prev := 0, cmd := some id }).phase id .checking).queueCheck .arc (.arrCreate id))) ∧
  (∀ (id : Nat) (s : State) (c : Cmd),
    s.ready id 0x95 c = true →
    c.zeros [(10, 22), (32, 12), (46, 2), (51, 1)] = true ∧ c.f 9 1 / 64 = 0 ∧ c.f 48 1 / 2 = 0 ∧ c.f 8 1 ≤ 63 →
    ((s.arr (c.f 8 1)).state = 3 ∨ (s.arr (c.f 8 1)).state = 4 ∨ (s.arr (c.f 8 1)).state = 5) →
    exec (.arrSet id) s = .next ((s.phase id .checking).queueCheck .arc (.arrSet id))) ∧
  (∀ (id : Nat) (s : State) (c : Cmd),
    s.ready id 0x94 c = true →
    c.zeros [(9, 23)] = true ∧ c.f 8 1 ≤ 63 →
    ((s.arr (c.f 8 1)).state = 3 ∨ (s.arr (c.f 8 1)).state = 4) →
    exec (.arrStop id) s = .next ((((s.updArr (c.f 8 1) fun y => { y with state := 6, cmd := some id, late := s.lateWrites (c.f 8 1) }).writeLabels (c.f 8 1) false).phase id .running).closeStreams (c.f 8 1))) ∧
  (∀ (id : Nat) (s : State) (c : Cmd),
    s.ready id 0x94 c = true →
    c.zeros [(9, 23)] = true ∧ c.f 8 1 ≤ 63 ∧ (s.arr (c.f 8 1)).state = 5 →
    exec (.arrStop id) s = .next (((s.writeLabels (c.f 8 1) false).updArr (c.f 8 1) fun y => { y with state := 7 }.stopRebuild).done id 0)) ∧
  (∀ (a : Nat) (s : State) (x : Arr) (t : State),
    s.arr a = x →
    a < 64 ∧ x.state = 6 ∧ s.arcRuns = true ∧ x.cache = [] ∧ x.reserved = [] →
    (x.stripes.all (fun e => e.2.state ≠ 1 && e.2.state ≠ 2) = true) →
    ((s.hif.cmds.any fun c => (c.phase = waitSpace || (c.phase = waitLeaf && c.op = 0x21) || x.late.contains (0, c.id)) && (s.vol (c.f 8 2)).array = a) = false) →
    s.checkpoint? a = some t →
    exec (.arrDrainComplete a) s = .next (match x.cmd with | some id => ((t.writeLabels a true).updArr a fun y => { y with state := 7, cmd := none, late := [] }.stopRebuild).done id 0 | none => (t.writeLabels a true).updArr a fun y => { y with state := 7, cmd := none, late := [] }.stopRebuild)) ∧
  (∀ (id : Nat) (s : State) (c : Cmd) (all : List (Nat × Nat × Nat)),
    s.ready id 0x9E c = true →
    s.hostFree c = true →
    c.zeros [(9, 3), (24, 8)] = true ∧ c.f 8 1 ≤ 63 ∧ c.f 16 8 % 64 = 0 ∧ 3 ≤ (s.arr (c.f 8 1)).state →
    (all = (s.volsOf (c.f 8 1)).flatMap (fun v => (joinLost ((s.vol v).map.filter (·.kind = 2))).map fun e => (v, e.1, e.2))) →
    exec (.arrLostlist id) s = .next ((s.hostWrite c.fn (c.f 16 8) ((all.take (c.f 12 4)).flatMap fun e => natLE 2 e.1 ++ natLE 2 0 ++ natLE 4 e.2.2 ++ natLE 8 e.2.1)).complete id 0 (BitVec.ofNat 32 (all.take (c.f 12 4)).length) (BitVec.ofNat 32 all.length))) ∧
  (∀ (id : Nat) (s : State) (c : Cmd) (r : Report),
    s.ready id 0x9F c = true →
    s.hostFree c = true →
    c.zeros [(9, 7), (24, 8)] = true ∧ c.f 8 1 ≤ 63 ∧ c.f 16 8 % 64 = 0 →
    (s.arr (c.f 8 1)).report = some r →
    exec (.arrVaultInfo id) s = .next ((s.hostWrite c.fn (c.f 16 8) r.bytes).done id 0)) ∧
  (∀ (id : Nat) (s : State) (c : Cmd),
    s.ready id 0x93 c = true →
    c.zeros [(9, 7), (24, 8)] = true ∧ c.f 8 1 ≤ 63 →
    ((s.arr (c.f 8 1)).state = 0 ∨ (s.arr (c.f 8 1)).state = 7) →
    exec (.arrImport id) s = .next (((s.updArr (c.f 8 1) fun x => { x with prev := x.state, state := 1, cmd := some id }).phase id .checking).queueCheck .arc (.arrImport id))) ∧
  (∀ (id : Nat) (s : State) (c : Cmd),
    s.ready id 0x98 c = true →
    c.zeros [(14, 2), (24, 8)] = true ∧ c.f 11 1 / 2 = 0 ∧ c.f 8 2 ≤ 16383 ∧ c.f 10 1 ≤ 63 ∧ (s.vol (c.f 8 2)).state = 0 →
    exec (.volCreate id) s = .next ((s.phase id .checking).queueCheck .arc (.volCreate id))) ∧
  (∀ (id : Nat) (s : State) (c : Cmd),
    s.ready id 0x9A c = true →
    c.zeros [(10, 6), (24, 8)] = true ∧ c.f 8 2 ≤ 16383 ∧ (s.vol (c.f 8 2)).state = 1 →
    exec (.volResize id) s = .next ((s.phase id .checking).queueCheck .arc (.volResize id))) ∧
  (∀ (id : Nat) (s : State) (c : Cmd) (v : Nat),
    s.ready id 0x99 c = true →
    v = c.f 8 2 →
    c.zeros [(10, 22)] = true ∧ v ≤ 16383 ∧ (s.vol v).state = 1 ∧ [3, 4, 5].contains (s.arr (s.vol v).array).state = true →
    (s.vol v).waiter = none ∧ (s.vol v).exported = none ∧ s.volNamed v = false →
    ((s.updVol v fun y => { y with state := 2 }).volBusy v id = false) →
    exec (.volDestroy id) s = .next (((s.updVol v fun y => { y with state := 2 }).dropVol v).done id 0)) ∧
  (∀ (id : Nat) (s : State) (c : Cmd) (v : Nat),
    s.ready id 0x9B c = true →
    v = c.f 8 2 →
    c.zeros [(10, 1), (14, 18)] = true ∧ v ≤ 16383 ∧ (s.vol v).state = 1 ∧ [3, 4, 5].contains (s.arr (s.vol v).array).state = true →
    c.f 11 1 = 0 ∧ c.f 12 2 ≤ 4095 →
    (s.vol v).waiter = none ∧ (s.vol v).exported = none ∧ s.volNamed v = false ∧ s.volBusy v id = false →
    exec (.volOwner id) s = .next (((s.updVol v fun y => { y with shared := false, owner := BitVec.ofNat 13 (c.f 12 2), waiter := none }).writeSys (s.vol v).array).done id 0)) ∧
  (∀ (r : Req) (v : Word) (s : State),
    s.reachable r 0x330010 = true →
    exec (.arcMapcWrite r v) s = .next (s.writeMapc v)) ∧
  (∀ (r : Req) (v : Word) (s : State),
    s.reachable r 0x330020 = true ∧ s.holds r = true →
    exec (.arcDestroyGo r v) s = .next ((s.setLock {}).writeDestroy (v ||| 0x80000000))) ∧
  (∀ (r : Req) (p : Nat) (v : Word) (s : State),
    p ≤ 5 ∧ s.reachable r (0x330100 + 4 * p) = true ∧ s.holds r = true →
    exec (.arcDpWrite r p v) s = .next ((s.setLock {}).writeDp p v))

/-- Reads, writes and trims of volumes run. (R279, R282, R292, R293, R294, R301) -/
def Obligations.VolumeCompletes : Prop :=
  (∀ (id : Nat) (s : State) (c : Cmd),
    s.ready id 0x20 c = true →
    s.hostFree c = true →
    c.volZeros = false →
    exec (.volRead id) s = .next (s.done id 0x0100)) ∧
  (∀ (id : Nat) (s : State) (c : Cmd),
    s.ready id 0x20 c = true →
    s.hostFree c = true →
    (c.volZeros = true ∧ (c.f 12 4 = 0 ∨ 256 < c.f 12 4)) →
    exec (.volRead id) s = .next (s.done id 0x0105)) ∧
  (∀ (id : Nat) (s : State) (c : Cmd),
    s.ready id 0x20 c = true →
    s.hostFree c = true →
    c.volZeros = true ∧ c.f 12 4 ≠ 0 ∧ c.f 12 4 ≤ 256 ∧ s.volRefusal c.ctx.toNat (c.f 8 2) (c.f 16 8) (c.f 12 4) false ≠ 0 →
    exec (.volRead id) s = .next (s.done id (s.volRefusal c.ctx.toNat (c.f 8 2) (c.f 16 8) (c.f 12 4) false))) ∧
  (∀ (id : Nat) (s : State) (c : Cmd),
    s.ready id 0x20 c = true →
    s.hostFree c = true →
    c.volZeros = true ∧ c.f 12 4 ≠ 0 ∧ c.f 12 4 ≤ 256 ∧ s.volRefusal c.ctx.toNat (c.f 8 2) (c.f 16 8) (c.f 12 4) false = 0 →
    s.leafMiss (c.f 8 2) (c.f 16 8) (c.f 16 8 + c.f 12 4) = true →
    exec (.volRead id) s = .next ((s.fetchLeaves (c.f 8 2) (c.f 16 8) (c.f 16 8 + c.f 12 4)).phase id waitLeaf)) ∧
  (∀ (id : Nat) (s : State) (c : Cmd),
    s.ready id 0x20 c = true →
    s.hostFree c = true →
    c.volZeros = true ∧ c.f 12 4 ≠ 0 ∧ c.f 12 4 ≤ 256 ∧ s.volRefusal c.ctx.toNat (c.f 8 2) (c.f 16 8) (c.f 12 4) false = 0 →
    s.leafMiss (c.f 8 2) (c.f 16 8) (c.f 16 8 + c.f 12 4) = false →
    exec (.volRead id) s = .next ((s.touch (c.f 8 2) (c.f 16 8) (c.f 16 8 + c.f 12 4) false).volRead c)) ∧
  (∀ (id : Nat) (s : State) (c : Cmd),
    s.ready id 0x21 c = true →
    s.hostFree c = true →
    c.volZeros = false →
    exec (.volWrite id) s = .next (s.done id 0x0100)) ∧
  (∀ (id : Nat) (s : State) (c : Cmd),
    s.ready id 0x21 c = true →
    s.hostFree c = true →
    (c.volZeros = true ∧ (c.f 12 4 = 0 ∨ 256 < c.f 12 4)) →
    exec (.volWrite id) s = .next (s.done id 0x0105)) ∧
  (∀ (id : Nat) (s : State) (c : Cmd),
    s.ready id 0x21 c = true →
    s.hostFree c = true →
    c.volZeros = true ∧ c.f 12 4 ≠ 0 ∧ c.f 12 4 ≤ 256 ∧ s.writeRefusal c ≠ 0 →
    exec (.volWrite id) s = .next (s.done id (s.writeRefusal c))) ∧
  (∀ (id : Nat) (s : State) (c : Cmd),
    s.ready id 0x21 c = true →
    s.hostFree c = true →
    c.volZeros = true ∧ c.f 12 4 ≠ 0 ∧ c.f 12 4 ≤ 256 ∧ s.writeRefusal c = 0 →
    s.leafMiss (c.f 8 2) (c.f 16 8) (c.f 16 8 + c.f 12 4) = true →
    exec (.volWrite id) s = .next (((s.unlate c).fetchLeaves (c.f 8 2) (c.f 16 8) (c.f 16 8 + c.f 12 4)).phase id waitLeaf)) ∧
  (∀ (id : Nat) (s : State) (c : Cmd),
    s.ready id 0x21 c = true →
    s.hostFree c = true →
    c.volZeros = true ∧ c.f 12 4 ≠ 0 ∧ c.f 12 4 ≤ 256 ∧ s.writeRefusal c = 0 →
    s.leafMiss (c.f 8 2) (c.f 16 8) (c.f 16 8 + c.f 12 4) = false →
    exec (.volWrite id) s = .next (((s.unlate c).touch (c.f 8 2) (c.f 16 8) (c.f 16 8 + c.f 12 4) false).startWrite c)) ∧
  (∀ (id : Nat) (s : State) (c : Cmd),
    s.ready id 0x22 c = true →
    ((s.hif.cmds.any fun x => x.id < id && x.origin = c.origin && x.writesVol (c.f 8 2)) = false) →
    c.volZeros = true ∧ c.f 12 4 = 0 ∧ c.f 24 8 = 0 →
    exec (.volFlush id) s = .next (s.done id (s.volRefusal c.ctx.toNat (c.f 8 2) 0 0 false))) ∧
  (∀ (id : Nat) (s : State) (c : Cmd),
    s.ready id 0x22 c = true →
    ((s.hif.cmds.any fun x => x.id < id && x.origin = c.origin && x.writesVol (c.f 8 2)) = false) →
    c.volZeros = false →
    exec (.volFlush id) s = .next (s.done id 0x0100)) ∧
  (∀ (id : Nat) (s : State) (c : Cmd),
    s.ready id 0x22 c = true →
    ((s.hif.cmds.any fun x => x.id < id && x.origin = c.origin && x.writesVol (c.f 8 2)) = false) →
    (c.volZeros = true ∧ (c.f 12 4 ≠ 0 ∨ c.f 24 8 ≠ 0)) →
    exec (.volFlush id) s = .next (s.done id 0x0105)) ∧
  (∀ (id : Nat) (s : State) (c : Cmd),
    s.ready id 0x23 c = true →
    c.volZeros = false →
    exec (.volWriteZeroes id) s = .next (s.done id 0x0100)) ∧
  (∀ (id : Nat) (s : State) (c : Cmd),
    s.ready id 0x23 c = true →
    (c.volZeros = true ∧ (c.f 12 4 = 0 ∨ c.f 24 8 ≠ 0)) →
    exec (.volWriteZeroes id) s = .next (s.done id 0x0105)) ∧
  (∀ (id : Nat) (s : State) (c : Cmd),
    s.ready id 0x23 c = true →
    c.volZeros = true ∧ c.f 12 4 ≠ 0 ∧ c.f 24 8 = 0 ∧ s.volRefusal c.ctx.toNat (c.f 8 2) (c.f 16 8) (c.f 12 4) true ≠ 0 →
    exec (.volWriteZeroes id) s = .next (s.done id (s.volRefusal c.ctx.toNat (c.f 8 2) (c.f 16 8) (c.f 12 4) true))) ∧
  (∀ (id : Nat) (s : State) (c : Cmd),
    s.ready id 0x23 c = true →
    c.volZeros = true ∧ c.f 12 4 ≠ 0 ∧ c.f 24 8 = 0 ∧ s.volRefusal c.ctx.toNat (c.f 8 2) (c.f 16 8) (c.f 12 4) true = 0 →
    exec (.volWriteZeroes id) s = .next (if (s.arr (s.vol (c.f 8 2)).array).room 48 then (s.trim (c.f 8 2) 1 (c.f 16 8) (c.f 12 4)).complete id 0 (BitVec.ofNat 32 (c.f 12 4)) 0 else s.phase id waitSpace)) ∧
  (∀ (id : Nat) (s : State) (c : Cmd),
    s.ready id 0x24 c = true →
    c.volZeros = false →
    exec (.volDealloc id) s = .next (s.done id 0x0100)) ∧
  (∀ (id : Nat) (s : State) (c : Cmd),
    s.ready id 0x24 c = true →
    (c.volZeros = true ∧ (c.f 12 4 = 0 ∨ c.f 24 8 ≠ 0)) →
    exec (.volDealloc id) s = .next (s.done id 0x0105)) ∧
  (∀ (id : Nat) (s : State) (c : Cmd),
    s.ready id 0x24 c = true →
    c.volZeros = true ∧ c.f 12 4 ≠ 0 ∧ c.f 24 8 = 0 ∧ s.volRefusal c.ctx.toNat (c.f 8 2) (c.f 16 8) (c.f 12 4) false ≠ 0 →
    exec (.volDealloc id) s = .next (s.done id (s.volRefusal c.ctx.toNat (c.f 8 2) (c.f 16 8) (c.f 12 4) false))) ∧
  (∀ (id : Nat) (s : State) (c : Cmd),
    s.ready id 0x24 c = true →
    c.volZeros = true ∧ c.f 12 4 ≠ 0 ∧ c.f 24 8 = 0 ∧ s.volRefusal c.ctx.toNat (c.f 8 2) (c.f 16 8) (c.f 12 4) false = 0 →
    exec (.volDealloc id) s = .next (if (s.arr (s.vol (c.f 8 2)).array).room 48 then (s.trim (c.f 8 2) 2 (c.f 16 8) (c.f 12 4)).complete id 0 (BitVec.ofNat 32 (c.f 12 4)) 0 else s.phase id waitSpace)) ∧
  (∀ (id : Nat) (s : State) (c : Cmd),
    s.cmd? id = some c →
    c.op = 0x21 ∧ c.phase = waitSpace ∧ s.hostWaits c = false ∧ s.serving 0x21 = true ∧ s.heldR2t c = none →
    [3, 4, 6].contains (s.arr (s.vol (c.f 8 2)).array).state = true ∧ s.admits c.ctx.toNat (c.f 8 2) (c.f 12 4) = true ∧ s.spaceTaken id (s.vol (c.f 8 2)).array = false →
    exec (.writeCacheReserve id) s = .next (s.volWrite c)) ∧
  (∀ (id : Nat) (s : State) (c : Cmd) (conn cid : Nat),
    s.cmd? id = some c →
    c.op = 0x21 ∧ c.phase = waitSpace ∧ s.hostWaits c = false ∧ s.serving 0x21 = true ∧ s.heldR2t c = some (conn, cid) →
    [3, 4, 6].contains (s.arr (s.vol (c.f 8 2)).array).state = true ∧ s.cacheFull (s.vol (c.f 8 2)).array = false →
    exec (.writeCacheReserve id) s = .next (((s.phase id .running).sendR2t conn cid 8).pump id conn cid 8)) ∧
  (∀ (id : Nat) (s : State) (c : Cmd),
    s.cmd? id = some c →
    ((c.op = 0x23 ∨ c.op = 0x24) ∧ c.phase = waitSpace ∧ s.hostWaits c = false ∧ s.serving c.op = true) →
    [3, 4, 6].contains (s.arr (s.vol (c.f 8 2)).array).state = true ∧ (s.arr (s.vol (c.f 8 2)).array).room 48 = true →
    exec (.writeCacheReserve id) s = .next (s.trimNow (if c.op = 0x23 then 1 else 2) c)) ∧
  (∀ (id : Nat) (s : State) (c : Cmd),
    s.cmd? id = some c →
    c.phase = waitLeaf ∧ s.hostWaits c = false ∧ s.serving c.op = true ∧ c.op = 0x20 →
    s.lateRefusal (c.f 8 2) false = 0 →
    exec (.leafReadComplete id) s = .next (((s.touch (c.f 8 2) (c.f 16 8) (c.f 16 8 + c.f 12 4) false).phase id .fetched).volRead c)) ∧
  (∀ (id : Nat) (s : State) (c : Cmd),
    s.cmd? id = some c →
    c.phase = waitLeaf ∧ s.hostWaits c = false ∧ s.serving c.op = true ∧ c.op ≠ 0x20 →
    s.lateRefusal (c.f 8 2) true = 0 →
    exec (.leafReadComplete id) s = .next (((s.touch (c.f 8 2) (c.f 16 8) (c.f 16 8 + c.f 12 4) false).phase id .fetched).startWrite c)) ∧
  (∀ (id : Nat) (s : State) (c : Cmd),
    s.cmd? id = some c →
    c.phase = waitLeaf ∧ s.hostWaits c = false ∧ s.serving c.op = true ∧ c.op ≠ 0x20 →
    s.lateRefusal (c.f 8 2) true ≠ 0 →
    exec (.leafReadComplete id) s = .next (s.done id (s.lateRefusal (c.f 8 2) true))) ∧
  (∀ (id : Nat) (s : State) (c : Cmd),
    s.cmd? id = some c →
    c.phase = waitLeaf ∧ s.hostWaits c = false ∧ s.serving c.op = true ∧ c.op = 0x20 →
    s.lateRefusal (c.f 8 2) false ≠ 0 →
    exec (.leafReadComplete id) s = .next (s.done id (s.lateRefusal (c.f 8 2) false)))

/-- Each event on the media answers the state its rules give where its conditions hold: the stripes' opening, closing, commit and release, Harvest, the checkpoint, a member's time-out, loss and completed access, the rebuild's cursor and its commands, the reshape, the freeze at PWRFAIL_N, a sealed vault stream, and the end of a replay. (R265, R273, R280, R289, R298, R312, R316, R319, R325, R328, R332, R334) -/
def Obligations.MediaCompletes : Prop :=
  (∀ (a stream : Nat) (s : State) (i : Nat),
    s.arrWrites a = true ∧ (s.arr a).openOf stream = none ∧ s.streamNeeds a stream = true ∧ (s.arr a).opensRoom = true →
    s.nextSlot a = some i →
    exec (.stripeOpen a stream) s = .next ((s.openStripe a i stream).fillStream a stream)) ∧
  (∀ (a stream : Nat) (s : State) (i : Nat),
    (s.arr a).openOf stream = some i →
    s.arrWrites a = true ∧ ((s.arr a).stripe i).blocks ≠ [] ∧ s.elapsed ((s.arr a).stripe i).at_ (1000 * (s.arr a).closeUs) = true →
    exec (.stripeCloseTimeout a stream) s = .next (if s.comes (fun c => stream = 0 && s.fills a i c) then s else s.closeStripe a i)) ∧
  (∀ (a st : Nat) (s : State) (x : Arr) (w : Stripe),
    x = s.arr a →
    w = x.stripe st →
    s.arrWrites a = true ∧ w.state = 2 ∧ (x.geoOf st).k ≤ (s.writable a st).length ∧ (w.stream = 0 && x.olderHost st) = false →
    exec (.stripeCommit a st) s = .next ((((s.stripeWritten a st).commitStream a st w.stream).sealStripe a st).fillHost a)) ∧
  (∀ (a st : Nat) (s : State),
    s.arrWrites a = true ∧ 3 ≤ ((s.arr a).stripe st).state ∧ s.liveOf a st = [] ∧ (s.arr a).room 32 = true →
    exec (.stripeFree a st) s = .next ((fun t : State => if ((s.arr a).stripe st).lostOfs.isEmpty then t else t.writeSys a) (s.updArr a fun y => (y.updStripe st fun z => { gen := z.gen }).append (.stripeFree st ((s.arr a).stripe st).gen)))) ∧
  (∀ (a : Nat) (s : State) (i : Nat),
    s.victim a = some i →
    s.arrWrites a = true ∧ (s.arr a).state ≠ 6 →
    exec (.harvest a) s = .next ((s.updArr a fun y => y.updStripe i fun z => { z with state := 4 }).fillHarvest a)) ∧
  (∀ (a : Nat) (s : State) (t : State),
    s.arrWrites a = true →
    (ringBytes ≤ 2 * (s.arr a).journalUsed ∨ (s.arr a).ckptAt.toNat + 10000000000 ≤ s.alm ∨ s.pwr.phase = 3 ∧ (s.arr a).cache = []) →
    s.checkpoint? a = some t →
    exec (.mapCheckpoint a) s = .next (t)) ∧
  (∀ (n : Nat) (retryOk : Bool) (s : State),
    n < 64 ∧ (s.member n).works = true →
    exec (.memberCommandTimeout n retryOk) s = .next (if s.comes (fun i => match i with | .memberCommandCompletion m _ _ => m = n | _ => false) then s else if retryOk then (s.emit (.memberCmd n .abort)).emit (.memberReset n) else ((s.emit (.memberCmd n .abort)).emit (.memberReset n)).failMember n)) ∧
  (∀ (n blk : Nat) (mediaErr : Bool) (s : State),
    n < 64 ∧ (s.member n).works = true →
    mediaErr = false →
    exec (.memberCommandCompletion n blk mediaErr) s = .next (s.setMember n { s.member n with bad := put false (s.member n).bad blk false })) ∧
  (∀ (n blk : Nat) (mediaErr : Bool) (s : State) (x : Arr) (g : Geo) (i p e abn : Nat) (t : State),
    n < 64 ∧ (s.member n).works = true →
    mediaErr = true ∧ x = s.arr (s.member n).array →
    i = (blk - x.chunkBlk 0 0) / 16 ∧ g = x.geoOf i →
    g.posOf n = some p →
    e = (p + g.n - i % g.n) % g.n →
    abn = x.baseAbn i + 16 * e + (blk - x.chunkBlk 0 0) % 16 →
    t = s.setMember n { s.member n with bad := put false (s.member n).bad blk true } →
    exec (.memberCommandCompletion n blk mediaErr) s = .next (if x.chunkBlk 0 0 ≤ blk && s.memberUp (s.member n).array n && 3 ≤ (x.stripe i).state && e < g.k && !(s.liveIn (s.member n).array abn (abn + 1)).isEmpty then t.afterRead (s.member n).array (t.readAbn (s.member n).array abn) else t)) ∧
  (∀ (w : MemberLoss) (s : State) (n : Nat),
    w = .link n →
    n < 64 ∧ (s.member n).works = true →
    exec (.memberLinkDown w) s = .next (({ s with arc := { s.arc with up := put 0 s.arc.up (s.member n).dp.toNat (look 0 s.arc.up (s.member n).dp.toNat &&& ~~~(BitVec.ofNat 4 (2 ^ (s.member n).link))) } } : State).failMember n)) ∧
  (∀ (w : MemberLoss) (s : State) (n : Nat),
    w = .fatalStatus n →
    n < 64 ∧ (s.member n).works = true →
    exec (.memberLinkDown w) s = .next (s.failMember n)) ∧
  (∀ (id : Nat) (s : State) (c : Cmd),
    s.ready id 0x9C c = true →
    c.f 9 1 = 0 ∧ c.zeros [(14, 18)] = true ∧ c.f 8 1 ≤ 63 ∧ c.f 12 2 ≤ 4095 ∧ (s.arr (c.f 8 1)).rebuild.state < 2 →
    ((s.arr (c.f 8 1)).state = 4 ∨ (s.arr (c.f 8 1)).state = 5) →
    exec (.arrRebuildStart id) s = .next ((s.phase id .checking).queueCheck .arc (.arrRebuild id))) ∧
  (∀ (id : Nat) (s : State) (c : Cmd),
    s.ready id 0x9C c = true →
    c.f 9 1 = 1 ∧ c.zeros [(14, 18)] = true ∧ c.f 8 1 ≤ 63 ∧ c.f 12 2 ≤ 4095 ∧ (s.arr (c.f 8 1)).rebuild.state = 2 →
    ((s.arr (c.f 8 1)).state = 4 ∨ (s.arr (c.f 8 1)).state = 5) →
    exec (.arrRebuildPause id) s = .next (((s.setRbRate (c.f 8 1) (c.f 12 2)).updArr (c.f 8 1) fun x => { x with rebuild := { x.rebuild with state := 3 } }).complete id 0 0 (BitVec.ofNat 32 (s.arr (c.f 8 1)).rebuild.member))) ∧
  (∀ (id : Nat) (s : State) (c : Cmd),
    s.ready id 0x9C c = true →
    c.f 9 1 = 2 ∧ c.zeros [(14, 18)] = true ∧ c.f 8 1 ≤ 63 ∧ c.f 12 2 ≤ 4095 ∧ (s.arr (c.f 8 1)).rebuild.state = 3 →
    ((s.arr (c.f 8 1)).state = 4 ∨ (s.arr (c.f 8 1)).state = 5) →
    exec (.arrRebuildResume id) s = .next (((s.setRbRate (c.f 8 1) (c.f 12 2)).updArr (c.f 8 1) fun x => { x with rebuild := { x.rebuild with state := 2 } }).complete id 0 0 (BitVec.ofNat 32 (s.arr (c.f 8 1)).rebuild.member))) ∧
  (∀ (a : Nat) (s : State) (x : Arr) (writes : Bool) (r t u : State),
    s.arr a = x →
    (a < 64 ∧ x.rebuild.state = 2 ∧ (x.state = 4 ∨ x.state = 5) ∧ s.arcRuns = true) →
    ((x.stripe x.rebuild.cur).state = 2 && !(x.stripe x.rebuild.cur).rebuilt) = false →
    writes = (3 ≤ (x.stripe x.rebuild.cur).state && !(x.stripe x.rebuild.cur).rebuilt) →
    r = (match (if writes then (x.geoOf x.rebuild.cur).posOf x.rebuild.old else none) with | some p => (s.readSources a x.rebuild.cur ((p + (x.geoOf x.rebuild.cur).n - x.rebuild.cur % (x.geoOf x.rebuild.cur).n) % (x.geoOf x.rebuild.cur).n) (x.stripe x.rebuild.cur)).fillTarget a x.rebuild.cur | none => if writes then s.fillTarget a x.rebuild.cur else s) →
    (t = r.updArr a fun y => { y with rebuild := { y.rebuild with cur := y.rebuild.cur + 1, since := if writes then y.rebuild.since + 65536 else y.rebuild.since } }) →
    u = (if recordBytes ≤ (t.arr a).rebuild.since then t.writeProgress a else t) →
    exec (.rebuildCursorStep a) s = .next (if x.slotsNeeded ≤ x.rebuild.cur + 1 then u.endRebuild a else u)) ∧
  (∀ (id : Nat) (s : State) (c : Cmd),
    s.ready id 0x9D c = true →
    c.zeros [(11, 1), (14, 18), (68, 28)] = true ∧ c.f 8 1 ≤ 63 ∧ c.f 12 2 ≤ 4095 →
    (s.arr (c.f 8 1)).reshaping = false ∧ (s.arr (c.f 8 1)).rebuild.state < 2 ∧ (s.arr (c.f 8 1)).state = 3 →
    exec (.arrReshape id) s = .next ((s.phase id .checking).queueCheck .arc (.arrReshape id))) ∧
  (∀ (a : Nat) (s : State) (x : Arr),
    s.arr a = x →
    s.arrWrites a = true ∧ x.state ≠ 6 ∧ x.reshape.state = 1 ∧ x.reshape.since < recordBytes ∧ x.reshape.b < x.s →
    (x.stripe x.reshape.b).state = 0 →
    exec (.reshapeStep a) s = .next (s.updArr a fun y => { y with reshape := { y.reshape with b := y.reshape.b + 1 } })) ∧
  (∀ (a : Nat) (s : State) (x : Arr),
    s.arr a = x →
    s.arrWrites a = true ∧ x.state ≠ 6 ∧ x.reshape.state = 1 ∧ x.reshape.since < recordBytes ∧ x.reshape.b < x.s →
    (x.stripe x.reshape.b).state = 3 →
    exec (.reshapeStep a) s = .next ((s.updArr a fun y => y.updStripe x.reshape.b fun z => { z with state := 4 }).fillHarvest a)) ∧
  (∀ (a : Nat) (s : State) (x : Arr) (t : State),
    s.arr a = x →
    s.arrWrites a = true ∧ x.state ≠ 6 ∧ x.reshape.state = 1 ∧ x.reshape.since < recordBytes ∧ x.s ≤ x.reshape.b →
    ((s.updArr a fun y => { y with reshape := { y.reshape with state := 3 } }).advanceDurable a x.s = some t) →
    exec (.reshapeStep a) s = .next (t)) ∧
  (∀ (a : Nat) (s : State) (x : Arr) (t : State),
    s.arr a = x →
    s.arrWrites a = true ∧ x.state ≠ 6 ∧ x.reshape.state = 1 ∧ recordBytes ≤ x.reshape.since →
    s.advanceDurable a x.reshape.b = some t →
    exec (.reshapeStep a) s = .next (t)) ∧
  (∀ (a : Nat) (s : State) (x : Arr) (gone : List Nat) (s1 s2 s3 s4 : State),
    s.arr a = x →
    (a < 64 ∧ (x.state = 3 ∨ x.state = 4) ∧ x.reshape.state = 3 ∧ s.arcRuns = true) →
    (gone = (x.members ++ if 2 ≤ x.rebuild.state && (x.reshape.rename x.rebuild.old).isNone then [x.rebuild.member] else []).filter fun y => !x.reshape.pos.contains y) →
    (s1 = gone.foldl (fun (y : State) z => if [3, 5].contains (y.member z).state then y.eraseLabels z else y) s) →
    s2 = s1.updArr a Arr.finishReshape →
    (s3 = x.reshape.pos.zipIdx.foldl (fun (y : State) e => y.updMember e.1 fun w => if w.state = 3 then { w with pos := e.2 } else w) s2) →
    (s4 = (if 2 ≤ (s3.arr a).rebuild.state then s3.updMember (s3.arr a).rebuild.member fun w => { w with pos := (s3.arr a).rebuild.pos } else s3)) →
    exec (.reshapeFinish a) s = .next (((((s4.judge a).writeLabels a false).writeSys a).writeProgress a).nextRebuild a)) ∧
  (∀ (s : State) (v : State),
    s.arc.pf = 0 ∧ (look {} s.evc.pins 0).flt = false →
    (v = (List.range 64).foldl (fun (y : State) a => y.freezeArr a) s) →
    exec .freeze s = .next (({ v with arc := { v.arc with pf := 1, freezeAlm := s.clk.alm }, net := { v.net with conns := [], ctrls := [] } }.onTiles 0 fun t => { t with gated := true }).settleVault)) ∧
  (∀ (a n : Nat) (s : State) (x : Arr) (v : Nat) (sl : List (List Byte)),
    s.arr a = x →
    x.streams.findIdx? (· = n) = some v →
    s.arc.pf = 1 ∧ a < 64 ∧ s.memberUp a n = true ∧ s.vaulted a = true ∧ x.seals.contains n = false →
    sl = x.imageSlots v →
    exec (.vaultSeal a n) s = .next ((((s.writeMember n (imageBlk 0) sl.flatten).writeMember n sealBlk (sealBytes (x.vaultHdr s.arc.freezeAlm v) sl)).updArr a fun y => { y with seals := y.seals ++ [n] }).settleVault)) ∧
  (∀ (a : Nat) (s : State),
    a < 64 ∧ (s.arr a).state = 2 ∧ s.arcRuns = true ∧ (s.arr a).cmd = none →
    exec (.replayEnd a) s = .next ((s.replay a).bringUp a)) ∧
  (∀ (a : Nat) (s : State) (id : Nat),
    a < 64 ∧ (s.arr a).state = 2 ∧ s.arcRuns = true →
    (s.arr a).cmd = some id →
    exec (.replayEnd a) s = .next (((s.replay a).bringUp a).done id 0))

/-- Each row of the ports answers the state its rules give: a link's change, an uncorrectable codeword, a bad segment, an ARP request, an event message and its FIFO, a port write; a subsystem's and an export's commands up to their check, and their ends; a connection's opening, its end, and the keep-alive timer's. (R376, R377, R379, R380, R381, R382, R387, R388, R389, R391) -/
def Obligations.PortCompletes : Prop :=
  (∀ (port : Nat) (lanes : BitVec 4) (s : State),
    s.netp = true ∧ port < 2 ∧ s.ungated = true →
    (modeLanes (s.port port).mode ≠ 0 && lanes &&& modeLanes (s.port port).mode = modeLanes (s.port port).mode) = (s.port port).link →
    exec (.netLinkChange port lanes) s = .next (s.updPort port fun x => { x with lanes := lanes &&& modeLanes (s.port port).mode, link := (s.port port).link })) ∧
  (∀ (port : Nat) (lanes : BitVec 4) (s : State),
    s.netp = true ∧ port < 2 ∧ s.ungated = true →
    modeLanes (s.port port).mode ≠ 0 ∧ lanes &&& modeLanes (s.port port).mode = modeLanes (s.port port).mode ∧ (s.port port).link = false →
    exec (.netLinkChange port lanes) s = .next ((s.updPort port fun x => { x with lanes := lanes &&& modeLanes (s.port port).mode, link := true }).raise 82)) ∧
  (∀ (port : Nat) (s : State),
    s.netp = true ∧ port < 2 ∧ s.ungated = true ∧ (s.port port).mode ≠ 0 →
    exec (.uncorrectableFecCodeword port) s = .next (s.updPort port fun x => { x with uncorr := satInc x.uncorr })) ∧
  (∀ (port : Nat) (s : State),
    s.portOpen port = true →
    exec (.tcpSegmentChecksumError port) s = .next (s.updPort port fun x => { x with badSegs := x.badSegs + 1 })) ∧
  (∀ (port ifc : Nat) (s : State),
    s.portOpen port = true ∧ s.ifOn port ifc = true →
    exec (.arpRequest port ifc) s = .next (s.emit (.arpReply port ifc))) ∧
  (∀ (port : Nat) (tx : Bool) (msgType : BitVec 4) (seqId : BitVec 16) (s : State),
    s.portOpen port = true ∧ msgType.toNat < 4 ∧ s.net.fifo.length < 64 →
    exec (.ptpEventMessage port tx msgType seqId) s = .next ({ s with net := { s.net with fifo := s.net.fifo ++ [{ port := port, tx := tx, msgType := msgType, seqId := seqId, ts := s.clk.alm }] } })) ∧
  (∀ (port : Nat) (tx : Bool) (msgType : BitVec 4) (seqId : BitVec 16) (s : State),
    s.portOpen port = true ∧ msgType.toNat < 4 ∧ 64 ≤ s.net.fifo.length →
    exec (.ptpEventMessage port tx msgType seqId) s = .next (s)) ∧
  (∀ (r : Req) (v : Word) (s : State),
    s.reachable r 0x35013C = true →
    exec (.netTsPop r v) s = .next (s.writeTsPop (v ||| 1))) ∧
  (∀ (r : Req) (p : Nat) (v : Word) (s : State),
    p < 2 ∧ s.reachable r (0x350100 + 4 * p) = true →
    exec (.netPortWrite r p v) s = .next (s.writeNetPort p v)) ∧
  (∀ (id : Nat) (s : State) (c : Cmd),
    s.ready id 0xA0 c = true →
    s.hostWaits c = false →
    c.zeros [(11, 1), (14, 2), (24, 8)] = true ∧ c.f 10 1 = 0 ∧ c.f 8 2 < 4096 ∧ c.f 12 2 ≠ 0 ∧ c.f 12 2 ≤ 4096 ∧ c.f 16 8 % 64 = 0 →
    s.hostFails c.fn (c.f 16 8) 4352 = false ∧ (s.subsys (c.f 8 2)).en = false →
    exec (.netSubsysEnable id) s = .next ((s.phase id .checking).queueCheck .net (.netSubsys id))) ∧
  (∀ (id : Nat) (s : State) (c : Cmd),
    s.ready id 0xA0 c = true →
    c.zeros [(11, 1), (14, 2), (24, 8)] = true ∧ c.f 10 1 = 1 ∧ c.f 8 2 < 4096 →
    (s.subsys (c.f 8 2)).en = true ∧ s.exportsOf (c.f 8 2) = [] →
    exec (.netSubsysDisable id) s = .next ((((s.net.conns.filter fun e => e.2.state = 3 && e.2.part = c.f 8 2).foldl (fun (y : State) e => (y.closeConn e.1).emit (.tcpClose e.1)) s).setSubsys (c.f 8 2) {}).done id 0)) ∧
  (∀ (id : Nat) (s : State) (c : Cmd),
    s.ready id 0xA1 c = true →
    c.zeros [(11, 1), (16, 16)] = true ∧ c.f 10 1 = 0 ∧ c.f 8 2 < 16384 ∧ c.f 12 4 ≠ 0 ∧ c.f 12 4 ≤ 1024 ∧ (s.vol (c.f 8 2)).exported = none →
    exec (.netExport id) s = .next ((s.phase id .checking).queueCheck .net (.netExport id))) ∧
  (∀ (id : Nat) (s : State) (c : Cmd),
    s.ready id 0xA1 c = true →
    c.zeros [(11, 1), (16, 16)] = true ∧ c.f 10 1 = 1 ∧ c.f 8 2 < 16384 ∧ c.f 12 4 ≠ 0 ∧ c.f 12 4 ≤ 1024 →
    (s.vol (c.f 8 2)).exported.isSome = true ∧ (s.vol (c.f 8 2)).unexporting = none →
    exec (.netUnexport id) s = .next (((s.phase id .running).updVol (c.f 8 2) fun x => { x with unexporting := some id }).settleExports)) ∧
  (∀ (port ifc dport : Nat) (syn : Syn) (s : State),
    s.portOpen port = true ∧ s.ifOn port ifc = true →
    (dport = 4420 ∧ (s.net.conns.filter fun e => e.2.state ≠ 0 && e.2.port = port).length < 2048) →
    ((syn.target.any fun p => (s.subsys p).maxConn ≤ (s.net.conns.filter fun e => e.2.state = 3 && e.2.part = p).length) = false) →
    exec (.tcpSyn port ifc dport syn) s = .next ({ s.free.2 with net := { s.net with conns := put {} s.net.conns s.net.nextConn { state := 1, port := port, ifc := ifc, mac := syn.mac, opts := syn.opts }, nextConn := s.net.nextConn + 1 } }.emit (.tcpSynAck s.net.nextConn port ifc syn.mac (s.synOpts port ifc syn.opts)))) ∧
  (∀ (port ifc dport : Nat) (syn : Syn) (s : State),
    s.portOpen port = true ∧ s.ifOn port ifc = true →
    dport ≠ 4420 →
    exec (.tcpSyn port ifc dport syn) s = .next (s.emit (.tcpRst port))) ∧
  (∀ (c : Nat) (s : State),
    (s.conn c).state ≠ 0 →
    exec (.tcpRstOrFin c) s = .next (s.closeConn c)) ∧
  (∀ (c pfv hpda : Nat) (hdgst ddgst : Bool) (maxr2t : Nat) (s : State),
    s.pduCan c = true ∧ (s.conn c).state = 1 ∧ pfv = 0 ∧ hpda ≤ 31 →
    exec (.icreq c pfv hpda hdgst ddgst maxr2t) s = .next ((s.updConn c fun x => { x with state := 2, hdgst := hdgst, ddgst := ddgst, hpda := hpda, maxr2t := maxr2t }).emit (.icResp c hdgst ddgst 0 131072))) ∧
  (∀ (c : Nat) (s : State),
    s.pduCan c = true →
    exec (.h2ctermreq c) s = .next (((s.netBytes c 24).closeConn c).emit (.tcpClose c))) ∧
  (∀ (c : Nat) (bad : BadPdu) (s : State),
    s.pduCan c = true ∧ (match bad with | .type n => !([0, 2, 4, 6]).contains n | .field => true | .headerDigest => (s.conn c).hdgst) = true →
    exec (.unsupportedPdu c bad) s = .next (s.fatal c (pduFes bad))) ∧
  (∀ (cntl : Nat) (s : State),
    (look {} s.net.ctrls cntl).live = true ∧ (look {} s.net.ctrls cntl).kato ≠ 0 →
    s.elapsed (look {} s.net.ctrls cntl).heardAt (1000000 * (look {} s.net.ctrls cntl).kato) = true →
    exec (.keepAliveTimeout cntl) s = .next (if s.comes (s.adminOf cntl) then s else let s1 := (s.connsOf cntl).foldl (fun (y : State) k => (y.dropConn k).emit (.tcpClose k)) s; { s1 with net := { s1.net with ctrls := put {} s1.net.ctrls cntl {} } }))

/-- A capsule that its connection takes is answered: the Connect of an enabled subsystem; on the admin queue the properties, Identify, the log pages and Keep Alive; on an I/O queue the reads, writes, flushes, zeroes and deallocations of an exported volume. An opcode the device does not handle is refused as invalid; data of a paced write that answers its R2T is recorded. (R379, R381, R383, R384, R385, R387, R388) -/
def Obligations.NvmeCompletes : Prop :=
  (∀ (c cid qid cntlid : Nat) (hostnqn subnqn : List Byte) (prm : ConnectParams) (s : State) (y : State) (p : Nat),
    (s.pduCan c = true ∧ s.portCmds (s.conn c).port < 16384 ∧ s.pwr.ps ≠ 2 ∧ (s.conn c).state = 2 ∧ (s.connCmds c).any (fun e => e.origin = .net c cid) = false) →
    y = s.capsuleCounted c 1024 →
    prm.dataOk = true ∧ (y.conn c).state = 2 ∧ prm.sqsize ≤ 127 →
    y.connectRefusal qid cntlid (nqnName hostnqn) (nqnName subnqn) = none ∧ qid ≠ 0 →
    (p = ((y.net.subsys.find? fun e => e.2.en && e.2.nqn = nqnName subnqn).map (·.1)).getD 0) →
    exec (.connect c cid qid cntlid hostnqn subnqn prm) s = .next ((y.updConn c fun x => { x with state := 3, part := p, qid := qid, cntl := cntlid, sqsize := prm.sqsize }).capsule c cid (BitVec.ofNat 64 cntlid) (0, 0, false))) ∧
  (∀ (c cid qid cntlid : Nat) (hostnqn subnqn : List Byte) (prm : ConnectParams) (s : State) (y : State) (p : Nat),
    (s.pduCan c = true ∧ s.portCmds (s.conn c).port < 16384 ∧ s.pwr.ps ≠ 2 ∧ (s.conn c).state = 2 ∧ (s.connCmds c).any (fun e => e.origin = .net c cid) = false) →
    y = s.capsuleCounted c 1024 →
    prm.dataOk = true ∧ (y.conn c).state = 2 ∧ prm.sqsize ≤ 31 →
    y.connectRefusal qid cntlid (nqnName hostnqn) (nqnName subnqn) = none ∧ qid = 0 →
    (p = ((y.net.subsys.find? fun e => e.2.en && e.2.nqn = nqnName subnqn).map (·.1)).getD 0) →
    exec (.connect c cid qid cntlid hostnqn subnqn prm) s = .next (let y1 := y.updConn c fun x => { x with state := 3, part := p, qid := 0, cntl := y.net.nextCntl, sqsize := prm.sqsize }; { y1 with net := { y1.net with ctrls := put {} y1.net.ctrls y.net.nextCntl { live := true, part := p, hostnqn := nqnName hostnqn, kato := prm.kato, heardAt := y1.clk.alm }, nextCntl := y.net.nextCntl + 1 } }.capsule c cid (BitVec.ofNat 64 y.net.nextCntl) (0, 0, false))) ∧
  (∀ (c cid ofs : Nat) (s : State) (v : DWord),
    s.capsuleOk c cid true = true →
    property ((s.capsuleCounted c 0).ctrlOf c) ofs = some v →
    exec (.propertyGet c cid ofs) s = .next ((s.capsuleCounted c 0).capsule c cid v (0, 0, false))) ∧
  (∀ (c cid ofs : Nat) (v : DWord) (s : State),
    s.capsuleOk c cid true = true →
    ofs = 0x14 →
    exec (.propertySet c cid ofs v) s = .next (let y := s.capsuleCounted c 0; ({ y with net := { y.net with ctrls := upd {} y.net.ctrls (y.conn c).cntl fun x => { x with cc := v.setWidth 32 } } }).capsule c cid 0 (0, 0, false))) ∧
  (∀ (c cid cns nsid : Nat) (s : State) (y : State),
    s.capsuleOk c cid true = true →
    y = s.capsuleCounted c 0 →
    cns = 1 →
    exec (.identify c cid cns nsid) s = .next (({ y.sendData c cid (y.identifyCtrl c) with freeCtr := y.freeCtr + 1 }).capsule c cid 0 (0, 0, false))) ∧
  (∀ (c cid cns nsid : Nat) (s : State) (y : State) (v : Nat),
    s.capsuleOk c cid true = true →
    y = s.capsuleCounted c 0 →
    cns = 0 →
    y.nsVol (y.conn c).part nsid = some v →
    exec (.identify c cid cns nsid) s = .next (({ y.sendData c cid (y.identifyNs v) with freeCtr := y.freeCtr + 1 }).capsule c cid 0 (0, 0, false))) ∧
  (∀ (c cid lid : Nat) (s : State) (y : State),
    s.capsuleOk c cid true = true →
    y = s.capsuleCounted c 0 →
    (lid = 2 ∨ lid = 3) →
    exec (.getLogPage c cid lid) s = .next (({ y.sendData c cid (undefinedBytes y.freeCtr 512) with freeCtr := y.freeCtr + 1 }).capsule c cid 0 (0, 0, false))) ∧
  (∀ (c cid lid : Nat) (s : State) (y : State),
    s.capsuleOk c cid true = true →
    y = s.capsuleCounted c 0 →
    lid = 1 →
    exec (.getLogPage c cid lid) s = .next (({ y.sendData c cid (undefinedBytes y.freeCtr 64) with freeCtr := y.freeCtr + 1 }).capsule c cid 0 (0, 0, false))) ∧
  (∀ (c cid : Nat) (s : State),
    s.capsuleOk c cid true = true →
    exec (.keepAlive c cid) s = .next ((s.capsuleCounted c 0).capsule c cid 0 (0, 0, false))) ∧
  (∀ (c cid op : Nat) (s : State),
    s.capsuleOk c cid true = true →
    op < 256 ∧ [0x02, 0x06, 0x18, 0x7F].contains op = false →
    exec (.invalidCommandOpcode c cid op) s = .next ((s.capsuleCounted c 0).capsule c cid 0 (0, 0x01, true))) ∧
  (∀ (c cid op : Nat) (s : State),
    s.capsuleOk c cid false = true →
    op < 256 ∧ [0x00, 0x01, 0x02, 0x08, 0x09, 0x7F].contains op = false →
    exec (.invalidCommandOpcode c cid op) s = .next ((s.capsuleCounted c 0).capsule c cid 0 (0, 0x01, true))) ∧
  (∀ (c cid nsid slba nlb : Nat) (s : State) (y : State) (v : Nat) (z : State) (k : Cmd),
    s.capsuleOk c cid false = true →
    y = s.capsuleCounted c 0 →
    y.nsVol (y.conn c).part nsid = some v →
    z = (y.netCmd c cid 0x20 (volEntry 0x20 v (nlb + 1) slba)).1 →
    k = (y.netCmd c cid 0x20 (volEntry 0x20 v (nlb + 1) slba)).2 →
    k.volZeros = true ∧ k.f 12 4 ≠ 0 ∧ k.f 12 4 ≤ 256 ∧ z.volRefusal k.ctx.toNat (k.f 8 2) (k.f 16 8) (k.f 12 4) false = 0 →
    z.leafMiss (k.f 8 2) (k.f 16 8) (k.f 16 8 + k.f 12 4) = false →
    exec (.nvmeRead c cid nsid slba nlb) s = .next ((z.touch (k.f 8 2) (k.f 16 8) (k.f 16 8 + k.f 12 4) false).volRead k)) ∧
  (∀ (c cid nsid slba nlb : Nat) (capsule : List Byte) (dataOk : Bool) (s : State) (y : State) (v : Nat) (z : State) (k : Cmd),
    s.capsuleOk c cid false = true →
    capsule = [] →
    y = s.capsuleCounted c 0 →
    y.nsVol (y.conn c).part nsid = some v →
    (z = (y.netCmd c cid 0x21 (volEntry 0x21 v (nlb + 1) slba)).1.updConn c fun x => { x with writes := x.writes.filter (fun q => q.cid ≠ cid) ++ [{ cid := cid, vol := v, lba := slba, nblk := nlb + 1, cmd := (y.netCmd c cid 0x21 (volEntry 0x21 v (nlb + 1) slba)).2.id, parts := [], r2t := 0, reserved := 0, recorded := 0, bad := false }] }) →
    k = (y.netCmd c cid 0x21 (volEntry 0x21 v (nlb + 1) slba)).2 →
    ((z.beginWrite k).cmd? k.id).isSome = true →
    exec (.nvmeWrite c cid nsid slba nlb capsule dataOk) s = .next (z.beginWrite k)) ∧
  (∀ (c cid nsid slba nlb : Nat) (capsule : List Byte) (dataOk : Bool) (s : State) (y : State) (v : Nat) (z : State) (k : Cmd),
    s.capsuleOk c cid false = true →
    capsule ≠ [] ∧ dataOk = true ∧ capsule.length = 4096 * (nlb + 1) ∧ capsule.length ≤ 8192 →
    y = s.capsuleCounted c capsule.length →
    y.nsVol (y.conn c).part nsid = some v →
    z = (y.netCmd c cid 0x21 (volEntry 0x21 v (nlb + 1) slba ++ capsule)).1 →
    k = (y.netCmd c cid 0x21 (volEntry 0x21 v (nlb + 1) slba ++ capsule)).2 →
    ((z.beginWrite k).cmd? k.id).isSome = true →
    exec (.nvmeWrite c cid nsid slba nlb capsule dataOk) s = .next (z.beginWrite k)) ∧
  (∀ (c cid nsid : Nat) (s : State) (y : State) (v : Nat) (z : State) (k : Cmd),
    s.capsuleOk c cid false = true →
    y = s.capsuleCounted c 0 →
    y.nsVol (y.conn c).part nsid = some v →
    z = (y.netCmd c cid 0x22 (volEntry 0x22 v 0 0)).1 →
    k = (y.netCmd c cid 0x22 (volEntry 0x22 v 0 0)).2 →
    exec (.nvmeFlush c cid nsid) s = .next (z.done k.id (z.volRefusal k.ctx.toNat v 0 0 false))) ∧
  (∀ (c cid nsid slba nlb : Nat) (s : State) (y : State) (v : Nat) (z : State) (k : Cmd),
    s.capsuleOk c cid false = true →
    y = s.capsuleCounted c 0 →
    y.nsVol (y.conn c).part nsid = some v →
    z = (y.netCmd c cid 0x23 (volEntry 0x23 v (nlb + 1) slba)).1 →
    k = (y.netCmd c cid 0x23 (volEntry 0x23 v (nlb + 1) slba)).2 →
    k.volZeros = true ∧ k.f 12 4 ≠ 0 ∧ k.f 24 8 = 0 ∧ z.volRefusal k.ctx.toNat (k.f 8 2) (k.f 16 8) (k.f 12 4) true = 0 →
    exec (.nvmeWriteZeroes c cid nsid slba nlb) s = .next (if (z.arr (z.vol (k.f 8 2)).array).room 48 then (z.trim (k.f 8 2) 1 (k.f 16 8) (k.f 12 4)).complete k.id 0 (BitVec.ofNat 32 (k.f 12 4)) 0 else z.phase k.id waitSpace)) ∧
  (∀ (c cid nsid : Nat) (ad : Bool) (dsm : DsmData) (s : State) (y : State) (v : Nat) (z : State) (k : Cmd),
    s.capsuleOk c cid false = true →
    ad = true ∧ dsm.dataOk = true ∧ dsm.ranges ≠ [] ∧ dsm.ranges.length ≤ 256 →
    ((s.nsVol (s.conn c).part nsid).any (fun v => !(s.arr (s.vol v).array).room (48 * dsm.ranges.length)) = false) →
    y = s.capsuleCounted c (16 * dsm.ranges.length) →
    y.nsVol (y.conn c).part nsid = some v →
    z = (y.netCmd c cid 0x24 (volEntry 0x24 v 0 0)).1 →
    k = (y.netCmd c cid 0x24 (volEntry 0x24 v 0 0)).2 →
    exec (.datasetManagement c cid nsid ad dsm) s = .next ((z.dealloc k.ctx.toNat v dsm.ranges).1.done k.id (z.dealloc k.ctx.toNat v dsm.ranges).2)) ∧
  (∀ (c cid ofs : Nat) (data : List Byte) (hdrOk dataOk : Bool) (s : State) (w : NetWrite) (s2 s3 : State),
    s.pduCan c = true ∧ s.pwr.ps ≠ 2 ∧ hdrOk = true ∧ (s.conn c).state = 3 →
    (s.conn c).write? cid = some w ∧ s.mirrorHolds (s.vol w.vol).array = false →
    (w.fits ofs data.length = true ∧ ((s.netBytes c ((s.conn c).pduLen 24 4 data.length)).cmd? w.cmd).any (fun k => !(s.netBytes c ((s.conn c).pduLen 24 4 data.length)).current k.ctx k.gen) = false) →
    (s2 = (s.netBytes c ((s.conn c).pduLen 24 4 data.length)).updWrite c cid fun y => { y with parts := y.parts ++ [(ofs, data)], bad := y.bad || !dataOk }) →
    s3 = ((s2.recordPieces c cid 5).sendR2t c cid 8).pump w.cmd c cid 8 →
    (((s3.conn c).write? cid).any (fun y => y.bad && y.outstanding = 0) = false) →
    exec (.h2cdata c cid ofs data hdrOk dataOk) s = .next (s3))

/-- A millisecond boundary that the Almanac has reached counts every partition's pages and banks; the next Calends, once the Almanac has reached it, counts the boundaries up to it and the tiles and forms the batch of that moment; a batch held is written at P's slot, P advances and event 78 is raised; a write of C up to P frees slots, and one past P is discarded. (R415, R416, R417, R418, R419) -/
def Obligations.MeteringCompletes : Prop :=
  (∀ (s : State),
    s.clk.msDone < s.alm / 1000000 →
    exec .millisecondBoundary s = .next ((({ s with clk := { s.clk with msDone := s.clk.msDone + 1 } } : State).metered.foldl (fun (x : State) e => (x.meter e 2 (x.pagesUsed e)).meter e 6 (x.banksOf e).length) { s with clk := { s.clk with msDone := s.clk.msDone + 1 } }))) ∧
  (∀ (s : State),
    60000000000 * (s.clk.calDone + 1) ≤ s.alm →
    exec .calends s = .next (((List.range 18).foldl (fun (x : State) t => x.countTile t (60000000000 * (s.clk.calDone + 1))) (({ s with clk := { s.clk with calDone := s.clk.calDone + 1 } } : State).countTo (60000 * (s.clk.calDone + 1)))).formBatch (BitVec.ofNat 64 (60000000000 * (s.clk.calDone + 1))))) ∧
  (∀ (s : State) (b : Batch) (rest : List Batch),
    s.trust.batches = b :: rest →
    s.trust.mtrEn = true ∧ (s.trust.mtrP - s.trust.mtrC).toNat ≠ 2 ^ s.trust.mtrLog.toNat ∧ s.canSend 0 = true →
    exec .meterBatchWrite s = .next (({ s.hostWrite 0 (s.trust.mtrBase.toNat + s.trust.mtrP.toNat % 2 ^ s.trust.mtrLog.toNat * 0x100000) (batchSlot b s.freeCtr) with freeCtr := s.freeCtr + 1, trust := { s.trust with batches := rest, mtrP := s.trust.mtrP + 1 } }).raise 78)) ∧
  (∀ (r : Req) (v : Word) (s : State),
    s.reachable r 0x50810 = true →
    (v - s.trust.mtrC).toNat ≤ (s.trust.mtrP - s.trust.mtrC).toNat →
    exec (.trustMtrCWrite r v) s = .next ({ s with trust := { s.trust with mtrC := v } })) ∧
  (∀ (r : Req) (v : Word) (s : State),
    s.reachable r 0x50810 = true →
    ¬ (v - s.trust.mtrC).toNat ≤ (s.trust.mtrP - s.trust.mtrC).toNat →
    exec (.trustMtrCWrite r v) s = .next (s))

/-- Training with every lane locked and the right peer brings a link UP, with seven lanes UP7, with a wrong peer DOWN in CONFLICT; the third attempt without a lock fails it; a silent link trains again; a lane error takes one lane out; RETRAIN and OFFL writes act as PLK_LINK says. (R451, R452, R453, R454, R467) -/
def Obligations.PeerLinkCompletes : Prop :=
  (∀ (k : Nat) (lanes : BitVec 8) (peer : BitVec 3) (s : State),
    k < s.plkCount ∧ (s.link k).state = 1 ∧ popCount lanes = 8 ∧ peer = s.pwr.devid ^^^ linkMask k →
    exec (.linkTrainingComplete k lanes peer) s = .next (s.setLink k { s.link k with state := 2, insvc := lanes, peer := peer, tries := 0 })) ∧
  (∀ (k : Nat) (lanes : BitVec 8) (peer : BitVec 3) (s : State),
    k < s.plkCount ∧ (s.link k).state = 1 ∧ popCount lanes = 7 ∧ peer = s.pwr.devid ^^^ linkMask k →
    exec (.linkTrainingComplete k lanes peer) s = .next (s.setLink k { s.link k with state := 3, insvc := lanes, peer := peer, tries := 0 })) ∧
  (∀ (k : Nat) (lanes : BitVec 8) (peer : BitVec 3) (s : State),
    k < s.plkCount ∧ (s.link k).state = 1 ∧ 7 ≤ popCount lanes ∧ peer ≠ s.pwr.devid ^^^ linkMask k →
    exec (.linkTrainingComplete k lanes peer) s = .next (s.setLink k { s.link k with state := 0, conflict := true, tries := 0 })) ∧
  (∀ (k : Nat) (s : State),
    k < s.plkCount ∧ (s.link k).state = 1 ∧ s.elapsed (s.link k).trainAt 20000000 = true ∧ 2 ≤ (s.link k).tries →
    exec (.linkTrainingTimeout k) s = .next (if s.comes (fun i => match i with | .linkTrainingComplete j _ _ => j = k | _ => false) then s else s.setLink k { s.link k with state := 4, tries := 0 })) ∧
  (∀ (k : Nat) (s : State),
    k < s.plkCount ∧ (s.link k).state = 1 ∧ s.elapsed (s.link k).trainAt 20000000 = true ∧ (s.link k).tries < 2 →
    exec (.linkTrainingTimeout k) s = .next (if s.comes (fun i => match i with | .linkTrainingComplete j _ _ => j = k | _ => false) then s else s.setLink k { s.link k with tries := (s.link k).tries + 1, trainAt := s.clk.alm })) ∧
  (∀ (k : Nat) (s : State),
    s.linkUp k = true →
    exec (.linkFlitTimeout k) s = .next (s.setLink k { s.link k with state := 1, tries := 0, insvc := 0, trainAt := s.clk.alm })) ∧
  (∀ (k lane : Nat) (s : State),
    k < s.plkCount ∧ (s.link k).state = 2 ∧ lane < 8 →
    exec (.laneErrorRate k lane) s = .next ((s.setLink k { s.link k with state := 3, insvc := (s.link k).insvc &&& ~~~devBit lane }).record 0 ownerCtx 0x36 0x09 (8 * k + lane) 4 0 false 0)) ∧
  (∀ (r : Req) (k : Nat) (s : State),
    k < 4 ∧ s.reachable r (0x360100 + 4 * k) = true →
    ((s.link k).state = 0 ∨ (s.link k).state = 4) →
    (s.link k).offl = 0 →
    tableWf {} s.plk.links = true →
    exec (.plkRetrain r k) s = .next ((s.updLink k fun y => { y with offl := 0 }).setLink k { s.link k with state := 1, conflict := false, tries := 0, trainAt := s.clk.alm })) ∧
  (∀ (r : Req) (p : Nat) (v : Word) (s : State),
    p < 4 ∧ s.reachable r (0x360100 + 4 * p) = true →
    exec (.plkOfflWrite r p v) s = .next (s.writeLink p v))

/-- A binding message sets what the device announced; the binding is UP toward it once it has the same DEVMASK and CTX entries; where it brings another GEN of an enabled binding, the binding's runs fail. A generation update is recorded and acknowledged, and where the GEN changed the binding's runs fail. An acknowledgement clears its device from those awaited. (R456, R459, R460, R467) -/
def Obligations.PeerBindingCompletes : Prop :=
  (∀ (r : Req) (b : Nat) (v : Word) (s : State),
    b < 64 ∧ s.reachable r (0x36A000 + b * 0x20) = true →
    exec (.peerBindingEnable r b v) s = .next (s.writeBinding r b 0 (v ||| 0x80000000))) ∧
  (∀ (r : Req) (b : Nat) (v : Word) (s : State),
    b < 64 ∧ s.reachable r (0x36A000 + b * 0x20) = true →
    (s.ccr .plk).queue.contains (.binding b) = false ∧ (s.binding b).en = false →
    exec (.peerBindingEnable r b v) s = .next ((s.updBinding b fun y => { y with devmask := v.extractLsb' 16 8, part := v.extractLsb' 0 13 }).queueCheck .plk (.binding b))) ∧
  (∀ (dev b : Nat) (devmask : BitVec 8) (ctxs : List (BitVec 13)) (gen : BitVec 16) (s : State) (u : State),
    u = s.hear dev →
    dev < 8 ∧ dev ≠ u.pwr.devid.toNat ∧ b < 64 ∧ u.reaches dev = true →
    (u.binding b).en = false →
    exec (.bindingMessage dev b devmask ctxs gen) s = .next (u.updBinding b fun x => { x with peers := put none x.peers dev (some (devmask, ctxs)), gens := put 0 x.gens dev gen })) ∧
  (∀ (dev b : Nat) (devmask : BitVec 8) (ctxs : List (BitVec 13)) (gen : BitVec 16) (s : State) (u : State),
    u = s.hear dev →
    dev < 8 ∧ dev ≠ u.pwr.devid.toNat ∧ b < 64 ∧ u.reaches dev = true →
    (u.binding b).en = true ∧ (u.binding b).devmask = devmask ∧ (u.binding b).entries = ctxs ∧ devmask.getLsbD dev = true ∧ tableWf none (u.binding b).peers = true →
    ((look none (u.binding b).peers dev).isSome && look 0 (u.binding b).gens dev ≠ gen) = false →
    exec (.bindingMessage dev b devmask ctxs gen) s = .next (u.updBinding b fun x => { x with peers := put none x.peers dev (some (devmask, ctxs)), gens := put 0 x.gens dev gen, up := x.up ||| devBit dev, lost := x.lost &&& ~~~devBit dev })) ∧
  (∀ (dev b : Nat) (devmask : BitVec 8) (ctxs : List (BitVec 13)) (gen : BitVec 16) (s : State) (u : State),
    u = s.hear dev →
    dev < 8 ∧ dev ≠ u.pwr.devid.toNat ∧ b < 64 ∧ u.reaches dev = true →
    (u.binding b).en = true ∧ (u.binding b).devmask = devmask ∧ (u.binding b).entries = ctxs ∧ devmask.getLsbD dev = true ∧ tableWf none (u.binding b).peers = true →
    ((look none (u.binding b).peers dev).isSome && look 0 (u.binding b).gens dev ≠ gen) = true →
    exec (.bindingMessage dev b devmask ctxs gen) s = .next ((u.updBinding b fun x => { x with peers := put none x.peers dev (some (devmask, ctxs)), gens := put 0 x.gens dev gen, up := x.up ||| devBit dev, lost := x.lost &&& ~~~devBit dev }).failBinding b)) ∧
  (∀ (dev b : Nat) (gen : BitVec 16) (s : State) (u : State),
    u = s.hear dev →
    dev < 8 ∧ dev ≠ u.pwr.devid.toNat ∧ b < 64 ∧ u.reaches dev = true ∧ (u.binding b).devmask.getLsbD dev = true →
    ((u.binding b).en = false ∨ look 0 (u.binding b).gens dev = gen) →
    exec (.generationUpdateMessage dev b gen) s = .next ((u.updBinding b fun y => { y with gens := put 0 y.gens dev gen }).plkSend dev (.plkGenAck dev (look 0 (u.binding b).ctxs dev).toNat gen))) ∧
  (∀ (dev b : Nat) (gen : BitVec 16) (s : State) (u : State),
    u = s.hear dev →
    dev < 8 ∧ dev ≠ u.pwr.devid.toNat ∧ b < 64 ∧ u.reaches dev = true ∧ (u.binding b).devmask.getLsbD dev = true →
    (u.binding b).en = true ∧ look 0 (u.binding b).gens dev ≠ gen →
    exec (.generationUpdateMessage dev b gen) s = .next (((u.updBinding b fun y => { y with gens := put 0 y.gens dev gen }).plkSend dev (.plkGenAck dev (look 0 (u.binding b).ctxs dev).toNat gen)).failBinding b)) ∧
  (∀ (dev p : Nat) (gen : BitVec 16) (s : State) (u : State) (m : BitVec 8),
    u = s.hear dev →
    (u.part p).genWait = some m →
    dev < 8 ∧ p < 4096 ∧ (u.part p).gen = gen ∧ m.getLsbD dev = true →
    exec (.generationUpdateAck dev p gen) s = .next (u.setPart p { u.part p with genWait := some (m &&& ~~~devBit dev) }))

/-- The partner's blocks are placed in the mirror area and acknowledged; an acknowledgement completes its write and the last one of SYNCING makes MIRRORED; a missed one breaks mirroring; a copy is answered with; the partner's messages start and break mirroring; the PLK_MIRROR writes act as R461, R462 and R464 say. (R461, R462, R463, R464, R467) -/
def Obligations.MirroringCompletes : Prop :=
  (∀ (arrayId : BitVec 128) (seq : Nat) (vol : MirVol) (lba : Nat) (blocks : List (List Byte)) (s : State),
    (s.plk.mirEn = true ∧ (s.plk.mirState = 1 ∨ s.plk.mirState = 2)) →
    s.ungated = true →
    exec (.mirrorWriteMessage arrayId seq vol lba blocks) s = .next ((({ s with plk := { s.plk with area := (s.plk.area.filter fun (e : MirBlk) => !(e.arrayId = arrayId && e.vol = vol.vol && lba ≤ e.lba && e.lba < lba + blocks.length && e.seq ≤ seq)) ++ blocks.zipIdx.map fun (e : List Byte × Nat) => ({ arrayId := arrayId, seq := seq, vol := vol.vol, ctx := vol.ctx, gen := vol.gen, lba := lba + e.2, data := e.1 } : MirBlk) } } : State).noteRecs arrayId [{ seq := seq, ofs := 0, body := .write vol.vol vol.ctx vol.gen lba ((List.range blocks.length).map (· + lba)) }]).plkSend s.partner (.plkMirrorAck arrayId seq))) ∧
  (∀ (id : Nat) (s : State),
    s.plk.mirState = 2 ∧ s.awaitsAck id = true ∧ s.ungated = true →
    exec (.mirrorAck id) s = .next ({ s with plk := { s.plk with mirWait := s.plk.mirWait.filter (·.1 ≠ id) } }.writeDone id)) ∧
  (∀ (id : Nat) (s : State),
    s.plk.mirState = 1 ∧ s.awaitsAck id = true ∧ s.plk.mirWait.filter (·.1 ≠ id) = [] ∧ s.cmd? id = none ∧ s.ungated = true →
    exec (.mirrorAck id) s = .next ({ s with plk := { s.plk with mirWait := [], mirState := 2, holdCopy := false } })) ∧
  (∀ (s : State),
    (s.plk.mirState = 1 ∨ s.plk.mirState = 2) →
    (s.plk.mirWait.any (fun e => s.elapsed e.2 (1000 * s.plk.mirTmo.toNat)) = true ∧ s.ungated = true ∧ s.plk.mirFail = true) →
    exec .mirrorAckTimeout s = .next (if s.comes (· matches .mirrorAck _) then s else { s with plk := { s.plk with mirState := 3, holdCopy := true } })) ∧
  (∀ (s : State),
    (s.plk.mirState = 1 ∨ s.plk.mirState = 2) →
    (s.plk.mirWait.any (fun e => s.elapsed e.2 (1000 * s.plk.mirTmo.toNat)) = true ∧ s.ungated = true ∧ s.plk.mirFail = false) →
    exec .mirrorAckTimeout s = .next (if s.comes (· matches .mirrorAck _) then s else s.plk.mirWait.foldl (fun (x : State) e => x.writeDone e.1) { s with plk := { s.plk with mirState := 3, holdCopy := true, mirWait := [] } })) ∧
  (∀ (m : CopyMessage) (s : State) (id : BitVec 128),
    (m = .ask id ∧ (s.plk.area.filter fun (e : MirBlk) => e.arrayId = id) ≠ []) →
    exec (.partnerCopyRequest m) s = .next (s.plkSend s.partner (.plkCopy id (s.partnerJournal id) (s.plk.area.filter fun (e : MirBlk) => e.arrayId = id)))) ∧
  (∀ (m : CopyMessage) (s : State) (id : BitVec 128),
    (m = .ask id ∧ (s.plk.area.filter fun (e : MirBlk) => e.arrayId = id) = [] ∧ s.partnerJournal id = []) →
    exec (.partnerCopyRequest m) s = .next (s)) ∧
  (∀ (m : CopyMessage) (s : State) (id : BitVec 128) (journal : List JRec) (blocks : List MirBlk),
    (m = .answer id journal blocks ∧ s.reaches s.partner = true ∧ s.arc.arrays.any (fun e => e.2.state = 2 && e.2.arrayId = id) = true) →
    exec (.partnerCopyRequest m) s = .next ({ s with plk := { s.plk with answers := (id, journal, blocks) :: s.plk.answers.filter (·.1 ≠ id) } })) ∧
  (∀ (ev : PartnerEvent) (s : State),
    ev = .enSet →
    exec (.partnerMirrorMessage ev) s = .next ({ s with plk := { s.plk with partnerEn := true } }.mirrorTry)) ∧
  (∀ (ev : PartnerEvent) (s : State),
    ev = .enCleared →
    exec (.partnerMirrorMessage ev) s = .next ({ s with plk := { s.plk with partnerEn := false } }.mirrorBreak.discardCopy)) ∧
  (∀ (ev : PartnerEvent) (s : State),
    ev = .wasReset →
    exec (.partnerMirrorMessage ev) s = .next ({ s with plk := { s.plk with partnerEn := false } }.mirrorBreak)) ∧
  (∀ (ev : PartnerEvent) (s : State) (id : BitVec 128) (journal : List JRec) (blocks : List MirBlk),
    ev = .copy id journal blocks →
    (s.plk.mirEn = true ∧ (s.plk.mirState = 1 ∨ s.plk.mirState = 2) ∧ s.ungated = true) →
    exec (.partnerMirrorMessage ev) s = .next ((s.setPartnerCopy id (some (journal, blocks))).plkSend s.partner (.plkMirrorAck id (journal.foldl (fun n r => max n r.seq) 0)))) ∧
  (∀ (ev : PartnerEvent) (s : State) (id : BitVec 128) (seqs : List Nat),
    ev = .done id seqs →
    (s.plk.mirEn = true ∧ (s.plk.mirState = 1 ∨ s.plk.mirState = 2) ∧ s.ungated = true) →
    exec (.partnerMirrorMessage ev) s = .next ({ s with plk := { s.plk with area := s.plk.area.filter fun e => !(e.arrayId = id && seqs.contains e.seq) } }.noteRecs id (seqs.map fun q => { seq := q, ofs := 0, body := .writeDone q }))) ∧
  (∀ (ev : PartnerEvent) (s : State) (id : BitVec 128) (u : State),
    ev = .imported id →
    u = s.setPartnerCopy id none →
    exec (.partnerMirrorMessage ev) s = .next (if u.plk.area.isEmpty && u.plk.journals.isEmpty then { u with plk := { u.plk with holdCopy := false } } else u)) ∧
  (∀ (r : Req) (v : Word) (s : State),
    s.reachable r 0x360210 = true →
    exec (.plkMirrorEnable r v) s = .next (s.writeMirror r (v ||| 0x80000000))) ∧
  (∀ (r : Req) (v : Word) (s : State),
    s.reachable r 0x360210 = true →
    (s.ccr .plk).queue.contains .mirror = false ∧ s.plk.mirEn = false ∧ v.getLsbD 26 = false →
    exec (.plkMirrorEnable r v) s = .next ({ s with plk := { s.plk with mirFail := v.getLsbD 25, mirTmo := v.extractLsb' 0 16 } }.queueCheck .plk .mirror)) ∧
  (∀ (r : Req) (s : State),
    s.reachable r 0x360210 = true →
    ((s.ccr .plk).queue.contains .mirror = false ∧ s.plk.mirEn = true ∧ s.arc.arrays.any (fun e => e.2.mirror) = false) →
    exec (.plkMirrorDisable r) s = .next (s.mirrorOff)) ∧
  (∀ (r : Req) (s : State),
    s.reachable r 0x360210 = true →
    (s.ccr .plk).queue.contains .mirror = false ∧ s.plk.mirEn = true →
    exec (.plkMirrorRelease r) s = .next (s.releaseCopy))

/-- Each scalar integer instruction that its column processor executes writes G[D] with the result of R186 and R187, sets only the flags R187 names, and goes on to the next instruction; nothing else of the CP, its tile or the device changes. SEXT and ZEXT hold for the width codes R186 gives. (R178, R179, R186, R187) -/
def Obligations.ScalarIntegerCompletes : Prop :=
  (∀ (u : CpAt) (d a b : BitVec 5) (s : State) (c : Cp),
    s.executes u = true →
    s.cpOf u.tile u.cp = c →
    exec (.add u d a b) s = .next (s.stepCp u (c.wr d (c.rd a + c.rd b)))) ∧
  (∀ (u : CpAt) (d a b : BitVec 5) (s : State) (c : Cp),
    s.executes u = true →
    s.cpOf u.tile u.cp = c →
    exec (.sub u d a b) s = .next (s.stepCp u (c.wr d (c.rd a - c.rd b)))) ∧
  (∀ (u : CpAt) (d a b : BitVec 5) (s : State) (c : Cp),
    s.executes u = true →
    s.cpOf u.tile u.cp = c →
    exec (.mul u d a b) s = .next (s.stepCp u (c.wr d (c.rd a * c.rd b)))) ∧
  (∀ (u : CpAt) (d a b : BitVec 5) (s : State) (c : Cp),
    s.executes u = true →
    s.cpOf u.tile u.cp = c →
    exec (.mulh u d a b) s = .next (s.stepCp u (c.wr d (BitVec.ofInt 64 ((c.rd a).toInt * (c.rd b).toInt / (2 : Int) ^ 64))))) ∧
  (∀ (u : CpAt) (d a b : BitVec 5) (s : State) (c : Cp),
    s.executes u = true →
    s.cpOf u.tile u.cp = c →
    exec (.mulhu u d a b) s = .next (s.stepCp u (c.wr d (BitVec.ofNat 64 ((c.rd a).toNat * (c.rd b).toNat / 2 ^ 64))))) ∧
  (∀ (u : CpAt) (d a b : BitVec 5) (s : State) (c : Cp),
    s.executes u = true →
    s.cpOf u.tile u.cp = c →
    c.rd b = 0#64 →
    exec (.div u d a b) s = .next (s.stepCp u (c.result d (0) 0x01))) ∧
  (∀ (u : CpAt) (d a b : BitVec 5) (s : State) (c : Cp),
    s.executes u = true →
    s.cpOf u.tile u.cp = c →
    (c.rd a).toInt = -(2 : Int) ^ 63 ∧ (c.rd b).toInt = -1 →
    exec (.div u d a b) s = .next (s.stepCp u (c.result d (c.rd a) 0x02))) ∧
  (∀ (u : CpAt) (d a b : BitVec 5) (s : State) (c : Cp),
    s.executes u = true →
    s.cpOf u.tile u.cp = c →
    c.rd b ≠ 0#64 →
    ¬ ((c.rd a).toInt = -(2 : Int) ^ 63 ∧ (c.rd b).toInt = -1) →
    exec (.div u d a b) s = .next (s.stepCp u (c.wr d (BitVec.ofInt 64 ((c.rd a).toInt.tdiv (c.rd b).toInt))))) ∧
  (∀ (u : CpAt) (d a b : BitVec 5) (s : State) (c : Cp),
    s.executes u = true →
    s.cpOf u.tile u.cp = c →
    c.rd b = 0#64 →
    exec (.divu u d a b) s = .next (s.stepCp u (c.result d (0) 0x01))) ∧
  (∀ (u : CpAt) (d a b : BitVec 5) (s : State) (c : Cp),
    s.executes u = true →
    s.cpOf u.tile u.cp = c →
    c.rd b ≠ 0#64 →
    exec (.divu u d a b) s = .next (s.stepCp u (c.wr d (c.rd a / c.rd b)))) ∧
  (∀ (u : CpAt) (d a b : BitVec 5) (s : State) (c : Cp),
    s.executes u = true →
    s.cpOf u.tile u.cp = c →
    c.rd b = 0#64 →
    exec (.rem u d a b) s = .next (s.stepCp u (c.result d (c.rd a) 0x01))) ∧
  (∀ (u : CpAt) (d a b : BitVec 5) (s : State) (c : Cp),
    s.executes u = true →
    s.cpOf u.tile u.cp = c →
    (c.rd a).toInt = -(2 : Int) ^ 63 ∧ (c.rd b).toInt = -1 →
    exec (.rem u d a b) s = .next (s.stepCp u (c.result d (0) 0x02))) ∧
  (∀ (u : CpAt) (d a b : BitVec 5) (s : State) (c : Cp),
    s.executes u = true →
    s.cpOf u.tile u.cp = c →
    c.rd b ≠ 0#64 →
    ¬ ((c.rd a).toInt = -(2 : Int) ^ 63 ∧ (c.rd b).toInt = -1) →
    exec (.rem u d a b) s = .next (s.stepCp u (c.wr d (BitVec.ofInt 64 ((c.rd a).toInt.tmod (c.rd b).toInt))))) ∧
  (∀ (u : CpAt) (d a b : BitVec 5) (s : State) (c : Cp),
    s.executes u = true →
    s.cpOf u.tile u.cp = c →
    c.rd b = 0#64 →
    exec (.remu u d a b) s = .next (s.stepCp u (c.result d (c.rd a) 0x01))) ∧
  (∀ (u : CpAt) (d a b : BitVec 5) (s : State) (c : Cp),
    s.executes u = true →
    s.cpOf u.tile u.cp = c →
    c.rd b ≠ 0#64 →
    exec (.remu u d a b) s = .next (s.stepCp u (c.wr d (c.rd a % c.rd b)))) ∧
  (∀ (u : CpAt) (d a b : BitVec 5) (s : State) (c : Cp),
    s.executes u = true →
    s.cpOf u.tile u.cp = c →
    exec (.and u d a b) s = .next (s.stepCp u (c.wr d (c.rd a &&& c.rd b)))) ∧
  (∀ (u : CpAt) (d a b : BitVec 5) (s : State) (c : Cp),
    s.executes u = true →
    s.cpOf u.tile u.cp = c →
    exec (.or u d a b) s = .next (s.stepCp u (c.wr d (c.rd a ||| c.rd b)))) ∧
  (∀ (u : CpAt) (d a b : BitVec 5) (s : State) (c : Cp),
    s.executes u = true →
    s.cpOf u.tile u.cp = c →
    exec (.xor u d a b) s = .next (s.stepCp u (c.wr d (c.rd a ^^^ c.rd b)))) ∧
  (∀ (u : CpAt) (d a b : BitVec 5) (s : State) (c : Cp),
    s.executes u = true →
    s.cpOf u.tile u.cp = c →
    exec (.shl u d a b) s = .next (s.stepCp u (c.wr d (c.rd a <<< ((c.rd b).toNat % 64))))) ∧
  (∀ (u : CpAt) (d a b : BitVec 5) (s : State) (c : Cp),
    s.executes u = true →
    s.cpOf u.tile u.cp = c →
    exec (.shr u d a b) s = .next (s.stepCp u (c.wr d (c.rd a >>> ((c.rd b).toNat % 64))))) ∧
  (∀ (u : CpAt) (d a b : BitVec 5) (s : State) (c : Cp),
    s.executes u = true →
    s.cpOf u.tile u.cp = c →
    exec (.sar u d a b) s = .next (s.stepCp u (c.wr d ((c.rd a).sshiftRight ((c.rd b).toNat % 64))))) ∧
  (∀ (u : CpAt) (d a b : BitVec 5) (s : State) (c : Cp),
    s.executes u = true →
    s.cpOf u.tile u.cp = c →
    exec (.rotl u d a b) s = .next (s.stepCp u (c.wr d ((c.rd a).rotateLeft ((c.rd b).toNat % 64))))) ∧
  (∀ (u : CpAt) (d a b : BitVec 5) (s : State) (c : Cp),
    s.executes u = true →
    s.cpOf u.tile u.cp = c →
    exec (.slt u d a b) s = .next (s.stepCp u (c.wr d (if (c.rd a).slt (c.rd b) then 1 else 0)))) ∧
  (∀ (u : CpAt) (d a b : BitVec 5) (s : State) (c : Cp),
    s.executes u = true →
    s.cpOf u.tile u.cp = c →
    exec (.sltu u d a b) s = .next (s.stepCp u (c.wr d (if (c.rd a).ult (c.rd b) then 1 else 0)))) ∧
  (∀ (u : CpAt) (d a b : BitVec 5) (s : State) (c : Cp),
    s.executes u = true →
    s.cpOf u.tile u.cp = c →
    exec (.min u d a b) s = .next (s.stepCp u (c.wr d (if (c.rd b).slt (c.rd a) then c.rd b else c.rd a)))) ∧
  (∀ (u : CpAt) (d a b : BitVec 5) (s : State) (c : Cp),
    s.executes u = true →
    s.cpOf u.tile u.cp = c →
    exec (.max u d a b) s = .next (s.stepCp u (c.wr d (if (c.rd a).slt (c.rd b) then c.rd b else c.rd a)))) ∧
  (∀ (u : CpAt) (d a b : BitVec 5) (s : State) (c : Cp),
    s.executes u = true →
    s.cpOf u.tile u.cp = c →
    exec (.minu u d a b) s = .next (s.stepCp u (c.wr d (if (c.rd b).ult (c.rd a) then c.rd b else c.rd a)))) ∧
  (∀ (u : CpAt) (d a b : BitVec 5) (s : State) (c : Cp),
    s.executes u = true →
    s.cpOf u.tile u.cp = c →
    exec (.maxu u d a b) s = .next (s.stepCp u (c.wr d (if (c.rd a).ult (c.rd b) then c.rd b else c.rd a)))) ∧
  (∀ (u : CpAt) (d a : BitVec 5) (s : State) (c : Cp),
    s.executes u = true →
    s.cpOf u.tile u.cp = c →
    exec (.clz u d a) s = .next (s.stepCp u (c.wr d (BitVec.ofNat 64 (clzN 64 (c.rd a).toNat))))) ∧
  (∀ (u : CpAt) (d a : BitVec 5) (s : State) (c : Cp),
    s.executes u = true →
    s.cpOf u.tile u.cp = c →
    exec (.ctz u d a) s = .next (s.stepCp u (c.wr d (BitVec.ofNat 64 (((List.range 64).find? fun i => (c.rd a).toNat.testBit i).getD 64))))) ∧
  (∀ (u : CpAt) (d a : BitVec 5) (s : State) (c : Cp),
    s.executes u = true →
    s.cpOf u.tile u.cp = c →
    exec (.popc u d a) s = .next (s.stepCp u (c.wr d (BitVec.ofNat 64 ((List.range 64).countP fun i => (c.rd a).toNat.testBit i))))) ∧
  (∀ (u : CpAt) (d a b : BitVec 5) (s : State) (c : Cp),
    s.executes u = true →
    s.cpOf u.tile u.cp = c →
    -(2 : Int) ^ 63 ≤ (c.rd a).toInt + (c.rd b).toInt ∧ (c.rd a).toInt + (c.rd b).toInt < (2 : Int) ^ 63 →
    exec (.addo u d a b) s = .next (s.stepCp u (c.wr d (c.rd a + c.rd b)))) ∧
  (∀ (u : CpAt) (d a b : BitVec 5) (s : State) (c : Cp),
    s.executes u = true →
    s.cpOf u.tile u.cp = c →
    ¬ (-(2 : Int) ^ 63 ≤ (c.rd a).toInt + (c.rd b).toInt ∧ (c.rd a).toInt + (c.rd b).toInt < (2 : Int) ^ 63) →
    exec (.addo u d a b) s = .next (s.stepCp u (c.result d (c.rd a + c.rd b) 0x02))) ∧
  (∀ (u : CpAt) (d a b : BitVec 5) (s : State) (c : Cp),
    s.executes u = true →
    s.cpOf u.tile u.cp = c →
    -(2 : Int) ^ 63 ≤ (c.rd a).toInt - (c.rd b).toInt ∧ (c.rd a).toInt - (c.rd b).toInt < (2 : Int) ^ 63 →
    exec (.subo u d a b) s = .next (s.stepCp u (c.wr d (c.rd a - c.rd b)))) ∧
  (∀ (u : CpAt) (d a b : BitVec 5) (s : State) (c : Cp),
    s.executes u = true →
    s.cpOf u.tile u.cp = c →
    ¬ (-(2 : Int) ^ 63 ≤ (c.rd a).toInt - (c.rd b).toInt ∧ (c.rd a).toInt - (c.rd b).toInt < (2 : Int) ^ 63) →
    exec (.subo u d a b) s = .next (s.stepCp u (c.result d (c.rd a - c.rd b) 0x02))) ∧
  (∀ (u : CpAt) (d a b : BitVec 5) (s : State) (c : Cp),
    s.executes u = true →
    s.cpOf u.tile u.cp = c →
    -(2 : Int) ^ 63 ≤ (c.rd a).toInt * (c.rd b).toInt ∧ (c.rd a).toInt * (c.rd b).toInt < (2 : Int) ^ 63 →
    exec (.mulo u d a b) s = .next (s.stepCp u (c.wr d (c.rd a * c.rd b)))) ∧
  (∀ (u : CpAt) (d a b : BitVec 5) (s : State) (c : Cp),
    s.executes u = true →
    s.cpOf u.tile u.cp = c →
    ¬ (-(2 : Int) ^ 63 ≤ (c.rd a).toInt * (c.rd b).toInt ∧ (c.rd a).toInt * (c.rd b).toInt < (2 : Int) ^ 63) →
    exec (.mulo u d a b) s = .next (s.stepCp u (c.result d (c.rd a * c.rd b) 0x02))) ∧
  (∀ (u : CpAt) (d a b : BitVec 5) (s : State) (c : Cp),
    s.executes u = true →
    s.cpOf u.tile u.cp = c →
    b = 0 →
    exec (.sext u d a b) s = .next (s.stepCp u (c.wr d (((c.rd a).setWidth 8).signExtend 64)))) ∧
  (∀ (u : CpAt) (d a b : BitVec 5) (s : State) (c : Cp),
    s.executes u = true →
    s.cpOf u.tile u.cp = c →
    b = 1 →
    exec (.sext u d a b) s = .next (s.stepCp u (c.wr d (((c.rd a).setWidth 16).signExtend 64)))) ∧
  (∀ (u : CpAt) (d a b : BitVec 5) (s : State) (c : Cp),
    s.executes u = true →
    s.cpOf u.tile u.cp = c →
    b = 2 →
    exec (.sext u d a b) s = .next (s.stepCp u (c.wr d (((c.rd a).setWidth 32).signExtend 64)))) ∧
  (∀ (u : CpAt) (d a b : BitVec 5) (s : State) (c : Cp),
    s.executes u = true →
    s.cpOf u.tile u.cp = c →
    3 ≤ b.toNat →
    ∃ v : DWord, exec (.sext u d a b) s = .next (s.stepCp u (c.wr d v))) ∧
  (∀ (u : CpAt) (d a b : BitVec 5) (s : State) (c : Cp),
    s.executes u = true →
    s.cpOf u.tile u.cp = c →
    b = 0 →
    exec (.zext u d a b) s = .next (s.stepCp u (c.wr d (((c.rd a).setWidth 8).setWidth 64)))) ∧
  (∀ (u : CpAt) (d a b : BitVec 5) (s : State) (c : Cp),
    s.executes u = true →
    s.cpOf u.tile u.cp = c →
    b = 1 →
    exec (.zext u d a b) s = .next (s.stepCp u (c.wr d (((c.rd a).setWidth 16).setWidth 64)))) ∧
  (∀ (u : CpAt) (d a b : BitVec 5) (s : State) (c : Cp),
    s.executes u = true →
    s.cpOf u.tile u.cp = c →
    b = 2 →
    exec (.zext u d a b) s = .next (s.stepCp u (c.wr d (((c.rd a).setWidth 32).setWidth 64)))) ∧
  (∀ (u : CpAt) (d a b : BitVec 5) (s : State) (c : Cp),
    s.executes u = true →
    s.cpOf u.tile u.cp = c →
    3 ≤ b.toNat →
    ∃ v : DWord, exec (.zext u d a b) s = .next (s.stepCp u (c.wr d v)))

/-- Each immediate instruction writes G[D] from G[A] and its extended immediate (ADDI and SLTI sign-extend, the others zero-extend, LUI takes it times 65,536 with A = 0) and goes on; a LUI with A not 0 fails the kernel with 0x0460. (R178, R186, R187) -/
def Obligations.ScalarImmediateCompletes : Prop :=
  (∀ (u : CpAt) (d a : BitVec 5) (imm : BitVec 16) (s : State) (c : Cp),
    s.executes u = true →
    s.cpOf u.tile u.cp = c →
    exec (.addi u d a imm) s = .next (s.stepCp u (c.wr d (c.rd a + imm.signExtend 64)))) ∧
  (∀ (u : CpAt) (d a : BitVec 5) (imm : BitVec 16) (s : State) (c : Cp),
    s.executes u = true →
    s.cpOf u.tile u.cp = c →
    exec (.andi u d a imm) s = .next (s.stepCp u (c.wr d (c.rd a &&& imm.setWidth 64)))) ∧
  (∀ (u : CpAt) (d a : BitVec 5) (imm : BitVec 16) (s : State) (c : Cp),
    s.executes u = true →
    s.cpOf u.tile u.cp = c →
    exec (.ori u d a imm) s = .next (s.stepCp u (c.wr d (c.rd a ||| imm.setWidth 64)))) ∧
  (∀ (u : CpAt) (d a : BitVec 5) (imm : BitVec 16) (s : State) (c : Cp),
    s.executes u = true →
    s.cpOf u.tile u.cp = c →
    exec (.xori u d a imm) s = .next (s.stepCp u (c.wr d (c.rd a ^^^ imm.setWidth 64)))) ∧
  (∀ (u : CpAt) (d a : BitVec 5) (imm : BitVec 16) (s : State) (c : Cp),
    s.executes u = true →
    s.cpOf u.tile u.cp = c →
    exec (.shli u d a imm) s = .next (s.stepCp u (c.wr d (c.rd a <<< (imm.toNat % 64))))) ∧
  (∀ (u : CpAt) (d a : BitVec 5) (imm : BitVec 16) (s : State) (c : Cp),
    s.executes u = true →
    s.cpOf u.tile u.cp = c →
    exec (.shri u d a imm) s = .next (s.stepCp u (c.wr d (c.rd a >>> (imm.toNat % 64))))) ∧
  (∀ (u : CpAt) (d a : BitVec 5) (imm : BitVec 16) (s : State) (c : Cp),
    s.executes u = true →
    s.cpOf u.tile u.cp = c →
    exec (.sari u d a imm) s = .next (s.stepCp u (c.wr d ((c.rd a).sshiftRight (imm.toNat % 64))))) ∧
  (∀ (u : CpAt) (d a : BitVec 5) (imm : BitVec 16) (s : State) (c : Cp),
    s.executes u = true →
    s.cpOf u.tile u.cp = c →
    exec (.slti u d a imm) s = .next (s.stepCp u (c.wr d (if (c.rd a).slt (imm.signExtend 64) then 1 else 0)))) ∧
  (∀ (u : CpAt) (d a : BitVec 5) (imm : BitVec 16) (s : State) (c : Cp),
    s.executes u = true →
    s.cpOf u.tile u.cp = c →
    a = 0 →
    exec (.lui u d a imm) s = .next (s.stepCp u (c.wr d (imm.signExtend 64 * 65536)))) ∧
  (∀ (u : CpAt) (d a : BitVec 5) (imm : BitVec 16) (s : State) (c : Cp),
    s.executes u = true →
    s.cpOf u.tile u.cp = c →
    a ≠ 0 →
    exec (.lui u d a imm) s = .next ((s.withCp u c (s.tile u.tile)).kernelFail u 0x0460 0))

/-- Each scalar floating point instruction reads its operands in the format its bit 5 names (FP32 from bits 31:0), writes G[D] with the result of R188 (bits 63:32 are 0 for FP32), and sets the flags of that operation. (R107, R178, R179, R186, R188) -/
def Obligations.ScalarFloatCompletes : Prop :=
  (∀ (u : CpAt) (d a b : BitVec 5) (dbl : Bool) (s : State) (c : Cp),
    s.executes u = true →
    s.cpOf u.tile u.cp = c →
    exec (.fadd u d a b dbl) s = .next (s.stepCp u (c.result d (BitVec.ofNat 64 (fpAdd (fmtOf dbl) (fpIn dbl (c.rd a)) (fpIn dbl (c.rd b))).1) (fpAdd (fmtOf dbl) (fpIn dbl (c.rd a)) (fpIn dbl (c.rd b))).2))) ∧
  (∀ (u : CpAt) (d a b : BitVec 5) (dbl : Bool) (s : State) (c : Cp),
    s.executes u = true →
    s.cpOf u.tile u.cp = c →
    exec (.fsub u d a b dbl) s = .next (s.stepCp u (c.result d (BitVec.ofNat 64 (fpSub (fmtOf dbl) (fpIn dbl (c.rd a)) (fpIn dbl (c.rd b))).1) (fpSub (fmtOf dbl) (fpIn dbl (c.rd a)) (fpIn dbl (c.rd b))).2))) ∧
  (∀ (u : CpAt) (d a b : BitVec 5) (dbl : Bool) (s : State) (c : Cp),
    s.executes u = true →
    s.cpOf u.tile u.cp = c →
    exec (.fmul u d a b dbl) s = .next (s.stepCp u (c.result d (BitVec.ofNat 64 (fpMul (fmtOf dbl) (fpIn dbl (c.rd a)) (fpIn dbl (c.rd b))).1) (fpMul (fmtOf dbl) (fpIn dbl (c.rd a)) (fpIn dbl (c.rd b))).2))) ∧
  (∀ (u : CpAt) (d a b : BitVec 5) (dbl : Bool) (s : State) (c : Cp),
    s.executes u = true →
    s.cpOf u.tile u.cp = c →
    exec (.fdiv u d a b dbl) s = .next (s.stepCp u (c.result d (BitVec.ofNat 64 (fpDiv (fmtOf dbl) (fpIn dbl (c.rd a)) (fpIn dbl (c.rd b))).1) (fpDiv (fmtOf dbl) (fpIn dbl (c.rd a)) (fpIn dbl (c.rd b))).2))) ∧
  (∀ (u : CpAt) (d a b : BitVec 5) (dbl : Bool) (s : State) (c : Cp),
    s.executes u = true →
    s.cpOf u.tile u.cp = c →
    exec (.fmin u d a b dbl) s = .next (s.stepCp u (c.result d (BitVec.ofNat 64 (fpMinMax false (fmtOf dbl) (fpIn dbl (c.rd a)) (fpIn dbl (c.rd b))).1) (fpMinMax false (fmtOf dbl) (fpIn dbl (c.rd a)) (fpIn dbl (c.rd b))).2))) ∧
  (∀ (u : CpAt) (d a b : BitVec 5) (dbl : Bool) (s : State) (c : Cp),
    s.executes u = true →
    s.cpOf u.tile u.cp = c →
    exec (.fmax u d a b dbl) s = .next (s.stepCp u (c.result d (BitVec.ofNat 64 (fpMinMax true (fmtOf dbl) (fpIn dbl (c.rd a)) (fpIn dbl (c.rd b))).1) (fpMinMax true (fmtOf dbl) (fpIn dbl (c.rd a)) (fpIn dbl (c.rd b))).2))) ∧
  (∀ (u : CpAt) (d a : BitVec 5) (dbl : Bool) (s : State) (c : Cp),
    s.executes u = true →
    s.cpOf u.tile u.cp = c →
    exec (.fsqrt u d a dbl) s = .next (s.stepCp u (c.result d (BitVec.ofNat 64 (fpSqrt (fmtOf dbl) (fpIn dbl (c.rd a))).1) (fpSqrt (fmtOf dbl) (fpIn dbl (c.rd a))).2))) ∧
  (∀ (u : CpAt) (d a b : BitVec 5) (dbl : Bool) (s : State) (c : Cp),
    s.executes u = true →
    s.cpOf u.tile u.cp = c →
    exec (.feq u d a b dbl) s = .next (s.stepCp u (c.result d (BitVec.ofNat 64 (b2n (fpCmp 0 (fmtOf dbl) (fpIn dbl (c.rd a)) (fpIn dbl (c.rd b))).1)) (fpCmp 0 (fmtOf dbl) (fpIn dbl (c.rd a)) (fpIn dbl (c.rd b))).2))) ∧
  (∀ (u : CpAt) (d a b : BitVec 5) (dbl : Bool) (s : State) (c : Cp),
    s.executes u = true →
    s.cpOf u.tile u.cp = c →
    exec (.flt u d a b dbl) s = .next (s.stepCp u (c.result d (BitVec.ofNat 64 (b2n (fpCmp 1 (fmtOf dbl) (fpIn dbl (c.rd a)) (fpIn dbl (c.rd b))).1)) (fpCmp 1 (fmtOf dbl) (fpIn dbl (c.rd a)) (fpIn dbl (c.rd b))).2))) ∧
  (∀ (u : CpAt) (d a b : BitVec 5) (dbl : Bool) (s : State) (c : Cp),
    s.executes u = true →
    s.cpOf u.tile u.cp = c →
    exec (.fle u d a b dbl) s = .next (s.stepCp u (c.result d (BitVec.ofNat 64 (b2n (fpCmp 2 (fmtOf dbl) (fpIn dbl (c.rd a)) (fpIn dbl (c.rd b))).1)) (fpCmp 2 (fmtOf dbl) (fpIn dbl (c.rd a)) (fpIn dbl (c.rd b))).2))) ∧
  (∀ (u : CpAt) (d a : BitVec 5) (dbl : Bool) (s : State) (c : Cp),
    s.executes u = true →
    s.cpOf u.tile u.cp = c →
    exec (.fcvti u d a dbl) s = .next (s.stepCp u (c.result d ((fpToInt (fmtOf dbl) 64 (fpIn dbl (c.rd a))).1) (fpToInt (fmtOf dbl) 64 (fpIn dbl (c.rd a))).2))) ∧
  (∀ (u : CpAt) (d a : BitVec 5) (dbl : Bool) (s : State) (c : Cp),
    s.executes u = true →
    s.cpOf u.tile u.cp = c →
    exec (.fcvtf u d a dbl) s = .next (s.stepCp u (c.result d (BitVec.ofNat 64 (intToFp (fmtOf dbl) (c.rd a).toInt).1) (intToFp (fmtOf dbl) (c.rd a).toInt).2))) ∧
  (∀ (u : CpAt) (d a : BitVec 5) (dbl : Bool) (s : State) (c : Cp),
    s.executes u = true →
    s.cpOf u.tile u.cp = c →
    exec (.fcvtp u d a dbl) s = .next (s.stepCp u (c.result d (BitVec.ofNat 64 (fpToFp (fmtOf !dbl) (fmtOf dbl) (fpIn (!dbl) (c.rd a))).1) (fpToFp (fmtOf !dbl) (fmtOf dbl) (fpIn (!dbl) (c.rd a))).2))) ∧
  (∀ (u : CpAt) (d a b : BitVec 5) (dbl : Bool) (s : State) (c : Cp),
    s.executes u = true →
    s.cpOf u.tile u.cp = c →
    exec (.fma u d a b dbl) s = .next (s.stepCp u (c.result d (BitVec.ofNat 64 (fpFma (fmtOf dbl) (fpIn dbl (c.rd a)) (fpIn dbl (c.rd b)) (fpIn dbl (c.rd d))).1) (fpFma (fmtOf dbl) (fpIn dbl (c.rd a)) (fpIn dbl (c.rd b)) (fpIn dbl (c.rd d))).2)))

/-- A branch goes to PC + 4 x OFS16 where its condition holds and to PC + 4 otherwise; JMP, JAL and JR jump, the last two with the link; VCFG sets SEW, the group and VL; RDSR and WRSR read and write the special registers of R179; FENCE and HALT wait for no range operation of the CP; TRAP fails the kernel with its code. (R178, R179, R180, R186, R197, R199, R203, R206) -/
def Obligations.KernelControlCompletes : Prop :=
  (∀ (u : CpAt) (a b : BitVec 5) (ofs : BitVec 16) (s : State) (c : Cp),
    s.executes u = true →
    s.cpOf u.tile u.cp = c →
    exec (.beq u a b ofs) s = .next (s.withCp u { c with pc := if c.rd a = c.rd b then c.pc + ofs * 4 else c.pc + 4 } (s.tile u.tile))) ∧
  (∀ (u : CpAt) (a b : BitVec 5) (ofs : BitVec 16) (s : State) (c : Cp),
    s.executes u = true →
    s.cpOf u.tile u.cp = c →
    exec (.bne u a b ofs) s = .next (s.withCp u { c with pc := if c.rd a ≠ c.rd b then c.pc + ofs * 4 else c.pc + 4 } (s.tile u.tile))) ∧
  (∀ (u : CpAt) (a b : BitVec 5) (ofs : BitVec 16) (s : State) (c : Cp),
    s.executes u = true →
    s.cpOf u.tile u.cp = c →
    exec (.blt u a b ofs) s = .next (s.withCp u { c with pc := if (c.rd a).slt (c.rd b) then c.pc + ofs * 4 else c.pc + 4 } (s.tile u.tile))) ∧
  (∀ (u : CpAt) (a b : BitVec 5) (ofs : BitVec 16) (s : State) (c : Cp),
    s.executes u = true →
    s.cpOf u.tile u.cp = c →
    exec (.bge u a b ofs) s = .next (s.withCp u { c with pc := if (c.rd a).slt (c.rd b) = false then c.pc + ofs * 4 else c.pc + 4 } (s.tile u.tile))) ∧
  (∀ (u : CpAt) (a b : BitVec 5) (ofs : BitVec 16) (s : State) (c : Cp),
    s.executes u = true →
    s.cpOf u.tile u.cp = c →
    exec (.bltu u a b ofs) s = .next (s.withCp u { c with pc := if (c.rd a).ult (c.rd b) then c.pc + ofs * 4 else c.pc + 4 } (s.tile u.tile))) ∧
  (∀ (u : CpAt) (a b : BitVec 5) (ofs : BitVec 16) (s : State) (c : Cp),
    s.executes u = true →
    s.cpOf u.tile u.cp = c →
    exec (.bgeu u a b ofs) s = .next (s.withCp u { c with pc := if (c.rd a).ult (c.rd b) = false then c.pc + ofs * 4 else c.pc + 4 } (s.tile u.tile))) ∧
  (∀ (u : CpAt) (ofs : BitVec 26) (s : State) (c : Cp),
    s.executes u = true →
    s.cpOf u.tile u.cp = c →
    exec (.jmp u ofs) s = .next (s.withCp u { c with pc := c.pc + ofs.setWidth 16 * 4 } (s.tile u.tile))) ∧
  (∀ (u : CpAt) (ofs : BitVec 26) (s : State) (c : Cp),
    s.executes u = true →
    s.cpOf u.tile u.cp = c →
    exec (.jal u ofs) s = .next (s.withCp u { c.wr 31 ((c.pc + 4).setWidth 64) with pc := c.pc + ofs.setWidth 16 * 4 } (s.tile u.tile))) ∧
  (∀ (u : CpAt) (d a : BitVec 5) (s : State) (c : Cp),
    s.executes u = true →
    s.cpOf u.tile u.cp = c →
    (d ≠ a ∨ d = 0) →
    exec (.jr u d a) s = .next (s.withCp u { c.wr d ((c.pc + 4).setWidth 64) with pc := (c.rd a).setWidth 16 } (s.tile u.tile))) ∧
  (∀ (u : CpAt) (d a : BitVec 5) (s : State) (c : Cp),
    s.executes u = true →
    s.cpOf u.tile u.cp = c →
    d = a →
    a ≠ 0 ∧ tableWf 0 c.g = true →
    exec (.jr u d a) s = .next (s.withCp u { c.wr d ((c.pc + 4).setWidth 64) with pc := c.pc + 4 } (s.tile u.tile))) ∧
  (∀ (u : CpAt) (s : State) (c : Cp),
    s.executes u = true →
    s.cpOf u.tile u.cp = c →
    exec (.nop u) s = .next (s.stepCp u c)) ∧
  (∀ (u : CpAt) (d a : BitVec 5) (imm : BitVec 16) (s : State) (c : Cp),
    s.executes u = true →
    s.cpOf u.tile u.cp = c →
    imm.toNat < 16 →
    exec (.vcfg u d a imm) s = .next (s.stepCp u ({ c with sew := imm.setWidth 2, grp := (imm >>> 2).setWidth 2, vl := min (c.rd a).toNat (2 ^ (imm.toNat / 4) * s.vlen / (8 * 2 ^ (imm.toNat % 4))) }.wr d (BitVec.ofNat 64 (min (c.rd a).toNat (2 ^ (imm.toNat / 4) * s.vlen / (8 * 2 ^ (imm.toNat % 4)))))))) ∧
  (∀ (u : CpAt) (d a : BitVec 5) (imm : BitVec 16) (s : State) (c : Cp),
    s.executes u = true →
    s.cpOf u.tile u.cp = c →
    16 ≤ imm.toNat →
    exec (.vcfg u d a imm) s = .next ((s.withCp u c (s.tile u.tile)).kernelFail u 0x0460 0)) ∧
  (∀ (u : CpAt) (d a : BitVec 5) (s : State) (c : Cp),
    s.executes u = true →
    s.cpOf u.tile u.cp = c →
    a = 0 →
    exec (.rdsr u d a) s = .next (s.stepCp u (c.wr d (BitVec.ofNat 64 c.vl)))) ∧
  (∀ (u : CpAt) (d a : BitVec 5) (s : State) (c : Cp),
    s.executes u = true →
    s.cpOf u.tile u.cp = c →
    a = 1 →
    exec (.rdsr u d a) s = .next (s.stepCp u (c.wr d (BitVec.ofNat 64 (c.sew.toNat + 4 * c.grp.toNat))))) ∧
  (∀ (u : CpAt) (d a : BitVec 5) (s : State) (c : Cp),
    s.executes u = true →
    s.cpOf u.tile u.cp = c →
    a = 2 →
    exec (.rdsr u d a) s = .next (s.stepCp u (c.wr d (BitVec.ofNat 64 (s.vlen / 8))))) ∧
  (∀ (u : CpAt) (d a : BitVec 5) (s : State) (c : Cp),
    s.executes u = true →
    s.cpOf u.tile u.cp = c →
    a = 3 →
    exec (.rdsr u d a) s = .next (s.stepCp u (c.wr d (c.rix.setWidth 64)))) ∧
  (∀ (u : CpAt) (d a : BitVec 5) (s : State) (c : Cp),
    s.executes u = true →
    s.cpOf u.tile u.cp = c →
    a = 4 →
    exec (.rdsr u d a) s = .next (s.stepCp u (c.wr d (c.kstat.setWidth 64)))) ∧
  (∀ (u : CpAt) (d a : BitVec 5) (s : State) (c : Cp),
    s.executes u = true →
    s.cpOf u.tile u.cp = c →
    a = 5 →
    exec (.rdsr u d a) s = .next (s.stepCp u (c.wr d (if s.rangeIdle u then c.rngSkipped.setWidth 64 else c.rngSkipped.setWidth 64 ||| 0x8000000000000000)))) ∧
  (∀ (u : CpAt) (d a : BitVec 5) (s : State) (c : Cp),
    s.executes u = true →
    s.cpOf u.tile u.cp = c →
    a = 7 →
    exec (.rdsr u d a) s = .next (s.stepCp u (c.wr d (BitVec.ofNat 64 u.cp)))) ∧
  (∀ (u : CpAt) (d a : BitVec 5) (s : State) (c : Cp),
    s.executes u = true →
    s.cpOf u.tile u.cp = c →
    a = 6 →
    ∃ v : DWord, exec (.rdsr u d a) s = .next ({ s with freeCtr := s.freeCtr + 1 }.stepCp u (c.wr d v))) ∧
  (∀ (u : CpAt) (d a : BitVec 5) (s : State) (c : Cp),
    s.executes u = true →
    s.cpOf u.tile u.cp = c →
    8 ≤ a.toNat →
    exec (.rdsr u d a) s = .next ((s.withCp u c (s.tile u.tile)).kernelFail u 0x0460 0)) ∧
  (∀ (u : CpAt) (d a : BitVec 5) (s : State) (c : Cp),
    s.executes u = true →
    s.cpOf u.tile u.cp = c →
    d = 3 →
    exec (.wrsr u d a) s = .next (s.stepCp u { c with rix := (c.rd a).setWidth 16 })) ∧
  (∀ (u : CpAt) (d a : BitVec 5) (s : State) (c : Cp),
    s.executes u = true →
    s.cpOf u.tile u.cp = c →
    d = 4 →
    exec (.wrsr u d a) s = .next (s.stepCp u { c with kstat := (c.rd a).setWidth 8 })) ∧
  (∀ (u : CpAt) (d a : BitVec 5) (s : State) (c : Cp),
    s.executes u = true →
    s.cpOf u.tile u.cp = c →
    d ≠ 3 ∧ d ≠ 4 →
    exec (.wrsr u d a) s = .next ((s.withCp u c (s.tile u.tile)).kernelFail u 0x0460 0)) ∧
  (∀ (u : CpAt) (s : State) (c : Cp),
    s.executes u = true →
    s.cpOf u.tile u.cp = c →
    s.rangeIdle u = true →
    exec (.fence u) s = .next (s.stepCp u c)) ∧
  (∀ (u : CpAt) (s : State) (c : Cp),
    s.executes u = true →
    s.cpOf u.tile u.cp = c →
    s.rangeIdle u = true →
    (s.tile u.tile).kernel = none ∧ tableWf {} s.tiles = true →
    exec (.halt u) s = .next (s.withCp u { c with halted := true } (s.tile u.tile))) ∧
  (∀ (u : CpAt) (s : State) (c : Cp),
    s.executes u = true →
    s.cpOf u.tile u.cp = c →
    s.rangeIdle u = true →
    ((s.withCp u { c with halted := true } (s.tile u.tile)).tile u.tile).kernel.isSome = true →
    ((List.range 4).all (fun k => ((s.withCp u { c with halted := true } (s.tile u.tile)).cpOf u.tile k).halted) = true) →
    exec (.halt u) s = .next ((s.withCp u { c with halted := true } (s.tile u.tile)).endKernel u.tile)) ∧
  (∀ (u : CpAt) (a : BitVec 5) (s : State) (c : Cp),
    s.executes u = true →
    s.cpOf u.tile u.cp = c →
    (c.rd a).toNat % 65536 = 0 →
    exec (.trap u a) s = .next ((s.withCp u c (s.tile u.tile)).kernelFail u 0x040C 0)) ∧
  (∀ (u : CpAt) (a : BitVec 5) (s : State) (c : Cp),
    s.executes u = true →
    s.cpOf u.tile u.cp = c →
    (c.rd a).toNat % 65536 ≠ 0 →
    exec (.trap u a) s = .next ((s.withCp u c (s.tile u.tile)).kernelFail u 0x0466 ((c.rd a).toNat % 65536))) ∧
  (∀ (u : CpAt) (w : Word) (s : State) (c : Cp),
    s.executes u = true →
    s.cpOf u.tile u.cp = c →
    cpDecode u w = none →
    exec (.illegalInstruction u w) s = .next ((s.withCp u c (s.tile u.tile)).kernelFail u 0x0460 0))

/-- A load that the CP may make and that is aligned writes G[D] with the bytes at G[A] + sign-extended IMM16, least significant first, extended as its mnemonic says; a store writes the low bytes of G[D] there; both go through the data cache, or past it where it is disabled. (R186, R194, R195, R197, R208, R210, R214) -/
def Obligations.ScalarMemoryCompletes : Prop :=
  (∀ (u : CpAt) (d a : BitVec 5) (imm : BitVec 16) (s : State) (c c1 : Cp) (bs : List Byte) (t1 : Tile),
    s.executes u = true →
    s.cpOf u.tile u.cp = c →
    s.canLoad u (c.rd a + imm.signExtend 64) 1 = true →
    cacheRead c (s.tile u.tile) (c.rd a + imm.signExtend 64).toNat 1 = (bs, c1, t1) →
    exec (.lb u d a imm) s = .next (s.withCp u (c1.wr d ((BitVec.ofNat 8 (leNat bs)).signExtend 64)).adv t1)) ∧
  (∀ (u : CpAt) (d a : BitVec 5) (imm : BitVec 16) (s : State) (c c1 : Cp) (bs : List Byte) (t1 : Tile),
    s.executes u = true →
    s.cpOf u.tile u.cp = c →
    s.canLoad u (c.rd a + imm.signExtend 64) 2 = true →
    cacheRead c (s.tile u.tile) (c.rd a + imm.signExtend 64).toNat 2 = (bs, c1, t1) →
    exec (.lh u d a imm) s = .next (s.withCp u (c1.wr d ((BitVec.ofNat 16 (leNat bs)).signExtend 64)).adv t1)) ∧
  (∀ (u : CpAt) (d a : BitVec 5) (imm : BitVec 16) (s : State) (c c1 : Cp) (bs : List Byte) (t1 : Tile),
    s.executes u = true →
    s.cpOf u.tile u.cp = c →
    s.canLoad u (c.rd a + imm.signExtend 64) 4 = true →
    cacheRead c (s.tile u.tile) (c.rd a + imm.signExtend 64).toNat 4 = (bs, c1, t1) →
    exec (.lw u d a imm) s = .next (s.withCp u (c1.wr d ((BitVec.ofNat 32 (leNat bs)).signExtend 64)).adv t1)) ∧
  (∀ (u : CpAt) (d a : BitVec 5) (imm : BitVec 16) (s : State) (c c1 : Cp) (bs : List Byte) (t1 : Tile),
    s.executes u = true →
    s.cpOf u.tile u.cp = c →
    s.canLoad u (c.rd a + imm.signExtend 64) 8 = true →
    cacheRead c (s.tile u.tile) (c.rd a + imm.signExtend 64).toNat 8 = (bs, c1, t1) →
    exec (.ld u d a imm) s = .next (s.withCp u (c1.wr d (BitVec.ofNat 64 (leNat bs))).adv t1)) ∧
  (∀ (u : CpAt) (d a : BitVec 5) (imm : BitVec 16) (s : State) (c c1 : Cp) (bs : List Byte) (t1 : Tile),
    s.executes u = true →
    s.cpOf u.tile u.cp = c →
    s.canLoad u (c.rd a + imm.signExtend 64) 1 = true →
    cacheRead c (s.tile u.tile) (c.rd a + imm.signExtend 64).toNat 1 = (bs, c1, t1) →
    exec (.lbu u d a imm) s = .next (s.withCp u (c1.wr d ((BitVec.ofNat 8 (leNat bs)).setWidth 64)).adv t1)) ∧
  (∀ (u : CpAt) (d a : BitVec 5) (imm : BitVec 16) (s : State) (c c1 : Cp) (bs : List Byte) (t1 : Tile),
    s.executes u = true →
    s.cpOf u.tile u.cp = c →
    s.canLoad u (c.rd a + imm.signExtend 64) 2 = true →
    cacheRead c (s.tile u.tile) (c.rd a + imm.signExtend 64).toNat 2 = (bs, c1, t1) →
    exec (.lhu u d a imm) s = .next (s.withCp u (c1.wr d ((BitVec.ofNat 16 (leNat bs)).setWidth 64)).adv t1)) ∧
  (∀ (u : CpAt) (d a : BitVec 5) (imm : BitVec 16) (s : State) (c c1 : Cp) (bs : List Byte) (t1 : Tile),
    s.executes u = true →
    s.cpOf u.tile u.cp = c →
    s.canLoad u (c.rd a + imm.signExtend 64) 4 = true →
    cacheRead c (s.tile u.tile) (c.rd a + imm.signExtend 64).toNat 4 = (bs, c1, t1) →
    exec (.lwu u d a imm) s = .next (s.withCp u (c1.wr d ((BitVec.ofNat 32 (leNat bs)).setWidth 64)).adv t1)) ∧
  (∀ (u : CpAt) (d a : BitVec 5) (imm : BitVec 16) (s : State) (c c1 : Cp) (t1 : Tile),
    s.executes u = true →
    s.cpOf u.tile u.cp = c →
    s.canStore u (c.rd a + imm.signExtend 64) 1 = true →
    cacheWrite c (s.tile u.tile) (c.rd a + imm.signExtend 64).toNat (natLE 1 (c.rd d).toNat) = (c1, t1) →
    exec (.sb u d a imm) s = .next (s.withCp u c1.adv t1)) ∧
  (∀ (u : CpAt) (d a : BitVec 5) (imm : BitVec 16) (s : State) (c c1 : Cp) (t1 : Tile),
    s.executes u = true →
    s.cpOf u.tile u.cp = c →
    s.canStore u (c.rd a + imm.signExtend 64) 2 = true →
    cacheWrite c (s.tile u.tile) (c.rd a + imm.signExtend 64).toNat (natLE 2 (c.rd d).toNat) = (c1, t1) →
    exec (.sh u d a imm) s = .next (s.withCp u c1.adv t1)) ∧
  (∀ (u : CpAt) (d a : BitVec 5) (imm : BitVec 16) (s : State) (c c1 : Cp) (t1 : Tile),
    s.executes u = true →
    s.cpOf u.tile u.cp = c →
    s.canStore u (c.rd a + imm.signExtend 64) 4 = true →
    cacheWrite c (s.tile u.tile) (c.rd a + imm.signExtend 64).toNat (natLE 4 (c.rd d).toNat) = (c1, t1) →
    exec (.sw u d a imm) s = .next (s.withCp u c1.adv t1)) ∧
  (∀ (u : CpAt) (d a : BitVec 5) (imm : BitVec 16) (s : State) (c c1 : Cp) (t1 : Tile),
    s.executes u = true →
    s.cpOf u.tile u.cp = c →
    s.canStore u (c.rd a + imm.signExtend 64) 8 = true →
    cacheWrite c (s.tile u.tile) (c.rd a + imm.signExtend 64).toNat (natLE 8 (c.rd d).toNat) = (c1, t1) →
    exec (.sd u d a imm) s = .next (s.withCp u c1.adv t1))

/-- DCZ makes the line dirty zeros, DCL writes it back, DCI drops it, DCCI does both, DLOCK and DUNLOCK lock and unlock it, each as its table says for a line held, a locked line and an absent one; a range operation is queued, or completes at once where it has nothing to do; the disable and enable of the cache and the end of a range operation act as R213 to R215 say. (R208, R209, R210, R211, R212, R213, R214, R215, R216) -/
def Obligations.CacheOperationsComplete : Prop :=
  (∀ (u : CpAt) (a : BitVec 5) (s : State) (c : Cp),
    s.executes u = true →
    s.cpOf u.tile u.cp = c →
    s.lineFree u (c.rd a) = true →
    c.mayWrite (lineOf (c.rd a).toNat) 128 = true ∧ c.cen = false →
    exec (.dcz u a) s = .next (s.withCp u c.adv ((s.tile u.tile).store (lineOf (c.rd a).toNat) (List.replicate 128 0)))) ∧
  (∀ (u : CpAt) (a : BitVec 5) (s : State) (c : Cp),
    s.executes u = true →
    s.cpOf u.tile u.cp = c →
    s.lineFree u (c.rd a) = true →
    c.mayWrite (lineOf (c.rd a).toNat) 128 = true ∧ c.cen = true ∧ (c.line? (c.rd a).toNat).isSome = true →
    exec (.dcz u a) s = .next (s.stepCp u (c.updLine (c.rd a).toNat fun l => { l with data := List.replicate 128 0, dirty := true }))) ∧
  (∀ (u : CpAt) (a : BitVec 5) (s : State) (c : Cp),
    s.executes u = true →
    s.cpOf u.tile u.cp = c →
    s.lineFree u (c.rd a) = true →
    c.mayWrite (lineOf (c.rd a).toNat) 128 = true ∧ c.cen = true ∧ c.line? (c.rd a).toNat = none →
    exec (.dcz u a) s = .next (s.withCp u { (makeRoom c (s.tile u.tile)).1 with cache := { addr := lineOf (c.rd a).toNat, data := List.replicate 128 0, dirty := true, locked := false } :: (makeRoom c (s.tile u.tile)).1.cache }.adv (makeRoom c (s.tile u.tile)).2)) ∧
  (∀ (u : CpAt) (a : BitVec 5) (s : State) (c : Cp) (l : CacheLine),
    s.executes u = true →
    s.cpOf u.tile u.cp = c →
    s.lineFree u (c.rd a) = true →
    c.line? (c.rd a).toNat = some l →
    exec (.dcl u a) s = .next (s.withCp u (c.updLine (c.rd a).toNat fun y => { y with dirty := false }).adv ((s.tile u.tile).writeBack l))) ∧
  (∀ (u : CpAt) (a : BitVec 5) (s : State) (c : Cp),
    s.executes u = true →
    s.cpOf u.tile u.cp = c →
    s.lineFree u (c.rd a) = true →
    c.line? (c.rd a).toNat = none →
    exec (.dcl u a) s = .next (s.stepCp u c)) ∧
  (∀ (u : CpAt) (a : BitVec 5) (s : State) (c : Cp) (l : CacheLine),
    s.executes u = true →
    s.cpOf u.tile u.cp = c →
    s.lineFree u (c.rd a) = true →
    c.line? (c.rd a).toNat = some l →
    l.locked = false →
    exec (.dci u a) s = .next (s.stepCp u (c.dropLine (c.rd a).toNat))) ∧
  (∀ (u : CpAt) (a : BitVec 5) (s : State) (c : Cp) (l : CacheLine),
    s.executes u = true →
    s.cpOf u.tile u.cp = c →
    s.lineFree u (c.rd a) = true →
    c.line? (c.rd a).toNat = some l →
    l.locked = true →
    exec (.dci u a) s = .next (s.stepCp u { c with rngSkip := satInc c.rngSkip })) ∧
  (∀ (u : CpAt) (a : BitVec 5) (s : State) (c : Cp),
    s.executes u = true →
    s.cpOf u.tile u.cp = c →
    s.lineFree u (c.rd a) = true →
    c.line? (c.rd a).toNat = none →
    exec (.dci u a) s = .next (s.stepCp u c)) ∧
  (∀ (u : CpAt) (a : BitVec 5) (s : State) (c : Cp) (l : CacheLine),
    s.executes u = true →
    s.cpOf u.tile u.cp = c →
    s.lineFree u (c.rd a) = true →
    c.line? (c.rd a).toNat = some l →
    l.locked = false →
    exec (.dcci u a) s = .next (s.withCp u (c.dropLine (c.rd a).toNat).adv ((s.tile u.tile).writeBack l))) ∧
  (∀ (u : CpAt) (a : BitVec 5) (s : State) (c : Cp) (l : CacheLine),
    s.executes u = true →
    s.cpOf u.tile u.cp = c →
    s.lineFree u (c.rd a) = true →
    c.line? (c.rd a).toNat = some l →
    l.locked = true →
    exec (.dcci u a) s = .next (s.withCp u { c.updLine (c.rd a).toNat (fun y => { y with dirty := false }) with rngSkip := satInc c.rngSkip }.adv ((s.tile u.tile).writeBack l))) ∧
  (∀ (u : CpAt) (a : BitVec 5) (s : State) (c : Cp),
    s.executes u = true →
    s.cpOf u.tile u.cp = c →
    s.lineFree u (c.rd a) = true →
    c.line? (c.rd a).toNat = none →
    exec (.dcci u a) s = .next (s.stepCp u c)) ∧
  (∀ (u : CpAt) (d a : BitVec 5) (s : State) (c : Cp),
    s.executes u = true →
    s.cpOf u.tile u.cp = c →
    s.lineFree u (c.rd a) = true →
    (c.mayRead (c.rd a).toNat 1 = true ∧ (c.cen = false ∨ (c.line? (c.rd a).toNat).any (fun l => l.locked) = false ∧ 8 ≤ (c.cache.filter fun l => l.locked).length)) →
    exec (.dlock u d a) s = .next (s.stepCp u (c.wr d 0))) ∧
  (∀ (u : CpAt) (d a : BitVec 5) (s : State) (c : Cp),
    s.executes u = true →
    s.cpOf u.tile u.cp = c →
    s.lineFree u (c.rd a) = true →
    (c.mayRead (c.rd a).toNat 1 = true ∧ c.cen = true ∧ (c.line? (c.rd a).toNat).any (fun l => l.locked) = true) →
    exec (.dlock u d a) s = .next (s.stepCp u (c.wr d 1))) ∧
  (∀ (u : CpAt) (d a : BitVec 5) (s : State) (c : Cp),
    s.executes u = true →
    s.cpOf u.tile u.cp = c →
    s.lineFree u (c.rd a) = true →
    (c.mayRead (c.rd a).toNat 1 = true ∧ c.cen = true ∧ (c.line? (c.rd a).toNat).any (fun l => l.locked) = false ∧ (c.cache.filter fun l => l.locked).length < 8) →
    ((c.line? (c.rd a).toNat).isSome = true ∨ unstaged (s.tile u.tile) (c.rd a).toNat = none) →
    exec (.dlock u d a) s = .next (s.withCp u (((fetchLine c (s.tile u.tile) (c.rd a).toNat).1.updLine (c.rd a).toNat fun l => { l with locked := true }).wr d 1).adv (fetchLine c (s.tile u.tile) (c.rd a).toNat).2)) ∧
  (∀ (u : CpAt) (a : BitVec 5) (s : State) (c : Cp),
    s.executes u = true →
    s.cpOf u.tile u.cp = c →
    s.lineFree u (c.rd a) = true →
    exec (.dunlock u a) s = .next (s.stepCp u (c.updLine (c.rd a).toNat fun l => { l with locked := false }))) ∧
  (∀ (u : CpAt) (a b : BitVec 5) (s : State) (c : Cp),
    s.executes u = true →
    s.cpOf u.tile u.cp = c →
    s.rngeng = true ∧ s.rangeIdle u = true ∧ (c.rd a).toNat + (c.rd b).toNat ≤ 2 ^ 32 →
    (c.rd b = 0 ∨ c.cen = false) →
    exec (.rngc u a b) s = .next (s.stepCp u { c with rngSkipped := 0 })) ∧
  (∀ (u : CpAt) (a b : BitVec 5) (s : State) (c : Cp),
    s.executes u = true →
    s.cpOf u.tile u.cp = c →
    s.rngeng = true ∧ s.rangeIdle u = true ∧ (c.rd a).toNat + (c.rd b).toNat ≤ 2 ^ 32 →
    c.rd b ≠ 0 ∧ c.cen = true →
    exec (.rngc u a b) s = .next (s.withCp u c.adv { (s.tile u.tile) with ranges := (s.tile u.tile).ranges ++ [{ cp := u.cp, clean := true, inval := false, inclLocked := false, start := (c.rd a).toNat, len := (c.rd b).toNat }] })) ∧
  (∀ (u : CpAt) (a b : BitVec 5) (s : State) (c : Cp),
    s.executes u = true →
    s.cpOf u.tile u.cp = c →
    s.rngeng = true ∧ s.rangeIdle u = true ∧ (c.rd a).toNat + (c.rd b).toNat ≤ 2 ^ 32 →
    (c.rd b = 0 ∨ c.cen = false) →
    exec (.rngi u a b) s = .next (s.stepCp u { c with rngSkipped := 0 })) ∧
  (∀ (u : CpAt) (a b : BitVec 5) (s : State) (c : Cp),
    s.executes u = true →
    s.cpOf u.tile u.cp = c →
    s.rngeng = true ∧ s.rangeIdle u = true ∧ (c.rd a).toNat + (c.rd b).toNat ≤ 2 ^ 32 →
    c.rd b ≠ 0 ∧ c.cen = true →
    exec (.rngi u a b) s = .next (s.withCp u c.adv { (s.tile u.tile) with ranges := (s.tile u.tile).ranges ++ [{ cp := u.cp, clean := false, inval := true, inclLocked := false, start := (c.rd a).toNat, len := (c.rd b).toNat }] })) ∧
  (∀ (u : CpAt) (a b : BitVec 5) (s : State) (c : Cp),
    s.executes u = true →
    s.cpOf u.tile u.cp = c →
    s.rngeng = true ∧ s.rangeIdle u = true ∧ (c.rd a).toNat + (c.rd b).toNat ≤ 2 ^ 32 →
    (c.rd b = 0 ∨ c.cen = false) →
    exec (.rngci u a b) s = .next (s.stepCp u { c with rngSkipped := 0 })) ∧
  (∀ (u : CpAt) (a b : BitVec 5) (s : State) (c : Cp),
    s.executes u = true →
    s.cpOf u.tile u.cp = c →
    s.rngeng = true ∧ s.rangeIdle u = true ∧ (c.rd a).toNat + (c.rd b).toNat ≤ 2 ^ 32 →
    c.rd b ≠ 0 ∧ c.cen = true →
    exec (.rngci u a b) s = .next (s.withCp u c.adv { (s.tile u.tile) with ranges := (s.tile u.tile).ranges ++ [{ cp := u.cp, clean := true, inval := true, inclLocked := false, start := (c.rd a).toNat, len := (c.rd b).toNat }] })) ∧
  (∀ (u : CpAt) (a b : BitVec 5) (s : State) (c : Cp),
    s.executes u = true →
    s.cpOf u.tile u.cp = c →
    s.rngeng = true ∧ s.rangeIdle u = true ∧ (c.rd a).toNat + (c.rd b).toNat ≤ 2 ^ 32 →
    (c.rd b = 0 ∨ c.cen = false) →
    exec (.rngiIncludeLocked u a b) s = .next (s.stepCp u { c with rngSkipped := 0 })) ∧
  (∀ (u : CpAt) (a b : BitVec 5) (s : State) (c : Cp),
    s.executes u = true →
    s.cpOf u.tile u.cp = c →
    s.rngeng = true ∧ s.rangeIdle u = true ∧ (c.rd a).toNat + (c.rd b).toNat ≤ 2 ^ 32 →
    c.rd b ≠ 0 ∧ c.cen = true →
    exec (.rngiIncludeLocked u a b) s = .next (s.withCp u c.adv { (s.tile u.tile) with ranges := (s.tile u.tile).ranges ++ [{ cp := u.cp, clean := false, inval := true, inclLocked := true, start := (c.rd a).toNat, len := (c.rd b).toNat }] })) ∧
  (∀ (u : CpAt) (a b : BitVec 5) (s : State) (c : Cp),
    s.executes u = true →
    s.cpOf u.tile u.cp = c →
    s.rngeng = true ∧ s.rangeIdle u = true ∧ (c.rd a).toNat + (c.rd b).toNat ≤ 2 ^ 32 →
    (c.rd b = 0 ∨ c.cen = false) →
    exec (.rngciIncludeLocked u a b) s = .next (s.stepCp u { c with rngSkipped := 0 })) ∧
  (∀ (u : CpAt) (a b : BitVec 5) (s : State) (c : Cp),
    s.executes u = true →
    s.cpOf u.tile u.cp = c →
    s.rngeng = true ∧ s.rangeIdle u = true ∧ (c.rd a).toNat + (c.rd b).toNat ≤ 2 ^ 32 →
    c.rd b ≠ 0 ∧ c.cen = true →
    exec (.rngciIncludeLocked u a b) s = .next (s.withCp u c.adv { (s.tile u.tile) with ranges := (s.tile u.tile).ranges ++ [{ cp := u.cp, clean := true, inval := true, inclLocked := true, start := (c.rd a).toNat, len := (c.rd b).toNat }] })) ∧
  (∀ (t : Nat) (s : State) (q : RangeOp) (rest : List RangeOp) (c1 : Cp) (t1 : Tile),
    (s.tile t).ranges = q :: rest →
    (s.cpOf t q.cp).flushWait = false →
    applyRange q (s.cpOf t q.cp) (s.tile t) = (c1, t1) →
    exec (.rangeOperationComplete t) s = .next (s.withCp ⟨t, q.cp⟩ c1 { t1 with ranges := rest })) ∧
  (∀ (t : Nat) (s : State) (q : RangeOp) (c1 : Cp) (t1 : Tile),
    (s.tile t).ranges = [q] →
    (s.cpOf t q.cp).flushWait = true →
    applyRange q (s.cpOf t q.cp) (s.tile t) = (c1, t1) →
    exec (.rangeOperationComplete t) s = .next (s.withCp ⟨t, q.cp⟩ { c1 with cache := [], cen := c1.enableWait, enableWait := false, flushWait := false } (c1.cache.foldl Tile.writeBack { t1 with ranges := [] }))) ∧
  (∀ (r : Req) (u : CpAt) (s : State) (c : Cp),
    u.tile < 18 ∧ u.cp < 4 ∧ s.reachable r (tileOfs u.tile + 0x200 + 0x20 * u.cp) = true →
    s.cpOf u.tile u.cp = c →
    (c.cen = false ∨ c.flushWait = true) →
    exec (.cacheDisableFlush r u) s = .next (s)) ∧
  (∀ (r : Req) (u : CpAt) (s : State) (c : Cp),
    u.tile < 18 ∧ u.cp < 4 ∧ s.reachable r (tileOfs u.tile + 0x200 + 0x20 * u.cp) = true →
    s.cpOf u.tile u.cp = c →
    c.cen = true ∧ c.flushWait = false ∧ s.rangeIdle u = false →
    exec (.cacheDisableFlush r u) s = .next (s.setCp u.tile u.cp { c with flushWait := true })) ∧
  (∀ (r : Req) (u : CpAt) (s : State) (c : Cp),
    u.tile < 18 ∧ u.cp < 4 ∧ s.reachable r (tileOfs u.tile + 0x200 + 0x20 * u.cp) = true →
    s.cpOf u.tile u.cp = c →
    c.cen = true ∧ c.flushWait = false ∧ s.rangeIdle u = true →
    exec (.cacheDisableFlush r u) s = .next (s.withCp u { c with cache := [], cen := c.enableWait, enableWait := false, flushWait := false } (c.cache.foldl Tile.writeBack (s.tile u.tile)))) ∧
  (∀ (r : Req) (u : CpAt) (s : State) (c : Cp),
    u.tile < 18 ∧ u.cp < 4 ∧ s.reachable r (tileOfs u.tile + 0x200 + 0x20 * u.cp) = true →
    s.cpOf u.tile u.cp = c →
    c.flushWait = true →
    exec (.cacheEnable r u) s = .next (s.setCp u.tile u.cp { c with enableWait := true })) ∧
  (∀ (r : Req) (u : CpAt) (s : State) (c : Cp),
    u.tile < 18 ∧ u.cp < 4 ∧ s.reachable r (tileOfs u.tile + 0x200 + 0x20 * u.cp) = true →
    s.cpOf u.tile u.cp = c →
    c.flushWait = false ∧ c.cen = true →
    exec (.cacheEnable r u) s = .next (s)) ∧
  (∀ (r : Req) (u : CpAt) (s : State) (c : Cp),
    u.tile < 18 ∧ u.cp < 4 ∧ s.reachable r (tileOfs u.tile + 0x200 + 0x20 * u.cp) = true →
    s.cpOf u.tile u.cp = c →
    c.flushWait = false ∧ c.cen = false →
    exec (.cacheEnable r u) s = .next (s.setCp u.tile u.cp { c with cen := true, cache := [] })) ∧
  (∀ (u : CpAt) (win : Nat) (s : State),
    u.tile < s.tilesPhys ∧ u.cp < 4 ∧ (s.cpOf u.tile u.cp).staging = some win →
    exec (.stagingFillComplete u win) s = .next ((s.setCp u.tile u.cp { s.cpOf u.tile u.cp with staging := none }).updTile u.tile fun t => { t with staged := win :: t.staged })) ∧
  (∀ (u : CpAt) (s : State),
    u.tile < s.tilesPhys ∧ u.cp < 4 ∧ (s.cpOf u.tile u.cp).run = true ∧ (s.cpOf u.tile u.cp).halted = false →
    exec (.kernelWatchdogExpiry u) s = .next (s.kernelFail u 0x0465 0))

/-- Each vector integer instruction on proper register groups writes the active elements of V[D] with the wrapped result of its operation on V[A] and B (V[B], or the low SEW bits of G[B]), sets only the flags R187 names, goes on, and is counted; on a register that heads no group it fails the kernel with 0x0463. (R180, R181, R182, R183, R186, R187) -/
def Obligations.VectorIntegerCompletes : Prop :=
  (∀ (u : CpAt) (f : VFields) (x : Bool) (s : State) (c : Cp),
    s.executes u = true →
    s.cpOf u.tile u.cp = c →
    c.groupsOk f x = true →
    exec (.vadd u f x) s = .next (s.stepVec u (c.vecWrite s.vlen f fun i => (c.srcA s.vlen f i + c.srcB s.vlen f x i, 0)))) ∧
  (∀ (u : CpAt) (f : VFields) (x : Bool) (s : State) (c : Cp),
    s.executes u = true →
    s.cpOf u.tile u.cp = c →
    c.groupsOk f x = true →
    exec (.vsub u f x) s = .next (s.stepVec u (c.vecWrite s.vlen f fun i => (c.srcA s.vlen f i - c.srcB s.vlen f x i, 0)))) ∧
  (∀ (u : CpAt) (f : VFields) (x : Bool) (s : State) (c : Cp),
    s.executes u = true →
    s.cpOf u.tile u.cp = c →
    c.groupsOk f x = true →
    exec (.vmul u f x) s = .next (s.stepVec u (c.vecWrite s.vlen f fun i => (c.srcA s.vlen f i * c.srcB s.vlen f x i, 0)))) ∧
  (∀ (u : CpAt) (f : VFields) (x : Bool) (s : State) (c : Cp),
    s.executes u = true →
    s.cpOf u.tile u.cp = c →
    c.groupsOk f x = true →
    exec (.vmulh u f x) s = .next (s.stepVec u (c.vecWrite s.vlen f fun i => (BitVec.ofInt c.sewBits ((c.srcA s.vlen f i).toInt * (c.srcB s.vlen f x i).toInt / (2 : Int) ^ c.sewBits), 0)))) ∧
  (∀ (u : CpAt) (f : VFields) (x : Bool) (s : State) (c : Cp),
    s.executes u = true →
    s.cpOf u.tile u.cp = c →
    c.groupsOk f x = true →
    exec (.vmulhu u f x) s = .next (s.stepVec u (c.vecWrite s.vlen f fun i => (BitVec.ofNat c.sewBits ((c.srcA s.vlen f i).toNat * (c.srcB s.vlen f x i).toNat / 2 ^ c.sewBits), 0)))) ∧
  (∀ (u : CpAt) (f : VFields) (x : Bool) (s : State) (c : Cp),
    s.executes u = true →
    s.cpOf u.tile u.cp = c →
    c.groupsOk f x = true →
    exec (.vdiv u f x) s = .next (s.stepVec u (c.vecWrite s.vlen f fun i => iDiv (c.srcA s.vlen f i) (c.srcB s.vlen f x i)))) ∧
  (∀ (u : CpAt) (f : VFields) (x : Bool) (s : State) (c : Cp),
    s.executes u = true →
    s.cpOf u.tile u.cp = c →
    c.groupsOk f x = true →
    exec (.vdivu u f x) s = .next (s.stepVec u (c.vecWrite s.vlen f fun i => iDivu (c.srcA s.vlen f i) (c.srcB s.vlen f x i)))) ∧
  (∀ (u : CpAt) (f : VFields) (x : Bool) (s : State) (c : Cp),
    s.executes u = true →
    s.cpOf u.tile u.cp = c →
    c.groupsOk f x = true →
    exec (.vrem u f x) s = .next (s.stepVec u (c.vecWrite s.vlen f fun i => iRem (c.srcA s.vlen f i) (c.srcB s.vlen f x i)))) ∧
  (∀ (u : CpAt) (f : VFields) (x : Bool) (s : State) (c : Cp),
    s.executes u = true →
    s.cpOf u.tile u.cp = c →
    c.groupsOk f x = true →
    exec (.vremu u f x) s = .next (s.stepVec u (c.vecWrite s.vlen f fun i => iRemu (c.srcA s.vlen f i) (c.srcB s.vlen f x i)))) ∧
  (∀ (u : CpAt) (f : VFields) (x : Bool) (s : State) (c : Cp),
    s.executes u = true →
    s.cpOf u.tile u.cp = c →
    c.groupsOk f x = true →
    exec (.vand u f x) s = .next (s.stepVec u (c.vecWrite s.vlen f fun i => (c.srcA s.vlen f i &&& c.srcB s.vlen f x i, 0)))) ∧
  (∀ (u : CpAt) (f : VFields) (x : Bool) (s : State) (c : Cp),
    s.executes u = true →
    s.cpOf u.tile u.cp = c →
    c.groupsOk f x = true →
    exec (.vor u f x) s = .next (s.stepVec u (c.vecWrite s.vlen f fun i => (c.srcA s.vlen f i ||| c.srcB s.vlen f x i, 0)))) ∧
  (∀ (u : CpAt) (f : VFields) (x : Bool) (s : State) (c : Cp),
    s.executes u = true →
    s.cpOf u.tile u.cp = c →
    c.groupsOk f x = true →
    exec (.vxor u f x) s = .next (s.stepVec u (c.vecWrite s.vlen f fun i => (c.srcA s.vlen f i ^^^ c.srcB s.vlen f x i, 0)))) ∧
  (∀ (u : CpAt) (f : VFields) (x : Bool) (s : State) (c : Cp),
    s.executes u = true →
    s.cpOf u.tile u.cp = c →
    c.groupsOk f x = true →
    exec (.vshl u f x) s = .next (s.stepVec u (c.vecWrite s.vlen f fun i => (c.srcA s.vlen f i <<< ((c.srcB s.vlen f x i).toNat % c.sewBits), 0)))) ∧
  (∀ (u : CpAt) (f : VFields) (x : Bool) (s : State) (c : Cp),
    s.executes u = true →
    s.cpOf u.tile u.cp = c →
    c.groupsOk f x = true →
    exec (.vshr u f x) s = .next (s.stepVec u (c.vecWrite s.vlen f fun i => (c.srcA s.vlen f i >>> ((c.srcB s.vlen f x i).toNat % c.sewBits), 0)))) ∧
  (∀ (u : CpAt) (f : VFields) (x : Bool) (s : State) (c : Cp),
    s.executes u = true →
    s.cpOf u.tile u.cp = c →
    c.groupsOk f x = true →
    exec (.vsar u f x) s = .next (s.stepVec u (c.vecWrite s.vlen f fun i => ((c.srcA s.vlen f i).sshiftRight ((c.srcB s.vlen f x i).toNat % c.sewBits), 0)))) ∧
  (∀ (u : CpAt) (f : VFields) (x : Bool) (s : State) (c : Cp),
    s.executes u = true →
    s.cpOf u.tile u.cp = c →
    c.groupsOk f x = true →
    exec (.vrotl u f x) s = .next (s.stepVec u (c.vecWrite s.vlen f fun i => ((c.srcA s.vlen f i).rotateLeft ((c.srcB s.vlen f x i).toNat % c.sewBits), 0)))) ∧
  (∀ (u : CpAt) (f : VFields) (x : Bool) (s : State) (c : Cp),
    s.executes u = true →
    s.cpOf u.tile u.cp = c →
    c.groupsOk f x = true →
    exec (.vmin u f x) s = .next (s.stepVec u (c.vecWrite s.vlen f fun i => (if (c.srcB s.vlen f x i).slt (c.srcA s.vlen f i) then c.srcB s.vlen f x i else c.srcA s.vlen f i, 0)))) ∧
  (∀ (u : CpAt) (f : VFields) (x : Bool) (s : State) (c : Cp),
    s.executes u = true →
    s.cpOf u.tile u.cp = c →
    c.groupsOk f x = true →
    exec (.vmax u f x) s = .next (s.stepVec u (c.vecWrite s.vlen f fun i => (if (c.srcA s.vlen f i).slt (c.srcB s.vlen f x i) then c.srcB s.vlen f x i else c.srcA s.vlen f i, 0)))) ∧
  (∀ (u : CpAt) (f : VFields) (x : Bool) (s : State) (c : Cp),
    s.executes u = true →
    s.cpOf u.tile u.cp = c →
    c.groupsOk f x = true →
    exec (.vminu u f x) s = .next (s.stepVec u (c.vecWrite s.vlen f fun i => (if (c.srcB s.vlen f x i).ult (c.srcA s.vlen f i) then c.srcB s.vlen f x i else c.srcA s.vlen f i, 0)))) ∧
  (∀ (u : CpAt) (f : VFields) (x : Bool) (s : State) (c : Cp),
    s.executes u = true →
    s.cpOf u.tile u.cp = c →
    c.groupsOk f x = true →
    exec (.vmaxu u f x) s = .next (s.stepVec u (c.vecWrite s.vlen f fun i => (if (c.srcA s.vlen f i).ult (c.srcB s.vlen f x i) then c.srcB s.vlen f x i else c.srcA s.vlen f i, 0)))) ∧
  (∀ (u : CpAt) (f : VFields) (x : Bool) (s : State) (c : Cp),
    s.executes u = true →
    s.cpOf u.tile u.cp = c →
    c.groupsOk f x = true →
    exec (.vadds u f x) s = .next (s.stepVec u (c.vecWrite s.vlen f fun i => clip c.sewBits (-(2 : Int) ^ (c.sewBits - 1)) ((2 : Int) ^ (c.sewBits - 1) - 1) ((c.srcA s.vlen f i).toInt + (c.srcB s.vlen f x i).toInt)))) ∧
  (∀ (u : CpAt) (f : VFields) (x : Bool) (s : State) (c : Cp),
    s.executes u = true →
    s.cpOf u.tile u.cp = c →
    c.groupsOk f x = true →
    exec (.vsubs u f x) s = .next (s.stepVec u (c.vecWrite s.vlen f fun i => clip c.sewBits (-(2 : Int) ^ (c.sewBits - 1)) ((2 : Int) ^ (c.sewBits - 1) - 1) ((c.srcA s.vlen f i).toInt - (c.srcB s.vlen f x i).toInt)))) ∧
  (∀ (u : CpAt) (f : VFields) (x : Bool) (s : State) (c : Cp),
    s.executes u = true →
    s.cpOf u.tile u.cp = c →
    c.groupsOk f x = true →
    exec (.vaddsu u f x) s = .next (s.stepVec u (c.vecWrite s.vlen f fun i => clip c.sewBits (0) ((2 : Int) ^ c.sewBits - 1) (((c.srcA s.vlen f i).toNat : Int) + (c.srcB s.vlen f x i).toNat)))) ∧
  (∀ (u : CpAt) (f : VFields) (x : Bool) (s : State) (c : Cp),
    s.executes u = true →
    s.cpOf u.tile u.cp = c →
    c.groupsOk f x = true →
    exec (.vsubsu u f x) s = .next (s.stepVec u (c.vecWrite s.vlen f fun i => clip c.sewBits (0) ((2 : Int) ^ c.sewBits - 1) (((c.srcA s.vlen f i).toNat : Int) - (c.srcB s.vlen f x i).toNat)))) ∧
  (∀ (u : CpAt) (f : VFields) (x : Bool) (s : State) (c : Cp),
    s.executes u = true →
    s.cpOf u.tile u.cp = c →
    c.groupsOk f x = true →
    exec (.vaddo u f x) s = .next (s.stepVec u (c.vecWrite s.vlen f fun i => checked c.sewBits ((c.srcA s.vlen f i).toInt + (c.srcB s.vlen f x i).toInt)))) ∧
  (∀ (u : CpAt) (f : VFields) (x : Bool) (s : State) (c : Cp),
    s.executes u = true →
    s.cpOf u.tile u.cp = c →
    c.groupsOk f x = true →
    exec (.vsubo u f x) s = .next (s.stepVec u (c.vecWrite s.vlen f fun i => checked c.sewBits ((c.srcA s.vlen f i).toInt - (c.srcB s.vlen f x i).toInt)))) ∧
  (∀ (u : CpAt) (f : VFields) (x : Bool) (s : State) (c : Cp),
    s.executes u = true →
    s.cpOf u.tile u.cp = c →
    c.groupsOk f x = true →
    exec (.vmulo u f x) s = .next (s.stepVec u (c.vecWrite s.vlen f fun i => checked c.sewBits ((c.srcA s.vlen f i).toInt * (c.srcB s.vlen f x i).toInt)))) ∧
  (∀ (u : CpAt) (f : VFields) (x : Bool) (s : State) (c : Cp),
    s.executes u = true →
    s.cpOf u.tile u.cp = c →
    c.groupsOk f x = false →
    exec (.vadd u f x) s = .next ((s.withCp u c (s.tile u.tile)).kernelFail u 0x0463 0)) ∧
  (∀ (u : CpAt) (f : VFields) (x : Bool) (s : State) (c : Cp),
    s.executes u = true →
    s.cpOf u.tile u.cp = c →
    f.a = 0 ∧ c.groupsOk f x = true →
    exec (.vmv u f x) s = .next (s.stepVec u (elemwise s.vlen c.sewBits f c fun i => (vecB s.vlen c f x i, 0)))) ∧
  (∀ (u : CpAt) (f : VFields) (x : Bool) (s : State) (c : Cp),
    s.executes u = true →
    s.cpOf u.tile u.cp = c →
    c.groupsOk f x = true →
    exec (.vmerge u f x) s = .next (s.stepVec u ((List.range c.vl).foldl (fun (y : Cp) i => y.setVelem s.vlen c.sewBits f.d.toNat i (if c.active s.vlen f i then c.velem s.vlen c.sewBits f.a.toNat i else vecB s.vlen c f x i)) c))) ∧
  (∀ (u : CpAt) (f : VFields) (x : Bool) (s : State) (c : Cp),
    s.executes u = true →
    s.cpOf u.tile u.cp = c →
    16 ≤ c.sewBits ∧ f.d.toNat % c.grpN = 0 ∧ f.a.toNat % ceilDiv c.grpN 2 = 0 ∧ c.pmOk f = true →
    exec (.vsexth u f x) s = .next (s.stepVec u (elemwise s.vlen c.sewBits f c fun i => (((BitVec.ofNat (c.sewBits / 2) (c.velem s.vlen (c.sewBits / 2) f.a.toNat i)).signExtend c.sewBits).toNat, 0)))) ∧
  (∀ (u : CpAt) (f : VFields) (x : Bool) (s : State) (c : Cp),
    s.executes u = true →
    s.cpOf u.tile u.cp = c →
    16 ≤ c.sewBits ∧ f.d.toNat % c.grpN = 0 ∧ f.a.toNat % ceilDiv c.grpN 2 = 0 ∧ c.pmOk f = true →
    exec (.vzexth u f x) s = .next (s.stepVec u (elemwise s.vlen c.sewBits f c fun i => ((BitVec.ofNat (c.sewBits / 2) (c.velem s.vlen (c.sewBits / 2) f.a.toNat i)).toNat, 0)))) ∧
  (∀ (u : CpAt) (f : VFields) (x : Bool) (s : State) (c : Cp),
    s.executes u = true →
    s.cpOf u.tile u.cp = c →
    16 ≤ c.sewBits ∧ f.a.toNat % c.grpN = 0 ∧ f.d.toNat % ceilDiv c.grpN 2 = 0 ∧ c.pmOk f = true →
    exec (.vnarh u f x) s = .next (s.stepVec u ((c.actives s.vlen f).foldl (fun (y : Cp) i => y.setVelem s.vlen (c.sewBits / 2) f.d.toNat i (c.velem s.vlen c.sewBits f.a.toNat i)) c))) ∧
  (∀ (u : CpAt) (f : VFields) (x : Bool) (s : State) (c : Cp),
    s.executes u = true →
    s.cpOf u.tile u.cp = c →
    c.sewBits = 8 →
    exec (.vsexth u f x) s = .next ((s.withCp u c (s.tile u.tile)).kernelFail u 0x0463 0)) ∧
  (∀ (u : CpAt) (f : VFields) (x : Bool) (s : State) (c : Cp),
    s.executes u = true →
    s.cpOf u.tile u.cp = c →
    c.sewBits = 8 →
    exec (.vzexth u f x) s = .next ((s.withCp u c (s.tile u.tile)).kernelFail u 0x0463 0)) ∧
  (∀ (u : CpAt) (f : VFields) (x : Bool) (s : State) (c : Cp),
    s.executes u = true →
    s.cpOf u.tile u.cp = c →
    c.sewBits = 8 →
    exec (.vnarh u f x) s = .next ((s.withCp u c (s.tile u.tile)).kernelFail u 0x0463 0)) ∧
  (∀ (u : CpAt) (f : VFields) (x : Bool) (s : State) (c : Cp),
    s.executes u = true →
    s.cpOf u.tile u.cp = c →
    c.vOk f.d.toNat = true ∧ c.vOk f.a.toNat = true ∧ c.pmOk f = true →
    exec (.vpopc u f x) s = .next (s.stepVec u (elemwise s.vlen c.sewBits f c fun i => (popN c.sewBits (c.velem s.vlen c.sewBits f.a.toNat i), 0)))) ∧
  (∀ (u : CpAt) (f : VFields) (x : Bool) (s : State) (c : Cp),
    s.executes u = true →
    s.cpOf u.tile u.cp = c →
    c.vOk f.d.toNat = true ∧ c.vOk f.a.toNat = true ∧ c.pmOk f = true →
    exec (.vclz u f x) s = .next (s.stepVec u (elemwise s.vlen c.sewBits f c fun i => (clzN c.sewBits (c.velem s.vlen c.sewBits f.a.toNat i), 0))))

/-- Each compare writes its predicate group: an active element receives the result of its comparison, every other one 0; floating point compares take SEW 32 or 64 and set the flags of their active elements; the byte patterns take SEW 8, and VPATM an even B; a predicate name of 16 or more fails the kernel with 0x0460. (R107, R109, R181, R182, R183, R184, R186, R188, R191) -/
def Obligations.CompareCompletes : Prop :=
  (∀ (u : CpAt) (f : VFields) (x : Bool) (s : State) (c : Cp),
    s.executes u = true →
    s.cpOf u.tile u.cp = c →
    (f.d.toNat < 16 ∧ f.d.toNat % c.pg = 0 ∧ c.vOk f.a.toNat = true ∧ (x = true ∨ c.vOk f.b.toNat = true) ∧ c.pmOk f = true) →
    exec (.ceq u f x) s = .next (s.stepVec u (writePred s.vlen c f.d.toNat fun i => c.active s.vlen f i && decide (c.srcA s.vlen f i = c.srcB s.vlen f x i)))) ∧
  (∀ (u : CpAt) (f : VFields) (x : Bool) (s : State) (c : Cp),
    s.executes u = true →
    s.cpOf u.tile u.cp = c →
    (f.d.toNat < 16 ∧ f.d.toNat % c.pg = 0 ∧ c.vOk f.a.toNat = true ∧ (x = true ∨ c.vOk f.b.toNat = true) ∧ c.pmOk f = true) →
    exec (.cne u f x) s = .next (s.stepVec u (writePred s.vlen c f.d.toNat fun i => c.active s.vlen f i && decide (c.srcA s.vlen f i ≠ c.srcB s.vlen f x i)))) ∧
  (∀ (u : CpAt) (f : VFields) (x : Bool) (s : State) (c : Cp),
    s.executes u = true →
    s.cpOf u.tile u.cp = c →
    (f.d.toNat < 16 ∧ f.d.toNat % c.pg = 0 ∧ c.vOk f.a.toNat = true ∧ (x = true ∨ c.vOk f.b.toNat = true) ∧ c.pmOk f = true) →
    exec (.clt u f x) s = .next (s.stepVec u (writePred s.vlen c f.d.toNat fun i => c.active s.vlen f i && (c.srcA s.vlen f i).slt (c.srcB s.vlen f x i)))) ∧
  (∀ (u : CpAt) (f : VFields) (x : Bool) (s : State) (c : Cp),
    s.executes u = true →
    s.cpOf u.tile u.cp = c →
    (f.d.toNat < 16 ∧ f.d.toNat % c.pg = 0 ∧ c.vOk f.a.toNat = true ∧ (x = true ∨ c.vOk f.b.toNat = true) ∧ c.pmOk f = true) →
    exec (.cle u f x) s = .next (s.stepVec u (writePred s.vlen c f.d.toNat fun i => c.active s.vlen f i && !(c.srcB s.vlen f x i).slt (c.srcA s.vlen f i)))) ∧
  (∀ (u : CpAt) (f : VFields) (x : Bool) (s : State) (c : Cp),
    s.executes u = true →
    s.cpOf u.tile u.cp = c →
    (f.d.toNat < 16 ∧ f.d.toNat % c.pg = 0 ∧ c.vOk f.a.toNat = true ∧ (x = true ∨ c.vOk f.b.toNat = true) ∧ c.pmOk f = true) →
    exec (.cgt u f x) s = .next (s.stepVec u (writePred s.vlen c f.d.toNat fun i => c.active s.vlen f i && (c.srcB s.vlen f x i).slt (c.srcA s.vlen f i)))) ∧
  (∀ (u : CpAt) (f : VFields) (x : Bool) (s : State) (c : Cp),
    s.executes u = true →
    s.cpOf u.tile u.cp = c →
    (f.d.toNat < 16 ∧ f.d.toNat % c.pg = 0 ∧ c.vOk f.a.toNat = true ∧ (x = true ∨ c.vOk f.b.toNat = true) ∧ c.pmOk f = true) →
    exec (.cge u f x) s = .next (s.stepVec u (writePred s.vlen c f.d.toNat fun i => c.active s.vlen f i && !(c.srcA s.vlen f i).slt (c.srcB s.vlen f x i)))) ∧
  (∀ (u : CpAt) (f : VFields) (x : Bool) (s : State) (c : Cp),
    s.executes u = true →
    s.cpOf u.tile u.cp = c →
    (f.d.toNat < 16 ∧ f.d.toNat % c.pg = 0 ∧ c.vOk f.a.toNat = true ∧ (x = true ∨ c.vOk f.b.toNat = true) ∧ c.pmOk f = true) →
    exec (.cltu u f x) s = .next (s.stepVec u (writePred s.vlen c f.d.toNat fun i => c.active s.vlen f i && (c.srcA s.vlen f i).ult (c.srcB s.vlen f x i)))) ∧
  (∀ (u : CpAt) (f : VFields) (x : Bool) (s : State) (c : Cp),
    s.executes u = true →
    s.cpOf u.tile u.cp = c →
    (f.d.toNat < 16 ∧ f.d.toNat % c.pg = 0 ∧ c.vOk f.a.toNat = true ∧ (x = true ∨ c.vOk f.b.toNat = true) ∧ c.pmOk f = true) →
    exec (.cleu u f x) s = .next (s.stepVec u (writePred s.vlen c f.d.toNat fun i => c.active s.vlen f i && !(c.srcB s.vlen f x i).ult (c.srcA s.vlen f i)))) ∧
  (∀ (u : CpAt) (f : VFields) (x : Bool) (s : State) (c : Cp),
    s.executes u = true →
    s.cpOf u.tile u.cp = c →
    (f.d.toNat < 16 ∧ f.d.toNat % c.pg = 0 ∧ c.vOk f.a.toNat = true ∧ (x = true ∨ c.vOk f.b.toNat = true) ∧ c.pmOk f = true) →
    exec (.cgtu u f x) s = .next (s.stepVec u (writePred s.vlen c f.d.toNat fun i => c.active s.vlen f i && (c.srcB s.vlen f x i).ult (c.srcA s.vlen f i)))) ∧
  (∀ (u : CpAt) (f : VFields) (x : Bool) (s : State) (c : Cp),
    s.executes u = true →
    s.cpOf u.tile u.cp = c →
    (f.d.toNat < 16 ∧ f.d.toNat % c.pg = 0 ∧ c.vOk f.a.toNat = true ∧ (x = true ∨ c.vOk f.b.toNat = true) ∧ c.pmOk f = true) →
    exec (.cgeu u f x) s = .next (s.stepVec u (writePred s.vlen c f.d.toNat fun i => c.active s.vlen f i && !(c.srcA s.vlen f i).ult (c.srcB s.vlen f x i)))) ∧
  (∀ (u : CpAt) (f : VFields) (x : Bool) (s : State) (c : Cp),
    s.executes u = true →
    s.cpOf u.tile u.cp = c →
    fpSew c.sewBits = true →
    (f.d.toNat < 16 ∧ f.d.toNat % c.pg = 0 ∧ c.vOk f.a.toNat = true ∧ (x = true ∨ c.vOk f.b.toNat = true) ∧ c.pmOk f = true) →
    exec (.cfeq u f x) s = .next (s.stepVec u ((c.actives s.vlen f).foldl (fun (y : Cp) i => y.flag (fpCmp 0 (vfmt c.sewBits) (c.velem s.vlen c.sewBits f.a.toNat i) (vecB s.vlen c f x i)).2) (writePred s.vlen c f.d.toNat fun i => c.active s.vlen f i && (fpCmp 0 (vfmt c.sewBits) (c.velem s.vlen c.sewBits f.a.toNat i) (vecB s.vlen c f x i)).1)))) ∧
  (∀ (u : CpAt) (f : VFields) (x : Bool) (s : State) (c : Cp),
    s.executes u = true →
    s.cpOf u.tile u.cp = c →
    fpSew c.sewBits = true →
    (f.d.toNat < 16 ∧ f.d.toNat % c.pg = 0 ∧ c.vOk f.a.toNat = true ∧ (x = true ∨ c.vOk f.b.toNat = true) ∧ c.pmOk f = true) →
    exec (.cflt u f x) s = .next (s.stepVec u ((c.actives s.vlen f).foldl (fun (y : Cp) i => y.flag (fpCmp 1 (vfmt c.sewBits) (c.velem s.vlen c.sewBits f.a.toNat i) (vecB s.vlen c f x i)).2) (writePred s.vlen c f.d.toNat fun i => c.active s.vlen f i && (fpCmp 1 (vfmt c.sewBits) (c.velem s.vlen c.sewBits f.a.toNat i) (vecB s.vlen c f x i)).1)))) ∧
  (∀ (u : CpAt) (f : VFields) (x : Bool) (s : State) (c : Cp),
    s.executes u = true →
    s.cpOf u.tile u.cp = c →
    fpSew c.sewBits = true →
    (f.d.toNat < 16 ∧ f.d.toNat % c.pg = 0 ∧ c.vOk f.a.toNat = true ∧ (x = true ∨ c.vOk f.b.toNat = true) ∧ c.pmOk f = true) →
    exec (.cfle u f x) s = .next (s.stepVec u ((c.actives s.vlen f).foldl (fun (y : Cp) i => y.flag (fpCmp 2 (vfmt c.sewBits) (c.velem s.vlen c.sewBits f.a.toNat i) (vecB s.vlen c f x i)).2) (writePred s.vlen c f.d.toNat fun i => c.active s.vlen f i && (fpCmp 2 (vfmt c.sewBits) (c.velem s.vlen c.sewBits f.a.toNat i) (vecB s.vlen c f x i)).1)))) ∧
  (∀ (u : CpAt) (f : VFields) (x : Bool) (s : State) (c : Cp),
    s.executes u = true →
    s.cpOf u.tile u.cp = c →
    fpSew c.sewBits = true →
    (f.d.toNat < 16 ∧ f.d.toNat % c.pg = 0 ∧ c.vOk f.a.toNat = true ∧ (x = true ∨ c.vOk f.b.toNat = true) ∧ c.pmOk f = true) →
    exec (.cfun u f x) s = .next (s.stepVec u ((c.actives s.vlen f).foldl (fun (y : Cp) i => y.flag (fpUnord (vfmt c.sewBits) (c.velem s.vlen c.sewBits f.a.toNat i) (vecB s.vlen c f x i)).2) (writePred s.vlen c f.d.toNat fun i => c.active s.vlen f i && (fpUnord (vfmt c.sewBits) (c.velem s.vlen c.sewBits f.a.toNat i) (vecB s.vlen c f x i)).1)))) ∧
  (∀ (u : CpAt) (f : VFields) (x : Bool) (s : State) (c : Cp),
    s.executes u = true →
    s.cpOf u.tile u.cp = c →
    fpSew c.sewBits = true →
    (f.d.toNat < 16 ∧ f.d.toNat % c.pg = 0 ∧ c.vOk f.a.toNat = true ∧ (x = true ∨ c.vOk f.b.toNat = true) ∧ c.pmOk f = true) →
    exec (.cftlt u f x) s = .next (s.stepVec u ((c.actives s.vlen f).foldl (fun (y : Cp) i => y.flag (fpTlt (vfmt c.sewBits) (c.velem s.vlen c.sewBits f.a.toNat i) (vecB s.vlen c f x i)).2) (writePred s.vlen c f.d.toNat fun i => c.active s.vlen f i && (fpTlt (vfmt c.sewBits) (c.velem s.vlen c.sewBits f.a.toNat i) (vecB s.vlen c f x i)).1)))) ∧
  (∀ (u : CpAt) (f : VFields) (s : State) (c : Cp),
    s.executes u = true →
    s.cpOf u.tile u.cp = c →
    c.sewBits = 8 ∧ f.d.toNat < 16 ∧ f.d.toNat % c.pg = 0 ∧ c.vOk f.a.toNat = true ∧ c.pmOk f = true →
    exec (.vbeq u f) s = .next (s.stepVec u (writePred s.vlen c f.d.toNat fun i => c.active s.vlen f i && decide (byteAt s.vlen c f.a.toNat i = (c.rd f.b).toNat % 256)))) ∧
  (∀ (u : CpAt) (f : VFields) (s : State) (c : Cp),
    s.executes u = true →
    s.cpOf u.tile u.cp = c →
    c.sewBits = 8 ∧ f.d.toNat < 16 ∧ f.d.toNat % c.pg = 0 ∧ c.vOk f.a.toNat = true ∧ c.pmOk f = true →
    exec (.vbrng u f) s = .next (s.stepVec u (writePred s.vlen c f.d.toNat fun i => c.active s.vlen f i && decide ((c.rd f.b).toNat % 256 ≤ byteAt s.vlen c f.a.toNat i ∧ byteAt s.vlen c f.a.toNat i ≤ (c.rd f.b).toNat / 256 % 256)))) ∧
  (∀ (u : CpAt) (f : VFields) (s : State) (c : Cp),
    s.executes u = true →
    s.cpOf u.tile u.cp = c →
    c.sewBits = 8 ∧ f.d.toNat < 16 ∧ f.d.toNat % c.pg = 0 ∧ c.vOk f.a.toNat = true ∧ c.pmOk f = true →
    exec (.vpat u f) s = .next (s.stepVec u (writePred s.vlen c f.d.toNat fun i => c.active s.vlen f i && (List.range 8).all fun k => decide (byteAt s.vlen c f.a.toNat (i + k) = bits (c.rd f.b).toNat (8 * k + 7) (8 * k))))) ∧
  (∀ (u : CpAt) (f : VFields) (s : State) (c : Cp),
    s.executes u = true →
    s.cpOf u.tile u.cp = c →
    c.sewBits = 8 ∧ f.d.toNat < 16 ∧ f.d.toNat % c.pg = 0 ∧ c.vOk f.a.toNat = true ∧ c.pmOk f = true →
    f.b.toNat % 2 = 0 →
    exec (.vpatm u f) s = .next (s.stepVec u (writePred s.vlen c f.d.toNat fun i => c.active s.vlen f i && (List.range 8).all fun k => decide ((byteAt s.vlen c f.a.toNat (i + k) ^^^ bits (c.rd f.b).toNat (8 * k + 7) (8 * k)) &&& bits (c.rd (f.b + 1)).toNat (8 * k + 7) (8 * k) = 0)))) ∧
  (∀ (u : CpAt) (f : VFields) (x : Bool) (s : State) (c : Cp),
    s.executes u = true →
    s.cpOf u.tile u.cp = c →
    16 ≤ f.d.toNat →
    exec (.ceq u f x) s = .next ((s.withCp u c (s.tile u.tile)).kernelFail u 0x0460 0))

/-- Each of these instructions writes the active elements of V[D] (VBFLY of V[A] and V[B]) with the result of its operation in the format its SEW names, sets the flags of the active elements, and goes on; with another SEW it fails the kernel with 0x0463. (R107, R181, R182, R183, R186, R188, R189, R190) -/
def Obligations.VectorFloatCompletes : Prop :=
  (∀ (u : CpAt) (f : VFields) (x : Bool) (s : State) (c : Cp),
    s.executes u = true →
    s.cpOf u.tile u.cp = c →
    fpSew c.sewBits = true →
    c.groupsOk f x = true →
    exec (.vfadd u f x) s = .next (s.stepVec u (elemwise s.vlen c.sewBits f c fun i => fpAdd (vfmt c.sewBits) (c.velem s.vlen c.sewBits f.a.toNat i) (vecB s.vlen c f x i)))) ∧
  (∀ (u : CpAt) (f : VFields) (x : Bool) (s : State) (c : Cp),
    s.executes u = true →
    s.cpOf u.tile u.cp = c →
    fpSew c.sewBits = true →
    c.groupsOk f x = true →
    exec (.vfsub u f x) s = .next (s.stepVec u (elemwise s.vlen c.sewBits f c fun i => fpSub (vfmt c.sewBits) (c.velem s.vlen c.sewBits f.a.toNat i) (vecB s.vlen c f x i)))) ∧
  (∀ (u : CpAt) (f : VFields) (x : Bool) (s : State) (c : Cp),
    s.executes u = true →
    s.cpOf u.tile u.cp = c →
    fpSew c.sewBits = true →
    c.groupsOk f x = true →
    exec (.vfmul u f x) s = .next (s.stepVec u (elemwise s.vlen c.sewBits f c fun i => fpMul (vfmt c.sewBits) (c.velem s.vlen c.sewBits f.a.toNat i) (vecB s.vlen c f x i)))) ∧
  (∀ (u : CpAt) (f : VFields) (x : Bool) (s : State) (c : Cp),
    s.executes u = true →
    s.cpOf u.tile u.cp = c →
    fpSew c.sewBits = true →
    c.groupsOk f x = true →
    exec (.vfdiv u f x) s = .next (s.stepVec u (elemwise s.vlen c.sewBits f c fun i => fpDiv (vfmt c.sewBits) (c.velem s.vlen c.sewBits f.a.toNat i) (vecB s.vlen c f x i)))) ∧
  (∀ (u : CpAt) (f : VFields) (x : Bool) (s : State) (c : Cp),
    s.executes u = true →
    s.cpOf u.tile u.cp = c →
    fpSew c.sewBits = true →
    c.groupsOk f x = true →
    exec (.vfmin u f x) s = .next (s.stepVec u (elemwise s.vlen c.sewBits f c fun i => fpMinMax false (vfmt c.sewBits) (c.velem s.vlen c.sewBits f.a.toNat i) (vecB s.vlen c f x i)))) ∧
  (∀ (u : CpAt) (f : VFields) (x : Bool) (s : State) (c : Cp),
    s.executes u = true →
    s.cpOf u.tile u.cp = c →
    fpSew c.sewBits = true →
    c.groupsOk f x = true →
    exec (.vfmax u f x) s = .next (s.stepVec u (elemwise s.vlen c.sewBits f c fun i => fpMinMax true (vfmt c.sewBits) (c.velem s.vlen c.sewBits f.a.toNat i) (vecB s.vlen c f x i)))) ∧
  (∀ (u : CpAt) (f : VFields) (x : Bool) (s : State) (c : Cp),
    s.executes u = true →
    s.cpOf u.tile u.cp = c →
    fpSew c.sewBits = true →
    c.groupsOk f x = true →
    exec (.vfma u f x) s = .next (s.stepVec u (elemwise s.vlen c.sewBits f c fun i => fpFma (vfmt c.sewBits) (c.velem s.vlen c.sewBits f.a.toNat i) (vecB s.vlen c f x i) (c.velem s.vlen c.sewBits f.d.toNat i)))) ∧
  (∀ (u : CpAt) (f : VFields) (x : Bool) (s : State) (c : Cp),
    s.executes u = true →
    s.cpOf u.tile u.cp = c →
    fpSew c.sewBits = true →
    c.groupsOk f x = true →
    exec (.vfnms u f x) s = .next (s.stepVec u (elemwise s.vlen c.sewBits f c fun i => fpFnms (vfmt c.sewBits) (c.velem s.vlen c.sewBits f.a.toNat i) (vecB s.vlen c f x i) (c.velem s.vlen c.sewBits f.d.toNat i)))) ∧
  (∀ (u : CpAt) (f : VFields) (x : Bool) (s : State) (c : Cp),
    s.executes u = true →
    s.cpOf u.tile u.cp = c →
    fpSew c.sewBits = true →
    c.vOk f.d.toNat = true ∧ c.vOk f.a.toNat = true ∧ c.pmOk f = true →
    exec (.vfsqrt u f x) s = .next (s.stepVec u (elemwise s.vlen c.sewBits f c fun i => fpSqrt (vfmt c.sewBits) (c.velem s.vlen c.sewBits f.a.toNat i)))) ∧
  (∀ (u : CpAt) (f : VFields) (s : State) (c : Cp),
    s.executes u = true →
    s.cpOf u.tile u.cp = c →
    fpSew c.sewBits = true →
    c.vOk f.d.toNat = true ∧ c.vOk f.a.toNat = true ∧ c.pmOk f = true →
    exec (.vfabs u f) s = .next (s.stepVec u (elemwise s.vlen c.sewBits f c fun i => fpAbs (vfmt c.sewBits) (c.velem s.vlen c.sewBits f.a.toNat i)))) ∧
  (∀ (u : CpAt) (f : VFields) (s : State) (c : Cp),
    s.executes u = true →
    s.cpOf u.tile u.cp = c →
    fpSew c.sewBits = true →
    c.vOk f.d.toNat = true ∧ c.vOk f.a.toNat = true ∧ c.pmOk f = true →
    exec (.vfneg u f) s = .next (s.stepVec u (elemwise s.vlen c.sewBits f c fun i => fpNeg (vfmt c.sewBits) (c.velem s.vlen c.sewBits f.a.toNat i)))) ∧
  (∀ (u : CpAt) (f : VFields) (s : State) (c : Cp),
    s.executes u = true →
    s.cpOf u.tile u.cp = c →
    fpSew c.sewBits = true →
    c.vOk f.d.toNat = true ∧ c.vOk f.a.toNat = true ∧ c.pmOk f = true →
    exec (.vcvtfi u f) s = .next (s.stepVec u (elemwise s.vlen c.sewBits f c fun i => ((fpToInt (vfmt c.sewBits) c.sewBits (c.velem s.vlen c.sewBits f.a.toNat i)).1.toNat, (fpToInt (vfmt c.sewBits) c.sewBits (c.velem s.vlen c.sewBits f.a.toNat i)).2)))) ∧
  (∀ (u : CpAt) (f : VFields) (s : State) (c : Cp),
    s.executes u = true →
    s.cpOf u.tile u.cp = c →
    fpSew c.sewBits = true →
    c.vOk f.d.toNat = true ∧ c.vOk f.a.toNat = true ∧ c.pmOk f = true →
    exec (.vcvtif u f) s = .next (s.stepVec u (elemwise s.vlen c.sewBits f c fun i => intToFp (vfmt c.sewBits) (BitVec.ofNat c.sewBits (c.velem s.vlen c.sewBits f.a.toNat i)).toInt))) ∧
  (∀ (u : CpAt) (f : VFields) (s : State) (c : Cp),
    s.executes u = true →
    s.cpOf u.tile u.cp = c →
    fpSew c.sewBits = true →
    c.vOk f.d.toNat = true ∧ c.vOk f.a.toNat = true ∧ c.pmOk f = true →
    exec (.vcvtuf u f) s = .next (s.stepVec u (elemwise s.vlen c.sewBits f c fun i => intToFp (vfmt c.sewBits) (c.velem s.vlen c.sewBits f.a.toNat i : Nat)))) ∧
  (∀ (u : CpAt) (f : VFields) (s : State) (c : Cp),
    s.executes u = true →
    s.cpOf u.tile u.cp = c →
    c.sewBits = 64 →
    c.vOk f.d.toNat = true ∧ c.vOk f.a.toNat = true ∧ c.pmOk f = true →
    exec (.vcvtds u f) s = .next (s.stepVec u (elemwise s.vlen c.sewBits f c fun i => fpToFp f64 f32 (c.velem s.vlen c.sewBits f.a.toNat i)))) ∧
  (∀ (u : CpAt) (f : VFields) (s : State) (c : Cp),
    s.executes u = true →
    s.cpOf u.tile u.cp = c →
    c.sewBits = 64 →
    c.vOk f.d.toNat = true ∧ c.vOk f.a.toNat = true ∧ c.pmOk f = true →
    exec (.vcvtsd u f) s = .next (s.stepVec u (elemwise s.vlen c.sewBits f c fun i => fpToFp f32 f64 ((c.velem s.vlen c.sewBits f.a.toNat i) % 2 ^ 32)))) ∧
  (∀ (u : CpAt) (f : VFields) (s : State) (c : Cp),
    s.executes u = true →
    s.cpOf u.tile u.cp = c →
    c.sewBits = 64 →
    c.vOk f.d.toNat = true ∧ c.vOk f.a.toNat = true ∧ c.pmOk f = true →
    exec (.vcabs2 u f) s = .next (s.stepVec u (elemwise s.vlen c.sewBits f c fun i => cfAbs2 (c.velem s.vlen c.sewBits f.a.toNat i)))) ∧
  (∀ (u : CpAt) (f : VFields) (x : Bool) (s : State) (c : Cp),
    s.executes u = true →
    s.cpOf u.tile u.cp = c →
    c.sewBits = 64 →
    c.groupsOk f x = true →
    exec (.vcmul u f x) s = .next (s.stepVec u (elemwise s.vlen c.sewBits f c fun i => cfMul (c.velem s.vlen c.sewBits f.a.toNat i) (vecB s.vlen c f x i)))) ∧
  (∀ (u : CpAt) (f : VFields) (x : Bool) (s : State) (c : Cp),
    s.executes u = true →
    s.cpOf u.tile u.cp = c →
    c.sewBits = 64 →
    c.groupsOk f x = true →
    exec (.vcmulc u f x) s = .next (s.stepVec u (elemwise s.vlen c.sewBits f c fun i => cfMulC (c.velem s.vlen c.sewBits f.a.toNat i) (vecB s.vlen c f x i)))) ∧
  (∀ (u : CpAt) (f : VFields) (x : Bool) (s : State) (c : Cp),
    s.executes u = true →
    s.cpOf u.tile u.cp = c →
    c.sewBits = 64 →
    c.groupsOk f x = true →
    exec (.vcmac u f x) s = .next (s.stepVec u (elemwise s.vlen c.sewBits f c fun i => cfMac (c.velem s.vlen c.sewBits f.d.toNat i) (c.velem s.vlen c.sewBits f.a.toNat i) (vecB s.vlen c f x i)))) ∧
  (∀ (u : CpAt) (f : VFields) (x : Bool) (s : State) (c : Cp),
    s.executes u = true →
    s.cpOf u.tile u.cp = c →
    c.sewBits = 64 →
    c.groupsOk f x = true →
    exec (.vcmacc u f x) s = .next (s.stepVec u (elemwise s.vlen c.sewBits f c fun i => cfMacC (c.velem s.vlen c.sewBits f.d.toNat i) (c.velem s.vlen c.sewBits f.a.toNat i) (vecB s.vlen c f x i)))) ∧
  (∀ (u : CpAt) (f : VFields) (x : Bool) (s : State) (c : Cp),
    s.executes u = true →
    s.cpOf u.tile u.cp = c →
    c.sewBits = 64 →
    c.groupsOk f x = true →
    exec (.vcadd u f x) s = .next (s.stepVec u (elemwise s.vlen c.sewBits f c fun i => cfAdd (c.velem s.vlen c.sewBits f.a.toNat i) (vecB s.vlen c f x i)))) ∧
  (∀ (u : CpAt) (f : VFields) (x : Bool) (s : State) (c : Cp),
    s.executes u = true →
    s.cpOf u.tile u.cp = c →
    c.sewBits = 64 →
    c.groupsOk f x = true →
    exec (.vcsub u f x) s = .next (s.stepVec u (elemwise s.vlen c.sewBits f c fun i => cfSub (c.velem s.vlen c.sewBits f.a.toNat i) (vecB s.vlen c f x i)))) ∧
  (∀ (u : CpAt) (f : VFields) (s : State) (c : Cp),
    s.executes u = true →
    s.cpOf u.tile u.cp = c →
    c.sewBits = 64 →
    c.groupsOk f false = true →
    exec (.vbfly u f) s = .next (s.stepVec u ((c.actives s.vlen f).foldl (fun (y : Cp) i => ((y.setVelem s.vlen 64 f.a.toNat i (cfAdd (c.velem s.vlen 64 f.a.toNat i) (cfMul (c.velem s.vlen 64 f.d.toNat i) (c.velem s.vlen 64 f.b.toNat i)).1).1).setVelem s.vlen 64 f.b.toNat i (cfSub (c.velem s.vlen 64 f.a.toNat i) (cfMul (c.velem s.vlen 64 f.d.toNat i) (c.velem s.vlen 64 f.b.toNat i)).1).1).flag ((cfMul (c.velem s.vlen 64 f.d.toNat i) (c.velem s.vlen 64 f.b.toNat i)).2 ||| (cfAdd (c.velem s.vlen 64 f.a.toNat i) (cfMul (c.velem s.vlen 64 f.d.toNat i) (c.velem s.vlen 64 f.b.toNat i)).1).2 ||| (cfSub (c.velem s.vlen 64 f.a.toNat i) (cfMul (c.velem s.vlen 64 f.d.toNat i) (c.velem s.vlen 64 f.b.toNat i)).1).2)) c))) ∧
  (∀ (u : CpAt) (f : VFields) (x : Bool) (s : State) (c : Cp),
    s.executes u = true →
    s.cpOf u.tile u.cp = c →
    c.sewBits = 8 →
    c.groupsOk f x = true →
    exec (.vgfmul u f x) s = .next (s.stepVec u (elemwise s.vlen c.sewBits f c fun i => (gfMul (c.velem s.vlen c.sewBits f.a.toNat i) (vecB s.vlen c f x i), 0)))) ∧
  (∀ (u : CpAt) (f : VFields) (x : Bool) (s : State) (c : Cp),
    s.executes u = true →
    s.cpOf u.tile u.cp = c →
    c.sewBits = 8 →
    c.groupsOk f x = true →
    exec (.vgfmac u f x) s = .next (s.stepVec u (elemwise s.vlen c.sewBits f c fun i => ((c.velem s.vlen c.sewBits f.d.toNat i) ^^^ gfMul (c.velem s.vlen c.sewBits f.a.toNat i) (vecB s.vlen c f x i), 0)))) ∧
  (∀ (u : CpAt) (f : VFields) (x : Bool) (s : State) (c : Cp),
    s.executes u = true →
    s.cpOf u.tile u.cp = c →
    (c.sewBits = 8 ∨ c.sewBits = 16) →
    exec (.vfadd u f x) s = .next ((s.withCp u c (s.tile u.tile)).kernelFail u 0x0463 0)) ∧
  (∀ (u : CpAt) (f : VFields) (x : Bool) (s : State) (c : Cp),
    s.executes u = true →
    s.cpOf u.tile u.cp = c →
    c.sewBits ≠ 64 →
    exec (.vcmul u f x) s = .next ((s.withCp u c (s.tile u.tile)).kernelFail u 0x0463 0)) ∧
  (∀ (u : CpAt) (f : VFields) (x : Bool) (s : State) (c : Cp),
    s.executes u = true →
    s.cpOf u.tile u.cp = c →
    c.sewBits ≠ 8 →
    exec (.vgfmul u f x) s = .next ((s.withCp u c (s.tile u.tile)).kernelFail u 0x0463 0))

/-- A reduction combines the active elements of V[A] in ascending order into G[D]; VGET, VINS, VIOTA, VCOMPRESS, VPERM, VSLUP and VSLDN move elements as R192 says; the predicate instructions write every element of P[D], or a number into G[D], over the elements below VL; PLDB and PSTB move a predicate to and from memory. (R181, R182, R183, R184, R186, R192, R193) -/
def Obligations.ReductionCompletes : Prop :=
  (∀ (u : CpAt) (f : VFields) (s : State) (c : Cp),
    s.executes u = true →
    s.cpOf u.tile u.cp = c →
    c.vOk f.a.toNat = true ∧ c.pmOk f = true →
    exec (.vredsum u f) s = .next (s.stepVec u (c.wr f.d (((c.actives s.vlen f).foldl (fun (r : BitVec c.sewBits) i => r + c.srcA s.vlen f i) 0).signExtend 64)))) ∧
  (∀ (u : CpAt) (f : VFields) (s : State) (c : Cp),
    s.executes u = true →
    s.cpOf u.tile u.cp = c →
    c.vOk f.a.toNat = true ∧ c.pmOk f = true →
    exec (.vredmin u f) s = .next (s.stepVec u (c.wr f.d (((c.actives s.vlen f).foldl (fun (r : BitVec c.sewBits) i => if (c.srcA s.vlen f i).slt r then c.srcA s.vlen f i else r) (BitVec.ofNat c.sewBits (2 ^ (c.sewBits - 1) - 1))).signExtend 64)))) ∧
  (∀ (u : CpAt) (f : VFields) (s : State) (c : Cp),
    s.executes u = true →
    s.cpOf u.tile u.cp = c →
    c.vOk f.a.toNat = true ∧ c.pmOk f = true →
    exec (.vredmax u f) s = .next (s.stepVec u (c.wr f.d (((c.actives s.vlen f).foldl (fun (r : BitVec c.sewBits) i => if r.slt (c.srcA s.vlen f i) then c.srcA s.vlen f i else r) (BitVec.ofNat c.sewBits (2 ^ (c.sewBits - 1)))).signExtend 64)))) ∧
  (∀ (u : CpAt) (f : VFields) (s : State) (c : Cp),
    s.executes u = true →
    s.cpOf u.tile u.cp = c →
    c.vOk f.a.toNat = true ∧ c.pmOk f = true →
    exec (.vredminu u f) s = .next (s.stepVec u (c.wr f.d (((c.actives s.vlen f).foldl (fun (r : BitVec c.sewBits) i => if (c.srcA s.vlen f i).ult r then c.srcA s.vlen f i else r) (BitVec.allOnes c.sewBits)).setWidth 64)))) ∧
  (∀ (u : CpAt) (f : VFields) (s : State) (c : Cp),
    s.executes u = true →
    s.cpOf u.tile u.cp = c →
    c.vOk f.a.toNat = true ∧ c.pmOk f = true →
    exec (.vredmaxu u f) s = .next (s.stepVec u (c.wr f.d (((c.actives s.vlen f).foldl (fun (r : BitVec c.sewBits) i => if r.ult (c.srcA s.vlen f i) then c.srcA s.vlen f i else r) 0).setWidth 64)))) ∧
  (∀ (u : CpAt) (f : VFields) (s : State) (c : Cp),
    s.executes u = true →
    s.cpOf u.tile u.cp = c →
    fpSew c.sewBits = true →
    c.vOk f.a.toNat = true ∧ c.pmOk f = true →
    exec (.vfredsum u f) s = .next (s.stepVec u (c.result f.d ((BitVec.ofNat c.sewBits ((c.actives s.vlen f).foldl (fun (r : Nat × KFlags) i => ((fpAdd (vfmt c.sewBits) r.1 (c.velem s.vlen c.sewBits f.a.toNat i)).1, r.2 ||| (fpAdd (vfmt c.sewBits) r.1 (c.velem s.vlen c.sewBits f.a.toNat i)).2)) (0, 0)).1).setWidth 64) ((c.actives s.vlen f).foldl (fun (r : Nat × KFlags) i => ((fpAdd (vfmt c.sewBits) r.1 (c.velem s.vlen c.sewBits f.a.toNat i)).1, r.2 ||| (fpAdd (vfmt c.sewBits) r.1 (c.velem s.vlen c.sewBits f.a.toNat i)).2)) (0, 0)).2))) ∧
  (∀ (u : CpAt) (f : VFields) (s : State) (c : Cp),
    s.executes u = true →
    s.cpOf u.tile u.cp = c →
    fpSew c.sewBits = true →
    c.vOk f.a.toNat = true ∧ c.pmOk f = true →
    exec (.vfredmin u f) s = .next (s.stepVec u (c.result f.d ((BitVec.ofNat c.sewBits ((c.actives s.vlen f).foldl (fun (r : Nat × KFlags) i => ((fpMinMax false (vfmt c.sewBits) r.1 (c.velem s.vlen c.sewBits f.a.toNat i)).1, r.2 ||| (fpMinMax false (vfmt c.sewBits) r.1 (c.velem s.vlen c.sewBits f.a.toNat i)).2)) ((vfmt c.sewBits).inf, 0)).1).setWidth 64) ((c.actives s.vlen f).foldl (fun (r : Nat × KFlags) i => ((fpMinMax false (vfmt c.sewBits) r.1 (c.velem s.vlen c.sewBits f.a.toNat i)).1, r.2 ||| (fpMinMax false (vfmt c.sewBits) r.1 (c.velem s.vlen c.sewBits f.a.toNat i)).2)) ((vfmt c.sewBits).inf, 0)).2))) ∧
  (∀ (u : CpAt) (f : VFields) (s : State) (c : Cp),
    s.executes u = true →
    s.cpOf u.tile u.cp = c →
    fpSew c.sewBits = true →
    c.vOk f.a.toNat = true ∧ c.pmOk f = true →
    exec (.vfredmax u f) s = .next (s.stepVec u (c.result f.d ((BitVec.ofNat c.sewBits ((c.actives s.vlen f).foldl (fun (r : Nat × KFlags) i => ((fpMinMax true (vfmt c.sewBits) r.1 (c.velem s.vlen c.sewBits f.a.toNat i)).1, r.2 ||| (fpMinMax true (vfmt c.sewBits) r.1 (c.velem s.vlen c.sewBits f.a.toNat i)).2)) ((vfmt c.sewBits).signed true (vfmt c.sewBits).inf, 0)).1).setWidth 64) ((c.actives s.vlen f).foldl (fun (r : Nat × KFlags) i => ((fpMinMax true (vfmt c.sewBits) r.1 (c.velem s.vlen c.sewBits f.a.toNat i)).1, r.2 ||| (fpMinMax true (vfmt c.sewBits) r.1 (c.velem s.vlen c.sewBits f.a.toNat i)).2)) ((vfmt c.sewBits).signed true (vfmt c.sewBits).inf, 0)).2))) ∧
  (∀ (u : CpAt) (f : VFields) (s : State) (c : Cp),
    s.executes u = true →
    s.cpOf u.tile u.cp = c →
    c.vOk f.a.toNat = true →
    exec (.vget u f) s = .next (s.stepVec u (c.wr f.d (BitVec.ofNat 64 (if (c.rd f.b).toNat < c.vl then c.velem s.vlen c.sewBits f.a.toNat (c.rd f.b).toNat else 0))))) ∧
  (∀ (u : CpAt) (f : VFields) (s : State) (c : Cp),
    s.executes u = true →
    s.cpOf u.tile u.cp = c →
    c.vOk f.d.toNat = true ∧ c.pmOk f = true →
    exec (.vins u f) s = .next (s.stepVec u (if c.active s.vlen f (c.rd f.b).toNat then c.setVelem s.vlen c.sewBits f.d.toNat (c.rd f.b).toNat (c.rd f.a).toNat else c))) ∧
  (∀ (u : CpAt) (f : VFields) (s : State) (c : Cp),
    s.executes u = true →
    s.cpOf u.tile u.cp = c →
    c.vOk f.d.toNat = true ∧ c.pmOk f = true →
    exec (.viota u f) s = .next (s.stepVec u (elemwise s.vlen c.sewBits f c fun i => (i, 0)))) ∧
  (∀ (u : CpAt) (f : VFields) (s : State) (c : Cp),
    s.executes u = true →
    s.cpOf u.tile u.cp = c →
    c.vOk f.d.toNat = true ∧ c.vOk f.a.toNat = true ∧ c.pmOk f = true →
    exec (.vcompress u f) s = .next (s.stepVec u ((c.actives s.vlen f).zipIdx.foldl (fun (y : Cp) e => y.setVelem s.vlen c.sewBits f.d.toNat e.2 (c.velem s.vlen c.sewBits f.a.toNat e.1)) c))) ∧
  (∀ (u : CpAt) (f : VFields) (s : State) (c : Cp),
    s.executes u = true →
    s.cpOf u.tile u.cp = c →
    c.groupsOk f false = true →
    exec (.vperm u f) s = .next (s.stepVec u (elemwise s.vlen c.sewBits f c fun i => (if c.velem s.vlen c.sewBits f.b.toNat i < c.vl then c.velem s.vlen c.sewBits f.a.toNat (c.velem s.vlen c.sewBits f.b.toNat i) else 0, 0)))) ∧
  (∀ (u : CpAt) (f : VFields) (s : State) (c : Cp),
    s.executes u = true →
    s.cpOf u.tile u.cp = c →
    c.vOk f.d.toNat = true ∧ c.vOk f.a.toNat = true ∧ c.pmOk f = true →
    exec (.vslup u f) s = .next (s.stepVec u (((c.actives s.vlen f).filter fun i => (c.rd f.b).toNat ≤ i).foldl (fun (y : Cp) i => y.setVelem s.vlen c.sewBits f.d.toNat i (c.velem s.vlen c.sewBits f.a.toNat (i - (c.rd f.b).toNat))) c))) ∧
  (∀ (u : CpAt) (f : VFields) (s : State) (c : Cp),
    s.executes u = true →
    s.cpOf u.tile u.cp = c →
    c.vOk f.d.toNat = true ∧ c.vOk f.a.toNat = true ∧ c.pmOk f = true →
    exec (.vsldn u f) s = .next (s.stepVec u (elemwise s.vlen c.sewBits f c fun i => (if i + (c.rd f.b).toNat < c.vl then c.velem s.vlen c.sewBits f.a.toNat (i + (c.rd f.b).toNat) else 0, 0)))) ∧
  (∀ (u : CpAt) (f : VFields) (s : State) (c : Cp),
    s.executes u = true →
    s.cpOf u.tile u.cp = c →
    f.d.toNat < 16 ∧ f.d.toNat % c.pg = 0 ∧ f.pe = false ∧ f.pm = 0 ∧ f.a.toNat < 16 ∧ f.a.toNat % c.pg = 0 ∧ f.b.toNat < 16 ∧ f.b.toNat % c.pg = 0 →
    exec (.pand u f) s = .next (s.stepVec u (writePred s.vlen c f.d.toNat fun i => decide (i < c.vl) && (c.pelem s.vlen f.a.toNat i && c.pelem s.vlen f.b.toNat i)))) ∧
  (∀ (u : CpAt) (f : VFields) (s : State) (c : Cp),
    s.executes u = true →
    s.cpOf u.tile u.cp = c →
    f.d.toNat < 16 ∧ f.d.toNat % c.pg = 0 ∧ f.pe = false ∧ f.pm = 0 ∧ f.a.toNat < 16 ∧ f.a.toNat % c.pg = 0 ∧ f.b.toNat < 16 ∧ f.b.toNat % c.pg = 0 →
    exec (.por u f) s = .next (s.stepVec u (writePred s.vlen c f.d.toNat fun i => decide (i < c.vl) && (c.pelem s.vlen f.a.toNat i || c.pelem s.vlen f.b.toNat i)))) ∧
  (∀ (u : CpAt) (f : VFields) (s : State) (c : Cp),
    s.executes u = true →
    s.cpOf u.tile u.cp = c →
    f.d.toNat < 16 ∧ f.d.toNat % c.pg = 0 ∧ f.pe = false ∧ f.pm = 0 ∧ f.a.toNat < 16 ∧ f.a.toNat % c.pg = 0 ∧ f.b.toNat < 16 ∧ f.b.toNat % c.pg = 0 →
    exec (.pxor u f) s = .next (s.stepVec u (writePred s.vlen c f.d.toNat fun i => decide (i < c.vl) && (c.pelem s.vlen f.a.toNat i ^^ c.pelem s.vlen f.b.toNat i)))) ∧
  (∀ (u : CpAt) (f : VFields) (s : State) (c : Cp),
    s.executes u = true →
    s.cpOf u.tile u.cp = c →
    f.d.toNat < 16 ∧ f.d.toNat % c.pg = 0 ∧ f.pe = false ∧ f.pm = 0 ∧ f.a.toNat < 16 ∧ f.a.toNat % c.pg = 0 ∧ f.b.toNat < 16 ∧ f.b.toNat % c.pg = 0 →
    exec (.pandn u f) s = .next (s.stepVec u (writePred s.vlen c f.d.toNat fun i => decide (i < c.vl) && (c.pelem s.vlen f.a.toNat i && !c.pelem s.vlen f.b.toNat i)))) ∧
  (∀ (u : CpAt) (f : VFields) (s : State) (c : Cp),
    s.executes u = true →
    s.cpOf u.tile u.cp = c →
    f.d.toNat < 16 ∧ f.d.toNat % c.pg = 0 ∧ f.pe = false ∧ f.pm = 0 ∧ f.a.toNat < 16 ∧ f.a.toNat % c.pg = 0 →
    exec (.pnot u f) s = .next (s.stepVec u (writePred s.vlen c f.d.toNat fun i => decide (i < c.vl) && !c.pelem s.vlen f.a.toNat i))) ∧
  (∀ (u : CpAt) (f : VFields) (s : State) (c : Cp),
    s.executes u = true →
    s.cpOf u.tile u.cp = c →
    f.d.toNat < 16 ∧ f.d.toNat % c.pg = 0 ∧ f.pe = false ∧ f.pm = 0 ∧ f.a.toNat < 16 ∧ f.a.toNat % c.pg = 0 →
    exec (.pmov u f) s = .next (s.stepVec u (writePred s.vlen c f.d.toNat fun i => decide (i < c.vl) && c.pelem s.vlen f.a.toNat i))) ∧
  (∀ (u : CpAt) (f : VFields) (s : State) (c : Cp),
    s.executes u = true →
    s.cpOf u.tile u.cp = c →
    f.d.toNat < 16 ∧ f.d.toNat % c.pg = 0 ∧ f.pe = false ∧ f.pm = 0 →
    exec (.pset u f) s = .next (s.stepVec u (writePred s.vlen c f.d.toNat fun i => decide (i < c.vl)))) ∧
  (∀ (u : CpAt) (f : VFields) (s : State) (c : Cp),
    s.executes u = true →
    s.cpOf u.tile u.cp = c →
    f.d.toNat < 16 ∧ f.d.toNat % c.pg = 0 ∧ f.pe = false ∧ f.pm = 0 →
    exec (.pclr u f) s = .next (s.stepVec u (writePred s.vlen c f.d.toNat fun _ => false))) ∧
  (∀ (u : CpAt) (f : VFields) (s : State) (c : Cp),
    s.executes u = true →
    s.cpOf u.tile u.cp = c →
    f.a.toNat < 16 ∧ f.a.toNat % c.pg = 0 ∧ f.pe = false ∧ f.pm = 0 →
    exec (.pcnt u f) s = .next (s.stepVec u (c.wr f.d (BitVec.ofNat 64 ((List.range c.vl).filter fun i => c.pelem s.vlen f.a.toNat i).length)))) ∧
  (∀ (u : CpAt) (f : VFields) (s : State) (c : Cp),
    s.executes u = true →
    s.cpOf u.tile u.cp = c →
    f.a.toNat < 16 ∧ f.a.toNat % c.pg = 0 ∧ f.pe = false ∧ f.pm = 0 →
    exec (.pfirst u f) s = .next (s.stepVec u (c.wr f.d (BitVec.ofNat 64 (((List.range c.vl).find? fun i => c.pelem s.vlen f.a.toNat i).getD c.vl))))) ∧
  (∀ (u : CpAt) (f : VFields) (s : State) (c : Cp),
    s.executes u = true →
    s.cpOf u.tile u.cp = c →
    f.d.toNat < 16 ∧ f.d.toNat % c.pg = 0 ∧ f.pe = false ∧ f.pm = 0 →
    exec (.pfromg u f) s = .next (s.stepVec u (writePred s.vlen c f.d.toNat fun i => decide (i < min 64 c.vl) && (c.rd f.a).getLsbD i))) ∧
  (∀ (u : CpAt) (f : VFields) (s : State) (c c1 : Cp) (bs : List Byte) (t1 : Tile),
    s.executes u = true →
    s.cpOf u.tile u.cp = c →
    f.d.toNat < 16 ∧ f.d.toNat % c.pg = 0 ∧ f.pe = false ∧ f.pm = 0 →
    s.bytesOk u false (c.rd f.a).toNat (ceilDiv c.vl 8) = true →
    cacheRead c (s.tile u.tile) (c.rd f.a).toNat (ceilDiv c.vl 8) = (bs, c1, t1) →
    exec (.pldb u f) s = .next ((s.withCp u (writePred s.vlen c1 f.d.toNat fun i => decide (i < c.vl) && (nth bs (i / 8) 0).getLsbD (i % 8)).adv t1).meter t1.ctx.toNat 1 1)) ∧
  (∀ (u : CpAt) (f : VFields) (s : State) (c c1 c2 : Cp) (bs : List Byte) (t1 t2 : Tile),
    s.executes u = true →
    s.cpOf u.tile u.cp = c →
    f.d.toNat < 16 ∧ f.d.toNat % c.pg = 0 ∧ f.pe = false ∧ f.pm = 0 →
    s.bytesOk u true (c.rd f.a).toNat (ceilDiv c.vl 8) = true →
    cacheRead c (s.tile u.tile) (c.rd f.a).toNat (ceilDiv c.vl 8) = (bs, c1, t1) →
    (cacheWrite c1 t1 (c.rd f.a).toNat ((List.range (ceilDiv c.vl 8)).map fun k => predByte s.vlen c f.d.toNat (nth bs k 0) k) = (c2, t2)) →
    exec (.pstb u f) s = .next ((s.withCp u c2.adv t2).meter t2.ctx.toNat 1 1)) ∧
  (∀ (u : CpAt) (f : VFields) (s : State) (c : Cp),
    s.executes u = true →
    s.cpOf u.tile u.cp = c →
    (f.pe = true ∨ f.pm ≠ 0 ∨ 16 ≤ f.d.toNat ∨ 16 ≤ f.a.toNat ∨ 16 ≤ f.b.toNat) →
    exec (.pand u f) s = .next ((s.withCp u c (s.tile u.tile)).kernelFail u 0x0460 0))

/-- A vector load or store whose every active element from RIX on may be accessed moves those elements in ascending order, unit-stride, by the stride of G[B] or by the unsigned indices of V[B], clears RIX and goes on. A VLDFF whose element fails instead stops there, clears the predicate from that element on and goes on. (R181, R182, R183, R186, R194, R195, R196, R197, R198) -/
def Obligations.VectorMemoryCompletes : Prop :=
  (∀ (u : CpAt) (f : VFields) (s : State) (c c1 : Cp) (t1 : Tile),
    s.executes u = true →
    s.cpOf u.tile u.cp = c →
    c.vOk f.d.toNat = true ∧ c.pmOk f = true →
    (s.vmemOk u f false (fun i => (((c.rd f.a).toNat : Int) + i * (c.sewBits / 8)) % 2 ^ 64) = true) →
    (s.vmemAll u f (loadElem false s.vlen c.sewBits f.d.toNat) (fun i => (((c.rd f.a).toNat : Int) + i * (c.sewBits / 8)) % 2 ^ 64) = (c1, t1)) →
    exec (.vld u f) s = .next ((s.withCp u { c1 with rix := 0, pc := c1.pc + 4 } t1).meter t1.ctx.toNat 1 1)) ∧
  (∀ (u : CpAt) (f : VFields) (s : State) (c c1 : Cp) (t1 : Tile),
    s.executes u = true →
    s.cpOf u.tile u.cp = c →
    c.vOk f.d.toNat = true ∧ c.pmOk f = true →
    (s.vmemOk u f false (fun i => (((c.rd f.a).toNat : Int) + i * (c.rd f.b).toInt) % 2 ^ 64) = true) →
    (s.vmemAll u f (loadElem false s.vlen c.sewBits f.d.toNat) (fun i => (((c.rd f.a).toNat : Int) + i * (c.rd f.b).toInt) % 2 ^ 64) = (c1, t1)) →
    exec (.vlds u f) s = .next ((s.withCp u { c1 with rix := 0, pc := c1.pc + 4 } t1).meter t1.ctx.toNat 1 1)) ∧
  (∀ (u : CpAt) (f : VFields) (s : State) (c c1 : Cp) (t1 : Tile),
    s.executes u = true →
    s.cpOf u.tile u.cp = c →
    c.vOk f.d.toNat = true ∧ c.pmOk f = true ∧ c.vOk f.b.toNat = true →
    (s.vmemOk u f false (fun i => (((c.rd f.a).toNat : Int) + c.velem s.vlen c.sewBits f.b.toNat i) % 2 ^ 64) = true) →
    (s.vmemAll u f (loadElem true s.vlen c.sewBits f.d.toNat) (fun i => (((c.rd f.a).toNat : Int) + c.velem s.vlen c.sewBits f.b.toNat i) % 2 ^ 64) = (c1, t1)) →
    exec (.vldx u f) s = .next ((s.withCp u { c1 with rix := 0, pc := c1.pc + 4 } t1).meter t1.ctx.toNat 1 1)) ∧
  (∀ (u : CpAt) (f : VFields) (s : State) (c c1 : Cp) (t1 : Tile),
    s.executes u = true →
    s.cpOf u.tile u.cp = c →
    c.vOk f.d.toNat = true ∧ c.pmOk f = true ∧ c.vOk f.b.toNat = true ∧ f.pe = true →
    (s.vmemOk u f false (fun i => (((c.rd f.a).toNat : Int) + c.velem s.vlen c.sewBits f.b.toNat i) % 2 ^ 64) = true) →
    (s.vmemAll u f (loadElem true s.vlen c.sewBits f.d.toNat) (fun i => (((c.rd f.a).toNat : Int) + c.velem s.vlen c.sewBits f.b.toNat i) % 2 ^ 64) = (c1, t1)) →
    exec (.vldff u f) s = .next ((s.withCp u { c1 with rix := 0, pc := c1.pc + 4 } t1).meter t1.ctx.toNat 1 1)) ∧
  (∀ (u : CpAt) (f : VFields) (s : State) (c c1 : Cp) (t1 : Tile),
    s.executes u = true →
    s.cpOf u.tile u.cp = c →
    c.vOk f.d.toNat = true ∧ c.pmOk f = true →
    (s.vmemOk u f true (fun i => (((c.rd f.a).toNat : Int) + i * (c.sewBits / 8)) % 2 ^ 64) = true) →
    (s.vmemAll u f (storeElem false s.vlen c.sewBits f.d.toNat) (fun i => (((c.rd f.a).toNat : Int) + i * (c.sewBits / 8)) % 2 ^ 64) = (c1, t1)) →
    exec (.vst u f) s = .next ((s.withCp u { c1 with rix := 0, pc := c1.pc + 4 } t1).meter t1.ctx.toNat 1 1)) ∧
  (∀ (u : CpAt) (f : VFields) (s : State) (c c1 : Cp) (t1 : Tile),
    s.executes u = true →
    s.cpOf u.tile u.cp = c →
    c.vOk f.d.toNat = true ∧ c.pmOk f = true →
    (s.vmemOk u f true (fun i => (((c.rd f.a).toNat : Int) + i * (c.rd f.b).toInt) % 2 ^ 64) = true) →
    (s.vmemAll u f (storeElem false s.vlen c.sewBits f.d.toNat) (fun i => (((c.rd f.a).toNat : Int) + i * (c.rd f.b).toInt) % 2 ^ 64) = (c1, t1)) →
    exec (.vsts u f) s = .next ((s.withCp u { c1 with rix := 0, pc := c1.pc + 4 } t1).meter t1.ctx.toNat 1 1)) ∧
  (∀ (u : CpAt) (f : VFields) (s : State) (c c1 : Cp) (t1 : Tile),
    s.executes u = true →
    s.cpOf u.tile u.cp = c →
    c.vOk f.d.toNat = true ∧ c.pmOk f = true ∧ c.vOk f.b.toNat = true →
    (s.vmemOk u f true (fun i => (((c.rd f.a).toNat : Int) + c.velem s.vlen c.sewBits f.b.toNat i) % 2 ^ 64) = true) →
    (s.vmemAll u f (storeElem true s.vlen c.sewBits f.d.toNat) (fun i => (((c.rd f.a).toNat : Int) + c.velem s.vlen c.sewBits f.b.toNat i) % 2 ^ 64) = (c1, t1)) →
    exec (.vstx u f) s = .next ((s.withCp u { c1 with rix := 0, pc := c1.pc + 4 } t1).meter t1.ctx.toNat 1 1))

/-- For every command c and state s, a step of s with c at the front of its queue is exec of c on s with the queue's rest. With nothing waiting, a step is one tick of TCLK (the model's choice, log entry 3). (01_architecture.md, 02_register_conventions.md) -/
def Obligations.StepRunsFront : Prop :=
  (∀ (c : Instr) (rest : List Instr) (s : State), step { s with pending := c :: rest } = exec c { s with pending := rest }) ∧
    (∀ s : State, s.pending = [] → step s = .next s.tick)

/-- After power-on reset the lock is armed and its log empty, the Almanac holds 0 and does not count, GLB_TILE_MAP maps logical tile k to physical tile k, every partition is OFF, no command is fetched and no plan loaded, no link is trained and mirroring is OFF with MIR_TMO 100, the member timeout is 5,000 ms, the memories are empty and no command waits. The part is a DRZ-8640 and memory that nothing has written reads 0: both are the model's choices (log entries 1 and 4). (R26, R47, R48, R100, R309, R397, R451, R462, R467, R475, R524, R526) -/
def Obligations.ResetLeaves : Prop :=
  State.reset.lock = {} ∧ State.reset.glb.badKey = 0 ∧ State.reset.glb.refused = 0 ∧
    State.reset.clk.alm = 0 ∧ State.reset.clk.counting = false ∧
    (∀ k < 4, tri (look (Tri.of 0) State.reset.glb.tileMap k) = 0x03020100 + BitVec.ofNat 32 k * 0x04040404) ∧
    (∀ p, (State.reset.part p).state = 0) ∧ State.reset.hif.cmds = [] ∧ State.reset.plans = [] ∧
    (∀ k, (State.reset.link k).state = 0) ∧ State.reset.plk.mirState = 0 ∧ State.reset.plk.mirTmo = 100 ∧
    State.reset.arc.mbrTmo = 5000 ∧ State.reset.memWf ∧ State.reset.pending = [] ∧ State.reset.variant = .drz8640

/-- A requester that may open the armed lock and writes the key holds it: REMAIN is 1,024 and falls by one in each SCLK without a G write; at 0 the lock is still open, and from the next SCLK on it is armed. No other requester is given the lock: a key write by a VF or JTAG leaves it as it stands. (R45, R47) -/
def Obligations.GuardCountsDown : Prop :=
  (∀ (r : Req) (s : State), (r = .pf0 ∨ ∃ w, r = .stw w) → s.reachable r 0x20 = true → s.lock.isOpen = false →
      ∃ t, exec (.glbGuardWrite r 0x0000A5C3) s = .next t ∧
        (∀ n, n ≤ 1024 → (Nat.repeat State.sclk n t).lock = { isOpen := true, holder := r, remain := BitVec.ofNat 11 (1024 - n) }) ∧
        ∀ n, 1024 < n → (Nat.repeat State.sclk n t).lock = {}) ∧
    (∀ (r : Req) (v : Word) (s : State), (r = .jtag ∨ ∃ n, r = .vf n) → (s.writeGuard r v).lock = s.lock)

/-- Every row that writes a G register, from a requester that does not hold the open lock, changes no register but the guard's log: REFUSED_CNT, LAST_SRC, event 75, and for a host write the bus-error record; the lock stands as it stood. (R45, R46, R304, R305, R477, R498, R515, R519, R524) -/
def Obligations.GuardRefuses : Prop :=
  (∀ (r : Req) (v : Word) (s : State),
    s.reachable r 0x10010 = true ∧ s.holds r = false →
    exec (.clkDivWrite r v) s = .next (s.refuseG r 0x10010)) ∧
  (∀ (r : Req) (v : Word) (vout : BitVec 10) (s : State),
    s.reachable r 0x60030 = true ∧ s.holds r = false →
    exec (.pwrAvsWrite r v vout) s = .next (s.refuseG r 0x60030)) ∧
  (∀ (r : Req) (env : BootEnv) (s : State),
    s.reachable r 0x60010 = true ∧ s.holds r = false ∧ env.failStack = none →
    exec (.deviceReset r env) s = .next (s.refuseG r 0x60010)) ∧
  (∀ (r : Req) (i : Nat) (v : Word) (s : State),
    i < 4 ∧ s.reachable r (0x50 + 4 * i) = true ∧ s.holds r = false →
    exec (.glbTileMapWrite r i v) s = .next (s.refuseG r (0x50 + 4 * i))) ∧
  (∀ (r : Req) (v : Word) (s : State),
    s.reachable r 0x330020 = true ∧ s.holds r = false →
    exec (.arcDestroyGo r v) s = .next (s.refuseG r 0x330020)) ∧
  (∀ (r : Req) (p : Nat) (v : Word) (s : State),
    p ≤ 5 ∧ s.reachable r (0x330100 + 4 * p) = true ∧ s.holds r = false →
    exec (.arcDpWrite r p v) s = .next (s.refuseG r (0x330100 + 4 * p))) ∧
  (∀ (r : Req) (s : State),
    s.reachable r 0x50020 = true ∧ s.holds r = false →
    exec (.trustFwActGo r) s = .next (s.refuseG r 0x50020)) ∧
  (∀ (r : Req) (s : State),
    s.reachable r 0x50038 = true ∧ s.holds r = false →
    exec (.trustKeyloadGo r) s = .next (s.refuseG r 0x50038)) ∧
  (∀ (r : Req) (v : Word) (s : State),
    s.reachable r 0x40100 = true ∧ s.holds r = false →
    exec (.vigilSvcOut r v) s = .next (s.refuseG r 0x40100))

/-- A discarded G write raises REFUSED_CNT by one up to 255, notes its requester, and leaves the lock, the Almanac, the queues and commands, the partitions' enables, the memories, the tiles and column processors, the stores and arrays as they were. (R45, R46, R48, R52) -/
def Obligations.RefusedWriteLeaves : Prop :=
  ∀ (r : Req) (ofs : Nat) (s : State),
    (s.refuseG r ofs).glb.refused = (if s.glb.refused = 255 then 255 else s.glb.refused + 1) ∧
      (s.refuseG r ofs).glb.lastSrc = BitVec.ofNat 3 (reqCode r) ∧ (s.refuseG r ofs).glb.badKey = s.glb.badKey ∧
      (s.refuseG r ofs).lock = s.lock ∧ (s.refuseG r ofs).clk = s.clk ∧ (s.refuseG r ofs).hif.queues = s.hif.queues ∧
      (s.refuseG r ofs).hif.cmds = s.hif.cmds ∧ (s.refuseG r ofs).arc = s.arc ∧ (s.refuseG r ofs).astore = s.astore ∧
      (s.refuseG r ofs).tiles = s.tiles ∧ (s.refuseG r ofs).cps = s.cps ∧ (s.refuseG r ofs).hostMem = s.hostMem ∧
      (s.refuseG r ofs).hbm = s.hbm ∧ (s.refuseG r ofs).pending = s.pending

/-- A scalar access outside what the CP may reach fails the kernel with 0x0461, an access that it may make but that is not aligned to its width with 0x0462; a load from an unstaged constant pool window stops the CP until the fill; a vector access at its first element from RIX on does the same, with RIX at that element. That 0x0461 comes before 0x0462 is the model's reading (log entry 27). (R194, R195, R197) -/
def Obligations.AccessFaults : Prop :=
  (∀ (u : CpAt) (d a : BitVec 5) (imm : BitVec 16) (s : State) (c : Cp) (ea : Nat), s.executes u = true → s.cpOf u.tile u.cp = c →
      (c.rd a + imm.signExtend 64).toNat = ea →
      (∀ x ∈ [(1, Instr.lb u d a imm), (2, .lh u d a imm), (4, .lw u d a imm), (8, .ld u d a imm), (1, .lbu u d a imm), (2, .lhu u d a imm), (4, .lwu u d a imm)],
        (2 ^ 32 ≤ ea ∨ c.mayRead ea x.1 = false → exec x.2 s = .next ((s.withCp u c (s.tile u.tile)).kernelFail u 0x0461 ea)) ∧
        (ea < 2 ^ 32 → c.mayRead ea x.1 = true → ea % x.1 ≠ 0 → exec x.2 s = .next ((s.withCp u c (s.tile u.tile)).kernelFail u 0x0462 ea)) ∧
        ∀ w, ea < 2 ^ 32 → c.mayRead ea x.1 = true → ea % x.1 = 0 → rangeStalls u.cp c (s.tile u.tile) (lineOf ea) 128 = false →
          unstaged (s.tile u.tile) ea = some w → exec x.2 s = .next (s.withCp u { c with staging := some w } (s.tile u.tile))) ∧
      ∀ x ∈ [(1, Instr.sb u d a imm), (2, .sh u d a imm), (4, .sw u d a imm), (8, .sd u d a imm)],
        (2 ^ 32 ≤ ea ∨ c.mayWrite ea x.1 = false → exec x.2 s = .next ((s.withCp u c (s.tile u.tile)).kernelFail u 0x0461 ea)) ∧
        (ea < 2 ^ 32 → c.mayWrite ea x.1 = true → ea % x.1 ≠ 0 → exec x.2 s = .next ((s.withCp u c (s.tile u.tile)).kernelFail u 0x0462 ea))) ∧
    (∀ (u : CpAt) (f : VFields) (s : State) (c : Cp) (j : Nat) (js : List Nat) (e : Nat), s.executes u = true → s.cpOf u.tile u.cp = c →
      c.vOk f.d.toNat = true → c.pmOk f = true → pendingElems s.vlen c f = j :: js →
      accFault c (wrap64 ((c.rd f.a).toNat + j * (c.sewBits / 8))) (c.sewBits / 8) (c.sewBits / 8) false = some e →
      exec (.vld u f) s = .next ((s.withCp u { c with rix := BitVec.ofNat 16 j } (s.tile u.tile)).kernelFail u e
        (wrap64 ((c.rd f.a).toNat + j * (c.sewBits / 8))).toNat))

/-- Whatever instruction a running column processor is handed, where its PC is at or beyond CODE_LEN the kernel fails with 0x0464, and the instruction has no other effect. (R200, R204) -/
def Obligations.FetchBeyondCode : Prop :=
  ∀ (u : CpAt) (s : State), s.cpRuns u = true → (s.cpOf u.tile u.cp).env.codeLen ≤ (s.cpOf u.tile u.cp).pc.toNat →
    (∀ (d a b : BitVec 5), exec (.add u d a b) s = .next (s.kernelFail u 0x0464 0) ∧ exec (.div u d a b) s = .next (s.kernelFail u 0x0464 0) ∧
      exec (.sext u d a b) s = .next (s.kernelFail u 0x0464 0) ∧ exec (.dlock u d a) s = .next (s.kernelFail u 0x0464 0) ∧
      exec (.rngci u a b) s = .next (s.kernelFail u 0x0464 0) ∧ exec (.wrsr u d a) s = .next (s.kernelFail u 0x0464 0) ∧
      exec (.jr u d a) s = .next (s.kernelFail u 0x0464 0) ∧ exec (.trap u a) s = .next (s.kernelFail u 0x0464 0)) ∧
    (∀ (d a : BitVec 5) (imm : BitVec 16), exec (.addi u d a imm) s = .next (s.kernelFail u 0x0464 0) ∧
      exec (.lw u d a imm) s = .next (s.kernelFail u 0x0464 0) ∧ exec (.sd u d a imm) s = .next (s.kernelFail u 0x0464 0) ∧
      exec (.beq u d a imm) s = .next (s.kernelFail u 0x0464 0) ∧ exec (.vcfg u d a imm) s = .next (s.kernelFail u 0x0464 0)) ∧
    (∀ (f : VFields) (x : Bool), exec (.vadd u f x) s = .next (s.kernelFail u 0x0464 0) ∧ exec (.ceq u f x) s = .next (s.kernelFail u 0x0464 0) ∧
      exec (.vld u f) s = .next (s.kernelFail u 0x0464 0) ∧ exec (.vredsum u f) s = .next (s.kernelFail u 0x0464 0) ∧
      exec (.pand u f) s = .next (s.kernelFail u 0x0464 0) ∧ exec (.vfadd u f x) s = .next (s.kernelFail u 0x0464 0)) ∧
    exec (.nop u) s = .next (s.kernelFail u 0x0464 0) ∧ exec (.fence u) s = .next (s.kernelFail u 0x0464 0)

/-- The NVMe status that a completion over the network carries (SCT, SC, DNR) is, for each device status, the one of the table; the data digest error's is carried by the write whose data piece fails its digest. (R386) -/
def Obligations.NvmeStatusMap : Prop :=
  (∀ w, nvmeStatus 0x0000 w = (0, 0x00, false)) ∧
    (∀ k w, k < 256 → nvmeStatus (0x0100 + k) w = (0, 0x02, true)) ∧ (∀ k w, k < 256 → nvmeStatus (0x0200 + k) w = (0, 0x82, false)) ∧
    (∀ w, nvmeStatus 0x0501 w = (2, 0x81, true) ∧ nvmeStatus 0x0502 w = (2, 0x81, true)) ∧
    nvmeStatus 0x0503 false = (2, 0x81, true) ∧ nvmeStatus 0x0503 true = (2, 0x80, true) ∧
    (∀ w, nvmeStatus 0x0511 w = (0, 0x80, true)) ∧ (∀ k w, k < 256 → nvmeStatus (0x0700 + k) w = (0, 0x06, false)) ∧
    (∀ (s : State) (id status conn cid : Nat) (r0 r1 : Word) (c : Cmd), s.cmd? id = some c → c.origin = .net conn cid → s.vigil.resetReq = false →
      s.current c.ctx c.gen = true →
      s.complete id status r0 r1 =
        ((s.setCmds (s.hif.cmds.filter fun x => x.id ≠ id)).capsule conn cid 0 (nvmeStatus status (c.op ≠ 0x20))).settleExports) ∧
    digestStatus = (0, 0x22, false)

/-- Bit b of field i of a packed array of w-bit fields is bit (i w + b) mod 8 of byte (i w + b) / 8, so bit 0 is the least significant; a field is below 2^w; an array of n fields takes its n w / 8 bytes, rounded up, rounded up to a multiple of 8; and the device's own packing places every field so. (R157) -/
def Obligations.PackedArrays : Prop :=
  (∀ (bs : List Byte) (w i b : Nat), b < w →
      (packedField bs w i).testBit b = ((bs[(i * w + b) / 8]?).getD 0).getLsbD ((i * w + b) % 8)) ∧
    (∀ (bs : List Byte) (w i : Nat), packedField bs w i < 2 ^ w) ∧
    (∀ w n, packedLen w n = ((n * w + 7) / 8 + 7) / 8 * 8) ∧
    (∀ (w : Nat) (xs : List Nat), (packFields w xs).length = packedLen w xs.length) ∧
    (∀ (w : Nat) (xs : List Nat) (i b : Nat) (h : i < xs.length), b < w →
      ((packFields w xs)[(i * w + b) / 8]?.getD 0).getLsbD ((i * w + b) % 8) = (xs[i]).testBit b)

/-- For each active byte VGFMUL writes A ⊗ B and VGFMAC D xor (A ⊗ B), B from V[B] or, in the .X forms, bits 7:0 of G[B]. A ⊗ B is the polynomial product of the two bytes (the xor of the shifts of A that B's bits select) less a multiple of x^8 + x^4 + x^3 + x^2 + 1 (0x11D), below 256; 0x02 ⊗ 0x80 = 0x1D. (R190) -/
def Obligations.FieldProducts : Prop :=
  (∀ a b : Nat, a < 256 → b < 256 → gfMul a b < 256 ∧
      ∃ q < 128, gfMul a b = polyMul a b ^^^ polyMul 0x11D q) ∧
    gfMul 0x02 0x80 = 0x1D ∧
    (∀ (u : CpAt) (f : VFields) (x : Bool) (s : State) (c : Cp), s.executes u = true → s.cpOf u.tile u.cp = c → c.sewBits = 8 →
      c.groupsOk f x = true →
      exec (.vgfmul u f x) s = .next (s.stepVec u (elemwise s.vlen 8 f c fun i =>
        (gfMul (c.velem s.vlen 8 f.a.toNat i) (if x then (c.rd f.b).toNat % 256 else c.velem s.vlen 8 f.b.toNat i), 0))) ∧
      exec (.vgfmac u f x) s = .next (s.stepVec u (elemwise s.vlen 8 f c fun i =>
        (c.velem s.vlen 8 f.d.toNat i ^^^
          gfMul (c.velem s.vlen 8 f.a.toNat i) (if x then (c.rd f.b).toNat % 256 else c.velem s.vlen 8 f.b.toNat i), 0))))

/-- G0 always reads 0 and writes to it are discarded; a write of another G register is what it then reads, and leaves every other register, and the rest of the CP, as it was. (R178) -/
def Obligations.GeneralRegisters : Prop :=
  (∀ c : Cp, c.rd 0 = 0) ∧ (∀ (c : Cp) (v : DWord), c.wr 0 v = c) ∧
    (∀ (c : Cp) (n : BitVec 5) (v : DWord), tableWf 0 c.g = true → n ≠ 0 → (c.wr n v).rd n = v) ∧
    (∀ (c : Cp) (n m : BitVec 5) (v : DWord), m ≠ n → (c.wr n v).rd m = c.rd m) ∧
    (∀ (c : Cp) (n : BitVec 5) (v : DWord), ∃ g, c.wr n v = { c with g := g } ∧ (tableWf 0 c.g = true → tableWf 0 g = true))

/-- For a VLEN and element width of the hardware, writing element i of a group gives that element the value's low SEW bits and leaves every other element of every register as it was; so an elementwise result gives each active element its own value and leaves the inactive ones and those at or beyond VL; nothing but the V registers and KSTAT changes. (R178, R181, R182) -/
def Obligations.VectorElements : Prop :=
  (∀ (c : Cp) (vlen w n i j x : Nat), (vlen = 1024 ∨ vlen = 2048) → (w = 8 ∨ w = 16 ∨ w = 32 ∨ w = 64) → tableWf 0 c.v = true →
      (c.setVelem vlen w n i x).velem vlen w n j = if j = i then x % 2 ^ w else c.velem vlen w n j) ∧
    (∀ (c : Cp) (vlen w i : Nat) (f : VFields) (val : Nat → Nat × KFlags), (vlen = 1024 ∨ vlen = 2048) → (w = 8 ∨ w = 16 ∨ w = 32 ∨ w = 64) →
      tableWf 0 c.v = true →
      (elemwise vlen w f c val).velem vlen w f.d.toNat i =
        if c.active vlen f i then (val i).1 % 2 ^ w else c.velem vlen w f.d.toNat i) ∧
    (∀ (c : Cp) (vlen w : Nat) (f : VFields) (val : Nat → Nat × KFlags), ∃ v k, elemwise vlen w f c val = { c with v := v, kstat := k })

/-- A predicate result gives every element of its group the value computed for it; a compare's inactive elements and those at or beyond VL are 0; nothing but the P registers changes. (R178, R181, R182) -/
def Obligations.PredicateElements : Prop :=
  (∀ (c : Cp) (vlen n i : Nat) (val : Nat → Bool), (vlen = 1024 ∨ vlen = 2048) → tableWf 0 c.p = true → i < c.pgElems vlen →
      (writePred vlen c n val).pelem vlen n i = val i) ∧
    (∀ (c : Cp) (vlen n : Nat) (val : Nat → Bool), ∃ p, writePred vlen c n val = { c with p := p }) ∧
    (∀ (c : Cp) (vlen i : Nat) (f : VFields), c.vl ≤ i → c.active vlen f i = false) ∧
    (∀ (c : Cp) (vlen i : Nat) (f : VFields), f.pe = true → c.pelem vlen f.pm.toNat i = false → c.active vlen f i = false)

/-- For operands of any width, quotient times divisor plus remainder is the dividend, in the operands' own numbers; outside the corner minimum / -1 the remainder is smaller than the divisor and has the dividend's sign; and the high half of a product with its low half is the whole product, signed and unsigned. (R187) -/
def Obligations.DivisionLaws : Prop :=
  (∀ (w : Nat) (a b : BitVec w), 0 < w → (iDiv a b).1 * b + (iRem a b).1 = a ∧ (iDivu a b).1 * b + (iRemu a b).1 = a) ∧
    (∀ (w : Nat) (a b : BitVec w), b ≠ 0 → divCorner a b = false →
      (iRem a b).1.toInt.natAbs < b.toInt.natAbs ∧ (0 ≤ a.toInt → 0 ≤ (iRem a b).1.toInt) ∧ (a.toInt ≤ 0 → (iRem a b).1.toInt ≤ 0)) ∧
    (∀ (w : Nat) (a b : BitVec w), b ≠ 0 → (iRemu a b).1.toNat < b.toNat) ∧
    (∀ (w : Nat) (a b : BitVec w), 0 < w → a.toInt * b.toInt = (iMulh a b).1.toInt * 2 ^ w + (iMul a b).1.toNat) ∧
    (∀ (w : Nat) (a b : BitVec w), a.toNat * b.toNat = (iMulhu a b).1.toNat * 2 ^ w + (iMul a b).1.toNat)

/-- With the cache disabled a scalar store that may go completes; of the tile's scratch, the bytes at G[A] + sign-extended IMM16 on are the low bytes of G[D], least significant first, and every other byte reads as before; the CP's registers and every other tile stay. (R194, R195, R214) -/
def Obligations.UncachedStores : Prop :=
  ∀ (u : CpAt) (d a : BitVec 5) (imm : BitVec 16) (s : State) (c : Cp) (ea : Nat), s.executes u = true → s.cpOf u.tile u.cp = c → c.cen = false →
    (c.rd a + imm.signExtend 64).toNat = ea → tableWf {} s.tiles = true → Memory.wf (s.tile u.tile).scratch = true →
    ∀ x ∈ [(1, Instr.sb u d a imm), (2, .sh u d a imm), (4, .sw u d a imm), (8, .sd u d a imm)],
      s.canStore u (c.rd a + imm.signExtend 64) x.1 = true →
      ∃ t, exec x.2 s = .next t ∧
        (∀ b, ea ≤ b → b < ea + x.1 → memByte (t.tile u.tile).scratch b = BitVec.ofNat 8 ((c.rd d).toNat / 256 ^ (b - ea))) ∧
        (∀ b, b < ea ∨ ea + x.1 ≤ b → memByte (t.tile u.tile).scratch b = memByte (s.tile u.tile).scratch b) ∧
        (∀ k, k ≠ u.tile → t.tile k = s.tile k) ∧ t = s.withCp u c.adv (t.tile u.tile)

/-- With the cache enabled and room for a line, a byte store that may go completes, and from then on a read through the CP's cache of the stored address gives the stored byte, of any other address what it gave before; scratch itself keeps every byte, the CP its registers. (R196, R208, R210) -/
def Obligations.CachedStores : Prop :=
  ∀ (u : CpAt) (d a : BitVec 5) (imm : BitVec 16) (s : State) (c : Cp) (ea : Nat), s.executes u = true → s.cpOf u.tile u.cp = c → c.cen = true →
    (c.rd a + imm.signExtend 64).toNat = ea → tableWf {} s.tiles = true → c.cache.length < 47 →
    (∀ l ∈ c.cache, l.data.length = 128 ∧ l.addr % 128 = 0) → s.canStore u (c.rd a + imm.signExtend 64) 1 = true →
    ∃ c1, exec (.sb u d a imm) s = .next (s.withCp u c1.adv (s.tile u.tile)) ∧ (∃ l, c1 = { c with cache := l }) ∧
      ∀ b, (cacheRd c1 (s.tile u.tile) b).1 =
        if b = ea then BitVec.ofNat 8 (c.rd d).toNat else (cacheRd c (s.tile u.tile) b).1

/-- A ring command that is fetched but whose context's generation has moved on completes with 0x0703 and has none of its own effect. (R17) -/
def Obligations.StaleCommands : Prop :=
  ∀ (s : State) (id : Nat) (c : Cmd), s.cmd? id = some c → c.phase = .fetched → s.fenceOk c = true → s.serving c.op = true →
    s.current c.ctx c.gen = false →
    (∀ i ∈ [(0x02, Instr.unloadPlan id), (0x04, .cancelPlan id), (0x23, .volWriteZeroes id), (0x24, .volDealloc id), (0x60, .hbmAlloc id), (0x61, .hbmFree id),
        (0x92, .arrCreate id), (0x94, .arrStop id), (0x95, .arrSet id), (0x98, .volCreate id), (0x9A, .volResize id)],
      c.op = i.1 → exec i.2 s = .next (s.done id 0x0703))

/-- A word whose MAJOR is not in the table decodes to nothing, and so does 0; an S-format word with a predicate field that is not 0 decodes to nothing; and what decodes keeps the fields that must be 0 at 0. (R185, R186) -/
def Obligations.IllegalWords : Prop :=
  (∀ (u : CpAt) (w : Word), (w >>> 26).toNat ∉ [0x01, 0x02, 0x03, 0x04, 0x05, 0x06, 0x07, 0x08, 0x09, 0x0A, 0x0B, 0x10, 0x11, 0x12, 0x13, 0x14, 0x15, 0x16,
      0x18, 0x19, 0x1A, 0x1B, 0x20, 0x21, 0x22, 0x23, 0x24, 0x25, 0x26, 0x27, 0x28, 0x29, 0x2A, 0x2B, 0x2C, 0x2D, 0x2E, 0x30, 0x31, 0x32, 0x34,
      0x38, 0x39, 0x3A, 0x3B, 0x3C, 0x3D, 0x3E] → cpDecode u w = none) ∧
    (∀ u, cpDecode u 0 = none) ∧
    (∀ (u : CpAt) (w : Word), (w >>> 26).toNat ∈ [0x01, 0x0B, 0x30, 0x31] → w.extractLsb' 6 5 ≠ 0 → cpDecode u w = none) ∧
    (∀ (u : CpAt) (w : Word) (i : Instr), cpDecode u w = some i → cpFieldsOk i = true)

/-- A word of each format, its fields laid out as R184 gives them, decodes to the instruction it stands for: ADD, ADDI, FMA in FP64, LW, SD, BEQ, JAL, VCFG, VADDO, CFLT with B from G, VLDX, PAND. (R180, R184, R186) -/
def Obligations.InstructionWords : Prop :=
  ∀ u : CpAt, cpDecode u 0x04221800 = some (.add u 1 2 3) ∧ cpDecode u 0x0822FFFF = some (.addi u 1 2 0xFFFF) ∧
    cpDecode u 0x2C22182D = some (.fma u 1 2 3 true) ∧ cpDecode u 0x48220010 = some (.lw u 1 2 16) ∧
    cpDecode u 0x6C220008 = some (.sd u 1 2 8) ∧ cpDecode u 0x8022FFFE = some (.beq u 1 2 0xFFFE) ∧
    cpDecode u 0x9C000004 = some (.jal u 4) ∧ cpDecode u 0xCA69000B = some (.vcfg u 19 9 11) ∧
    cpDecode u 0xE10824D8 = some (.vaddo u { a := 8, b := 4, d := 8, pe := true, pm := 3 } false) ∧
    cpDecode u 0xE8221831 = some (.cflt u { a := 2, b := 3, d := 1, pe := false, pm := 0 } true) ∧
    cpDecode u 0xA8221C40 = some (.vldx u { a := 2, b := 3, d := 1, pe := true, pm := 1 }) ∧
    cpDecode u 0xF8221800 = some (.pand u { a := 2, b := 3, d := 1, pe := false, pm := 0 })

/-- For every command that is a column processor instruction with well-formed fields, decoding the word that the encoding tables give it gives that instruction back, with every operand at every value the encoding admits. (R180, R184, R185, R186, R187) -/
def Obligations.WordsRoundTrip : Prop :=
  ∀ i : Instr, Laws.CpWords.Statement i

/-- Power-on reset leaves every byte memory, and the page table, in the canonical form that KeepsMemories keeps. (R398, R402, R438) -/
def Obligations.ResetMemories : Prop :=
  State.reset.memWf

/-- From every state, a step that answers a next state leaves exactly the rest of the queue waiting and the part what it was, and keeps host memory, HBM, steward memory, flash, every tile's scratch and the page table in their canonical form. (01_architecture.md, R398, R402, R438) -/
def Obligations.KeepsMemories : Prop :=
  ∀ s t : State, step s = .next t → t.pending = s.pending.tail ∧ t.variant = s.variant ∧ (s.memWf → t.memWf)

/-- The completion statements of the column processor's instructions give the state after one as s with its CP and its tile replaced, or with its CP alone, a vector instruction counted too. Of such a state every other CP, every other tile and every field of the machine besides is what it was; a vector instruction adds 1 to CP_VINST of the tile's partition, and changes no other counter and no other partition. (R178, R181, R415) -/
def Obligations.InstructionLeaves : Prop :=
  ∀ (u : CpAt) (s : State) (c : Cp) (t : Tile), u.cp < 4 → tableWf {} s.cps = true → tableWf {} s.tiles = true → tableWf {} s.parts = true →
    (s.withCp u c t).cpOf u.tile u.cp = c ∧ (s.withCp u c t).tile u.tile = t ∧
      (∀ n k, k < 4 → (n, k) ≠ (u.tile, u.cp) → (s.withCp u c t).cpOf n k = s.cpOf n k) ∧
      (∀ n, n ≠ u.tile → (s.withCp u c t).tile n = s.tile n) ∧
      s.withCp u c t = { s with cps := (s.withCp u c t).cps, tiles := (s.withCp u c t).tiles } ∧
      s.stepCp u c = { s with cps := (s.withCp u c.adv t).cps } ∧
      s.stepVec u c = { s.stepCp u c with parts := (s.stepVec u c).parts } ∧
      (∀ p, (p ≠ (s.tile u.tile).ctx.toNat ∨ 4096 ≤ p) → (s.stepVec u c).part p = s.part p) ∧
      ∀ p, p = (s.tile u.tile).ctx.toNat → p < 4096 → tableWf 0 (s.part p).mtr = true →
        (s.stepVec u c).part p = { s.part p with mtr := ((s.stepVec u c).part p).mtr } ∧
          ∀ i, look 0 ((s.stepVec u c).part p).mtr i = if i = 1 then look 0 (s.part p).mtr 1 + 1 else look 0 (s.part p).mtr i

/-- A read of CLK_ALM_LO, and of any 64-bit counter's low word, returns the low word and latches the high word for the requester that made it: that is what its read of the high word then gives. It changes nothing else, and disturbs no other requester's latch and no latch of another counter. (R29, R44) -/
def Obligations.LatchedReads : Prop :=
  (∀ (r : Req) (s : State), (r = .pf0 ∨ ∃ w, w < 4 ∧ r = .stw w) → s.canRead r .bar0 0x10100 = true → s.serves 0x10100 = true → tableWf 0 s.latches = true →
      ∃ t, exec (.clkAlmLoRead r) s = .next t ∧ t = { s with latches := t.latches, out := .readData r (lo32 s.clk.alm) :: s.out } ∧
        t.peekAt r .bar0 0x10104 = some (hi32 s.clk.alm) ∧
        ∀ q, (q = .pf0 ∨ ∃ w, w < 4 ∧ q = .stw w) → q ≠ r → t.peekAt q .bar0 0x10104 = s.peekAt q .bar0 0x10104) ∧
    (∀ (r : Req) (off : Nat) (s : State) (d : DWord), s.canRead r .bar0 off = true → (match r with | .vf n => s.wideVf (n - 1) off | _ => s.wide off) = some d →
      (s.peekAt r .bar0 off).isSome = true → tableWf 0 s.latches = true →
      ∃ t, exec (.counterLowRead r off) s = .next t ∧ t = { s with latches := t.latches, out := .readData r (lo32 d) :: s.out } ∧
        look 0 t.latches (latchKey r off) = hi32 d ∧
        ∀ q ofs, reqOk q = true → reqOk r = true → ofs < 2 ^ 27 → (q, ofs) ≠ (r, off) → look 0 t.latches (latchKey q ofs) = look 0 s.latches (latchKey q ofs))
end

