-- ==== Sys2Proof/Laws/Dispatch.lean ====
section
/-! SUPPORT. Laws/Dispatch.lean: exec on each constructor is that command's meaning. -/

namespace Sys2Proof.Machine

@[simp] theorem exec_registerWrite (r : Req) (sp : Space) (off : Nat) (v : Word) (s : State) : exec (.registerWrite r sp off v) s = execRegisterWrite r sp off v s := rfl
@[simp] theorem exec_reservedAccess (r : Req) (sp : Space) (off size : Nat) (wr : Bool) (s : State) : exec (.reservedAccess r sp off size wr) s = execReservedAccess r sp off size wr s := rfl
@[simp] theorem exec_rcClearingRead (r : Req) (off : Nat) (again : Word) (s : State) : exec (.rcClearingRead r off again) s = execRcClearingRead r off again s := rfl
@[simp] theorem exec_counterLowRead (r : Req) (off : Nat) (s : State) : exec (.counterLowRead r off) s = execCounterLowRead r off s := rfl
@[simp] theorem exec_clkAlmLoRead (r : Req) (s : State) : exec (.clkAlmLoRead r) s = execClkAlmLoRead r s := rfl
@[simp] theorem exec_glbGuardWrite (r : Req) (v : Word) (s : State) : exec (.glbGuardWrite r v) s = execGlbGuardWrite r v s := rfl
@[simp] theorem exec_guardExpiry (s : State) : exec (.guardExpiry) s = execGuardExpiry s := rfl
@[simp] theorem exec_triplicatedFieldVote (f : TField) (s : State) : exec (.triplicatedFieldVote f) s = execTriplicatedFieldVote f s := rfl
@[simp] theorem exec_consistencyCheckComplete (b : CheckBlock) (s : State) : exec (.consistencyCheckComplete b) s = execConsistencyCheckComplete b s := rfl
@[simp] theorem exec_generationIncrementReport (p : Nat) (s : State) : exec (.generationIncrementReport p) s = execGenerationIncrementReport p s := rfl
@[simp] theorem exec_loadPlan (id : Nat) (s : State) : exec (.loadPlan id) s = execLoadPlan id s := rfl
@[simp] theorem exec_unloadPlan (id : Nat) (s : State) : exec (.unloadPlan id) s = execUnloadPlan id s := rfl
@[simp] theorem exec_runPlan (id : Nat) (s : State) : exec (.runPlan id) s = execRunPlan id s := rfl
@[simp] theorem exec_cancelPlan (id : Nat) (s : State) : exec (.cancelPlan id) s = execCancelPlan id s := rfl
@[simp] theorem exec_runTimeout (id : Nat) (s : State) : exec (.runTimeout id) s = execRunTimeout id s := rfl
@[simp] theorem exec_morselClaim (t : Nat) (s : State) : exec (.morselClaim t) s = execMorselClaim t s := rfl
@[simp] theorem exec_morselComplete (t k : Nat) (agree : Bool) (s : State) : exec (.morselComplete t k agree) s = execMorselComplete t k agree s := rfl
@[simp] theorem exec_materialisationComplete (run mat : Nat) (s : State) : exec (.materialisationComplete run mat) s = execMaterialisationComplete run mat s := rfl
@[simp] theorem exec_materialisationError (run mat : Nat) (s : State) : exec (.materialisationError run mat) s = execMaterialisationError run mat s := rfl
@[simp] theorem exec_storeCommit (run pipe m : Nat) (s : State) : exec (.storeCommit run pipe m) s = execStoreCommit run pipe m s := rfl
@[simp] theorem exec_storePlace (run pipe : Nat) (s : State) : exec (.storePlace run pipe) s = execStorePlace run pipe s := rfl
@[simp] theorem exec_exchangeRows (dev bind : Nat) (exkey : Word) (ctx : BitVec 13) (gen : BitVec 16) (mat pipe m bucket : Nat) (rows : List Row) (s : State) : exec (.exchangeRows dev bind exkey ctx gen mat pipe m bucket rows) s = execExchangeRows dev bind exkey ctx gen mat pipe m bucket rows s := rfl
@[simp] theorem exec_exchangeEndMarker (dev bind : Nat) (exkey : Word) (mat pipe : Nat) (s : State) : exec (.exchangeEndMarker dev bind exkey mat pipe) s = execExchangeEndMarker dev bind exkey mat pipe s := rfl
@[simp] theorem exec_exchangeAbortMarker (dev bind : Nat) (exkey : Word) (s : State) : exec (.exchangeAbortMarker dev bind exkey) s = execExchangeAbortMarker dev bind exkey s := rfl
@[simp] theorem exec_noclaimWrite (r : Req) (t : Nat) (v : Word) (s : State) : exec (.noclaimWrite r t v) s = execNoclaimWrite r t v s := rfl
@[simp] theorem exec_stagingFillComplete (u : CpAt) (win : Nat) (s : State) : exec (.stagingFillComplete u win) s = execStagingFillComplete u win s := rfl
@[simp] theorem exec_kernelWatchdogExpiry (u : CpAt) (s : State) : exec (.kernelWatchdogExpiry u) s = execKernelWatchdogExpiry u s := rfl
@[simp] theorem exec_rangeOperationComplete (t : Nat) (s : State) : exec (.rangeOperationComplete t) s = execRangeOperationComplete t s := rfl
@[simp] theorem exec_cacheDisableFlush (r : Req) (u : CpAt) (s : State) : exec (.cacheDisableFlush r u) s = execCacheDisableFlush r u s := rfl
@[simp] theorem exec_cacheEnable (r : Req) (u : CpAt) (s : State) : exec (.cacheEnable r u) s = execCacheEnable r u s := rfl
@[simp] theorem exec_illegalInstruction (u : CpAt) (w : Word) (s : State) : exec (.illegalInstruction u w) s = execIllegalInstruction u w s := rfl
@[simp] theorem exec_add (u : CpAt) (d a b : BitVec 5) (s : State) : exec (.add u d a b) s = execAdd u d a b s := rfl
@[simp] theorem exec_sub (u : CpAt) (d a b : BitVec 5) (s : State) : exec (.sub u d a b) s = execSub u d a b s := rfl
@[simp] theorem exec_mul (u : CpAt) (d a b : BitVec 5) (s : State) : exec (.mul u d a b) s = execMul u d a b s := rfl
@[simp] theorem exec_mulh (u : CpAt) (d a b : BitVec 5) (s : State) : exec (.mulh u d a b) s = execMulh u d a b s := rfl
@[simp] theorem exec_mulhu (u : CpAt) (d a b : BitVec 5) (s : State) : exec (.mulhu u d a b) s = execMulhu u d a b s := rfl
@[simp] theorem exec_div (u : CpAt) (d a b : BitVec 5) (s : State) : exec (.div u d a b) s = execDiv u d a b s := rfl
@[simp] theorem exec_divu (u : CpAt) (d a b : BitVec 5) (s : State) : exec (.divu u d a b) s = execDivu u d a b s := rfl
@[simp] theorem exec_rem (u : CpAt) (d a b : BitVec 5) (s : State) : exec (.rem u d a b) s = execRem u d a b s := rfl
@[simp] theorem exec_remu (u : CpAt) (d a b : BitVec 5) (s : State) : exec (.remu u d a b) s = execRemu u d a b s := rfl
@[simp] theorem exec_and (u : CpAt) (d a b : BitVec 5) (s : State) : exec (.and u d a b) s = execAnd u d a b s := rfl
@[simp] theorem exec_or (u : CpAt) (d a b : BitVec 5) (s : State) : exec (.or u d a b) s = execOr u d a b s := rfl
@[simp] theorem exec_xor (u : CpAt) (d a b : BitVec 5) (s : State) : exec (.xor u d a b) s = execXor u d a b s := rfl
@[simp] theorem exec_shl (u : CpAt) (d a b : BitVec 5) (s : State) : exec (.shl u d a b) s = execShl u d a b s := rfl
@[simp] theorem exec_shr (u : CpAt) (d a b : BitVec 5) (s : State) : exec (.shr u d a b) s = execShr u d a b s := rfl
@[simp] theorem exec_sar (u : CpAt) (d a b : BitVec 5) (s : State) : exec (.sar u d a b) s = execSar u d a b s := rfl
@[simp] theorem exec_rotl (u : CpAt) (d a b : BitVec 5) (s : State) : exec (.rotl u d a b) s = execRotl u d a b s := rfl
@[simp] theorem exec_slt (u : CpAt) (d a b : BitVec 5) (s : State) : exec (.slt u d a b) s = execSlt u d a b s := rfl
@[simp] theorem exec_sltu (u : CpAt) (d a b : BitVec 5) (s : State) : exec (.sltu u d a b) s = execSltu u d a b s := rfl
@[simp] theorem exec_min (u : CpAt) (d a b : BitVec 5) (s : State) : exec (.min u d a b) s = execMin u d a b s := rfl
@[simp] theorem exec_max (u : CpAt) (d a b : BitVec 5) (s : State) : exec (.max u d a b) s = execMax u d a b s := rfl
@[simp] theorem exec_minu (u : CpAt) (d a b : BitVec 5) (s : State) : exec (.minu u d a b) s = execMinu u d a b s := rfl
@[simp] theorem exec_maxu (u : CpAt) (d a b : BitVec 5) (s : State) : exec (.maxu u d a b) s = execMaxu u d a b s := rfl
@[simp] theorem exec_clz (u : CpAt) (d a : BitVec 5) (s : State) : exec (.clz u d a) s = execClz u d a s := rfl
@[simp] theorem exec_ctz (u : CpAt) (d a : BitVec 5) (s : State) : exec (.ctz u d a) s = execCtz u d a s := rfl
@[simp] theorem exec_popc (u : CpAt) (d a : BitVec 5) (s : State) : exec (.popc u d a) s = execPopc u d a s := rfl
@[simp] theorem exec_addo (u : CpAt) (d a b : BitVec 5) (s : State) : exec (.addo u d a b) s = execAddo u d a b s := rfl
@[simp] theorem exec_subo (u : CpAt) (d a b : BitVec 5) (s : State) : exec (.subo u d a b) s = execSubo u d a b s := rfl
@[simp] theorem exec_mulo (u : CpAt) (d a b : BitVec 5) (s : State) : exec (.mulo u d a b) s = execMulo u d a b s := rfl
@[simp] theorem exec_sext (u : CpAt) (d a b : BitVec 5) (s : State) : exec (.sext u d a b) s = execSext u d a b s := rfl
@[simp] theorem exec_zext (u : CpAt) (d a b : BitVec 5) (s : State) : exec (.zext u d a b) s = execZext u d a b s := rfl
@[simp] theorem exec_addi (u : CpAt) (d a : BitVec 5) (imm : BitVec 16) (s : State) : exec (.addi u d a imm) s = execAddi u d a imm s := rfl
@[simp] theorem exec_andi (u : CpAt) (d a : BitVec 5) (imm : BitVec 16) (s : State) : exec (.andi u d a imm) s = execAndi u d a imm s := rfl
@[simp] theorem exec_ori (u : CpAt) (d a : BitVec 5) (imm : BitVec 16) (s : State) : exec (.ori u d a imm) s = execOri u d a imm s := rfl
@[simp] theorem exec_xori (u : CpAt) (d a : BitVec 5) (imm : BitVec 16) (s : State) : exec (.xori u d a imm) s = execXori u d a imm s := rfl
@[simp] theorem exec_shli (u : CpAt) (d a : BitVec 5) (imm : BitVec 16) (s : State) : exec (.shli u d a imm) s = execShli u d a imm s := rfl
@[simp] theorem exec_shri (u : CpAt) (d a : BitVec 5) (imm : BitVec 16) (s : State) : exec (.shri u d a imm) s = execShri u d a imm s := rfl
@[simp] theorem exec_sari (u : CpAt) (d a : BitVec 5) (imm : BitVec 16) (s : State) : exec (.sari u d a imm) s = execSari u d a imm s := rfl
@[simp] theorem exec_lui (u : CpAt) (d a : BitVec 5) (imm : BitVec 16) (s : State) : exec (.lui u d a imm) s = execLui u d a imm s := rfl
@[simp] theorem exec_slti (u : CpAt) (d a : BitVec 5) (imm : BitVec 16) (s : State) : exec (.slti u d a imm) s = execSlti u d a imm s := rfl
@[simp] theorem exec_fadd (u : CpAt) (d a b : BitVec 5) (dbl : Bool) (s : State) : exec (.fadd u d a b dbl) s = execFadd u d a b dbl s := rfl
@[simp] theorem exec_fsub (u : CpAt) (d a b : BitVec 5) (dbl : Bool) (s : State) : exec (.fsub u d a b dbl) s = execFsub u d a b dbl s := rfl
@[simp] theorem exec_fmul (u : CpAt) (d a b : BitVec 5) (dbl : Bool) (s : State) : exec (.fmul u d a b dbl) s = execFmul u d a b dbl s := rfl
@[simp] theorem exec_fdiv (u : CpAt) (d a b : BitVec 5) (dbl : Bool) (s : State) : exec (.fdiv u d a b dbl) s = execFdiv u d a b dbl s := rfl
@[simp] theorem exec_fsqrt (u : CpAt) (d a : BitVec 5) (dbl : Bool) (s : State) : exec (.fsqrt u d a dbl) s = execFsqrt u d a dbl s := rfl
@[simp] theorem exec_fmin (u : CpAt) (d a b : BitVec 5) (dbl : Bool) (s : State) : exec (.fmin u d a b dbl) s = execFmin u d a b dbl s := rfl
@[simp] theorem exec_fmax (u : CpAt) (d a b : BitVec 5) (dbl : Bool) (s : State) : exec (.fmax u d a b dbl) s = execFmax u d a b dbl s := rfl
@[simp] theorem exec_feq (u : CpAt) (d a b : BitVec 5) (dbl : Bool) (s : State) : exec (.feq u d a b dbl) s = execFeq u d a b dbl s := rfl
@[simp] theorem exec_flt (u : CpAt) (d a b : BitVec 5) (dbl : Bool) (s : State) : exec (.flt u d a b dbl) s = execFlt u d a b dbl s := rfl
@[simp] theorem exec_fle (u : CpAt) (d a b : BitVec 5) (dbl : Bool) (s : State) : exec (.fle u d a b dbl) s = execFle u d a b dbl s := rfl
@[simp] theorem exec_fcvti (u : CpAt) (d a : BitVec 5) (dbl : Bool) (s : State) : exec (.fcvti u d a dbl) s = execFcvti u d a dbl s := rfl
@[simp] theorem exec_fcvtf (u : CpAt) (d a : BitVec 5) (dbl : Bool) (s : State) : exec (.fcvtf u d a dbl) s = execFcvtf u d a dbl s := rfl
@[simp] theorem exec_fcvtp (u : CpAt) (d a : BitVec 5) (dbl : Bool) (s : State) : exec (.fcvtp u d a dbl) s = execFcvtp u d a dbl s := rfl
@[simp] theorem exec_fma (u : CpAt) (d a b : BitVec 5) (dbl : Bool) (s : State) : exec (.fma u d a b dbl) s = execFma u d a b dbl s := rfl
@[simp] theorem exec_lb (u : CpAt) (d a : BitVec 5) (imm : BitVec 16) (s : State) : exec (.lb u d a imm) s = execLb u d a imm s := rfl
@[simp] theorem exec_lh (u : CpAt) (d a : BitVec 5) (imm : BitVec 16) (s : State) : exec (.lh u d a imm) s = execLh u d a imm s := rfl
@[simp] theorem exec_lw (u : CpAt) (d a : BitVec 5) (imm : BitVec 16) (s : State) : exec (.lw u d a imm) s = execLw u d a imm s := rfl
@[simp] theorem exec_ld (u : CpAt) (d a : BitVec 5) (imm : BitVec 16) (s : State) : exec (.ld u d a imm) s = execLd u d a imm s := rfl
@[simp] theorem exec_lbu (u : CpAt) (d a : BitVec 5) (imm : BitVec 16) (s : State) : exec (.lbu u d a imm) s = execLbu u d a imm s := rfl
@[simp] theorem exec_lhu (u : CpAt) (d a : BitVec 5) (imm : BitVec 16) (s : State) : exec (.lhu u d a imm) s = execLhu u d a imm s := rfl
@[simp] theorem exec_lwu (u : CpAt) (d a : BitVec 5) (imm : BitVec 16) (s : State) : exec (.lwu u d a imm) s = execLwu u d a imm s := rfl
@[simp] theorem exec_sb (u : CpAt) (d a : BitVec 5) (imm : BitVec 16) (s : State) : exec (.sb u d a imm) s = execSb u d a imm s := rfl
@[simp] theorem exec_sh (u : CpAt) (d a : BitVec 5) (imm : BitVec 16) (s : State) : exec (.sh u d a imm) s = execSh u d a imm s := rfl
@[simp] theorem exec_sw (u : CpAt) (d a : BitVec 5) (imm : BitVec 16) (s : State) : exec (.sw u d a imm) s = execSw u d a imm s := rfl
@[simp] theorem exec_sd (u : CpAt) (d a : BitVec 5) (imm : BitVec 16) (s : State) : exec (.sd u d a imm) s = execSd u d a imm s := rfl
@[simp] theorem exec_beq (u : CpAt) (a b : BitVec 5) (ofs : BitVec 16) (s : State) : exec (.beq u a b ofs) s = execBeq u a b ofs s := rfl
@[simp] theorem exec_bne (u : CpAt) (a b : BitVec 5) (ofs : BitVec 16) (s : State) : exec (.bne u a b ofs) s = execBne u a b ofs s := rfl
@[simp] theorem exec_blt (u : CpAt) (a b : BitVec 5) (ofs : BitVec 16) (s : State) : exec (.blt u a b ofs) s = execBlt u a b ofs s := rfl
@[simp] theorem exec_bge (u : CpAt) (a b : BitVec 5) (ofs : BitVec 16) (s : State) : exec (.bge u a b ofs) s = execBge u a b ofs s := rfl
@[simp] theorem exec_bltu (u : CpAt) (a b : BitVec 5) (ofs : BitVec 16) (s : State) : exec (.bltu u a b ofs) s = execBltu u a b ofs s := rfl
@[simp] theorem exec_bgeu (u : CpAt) (a b : BitVec 5) (ofs : BitVec 16) (s : State) : exec (.bgeu u a b ofs) s = execBgeu u a b ofs s := rfl
@[simp] theorem exec_jmp (u : CpAt) (ofs : BitVec 26) (s : State) : exec (.jmp u ofs) s = execJmp u ofs s := rfl
@[simp] theorem exec_jal (u : CpAt) (ofs : BitVec 26) (s : State) : exec (.jal u ofs) s = execJal u ofs s := rfl
@[simp] theorem exec_vld (u : CpAt) (f : VFields) (s : State) : exec (.vld u f) s = execVld u f s := rfl
@[simp] theorem exec_vlds (u : CpAt) (f : VFields) (s : State) : exec (.vlds u f) s = execVlds u f s := rfl
@[simp] theorem exec_vldx (u : CpAt) (f : VFields) (s : State) : exec (.vldx u f) s = execVldx u f s := rfl
@[simp] theorem exec_vldff (u : CpAt) (f : VFields) (s : State) : exec (.vldff u f) s = execVldff u f s := rfl
@[simp] theorem exec_vst (u : CpAt) (f : VFields) (s : State) : exec (.vst u f) s = execVst u f s := rfl
@[simp] theorem exec_vsts (u : CpAt) (f : VFields) (s : State) : exec (.vsts u f) s = execVsts u f s := rfl
@[simp] theorem exec_vstx (u : CpAt) (f : VFields) (s : State) : exec (.vstx u f) s = execVstx u f s := rfl
@[simp] theorem exec_halt (u : CpAt) (s : State) : exec (.halt u) s = execHalt u s := rfl
@[simp] theorem exec_fence (u : CpAt) (s : State) : exec (.fence u) s = execFence u s := rfl
@[simp] theorem exec_rdsr (u : CpAt) (d a : BitVec 5) (s : State) : exec (.rdsr u d a) s = execRdsr u d a s := rfl
@[simp] theorem exec_wrsr (u : CpAt) (d a : BitVec 5) (s : State) : exec (.wrsr u d a) s = execWrsr u d a s := rfl
@[simp] theorem exec_trap (u : CpAt) (a : BitVec 5) (s : State) : exec (.trap u a) s = execTrap u a s := rfl
@[simp] theorem exec_jr (u : CpAt) (d a : BitVec 5) (s : State) : exec (.jr u d a) s = execJr u d a s := rfl
@[simp] theorem exec_nop (u : CpAt) (s : State) : exec (.nop u) s = execNop u s := rfl
@[simp] theorem exec_dcz (u : CpAt) (a : BitVec 5) (s : State) : exec (.dcz u a) s = execDcz u a s := rfl
@[simp] theorem exec_dcl (u : CpAt) (a : BitVec 5) (s : State) : exec (.dcl u a) s = execDcl u a s := rfl
@[simp] theorem exec_dci (u : CpAt) (a : BitVec 5) (s : State) : exec (.dci u a) s = execDci u a s := rfl
@[simp] theorem exec_dcci (u : CpAt) (a : BitVec 5) (s : State) : exec (.dcci u a) s = execDcci u a s := rfl
@[simp] theorem exec_dlock (u : CpAt) (d a : BitVec 5) (s : State) : exec (.dlock u d a) s = execDlock u d a s := rfl
@[simp] theorem exec_dunlock (u : CpAt) (a : BitVec 5) (s : State) : exec (.dunlock u a) s = execDunlock u a s := rfl
@[simp] theorem exec_rngc (u : CpAt) (a b : BitVec 5) (s : State) : exec (.rngc u a b) s = execRngc u a b s := rfl
@[simp] theorem exec_rngi (u : CpAt) (a b : BitVec 5) (s : State) : exec (.rngi u a b) s = execRngi u a b s := rfl
@[simp] theorem exec_rngci (u : CpAt) (a b : BitVec 5) (s : State) : exec (.rngci u a b) s = execRngci u a b s := rfl
@[simp] theorem exec_rngiIncludeLocked (u : CpAt) (a b : BitVec 5) (s : State) : exec (.rngiIncludeLocked u a b) s = execRngiIncludeLocked u a b s := rfl
@[simp] theorem exec_rngciIncludeLocked (u : CpAt) (a b : BitVec 5) (s : State) : exec (.rngciIncludeLocked u a b) s = execRngciIncludeLocked u a b s := rfl
@[simp] theorem exec_vcfg (u : CpAt) (d a : BitVec 5) (imm : BitVec 16) (s : State) : exec (.vcfg u d a imm) s = execVcfg u d a imm s := rfl
@[simp] theorem exec_vredsum (u : CpAt) (f : VFields) (s : State) : exec (.vredsum u f) s = execVredsum u f s := rfl
@[simp] theorem exec_vredmin (u : CpAt) (f : VFields) (s : State) : exec (.vredmin u f) s = execVredmin u f s := rfl
@[simp] theorem exec_vredmax (u : CpAt) (f : VFields) (s : State) : exec (.vredmax u f) s = execVredmax u f s := rfl
@[simp] theorem exec_vredminu (u : CpAt) (f : VFields) (s : State) : exec (.vredminu u f) s = execVredminu u f s := rfl
@[simp] theorem exec_vredmaxu (u : CpAt) (f : VFields) (s : State) : exec (.vredmaxu u f) s = execVredmaxu u f s := rfl
@[simp] theorem exec_vfredsum (u : CpAt) (f : VFields) (s : State) : exec (.vfredsum u f) s = execVfredsum u f s := rfl
@[simp] theorem exec_vfredmin (u : CpAt) (f : VFields) (s : State) : exec (.vfredmin u f) s = execVfredmin u f s := rfl
@[simp] theorem exec_vfredmax (u : CpAt) (f : VFields) (s : State) : exec (.vfredmax u f) s = execVfredmax u f s := rfl
@[simp] theorem exec_vget (u : CpAt) (f : VFields) (s : State) : exec (.vget u f) s = execVget u f s := rfl
@[simp] theorem exec_vins (u : CpAt) (f : VFields) (s : State) : exec (.vins u f) s = execVins u f s := rfl
@[simp] theorem exec_viota (u : CpAt) (f : VFields) (s : State) : exec (.viota u f) s = execViota u f s := rfl
@[simp] theorem exec_vcompress (u : CpAt) (f : VFields) (s : State) : exec (.vcompress u f) s = execVcompress u f s := rfl
@[simp] theorem exec_vperm (u : CpAt) (f : VFields) (s : State) : exec (.vperm u f) s = execVperm u f s := rfl
@[simp] theorem exec_vslup (u : CpAt) (f : VFields) (s : State) : exec (.vslup u f) s = execVslup u f s := rfl
@[simp] theorem exec_vsldn (u : CpAt) (f : VFields) (s : State) : exec (.vsldn u f) s = execVsldn u f s := rfl
@[simp] theorem exec_vadd (u : CpAt) (f : VFields) (x : Bool) (s : State) : exec (.vadd u f x) s = execVadd u f x s := rfl
@[simp] theorem exec_vsub (u : CpAt) (f : VFields) (x : Bool) (s : State) : exec (.vsub u f x) s = execVsub u f x s := rfl
@[simp] theorem exec_vmul (u : CpAt) (f : VFields) (x : Bool) (s : State) : exec (.vmul u f x) s = execVmul u f x s := rfl
@[simp] theorem exec_vmulh (u : CpAt) (f : VFields) (x : Bool) (s : State) : exec (.vmulh u f x) s = execVmulh u f x s := rfl
@[simp] theorem exec_vmulhu (u : CpAt) (f : VFields) (x : Bool) (s : State) : exec (.vmulhu u f x) s = execVmulhu u f x s := rfl
@[simp] theorem exec_vdiv (u : CpAt) (f : VFields) (x : Bool) (s : State) : exec (.vdiv u f x) s = execVdiv u f x s := rfl
@[simp] theorem exec_vdivu (u : CpAt) (f : VFields) (x : Bool) (s : State) : exec (.vdivu u f x) s = execVdivu u f x s := rfl
@[simp] theorem exec_vrem (u : CpAt) (f : VFields) (x : Bool) (s : State) : exec (.vrem u f x) s = execVrem u f x s := rfl
@[simp] theorem exec_vremu (u : CpAt) (f : VFields) (x : Bool) (s : State) : exec (.vremu u f x) s = execVremu u f x s := rfl
@[simp] theorem exec_vand (u : CpAt) (f : VFields) (x : Bool) (s : State) : exec (.vand u f x) s = execVand u f x s := rfl
@[simp] theorem exec_vor (u : CpAt) (f : VFields) (x : Bool) (s : State) : exec (.vor u f x) s = execVor u f x s := rfl
@[simp] theorem exec_vxor (u : CpAt) (f : VFields) (x : Bool) (s : State) : exec (.vxor u f x) s = execVxor u f x s := rfl
@[simp] theorem exec_vshl (u : CpAt) (f : VFields) (x : Bool) (s : State) : exec (.vshl u f x) s = execVshl u f x s := rfl
@[simp] theorem exec_vshr (u : CpAt) (f : VFields) (x : Bool) (s : State) : exec (.vshr u f x) s = execVshr u f x s := rfl
@[simp] theorem exec_vsar (u : CpAt) (f : VFields) (x : Bool) (s : State) : exec (.vsar u f x) s = execVsar u f x s := rfl
@[simp] theorem exec_vrotl (u : CpAt) (f : VFields) (x : Bool) (s : State) : exec (.vrotl u f x) s = execVrotl u f x s := rfl
@[simp] theorem exec_vmin (u : CpAt) (f : VFields) (x : Bool) (s : State) : exec (.vmin u f x) s = execVmin u f x s := rfl
@[simp] theorem exec_vmax (u : CpAt) (f : VFields) (x : Bool) (s : State) : exec (.vmax u f x) s = execVmax u f x s := rfl
@[simp] theorem exec_vminu (u : CpAt) (f : VFields) (x : Bool) (s : State) : exec (.vminu u f x) s = execVminu u f x s := rfl
@[simp] theorem exec_vmaxu (u : CpAt) (f : VFields) (x : Bool) (s : State) : exec (.vmaxu u f x) s = execVmaxu u f x s := rfl
@[simp] theorem exec_vadds (u : CpAt) (f : VFields) (x : Bool) (s : State) : exec (.vadds u f x) s = execVadds u f x s := rfl
@[simp] theorem exec_vsubs (u : CpAt) (f : VFields) (x : Bool) (s : State) : exec (.vsubs u f x) s = execVsubs u f x s := rfl
@[simp] theorem exec_vaddsu (u : CpAt) (f : VFields) (x : Bool) (s : State) : exec (.vaddsu u f x) s = execVaddsu u f x s := rfl
@[simp] theorem exec_vsubsu (u : CpAt) (f : VFields) (x : Bool) (s : State) : exec (.vsubsu u f x) s = execVsubsu u f x s := rfl
@[simp] theorem exec_vaddo (u : CpAt) (f : VFields) (x : Bool) (s : State) : exec (.vaddo u f x) s = execVaddo u f x s := rfl
@[simp] theorem exec_vsubo (u : CpAt) (f : VFields) (x : Bool) (s : State) : exec (.vsubo u f x) s = execVsubo u f x s := rfl
@[simp] theorem exec_vmulo (u : CpAt) (f : VFields) (x : Bool) (s : State) : exec (.vmulo u f x) s = execVmulo u f x s := rfl
@[simp] theorem exec_vmv (u : CpAt) (f : VFields) (x : Bool) (s : State) : exec (.vmv u f x) s = execVmv u f x s := rfl
@[simp] theorem exec_vmerge (u : CpAt) (f : VFields) (x : Bool) (s : State) : exec (.vmerge u f x) s = execVmerge u f x s := rfl
@[simp] theorem exec_vsexth (u : CpAt) (f : VFields) (x : Bool) (s : State) : exec (.vsexth u f x) s = execVsexth u f x s := rfl
@[simp] theorem exec_vzexth (u : CpAt) (f : VFields) (x : Bool) (s : State) : exec (.vzexth u f x) s = execVzexth u f x s := rfl
@[simp] theorem exec_vnarh (u : CpAt) (f : VFields) (x : Bool) (s : State) : exec (.vnarh u f x) s = execVnarh u f x s := rfl
@[simp] theorem exec_vpopc (u : CpAt) (f : VFields) (x : Bool) (s : State) : exec (.vpopc u f x) s = execVpopc u f x s := rfl
@[simp] theorem exec_vclz (u : CpAt) (f : VFields) (x : Bool) (s : State) : exec (.vclz u f x) s = execVclz u f x s := rfl
@[simp] theorem exec_ceq (u : CpAt) (f : VFields) (x : Bool) (s : State) : exec (.ceq u f x) s = execCeq u f x s := rfl
@[simp] theorem exec_cne (u : CpAt) (f : VFields) (x : Bool) (s : State) : exec (.cne u f x) s = execCne u f x s := rfl
@[simp] theorem exec_clt (u : CpAt) (f : VFields) (x : Bool) (s : State) : exec (.clt u f x) s = execClt u f x s := rfl
@[simp] theorem exec_cle (u : CpAt) (f : VFields) (x : Bool) (s : State) : exec (.cle u f x) s = execCle u f x s := rfl
@[simp] theorem exec_cgt (u : CpAt) (f : VFields) (x : Bool) (s : State) : exec (.cgt u f x) s = execCgt u f x s := rfl
@[simp] theorem exec_cge (u : CpAt) (f : VFields) (x : Bool) (s : State) : exec (.cge u f x) s = execCge u f x s := rfl
@[simp] theorem exec_cltu (u : CpAt) (f : VFields) (x : Bool) (s : State) : exec (.cltu u f x) s = execCltu u f x s := rfl
@[simp] theorem exec_cleu (u : CpAt) (f : VFields) (x : Bool) (s : State) : exec (.cleu u f x) s = execCleu u f x s := rfl
@[simp] theorem exec_cgtu (u : CpAt) (f : VFields) (x : Bool) (s : State) : exec (.cgtu u f x) s = execCgtu u f x s := rfl
@[simp] theorem exec_cgeu (u : CpAt) (f : VFields) (x : Bool) (s : State) : exec (.cgeu u f x) s = execCgeu u f x s := rfl
@[simp] theorem exec_cfeq (u : CpAt) (f : VFields) (x : Bool) (s : State) : exec (.cfeq u f x) s = execCfeq u f x s := rfl
@[simp] theorem exec_cflt (u : CpAt) (f : VFields) (x : Bool) (s : State) : exec (.cflt u f x) s = execCflt u f x s := rfl
@[simp] theorem exec_cfle (u : CpAt) (f : VFields) (x : Bool) (s : State) : exec (.cfle u f x) s = execCfle u f x s := rfl
@[simp] theorem exec_cfun (u : CpAt) (f : VFields) (x : Bool) (s : State) : exec (.cfun u f x) s = execCfun u f x s := rfl
@[simp] theorem exec_cftlt (u : CpAt) (f : VFields) (x : Bool) (s : State) : exec (.cftlt u f x) s = execCftlt u f x s := rfl
@[simp] theorem exec_vbeq (u : CpAt) (f : VFields) (s : State) : exec (.vbeq u f) s = execVbeq u f s := rfl
@[simp] theorem exec_vbrng (u : CpAt) (f : VFields) (s : State) : exec (.vbrng u f) s = execVbrng u f s := rfl
@[simp] theorem exec_vpat (u : CpAt) (f : VFields) (s : State) : exec (.vpat u f) s = execVpat u f s := rfl
@[simp] theorem exec_vpatm (u : CpAt) (f : VFields) (s : State) : exec (.vpatm u f) s = execVpatm u f s := rfl
@[simp] theorem exec_vfadd (u : CpAt) (f : VFields) (x : Bool) (s : State) : exec (.vfadd u f x) s = execVfadd u f x s := rfl
@[simp] theorem exec_vfsub (u : CpAt) (f : VFields) (x : Bool) (s : State) : exec (.vfsub u f x) s = execVfsub u f x s := rfl
@[simp] theorem exec_vfmul (u : CpAt) (f : VFields) (x : Bool) (s : State) : exec (.vfmul u f x) s = execVfmul u f x s := rfl
@[simp] theorem exec_vfdiv (u : CpAt) (f : VFields) (x : Bool) (s : State) : exec (.vfdiv u f x) s = execVfdiv u f x s := rfl
@[simp] theorem exec_vfsqrt (u : CpAt) (f : VFields) (x : Bool) (s : State) : exec (.vfsqrt u f x) s = execVfsqrt u f x s := rfl
@[simp] theorem exec_vfmin (u : CpAt) (f : VFields) (x : Bool) (s : State) : exec (.vfmin u f x) s = execVfmin u f x s := rfl
@[simp] theorem exec_vfmax (u : CpAt) (f : VFields) (x : Bool) (s : State) : exec (.vfmax u f x) s = execVfmax u f x s := rfl
@[simp] theorem exec_vfma (u : CpAt) (f : VFields) (x : Bool) (s : State) : exec (.vfma u f x) s = execVfma u f x s := rfl
@[simp] theorem exec_vfnms (u : CpAt) (f : VFields) (x : Bool) (s : State) : exec (.vfnms u f x) s = execVfnms u f x s := rfl
@[simp] theorem exec_vfabs (u : CpAt) (f : VFields) (s : State) : exec (.vfabs u f) s = execVfabs u f s := rfl
@[simp] theorem exec_vfneg (u : CpAt) (f : VFields) (s : State) : exec (.vfneg u f) s = execVfneg u f s := rfl
@[simp] theorem exec_vcvtfi (u : CpAt) (f : VFields) (s : State) : exec (.vcvtfi u f) s = execVcvtfi u f s := rfl
@[simp] theorem exec_vcvtif (u : CpAt) (f : VFields) (s : State) : exec (.vcvtif u f) s = execVcvtif u f s := rfl
@[simp] theorem exec_vcvtuf (u : CpAt) (f : VFields) (s : State) : exec (.vcvtuf u f) s = execVcvtuf u f s := rfl
@[simp] theorem exec_vcvtds (u : CpAt) (f : VFields) (s : State) : exec (.vcvtds u f) s = execVcvtds u f s := rfl
@[simp] theorem exec_vcvtsd (u : CpAt) (f : VFields) (s : State) : exec (.vcvtsd u f) s = execVcvtsd u f s := rfl
@[simp] theorem exec_vcmul (u : CpAt) (f : VFields) (x : Bool) (s : State) : exec (.vcmul u f x) s = execVcmul u f x s := rfl
@[simp] theorem exec_vcmulc (u : CpAt) (f : VFields) (x : Bool) (s : State) : exec (.vcmulc u f x) s = execVcmulc u f x s := rfl
@[simp] theorem exec_vcmac (u : CpAt) (f : VFields) (x : Bool) (s : State) : exec (.vcmac u f x) s = execVcmac u f x s := rfl
@[simp] theorem exec_vcmacc (u : CpAt) (f : VFields) (x : Bool) (s : State) : exec (.vcmacc u f x) s = execVcmacc u f x s := rfl
@[simp] theorem exec_vcadd (u : CpAt) (f : VFields) (x : Bool) (s : State) : exec (.vcadd u f x) s = execVcadd u f x s := rfl
@[simp] theorem exec_vcsub (u : CpAt) (f : VFields) (x : Bool) (s : State) : exec (.vcsub u f x) s = execVcsub u f x s := rfl
@[simp] theorem exec_vcabs2 (u : CpAt) (f : VFields) (s : State) : exec (.vcabs2 u f) s = execVcabs2 u f s := rfl
@[simp] theorem exec_vbfly (u : CpAt) (f : VFields) (s : State) : exec (.vbfly u f) s = execVbfly u f s := rfl
@[simp] theorem exec_vgfmul (u : CpAt) (f : VFields) (x : Bool) (s : State) : exec (.vgfmul u f x) s = execVgfmul u f x s := rfl
@[simp] theorem exec_vgfmac (u : CpAt) (f : VFields) (x : Bool) (s : State) : exec (.vgfmac u f x) s = execVgfmac u f x s := rfl
@[simp] theorem exec_pand (u : CpAt) (f : VFields) (s : State) : exec (.pand u f) s = execPand u f s := rfl
@[simp] theorem exec_por (u : CpAt) (f : VFields) (s : State) : exec (.por u f) s = execPor u f s := rfl
@[simp] theorem exec_pxor (u : CpAt) (f : VFields) (s : State) : exec (.pxor u f) s = execPxor u f s := rfl
@[simp] theorem exec_pandn (u : CpAt) (f : VFields) (s : State) : exec (.pandn u f) s = execPandn u f s := rfl
@[simp] theorem exec_pnot (u : CpAt) (f : VFields) (s : State) : exec (.pnot u f) s = execPnot u f s := rfl
@[simp] theorem exec_pset (u : CpAt) (f : VFields) (s : State) : exec (.pset u f) s = execPset u f s := rfl
@[simp] theorem exec_pclr (u : CpAt) (f : VFields) (s : State) : exec (.pclr u f) s = execPclr u f s := rfl
@[simp] theorem exec_pmov (u : CpAt) (f : VFields) (s : State) : exec (.pmov u f) s = execPmov u f s := rfl
@[simp] theorem exec_pcnt (u : CpAt) (f : VFields) (s : State) : exec (.pcnt u f) s = execPcnt u f s := rfl
@[simp] theorem exec_pfirst (u : CpAt) (f : VFields) (s : State) : exec (.pfirst u f) s = execPfirst u f s := rfl
@[simp] theorem exec_pfromg (u : CpAt) (f : VFields) (s : State) : exec (.pfromg u f) s = execPfromg u f s := rfl
@[simp] theorem exec_pldb (u : CpAt) (f : VFields) (s : State) : exec (.pldb u f) s = execPldb u f s := rfl
@[simp] theorem exec_pstb (u : CpAt) (f : VFields) (s : State) : exec (.pstb u f) s = execPstb u f s := rfl
@[simp] theorem exec_astoreOwnerWrite (r : Req) (b : Nat) (v : Word) (s : State) : exec (.astoreOwnerWrite r b v) s = execAstoreOwnerWrite r b v s := rfl
@[simp] theorem exec_bankClearComplete (b : Nat) (s : State) : exec (.bankClearComplete b) s = execBankClearComplete b s := rfl
@[simp] theorem exec_astCreate (id : Nat) (s : State) : exec (.astCreate id) s = execAstCreate id s := rfl
@[simp] theorem exec_astDestroy (id : Nat) (s : State) : exec (.astDestroy id) s = execAstDestroy id s := rfl
@[simp] theorem exec_astLoad (id : Nat) (s : State) : exec (.astLoad id) s = execAstLoad id s := rfl
@[simp] theorem exec_astInsert (id : Nat) (s : State) : exec (.astInsert id) s = execAstInsert id s := rfl
@[simp] theorem exec_astDelete (id : Nat) (s : State) : exec (.astDelete id) s = execAstDelete id s := rfl
@[simp] theorem exec_astSearch (id : Nat) (s : State) : exec (.astSearch id) s = execAstSearch id s := rfl
@[simp] theorem exec_astRespread (id : Nat) (s : State) : exec (.astRespread id) s = execAstRespread id s := rfl
@[simp] theorem exec_respreadStep (n : Nat) (s : State) : exec (.respreadStep n) s = execRespreadStep n s := rfl
@[simp] theorem exec_astRead (id : Nat) (s : State) : exec (.astRead id) s = execAstRead id s := rfl
@[simp] theorem exec_emberCheck (s : State) : exec (.emberCheck) s = execEmberCheck s := rfl
@[simp] theorem exec_directWindowAccess (off : Nat) (wr : Bool) (v : Word) (s : State) : exec (.directWindowAccess off wr v) s = execDirectWindowAccess off wr v s := rfl
@[simp] theorem exec_cmpDeflate (id : Nat) (s : State) : exec (.cmpDeflate id) s = execCmpDeflate id s := rfl
@[simp] theorem exec_cmpInflate (id : Nat) (s : State) : exec (.cmpInflate id) s = execCmpInflate id s := rfl
@[simp] theorem exec_cmpJobStart (e : Nat) (s : State) : exec (.cmpJobStart e) s = execCmpJobStart e s := rfl
@[simp] theorem exec_cmpJobComplete (id : Nat) (s : State) : exec (.cmpJobComplete id) s = execCmpJobComplete id s := rfl
@[simp] theorem exec_mbrAttach (id : Nat) (info : Option MemberInfo) (s : State) : exec (.mbrAttach id info) s = execMbrAttach id info s := rfl
@[simp] theorem exec_mbrDetach (id : Nat) (s : State) : exec (.mbrDetach id) s = execMbrDetach id s := rfl
@[simp] theorem exec_arrCreate (id : Nat) (s : State) : exec (.arrCreate id) s = execArrCreate id s := rfl
@[simp] theorem exec_arrImport (id : Nat) (s : State) : exec (.arrImport id) s = execArrImport id s := rfl
@[simp] theorem exec_replayEnd (a : Nat) (s : State) : exec (.replayEnd a) s = execReplayEnd a s := rfl
@[simp] theorem exec_arrStop (id : Nat) (s : State) : exec (.arrStop id) s = execArrStop id s := rfl
@[simp] theorem exec_arrDrainComplete (a : Nat) (s : State) : exec (.arrDrainComplete a) s = execArrDrainComplete a s := rfl
@[simp] theorem exec_arrSet (id : Nat) (s : State) : exec (.arrSet id) s = execArrSet id s := rfl
@[simp] theorem exec_volCreate (id : Nat) (s : State) : exec (.volCreate id) s = execVolCreate id s := rfl
@[simp] theorem exec_volDestroy (id : Nat) (s : State) : exec (.volDestroy id) s = execVolDestroy id s := rfl
@[simp] theorem exec_volResize (id : Nat) (s : State) : exec (.volResize id) s = execVolResize id s := rfl
@[simp] theorem exec_volOwner (id : Nat) (s : State) : exec (.volOwner id) s = execVolOwner id s := rfl
@[simp] theorem exec_volRead (id : Nat) (s : State) : exec (.volRead id) s = execVolRead id s := rfl
@[simp] theorem exec_volWrite (id : Nat) (s : State) : exec (.volWrite id) s = execVolWrite id s := rfl
@[simp] theorem exec_volFlush (id : Nat) (s : State) : exec (.volFlush id) s = execVolFlush id s := rfl
@[simp] theorem exec_volWriteZeroes (id : Nat) (s : State) : exec (.volWriteZeroes id) s = execVolWriteZeroes id s := rfl
@[simp] theorem exec_volDealloc (id : Nat) (s : State) : exec (.volDealloc id) s = execVolDealloc id s := rfl
@[simp] theorem exec_writeCacheReserve (id : Nat) (s : State) : exec (.writeCacheReserve id) s = execWriteCacheReserve id s := rfl
@[simp] theorem exec_memberCommandTimeout (n : Nat) (retryOk : Bool) (s : State) : exec (.memberCommandTimeout n retryOk) s = execMemberCommandTimeout n retryOk s := rfl
@[simp] theorem exec_memberCommandCompletion (n blk : Nat) (mediaErr : Bool) (s : State) : exec (.memberCommandCompletion n blk mediaErr) s = execMemberCommandCompletion n blk mediaErr s := rfl
@[simp] theorem exec_memberLinkDown (w : MemberLoss) (s : State) : exec (.memberLinkDown w) s = execMemberLinkDown w s := rfl
@[simp] theorem exec_stripeOpen (a stream : Nat) (s : State) : exec (.stripeOpen a stream) s = execStripeOpen a stream s := rfl
@[simp] theorem exec_stripeCloseTimeout (a stream : Nat) (s : State) : exec (.stripeCloseTimeout a stream) s = execStripeCloseTimeout a stream s := rfl
@[simp] theorem exec_stripeCommit (a st : Nat) (s : State) : exec (.stripeCommit a st) s = execStripeCommit a st s := rfl
@[simp] theorem exec_stripeFree (a st : Nat) (s : State) : exec (.stripeFree a st) s = execStripeFree a st s := rfl
@[simp] theorem exec_harvest (a : Nat) (s : State) : exec (.harvest a) s = execHarvest a s := rfl
@[simp] theorem exec_leafReadComplete (id : Nat) (s : State) : exec (.leafReadComplete id) s = execLeafReadComplete id s := rfl
@[simp] theorem exec_mapCheckpoint (a : Nat) (s : State) : exec (.mapCheckpoint a) s = execMapCheckpoint a s := rfl
@[simp] theorem exec_arcMapcWrite (r : Req) (v : Word) (s : State) : exec (.arcMapcWrite r v) s = execArcMapcWrite r v s := rfl
@[simp] theorem exec_arcDestroyGo (r : Req) (v : Word) (s : State) : exec (.arcDestroyGo r v) s = execArcDestroyGo r v s := rfl
@[simp] theorem exec_arcDpWrite (r : Req) (p : Nat) (v : Word) (s : State) : exec (.arcDpWrite r p v) s = execArcDpWrite r p v s := rfl
@[simp] theorem exec_arrRebuildStart (id : Nat) (s : State) : exec (.arrRebuildStart id) s = execArrRebuildStart id s := rfl
@[simp] theorem exec_arrRebuildPause (id : Nat) (s : State) : exec (.arrRebuildPause id) s = execArrRebuildPause id s := rfl
@[simp] theorem exec_arrRebuildResume (id : Nat) (s : State) : exec (.arrRebuildResume id) s = execArrRebuildResume id s := rfl
@[simp] theorem exec_rebuildCursorStep (a : Nat) (s : State) : exec (.rebuildCursorStep a) s = execRebuildCursorStep a s := rfl
@[simp] theorem exec_arrReshape (id : Nat) (s : State) : exec (.arrReshape id) s = execArrReshape id s := rfl
@[simp] theorem exec_reshapeStep (a : Nat) (s : State) : exec (.reshapeStep a) s = execReshapeStep a s := rfl
@[simp] theorem exec_reshapeFinish (a : Nat) (s : State) : exec (.reshapeFinish a) s = execReshapeFinish a s := rfl
@[simp] theorem exec_arrLostlist (id : Nat) (s : State) : exec (.arrLostlist id) s = execArrLostlist id s := rfl
@[simp] theorem exec_arrVaultInfo (id : Nat) (s : State) : exec (.arrVaultInfo id) s = execArrVaultInfo id s := rfl
@[simp] theorem exec_freeze (s : State) : exec (.freeze) s = execFreeze s := rfl
@[simp] theorem exec_vaultSeal (a n : Nat) (s : State) : exec (.vaultSeal a n) s = execVaultSeal a n s := rfl
@[simp] theorem exec_vfEnableSet (numVfs : Nat) (s : State) : exec (.vfEnableSet numVfs) s = execVfEnableSet numVfs s := rfl
@[simp] theorem exec_vfFunctionLevelReset (n : Nat) (s : State) : exec (.vfFunctionLevelReset n) s = execVfFunctionLevelReset n s := rfl
@[simp] theorem exec_hostPortReset (cause : HostResetCause) (s : State) : exec (.hostPortReset cause) s = execHostPortReset cause s := rfl
@[simp] theorem exec_perstRelease (s : State) : exec (.perstRelease) s = execPerstRelease s := rfl
@[simp] theorem exec_functionD3hotEntry (fn : Nat) (s : State) : exec (.functionD3hotEntry fn) s = execFunctionD3hotEntry fn s := rfl
@[simp] theorem exec_functionD0Return (fn : Nat) (s : State) : exec (.functionD0Return fn) s = execFunctionD0Return fn s := rfl
@[simp] theorem exec_busMasterEnableClear (fn : Nat) (s : State) : exec (.busMasterEnableClear fn) s = execBusMasterEnableClear fn s := rfl
@[simp] theorem exec_busMasterEnableSet (fn : Nat) (s : State) : exec (.busMasterEnableSet fn) s = execBusMasterEnableSet fn s := rfl
@[simp] theorem exec_vectorUnmask (fn vec : Nat) (s : State) : exec (.vectorUnmask fn vec) s = execVectorUnmask fn vec s := rfl
@[simp] theorem exec_sqEnable (r : Req) (q : Nat) (v : Word) (s : State) : exec (.sqEnable r q v) s = execSqEnable r q v s := rfl
@[simp] theorem exec_cqEnable (r : Req) (q : Nat) (v : Word) (s : State) : exec (.cqEnable r q v) s = execCqEnable r q v s := rfl
@[simp] theorem exec_sqDisable (r : Req) (q : Nat) (v : Word) (s : State) : exec (.sqDisable r q v) s = execSqDisable r q v s := rfl
@[simp] theorem exec_cqDisable (r : Req) (q : Nat) (v : Word) (s : State) : exec (.cqDisable r q v) s = execCqDisable r q v s := rfl
@[simp] theorem exec_producerDoorbell (r : Req) (win : Nat) (n : Word) (s : State) : exec (.producerDoorbell r win n) s = execProducerDoorbell r win n s := rfl
@[simp] theorem exec_pushWrite (r : Req) (win off : Nat) (ws : List Word) (s : State) : exec (.pushWrite r win off ws) s = execPushWrite r win off ws s := rfl
@[simp] theorem exec_completionConsumerWrite (r : Req) (win : Nat) (n : Word) (s : State) : exec (.completionConsumerWrite r win n) s = execCompletionConsumerWrite r win n s := rfl
@[simp] theorem exec_entryFetch (q : Nat) (s : State) : exec (.entryFetch q) s = execEntryFetch q s := rfl
@[simp] theorem exec_sqFetchError (q : Nat) (s : State) : exec (.sqFetchError q) s = execSqFetchError q s := rfl
@[simp] theorem exec_moderationTimeout (q : Nat) (s : State) : exec (.moderationTimeout q) s = execModerationTimeout q s := rfl
@[simp] theorem exec_startTimeout (id : Nat) (s : State) : exec (.startTimeout id) s = execStartTimeout id s := rfl
@[simp] theorem exec_hostReadTimeout (id : Nat) (s : State) : exec (.hostReadTimeout id) s = execHostReadTimeout id s := rfl
@[simp] theorem exec_devPstate (id : Nat) (s : State) : exec (.devPstate id) s = execDevPstate id s := rfl
@[simp] theorem exec_pstateEntryComplete (s : State) : exec (.pstateEntryComplete) s = execPstateEntryComplete s := rfl
@[simp] theorem exec_flush2Start (s : State) : exec (.flush2Start) s = execFlush2Start s := rfl
@[simp] theorem exec_pstateEntryTimeout (s : State) : exec (.pstateEntryTimeout) s = execPstateEntryTimeout s := rfl
@[simp] theorem exec_wakeComplete (s : State) : exec (.wakeComplete) s = execWakeComplete s := rfl
@[simp] theorem exec_netSubsysEnable (id : Nat) (s : State) : exec (.netSubsysEnable id) s = execNetSubsysEnable id s := rfl
@[simp] theorem exec_netSubsysDisable (id : Nat) (s : State) : exec (.netSubsysDisable id) s = execNetSubsysDisable id s := rfl
@[simp] theorem exec_netExport (id : Nat) (s : State) : exec (.netExport id) s = execNetExport id s := rfl
@[simp] theorem exec_netUnexport (id : Nat) (s : State) : exec (.netUnexport id) s = execNetUnexport id s := rfl
@[simp] theorem exec_arpRequest (port ifc : Nat) (s : State) : exec (.arpRequest port ifc) s = execArpRequest port ifc s := rfl
@[simp] theorem exec_tcpSyn (port ifc dport : Nat) (syn : Syn) (s : State) : exec (.tcpSyn port ifc dport syn) s = execTcpSyn port ifc dport syn s := rfl
@[simp] theorem exec_tcpRstOrFin (c : Nat) (s : State) : exec (.tcpRstOrFin c) s = execTcpRstOrFin c s := rfl
@[simp] theorem exec_icreq (c pfv hpda : Nat) (hdgst ddgst : Bool) (maxr2t : Nat) (s : State) : exec (.icreq c pfv hpda hdgst ddgst maxr2t) s = execIcreq c pfv hpda hdgst ddgst maxr2t s := rfl
@[simp] theorem exec_h2ctermreq (c : Nat) (s : State) : exec (.h2ctermreq c) s = execH2ctermreq c s := rfl
@[simp] theorem exec_h2cdata (c cid ofs : Nat) (data : List Byte) (hdrOk dataOk : Bool) (s : State) : exec (.h2cdata c cid ofs data hdrOk dataOk) s = execH2cdata c cid ofs data hdrOk dataOk s := rfl
@[simp] theorem exec_connect (c cid qid cntlid : Nat) (hostnqn subnqn : List Byte) (prm : ConnectParams) (s : State) : exec (.connect c cid qid cntlid hostnqn subnqn prm) s = execConnect c cid qid cntlid hostnqn subnqn prm s := rfl
@[simp] theorem exec_propertyGet (c cid ofs : Nat) (s : State) : exec (.propertyGet c cid ofs) s = execPropertyGet c cid ofs s := rfl
@[simp] theorem exec_propertySet (c cid ofs : Nat) (v : DWord) (s : State) : exec (.propertySet c cid ofs v) s = execPropertySet c cid ofs v s := rfl
@[simp] theorem exec_identify (c cid cns nsid : Nat) (s : State) : exec (.identify c cid cns nsid) s = execIdentify c cid cns nsid s := rfl
@[simp] theorem exec_getLogPage (c cid lid : Nat) (s : State) : exec (.getLogPage c cid lid) s = execGetLogPage c cid lid s := rfl
@[simp] theorem exec_keepAlive (c cid : Nat) (s : State) : exec (.keepAlive c cid) s = execKeepAlive c cid s := rfl
@[simp] theorem exec_keepAliveTimeout (cntl : Nat) (s : State) : exec (.keepAliveTimeout cntl) s = execKeepAliveTimeout cntl s := rfl
@[simp] theorem exec_nvmeRead (c cid nsid slba nlb : Nat) (s : State) : exec (.nvmeRead c cid nsid slba nlb) s = execNvmeRead c cid nsid slba nlb s := rfl
@[simp] theorem exec_nvmeWrite (c cid nsid slba nlb : Nat) (capsule : List Byte) (dataOk : Bool) (s : State) : exec (.nvmeWrite c cid nsid slba nlb capsule dataOk) s = execNvmeWrite c cid nsid slba nlb capsule dataOk s := rfl
@[simp] theorem exec_nvmeFlush (c cid nsid : Nat) (s : State) : exec (.nvmeFlush c cid nsid) s = execNvmeFlush c cid nsid s := rfl
@[simp] theorem exec_nvmeWriteZeroes (c cid nsid slba nlb : Nat) (s : State) : exec (.nvmeWriteZeroes c cid nsid slba nlb) s = execNvmeWriteZeroes c cid nsid slba nlb s := rfl
@[simp] theorem exec_datasetManagement (c cid nsid : Nat) (ad : Bool) (dsm : DsmData) (s : State) : exec (.datasetManagement c cid nsid ad dsm) s = execDatasetManagement c cid nsid ad dsm s := rfl
@[simp] theorem exec_ptpEventMessage (port : Nat) (tx : Bool) (msgType : BitVec 4) (seqId : BitVec 16) (s : State) : exec (.ptpEventMessage port tx msgType seqId) s = execPtpEventMessage port tx msgType seqId s := rfl
@[simp] theorem exec_netLinkChange (port : Nat) (lanes : BitVec 4) (s : State) : exec (.netLinkChange port lanes) s = execNetLinkChange port lanes s := rfl
@[simp] theorem exec_netTsPop (r : Req) (v : Word) (s : State) : exec (.netTsPop r v) s = execNetTsPop r v s := rfl
@[simp] theorem exec_netPortWrite (r : Req) (p : Nat) (v : Word) (s : State) : exec (.netPortWrite r p v) s = execNetPortWrite r p v s := rfl
@[simp] theorem exec_partitionEnable (r : Req) (p : Nat) (v : Word) (s : State) : exec (.partitionEnable r p v) s = execPartitionEnable r p v s := rfl
@[simp] theorem exec_partitionDisable (r : Req) (p : Nat) (v : Word) (s : State) : exec (.partitionDisable r p v) s = execPartitionDisable r p v s := rfl
@[simp] theorem exec_hbmAlloc (id : Nat) (s : State) : exec (.hbmAlloc id) s = execHbmAlloc id s := rfl
@[simp] theorem exec_hbmFree (id : Nat) (s : State) : exec (.hbmFree id) s = execHbmFree id s := rfl
@[simp] theorem exec_memCopy (id : Nat) (s : State) : exec (.memCopy id) s = execMemCopy id s := rfl
@[simp] theorem exec_partReset (id : Nat) (s : State) : exec (.partReset id) s = execPartReset id s := rfl
@[simp] theorem exec_partitionResetComplete (p : Nat) (s : State) : exec (.partitionResetComplete p) s = execPartitionResetComplete p s := rfl
@[simp] theorem exec_partFreeze (id : Nat) (s : State) : exec (.partFreeze id) s = execPartFreeze id s := rfl
@[simp] theorem exec_freezeComplete (p : Nat) (s : State) : exec (.freezeComplete p) s = execFreezeComplete p s := rfl
@[simp] theorem exec_partSave (id : Nat) (s : State) : exec (.partSave id) s = execPartSave id s := rfl
@[simp] theorem exec_partRestore (id : Nat) (s : State) : exec (.partRestore id) s = execPartRestore id s := rfl
@[simp] theorem exec_partThaw (id : Nat) (s : State) : exec (.partThaw id) s = execPartThaw id s := rfl
@[simp] theorem exec_partRelease (id : Nat) (s : State) : exec (.partRelease id) s = execPartRelease id s := rfl
@[simp] theorem exec_fixedSlotStart (p : Nat) (s : State) : exec (.fixedSlotStart p) s = execFixedSlotStart p s := rfl
@[simp] theorem exec_fixedSlotEnd (p : Nat) (s : State) : exec (.fixedSlotEnd p) s = execFixedSlotEnd p s := rfl
@[simp] theorem exec_millisecondBoundary (s : State) : exec (.millisecondBoundary) s = execMillisecondBoundary s := rfl
@[simp] theorem exec_calends (s : State) : exec (.calends) s = execCalends s := rfl
@[simp] theorem exec_meterBatchWrite (s : State) : exec (.meterBatchWrite) s = execMeterBatchWrite s := rfl
@[simp] theorem exec_trustMtrCWrite (r : Req) (v : Word) (s : State) : exec (.trustMtrCWrite r v) s = execTrustMtrCWrite r v s := rfl
@[simp] theorem exec_pvEvenWrite (n : Nat) (v : Word) (s : State) : exec (.pvEvenWrite n v) s = execPvEvenWrite n v s := rfl
@[simp] theorem exec_edgeEvent (src : Nat) (s : State) : exec (.edgeEvent src) s = execEdgeEvent src s := rfl
@[simp] theorem exec_levelSourceAssert (src : Nat) (s : State) : exec (.levelSourceAssert src) s = execLevelSourceAssert src s := rfl
@[simp] theorem exec_pinFilterExpiry (pin : Nat) (s : State) : exec (.pinFilterExpiry pin) s = execPinFilterExpiry pin s := rfl
@[simp] theorem exec_handlerEntry (w : Nat) (s : State) : exec (.handlerEntry w) s = execHandlerEntry w s := rfl
@[simp] theorem exec_eret (w : Nat) (s : State) : exec (.eret w) s = execEret w s := rfl
@[simp] theorem exec_pf0EventMessage (s : State) : exec (.pf0EventMessage) s = execPf0EventMessage s := rfl
@[simp] theorem exec_evcHackWrite (r : Req) (v : Word) (s : State) : exec (.evcHackWrite r v) s = execEvcHackWrite r v s := rfl
@[simp] theorem exec_evcSwsetWrite (r : Req) (v : Word) (s : State) : exec (.evcSwsetWrite r v) s = execEvcSwsetWrite r v s := rfl
@[simp] theorem exec_evcRouteEnable (r : Req) (src : Nat) (v : Word) (s : State) : exec (.evcRouteEnable r src v) s = execEvcRouteEnable r src v s := rfl
@[simp] theorem exec_sdmaGo (r : Req) (c : Nat) (v : Word) (s : State) : exec (.sdmaGo r c v) s = execSdmaGo r c v s := rfl
@[simp] theorem exec_sdmaAbort (r : Req) (c : Nat) (v : Word) (s : State) : exec (.sdmaAbort r c v) s = execSdmaAbort r c v s := rfl
@[simp] theorem exec_sdmaResume (r : Req) (c : Nat) (v : Word) (s : State) : exec (.sdmaResume r c v) s = execSdmaResume r c v s := rfl
@[simp] theorem exec_burstStart (c : Nat) (request : Bool) (s : State) : exec (.burstStart c request) s = execBurstStart c request s := rfl
@[simp] theorem exec_burstComplete (c : Nat) (res : BusResult) (wr : Bool) (s : State) : exec (.burstComplete c res wr) s = execBurstComplete c res wr s := rfl
@[simp] theorem exec_readbackComplete (c : Nat) (res : BusResult) (s : State) : exec (.readbackComplete c res) s = execReadbackComplete c res s := rfl
@[simp] theorem exec_sdmaArmedTimeout (c : Nat) (s : State) : exec (.sdmaArmedTimeout c) s = execSdmaArmedTimeout c s := rfl
@[simp] theorem exec_linkTrainingComplete (k : Nat) (lanes : BitVec 8) (peer : BitVec 3) (s : State) : exec (.linkTrainingComplete k lanes peer) s = execLinkTrainingComplete k lanes peer s := rfl
@[simp] theorem exec_linkTrainingTimeout (k : Nat) (s : State) : exec (.linkTrainingTimeout k) s = execLinkTrainingTimeout k s := rfl
@[simp] theorem exec_linkFlitTimeout (k : Nat) (s : State) : exec (.linkFlitTimeout k) s = execLinkFlitTimeout k s := rfl
@[simp] theorem exec_laneErrorRate (k lane : Nat) (s : State) : exec (.laneErrorRate k lane) s = execLaneErrorRate k lane s := rfl
@[simp] theorem exec_plkRetrain (r : Req) (k : Nat) (s : State) : exec (.plkRetrain r k) s = execPlkRetrain r k s := rfl
@[simp] theorem exec_plkOfflWrite (r : Req) (p : Nat) (v : Word) (s : State) : exec (.plkOfflWrite r p v) s = execPlkOfflWrite r p v s := rfl
@[simp] theorem exec_peerBindingEnable (r : Req) (b : Nat) (v : Word) (s : State) : exec (.peerBindingEnable r b v) s = execPeerBindingEnable r b v s := rfl
@[simp] theorem exec_bindingMessage (dev b : Nat) (devmask : BitVec 8) (ctxs : List (BitVec 13)) (gen : BitVec 16) (s : State) : exec (.bindingMessage dev b devmask ctxs gen) s = execBindingMessage dev b devmask ctxs gen s := rfl
@[simp] theorem exec_generationUpdateMessage (dev b : Nat) (gen : BitVec 16) (s : State) : exec (.generationUpdateMessage dev b gen) s = execGenerationUpdateMessage dev b gen s := rfl
@[simp] theorem exec_generationUpdateAck (dev p : Nat) (gen : BitVec 16) (s : State) : exec (.generationUpdateAck dev p gen) s = execGenerationUpdateAck dev p gen s := rfl
@[simp] theorem exec_plkMirrorEnable (r : Req) (v : Word) (s : State) : exec (.plkMirrorEnable r v) s = execPlkMirrorEnable r v s := rfl
@[simp] theorem exec_plkMirrorDisable (r : Req) (s : State) : exec (.plkMirrorDisable r) s = execPlkMirrorDisable r s := rfl
@[simp] theorem exec_mirrorWriteMessage (arrayId : BitVec 128) (seq : Nat) (vol : MirVol) (lba : Nat) (blocks : List (List Byte)) (s : State) : exec (.mirrorWriteMessage arrayId seq vol lba blocks) s = execMirrorWriteMessage arrayId seq vol lba blocks s := rfl
@[simp] theorem exec_mirrorAck (id : Nat) (s : State) : exec (.mirrorAck id) s = execMirrorAck id s := rfl
@[simp] theorem exec_mirrorAckTimeout (s : State) : exec (.mirrorAckTimeout) s = execMirrorAckTimeout s := rfl
@[simp] theorem exec_plkMirrorRelease (r : Req) (s : State) : exec (.plkMirrorRelease r) s = execPlkMirrorRelease r s := rfl
@[simp] theorem exec_partnerCopyRequest (m : CopyMessage) (s : State) : exec (.partnerCopyRequest m) s = execPartnerCopyRequest m s := rfl
@[simp] theorem exec_timeExchange (ofs : Int) (s : State) : exec (.timeExchange ofs) s = execTimeExchange ofs s := rfl
@[simp] theorem exec_tsyncPulse (s : State) : exec (.tsyncPulse) s = execTsyncPulse s := rfl
@[simp] theorem exec_tsyncEdge (ofs : Int) (s : State) : exec (.tsyncEdge ofs) s = execTsyncEdge ofs s := rfl
@[simp] theorem exec_almanacStartTimeout (s : State) : exec (.almanacStartTimeout) s = execAlmanacStartTimeout s := rfl
@[simp] theorem exec_tileFault (phys : Nat) (check : Byte) (s : State) : exec (.tileFault phys check) s = execTileFault phys check s := rfl
@[simp] theorem exec_heartbeatMiss (stw : Bool) (n : Nat) (s : State) : exec (.heartbeatMiss stw n) s = execHeartbeatMiss stw n s := rfl
@[simp] theorem exec_sparePlaced (l : Nat) (s : State) : exec (.sparePlaced l) s = execSparePlaced l s := rfl
@[simp] theorem exec_glbTileMapWrite (r : Req) (i : Nat) (v : Word) (s : State) : exec (.glbTileMapWrite r i v) s = execGlbTileMapWrite r i v s := rfl
@[simp] theorem exec_swapComplete (s : State) : exec (.swapComplete) s = execSwapComplete s := rfl
@[simp] theorem exec_vigilSvcOut (r : Req) (v : Word) (s : State) : exec (.vigilSvcOut r v) s = execVigilSvcOut r v s := rfl
@[simp] theorem exec_vigilSvcTest (r : Req) (v : Word) (s : State) : exec (.vigilSvcTest r v) s = execVigilSvcTest r v s := rfl
@[simp] theorem exec_vigilSvcIn (r : Req) (v : Word) (s : State) : exec (.vigilSvcIn r v) s = execVigilSvcIn r v s := rfl
@[simp] theorem exec_serviceActionComplete (pass : Bool) (ms : BitVec 16) (s : State) : exec (.serviceActionComplete pass ms) s = execServiceActionComplete pass ms s := rfl
@[simp] theorem exec_vigilUackWrite (r : Req) (v : Word) (s : State) : exec (.vigilUackWrite r v) s = execVigilUackWrite r v s := rfl
@[simp] theorem exec_vigilLogCWrite (r : Req) (v : Word) (s : State) : exec (.vigilLogCWrite r v) s = execVigilLogCWrite r v s := rfl
@[simp] theorem exec_checkerSelfTest (blk : Byte) (n : Nat) (pass : Bool) (s : State) : exec (.checkerSelfTest blk n pass) s = execCheckerSelfTest blk n pass s := rfl
@[simp] theorem exec_resetRequiredFault (blk check : Byte) (s : State) : exec (.resetRequiredFault blk check) s = execResetRequiredFault blk check s := rfl
@[simp] theorem exec_trustKeyloadGo (r : Req) (s : State) : exec (.trustKeyloadGo r) s = execTrustKeyloadGo r s := rfl
@[simp] theorem exec_trustFwActGo (r : Req) (s : State) : exec (.trustFwActGo r) s = execTrustFwActGo r s := rfl
@[simp] theorem exec_trustFwActCommit (r : Req) (s : State) : exec (.trustFwActCommit r) s = execTrustFwActCommit r s := rfl
@[simp] theorem exec_mbxCmdWrite (side : Bool) (r : Req) (v : Word) (s : State) : exec (.mbxCmdWrite side r v) s = execMbxCmdWrite side r v s := rfl
@[simp] theorem exec_mbxDataWrite (side : Bool) (r : Req) (v : Word) (s : State) : exec (.mbxDataWrite side r v) s = execMbxDataWrite side r v s := rfl
@[simp] theorem exec_mbxDataRead (side : Bool) (r : Req) (s : State) : exec (.mbxDataRead side r) s = execMbxDataRead side r s := rfl
@[simp] theorem exec_mailboxSidebandTimeout (s : State) : exec (.mailboxSidebandTimeout) s = execMailboxSidebandTimeout s := rfl
@[simp] theorem exec_getInfo (s : State) : exec (.getInfo) s = execGetInfo s := rfl
@[simp] theorem exec_getCert (s : State) : exec (.getCert) s = execGetCert s := rfl
@[simp] theorem exec_attReport (s : State) : exec (.attReport) s = execAttReport s := rfl
@[simp] theorem exec_fwStage (flashOk : Bool) (s : State) : exec (.fwStage flashOk) s = execFwStage flashOk s := rfl
@[simp] theorem exec_fwVerify (s : State) : exec (.fwVerify) s = execFwVerify s := rfl
@[simp] theorem exec_getVersion (s : State) : exec (.getVersion) s = execGetVersion s := rfl
@[simp] theorem exec_getCapabilities (ctExp xferSize maxMsg : Nat) (s : State) : exec (.getCapabilities ctExp xferSize maxMsg) s = execGetCapabilities ctExp xferSize maxMsg s := rfl
@[simp] theorem exec_negotiateAlgorithms (ext hash meas : Bool) (s : State) : exec (.negotiateAlgorithms ext hash meas) s = execNegotiateAlgorithms ext hash meas s := rfl
@[simp] theorem exec_getDigests (s : State) : exec (.getDigests) s = execGetDigests s := rfl
@[simp] theorem exec_getCertificate (slot ofs len : Nat) (s : State) : exec (.getCertificate slot ofs len) s = execGetCertificate slot ofs len s := rfl
@[simp] theorem exec_challenge (slot summary : Nat) (nonce : BitVec 256) (s : State) : exec (.challenge slot summary nonce) s = execChallenge slot summary nonce s := rfl
@[simp] theorem exec_getMeasurements (slot index : Nat) (sign : Bool) (nonce : BitVec 256) (s : State) : exec (.getMeasurements slot index sign nonce) s = execGetMeasurements slot index sign nonce s := rfl
@[simp] theorem exec_chunkSend (handle seq : Nat) (last : Bool) (data : List Byte) (s : State) : exec (.chunkSend handle seq last data) s = execChunkSend handle seq last data s := rfl
@[simp] theorem exec_chunkGet (handle seq : Nat) (s : State) : exec (.chunkGet handle seq) s = execChunkGet handle seq s := rfl
@[simp] theorem exec_powerOnReset (env : BootEnv) (s : State) : exec (.powerOnReset env) s = execPowerOnReset env s := rfl
@[simp] theorem exec_deviceReset (r : Req) (env : BootEnv) (s : State) : exec (.deviceReset r env) s = execDeviceReset r env s := rfl
@[simp] theorem exec_testReset (s : State) : exec (.testReset) s = execTestReset s := rfl
@[simp] theorem exec_pllLockLoss (s : State) : exec (.pllLockLoss) s = execPllLockLoss s := rfl
@[simp] theorem exec_clkDivWrite (r : Req) (v : Word) (s : State) : exec (.clkDivWrite r v) s = execClkDivWrite r v s := rfl
@[simp] theorem exec_clkTrimWrite (r : Req) (v : Word) (s : State) : exec (.clkTrimWrite r v) s = execClkTrimWrite r v s := rfl
@[simp] theorem exec_stewardTimerFire (w i : Nat) (s : State) : exec (.stewardTimerFire w i) s = execStewardTimerFire w i s := rfl
@[simp] theorem exec_clkTmrDlWrite (r : Req) (w i : Nat) (hi : Bool) (v : Word) (s : State) : exec (.clkTmrDlWrite r w i hi v) s = execClkTmrDlWrite r w i hi v s := rfl
@[simp] theorem exec_pwrAvsWrite (r : Req) (v : Word) (vout : BitVec 10) (s : State) : exec (.pwrAvsWrite r v vout) s = execPwrAvsWrite r v vout s := rfl
@[simp] theorem exec_avsConfirmTimeout (s : State) : exec (.avsConfirmTimeout) s = execAvsConfirmTimeout s := rfl
@[simp] theorem exec_temperatureSample (tj : BitVec 11) (s : State) : exec (.temperatureSample tj) s = execTemperatureSample tj s := rfl
@[simp] theorem exec_throttleStep (up : Bool) (s : State) : exec (.throttleStep up) s = execThrottleStep up s := rfl
@[simp] theorem exec_engineFault (ers : Bool) (e : Nat) (s : State) : exec (.engineFault ers e) s = execEngineFault ers e s := rfl
@[simp] theorem exec_rootPllRelock (s : State) : exec (.rootPllRelock) s = execRootPllRelock s := rfl
@[simp] theorem exec_pinRawLevelChange (pin : Nat) (level : Bool) (s : State) : exec (.pinRawLevelChange pin level) s = execPinRawLevelChange pin level s := rfl
@[simp] theorem exec_timeSourceAbsent (s : State) : exec (.timeSourceAbsent) s = execTimeSourceAbsent s := rfl
@[simp] theorem exec_timeSourceFirstEdge (s : State) : exec (.timeSourceFirstEdge) s = execTimeSourceFirstEdge s := rfl
@[simp] theorem exec_partnerMirrorMessage (ev : PartnerEvent) (s : State) : exec (.partnerMirrorMessage ev) s = execPartnerMirrorMessage ev s := rfl
@[simp] theorem exec_unsupportedPdu (c : Nat) (bad : BadPdu) (s : State) : exec (.unsupportedPdu c bad) s = execUnsupportedPdu c bad s := rfl
@[simp] theorem exec_invalidCommandOpcode (c cid op : Nat) (s : State) : exec (.invalidCommandOpcode c cid op) s = execInvalidCommandOpcode c cid op s := rfl
@[simp] theorem exec_tcpSegmentChecksumError (port : Nat) (s : State) : exec (.tcpSegmentChecksumError port) s = execTcpSegmentChecksumError port s := rfl
@[simp] theorem exec_uncorrectableFecCodeword (port : Nat) (s : State) : exec (.uncorrectableFecCodeword port) s = execUncorrectableFecCodeword port s := rfl

end Sys2Proof.Machine
end

