-- ==== Sys2Proof/Laws/Tables.lean ====
section
/-! SUPPORT. Laws/Tables.lean: the sparse tables and byte memories: what a read gives after a write, and that every
operation keeps the canonical form. -/

namespace Sys2Proof.Machine

variable {α : Type} [DecidableEq α]

/-- A well-formed tail is well formed from any lower bound. -/
theorem wfFrom_mono {d : α} {m : SMap α} {lo lo' : Nat} (h : wfFrom d lo m = true) (hl : lo' ≤ lo) : wfFrom d lo' m = true := by
  cases m with
  | nil => rfl
  | cons e r =>
    obtain ⟨i, x⟩ := e
    simp only [wfFrom, Bool.and_eq_true, decide_eq_true_eq] at h ⊢
    exact ⟨⟨Nat.le_trans hl h.1.1, h.1.2⟩, h.2⟩

/-- Nothing is listed below the bound. -/
theorem look_lt_of_wf {d : α} {m : SMap α} {lo k : Nat} (h : wfFrom d lo m = true) (hk : k < lo) : look d m k = d := by
  induction m generalizing lo with
  | nil => rfl
  | cons e r ih =>
    obtain ⟨i, x⟩ := e
    simp only [wfFrom, Bool.and_eq_true, decide_eq_true_eq] at h
    have hi : i ≠ k := by omega
    simp only [look, if_neg hi]
    exact ih h.2 (by omega)

/-- An entry other than the one written reads as before. -/
theorem look_put_ne {d : α} {m : SMap α} {k j : Nat} {x : α} (h : j ≠ k) : look d (put d m k x) j = look d m j := by
  have h' : k ≠ j := fun e => h e.symm
  induction m with
  | nil => simp only [put]; split <;> simp [look, h']
  | cons e r ih =>
    obtain ⟨i, y⟩ := e
    simp only [put]
    split
    · split <;> simp [look, h']
    · split
      · subst_vars; split <;> simp [look, h']
      · simp only [look, ih]

/-- The entry written reads back. -/
theorem look_put_from {d : α} {m : SMap α} {k lo : Nat} {x : α} (h : wfFrom d lo m = true) : look d (put d m k x) k = x := by
  induction m generalizing lo with
  | nil => simp only [put]; split <;> simp_all [look]
  | cons e r ih =>
    obtain ⟨i, y⟩ := e
    simp only [wfFrom, Bool.and_eq_true, decide_eq_true_eq] at h
    simp only [put]
    split
    · split
      · subst_vars
        have hi : i ≠ k := by omega
        simp only [look, if_neg hi]
        exact look_lt_of_wf h.2 (by omega)
      · simp [look]
    · split
      · subst_vars
        split
        · subst_vars; exact look_lt_of_wf h.2 (by omega)
        · simp [look]
      · have hi : i ≠ k := by omega
        simp only [look, if_neg hi]
        exact ih h.2

/-- A write keeps the canonical form. -/
theorem put_wfFrom {d : α} {m : SMap α} {k lo : Nat} {x : α} (h : wfFrom d lo m = true) (hk : lo ≤ k) :
    wfFrom d lo (put d m k x) = true := by
  induction m generalizing lo with
  | nil => simp only [put]; split <;> simp_all [wfFrom]
  | cons e r ih =>
    obtain ⟨i, y⟩ := e
    simp only [put]
    simp only [wfFrom, Bool.and_eq_true, decide_eq_true_eq] at h
    split
    · split
      · simp [wfFrom, h]
      · simp_all [wfFrom] <;> omega
    · split
      · subst_vars
        split
        · exact wfFrom_mono h.2 (by omega)
        · simp_all [wfFrom]
      · have := ih h.2 (by omega)
        simp_all [wfFrom]

/-- The entry written reads back. -/
@[simp] theorem look_put_self {d : α} {m : SMap α} {k : Nat} {x : α} (h : tableWf d m = true) : look d (put d m k x) k = x :=
  look_put_from h

/-- A write keeps the canonical form. -/
@[simp] theorem put_wf {d : α} {m : SMap α} {k : Nat} {x : α} (h : tableWf d m = true) : tableWf d (put d m k x) = true :=
  put_wfFrom h (Nat.zero_le _)

/-- An update keeps the canonical form. -/
@[simp] theorem upd_wf {d : α} {m : SMap α} {k : Nat} {f : α → α} (h : tableWf d m = true) : tableWf d (upd d m k f) = true :=
  put_wf h

/-- An updated entry reads as the updated value. -/
@[simp] theorem look_upd_self {d : α} {m : SMap α} {k : Nat} {f : α → α} (h : tableWf d m = true) :
    look d (upd d m k f) k = f (look d m k) := look_put_self h

/-- An entry of a table after a write is the written one or was there. -/
theorem mem_put {d : α} {m : SMap α} {k : Nat} {x : α} {e : Nat × α} (h : e ∈ put d m k x) : e = (k, x) ∨ e ∈ m := by
  induction m with
  | nil => simp only [put] at h; split at h <;> simp_all
  | cons a r ih =>
    obtain ⟨i, y⟩ := a
    simp only [put] at h
    repeat' split at h
    all_goals simp only [List.mem_cons] at h ⊢
    all_goals grind

omit [DecidableEq α] in
/-- What a table reads is its default or one of its entries. -/
theorem look_mem (d : α) (m : SMap α) (k : Nat) : look d m k = d ∨ (k, look d m k) ∈ m := by
  induction m with
  | nil => exact .inl rfl
  | cons a r ih =>
    obtain ⟨i, y⟩ := a
    simp only [look]
    split
    · right; simp_all
    · rcases ih with h | h
      · exact .inl h
      · exact .inr (List.mem_cons_of_mem _ h)

/-- An entry other than the one updated reads as before. -/
theorem look_upd_ne {d : α} {m : SMap α} {k j : Nat} {f : α → α} (h : j ≠ k) : look d (upd d m k f) j = look d m j :=
  look_put_ne h

/-! ## Parts of a table -/

/-- A table's two parts, laid behind each other with well-formed cells between them, are well formed. -/
theorem wfFrom_append {d : α} {m n : SMap α} {lo mid : Nat} (hm : wfFrom d lo m = true) (hn : wfFrom d mid n = true)
    (hlo : lo ≤ mid) (hlt : ∀ e ∈ m, e.1 < mid) : wfFrom d lo (m ++ n) = true := by
  induction m generalizing lo with
  | nil => exact wfFrom_mono hn hlo
  | cons e r ih =>
    obtain ⟨i, x⟩ := e
    simp only [wfFrom, Bool.and_eq_true, decide_eq_true_eq, List.cons_append] at hm ⊢
    have hi : i < mid := hlt (i, x) (by simp)
    exact ⟨hm.1, ih hm.2 (by omega) fun e he => hlt e (by simp [he])⟩

/-- A filtered table is well formed. -/
theorem wfFrom_filter {d : α} {m : SMap α} {lo : Nat} (p : Nat × α → Bool) (h : wfFrom d lo m = true) :
    wfFrom d lo (m.filter p) = true := by
  induction m generalizing lo with
  | nil => rfl
  | cons e r ih =>
    obtain ⟨i, x⟩ := e
    simp only [wfFrom, Bool.and_eq_true, decide_eq_true_eq] at h
    simp only [List.filter_cons]
    split
    · simp only [wfFrom, Bool.and_eq_true, decide_eq_true_eq]; exact ⟨h.1, ih h.2⟩
    · exact wfFrom_mono (ih h.2) (by omega)

/-- The part from index a on is well formed from a. -/
theorem wfFrom_from {d : α} {m : SMap α} {lo a : Nat} (h : wfFrom d lo m = true) : wfFrom d a (from_ a m) = true := by
  induction m generalizing lo with
  | nil => rfl
  | cons e r ih =>
    obtain ⟨i, x⟩ := e
    simp only [wfFrom, Bool.and_eq_true, decide_eq_true_eq] at h
    by_cases hi : a ≤ i
    · have hr : wfFrom d (i + 1) (r.filter fun c => decide (a ≤ c.1)) = true := wfFrom_filter _ h.2
      simp only [from_, List.filter_cons, hi, decide_true, if_true, wfFrom, Bool.and_eq_true, decide_eq_true_eq]
      exact ⟨⟨trivial, h.1.2⟩, hr⟩
    · simpa [from_, List.filter_cons, hi] using ih h.2

omit [DecidableEq α] in
theorem below_lt {m : SMap α} {a : Nat} : ∀ e ∈ below a m, e.1 < a := by
  intro e he
  simp only [below, List.mem_filter, decide_eq_true_eq] at he
  exact he.2

omit [DecidableEq α] in
theorem look_filter {d : α} {m : SMap α} {k : Nat} (p : Nat → Bool) :
    look d (m.filter fun c => p c.1) k = if p k then look d m k else d := by
  induction m with
  | nil => simp [look]
  | cons e r ih =>
    obtain ⟨i, x⟩ := e
    by_cases hp : p i
    · simp only [List.filter_cons, hp, if_true, look, ih]
      by_cases hk : i = k
      · subst hk; simp [hp]
      · simp [hk]
    · by_cases hk : i = k
      · subst hk; simp [hp, ih]
      · simp [hp, ih, look, hk]

omit [DecidableEq α] in
theorem look_append {d : α} {m n : SMap α} {k : Nat} (hk : ∀ e ∈ m, e.1 ≠ k) : look d (m ++ n) k = look d n k := by
  induction m with
  | nil => rfl
  | cons e r ih =>
    obtain ⟨i, x⟩ := e
    have : i ≠ k := hk (i, x) (by simp)
    simp only [List.cons_append, look, if_neg this]
    exact ih fun e he => hk e (by simp [he])

theorem look_append_left {d : α} {m n : SMap α} {k lo : Nat} (hm : wfFrom d lo m = true) (hn : ∀ e ∈ n, e.1 ≠ k) :
    look d (m ++ n) k = look d m k := by
  have none_ : look d n k = d := by
    have := look_append (d := d) (m := n) (n := []) (k := k) hn
    simpa [look] using this
  induction m generalizing lo with
  | nil => simpa [look] using none_
  | cons e r ih =>
    obtain ⟨i, x⟩ := e
    simp only [wfFrom, Bool.and_eq_true] at hm
    simp only [List.cons_append, look, ih hm.2]

/-- A cleared range keeps the canonical form. -/
@[simp] theorem clearRange_wf {d : α} {m : SMap α} {a n : Nat} (h : tableWf d m = true) : tableWf d (clearRange m a n) = true :=
  wfFrom_append (wfFrom_filter _ h) (wfFrom_from h) (Nat.zero_le _) fun e he => by have := below_lt e he; omega

omit [DecidableEq α] in
/-- What a read gives after a range was cleared. -/
theorem look_clearRange {d : α} {m : SMap α} {a n k : Nat} :
    look d (clearRange m a n) k = if a ≤ k ∧ k < a + n then d else look d m k := by
  have hb : look d (below a m) k = if k < a then look d m k else d := by
    simpa [below] using look_filter (d := d) (m := m) (k := k) fun i => decide (i < a)
  have hf : look d (from_ (a + n) m) k = if a + n ≤ k then look d m k else d := by
    simpa [from_] using look_filter (d := d) (m := m) (k := k) fun i => decide (a + n ≤ i)
  unfold clearRange
  by_cases hk : k < a
  · have hn : ∀ e ∈ from_ (a + n) m, e.1 ≠ k := by
      intro e he; simp only [from_, List.mem_filter, decide_eq_true_eq] at he; omega
    have hd : look d (from_ (a + n) m) k = d := by rw [hf, if_neg (by omega)]
    have : look d (below a m ++ from_ (a + n) m) k = look d (below a m) k := by
      generalize below a m = l at *
      induction l with
      | nil => simpa [look] using hd
      | cons e r ih =>
        obtain ⟨i, x⟩ := e
        by_cases hi : i = k
        · simp [look, hi]
        · have hb' : look d r k = if k < a then look d m k else d := by simpa [look, hi] using hb
          simp only [List.cons_append, look, if_neg hi]; exact ih hb'
    rw [this, hb, if_pos hk, if_neg (by omega)]
  · rw [look_append fun e he => by have := below_lt e he; omega, hf]
    by_cases h2 : a + n ≤ k
    · rw [if_pos h2, if_neg (by omega)]
    · rw [if_neg h2, if_pos (by omega)]

/-! ## Byte memories -/

theorem cellsAt_wf (a : Nat) (bs : List Byte) : wfFrom (0 : Byte) a (cellsAt a bs) = true := by
  induction bs generalizing a with
  | nil => rfl
  | cons b bs ih =>
    simp only [cellsAt]
    split
    · exact wfFrom_mono (ih (a + 1)) (by omega)
    · simp only [wfFrom, Bool.and_eq_true, decide_eq_true_eq]
      exact ⟨⟨Nat.le_refl _, by simpa using ‹¬b = 0›⟩, ih (a + 1)⟩

theorem cellsAt_range (a : Nat) (bs : List Byte) : ∀ e ∈ cellsAt a bs, a ≤ e.1 ∧ e.1 < a + bs.length := by
  induction bs generalizing a with
  | nil => simp [cellsAt]
  | cons b bs ih =>
    intro e he
    simp only [cellsAt] at he
    have key : e ∈ cellsAt (a + 1) bs → a ≤ e.1 ∧ e.1 < a + (b :: bs).length := fun h => by
      have := ih (a + 1) e h; simp only [List.length_cons]; omega
    split at he
    · exact key he
    · rcases List.mem_cons.mp he with rfl | h
      · simp only [List.length_cons]; omega
      · exact key h

theorem look_cellsAt (a k : Nat) (bs : List Byte) : look 0 (cellsAt a bs) (a + k) = (bs[k]?).getD 0 := by
  induction bs generalizing a k with
  | nil => simp [cellsAt, look]
  | cons b bs ih =>
    simp only [cellsAt]
    cases k with
    | zero =>
      split
      · subst_vars
        have := look_lt_of_wf (cellsAt_wf (a + 1) bs) (k := a) (by omega)
        simpa using this
      · simp [look]
    | succ k =>
      have hk : a + (k + 1) = a + 1 + k := by omega
      split
      · rw [hk, ih]; simp
      · have : a ≠ a + (k + 1) := by omega
        rw [look, if_neg this, hk, ih]; simp

/-- A store keeps the memory's canonical form. -/
@[simp] theorem memWrite_wf {m : Mem} {a : Nat} {bs : List Byte} (h : Memory.wf m = true) : Memory.wf (memWrite m a bs) = true := by
  have h1 : wfFrom (0 : Byte) a (cellsAt a bs ++ from_ (a + bs.length) m) = true :=
    wfFrom_append (cellsAt_wf a bs) (wfFrom_from h) (by omega) fun e he => (cellsAt_range a bs e he).2
  unfold memWrite
  rw [List.append_assoc]
  exact wfFrom_append (wfFrom_filter _ h) h1 (Nat.zero_le _) below_lt

/-- A byte read after a store: the byte stored in the range, the byte before outside it. -/
theorem memByte_memWrite {m : Mem} {a k : Nat} {bs : List Byte} (h : Memory.wf m = true) :
    memByte (memWrite m a bs) k = if a ≤ k ∧ k < a + bs.length then (bs[k - a]?).getD 0 else memByte m k := by
  have hb : look 0 (below a m) k = if k < a then look 0 m k else 0 := by
    simpa [below] using look_filter (d := (0 : Byte)) (m := m) (k := k) fun i => decide (i < a)
  have hf : look 0 (from_ (a + bs.length) m) k = if a + bs.length ≤ k then look 0 m k else 0 := by
    simpa [from_] using look_filter (d := (0 : Byte)) (m := m) (k := k) fun i => decide (a + bs.length ≤ i)
  have hwb : wfFrom (0 : Byte) 0 (below a m) = true := wfFrom_filter _ h
  unfold memByte memWrite
  rw [List.append_assoc]
  by_cases hk : k < a
  · rw [look_append_left hwb, hb, if_pos hk, if_neg (by omega)]
    intro e he
    rcases List.mem_append.mp he with h1 | h1
    · have := cellsAt_range a bs e h1; omega
    · simp only [from_, List.mem_filter, decide_eq_true_eq] at h1; omega
  · rw [look_append fun e he => by have := below_lt e he; omega]
    by_cases h2 : k < a + bs.length
    · rw [look_append_left (cellsAt_wf a bs), if_pos (by omega)]
      · have := look_cellsAt a (k - a) bs
        rwa [show a + (k - a) = k by omega] at this
      · intro e he; simp only [from_, List.mem_filter, decide_eq_true_eq] at he; omega
    · rw [look_append fun e he => by have := cellsAt_range a bs e he; omega, hf, if_pos (by omega), if_neg (by omega)]

/-! ## T fields and little-endian bytes -/

/-- The three copies of a write vote for it (R49). -/
@[simp] theorem tri_of {β : Type} [DecidableEq β] [Inhabited β] (x : β) : tri (Tri.of x) = x := by simp [tri, vote, Tri.of]

theorem leNat_natLE (n v : Nat) : leNat (natLE n v) = v % 256 ^ n := by
  induction n generalizing v with
  | zero => simp [natLE, leNat, Nat.mod_one]
  | succ n ih =>
    have h : v % 256 ^ (n + 1) = v % 256 + 256 * (v / 256 % 256 ^ n) := by
      rw [Nat.pow_succ, Nat.mul_comm (256 ^ n) 256, Nat.mod_mul]
    rw [natLE, leNat, ih, BitVec.toNat_ofNat, h]

@[simp] theorem natLE_length (n v : Nat) : (natLE n v).length = n := by
  induction n generalizing v with
  | zero => rfl
  | succ n ih => simp [natLE, ih]

/-- A field of n bytes has n bytes. -/
@[simp] theorem sub_length (bs : List Byte) (o n : Nat) : (sub bs o n).length = n := by
  simp only [sub, List.length_append, List.length_take, List.length_drop, List.length_replicate]; omega

end Sys2Proof.Machine
end

