-- ==== Sys2Proof/Laws/State.lean ====
section
/-! SUPPORT. Laws/State.lean: the fields of State under the shared updates, and each table under its own update. -/

namespace Sys2Proof.Machine

/-! ### State.emit leaves every field but `out` -/

@[simp] theorem State.emit_variant (s : State) (o : Out) : (s.emit o).variant = s.variant := rfl
@[simp] theorem State.emit_glb (s : State) (o : Out) : (s.emit o).glb = s.glb := rfl
@[simp] theorem State.emit_ccrs (s : State) (o : Out) : (s.emit o).ccrs = s.ccrs := rfl
@[simp] theorem State.emit_clk (s : State) (o : Out) : (s.emit o).clk = s.clk := rfl
@[simp] theorem State.emit_stws (s : State) (o : Out) : (s.emit o).stws = s.stws := rfl
@[simp] theorem State.emit_evc (s : State) (o : Out) : (s.emit o).evc = s.evc := rfl
@[simp] theorem State.emit_sdma (s : State) (o : Out) : (s.emit o).sdma = s.sdma := rfl
@[simp] theorem State.emit_vigil (s : State) (o : Out) : (s.emit o).vigil = s.vigil := rfl
@[simp] theorem State.emit_pwr (s : State) (o : Out) : (s.emit o).pwr = s.pwr := rfl
@[simp] theorem State.emit_trust (s : State) (o : Out) : (s.emit o).trust = s.trust := rfl
@[simp] theorem State.emit_hif (s : State) (o : Out) : (s.emit o).hif = s.hif := rfl
@[simp] theorem State.emit_parts (s : State) (o : Out) : (s.emit o).parts = s.parts := rfl
@[simp] theorem State.emit_pass (s : State) (o : Out) : (s.emit o).pass = s.pass := rfl
@[simp] theorem State.emit_cands (s : State) (o : Out) : (s.emit o).cands = s.cands := rfl
@[simp] theorem State.emit_pages (s : State) (o : Out) : (s.emit o).pages = s.pages := rfl
@[simp] theorem State.emit_hbm (s : State) (o : Out) : (s.emit o).hbm = s.hbm := rfl
@[simp] theorem State.emit_stwMem (s : State) (o : Out) : (s.emit o).stwMem = s.stwMem := rfl
@[simp] theorem State.emit_stwLocal (s : State) (o : Out) : (s.emit o).stwLocal = s.stwLocal := rfl
@[simp] theorem State.emit_hostMem (s : State) (o : Out) : (s.emit o).hostMem = s.hostMem := rfl
@[simp] theorem State.emit_hostBad (s : State) (o : Out) : (s.emit o).hostBad = s.hostBad := rfl
@[simp] theorem State.emit_plans (s : State) (o : Out) : (s.emit o).plans = s.plans := rfl
@[simp] theorem State.emit_runs (s : State) (o : Out) : (s.emit o).runs = s.runs := rfl
@[simp] theorem State.emit_nextRun (s : State) (o : Out) : (s.emit o).nextRun = s.nextRun := rfl
@[simp] theorem State.emit_tiles (s : State) (o : Out) : (s.emit o).tiles = s.tiles := rfl
@[simp] theorem State.emit_cps (s : State) (o : Out) : (s.emit o).cps = s.cps := rfl
@[simp] theorem State.emit_astore (s : State) (o : Out) : (s.emit o).astore = s.astore := rfl
@[simp] theorem State.emit_cmp (s : State) (o : Out) : (s.emit o).cmp = s.cmp := rfl
@[simp] theorem State.emit_arc (s : State) (o : Out) : (s.emit o).arc = s.arc := rfl
@[simp] theorem State.emit_net (s : State) (o : Out) : (s.emit o).net = s.net := rfl
@[simp] theorem State.emit_plk (s : State) (o : Out) : (s.emit o).plk = s.plk := rfl
@[simp] theorem State.emit_images (s : State) (o : Out) : (s.emit o).images = s.images := rfl
@[simp] theorem State.emit_latches (s : State) (o : Out) : (s.emit o).latches = s.latches := rfl
@[simp] theorem State.emit_freeCtr (s : State) (o : Out) : (s.emit o).freeCtr = s.freeCtr := rfl
@[simp] theorem State.emit_pending (s : State) (o : Out) : (s.emit o).pending = s.pending := rfl

/-! ### State.setPart leaves every field but `parts` -/

@[simp] theorem State.setPart_variant (s : State) (p : Nat) (x : Part) : (s.setPart p x).variant = s.variant := rfl
@[simp] theorem State.setPart_glb (s : State) (p : Nat) (x : Part) : (s.setPart p x).glb = s.glb := rfl
@[simp] theorem State.setPart_ccrs (s : State) (p : Nat) (x : Part) : (s.setPart p x).ccrs = s.ccrs := rfl
@[simp] theorem State.setPart_clk (s : State) (p : Nat) (x : Part) : (s.setPart p x).clk = s.clk := rfl
@[simp] theorem State.setPart_stws (s : State) (p : Nat) (x : Part) : (s.setPart p x).stws = s.stws := rfl
@[simp] theorem State.setPart_evc (s : State) (p : Nat) (x : Part) : (s.setPart p x).evc = s.evc := rfl
@[simp] theorem State.setPart_sdma (s : State) (p : Nat) (x : Part) : (s.setPart p x).sdma = s.sdma := rfl
@[simp] theorem State.setPart_vigil (s : State) (p : Nat) (x : Part) : (s.setPart p x).vigil = s.vigil := rfl
@[simp] theorem State.setPart_pwr (s : State) (p : Nat) (x : Part) : (s.setPart p x).pwr = s.pwr := rfl
@[simp] theorem State.setPart_trust (s : State) (p : Nat) (x : Part) : (s.setPart p x).trust = s.trust := rfl
@[simp] theorem State.setPart_hif (s : State) (p : Nat) (x : Part) : (s.setPart p x).hif = s.hif := rfl
@[simp] theorem State.setPart_pass (s : State) (p : Nat) (x : Part) : (s.setPart p x).pass = s.pass := rfl
@[simp] theorem State.setPart_cands (s : State) (p : Nat) (x : Part) : (s.setPart p x).cands = s.cands := rfl
@[simp] theorem State.setPart_pages (s : State) (p : Nat) (x : Part) : (s.setPart p x).pages = s.pages := rfl
@[simp] theorem State.setPart_hbm (s : State) (p : Nat) (x : Part) : (s.setPart p x).hbm = s.hbm := rfl
@[simp] theorem State.setPart_stwMem (s : State) (p : Nat) (x : Part) : (s.setPart p x).stwMem = s.stwMem := rfl
@[simp] theorem State.setPart_stwLocal (s : State) (p : Nat) (x : Part) : (s.setPart p x).stwLocal = s.stwLocal := rfl
@[simp] theorem State.setPart_hostMem (s : State) (p : Nat) (x : Part) : (s.setPart p x).hostMem = s.hostMem := rfl
@[simp] theorem State.setPart_hostBad (s : State) (p : Nat) (x : Part) : (s.setPart p x).hostBad = s.hostBad := rfl
@[simp] theorem State.setPart_plans (s : State) (p : Nat) (x : Part) : (s.setPart p x).plans = s.plans := rfl
@[simp] theorem State.setPart_runs (s : State) (p : Nat) (x : Part) : (s.setPart p x).runs = s.runs := rfl
@[simp] theorem State.setPart_nextRun (s : State) (p : Nat) (x : Part) : (s.setPart p x).nextRun = s.nextRun := rfl
@[simp] theorem State.setPart_tiles (s : State) (p : Nat) (x : Part) : (s.setPart p x).tiles = s.tiles := rfl
@[simp] theorem State.setPart_cps (s : State) (p : Nat) (x : Part) : (s.setPart p x).cps = s.cps := rfl
@[simp] theorem State.setPart_astore (s : State) (p : Nat) (x : Part) : (s.setPart p x).astore = s.astore := rfl
@[simp] theorem State.setPart_cmp (s : State) (p : Nat) (x : Part) : (s.setPart p x).cmp = s.cmp := rfl
@[simp] theorem State.setPart_arc (s : State) (p : Nat) (x : Part) : (s.setPart p x).arc = s.arc := rfl
@[simp] theorem State.setPart_net (s : State) (p : Nat) (x : Part) : (s.setPart p x).net = s.net := rfl
@[simp] theorem State.setPart_plk (s : State) (p : Nat) (x : Part) : (s.setPart p x).plk = s.plk := rfl
@[simp] theorem State.setPart_images (s : State) (p : Nat) (x : Part) : (s.setPart p x).images = s.images := rfl
@[simp] theorem State.setPart_latches (s : State) (p : Nat) (x : Part) : (s.setPart p x).latches = s.latches := rfl
@[simp] theorem State.setPart_freeCtr (s : State) (p : Nat) (x : Part) : (s.setPart p x).freeCtr = s.freeCtr := rfl
@[simp] theorem State.setPart_out (s : State) (p : Nat) (x : Part) : (s.setPart p x).out = s.out := rfl
@[simp] theorem State.setPart_pending (s : State) (p : Nat) (x : Part) : (s.setPart p x).pending = s.pending := rfl

/-! ### State.setQueue leaves every field but `hif` -/

@[simp] theorem State.setQueue_variant (s : State) (q : Nat) (x : Queue) : (s.setQueue q x).variant = s.variant := rfl
@[simp] theorem State.setQueue_glb (s : State) (q : Nat) (x : Queue) : (s.setQueue q x).glb = s.glb := rfl
@[simp] theorem State.setQueue_ccrs (s : State) (q : Nat) (x : Queue) : (s.setQueue q x).ccrs = s.ccrs := rfl
@[simp] theorem State.setQueue_clk (s : State) (q : Nat) (x : Queue) : (s.setQueue q x).clk = s.clk := rfl
@[simp] theorem State.setQueue_stws (s : State) (q : Nat) (x : Queue) : (s.setQueue q x).stws = s.stws := rfl
@[simp] theorem State.setQueue_evc (s : State) (q : Nat) (x : Queue) : (s.setQueue q x).evc = s.evc := rfl
@[simp] theorem State.setQueue_sdma (s : State) (q : Nat) (x : Queue) : (s.setQueue q x).sdma = s.sdma := rfl
@[simp] theorem State.setQueue_vigil (s : State) (q : Nat) (x : Queue) : (s.setQueue q x).vigil = s.vigil := rfl
@[simp] theorem State.setQueue_pwr (s : State) (q : Nat) (x : Queue) : (s.setQueue q x).pwr = s.pwr := rfl
@[simp] theorem State.setQueue_trust (s : State) (q : Nat) (x : Queue) : (s.setQueue q x).trust = s.trust := rfl
@[simp] theorem State.setQueue_parts (s : State) (q : Nat) (x : Queue) : (s.setQueue q x).parts = s.parts := rfl
@[simp] theorem State.setQueue_pass (s : State) (q : Nat) (x : Queue) : (s.setQueue q x).pass = s.pass := rfl
@[simp] theorem State.setQueue_cands (s : State) (q : Nat) (x : Queue) : (s.setQueue q x).cands = s.cands := rfl
@[simp] theorem State.setQueue_pages (s : State) (q : Nat) (x : Queue) : (s.setQueue q x).pages = s.pages := rfl
@[simp] theorem State.setQueue_hbm (s : State) (q : Nat) (x : Queue) : (s.setQueue q x).hbm = s.hbm := rfl
@[simp] theorem State.setQueue_stwMem (s : State) (q : Nat) (x : Queue) : (s.setQueue q x).stwMem = s.stwMem := rfl
@[simp] theorem State.setQueue_stwLocal (s : State) (q : Nat) (x : Queue) : (s.setQueue q x).stwLocal = s.stwLocal := rfl
@[simp] theorem State.setQueue_hostMem (s : State) (q : Nat) (x : Queue) : (s.setQueue q x).hostMem = s.hostMem := rfl
@[simp] theorem State.setQueue_hostBad (s : State) (q : Nat) (x : Queue) : (s.setQueue q x).hostBad = s.hostBad := rfl
@[simp] theorem State.setQueue_plans (s : State) (q : Nat) (x : Queue) : (s.setQueue q x).plans = s.plans := rfl
@[simp] theorem State.setQueue_runs (s : State) (q : Nat) (x : Queue) : (s.setQueue q x).runs = s.runs := rfl
@[simp] theorem State.setQueue_nextRun (s : State) (q : Nat) (x : Queue) : (s.setQueue q x).nextRun = s.nextRun := rfl
@[simp] theorem State.setQueue_tiles (s : State) (q : Nat) (x : Queue) : (s.setQueue q x).tiles = s.tiles := rfl
@[simp] theorem State.setQueue_cps (s : State) (q : Nat) (x : Queue) : (s.setQueue q x).cps = s.cps := rfl
@[simp] theorem State.setQueue_astore (s : State) (q : Nat) (x : Queue) : (s.setQueue q x).astore = s.astore := rfl
@[simp] theorem State.setQueue_cmp (s : State) (q : Nat) (x : Queue) : (s.setQueue q x).cmp = s.cmp := rfl
@[simp] theorem State.setQueue_arc (s : State) (q : Nat) (x : Queue) : (s.setQueue q x).arc = s.arc := rfl
@[simp] theorem State.setQueue_net (s : State) (q : Nat) (x : Queue) : (s.setQueue q x).net = s.net := rfl
@[simp] theorem State.setQueue_plk (s : State) (q : Nat) (x : Queue) : (s.setQueue q x).plk = s.plk := rfl
@[simp] theorem State.setQueue_images (s : State) (q : Nat) (x : Queue) : (s.setQueue q x).images = s.images := rfl
@[simp] theorem State.setQueue_latches (s : State) (q : Nat) (x : Queue) : (s.setQueue q x).latches = s.latches := rfl
@[simp] theorem State.setQueue_freeCtr (s : State) (q : Nat) (x : Queue) : (s.setQueue q x).freeCtr = s.freeCtr := rfl
@[simp] theorem State.setQueue_out (s : State) (q : Nat) (x : Queue) : (s.setQueue q x).out = s.out := rfl
@[simp] theorem State.setQueue_pending (s : State) (q : Nat) (x : Queue) : (s.setQueue q x).pending = s.pending := rfl

/-! ### State.updFunc leaves every field but `hif` -/

@[simp] theorem State.updFunc_variant (s : State) (n : Nat) (f : Func → Func) : (s.updFunc n f).variant = s.variant := rfl
@[simp] theorem State.updFunc_glb (s : State) (n : Nat) (f : Func → Func) : (s.updFunc n f).glb = s.glb := rfl
@[simp] theorem State.updFunc_ccrs (s : State) (n : Nat) (f : Func → Func) : (s.updFunc n f).ccrs = s.ccrs := rfl
@[simp] theorem State.updFunc_clk (s : State) (n : Nat) (f : Func → Func) : (s.updFunc n f).clk = s.clk := rfl
@[simp] theorem State.updFunc_stws (s : State) (n : Nat) (f : Func → Func) : (s.updFunc n f).stws = s.stws := rfl
@[simp] theorem State.updFunc_evc (s : State) (n : Nat) (f : Func → Func) : (s.updFunc n f).evc = s.evc := rfl
@[simp] theorem State.updFunc_sdma (s : State) (n : Nat) (f : Func → Func) : (s.updFunc n f).sdma = s.sdma := rfl
@[simp] theorem State.updFunc_vigil (s : State) (n : Nat) (f : Func → Func) : (s.updFunc n f).vigil = s.vigil := rfl
@[simp] theorem State.updFunc_pwr (s : State) (n : Nat) (f : Func → Func) : (s.updFunc n f).pwr = s.pwr := rfl
@[simp] theorem State.updFunc_trust (s : State) (n : Nat) (f : Func → Func) : (s.updFunc n f).trust = s.trust := rfl
@[simp] theorem State.updFunc_parts (s : State) (n : Nat) (f : Func → Func) : (s.updFunc n f).parts = s.parts := rfl
@[simp] theorem State.updFunc_pass (s : State) (n : Nat) (f : Func → Func) : (s.updFunc n f).pass = s.pass := rfl
@[simp] theorem State.updFunc_cands (s : State) (n : Nat) (f : Func → Func) : (s.updFunc n f).cands = s.cands := rfl
@[simp] theorem State.updFunc_pages (s : State) (n : Nat) (f : Func → Func) : (s.updFunc n f).pages = s.pages := rfl
@[simp] theorem State.updFunc_hbm (s : State) (n : Nat) (f : Func → Func) : (s.updFunc n f).hbm = s.hbm := rfl
@[simp] theorem State.updFunc_stwMem (s : State) (n : Nat) (f : Func → Func) : (s.updFunc n f).stwMem = s.stwMem := rfl
@[simp] theorem State.updFunc_stwLocal (s : State) (n : Nat) (f : Func → Func) : (s.updFunc n f).stwLocal = s.stwLocal := rfl
@[simp] theorem State.updFunc_hostMem (s : State) (n : Nat) (f : Func → Func) : (s.updFunc n f).hostMem = s.hostMem := rfl
@[simp] theorem State.updFunc_hostBad (s : State) (n : Nat) (f : Func → Func) : (s.updFunc n f).hostBad = s.hostBad := rfl
@[simp] theorem State.updFunc_plans (s : State) (n : Nat) (f : Func → Func) : (s.updFunc n f).plans = s.plans := rfl
@[simp] theorem State.updFunc_runs (s : State) (n : Nat) (f : Func → Func) : (s.updFunc n f).runs = s.runs := rfl
@[simp] theorem State.updFunc_nextRun (s : State) (n : Nat) (f : Func → Func) : (s.updFunc n f).nextRun = s.nextRun := rfl
@[simp] theorem State.updFunc_tiles (s : State) (n : Nat) (f : Func → Func) : (s.updFunc n f).tiles = s.tiles := rfl
@[simp] theorem State.updFunc_cps (s : State) (n : Nat) (f : Func → Func) : (s.updFunc n f).cps = s.cps := rfl
@[simp] theorem State.updFunc_astore (s : State) (n : Nat) (f : Func → Func) : (s.updFunc n f).astore = s.astore := rfl
@[simp] theorem State.updFunc_cmp (s : State) (n : Nat) (f : Func → Func) : (s.updFunc n f).cmp = s.cmp := rfl
@[simp] theorem State.updFunc_arc (s : State) (n : Nat) (f : Func → Func) : (s.updFunc n f).arc = s.arc := rfl
@[simp] theorem State.updFunc_net (s : State) (n : Nat) (f : Func → Func) : (s.updFunc n f).net = s.net := rfl
@[simp] theorem State.updFunc_plk (s : State) (n : Nat) (f : Func → Func) : (s.updFunc n f).plk = s.plk := rfl
@[simp] theorem State.updFunc_images (s : State) (n : Nat) (f : Func → Func) : (s.updFunc n f).images = s.images := rfl
@[simp] theorem State.updFunc_latches (s : State) (n : Nat) (f : Func → Func) : (s.updFunc n f).latches = s.latches := rfl
@[simp] theorem State.updFunc_freeCtr (s : State) (n : Nat) (f : Func → Func) : (s.updFunc n f).freeCtr = s.freeCtr := rfl
@[simp] theorem State.updFunc_out (s : State) (n : Nat) (f : Func → Func) : (s.updFunc n f).out = s.out := rfl
@[simp] theorem State.updFunc_pending (s : State) (n : Nat) (f : Func → Func) : (s.updFunc n f).pending = s.pending := rfl

/-! ### State.updStw leaves every field but `stws` -/

@[simp] theorem State.updStw_variant (s : State) (w : Nat) (f : Steward → Steward) : (s.updStw w f).variant = s.variant := rfl
@[simp] theorem State.updStw_glb (s : State) (w : Nat) (f : Steward → Steward) : (s.updStw w f).glb = s.glb := rfl
@[simp] theorem State.updStw_ccrs (s : State) (w : Nat) (f : Steward → Steward) : (s.updStw w f).ccrs = s.ccrs := rfl
@[simp] theorem State.updStw_clk (s : State) (w : Nat) (f : Steward → Steward) : (s.updStw w f).clk = s.clk := rfl
@[simp] theorem State.updStw_evc (s : State) (w : Nat) (f : Steward → Steward) : (s.updStw w f).evc = s.evc := rfl
@[simp] theorem State.updStw_sdma (s : State) (w : Nat) (f : Steward → Steward) : (s.updStw w f).sdma = s.sdma := rfl
@[simp] theorem State.updStw_vigil (s : State) (w : Nat) (f : Steward → Steward) : (s.updStw w f).vigil = s.vigil := rfl
@[simp] theorem State.updStw_pwr (s : State) (w : Nat) (f : Steward → Steward) : (s.updStw w f).pwr = s.pwr := rfl
@[simp] theorem State.updStw_trust (s : State) (w : Nat) (f : Steward → Steward) : (s.updStw w f).trust = s.trust := rfl
@[simp] theorem State.updStw_hif (s : State) (w : Nat) (f : Steward → Steward) : (s.updStw w f).hif = s.hif := rfl
@[simp] theorem State.updStw_parts (s : State) (w : Nat) (f : Steward → Steward) : (s.updStw w f).parts = s.parts := rfl
@[simp] theorem State.updStw_pass (s : State) (w : Nat) (f : Steward → Steward) : (s.updStw w f).pass = s.pass := rfl
@[simp] theorem State.updStw_cands (s : State) (w : Nat) (f : Steward → Steward) : (s.updStw w f).cands = s.cands := rfl
@[simp] theorem State.updStw_pages (s : State) (w : Nat) (f : Steward → Steward) : (s.updStw w f).pages = s.pages := rfl
@[simp] theorem State.updStw_hbm (s : State) (w : Nat) (f : Steward → Steward) : (s.updStw w f).hbm = s.hbm := rfl
@[simp] theorem State.updStw_stwMem (s : State) (w : Nat) (f : Steward → Steward) : (s.updStw w f).stwMem = s.stwMem := rfl
@[simp] theorem State.updStw_stwLocal (s : State) (w : Nat) (f : Steward → Steward) : (s.updStw w f).stwLocal = s.stwLocal := rfl
@[simp] theorem State.updStw_hostMem (s : State) (w : Nat) (f : Steward → Steward) : (s.updStw w f).hostMem = s.hostMem := rfl
@[simp] theorem State.updStw_hostBad (s : State) (w : Nat) (f : Steward → Steward) : (s.updStw w f).hostBad = s.hostBad := rfl
@[simp] theorem State.updStw_plans (s : State) (w : Nat) (f : Steward → Steward) : (s.updStw w f).plans = s.plans := rfl
@[simp] theorem State.updStw_runs (s : State) (w : Nat) (f : Steward → Steward) : (s.updStw w f).runs = s.runs := rfl
@[simp] theorem State.updStw_nextRun (s : State) (w : Nat) (f : Steward → Steward) : (s.updStw w f).nextRun = s.nextRun := rfl
@[simp] theorem State.updStw_tiles (s : State) (w : Nat) (f : Steward → Steward) : (s.updStw w f).tiles = s.tiles := rfl
@[simp] theorem State.updStw_cps (s : State) (w : Nat) (f : Steward → Steward) : (s.updStw w f).cps = s.cps := rfl
@[simp] theorem State.updStw_astore (s : State) (w : Nat) (f : Steward → Steward) : (s.updStw w f).astore = s.astore := rfl
@[simp] theorem State.updStw_cmp (s : State) (w : Nat) (f : Steward → Steward) : (s.updStw w f).cmp = s.cmp := rfl
@[simp] theorem State.updStw_arc (s : State) (w : Nat) (f : Steward → Steward) : (s.updStw w f).arc = s.arc := rfl
@[simp] theorem State.updStw_net (s : State) (w : Nat) (f : Steward → Steward) : (s.updStw w f).net = s.net := rfl
@[simp] theorem State.updStw_plk (s : State) (w : Nat) (f : Steward → Steward) : (s.updStw w f).plk = s.plk := rfl
@[simp] theorem State.updStw_images (s : State) (w : Nat) (f : Steward → Steward) : (s.updStw w f).images = s.images := rfl
@[simp] theorem State.updStw_latches (s : State) (w : Nat) (f : Steward → Steward) : (s.updStw w f).latches = s.latches := rfl
@[simp] theorem State.updStw_freeCtr (s : State) (w : Nat) (f : Steward → Steward) : (s.updStw w f).freeCtr = s.freeCtr := rfl
@[simp] theorem State.updStw_out (s : State) (w : Nat) (f : Steward → Steward) : (s.updStw w f).out = s.out := rfl
@[simp] theorem State.updStw_pending (s : State) (w : Nat) (f : Steward → Steward) : (s.updStw w f).pending = s.pending := rfl

/-! ### State.setTile leaves every field but `tiles` -/

@[simp] theorem State.setTile_variant (s : State) (t : Nat) (x : Tile) : (s.setTile t x).variant = s.variant := rfl
@[simp] theorem State.setTile_glb (s : State) (t : Nat) (x : Tile) : (s.setTile t x).glb = s.glb := rfl
@[simp] theorem State.setTile_ccrs (s : State) (t : Nat) (x : Tile) : (s.setTile t x).ccrs = s.ccrs := rfl
@[simp] theorem State.setTile_clk (s : State) (t : Nat) (x : Tile) : (s.setTile t x).clk = s.clk := rfl
@[simp] theorem State.setTile_stws (s : State) (t : Nat) (x : Tile) : (s.setTile t x).stws = s.stws := rfl
@[simp] theorem State.setTile_evc (s : State) (t : Nat) (x : Tile) : (s.setTile t x).evc = s.evc := rfl
@[simp] theorem State.setTile_sdma (s : State) (t : Nat) (x : Tile) : (s.setTile t x).sdma = s.sdma := rfl
@[simp] theorem State.setTile_vigil (s : State) (t : Nat) (x : Tile) : (s.setTile t x).vigil = s.vigil := rfl
@[simp] theorem State.setTile_pwr (s : State) (t : Nat) (x : Tile) : (s.setTile t x).pwr = s.pwr := rfl
@[simp] theorem State.setTile_trust (s : State) (t : Nat) (x : Tile) : (s.setTile t x).trust = s.trust := rfl
@[simp] theorem State.setTile_hif (s : State) (t : Nat) (x : Tile) : (s.setTile t x).hif = s.hif := rfl
@[simp] theorem State.setTile_parts (s : State) (t : Nat) (x : Tile) : (s.setTile t x).parts = s.parts := rfl
@[simp] theorem State.setTile_pass (s : State) (t : Nat) (x : Tile) : (s.setTile t x).pass = s.pass := rfl
@[simp] theorem State.setTile_cands (s : State) (t : Nat) (x : Tile) : (s.setTile t x).cands = s.cands := rfl
@[simp] theorem State.setTile_pages (s : State) (t : Nat) (x : Tile) : (s.setTile t x).pages = s.pages := rfl
@[simp] theorem State.setTile_hbm (s : State) (t : Nat) (x : Tile) : (s.setTile t x).hbm = s.hbm := rfl
@[simp] theorem State.setTile_stwMem (s : State) (t : Nat) (x : Tile) : (s.setTile t x).stwMem = s.stwMem := rfl
@[simp] theorem State.setTile_stwLocal (s : State) (t : Nat) (x : Tile) : (s.setTile t x).stwLocal = s.stwLocal := rfl
@[simp] theorem State.setTile_hostMem (s : State) (t : Nat) (x : Tile) : (s.setTile t x).hostMem = s.hostMem := rfl
@[simp] theorem State.setTile_hostBad (s : State) (t : Nat) (x : Tile) : (s.setTile t x).hostBad = s.hostBad := rfl
@[simp] theorem State.setTile_plans (s : State) (t : Nat) (x : Tile) : (s.setTile t x).plans = s.plans := rfl
@[simp] theorem State.setTile_runs (s : State) (t : Nat) (x : Tile) : (s.setTile t x).runs = s.runs := rfl
@[simp] theorem State.setTile_nextRun (s : State) (t : Nat) (x : Tile) : (s.setTile t x).nextRun = s.nextRun := rfl
@[simp] theorem State.setTile_cps (s : State) (t : Nat) (x : Tile) : (s.setTile t x).cps = s.cps := rfl
@[simp] theorem State.setTile_astore (s : State) (t : Nat) (x : Tile) : (s.setTile t x).astore = s.astore := rfl
@[simp] theorem State.setTile_cmp (s : State) (t : Nat) (x : Tile) : (s.setTile t x).cmp = s.cmp := rfl
@[simp] theorem State.setTile_arc (s : State) (t : Nat) (x : Tile) : (s.setTile t x).arc = s.arc := rfl
@[simp] theorem State.setTile_net (s : State) (t : Nat) (x : Tile) : (s.setTile t x).net = s.net := rfl
@[simp] theorem State.setTile_plk (s : State) (t : Nat) (x : Tile) : (s.setTile t x).plk = s.plk := rfl
@[simp] theorem State.setTile_images (s : State) (t : Nat) (x : Tile) : (s.setTile t x).images = s.images := rfl
@[simp] theorem State.setTile_latches (s : State) (t : Nat) (x : Tile) : (s.setTile t x).latches = s.latches := rfl
@[simp] theorem State.setTile_freeCtr (s : State) (t : Nat) (x : Tile) : (s.setTile t x).freeCtr = s.freeCtr := rfl
@[simp] theorem State.setTile_out (s : State) (t : Nat) (x : Tile) : (s.setTile t x).out = s.out := rfl
@[simp] theorem State.setTile_pending (s : State) (t : Nat) (x : Tile) : (s.setTile t x).pending = s.pending := rfl

/-! ### State.setCp leaves every field but `cps` -/

@[simp] theorem State.setCp_variant (s : State) (t n : Nat) (x : Cp) : (s.setCp t n x).variant = s.variant := rfl
@[simp] theorem State.setCp_glb (s : State) (t n : Nat) (x : Cp) : (s.setCp t n x).glb = s.glb := rfl
@[simp] theorem State.setCp_ccrs (s : State) (t n : Nat) (x : Cp) : (s.setCp t n x).ccrs = s.ccrs := rfl
@[simp] theorem State.setCp_clk (s : State) (t n : Nat) (x : Cp) : (s.setCp t n x).clk = s.clk := rfl
@[simp] theorem State.setCp_stws (s : State) (t n : Nat) (x : Cp) : (s.setCp t n x).stws = s.stws := rfl
@[simp] theorem State.setCp_evc (s : State) (t n : Nat) (x : Cp) : (s.setCp t n x).evc = s.evc := rfl
@[simp] theorem State.setCp_sdma (s : State) (t n : Nat) (x : Cp) : (s.setCp t n x).sdma = s.sdma := rfl
@[simp] theorem State.setCp_vigil (s : State) (t n : Nat) (x : Cp) : (s.setCp t n x).vigil = s.vigil := rfl
@[simp] theorem State.setCp_pwr (s : State) (t n : Nat) (x : Cp) : (s.setCp t n x).pwr = s.pwr := rfl
@[simp] theorem State.setCp_trust (s : State) (t n : Nat) (x : Cp) : (s.setCp t n x).trust = s.trust := rfl
@[simp] theorem State.setCp_hif (s : State) (t n : Nat) (x : Cp) : (s.setCp t n x).hif = s.hif := rfl
@[simp] theorem State.setCp_parts (s : State) (t n : Nat) (x : Cp) : (s.setCp t n x).parts = s.parts := rfl
@[simp] theorem State.setCp_pass (s : State) (t n : Nat) (x : Cp) : (s.setCp t n x).pass = s.pass := rfl
@[simp] theorem State.setCp_cands (s : State) (t n : Nat) (x : Cp) : (s.setCp t n x).cands = s.cands := rfl
@[simp] theorem State.setCp_pages (s : State) (t n : Nat) (x : Cp) : (s.setCp t n x).pages = s.pages := rfl
@[simp] theorem State.setCp_hbm (s : State) (t n : Nat) (x : Cp) : (s.setCp t n x).hbm = s.hbm := rfl
@[simp] theorem State.setCp_stwMem (s : State) (t n : Nat) (x : Cp) : (s.setCp t n x).stwMem = s.stwMem := rfl
@[simp] theorem State.setCp_stwLocal (s : State) (t n : Nat) (x : Cp) : (s.setCp t n x).stwLocal = s.stwLocal := rfl
@[simp] theorem State.setCp_hostMem (s : State) (t n : Nat) (x : Cp) : (s.setCp t n x).hostMem = s.hostMem := rfl
@[simp] theorem State.setCp_hostBad (s : State) (t n : Nat) (x : Cp) : (s.setCp t n x).hostBad = s.hostBad := rfl
@[simp] theorem State.setCp_plans (s : State) (t n : Nat) (x : Cp) : (s.setCp t n x).plans = s.plans := rfl
@[simp] theorem State.setCp_runs (s : State) (t n : Nat) (x : Cp) : (s.setCp t n x).runs = s.runs := rfl
@[simp] theorem State.setCp_nextRun (s : State) (t n : Nat) (x : Cp) : (s.setCp t n x).nextRun = s.nextRun := rfl
@[simp] theorem State.setCp_tiles (s : State) (t n : Nat) (x : Cp) : (s.setCp t n x).tiles = s.tiles := rfl
@[simp] theorem State.setCp_astore (s : State) (t n : Nat) (x : Cp) : (s.setCp t n x).astore = s.astore := rfl
@[simp] theorem State.setCp_cmp (s : State) (t n : Nat) (x : Cp) : (s.setCp t n x).cmp = s.cmp := rfl
@[simp] theorem State.setCp_arc (s : State) (t n : Nat) (x : Cp) : (s.setCp t n x).arc = s.arc := rfl
@[simp] theorem State.setCp_net (s : State) (t n : Nat) (x : Cp) : (s.setCp t n x).net = s.net := rfl
@[simp] theorem State.setCp_plk (s : State) (t n : Nat) (x : Cp) : (s.setCp t n x).plk = s.plk := rfl
@[simp] theorem State.setCp_images (s : State) (t n : Nat) (x : Cp) : (s.setCp t n x).images = s.images := rfl
@[simp] theorem State.setCp_latches (s : State) (t n : Nat) (x : Cp) : (s.setCp t n x).latches = s.latches := rfl
@[simp] theorem State.setCp_freeCtr (s : State) (t n : Nat) (x : Cp) : (s.setCp t n x).freeCtr = s.freeCtr := rfl
@[simp] theorem State.setCp_out (s : State) (t n : Nat) (x : Cp) : (s.setCp t n x).out = s.out := rfl
@[simp] theorem State.setCp_pending (s : State) (t n : Nat) (x : Cp) : (s.setCp t n x).pending = s.pending := rfl

/-! ### State.putArr leaves every field but `arc` -/

@[simp] theorem State.putArr_variant (s : State) (a : Nat) (x : Arr) : (s.putArr a x).variant = s.variant := rfl
@[simp] theorem State.putArr_glb (s : State) (a : Nat) (x : Arr) : (s.putArr a x).glb = s.glb := rfl
@[simp] theorem State.putArr_ccrs (s : State) (a : Nat) (x : Arr) : (s.putArr a x).ccrs = s.ccrs := rfl
@[simp] theorem State.putArr_clk (s : State) (a : Nat) (x : Arr) : (s.putArr a x).clk = s.clk := rfl
@[simp] theorem State.putArr_stws (s : State) (a : Nat) (x : Arr) : (s.putArr a x).stws = s.stws := rfl
@[simp] theorem State.putArr_evc (s : State) (a : Nat) (x : Arr) : (s.putArr a x).evc = s.evc := rfl
@[simp] theorem State.putArr_sdma (s : State) (a : Nat) (x : Arr) : (s.putArr a x).sdma = s.sdma := rfl
@[simp] theorem State.putArr_vigil (s : State) (a : Nat) (x : Arr) : (s.putArr a x).vigil = s.vigil := rfl
@[simp] theorem State.putArr_pwr (s : State) (a : Nat) (x : Arr) : (s.putArr a x).pwr = s.pwr := rfl
@[simp] theorem State.putArr_trust (s : State) (a : Nat) (x : Arr) : (s.putArr a x).trust = s.trust := rfl
@[simp] theorem State.putArr_hif (s : State) (a : Nat) (x : Arr) : (s.putArr a x).hif = s.hif := rfl
@[simp] theorem State.putArr_parts (s : State) (a : Nat) (x : Arr) : (s.putArr a x).parts = s.parts := rfl
@[simp] theorem State.putArr_pass (s : State) (a : Nat) (x : Arr) : (s.putArr a x).pass = s.pass := rfl
@[simp] theorem State.putArr_cands (s : State) (a : Nat) (x : Arr) : (s.putArr a x).cands = s.cands := rfl
@[simp] theorem State.putArr_pages (s : State) (a : Nat) (x : Arr) : (s.putArr a x).pages = s.pages := rfl
@[simp] theorem State.putArr_hbm (s : State) (a : Nat) (x : Arr) : (s.putArr a x).hbm = s.hbm := rfl
@[simp] theorem State.putArr_stwMem (s : State) (a : Nat) (x : Arr) : (s.putArr a x).stwMem = s.stwMem := rfl
@[simp] theorem State.putArr_stwLocal (s : State) (a : Nat) (x : Arr) : (s.putArr a x).stwLocal = s.stwLocal := rfl
@[simp] theorem State.putArr_hostMem (s : State) (a : Nat) (x : Arr) : (s.putArr a x).hostMem = s.hostMem := rfl
@[simp] theorem State.putArr_hostBad (s : State) (a : Nat) (x : Arr) : (s.putArr a x).hostBad = s.hostBad := rfl
@[simp] theorem State.putArr_plans (s : State) (a : Nat) (x : Arr) : (s.putArr a x).plans = s.plans := rfl
@[simp] theorem State.putArr_runs (s : State) (a : Nat) (x : Arr) : (s.putArr a x).runs = s.runs := rfl
@[simp] theorem State.putArr_nextRun (s : State) (a : Nat) (x : Arr) : (s.putArr a x).nextRun = s.nextRun := rfl
@[simp] theorem State.putArr_tiles (s : State) (a : Nat) (x : Arr) : (s.putArr a x).tiles = s.tiles := rfl
@[simp] theorem State.putArr_cps (s : State) (a : Nat) (x : Arr) : (s.putArr a x).cps = s.cps := rfl
@[simp] theorem State.putArr_astore (s : State) (a : Nat) (x : Arr) : (s.putArr a x).astore = s.astore := rfl
@[simp] theorem State.putArr_cmp (s : State) (a : Nat) (x : Arr) : (s.putArr a x).cmp = s.cmp := rfl
@[simp] theorem State.putArr_net (s : State) (a : Nat) (x : Arr) : (s.putArr a x).net = s.net := rfl
@[simp] theorem State.putArr_plk (s : State) (a : Nat) (x : Arr) : (s.putArr a x).plk = s.plk := rfl
@[simp] theorem State.putArr_images (s : State) (a : Nat) (x : Arr) : (s.putArr a x).images = s.images := rfl
@[simp] theorem State.putArr_latches (s : State) (a : Nat) (x : Arr) : (s.putArr a x).latches = s.latches := rfl
@[simp] theorem State.putArr_freeCtr (s : State) (a : Nat) (x : Arr) : (s.putArr a x).freeCtr = s.freeCtr := rfl
@[simp] theorem State.putArr_out (s : State) (a : Nat) (x : Arr) : (s.putArr a x).out = s.out := rfl
@[simp] theorem State.putArr_pending (s : State) (a : Nat) (x : Arr) : (s.putArr a x).pending = s.pending := rfl

/-! ### State.setVol leaves every field but `arc` -/

@[simp] theorem State.setVol_variant (s : State) (v : Nat) (x : Vol) : (s.setVol v x).variant = s.variant := rfl
@[simp] theorem State.setVol_glb (s : State) (v : Nat) (x : Vol) : (s.setVol v x).glb = s.glb := rfl
@[simp] theorem State.setVol_ccrs (s : State) (v : Nat) (x : Vol) : (s.setVol v x).ccrs = s.ccrs := rfl
@[simp] theorem State.setVol_clk (s : State) (v : Nat) (x : Vol) : (s.setVol v x).clk = s.clk := rfl
@[simp] theorem State.setVol_stws (s : State) (v : Nat) (x : Vol) : (s.setVol v x).stws = s.stws := rfl
@[simp] theorem State.setVol_evc (s : State) (v : Nat) (x : Vol) : (s.setVol v x).evc = s.evc := rfl
@[simp] theorem State.setVol_sdma (s : State) (v : Nat) (x : Vol) : (s.setVol v x).sdma = s.sdma := rfl
@[simp] theorem State.setVol_vigil (s : State) (v : Nat) (x : Vol) : (s.setVol v x).vigil = s.vigil := rfl
@[simp] theorem State.setVol_pwr (s : State) (v : Nat) (x : Vol) : (s.setVol v x).pwr = s.pwr := rfl
@[simp] theorem State.setVol_trust (s : State) (v : Nat) (x : Vol) : (s.setVol v x).trust = s.trust := rfl
@[simp] theorem State.setVol_hif (s : State) (v : Nat) (x : Vol) : (s.setVol v x).hif = s.hif := rfl
@[simp] theorem State.setVol_parts (s : State) (v : Nat) (x : Vol) : (s.setVol v x).parts = s.parts := rfl
@[simp] theorem State.setVol_pass (s : State) (v : Nat) (x : Vol) : (s.setVol v x).pass = s.pass := rfl
@[simp] theorem State.setVol_cands (s : State) (v : Nat) (x : Vol) : (s.setVol v x).cands = s.cands := rfl
@[simp] theorem State.setVol_pages (s : State) (v : Nat) (x : Vol) : (s.setVol v x).pages = s.pages := rfl
@[simp] theorem State.setVol_hbm (s : State) (v : Nat) (x : Vol) : (s.setVol v x).hbm = s.hbm := rfl
@[simp] theorem State.setVol_stwMem (s : State) (v : Nat) (x : Vol) : (s.setVol v x).stwMem = s.stwMem := rfl
@[simp] theorem State.setVol_stwLocal (s : State) (v : Nat) (x : Vol) : (s.setVol v x).stwLocal = s.stwLocal := rfl
@[simp] theorem State.setVol_hostMem (s : State) (v : Nat) (x : Vol) : (s.setVol v x).hostMem = s.hostMem := rfl
@[simp] theorem State.setVol_hostBad (s : State) (v : Nat) (x : Vol) : (s.setVol v x).hostBad = s.hostBad := rfl
@[simp] theorem State.setVol_plans (s : State) (v : Nat) (x : Vol) : (s.setVol v x).plans = s.plans := rfl
@[simp] theorem State.setVol_runs (s : State) (v : Nat) (x : Vol) : (s.setVol v x).runs = s.runs := rfl
@[simp] theorem State.setVol_nextRun (s : State) (v : Nat) (x : Vol) : (s.setVol v x).nextRun = s.nextRun := rfl
@[simp] theorem State.setVol_tiles (s : State) (v : Nat) (x : Vol) : (s.setVol v x).tiles = s.tiles := rfl
@[simp] theorem State.setVol_cps (s : State) (v : Nat) (x : Vol) : (s.setVol v x).cps = s.cps := rfl
@[simp] theorem State.setVol_astore (s : State) (v : Nat) (x : Vol) : (s.setVol v x).astore = s.astore := rfl
@[simp] theorem State.setVol_cmp (s : State) (v : Nat) (x : Vol) : (s.setVol v x).cmp = s.cmp := rfl
@[simp] theorem State.setVol_net (s : State) (v : Nat) (x : Vol) : (s.setVol v x).net = s.net := rfl
@[simp] theorem State.setVol_plk (s : State) (v : Nat) (x : Vol) : (s.setVol v x).plk = s.plk := rfl
@[simp] theorem State.setVol_images (s : State) (v : Nat) (x : Vol) : (s.setVol v x).images = s.images := rfl
@[simp] theorem State.setVol_latches (s : State) (v : Nat) (x : Vol) : (s.setVol v x).latches = s.latches := rfl
@[simp] theorem State.setVol_freeCtr (s : State) (v : Nat) (x : Vol) : (s.setVol v x).freeCtr = s.freeCtr := rfl
@[simp] theorem State.setVol_out (s : State) (v : Nat) (x : Vol) : (s.setVol v x).out = s.out := rfl
@[simp] theorem State.setVol_pending (s : State) (v : Nat) (x : Vol) : (s.setVol v x).pending = s.pending := rfl

/-! ### State.setMember leaves every field but `arc` -/

@[simp] theorem State.setMember_variant (s : State) (n : Nat) (x : Member) : (s.setMember n x).variant = s.variant := rfl
@[simp] theorem State.setMember_glb (s : State) (n : Nat) (x : Member) : (s.setMember n x).glb = s.glb := rfl
@[simp] theorem State.setMember_ccrs (s : State) (n : Nat) (x : Member) : (s.setMember n x).ccrs = s.ccrs := rfl
@[simp] theorem State.setMember_clk (s : State) (n : Nat) (x : Member) : (s.setMember n x).clk = s.clk := rfl
@[simp] theorem State.setMember_stws (s : State) (n : Nat) (x : Member) : (s.setMember n x).stws = s.stws := rfl
@[simp] theorem State.setMember_evc (s : State) (n : Nat) (x : Member) : (s.setMember n x).evc = s.evc := rfl
@[simp] theorem State.setMember_sdma (s : State) (n : Nat) (x : Member) : (s.setMember n x).sdma = s.sdma := rfl
@[simp] theorem State.setMember_vigil (s : State) (n : Nat) (x : Member) : (s.setMember n x).vigil = s.vigil := rfl
@[simp] theorem State.setMember_pwr (s : State) (n : Nat) (x : Member) : (s.setMember n x).pwr = s.pwr := rfl
@[simp] theorem State.setMember_trust (s : State) (n : Nat) (x : Member) : (s.setMember n x).trust = s.trust := rfl
@[simp] theorem State.setMember_hif (s : State) (n : Nat) (x : Member) : (s.setMember n x).hif = s.hif := rfl
@[simp] theorem State.setMember_parts (s : State) (n : Nat) (x : Member) : (s.setMember n x).parts = s.parts := rfl
@[simp] theorem State.setMember_pass (s : State) (n : Nat) (x : Member) : (s.setMember n x).pass = s.pass := rfl
@[simp] theorem State.setMember_cands (s : State) (n : Nat) (x : Member) : (s.setMember n x).cands = s.cands := rfl
@[simp] theorem State.setMember_pages (s : State) (n : Nat) (x : Member) : (s.setMember n x).pages = s.pages := rfl
@[simp] theorem State.setMember_hbm (s : State) (n : Nat) (x : Member) : (s.setMember n x).hbm = s.hbm := rfl
@[simp] theorem State.setMember_stwMem (s : State) (n : Nat) (x : Member) : (s.setMember n x).stwMem = s.stwMem := rfl
@[simp] theorem State.setMember_stwLocal (s : State) (n : Nat) (x : Member) : (s.setMember n x).stwLocal = s.stwLocal := rfl
@[simp] theorem State.setMember_hostMem (s : State) (n : Nat) (x : Member) : (s.setMember n x).hostMem = s.hostMem := rfl
@[simp] theorem State.setMember_hostBad (s : State) (n : Nat) (x : Member) : (s.setMember n x).hostBad = s.hostBad := rfl
@[simp] theorem State.setMember_plans (s : State) (n : Nat) (x : Member) : (s.setMember n x).plans = s.plans := rfl
@[simp] theorem State.setMember_runs (s : State) (n : Nat) (x : Member) : (s.setMember n x).runs = s.runs := rfl
@[simp] theorem State.setMember_nextRun (s : State) (n : Nat) (x : Member) : (s.setMember n x).nextRun = s.nextRun := rfl
@[simp] theorem State.setMember_tiles (s : State) (n : Nat) (x : Member) : (s.setMember n x).tiles = s.tiles := rfl
@[simp] theorem State.setMember_cps (s : State) (n : Nat) (x : Member) : (s.setMember n x).cps = s.cps := rfl
@[simp] theorem State.setMember_astore (s : State) (n : Nat) (x : Member) : (s.setMember n x).astore = s.astore := rfl
@[simp] theorem State.setMember_cmp (s : State) (n : Nat) (x : Member) : (s.setMember n x).cmp = s.cmp := rfl
@[simp] theorem State.setMember_net (s : State) (n : Nat) (x : Member) : (s.setMember n x).net = s.net := rfl
@[simp] theorem State.setMember_plk (s : State) (n : Nat) (x : Member) : (s.setMember n x).plk = s.plk := rfl
@[simp] theorem State.setMember_images (s : State) (n : Nat) (x : Member) : (s.setMember n x).images = s.images := rfl
@[simp] theorem State.setMember_latches (s : State) (n : Nat) (x : Member) : (s.setMember n x).latches = s.latches := rfl
@[simp] theorem State.setMember_freeCtr (s : State) (n : Nat) (x : Member) : (s.setMember n x).freeCtr = s.freeCtr := rfl
@[simp] theorem State.setMember_out (s : State) (n : Nat) (x : Member) : (s.setMember n x).out = s.out := rfl
@[simp] theorem State.setMember_pending (s : State) (n : Nat) (x : Member) : (s.setMember n x).pending = s.pending := rfl

/-! ### State.updRoute leaves every field but `evc` -/

@[simp] theorem State.updRoute_variant (s : State) (n : Nat) (f : Route → Route) : (s.updRoute n f).variant = s.variant := rfl
@[simp] theorem State.updRoute_glb (s : State) (n : Nat) (f : Route → Route) : (s.updRoute n f).glb = s.glb := rfl
@[simp] theorem State.updRoute_ccrs (s : State) (n : Nat) (f : Route → Route) : (s.updRoute n f).ccrs = s.ccrs := rfl
@[simp] theorem State.updRoute_clk (s : State) (n : Nat) (f : Route → Route) : (s.updRoute n f).clk = s.clk := rfl
@[simp] theorem State.updRoute_stws (s : State) (n : Nat) (f : Route → Route) : (s.updRoute n f).stws = s.stws := rfl
@[simp] theorem State.updRoute_sdma (s : State) (n : Nat) (f : Route → Route) : (s.updRoute n f).sdma = s.sdma := rfl
@[simp] theorem State.updRoute_vigil (s : State) (n : Nat) (f : Route → Route) : (s.updRoute n f).vigil = s.vigil := rfl
@[simp] theorem State.updRoute_pwr (s : State) (n : Nat) (f : Route → Route) : (s.updRoute n f).pwr = s.pwr := rfl
@[simp] theorem State.updRoute_trust (s : State) (n : Nat) (f : Route → Route) : (s.updRoute n f).trust = s.trust := rfl
@[simp] theorem State.updRoute_hif (s : State) (n : Nat) (f : Route → Route) : (s.updRoute n f).hif = s.hif := rfl
@[simp] theorem State.updRoute_parts (s : State) (n : Nat) (f : Route → Route) : (s.updRoute n f).parts = s.parts := rfl
@[simp] theorem State.updRoute_pass (s : State) (n : Nat) (f : Route → Route) : (s.updRoute n f).pass = s.pass := rfl
@[simp] theorem State.updRoute_cands (s : State) (n : Nat) (f : Route → Route) : (s.updRoute n f).cands = s.cands := rfl
@[simp] theorem State.updRoute_pages (s : State) (n : Nat) (f : Route → Route) : (s.updRoute n f).pages = s.pages := rfl
@[simp] theorem State.updRoute_hbm (s : State) (n : Nat) (f : Route → Route) : (s.updRoute n f).hbm = s.hbm := rfl
@[simp] theorem State.updRoute_stwMem (s : State) (n : Nat) (f : Route → Route) : (s.updRoute n f).stwMem = s.stwMem := rfl
@[simp] theorem State.updRoute_stwLocal (s : State) (n : Nat) (f : Route → Route) : (s.updRoute n f).stwLocal = s.stwLocal := rfl
@[simp] theorem State.updRoute_hostMem (s : State) (n : Nat) (f : Route → Route) : (s.updRoute n f).hostMem = s.hostMem := rfl
@[simp] theorem State.updRoute_hostBad (s : State) (n : Nat) (f : Route → Route) : (s.updRoute n f).hostBad = s.hostBad := rfl
@[simp] theorem State.updRoute_plans (s : State) (n : Nat) (f : Route → Route) : (s.updRoute n f).plans = s.plans := rfl
@[simp] theorem State.updRoute_runs (s : State) (n : Nat) (f : Route → Route) : (s.updRoute n f).runs = s.runs := rfl
@[simp] theorem State.updRoute_nextRun (s : State) (n : Nat) (f : Route → Route) : (s.updRoute n f).nextRun = s.nextRun := rfl
@[simp] theorem State.updRoute_tiles (s : State) (n : Nat) (f : Route → Route) : (s.updRoute n f).tiles = s.tiles := rfl
@[simp] theorem State.updRoute_cps (s : State) (n : Nat) (f : Route → Route) : (s.updRoute n f).cps = s.cps := rfl
@[simp] theorem State.updRoute_astore (s : State) (n : Nat) (f : Route → Route) : (s.updRoute n f).astore = s.astore := rfl
@[simp] theorem State.updRoute_cmp (s : State) (n : Nat) (f : Route → Route) : (s.updRoute n f).cmp = s.cmp := rfl
@[simp] theorem State.updRoute_arc (s : State) (n : Nat) (f : Route → Route) : (s.updRoute n f).arc = s.arc := rfl
@[simp] theorem State.updRoute_net (s : State) (n : Nat) (f : Route → Route) : (s.updRoute n f).net = s.net := rfl
@[simp] theorem State.updRoute_plk (s : State) (n : Nat) (f : Route → Route) : (s.updRoute n f).plk = s.plk := rfl
@[simp] theorem State.updRoute_images (s : State) (n : Nat) (f : Route → Route) : (s.updRoute n f).images = s.images := rfl
@[simp] theorem State.updRoute_latches (s : State) (n : Nat) (f : Route → Route) : (s.updRoute n f).latches = s.latches := rfl
@[simp] theorem State.updRoute_freeCtr (s : State) (n : Nat) (f : Route → Route) : (s.updRoute n f).freeCtr = s.freeCtr := rfl
@[simp] theorem State.updRoute_out (s : State) (n : Nat) (f : Route → Route) : (s.updRoute n f).out = s.out := rfl
@[simp] theorem State.updRoute_pending (s : State) (n : Nat) (f : Route → Route) : (s.updRoute n f).pending = s.pending := rfl

/-! ### State.setLock leaves every field but `glb` -/

@[simp] theorem State.setLock_variant (s : State) (l : Lock) : (s.setLock l).variant = s.variant := rfl
@[simp] theorem State.setLock_ccrs (s : State) (l : Lock) : (s.setLock l).ccrs = s.ccrs := rfl
@[simp] theorem State.setLock_clk (s : State) (l : Lock) : (s.setLock l).clk = s.clk := rfl
@[simp] theorem State.setLock_stws (s : State) (l : Lock) : (s.setLock l).stws = s.stws := rfl
@[simp] theorem State.setLock_evc (s : State) (l : Lock) : (s.setLock l).evc = s.evc := rfl
@[simp] theorem State.setLock_sdma (s : State) (l : Lock) : (s.setLock l).sdma = s.sdma := rfl
@[simp] theorem State.setLock_vigil (s : State) (l : Lock) : (s.setLock l).vigil = s.vigil := rfl
@[simp] theorem State.setLock_pwr (s : State) (l : Lock) : (s.setLock l).pwr = s.pwr := rfl
@[simp] theorem State.setLock_trust (s : State) (l : Lock) : (s.setLock l).trust = s.trust := rfl
@[simp] theorem State.setLock_hif (s : State) (l : Lock) : (s.setLock l).hif = s.hif := rfl
@[simp] theorem State.setLock_parts (s : State) (l : Lock) : (s.setLock l).parts = s.parts := rfl
@[simp] theorem State.setLock_pass (s : State) (l : Lock) : (s.setLock l).pass = s.pass := rfl
@[simp] theorem State.setLock_cands (s : State) (l : Lock) : (s.setLock l).cands = s.cands := rfl
@[simp] theorem State.setLock_pages (s : State) (l : Lock) : (s.setLock l).pages = s.pages := rfl
@[simp] theorem State.setLock_hbm (s : State) (l : Lock) : (s.setLock l).hbm = s.hbm := rfl
@[simp] theorem State.setLock_stwMem (s : State) (l : Lock) : (s.setLock l).stwMem = s.stwMem := rfl
@[simp] theorem State.setLock_stwLocal (s : State) (l : Lock) : (s.setLock l).stwLocal = s.stwLocal := rfl
@[simp] theorem State.setLock_hostMem (s : State) (l : Lock) : (s.setLock l).hostMem = s.hostMem := rfl
@[simp] theorem State.setLock_hostBad (s : State) (l : Lock) : (s.setLock l).hostBad = s.hostBad := rfl
@[simp] theorem State.setLock_plans (s : State) (l : Lock) : (s.setLock l).plans = s.plans := rfl
@[simp] theorem State.setLock_runs (s : State) (l : Lock) : (s.setLock l).runs = s.runs := rfl
@[simp] theorem State.setLock_nextRun (s : State) (l : Lock) : (s.setLock l).nextRun = s.nextRun := rfl
@[simp] theorem State.setLock_tiles (s : State) (l : Lock) : (s.setLock l).tiles = s.tiles := rfl
@[simp] theorem State.setLock_cps (s : State) (l : Lock) : (s.setLock l).cps = s.cps := rfl
@[simp] theorem State.setLock_astore (s : State) (l : Lock) : (s.setLock l).astore = s.astore := rfl
@[simp] theorem State.setLock_cmp (s : State) (l : Lock) : (s.setLock l).cmp = s.cmp := rfl
@[simp] theorem State.setLock_arc (s : State) (l : Lock) : (s.setLock l).arc = s.arc := rfl
@[simp] theorem State.setLock_net (s : State) (l : Lock) : (s.setLock l).net = s.net := rfl
@[simp] theorem State.setLock_plk (s : State) (l : Lock) : (s.setLock l).plk = s.plk := rfl
@[simp] theorem State.setLock_images (s : State) (l : Lock) : (s.setLock l).images = s.images := rfl
@[simp] theorem State.setLock_latches (s : State) (l : Lock) : (s.setLock l).latches = s.latches := rfl
@[simp] theorem State.setLock_freeCtr (s : State) (l : Lock) : (s.setLock l).freeCtr = s.freeCtr := rfl
@[simp] theorem State.setLock_out (s : State) (l : Lock) : (s.setLock l).out = s.out := rfl
@[simp] theorem State.setLock_pending (s : State) (l : Lock) : (s.setLock l).pending = s.pending := rfl

/-! ### State.setCmds leaves every field but `hif` -/

@[simp] theorem State.setCmds_variant (s : State) (l : List Cmd) : (s.setCmds l).variant = s.variant := rfl
@[simp] theorem State.setCmds_glb (s : State) (l : List Cmd) : (s.setCmds l).glb = s.glb := rfl
@[simp] theorem State.setCmds_ccrs (s : State) (l : List Cmd) : (s.setCmds l).ccrs = s.ccrs := rfl
@[simp] theorem State.setCmds_clk (s : State) (l : List Cmd) : (s.setCmds l).clk = s.clk := rfl
@[simp] theorem State.setCmds_stws (s : State) (l : List Cmd) : (s.setCmds l).stws = s.stws := rfl
@[simp] theorem State.setCmds_evc (s : State) (l : List Cmd) : (s.setCmds l).evc = s.evc := rfl
@[simp] theorem State.setCmds_sdma (s : State) (l : List Cmd) : (s.setCmds l).sdma = s.sdma := rfl
@[simp] theorem State.setCmds_vigil (s : State) (l : List Cmd) : (s.setCmds l).vigil = s.vigil := rfl
@[simp] theorem State.setCmds_pwr (s : State) (l : List Cmd) : (s.setCmds l).pwr = s.pwr := rfl
@[simp] theorem State.setCmds_trust (s : State) (l : List Cmd) : (s.setCmds l).trust = s.trust := rfl
@[simp] theorem State.setCmds_parts (s : State) (l : List Cmd) : (s.setCmds l).parts = s.parts := rfl
@[simp] theorem State.setCmds_pass (s : State) (l : List Cmd) : (s.setCmds l).pass = s.pass := rfl
@[simp] theorem State.setCmds_cands (s : State) (l : List Cmd) : (s.setCmds l).cands = s.cands := rfl
@[simp] theorem State.setCmds_pages (s : State) (l : List Cmd) : (s.setCmds l).pages = s.pages := rfl
@[simp] theorem State.setCmds_hbm (s : State) (l : List Cmd) : (s.setCmds l).hbm = s.hbm := rfl
@[simp] theorem State.setCmds_stwMem (s : State) (l : List Cmd) : (s.setCmds l).stwMem = s.stwMem := rfl
@[simp] theorem State.setCmds_stwLocal (s : State) (l : List Cmd) : (s.setCmds l).stwLocal = s.stwLocal := rfl
@[simp] theorem State.setCmds_hostMem (s : State) (l : List Cmd) : (s.setCmds l).hostMem = s.hostMem := rfl
@[simp] theorem State.setCmds_hostBad (s : State) (l : List Cmd) : (s.setCmds l).hostBad = s.hostBad := rfl
@[simp] theorem State.setCmds_plans (s : State) (l : List Cmd) : (s.setCmds l).plans = s.plans := rfl
@[simp] theorem State.setCmds_runs (s : State) (l : List Cmd) : (s.setCmds l).runs = s.runs := rfl
@[simp] theorem State.setCmds_nextRun (s : State) (l : List Cmd) : (s.setCmds l).nextRun = s.nextRun := rfl
@[simp] theorem State.setCmds_tiles (s : State) (l : List Cmd) : (s.setCmds l).tiles = s.tiles := rfl
@[simp] theorem State.setCmds_cps (s : State) (l : List Cmd) : (s.setCmds l).cps = s.cps := rfl
@[simp] theorem State.setCmds_astore (s : State) (l : List Cmd) : (s.setCmds l).astore = s.astore := rfl
@[simp] theorem State.setCmds_cmp (s : State) (l : List Cmd) : (s.setCmds l).cmp = s.cmp := rfl
@[simp] theorem State.setCmds_arc (s : State) (l : List Cmd) : (s.setCmds l).arc = s.arc := rfl
@[simp] theorem State.setCmds_net (s : State) (l : List Cmd) : (s.setCmds l).net = s.net := rfl
@[simp] theorem State.setCmds_plk (s : State) (l : List Cmd) : (s.setCmds l).plk = s.plk := rfl
@[simp] theorem State.setCmds_images (s : State) (l : List Cmd) : (s.setCmds l).images = s.images := rfl
@[simp] theorem State.setCmds_latches (s : State) (l : List Cmd) : (s.setCmds l).latches = s.latches := rfl
@[simp] theorem State.setCmds_freeCtr (s : State) (l : List Cmd) : (s.setCmds l).freeCtr = s.freeCtr := rfl
@[simp] theorem State.setCmds_out (s : State) (l : List Cmd) : (s.setCmds l).out = s.out := rfl
@[simp] theorem State.setCmds_pending (s : State) (l : List Cmd) : (s.setCmds l).pending = s.pending := rfl

/-! ### State.hostWrite leaves every field but `hostMem` -/

@[simp] theorem State.hostWrite_variant (s : State) (fn a : Nat) (bs : List Byte) : (s.hostWrite fn a bs).variant = s.variant := rfl
@[simp] theorem State.hostWrite_glb (s : State) (fn a : Nat) (bs : List Byte) : (s.hostWrite fn a bs).glb = s.glb := rfl
@[simp] theorem State.hostWrite_ccrs (s : State) (fn a : Nat) (bs : List Byte) : (s.hostWrite fn a bs).ccrs = s.ccrs := rfl
@[simp] theorem State.hostWrite_clk (s : State) (fn a : Nat) (bs : List Byte) : (s.hostWrite fn a bs).clk = s.clk := rfl
@[simp] theorem State.hostWrite_stws (s : State) (fn a : Nat) (bs : List Byte) : (s.hostWrite fn a bs).stws = s.stws := rfl
@[simp] theorem State.hostWrite_evc (s : State) (fn a : Nat) (bs : List Byte) : (s.hostWrite fn a bs).evc = s.evc := rfl
@[simp] theorem State.hostWrite_sdma (s : State) (fn a : Nat) (bs : List Byte) : (s.hostWrite fn a bs).sdma = s.sdma := rfl
@[simp] theorem State.hostWrite_vigil (s : State) (fn a : Nat) (bs : List Byte) : (s.hostWrite fn a bs).vigil = s.vigil := rfl
@[simp] theorem State.hostWrite_pwr (s : State) (fn a : Nat) (bs : List Byte) : (s.hostWrite fn a bs).pwr = s.pwr := rfl
@[simp] theorem State.hostWrite_trust (s : State) (fn a : Nat) (bs : List Byte) : (s.hostWrite fn a bs).trust = s.trust := rfl
@[simp] theorem State.hostWrite_hif (s : State) (fn a : Nat) (bs : List Byte) : (s.hostWrite fn a bs).hif = s.hif := rfl
@[simp] theorem State.hostWrite_parts (s : State) (fn a : Nat) (bs : List Byte) : (s.hostWrite fn a bs).parts = s.parts := rfl
@[simp] theorem State.hostWrite_pass (s : State) (fn a : Nat) (bs : List Byte) : (s.hostWrite fn a bs).pass = s.pass := rfl
@[simp] theorem State.hostWrite_cands (s : State) (fn a : Nat) (bs : List Byte) : (s.hostWrite fn a bs).cands = s.cands := rfl
@[simp] theorem State.hostWrite_pages (s : State) (fn a : Nat) (bs : List Byte) : (s.hostWrite fn a bs).pages = s.pages := rfl
@[simp] theorem State.hostWrite_hbm (s : State) (fn a : Nat) (bs : List Byte) : (s.hostWrite fn a bs).hbm = s.hbm := rfl
@[simp] theorem State.hostWrite_stwMem (s : State) (fn a : Nat) (bs : List Byte) : (s.hostWrite fn a bs).stwMem = s.stwMem := rfl
@[simp] theorem State.hostWrite_stwLocal (s : State) (fn a : Nat) (bs : List Byte) : (s.hostWrite fn a bs).stwLocal = s.stwLocal := rfl
@[simp] theorem State.hostWrite_hostBad (s : State) (fn a : Nat) (bs : List Byte) : (s.hostWrite fn a bs).hostBad = s.hostBad := rfl
@[simp] theorem State.hostWrite_plans (s : State) (fn a : Nat) (bs : List Byte) : (s.hostWrite fn a bs).plans = s.plans := rfl
@[simp] theorem State.hostWrite_runs (s : State) (fn a : Nat) (bs : List Byte) : (s.hostWrite fn a bs).runs = s.runs := rfl
@[simp] theorem State.hostWrite_nextRun (s : State) (fn a : Nat) (bs : List Byte) : (s.hostWrite fn a bs).nextRun = s.nextRun := rfl
@[simp] theorem State.hostWrite_tiles (s : State) (fn a : Nat) (bs : List Byte) : (s.hostWrite fn a bs).tiles = s.tiles := rfl
@[simp] theorem State.hostWrite_cps (s : State) (fn a : Nat) (bs : List Byte) : (s.hostWrite fn a bs).cps = s.cps := rfl
@[simp] theorem State.hostWrite_astore (s : State) (fn a : Nat) (bs : List Byte) : (s.hostWrite fn a bs).astore = s.astore := rfl
@[simp] theorem State.hostWrite_cmp (s : State) (fn a : Nat) (bs : List Byte) : (s.hostWrite fn a bs).cmp = s.cmp := rfl
@[simp] theorem State.hostWrite_arc (s : State) (fn a : Nat) (bs : List Byte) : (s.hostWrite fn a bs).arc = s.arc := rfl
@[simp] theorem State.hostWrite_net (s : State) (fn a : Nat) (bs : List Byte) : (s.hostWrite fn a bs).net = s.net := rfl
@[simp] theorem State.hostWrite_plk (s : State) (fn a : Nat) (bs : List Byte) : (s.hostWrite fn a bs).plk = s.plk := rfl
@[simp] theorem State.hostWrite_images (s : State) (fn a : Nat) (bs : List Byte) : (s.hostWrite fn a bs).images = s.images := rfl
@[simp] theorem State.hostWrite_latches (s : State) (fn a : Nat) (bs : List Byte) : (s.hostWrite fn a bs).latches = s.latches := rfl
@[simp] theorem State.hostWrite_freeCtr (s : State) (fn a : Nat) (bs : List Byte) : (s.hostWrite fn a bs).freeCtr = s.freeCtr := rfl
@[simp] theorem State.hostWrite_out (s : State) (fn a : Nat) (bs : List Byte) : (s.hostWrite fn a bs).out = s.out := rfl
@[simp] theorem State.hostWrite_pending (s : State) (fn a : Nat) (bs : List Byte) : (s.hostWrite fn a bs).pending = s.pending := rfl

/-! ### State.hbmWrite leaves every field but `hbm` -/

@[simp] theorem State.hbmWrite_variant (s : State) (c a : Nat) (bs : List Byte) : (s.hbmWrite c a bs).variant = s.variant := rfl
@[simp] theorem State.hbmWrite_glb (s : State) (c a : Nat) (bs : List Byte) : (s.hbmWrite c a bs).glb = s.glb := rfl
@[simp] theorem State.hbmWrite_ccrs (s : State) (c a : Nat) (bs : List Byte) : (s.hbmWrite c a bs).ccrs = s.ccrs := rfl
@[simp] theorem State.hbmWrite_clk (s : State) (c a : Nat) (bs : List Byte) : (s.hbmWrite c a bs).clk = s.clk := rfl
@[simp] theorem State.hbmWrite_stws (s : State) (c a : Nat) (bs : List Byte) : (s.hbmWrite c a bs).stws = s.stws := rfl
@[simp] theorem State.hbmWrite_evc (s : State) (c a : Nat) (bs : List Byte) : (s.hbmWrite c a bs).evc = s.evc := rfl
@[simp] theorem State.hbmWrite_sdma (s : State) (c a : Nat) (bs : List Byte) : (s.hbmWrite c a bs).sdma = s.sdma := rfl
@[simp] theorem State.hbmWrite_vigil (s : State) (c a : Nat) (bs : List Byte) : (s.hbmWrite c a bs).vigil = s.vigil := rfl
@[simp] theorem State.hbmWrite_pwr (s : State) (c a : Nat) (bs : List Byte) : (s.hbmWrite c a bs).pwr = s.pwr := rfl
@[simp] theorem State.hbmWrite_trust (s : State) (c a : Nat) (bs : List Byte) : (s.hbmWrite c a bs).trust = s.trust := rfl
@[simp] theorem State.hbmWrite_hif (s : State) (c a : Nat) (bs : List Byte) : (s.hbmWrite c a bs).hif = s.hif := rfl
@[simp] theorem State.hbmWrite_parts (s : State) (c a : Nat) (bs : List Byte) : (s.hbmWrite c a bs).parts = s.parts := rfl
@[simp] theorem State.hbmWrite_pass (s : State) (c a : Nat) (bs : List Byte) : (s.hbmWrite c a bs).pass = s.pass := rfl
@[simp] theorem State.hbmWrite_cands (s : State) (c a : Nat) (bs : List Byte) : (s.hbmWrite c a bs).cands = s.cands := rfl
@[simp] theorem State.hbmWrite_pages (s : State) (c a : Nat) (bs : List Byte) : (s.hbmWrite c a bs).pages = s.pages := rfl
@[simp] theorem State.hbmWrite_stwMem (s : State) (c a : Nat) (bs : List Byte) : (s.hbmWrite c a bs).stwMem = s.stwMem := rfl
@[simp] theorem State.hbmWrite_stwLocal (s : State) (c a : Nat) (bs : List Byte) : (s.hbmWrite c a bs).stwLocal = s.stwLocal := rfl
@[simp] theorem State.hbmWrite_hostMem (s : State) (c a : Nat) (bs : List Byte) : (s.hbmWrite c a bs).hostMem = s.hostMem := rfl
@[simp] theorem State.hbmWrite_hostBad (s : State) (c a : Nat) (bs : List Byte) : (s.hbmWrite c a bs).hostBad = s.hostBad := rfl
@[simp] theorem State.hbmWrite_plans (s : State) (c a : Nat) (bs : List Byte) : (s.hbmWrite c a bs).plans = s.plans := rfl
@[simp] theorem State.hbmWrite_runs (s : State) (c a : Nat) (bs : List Byte) : (s.hbmWrite c a bs).runs = s.runs := rfl
@[simp] theorem State.hbmWrite_nextRun (s : State) (c a : Nat) (bs : List Byte) : (s.hbmWrite c a bs).nextRun = s.nextRun := rfl
@[simp] theorem State.hbmWrite_tiles (s : State) (c a : Nat) (bs : List Byte) : (s.hbmWrite c a bs).tiles = s.tiles := rfl
@[simp] theorem State.hbmWrite_cps (s : State) (c a : Nat) (bs : List Byte) : (s.hbmWrite c a bs).cps = s.cps := rfl
@[simp] theorem State.hbmWrite_astore (s : State) (c a : Nat) (bs : List Byte) : (s.hbmWrite c a bs).astore = s.astore := rfl
@[simp] theorem State.hbmWrite_cmp (s : State) (c a : Nat) (bs : List Byte) : (s.hbmWrite c a bs).cmp = s.cmp := rfl
@[simp] theorem State.hbmWrite_arc (s : State) (c a : Nat) (bs : List Byte) : (s.hbmWrite c a bs).arc = s.arc := rfl
@[simp] theorem State.hbmWrite_net (s : State) (c a : Nat) (bs : List Byte) : (s.hbmWrite c a bs).net = s.net := rfl
@[simp] theorem State.hbmWrite_plk (s : State) (c a : Nat) (bs : List Byte) : (s.hbmWrite c a bs).plk = s.plk := rfl
@[simp] theorem State.hbmWrite_images (s : State) (c a : Nat) (bs : List Byte) : (s.hbmWrite c a bs).images = s.images := rfl
@[simp] theorem State.hbmWrite_latches (s : State) (c a : Nat) (bs : List Byte) : (s.hbmWrite c a bs).latches = s.latches := rfl
@[simp] theorem State.hbmWrite_freeCtr (s : State) (c a : Nat) (bs : List Byte) : (s.hbmWrite c a bs).freeCtr = s.freeCtr := rfl
@[simp] theorem State.hbmWrite_out (s : State) (c a : Nat) (bs : List Byte) : (s.hbmWrite c a bs).out = s.out := rfl
@[simp] theorem State.hbmWrite_pending (s : State) (c a : Nat) (bs : List Byte) : (s.hbmWrite c a bs).pending = s.pending := rfl

/-! ### State.updConn leaves every field but `net` -/

@[simp] theorem State.updConn_variant (s : State) (c : Nat) (f : Conn → Conn) : (s.updConn c f).variant = s.variant := rfl
@[simp] theorem State.updConn_glb (s : State) (c : Nat) (f : Conn → Conn) : (s.updConn c f).glb = s.glb := rfl
@[simp] theorem State.updConn_ccrs (s : State) (c : Nat) (f : Conn → Conn) : (s.updConn c f).ccrs = s.ccrs := rfl
@[simp] theorem State.updConn_clk (s : State) (c : Nat) (f : Conn → Conn) : (s.updConn c f).clk = s.clk := rfl
@[simp] theorem State.updConn_stws (s : State) (c : Nat) (f : Conn → Conn) : (s.updConn c f).stws = s.stws := rfl
@[simp] theorem State.updConn_evc (s : State) (c : Nat) (f : Conn → Conn) : (s.updConn c f).evc = s.evc := rfl
@[simp] theorem State.updConn_sdma (s : State) (c : Nat) (f : Conn → Conn) : (s.updConn c f).sdma = s.sdma := rfl
@[simp] theorem State.updConn_vigil (s : State) (c : Nat) (f : Conn → Conn) : (s.updConn c f).vigil = s.vigil := rfl
@[simp] theorem State.updConn_pwr (s : State) (c : Nat) (f : Conn → Conn) : (s.updConn c f).pwr = s.pwr := rfl
@[simp] theorem State.updConn_trust (s : State) (c : Nat) (f : Conn → Conn) : (s.updConn c f).trust = s.trust := rfl
@[simp] theorem State.updConn_hif (s : State) (c : Nat) (f : Conn → Conn) : (s.updConn c f).hif = s.hif := rfl
@[simp] theorem State.updConn_parts (s : State) (c : Nat) (f : Conn → Conn) : (s.updConn c f).parts = s.parts := rfl
@[simp] theorem State.updConn_pass (s : State) (c : Nat) (f : Conn → Conn) : (s.updConn c f).pass = s.pass := rfl
@[simp] theorem State.updConn_cands (s : State) (c : Nat) (f : Conn → Conn) : (s.updConn c f).cands = s.cands := rfl
@[simp] theorem State.updConn_pages (s : State) (c : Nat) (f : Conn → Conn) : (s.updConn c f).pages = s.pages := rfl
@[simp] theorem State.updConn_hbm (s : State) (c : Nat) (f : Conn → Conn) : (s.updConn c f).hbm = s.hbm := rfl
@[simp] theorem State.updConn_stwMem (s : State) (c : Nat) (f : Conn → Conn) : (s.updConn c f).stwMem = s.stwMem := rfl
@[simp] theorem State.updConn_stwLocal (s : State) (c : Nat) (f : Conn → Conn) : (s.updConn c f).stwLocal = s.stwLocal := rfl
@[simp] theorem State.updConn_hostMem (s : State) (c : Nat) (f : Conn → Conn) : (s.updConn c f).hostMem = s.hostMem := rfl
@[simp] theorem State.updConn_hostBad (s : State) (c : Nat) (f : Conn → Conn) : (s.updConn c f).hostBad = s.hostBad := rfl
@[simp] theorem State.updConn_plans (s : State) (c : Nat) (f : Conn → Conn) : (s.updConn c f).plans = s.plans := rfl
@[simp] theorem State.updConn_runs (s : State) (c : Nat) (f : Conn → Conn) : (s.updConn c f).runs = s.runs := rfl
@[simp] theorem State.updConn_nextRun (s : State) (c : Nat) (f : Conn → Conn) : (s.updConn c f).nextRun = s.nextRun := rfl
@[simp] theorem State.updConn_tiles (s : State) (c : Nat) (f : Conn → Conn) : (s.updConn c f).tiles = s.tiles := rfl
@[simp] theorem State.updConn_cps (s : State) (c : Nat) (f : Conn → Conn) : (s.updConn c f).cps = s.cps := rfl
@[simp] theorem State.updConn_astore (s : State) (c : Nat) (f : Conn → Conn) : (s.updConn c f).astore = s.astore := rfl
@[simp] theorem State.updConn_cmp (s : State) (c : Nat) (f : Conn → Conn) : (s.updConn c f).cmp = s.cmp := rfl
@[simp] theorem State.updConn_arc (s : State) (c : Nat) (f : Conn → Conn) : (s.updConn c f).arc = s.arc := rfl
@[simp] theorem State.updConn_plk (s : State) (c : Nat) (f : Conn → Conn) : (s.updConn c f).plk = s.plk := rfl
@[simp] theorem State.updConn_images (s : State) (c : Nat) (f : Conn → Conn) : (s.updConn c f).images = s.images := rfl
@[simp] theorem State.updConn_latches (s : State) (c : Nat) (f : Conn → Conn) : (s.updConn c f).latches = s.latches := rfl
@[simp] theorem State.updConn_freeCtr (s : State) (c : Nat) (f : Conn → Conn) : (s.updConn c f).freeCtr = s.freeCtr := rfl
@[simp] theorem State.updConn_out (s : State) (c : Nat) (f : Conn → Conn) : (s.updConn c f).out = s.out := rfl
@[simp] theorem State.updConn_pending (s : State) (c : Nat) (f : Conn → Conn) : (s.updConn c f).pending = s.pending := rfl

/-! ### An edge of a source, and an array replaced, leave every field but `evc`, `pwr` and, for the second, `arc` -/

theorem State.raise_eq (s : State) (n : Nat) : s.raise n = { s with evc := (s.raise n).evc, pwr := (s.raise n).pwr } := by
  unfold State.raise State.startWake; split
  · rfl
  · split
    · dsimp only; split <;> rfl
    · split
      · split <;> rfl
      · rfl

@[simp] theorem State.raise_variant (s : State) (n : Nat) : (s.raise n).variant = s.variant := by rw [State.raise_eq]
@[simp] theorem State.raise_glb (s : State) (n : Nat) : (s.raise n).glb = s.glb := by rw [State.raise_eq]
@[simp] theorem State.raise_ccrs (s : State) (n : Nat) : (s.raise n).ccrs = s.ccrs := by rw [State.raise_eq]
@[simp] theorem State.raise_clk (s : State) (n : Nat) : (s.raise n).clk = s.clk := by rw [State.raise_eq]
@[simp] theorem State.raise_stws (s : State) (n : Nat) : (s.raise n).stws = s.stws := by rw [State.raise_eq]
@[simp] theorem State.raise_sdma (s : State) (n : Nat) : (s.raise n).sdma = s.sdma := by rw [State.raise_eq]
@[simp] theorem State.raise_vigil (s : State) (n : Nat) : (s.raise n).vigil = s.vigil := by rw [State.raise_eq]
@[simp] theorem State.raise_trust (s : State) (n : Nat) : (s.raise n).trust = s.trust := by rw [State.raise_eq]
@[simp] theorem State.raise_hif (s : State) (n : Nat) : (s.raise n).hif = s.hif := by rw [State.raise_eq]
@[simp] theorem State.raise_parts (s : State) (n : Nat) : (s.raise n).parts = s.parts := by rw [State.raise_eq]
@[simp] theorem State.raise_pass (s : State) (n : Nat) : (s.raise n).pass = s.pass := by rw [State.raise_eq]
@[simp] theorem State.raise_cands (s : State) (n : Nat) : (s.raise n).cands = s.cands := by rw [State.raise_eq]
@[simp] theorem State.raise_pages (s : State) (n : Nat) : (s.raise n).pages = s.pages := by rw [State.raise_eq]
@[simp] theorem State.raise_hbm (s : State) (n : Nat) : (s.raise n).hbm = s.hbm := by rw [State.raise_eq]
@[simp] theorem State.raise_stwMem (s : State) (n : Nat) : (s.raise n).stwMem = s.stwMem := by rw [State.raise_eq]
@[simp] theorem State.raise_stwLocal (s : State) (n : Nat) : (s.raise n).stwLocal = s.stwLocal := by rw [State.raise_eq]
@[simp] theorem State.raise_hostMem (s : State) (n : Nat) : (s.raise n).hostMem = s.hostMem := by rw [State.raise_eq]
@[simp] theorem State.raise_hostBad (s : State) (n : Nat) : (s.raise n).hostBad = s.hostBad := by rw [State.raise_eq]
@[simp] theorem State.raise_plans (s : State) (n : Nat) : (s.raise n).plans = s.plans := by rw [State.raise_eq]
@[simp] theorem State.raise_runs (s : State) (n : Nat) : (s.raise n).runs = s.runs := by rw [State.raise_eq]
@[simp] theorem State.raise_nextRun (s : State) (n : Nat) : (s.raise n).nextRun = s.nextRun := by rw [State.raise_eq]
@[simp] theorem State.raise_tiles (s : State) (n : Nat) : (s.raise n).tiles = s.tiles := by rw [State.raise_eq]
@[simp] theorem State.raise_cps (s : State) (n : Nat) : (s.raise n).cps = s.cps := by rw [State.raise_eq]
@[simp] theorem State.raise_astore (s : State) (n : Nat) : (s.raise n).astore = s.astore := by rw [State.raise_eq]
@[simp] theorem State.raise_cmp (s : State) (n : Nat) : (s.raise n).cmp = s.cmp := by rw [State.raise_eq]
@[simp] theorem State.raise_arc (s : State) (n : Nat) : (s.raise n).arc = s.arc := by rw [State.raise_eq]
@[simp] theorem State.raise_net (s : State) (n : Nat) : (s.raise n).net = s.net := by rw [State.raise_eq]
@[simp] theorem State.raise_plk (s : State) (n : Nat) : (s.raise n).plk = s.plk := by rw [State.raise_eq]
@[simp] theorem State.raise_images (s : State) (n : Nat) : (s.raise n).images = s.images := by rw [State.raise_eq]
@[simp] theorem State.raise_latches (s : State) (n : Nat) : (s.raise n).latches = s.latches := by rw [State.raise_eq]
@[simp] theorem State.raise_freeCtr (s : State) (n : Nat) : (s.raise n).freeCtr = s.freeCtr := by rw [State.raise_eq]
@[simp] theorem State.raise_out (s : State) (n : Nat) : (s.raise n).out = s.out := by rw [State.raise_eq]
@[simp] theorem State.raise_pending (s : State) (n : Nat) : (s.raise n).pending = s.pending := by rw [State.raise_eq]

@[simp] theorem State.setArr_variant (s : State) (a : Nat) (x : Arr) : (s.setArr a x).variant = s.variant := by unfold State.setArr; split <;> simp
@[simp] theorem State.setArr_glb (s : State) (a : Nat) (x : Arr) : (s.setArr a x).glb = s.glb := by unfold State.setArr; split <;> simp
@[simp] theorem State.setArr_ccrs (s : State) (a : Nat) (x : Arr) : (s.setArr a x).ccrs = s.ccrs := by unfold State.setArr; split <;> simp
@[simp] theorem State.setArr_clk (s : State) (a : Nat) (x : Arr) : (s.setArr a x).clk = s.clk := by unfold State.setArr; split <;> simp
@[simp] theorem State.setArr_stws (s : State) (a : Nat) (x : Arr) : (s.setArr a x).stws = s.stws := by unfold State.setArr; split <;> simp
@[simp] theorem State.setArr_sdma (s : State) (a : Nat) (x : Arr) : (s.setArr a x).sdma = s.sdma := by unfold State.setArr; split <;> simp
@[simp] theorem State.setArr_vigil (s : State) (a : Nat) (x : Arr) : (s.setArr a x).vigil = s.vigil := by unfold State.setArr; split <;> simp
@[simp] theorem State.setArr_trust (s : State) (a : Nat) (x : Arr) : (s.setArr a x).trust = s.trust := by unfold State.setArr; split <;> simp
@[simp] theorem State.setArr_hif (s : State) (a : Nat) (x : Arr) : (s.setArr a x).hif = s.hif := by unfold State.setArr; split <;> simp
@[simp] theorem State.setArr_parts (s : State) (a : Nat) (x : Arr) : (s.setArr a x).parts = s.parts := by unfold State.setArr; split <;> simp
@[simp] theorem State.setArr_pass (s : State) (a : Nat) (x : Arr) : (s.setArr a x).pass = s.pass := by unfold State.setArr; split <;> simp
@[simp] theorem State.setArr_cands (s : State) (a : Nat) (x : Arr) : (s.setArr a x).cands = s.cands := by unfold State.setArr; split <;> simp
@[simp] theorem State.setArr_pages (s : State) (a : Nat) (x : Arr) : (s.setArr a x).pages = s.pages := by unfold State.setArr; split <;> simp
@[simp] theorem State.setArr_hbm (s : State) (a : Nat) (x : Arr) : (s.setArr a x).hbm = s.hbm := by unfold State.setArr; split <;> simp
@[simp] theorem State.setArr_stwMem (s : State) (a : Nat) (x : Arr) : (s.setArr a x).stwMem = s.stwMem := by unfold State.setArr; split <;> simp
@[simp] theorem State.setArr_stwLocal (s : State) (a : Nat) (x : Arr) : (s.setArr a x).stwLocal = s.stwLocal := by unfold State.setArr; split <;> simp
@[simp] theorem State.setArr_hostMem (s : State) (a : Nat) (x : Arr) : (s.setArr a x).hostMem = s.hostMem := by unfold State.setArr; split <;> simp
@[simp] theorem State.setArr_hostBad (s : State) (a : Nat) (x : Arr) : (s.setArr a x).hostBad = s.hostBad := by unfold State.setArr; split <;> simp
@[simp] theorem State.setArr_plans (s : State) (a : Nat) (x : Arr) : (s.setArr a x).plans = s.plans := by unfold State.setArr; split <;> simp
@[simp] theorem State.setArr_runs (s : State) (a : Nat) (x : Arr) : (s.setArr a x).runs = s.runs := by unfold State.setArr; split <;> simp
@[simp] theorem State.setArr_nextRun (s : State) (a : Nat) (x : Arr) : (s.setArr a x).nextRun = s.nextRun := by unfold State.setArr; split <;> simp
@[simp] theorem State.setArr_tiles (s : State) (a : Nat) (x : Arr) : (s.setArr a x).tiles = s.tiles := by unfold State.setArr; split <;> simp
@[simp] theorem State.setArr_cps (s : State) (a : Nat) (x : Arr) : (s.setArr a x).cps = s.cps := by unfold State.setArr; split <;> simp
@[simp] theorem State.setArr_astore (s : State) (a : Nat) (x : Arr) : (s.setArr a x).astore = s.astore := by unfold State.setArr; split <;> simp
@[simp] theorem State.setArr_cmp (s : State) (a : Nat) (x : Arr) : (s.setArr a x).cmp = s.cmp := by unfold State.setArr; split <;> simp
@[simp] theorem State.setArr_net (s : State) (a : Nat) (x : Arr) : (s.setArr a x).net = s.net := by unfold State.setArr; split <;> simp
@[simp] theorem State.setArr_plk (s : State) (a : Nat) (x : Arr) : (s.setArr a x).plk = s.plk := by unfold State.setArr; split <;> simp
@[simp] theorem State.setArr_images (s : State) (a : Nat) (x : Arr) : (s.setArr a x).images = s.images := by unfold State.setArr; split <;> simp
@[simp] theorem State.setArr_latches (s : State) (a : Nat) (x : Arr) : (s.setArr a x).latches = s.latches := by unfold State.setArr; split <;> simp
@[simp] theorem State.setArr_freeCtr (s : State) (a : Nat) (x : Arr) : (s.setArr a x).freeCtr = s.freeCtr := by unfold State.setArr; split <;> simp
@[simp] theorem State.setArr_out (s : State) (a : Nat) (x : Arr) : (s.setArr a x).out = s.out := by unfold State.setArr; split <;> simp
@[simp] theorem State.setArr_pending (s : State) (a : Nat) (x : Arr) : (s.setArr a x).pending = s.pending := by unfold State.setArr; split <;> simp

/-- Array a replaced: the table is as put, whatever the edge does. -/
@[simp] theorem State.setArr_arc (s : State) (a : Nat) (x : Arr) : (s.setArr a x).arc = (s.putArr a x).arc := by unfold State.setArr; split <;> simp

@[simp] theorem State.arr_setArr_self {s : State} (k : Nat) (x : Arr) (h : tableWf {} s.arc.arrays = true) : (s.setArr k x).arr k = x := by
  rw [State.arr, State.setArr_arc]; exact look_put_self h

theorem State.arr_setArr_ne (s : State) {k j : Nat} (x : Arr) (h : j ≠ k) : (s.setArr k x).arr j = s.arr j := by
  rw [State.arr, State.setArr_arc]; exact look_put_ne h

/-! ### A table's entry after its update -/

@[simp] theorem State.part_setPart_self {s : State} (k : Nat) (x : Part) (h : tableWf {} s.parts = true) :
    (s.setPart k x).part k = x := look_put_self h

theorem State.part_setPart_ne (s : State) {k j : Nat} (x : Part) (h : j ≠ k) : (s.setPart k x).part j = s.part j :=
  look_put_ne h

@[simp] theorem State.queue_setQueue_self {s : State} (k : Nat) (x : Queue) (h : tableWf {} s.hif.queues = true) :
    (s.setQueue k x).queue k = x := look_put_self h

theorem State.queue_setQueue_ne (s : State) {k j : Nat} (x : Queue) (h : j ≠ k) : (s.setQueue k x).queue j = s.queue j :=
  look_put_ne h

@[simp] theorem State.tile_setTile_self {s : State} (k : Nat) (x : Tile) (h : tableWf {} s.tiles = true) :
    (s.setTile k x).tile k = x := look_put_self h

theorem State.tile_setTile_ne (s : State) {k j : Nat} (x : Tile) (h : j ≠ k) : (s.setTile k x).tile j = s.tile j :=
  look_put_ne h

@[simp] theorem State.arr_putArr_self {s : State} (k : Nat) (x : Arr) (h : tableWf {} s.arc.arrays = true) :
    (s.putArr k x).arr k = x := look_put_self h

theorem State.arr_putArr_ne (s : State) {k j : Nat} (x : Arr) (h : j ≠ k) : (s.putArr k x).arr j = s.arr j :=
  look_put_ne h

@[simp] theorem State.vol_setVol_self {s : State} (k : Nat) (x : Vol) (h : tableWf {} s.arc.vols = true) :
    (s.setVol k x).vol k = x := look_put_self h

theorem State.vol_setVol_ne (s : State) {k j : Nat} (x : Vol) (h : j ≠ k) : (s.setVol k x).vol j = s.vol j :=
  look_put_ne h

@[simp] theorem State.member_setMember_self {s : State} (k : Nat) (x : Member) (h : tableWf {} s.arc.members = true) :
    (s.setMember k x).member k = x := look_put_self h

theorem State.member_setMember_ne (s : State) {k j : Nat} (x : Member) (h : j ≠ k) : (s.setMember k x).member j = s.member j :=
  look_put_ne h

@[simp] theorem State.func_updFunc_self {s : State} (k : Nat) (f : Func → Func) (h : tableWf {} s.hif.funcs = true) :
    (s.updFunc k f).func k = f (s.func k) := look_put_self h

theorem State.func_updFunc_ne (s : State) {k j : Nat} (f : Func → Func) (h : j ≠ k) : (s.updFunc k f).func j = s.func j :=
  look_put_ne h

@[simp] theorem State.stw_updStw_self {s : State} (k : Nat) (f : Steward → Steward) (h : tableWf {} s.stws = true) :
    (s.updStw k f).stw k = f (s.stw k) := look_put_self h

theorem State.stw_updStw_ne (s : State) {k j : Nat} (f : Steward → Steward) (h : j ≠ k) : (s.updStw k f).stw j = s.stw j :=
  look_put_ne h

@[simp] theorem State.route_updRoute_self {s : State} (k : Nat) (f : Route → Route) (h : tableWf {} s.evc.routes = true) :
    (s.updRoute k f).route k = f (s.route k) := look_put_self h

theorem State.route_updRoute_ne (s : State) {k j : Nat} (f : Route → Route) (h : j ≠ k) : (s.updRoute k f).route j = s.route j :=
  look_put_ne h

@[simp] theorem State.conn_updConn_self {s : State} (k : Nat) (f : Conn → Conn) (h : tableWf {} s.net.conns = true) :
    (s.updConn k f).conn k = f (s.conn k) := look_put_self h

theorem State.conn_updConn_ne (s : State) {k j : Nat} (f : Conn → Conn) (h : j ≠ k) : (s.updConn k f).conn j = s.conn j :=
  look_put_ne h

@[simp] theorem State.cpOf_setCp_self {s : State} (t n : Nat) (x : Cp) (h : tableWf {} s.cps = true) :
    (s.setCp t n x).cpOf t n = x := look_put_self h

theorem State.cpOf_setCp_ne (s : State) {t n i j : Nat} (x : Cp) (h : 4 * i + j ≠ 4 * t + n) :
    (s.setCp t n x).cpOf i j = s.cpOf i j := look_put_ne h

@[simp] theorem State.cpOf_setTile (s : State) (t i j : Nat) (x : Tile) : (s.setTile t x).cpOf i j = s.cpOf i j := rfl

@[simp] theorem State.tile_setCp (s : State) (t n i : Nat) (x : Cp) : (s.setCp t n x).tile i = s.tile i := rfl

end Sys2Proof.Machine
end

