-- ==== Sys2Proof/Laws/Ops.lean ====
section
/-! SUPPORT. Laws/Ops.lean: what the shared operations of exec answer, said once each. -/

namespace Sys2Proof.Machine

/-! ## Events -/

@[simp] theorem when_true (m : String) (s : State) : when_ true m s = .next s := rfl

/-- An event that can happen. -/
theorem when_pos {c : Bool} (h : c = true) (m : String) (s : State) : when_ c m s = .next s := by rw [h]; rfl

/-- What when_ answers. -/
theorem when_cases {c : Bool} {m : String} {s t : State} (h : when_ c m s = .next t) : c = true ∧ t = s := by
  cases c
  · cases h
  · cases h; exact ⟨rfl, rfl⟩

/-! ## Registers -/

/-- A row's write reaches a register of a present unit (R30, R32). -/
theorem busRow_reachable {s : State} {r : Req} {ofs : Nat} (h : s.reachable r ofs = true) (v : Word) (t : State) :
    busRow s r ofs v t = .next t := by
  cases r <;> simp_all [State.reachable, busRow, State.serves, State.inOrder]

/-- With no write of the requester held, its writes take effect at once (R36). -/
theorem inOrder_free {s : State} {r : Req} (h : s.holder r = none) (sp : Space) (ws : List (Nat × Word)) (t : State) :
    s.inOrder r sp ws t = t := by simp [State.inOrder, h]

/-- A G write by the holder of the open lock is performed, and the lock re-arms (R45). -/
theorem gWrite_holds {s : State} {r : Req} (h : s.holds r = true) (ofs : Nat) (f : State → State) :
    s.gWrite r ofs f = f (s.setLock {}) := by
  simp only [State.holds] at h; simp only [State.gWrite, h, if_true]

/-- Any other G write is discarded and counted (R46). -/
theorem gWrite_refused {s : State} {r : Req} (h : s.holds r = false) (ofs : Nat) (f : State → State) :
    s.gWrite r ofs f = s.refuseG r ofs := by
  simp only [State.holds] at h; simp [State.gWrite, h]

/-! ## Ring commands -/

/-- What `ready` says of the command. -/
theorem ready_iff (s : State) (id op : Nat) (c : Cmd) :
    s.ready id op c = true ↔
      s.cmd? id = some c ∧ c.op = op ∧ c.phase = .fetched ∧ s.fenceOk c = true ∧ s.serving op = true ∧ s.current c.ctx c.gen = true := by
  simp [State.ready, and_assoc]

/-- A command that may run runs. -/
theorem withCmd_ready {s : State} {id op : Nat} {c : Cmd} (h : s.ready id op c = true) (m : String) (k : Cmd → State) :
    withCmd s id op m k = .next (k c) := by
  obtain ⟨h1, h2, h3, h4, h5, h6⟩ := (ready_iff s id op c).1 h
  simp only [withCmd, h1, h2, h3, h4, h5, h6, decide_true, Bool.and_true, if_true]

/-- The command that `ready` names. -/
theorem ready_cmd {s : State} {id op : Nat} {c : Cmd} (h : s.ready id op c = true) : s.cmd? id = some c :=
  ((ready_iff s id op c).1 h).1

/-- Its number. -/
theorem ready_id {s : State} {id op : Nat} {c : Cmd} (h : s.ready id op c = true) : c.id = id := by
  have := List.find?_some (ready_cmd h); simpa using this

/-! ## NVMe over TCP -/

@[simp] theorem netBytes_net (s : State) (c n : Nat) : (s.netBytes c n).net = s.net := by
  simp only [State.netBytes]; split <;> rfl

@[simp] theorem netBytes_conn (s : State) (c n k : Nat) : (s.netBytes c n).conn k = s.conn k := by simp [State.conn]

/-- A keep-alive timer's restart leaves every connection as it is. -/
@[simp] theorem heard_conn (s : State) (c k : Nat) : (s.heard c).conn k = s.conn k := by
  simp only [State.heard]; split <;> rfl

/-- A capsule that the connection takes reaches its command. -/
theorem command_takes {s : State} {c cid : Nat} {admin : Bool} (h : s.capsuleOk c cid admin = true) (n : Nat) (k : State → State) :
    s.command c cid n admin k = .next (k (s.capsuleCounted c n)) := by
  simp only [State.capsuleOk, Bool.and_eq_true, decide_eq_true_eq, Bool.not_eq_true'] at h
  obtain ⟨⟨⟨⟨⟨h1, h2⟩, h3⟩, h4⟩, h5⟩, h6⟩ := h
  subst h5
  simp [State.command, State.capsuleIn, h1, Nat.not_le.mpr h2, h3, h4, h6, State.capsuleCounted]

/-! ## Column processors -/

/-- An instruction of a CP that executes. -/
theorem cpRun_executes {s : State} {u : CpAt} (h : s.executes u = true) (k : Cp → Tile → CpRes) :
    cpRun s u k = s.cpApply u (k (s.cpOf u.tile u.cp) (s.tile u.tile)) := by
  simp only [State.executes, Bool.and_eq_true, decide_eq_true_eq] at h
  simp only [cpRun, h.1, if_true]
  rw [if_neg (by omega)]

/-- A vector instruction of a CP that executes. -/
theorem cpRunV_executes {s : State} {u : CpAt} (h : s.executes u = true) (k : Cp → Tile → CpRes) :
    cpRunV s u k = s.cpApplyV u (k (s.cpOf u.tile u.cp) (s.tile u.tile)) := by
  simp only [State.executes, Bool.and_eq_true, decide_eq_true_eq] at h
  simp only [cpRunV, h.1, if_true]
  rw [if_neg (by omega)]

/-- An instruction that changes its CP alone. -/
theorem cpStep_executes {s : State} {u : CpAt} (h : s.executes u = true) (k : Cp → Cp) :
    cpStep s u k = .next (s.stepCp u (k (s.cpOf u.tile u.cp))) := by
  rw [cpStep, cpRun_executes h]; rfl

@[simp] theorem cpApply_go (s : State) (u : CpAt) (c : Cp) (t : Tile) : s.cpApply u (.go c t) = .next (s.withCp u c t) := rfl

@[simp] theorem cpApplyV_go (s : State) (u : CpAt) (c : Cp) (t : Tile) :
    s.cpApplyV u (.go c t) = .next ((s.withCp u c t).meter t.ctx.toNat 1 1) := rfl

/-- Setting no flag changes nothing. -/
@[simp] theorem Cp.flag_zero (c : Cp) : c.flag 0#8 = c := by simp [Cp.flag]

theorem legal_true (c : Cp) (t : Tile) (r : CpRes) : legal true c t r = r := rfl

theorem vecOk_true (c : Cp) (t : Tile) (r : CpRes) : vecOk true c t r = r := rfl

end Sys2Proof.Machine
end

