-- ==== Sys2Proof/Laws/Frame.lean ====
section
/-! SUPPORT. Laws/Frame.lean: what the shared operations leave: the queue, the part and the memories' canonical form, said once
for each of them. -/

namespace Sys2Proof.Machine

/-! ## The relation -/

theorem Keeps.refl (s : State) : Keeps s s := ⟨rfl, rfl, id⟩

theorem Keeps.trans {s t u : State} (h : Keeps s t) (k : Keeps t u) : Keeps s u :=
  ⟨k.1.trans h.1, k.2.1.trans h.2.1, fun w => k.2.2 (h.2.2 w)⟩

/-- A change of fields that hold neither a memory nor the queue nor the part. -/
theorem Keeps.of_fields {s t : State} (h1 : t.pending = s.pending) (h2 : t.variant = s.variant) (h3 : t.hostMem = s.hostMem)
    (h4 : t.hbm = s.hbm) (h5 : t.stwMem = s.stwMem) (h9 : t.stwLocal = s.stwLocal) (h6 : t.trust.flash = s.trust.flash) (h7 : t.pages = s.pages)
    (h8 : t.tiles = s.tiles) : Keeps s t := by
  refine ⟨h1, h2, fun w => ?_⟩
  simp only [State.memWf, h3, h4, h5, h6, h7, h8, h9]; exact w

/-- A fold of operations that each keep it. -/
theorem Keeps.foldl {α : Type} {f : State → α → State} (h : ∀ s a, Keeps s (f s a)) (l : List α) (s : State) : Keeps s (l.foldl f s) := by
  induction l generalizing s with
  | nil => exact .refl s
  | cons a r ih => exact (h s a).trans (ih (f s a))

/-- A change of fields that hold neither a memory nor the queue nor the part, of a state that keeps it. -/
theorem Keeps.fields {s t : State} (h : Keeps s t) {variant glb ccrs clk stws evc sdma vigil pwr trust hif parts pass cands pages hbm stwMem stwLocal hostMem hostBad plans runs nextRun tiles cps astore cmp arc net plk images latches freeCtr out pending}
    (h1 : pending = t.pending) (h2 : variant = t.variant) (h3 : hostMem = t.hostMem) (h4 : hbm = t.hbm) (h5 : stwMem = t.stwMem) (h9 : stwLocal = t.stwLocal)
    (h6 : trust.flash = t.trust.flash) (h7 : pages = t.pages) (h8 : tiles = t.tiles) :
    Keeps s { variant := variant, glb := glb, ccrs := ccrs, clk := clk, stws := stws, evc := evc, sdma := sdma, vigil := vigil, pwr := pwr, trust := trust, hif := hif, parts := parts, pass := pass, cands := cands, pages := pages, hbm := hbm, stwMem := stwMem, stwLocal := stwLocal, hostMem := hostMem, hostBad := hostBad, plans := plans, runs := runs, nextRun := nextRun, tiles := tiles, cps := cps, astore := astore, cmp := cmp, arc := arc, net := net, plk := plk, images := images, latches := latches, freeCtr := freeCtr, out := out, pending := pending } :=
  h.trans (.of_fields h1 h2 h3 h4 h5 h9 h6 h7 h8)

theorem Keeps.ite {s t u : State} {c : Prop} [Decidable c] (h : c → Keeps s t) (k : ¬c → Keeps s u) : Keeps s (if c then t else u) := by
  split
  · exact h ‹_›
  · exact k ‹_›

/-- What an answer leaves: a fault or a refusal leaves nothing to say. -/
def KeepsOut (s : State) (o : Out1) : Prop := ∀ t, o = .next t → Keeps s t

theorem KeepsOut.next {s t : State} (h : Keeps s t) : KeepsOut s (.next t) := by
  intro u e; cases e; exact h

theorem KeepsOut.trans {s t : State} {o : Out1} (h : Keeps s t) (k : KeepsOut t o) : KeepsOut s o :=
  fun u e => h.trans (k u e)

theorem KeepsOut.no (s : State) (m : String) : KeepsOut s (Machine.no m) := by
  intro u e; cases e

theorem KeepsOut.when_ {s t : State} {c : Bool} {m : String} (h : c = true → Keeps s t) : KeepsOut s (when_ c m t) := by
  intro u e; obtain ⟨hc, rfl⟩ := when_cases e; exact h hc

theorem KeepsOut.ite {s : State} {o p : Out1} {c : Prop} [Decidable c] (h : c → KeepsOut s o) (k : ¬c → KeepsOut s p) :
    KeepsOut s (if c then o else p) := by
  split
  · exact h ‹_›
  · exact k ‹_›

/-! ## Units by number -/

theorem keeps_emit (s : State) (o : Out) : Keeps s (s.emit o) := .of_fields rfl rfl rfl rfl rfl rfl rfl rfl rfl
theorem keeps_free (s : State) : Keeps s s.free.2 := .of_fields rfl rfl rfl rfl rfl rfl rfl rfl rfl
theorem keeps_setPart (s : State) (p : Nat) (x : Part) : Keeps s (s.setPart p x) := .of_fields rfl rfl rfl rfl rfl rfl rfl rfl rfl
theorem keeps_updPart (s : State) (p : Nat) (f : Part → Part) : Keeps s (s.updPart p f) := keeps_setPart ..
theorem keeps_setQueue (s : State) (q : Nat) (x : Queue) : Keeps s (s.setQueue q x) := .of_fields rfl rfl rfl rfl rfl rfl rfl rfl rfl
theorem keeps_updQueue (s : State) (q : Nat) (f : Queue → Queue) : Keeps s (s.updQueue q f) := keeps_setQueue ..
theorem keeps_updFunc (s : State) (n : Nat) (f : Func → Func) : Keeps s (s.updFunc n f) := .of_fields rfl rfl rfl rfl rfl rfl rfl rfl rfl
theorem keeps_updStw (s : State) (w : Nat) (f : Steward → Steward) : Keeps s (s.updStw w f) := .of_fields rfl rfl rfl rfl rfl rfl rfl rfl rfl
theorem keeps_raise (s : State) (n : Nat) : Keeps s (s.raise n) := by
  refine .of_fields ?_ ?_ ?_ ?_ ?_ ?_ ?_ ?_ ?_ <;> simp
theorem keeps_putArr (s : State) (a : Nat) (x : Arr) : Keeps s (s.putArr a x) := .of_fields rfl rfl rfl rfl rfl rfl rfl rfl rfl
theorem keeps_setArr (s : State) (a : Nat) (x : Arr) : Keeps s (s.setArr a x) :=
  .ite (fun _ => (keeps_putArr ..).trans (keeps_raise ..)) fun _ => keeps_putArr ..
theorem keeps_updArr (s : State) (a : Nat) (f : Arr → Arr) : Keeps s (s.updArr a f) := keeps_setArr ..
theorem keeps_setVol (s : State) (v : Nat) (x : Vol) : Keeps s (s.setVol v x) := .of_fields rfl rfl rfl rfl rfl rfl rfl rfl rfl
theorem keeps_updVol (s : State) (v : Nat) (f : Vol → Vol) : Keeps s (s.updVol v f) := keeps_setVol ..
theorem keeps_setMember (s : State) (n : Nat) (x : Member) : Keeps s (s.setMember n x) := .of_fields rfl rfl rfl rfl rfl rfl rfl rfl rfl
theorem keeps_updMember (s : State) (n : Nat) (f : Member → Member) : Keeps s (s.updMember n f) := keeps_setMember ..
theorem keeps_updConn (s : State) (c : Nat) (f : Conn → Conn) : Keeps s (s.updConn c f) := .of_fields rfl rfl rfl rfl rfl rfl rfl rfl rfl
theorem keeps_setCmds (s : State) (l : List Cmd) : Keeps s (s.setCmds l) := .of_fields rfl rfl rfl rfl rfl rfl rfl rfl rfl
theorem keeps_updCmd (s : State) (id : Nat) (f : Cmd → Cmd) : Keeps s (s.updCmd id f) := keeps_setCmds ..
theorem keeps_phase (s : State) (id : Nat) (p : CmdPhase) : Keeps s (s.phase id p) := keeps_setCmds ..
theorem keeps_updCcr (s : State) (b : CheckBlock) (f : Ccr → Ccr) : Keeps s (s.updCcr b f) := .of_fields rfl rfl rfl rfl rfl rfl rfl rfl rfl
theorem keeps_queueCheck (s : State) (b : CheckBlock) (o : CheckObj) : Keeps s (s.queueCheck b o) := keeps_updCcr ..
theorem keeps_holdWrite (s : State) (b : CheckBlock) (r : Req) (ofs : Nat) (v : Word) : Keeps s (s.holdWrite b r ofs v) := keeps_updCcr ..
theorem keeps_checkDone (s : State) (b : CheckBlock) (reason obj : Nat) : Keeps s (s.checkDone b reason obj) := keeps_updCcr ..
theorem keeps_setLock (s : State) (l : Lock) : Keeps s (s.setLock l) := .of_fields rfl rfl rfl rfl rfl rfl rfl rfl rfl

/-- A tile's own bytes and the ones it keeps for other partitions are in their canonical form. -/
def Tile.memWf (t : Tile) : Prop := Memory.wf t.scratch = true ∧ ∀ o ∈ t.foreign, Memory.wf o.2 = true

/-- A tile replaced by one whose bytes are in their form. -/
theorem keeps_setTile {s : State} {n : Nat} {x : Tile} (h : s.memWf → x.memWf) : Keeps s (s.setTile n x) := by
  refine ⟨rfl, rfl, fun w => ?_⟩
  have hx := h w
  obtain ⟨h1, h2, h3, h4, h5, h6, h7⟩ := w
  refine ⟨h1, h2, h3, h4, h5, fun e he => ?_, h7⟩
  rcases mem_put he with rfl | hm
  · exact hx
  · exact h6 e hm

/-- The bytes of a tile of such a state. -/
theorem tile_memWf {s : State} (h : s.memWf) (n : Nat) : (s.tile n).memWf := by
  rcases look_mem {} s.tiles n with he | he
  · rw [State.tile, he]; exact ⟨rfl, fun _ h => by cases h⟩
  · exact h.2.2.2.2.2.1 _ he

/-- A tile changed but for its bytes. -/
theorem keeps_updTile (s : State) (n : Nat) (f : Tile → Tile) (h : ∀ x, (f x).scratch = x.scratch) (k : ∀ x, (f x).foreign = x.foreign) :
    Keeps s (s.updTile n f) :=
  keeps_setTile fun w => by rw [Tile.memWf, h, k]; exact tile_memWf w n

/-! ## Memories -/

theorem keeps_hostWrite (s : State) (fn a : Nat) (bs : List Byte) : Keeps s (s.hostWrite fn a bs) :=
  ⟨rfl, rfl, fun w => ⟨memWrite_wf w.1, w.2⟩⟩

theorem keeps_hbmWrite (s : State) (ctx a : Nat) (bs : List Byte) : Keeps s (s.hbmWrite ctx a bs) :=
  ⟨rfl, rfl, fun w => ⟨w.1, memWrite_wf w.2.1, w.2.2⟩⟩

theorem keeps_mapPage (s : State) (ctx page : Nat) : Keeps s (s.mapPage ctx page) :=
  ⟨rfl, rfl, fun w => ⟨w.1, clearRange_wf w.2.1, w.2.2.1, w.2.2.2.1, put_wf w.2.2.2.2.1, w.2.2.2.2.2⟩⟩

theorem keeps_unmapPage (s : State) (ctx page : Nat) : Keeps s (s.unmapPage ctx page) :=
  ⟨rfl, rfl, fun w => ⟨w.1, clearRange_wf w.2.1, w.2.2.1, w.2.2.2.1, put_wf w.2.2.2.2.1, w.2.2.2.2.2⟩⟩

theorem keeps_unmapAll (s : State) (ctx : Nat) : Keeps s (s.unmapAll ctx) :=
  ⟨rfl, rfl, fun w => ⟨w.1, clearRange_wf w.2.1, w.2.2.1, w.2.2.2.1, clearRange_wf w.2.2.2.2.1, w.2.2.2.2.2⟩⟩

end Sys2Proof.Machine
end

