-- ==== Sys2Proof/Laws/Kernel.lean ====
section
/-! SUPPORT. Laws/Kernel.lean: what the data cache, vector memory accesses, reductions and compares of a column processor do,
said once each. -/

namespace Sys2Proof.Machine

/-! ## The data cache -/

/-- A CP and tile after accesses: the cache, the scratch bytes and whose bytes they are alone may have changed. -/
def OnlyCache (c : Cp) (t : Tile) (x : Cp × Tile) : Prop :=
  ∃ l m f, x.1 = { c with cache := l } ∧ x.2 = { t with scratch := m, foreign := f }

theorem OnlyCache.refl (c : Cp) (t : Tile) : OnlyCache c t (c, t) := ⟨c.cache, t.scratch, t.foreign, rfl, rfl⟩

theorem OnlyCache.trans {c : Cp} {t : Tile} {x y : Cp × Tile} (h : OnlyCache c t x) (k : OnlyCache x.1 x.2 y) : OnlyCache c t y := by
  obtain ⟨l, m, f, h1, h2⟩ := h
  obtain ⟨l', m', f', k1, k2⟩ := k
  exact ⟨l', m', f', by rw [k1, h1], by rw [k2, h2]⟩

theorem Tile.writeBack_scratch (t : Tile) (l : CacheLine) : ∃ m f, t.writeBack l = { t with scratch := m, foreign := f } := by
  simp only [Tile.writeBack, Tile.store]; split
  · exact ⟨_, _, rfl⟩
  · exact ⟨t.scratch, t.foreign, rfl⟩

theorem makeRoom_only (c : Cp) (t : Tile) : OnlyCache c t (makeRoom c t) := by
  simp only [makeRoom]; split
  · exact .refl c t
  · split
    · exact .refl c t
    · obtain ⟨m, f, h⟩ := t.writeBack_scratch ‹_›
      exact ⟨_, m, f, rfl, h⟩

theorem fetchLine_only (c : Cp) (t : Tile) (a : Nat) : OnlyCache c t (fetchLine c t a) := by
  simp only [fetchLine]; split
  · exact ⟨_, t.scratch, t.foreign, rfl, rfl⟩
  · obtain ⟨l, m, f, h1, h2⟩ := makeRoom_only c t
    exact ⟨_, m, f, by rw [h1], h2⟩

theorem cacheRd_only (c : Cp) (t : Tile) (a : Nat) : OnlyCache c t (cacheRd c t a).2 := by
  simp only [cacheRd]; split
  · exact .refl c t
  · exact fetchLine_only c t a

theorem cacheWr_only (c : Cp) (t : Tile) (a : Nat) (b : Byte) : OnlyCache c t (cacheWr c t a b) := by
  simp only [cacheWr]; split
  · exact ⟨c.cache, _, _, rfl, rfl⟩
  · exact (fetchLine_only c t a).trans ⟨_, _, _, rfl, rfl⟩

/-- A read through the cache changes the cache, the scratch bytes and whose they are alone. -/
theorem cacheRead_only (n : Nat) : ∀ (c : Cp) (t : Tile) (a : Nat), OnlyCache c t (cacheRead c t a n).2 := by
  induction n with
  | zero => exact fun c t _ => .refl c t
  | succ n ih => exact fun c t a => (cacheRd_only c t a).trans (ih _ _ _)

/-- A write through the cache changes the cache, the scratch bytes and whose they are alone. -/
theorem cacheWrite_only (bs : List Byte) : ∀ (c : Cp) (t : Tile) (a : Nat), OnlyCache c t (cacheWrite c t a bs) := by
  induction bs with
  | nil => exact fun c t _ => .refl c t
  | cons b bs ih => exact fun c t a => (cacheWr_only c t a b).trans (ih _ _ _)

/-! ## Vector memory accesses -/

/-- A CP and tile after element accesses: the V registers, the cache, the scratch bytes and whose bytes they are alone may have changed. -/
def OnlyElems (c : Cp) (t : Tile) (x : Cp × Tile) : Prop :=
  ∃ v l m f, x.1 = { c with v := v, cache := l } ∧ x.2 = { t with scratch := m, foreign := f }

theorem OnlyElems.refl (c : Cp) (t : Tile) : OnlyElems c t (c, t) := ⟨c.v, c.cache, t.scratch, t.foreign, rfl, rfl⟩

theorem OnlyElems.trans {c : Cp} {t : Tile} {x y : Cp × Tile} (h : OnlyElems c t x) (k : OnlyElems x.1 x.2 y) : OnlyElems c t y := by
  obtain ⟨v, l, m, f, h1, h2⟩ := h
  obtain ⟨v', l', m', f', k1, k2⟩ := k
  exact ⟨v', l', m', f', by rw [k1, h1], by rw [k2, h2]⟩

/-- An element loaded. -/
theorem loadElem_only (b : Bool) (vlen w d i a : Nat) (c : Cp) (t : Tile) : OnlyElems c t (loadElem b vlen w d i a c t) := by
  cases b
  · exact ⟨_, c.cache, t.scratch, t.foreign, rfl, rfl⟩
  · obtain ⟨l, m, f, h1, h2⟩ := cacheRead_only (w / 8) c t a
    exact ⟨_, l, m, f, congrArg (Cp.setVelem · vlen w d i (leNat (cacheRead c t a (w / 8)).1)) h1, h2⟩

/-- An element stored. -/
theorem storeElem_only (b : Bool) (vlen w d i a : Nat) (c : Cp) (t : Tile) : OnlyElems c t (storeElem b vlen w d i a c t) := by
  cases b
  · exact ⟨c.v, _, _, _, rfl, rfl⟩
  · obtain ⟨l, m, f, h1, h2⟩ := cacheWrite_only (natLE (w / 8) (c.velem vlen w d i)) c t a
    exact ⟨c.v, l, m, f, h1, h2⟩

/-- A vector memory access whose every element may go: the elements are moved one after the other and RIX is cleared (R196,
R197). -/
theorem vmemLoop_go (u w : Nat) (wr : Bool) (addr : Nat → Int) (one : Nat → Nat → Cp → Tile → Cp × Tile)
    (hone : ∀ i a c t, OnlyElems c t (one i a c t)) :
    ∀ (js : List Nat) (c : Cp) (t : Tile),
      (js.all fun i => (accFault c (addr i) (w / 8) (w / 8) wr).isNone && !rangeStalls u c t (lineOf (addr i).toNat) 128
        && (unstaged t (addr i).toNat).isNone) = true →
      vmemLoop u w wr addr one js c t =
        .go { (js.foldl (fun (x : Cp × Tile) i => one i (addr i).toNat x.1 x.2) (c, t)).1 with rix := 0 }
          (js.foldl (fun (x : Cp × Tile) i => one i (addr i).toNat x.1 x.2) (c, t)).2 := by
  intro js
  induction js with
  | nil => intros; rfl
  | cons j js ih =>
    intro c t h
    simp only [List.all_cons, Bool.and_eq_true, Option.isNone_iff_eq_none, Bool.not_eq_true'] at h
    obtain ⟨⟨⟨h1, h2⟩, h3⟩, h4⟩ := h
    obtain ⟨v, l, m, f, k1, k2⟩ := hone j (addr j).toNat c t
    simp only [vmemLoop, h1, h2, h3, List.foldl_cons]
    refine ih _ _ ?_
    rw [k1, k2]
    exact h4

/-- A bitmap access whose every byte may go (R193). -/
theorem bytesLoop_go {wr : Bool} {cp a n : Nat} {c : Cp} {t : Tile} (k : CpRes)
    (h : ((List.range n).all fun i => (accFault c ((a + i : Nat) : Int) 1 1 wr).isNone && !rangeStalls cp c t (lineOf (a + i)) 128
      && (unstaged t (a + i)).isNone) = true) : bytesLoop wr cp a n c t k = k := by
  simp only [List.all_eq_true, Bool.and_eq_true, Option.isNone_iff_eq_none, Bool.not_eq_true'] at h
  have h1 : ((List.range n).find? fun i => (accFault c ((a + i : Nat) : Int) 1 1 wr).isSome) = none := by
    simp only [List.find?_eq_none]; intro i hi; rw [(h i hi).1.1]; simp
  have h2 : ((List.range n).any fun i => rangeStalls cp c t (lineOf (a + i)) 128) = false := by
    simp only [List.any_eq_false]; intro i hi; simp [(h i hi).1.2]
  have h3 : ((List.range n).findSome? fun i => unstaged t (a + i)) = none := by
    simp only [List.findSome?_eq_none_iff]; intro i hi; exact (h i hi).2
  simp only [bytesLoop, h1, h2, h3]; rfl

/-! ## Compares and reductions -/

/-- SEW is positive. -/
theorem Cp.sewBits_pos (c : Cp) : 0 < c.sewBits := by 
  simp only [Cp.sewBits]; exact Nat.mul_pos (by decide) (Nat.two_pow_pos _)

/-- An element is a number of its width. -/
theorem Cp.velem_lt (c : Cp) {vlen w n i : Nat} (h : 0 < w) : c.velem vlen w n i < 2 ^ w := by
  simp only [Cp.velem, bits]
  rw [show i % (vlen / w) * w + w - 1 + 1 - i % (vlen / w) * w = w by omega]
  exact Nat.mod_lt _ (Nat.two_pow_pos w)

/-- Flags that no element sets. -/
theorem foldl_keep {α β : Type} (l : List α) (c : β) : l.foldl (fun (y : β) (_ : α) => y) c = c := by
  induction l with
  | nil => rfl
  | cons a l ih => exact ih

/-- An integer reduction over numbers is the reduction over w-bit values. -/
theorem foldl_reduce {w : Nat} (op : BitVec w → BitVec w → BitVec w) (f : Nat → Nat → Nat) (e : Nat → Nat)
    (h : ∀ p q, p < 2 ^ w → BitVec.ofNat w (f p (e q)) = op (BitVec.ofNat w p) (BitVec.ofNat w (e q)) ∧ f p (e q) < 2 ^ w) (l : List Nat) :
    ∀ r : Nat, r < 2 ^ w →
      BitVec.ofNat w (l.foldl (fun (a : Nat × KFlags) i => (f a.1 (e i), a.2 ||| 0)) (r, 0)).1
          = l.foldl (fun x i => op x (BitVec.ofNat w (e i))) (BitVec.ofNat w r)
        ∧ (l.foldl (fun (a : Nat × KFlags) i => (f a.1 (e i), a.2 ||| 0)) (r, 0)).2 = 0 := by
  induction l with
  | nil => exact fun r _ => ⟨rfl, rfl⟩
  | cons i l ih =>
    intro r hr
    have k := h r i hr
    simp only [List.foldl_cons, show ((0 : KFlags) ||| 0) = 0 from rfl]
    rw [← k.1]
    exact ih _ k.2

end Sys2Proof.Machine
end

