-- ==== Sys2Proof/Tests/Slice0.lean ====
section
/-! SUPPORT. Tests/Slice0.lean: tests on small states: ill-formed commands, words and vectors of the spec, and for every
statement's hypotheses a state and operands that meet them. -/

open Sys2Proof Sys2Proof.Machine

namespace Sys2Proof.Tests

-- One theorem at a time: the file's hundreds of evaluations would otherwise stand in memory together.
set_option Elab.async false

/-! ## Ill-formed commands -/

/-- A field that must be 0, or must name a P register, and does not is refused (R185). -/
theorem test_wf_refuses_fields_1 : ([
    .lui ⟨0, 0⟩ 0 1 0,
    .vcfg ⟨0, 0⟩ 0 0 0x10,
    .vmv ⟨0, 0⟩ { a := 1, b := 0, d := 0, pe := false, pm := 0 } false,
    .vldff ⟨0, 0⟩ { a := 0, b := 0, d := 0, pe := false, pm := 0 },
    .vpatm ⟨0, 0⟩ { a := 0, b := 0, d := 16, pe := false, pm := 0 },
    .vpatm ⟨0, 0⟩ { a := 0, b := 1, d := 0, pe := false, pm := 0 },
    .ceq ⟨0, 0⟩ { a := 0, b := 0, d := 16, pe := false, pm := 0 } false,
    .cne ⟨0, 0⟩ { a := 0, b := 0, d := 16, pe := false, pm := 0 } false,
    .clt ⟨0, 0⟩ { a := 0, b := 0, d := 16, pe := false, pm := 0 } false,
    .cle ⟨0, 0⟩ { a := 0, b := 0, d := 16, pe := false, pm := 0 } false,
    .cgt ⟨0, 0⟩ { a := 0, b := 0, d := 16, pe := false, pm := 0 } false,
    .cge ⟨0, 0⟩ { a := 0, b := 0, d := 16, pe := false, pm := 0 } false,
    .cltu ⟨0, 0⟩ { a := 0, b := 0, d := 16, pe := false, pm := 0 } false,
    .cleu ⟨0, 0⟩ { a := 0, b := 0, d := 16, pe := false, pm := 0 } false,
    .cgtu ⟨0, 0⟩ { a := 0, b := 0, d := 16, pe := false, pm := 0 } false,
    .cgeu ⟨0, 0⟩ { a := 0, b := 0, d := 16, pe := false, pm := 0 } false,
    .cfeq ⟨0, 0⟩ { a := 0, b := 0, d := 16, pe := false, pm := 0 } false,
    .cflt ⟨0, 0⟩ { a := 0, b := 0, d := 16, pe := false, pm := 0 } false,
    .cfle ⟨0, 0⟩ { a := 0, b := 0, d := 16, pe := false, pm := 0 } false,
    .cfun ⟨0, 0⟩ { a := 0, b := 0, d := 16, pe := false, pm := 0 } false,
    .cftlt ⟨0, 0⟩ { a := 0, b := 0, d := 16, pe := false, pm := 0 } false,
    .vbeq ⟨0, 0⟩ { a := 0, b := 0, d := 16, pe := false, pm := 0 },
    .vbrng ⟨0, 0⟩ { a := 0, b := 0, d := 16, pe := false, pm := 0 },
    .vpat ⟨0, 0⟩ { a := 0, b := 0, d := 16, pe := false, pm := 0 }] : List Instr).all (fun i => !WellFormed i) = true := by decide

/-- A field that must be 0, or must name a P register, and does not is refused (R185). -/
theorem test_wf_refuses_fields_2 : ([
    .pand ⟨0, 0⟩ { a := 0, b := 0, d := 16, pe := false, pm := 0 },
    .pand ⟨0, 0⟩ { a := 16, b := 0, d := 0, pe := false, pm := 0 },
    .pand ⟨0, 0⟩ { a := 0, b := 16, d := 0, pe := false, pm := 0 },
    .pand ⟨0, 0⟩ { a := 0, b := 0, d := 0, pe := true, pm := 0 },
    .pand ⟨0, 0⟩ { a := 0, b := 0, d := 0, pe := false, pm := 1 },
    .por ⟨0, 0⟩ { a := 0, b := 0, d := 16, pe := false, pm := 0 },
    .por ⟨0, 0⟩ { a := 16, b := 0, d := 0, pe := false, pm := 0 },
    .por ⟨0, 0⟩ { a := 0, b := 16, d := 0, pe := false, pm := 0 },
    .por ⟨0, 0⟩ { a := 0, b := 0, d := 0, pe := true, pm := 0 },
    .por ⟨0, 0⟩ { a := 0, b := 0, d := 0, pe := false, pm := 1 },
    .pxor ⟨0, 0⟩ { a := 0, b := 0, d := 16, pe := false, pm := 0 },
    .pxor ⟨0, 0⟩ { a := 16, b := 0, d := 0, pe := false, pm := 0 },
    .pxor ⟨0, 0⟩ { a := 0, b := 16, d := 0, pe := false, pm := 0 },
    .pxor ⟨0, 0⟩ { a := 0, b := 0, d := 0, pe := true, pm := 0 },
    .pxor ⟨0, 0⟩ { a := 0, b := 0, d := 0, pe := false, pm := 1 },
    .pandn ⟨0, 0⟩ { a := 0, b := 0, d := 16, pe := false, pm := 0 },
    .pandn ⟨0, 0⟩ { a := 16, b := 0, d := 0, pe := false, pm := 0 },
    .pandn ⟨0, 0⟩ { a := 0, b := 16, d := 0, pe := false, pm := 0 },
    .pandn ⟨0, 0⟩ { a := 0, b := 0, d := 0, pe := true, pm := 0 },
    .pandn ⟨0, 0⟩ { a := 0, b := 0, d := 0, pe := false, pm := 1 },
    .pnot ⟨0, 0⟩ { a := 0, b := 0, d := 16, pe := false, pm := 0 },
    .pnot ⟨0, 0⟩ { a := 16, b := 0, d := 0, pe := false, pm := 0 },
    .pnot ⟨0, 0⟩ { a := 0, b := 0, d := 0, pe := true, pm := 0 },
    .pnot ⟨0, 0⟩ { a := 0, b := 0, d := 0, pe := false, pm := 1 }] : List Instr).all (fun i => !WellFormed i) = true := by decide

/-- A field that must be 0, or must name a P register, and does not is refused (R185). -/
theorem test_wf_refuses_fields_3 : ([
    .pmov ⟨0, 0⟩ { a := 0, b := 0, d := 16, pe := false, pm := 0 },
    .pmov ⟨0, 0⟩ { a := 16, b := 0, d := 0, pe := false, pm := 0 },
    .pmov ⟨0, 0⟩ { a := 0, b := 0, d := 0, pe := true, pm := 0 },
    .pmov ⟨0, 0⟩ { a := 0, b := 0, d := 0, pe := false, pm := 1 },
    .pset ⟨0, 0⟩ { a := 0, b := 0, d := 16, pe := false, pm := 0 },
    .pset ⟨0, 0⟩ { a := 0, b := 0, d := 0, pe := true, pm := 0 },
    .pset ⟨0, 0⟩ { a := 0, b := 0, d := 0, pe := false, pm := 1 },
    .pclr ⟨0, 0⟩ { a := 0, b := 0, d := 16, pe := false, pm := 0 },
    .pclr ⟨0, 0⟩ { a := 0, b := 0, d := 0, pe := true, pm := 0 },
    .pclr ⟨0, 0⟩ { a := 0, b := 0, d := 0, pe := false, pm := 1 },
    .pfromg ⟨0, 0⟩ { a := 0, b := 0, d := 16, pe := false, pm := 0 },
    .pfromg ⟨0, 0⟩ { a := 0, b := 0, d := 0, pe := true, pm := 0 },
    .pfromg ⟨0, 0⟩ { a := 0, b := 0, d := 0, pe := false, pm := 1 },
    .pldb ⟨0, 0⟩ { a := 0, b := 0, d := 16, pe := false, pm := 0 },
    .pldb ⟨0, 0⟩ { a := 0, b := 0, d := 0, pe := true, pm := 0 },
    .pldb ⟨0, 0⟩ { a := 0, b := 0, d := 0, pe := false, pm := 1 },
    .pstb ⟨0, 0⟩ { a := 0, b := 0, d := 16, pe := false, pm := 0 },
    .pstb ⟨0, 0⟩ { a := 0, b := 0, d := 0, pe := true, pm := 0 },
    .pstb ⟨0, 0⟩ { a := 0, b := 0, d := 0, pe := false, pm := 1 },
    .pcnt ⟨0, 0⟩ { a := 16, b := 0, d := 0, pe := false, pm := 0 },
    .pcnt ⟨0, 0⟩ { a := 0, b := 0, d := 0, pe := true, pm := 0 },
    .pcnt ⟨0, 0⟩ { a := 0, b := 0, d := 0, pe := false, pm := 1 },
    .pfirst ⟨0, 0⟩ { a := 16, b := 0, d := 0, pe := false, pm := 0 },
    .pfirst ⟨0, 0⟩ { a := 0, b := 0, d := 0, pe := true, pm := 0 }] : List Instr).all (fun i => !WellFormed i) = true := by decide

/-- A field that must be 0, or must name a P register, and does not is refused (R185). -/
theorem test_wf_refuses_fields_4 : ([
    .pfirst ⟨0, 0⟩ { a := 0, b := 0, d := 0, pe := false, pm := 1 }] : List Instr).all (fun i => !WellFormed i) = true := by decide

/-- A unit number out of range is refused. -/
theorem test_wf_refuses_units_1 : ([
    .registerWrite (.vf 4097) .bar0 0 0,
    .reservedAccess (.stw 4) .bar0 0 0 false,
    .rcClearingRead (.vf 0) 0 0,
    .counterLowRead (.vf 4097) 0,
    .clkAlmLoRead (.stw 4),
    .glbGuardWrite (.vf 0) 0,
    .generationIncrementReport 4096,
    .morselClaim 18,
    .morselComplete 18 0 false,
    .morselComplete 0 2 false,
    .noclaimWrite (.stw 4) 0 0,
    .noclaimWrite .pf0 18 0,
    .stagingFillComplete ⟨18, 0⟩ 0,
    .stagingFillComplete ⟨0, 4⟩ 0,
    .rangeOperationComplete 18,
    .cacheDisableFlush .pf0 ⟨18, 0⟩,
    .cacheDisableFlush .pf0 ⟨0, 4⟩,
    .cacheDisableFlush (.vf 0) ⟨0, 0⟩,
    .cacheEnable .pf0 ⟨18, 0⟩,
    .cacheEnable .pf0 ⟨0, 4⟩,
    .cacheEnable (.vf 0) ⟨0, 0⟩,
    .sltu ⟨18, 0⟩ 0 0 0,
    .sltu ⟨0, 4⟩ 0 0 0,
    .lui ⟨18, 0⟩ 0 0 0] : List Instr).all (fun i => !WellFormed i) = true := by decide

/-- A unit number out of range is refused. -/
theorem test_wf_refuses_units_2 : ([
    .lui ⟨0, 4⟩ 0 0 0,
    .lbu ⟨18, 0⟩ 0 0 0,
    .lbu ⟨0, 4⟩ 0 0 0,
    .vsts ⟨18, 0⟩ { a := 0, b := 0, d := 0, pe := false, pm := 0 },
    .vsts ⟨0, 4⟩ { a := 0, b := 0, d := 0, pe := false, pm := 0 },
    .vcfg ⟨18, 0⟩ 0 0 0,
    .vcfg ⟨0, 4⟩ 0 0 0,
    .vmulhu ⟨18, 0⟩ { a := 0, b := 0, d := 0, pe := false, pm := 0 } false,
    .vmulhu ⟨0, 4⟩ { a := 0, b := 0, d := 0, pe := false, pm := 0 } false,
    .vaddo ⟨18, 0⟩ { a := 0, b := 0, d := 0, pe := false, pm := 0 } false,
    .vaddo ⟨0, 4⟩ { a := 0, b := 0, d := 0, pe := false, pm := 0 } false,
    .cfeq ⟨18, 0⟩ { a := 0, b := 0, d := 0, pe := false, pm := 0 } false,
    .cfeq ⟨0, 4⟩ { a := 0, b := 0, d := 0, pe := false, pm := 0 } false,
    .vcvtfi ⟨18, 0⟩ { a := 0, b := 0, d := 0, pe := false, pm := 0 },
    .vcvtfi ⟨0, 4⟩ { a := 0, b := 0, d := 0, pe := false, pm := 0 },
    .pset ⟨18, 0⟩ { a := 0, b := 0, d := 0, pe := false, pm := 0 },
    .pset ⟨0, 4⟩ { a := 0, b := 0, d := 0, pe := false, pm := 0 },
    .astoreOwnerWrite (.vf 0) 0 0,
    .astoreOwnerWrite .pf0 32 0,
    .bankClearComplete 32,
    .respreadStep 64,
    .replayEnd 64,
    .arrDrainComplete 64,
    .stripeOpen 64 0] : List Instr).all (fun i => !WellFormed i) = true := by decide

/-- A unit number out of range is refused. -/
theorem test_wf_refuses_units_3 : ([
    .stripeCloseTimeout 64 0,
    .stripeCommit 64 0,
    .stripeFree 64 0,
    .harvest 64,
    .mapCheckpoint 64,
    .arcMapcWrite (.vf 0) 0,
    .arcDestroyGo (.vf 4097) 0,
    .arcDpWrite (.stw 4) 0 0,
    .rebuildCursorStep 64,
    .reshapeStep 64,
    .reshapeFinish 64,
    .vaultSeal 64 0,
    .sqEnable (.vf 4097) 0 0,
    .sqEnable .pf0 65536 0,
    .cqEnable (.vf 0) 0 0,
    .cqEnable .pf0 65536 0,
    .sqDisable (.stw 4) 0 0,
    .sqDisable .pf0 65536 0,
    .cqDisable (.vf 4097) 0 0,
    .cqDisable .pf0 65536 0,
    .producerDoorbell (.vf 0) 0 0,
    .pushWrite (.vf 4097) 0 0 ([]),
    .completionConsumerWrite (.stw 4) 0 0,
    .entryFetch 65536] : List Instr).all (fun i => !WellFormed i) = true := by decide

/-- A unit number out of range is refused. -/
theorem test_wf_refuses_units_4 : ([
    .sqFetchError 65536,
    .moderationTimeout 65536,
    .netTsPop (.vf 0) 0,
    .netPortWrite (.vf 4097) 0 0,
    .partitionEnable (.stw 4) 0 0,
    .partitionEnable .pf0 4096 0,
    .partitionDisable (.vf 4097) 0 0,
    .partitionDisable .pf0 4096 0,
    .partitionResetComplete 4096,
    .freezeComplete 4096,
    .fixedSlotStart 4096,
    .fixedSlotEnd 4096,
    .trustMtrCWrite (.vf 4097) 0,
    .pinFilterExpiry 4,
    .handlerEntry 4,
    .eret 4,
    .evcHackWrite (.stw 4) 0,
    .evcSwsetWrite (.vf 0) 0,
    .evcRouteEnable (.vf 4097) 0 0,
    .sdmaGo (.stw 4) 0 0,
    .sdmaGo .pf0 64 0,
    .sdmaAbort (.vf 4097) 0 0,
    .sdmaAbort .pf0 64 0,
    .sdmaResume (.vf 0) 0 0] : List Instr).all (fun i => !WellFormed i) = true := by decide

/-- A unit number out of range is refused. -/
theorem test_wf_refuses_units_5 : ([
    .sdmaResume .pf0 64 0,
    .burstStart 64 false,
    .burstComplete 64 .ok false,
    .readbackComplete 64 .ok,
    .sdmaArmedTimeout 64,
    .linkTrainingComplete 4 0 0,
    .linkTrainingTimeout 4,
    .linkFlitTimeout 4,
    .laneErrorRate 4 0,
    .laneErrorRate 0 8,
    .plkRetrain (.stw 4) 0,
    .plkRetrain .pf0 4,
    .plkOfflWrite (.vf 4097) 0 0,
    .peerBindingEnable (.stw 4) 0 0,
    .plkMirrorEnable (.vf 0) 0,
    .plkMirrorDisable (.vf 4097),
    .plkMirrorRelease (.stw 4),
    .glbTileMapWrite (.vf 0) 0 0,
    .vigilSvcOut (.vf 4097) 0,
    .vigilSvcTest (.stw 4) 0,
    .vigilSvcIn (.vf 0) 0,
    .vigilUackWrite (.vf 4097) 0,
    .vigilLogCWrite (.stw 4) 0,
    .trustKeyloadGo (.vf 0)] : List Instr).all (fun i => !WellFormed i) = true := by decide

/-- A unit number out of range is refused. -/
theorem test_wf_refuses_units_6 : ([
    .trustFwActGo (.vf 4097),
    .trustFwActCommit (.stw 4),
    .mbxCmdWrite false (.vf 0) 0,
    .mbxDataWrite false (.vf 4097) 0,
    .mbxDataRead false (.stw 4),
    .deviceReset (.vf 0) { devid := 0, failTiles := 0, failStack := none, bootId := 0, hostUp := true },
    .clkDivWrite (.vf 4097) 0,
    .clkTrimWrite (.stw 4) 0,
    .stewardTimerFire 4 0,
    .stewardTimerFire 0 8,
    .clkTmrDlWrite (.stw 4) 0 0 false 0,
    .clkTmrDlWrite .pf0 4 0 false 0,
    .clkTmrDlWrite .pf0 0 8 false 0,
    .pwrAvsWrite (.stw 4) 0 0,
    .pinRawLevelChange 4 false] : List Instr).all (fun i => !WellFormed i) = true := by decide

/-! ## Words and vectors -/

/-- No word of the command table spells a command: the table gives no row bits. -/
theorem test_no_table_word : decodeTableWord 32 0x04221800 = none ∧ (State.reset.withFetchWord 32 0x04221800).pending = [] := by decide

/-- R167: the CRC-64 of the nine characters 123456789. -/
theorem test_crc64 : crc64 [0x31, 0x32, 0x33, 0x34, 0x35, 0x36, 0x37, 0x38, 0x39] = 0x995DC9BBDF1939FA := by decide +kernel

/-- R115: DZH64 of INT64 0. -/
theorem test_dzh64_zero : dzh64 [0] = 0x5B46A963C7A25932 := by decide +kernel

/-- R115: DZH64 of the bytes abc. -/
theorem test_dzh64_abc : dzh64 [3, 0x636261] = 0xAFC1F8E42FE82494 := by decide +kernel

/-- FIPS 197, C.3: the AES-256 example, which R412 and R497 rest on. -/
theorem test_aes : aesEncrypt (keySchedule ((List.range 32).map fun i => BitVec.ofNat 8 i))
      (leNat ((List.range 16).map fun i => BitVec.ofNat 8 (17 * i))) =
    leNat [0x8e, 0xa2, 0xb7, 0xca, 0x51, 0x67, 0x45, 0xbf, 0xea, 0xfc, 0x49, 0x90, 0x4b, 0x49, 0x60, 0x89] := by decide +kernel

/-- R186: words written out from the tables: ADD G1, G2, G3; MAJOR 0 and FN 63 of MAJOR 1 are no instruction (R185). -/
theorem test_words : cpDecode ⟨0, 0⟩ 0x04221800 = some (.add ⟨0, 0⟩ 1 2 3) ∧ cpDecode ⟨0, 0⟩ 0 = none ∧
    cpDecode ⟨0, 0⟩ 0x0400003F = none := by decide

/-! ## Small states -/

/-- A DRZ-8640 that is READY, its clocks running, its lock open for PF0, PF0 allowed to send. -/
def ready : State :=
  { State.reset with
    glb := { State.reset.glb with start := 5, guard := Tri.of { isOpen := true, holder := .pf0, remain := 9 } }
    clk := { counting := true, locked := true }
    hif := { portUp := true, funcs := [(0, { bme := true })] } }

/-- The same with two VFs. -/
def vfState : State := { ready with hif := { ready.hif with vfEnable := true, numVfs := 2 } }

/-- The same with peer link 0 up to device 1. -/
def linked : State := { ready with plk := { links := [(0, { state := 2, peer := 1, insvc := 255 })] } }

/-- An entry of n bytes with the given fields: offset, bytes, value. -/
def entry (n : Nat) (fs : List (Nat × Nat × Nat)) : List Byte :=
  fs.foldl (fun b e => b.take e.1 ++ natLE e.2.1 e.2.2 ++ b.drop (e.1 + e.2.1)) (List.replicate n 0)

/-- Command 0 of the owner context, fetched from SQ 0. -/
def ringCmd (op n : Nat) (fs : List (Nat × Nat × Nat)) : Cmd :=
  { id := 0, origin := .ring 0, op := op, bytes := entry n fs, ctx := 0x1000, gen := 0, cq := 0, place := .ring, ctmo := 0
    phase := .fetched, fetchedAt := 0 }

/-- A ready device that has fetched that command. -/
def ringState (op n : Nat) (fs : List (Nat × Nat × Nat)) : State :=
  { ready with hif := { ready.hif with cmds := [ringCmd op n fs], nextId := 1 } }

/-- The same, TRUST running and the requester's capabilities known. -/
def spdmState : State := { ready with trust := { boot := 2, spdm := { phase := 2, xfer := 42, maxMsg := 4096 } } }

/-- A ready device whose SQ 0 holds one entry not fetched, with CQ 0 of one slot. -/
def fetchState : State :=
  { ready with hif := { ready.hif with queues := [(0, { sqen := true, cqen := true, sqp := 1, ctx := Tri.of 0x1000 })] } }

/-- Command 0 of partition 0. -/
def partCmd0 (op n : Nat) (fs : List (Nat × Nat × Nat)) : Cmd := { ringCmd op n fs with ctx := 0 }

/-- A ready device with partition 0 in a state, which has fetched that command. -/
def partState (st op n : Nat) (fs : List (Nat × Nat × Nat)) : State :=
  { ready with
    hif := { ready.hif with cmds := [partCmd0 op n fs], nextId := 1, vfEnable := true, numVfs := 1, funcs := [(0, { bme := true }), (1, { bme := true })] }
    parts := [(0, { en := Tri.of true, state := st, pageMax := Tri.of 64, ovfMib := 2, tiles := 0xFFFF, weight := 1 })] }

/-- The image of 168 bytes whose KWRAP holds partition key 2 and the digest, wrapped under migration key 1. -/
def testImage : List Byte :=
  natLE 4 0x49535A44 ++ natLE 2 1 ++ natLE 10 0 ++ natLE 8 168 ++ List.replicate 40 0
    ++ natLE 52 0xF049E41F4CEB3451AA764D21BB07605883EBA6E898193FFE70C8243A11D49580DD77B110AA4AE1C2D17E0F4B37DA3B03803A298B
    ++ natLE 52 0x4E0FA94E1FD384C5992257BD6EF8D80A16549FADEA262ACC32B2111EF24E995770A06DCD43B02D05D49556D249F20A565285DF20

/-- A ready device that has fetched a PART_RESTORE whose image it can unwrap. -/
def restoreState : State :=
  { ringState 0xAB 32 [(24, 8, 0x1000)] with
    hostMem := memWrite [] 0 testImage, trust := { keys := [(4097, some 1)] }
    images := [{ image := testImage, key := some 2, part := {}, queues := [], plans := [], runs := [], tables := [], pages := [], hbm := [] }] }

/-- The image of a partition that owns nothing is short. -/
theorem saveImage_short (m : SaveImage) (h : m.queues = [] ∧ m.plans = [] ∧ m.runs = [] ∧ m.tables = [] ∧ m.pages = []) :
    m.length ≤ 2 ^ 52 := by
  obtain ⟨a, b, c, d, e⟩ := h
  have h1 := (Config.saveLengthBits 1 0).isLt
  have h4 := (Config.saveLengthBits 4 0).isLt
  have h5 := (Config.saveLengthBits 5 0).isLt
  have h6 := (Config.saveLengthBits 6 0).isLt
  have h7 := (Config.saveLengthBits 7 0).isLt
  have h8 := (Config.saveLengthBits 8 0).isLt
  simp only [SaveImage.length, SaveImage.sections, a, b, c, d, e, Config.saveLength, roundUp, ceilDiv, List.foldl, List.length_nil]
  omega

/-- A plan image: SCAN of plain INT64 parameter 0 into C0, DECODE, EMIT by parameter 1 (R59 to R67). -/
def planImage : List Byte :=
  entry 264 [(0, 4, 0x4E594C56), (4, 2, 1), (8, 4, 264), (0xC, 2, 5),
    (0x10, 8, 0x2800000040), (0x18, 8, 0x3000000070), (0x20, 8, 0x8000000A0), (0x28, 8, 0x8000000B0), (0x30, 8, 0x48000000C0),
    (0x38, 8, 0x09e55d8035ecf6f9),
    (0x40, 2, 1), (0x4C, 2, 3), (0x4E, 2, 2), (0x50, 8, 0xFFFFFFFFFFFFFFFF), (0x58, 4, 4), (0x5C, 4, 64),
    (0x70, 16, 0x0102050000002000F000F00000000000), (0x80, 16, 0x0200050000000000F000F00000000000),
    (0x90, 16, 0x1000050020010000F000F00000000010),
    (0xC0, 2, 2), (0xCA, 2, 2), (0xEA, 2, 2)]

/-- That plan. -/
def scanPlan : Plan :=
  { image := [], arith := 0
    pipes := [{ opFirst := 0, opCount := 3, flags := 2, deps := [0xFFFF, 0xFFFF, 0xFFFF, 0xFFFF], morselRows := 4, scratchKib := 64 }]
    mats := []
    ops := [{ op := 1, flags := 2, ty := 5, attr := 0, dst := 0, a := 0x2000, b := 0xF000, c := 0xF000, imm := 0 },
      { op := 2, flags := 0, ty := 5, attr := 0, dst := 0, a := 0, b := 0xF000, c := 0xF000, imm := 0 },
      { op := 0x10, flags := 0, ty := 5, attr := 0, dst := 0x2001, a := 0, b := 0xF000, c := 0xF000, imm := 16 }]
    consts := [], pool := [], kernels := []
    params := [{ ty := 0, attr := 0, dflags := 2, dflt := [] }, { ty := 0, attr := 0, dflags := 2, dflt := [] }], cols := [] }

/-- Partition 0's RUN_PLAN of plan 0: two rows at 0x3000, the emit descriptor at 0x2000. -/
def planCmd (op : Nat) : Cmd := partCmd0 op 64 [(12, 2, 2), (32, 8, 0x3000), (40, 4, 16), (48, 8, 0x2000), (56, 4, 128)]

/-- A ready device with partition 0, plan 0 loaded, its host memory laid out, and that command fetched. -/
def planState (op : Nat) : State :=
  let s := partState 1 op 64 []
  { s with
    hif := { s.hif with cmds := [planCmd op] }, plans := [(0, some scanPlan)]
    hostMem := memWrite [] (hostKey 1 0x2000) (entry 128 [(0, 4, 1), (4, 4, 4), (8, 8, 0x4000), (16, 2, 1), (64, 1, 5), (72, 8, 0x4040), (88, 8, 0x4080)]) }

/-- Partition 0's LOAD_PLAN of that image, which lies at 0x1000. -/
def loadCmd : Cmd := partCmd0 1 32 [(8, 8, 0x1000), (16, 4, 264)]

/-- A ready device that has fetched it. -/
def loadState : State :=
  let s := partState 1 1 32 []
  { s with hif := { s.hif with cmds := [loadCmd] }, hostMem := memWrite [] (hostKey 1 0x1000) planImage }

/-- A run of plan 0 for command 0. -/
def testRun : Run :=
  { newRun (planCmd 3) 0 [some (sub (planCmd 3).bytes 32 16), some (sub (planCmd 3).bytes 48 16)] with
    pages := 1, pipes := [(0, { morsels := some 1, total := 2 })] }

/-- The same with that run in progress. -/
def runState : State := { planState 3 with runs := [testRun], nextRun := 1 }

/-- An op word with no operands. -/
def sinkWord (op : Nat) : OpWord := { op := op, flags := 0, ty := 5, attr := 0, dst := 0, a := 0, b := 0, c := 0, imm := 0 }

/-- A plan of one pipeline whose sink is the given op word; materialisation 0 has this kind. -/
def sinkPlan (op kind : Nat) : Plan :=
  { image := [], arith := 0
    pipes := [{ opFirst := 0, opCount := 1, flags := 0, deps := [], morselRows := 0, scratchKib := 64 }]
    mats := [{ kind := kind, mflags := 0, producer := 0, hbmPages := 1, spillParam := 0xFFFF, rowBytes := 8 }]
    ops := [sinkWord op]
    consts := [], pool := [], kernels := [], params := [], cols := [] }

/-- Morsel 0 of that plan in flight. -/
def testFlight (w : Work) : Flight :=
  { run := 0, pipe := 0, m := 0, token := 0, ctx := 0, paired := false, partner := none, since := 0, work := w }

/-- A run of that plan. -/
def sinkRun (p : PipeRun) (x : Mat) : Run := { testRun with pipes := [(0, p)], mats := [(0, x)] }

/-- A run of that plan, with one morsel in flight on tile 0. -/
def sinkState (op kind : Nat) (p : PipeRun) (x : Mat) (w : Work) : State :=
  { runState with
    plans := [(0, some (sinkPlan op kind))]
    runs := [sinkRun p x]
    tiles := [(0, { ctx := 0, flights := [testFlight w] })] }

/-- A morsel's rows: none. -/
def noRows : Eval := { rows := [], errs := [], win := [], lims := [], marks := [], searches := 0 }

/-- The plan of a STORE into parameter 0. -/
def storePlan : Plan :=
  { sinkPlan 0x11 1 with params := [{ ty := 0, attr := 0, dflags := 2, dflt := [] }], ops := [{ sinkWord 0x11 with dst := 0x2000 }] }

/-- Its run: 64 KiB of volume 0 from block 0 on. -/
def storeRun (p : PipeRun) : Run := { sinkRun p {} with params := [some (entry 16 [(8, 4, 65536), (12, 2, 1)])] }

/-- A run whose sink is a STORE to volume 0, which partition 0 owns. -/
def storeState (p : PipeRun) : State :=
  let y := sinkState 0x11 1 p {} (.rows noRows)
  { y with
    plans := [(0, some storePlan)], runs := [storeRun p]
    arc := { vols := [(0, { state := 1, vblk := 100 })], arrays := [(0, { state := 3 })] } }

/-- A run that was repaired once. -/
def repairedState : State :=
  let y := sinkState 6 1 { done := true } { complete := true } (.rows noRows)
  { y with runs := [{ sinkRun { done := true } { complete := true } with repaired := true }] }

/-- Table 0 of the owner context: bank 0, one unit an entry. -/
def testTable : ATable := { enable := true, ctx := 0x1000, banks := 1 }

/-- A ready device with that table, an entry at position 65,534, which has fetched this command. -/
def astState (op n : Nat) (fs : List (Nat × Nat × Nat)) : State :=
  { ringState op n fs with
    astore := { tables := [(0, testTable)], banks := [(0, { inuse := true })], units := [(65534, { data := 1, mask := 1 })] } }

/-- A run that exchanges with device 1 over binding 0 under key 0. -/
def exchangeRun : Run := { sinkRun {} {} with binds := [(0, 0)] }

/-- That run in progress, link 0 up to device 1. -/
def exchangeState : State :=
  { sinkState 0x0D 3 {} {} (.rows noRows) with
    runs := [exchangeRun]
    plk := { links := [(0, { state := 2, peer := 1, insvc := 255 })], bindings := [(0, { en := true, devmask := 3, up := 3 })] } }

/-- Array 0 of one data and one parity position, volume 0 of the owner context on it. -/
def testArr : Arr := { state := 3, geom := Tri.of (geomWord 10 1 1), pos := [(0, Tri.of 0x8180)], s := 1, cacheU := 1, vault := 1000 }

/-- A ready device with an array and volume 0 of 100 blocks, which has fetched this command. -/
def arcState (x : Arr) (op n : Nat) (fs : List (Nat × Nat × Nat)) : State :=
  { ringState op n fs with
    arc := { arrays := [(0, x)], vols := [(0, { state := 1, vblk := 100, owner := 0x1000, leaves := [] })]
             members := [(0, { state := 3, mwrate := 4095 }), (1, { state := 3, pos := 1, mwrate := 4095 })] } }

/-- Frozen, member 0 still writing its vault stream. -/
def sealState : State :=
  let y := arcState { testArr with stripes := [(0, { state := 1 })], streams := [0] } 0 32 []
  { y with arc := { y.arc with
      pf := 1
      members := [(0, { state := 3, array := 0 })] } }

/-- An array of one slot opens that slot. -/
theorem nextSlot_one {x : Arr} {op n : Nat} {fs : List (Nat × Nat × Nat)} (hs : x.s = 1 := by rfl) (hb : x.busy = [] := by rfl)
    (hr : x.reshaping = false := by rfl) : (arcState x op n fs).nextSlot 0 = some 0 := by
  have h : (arcState x op n fs).arr 0 = x := rfl
  simp [State.nextSlot, h, hs, hb, hr, freeIn, Nat.mod_one, firstFree]

/-- The same array with no volume, so that a checkpoint has no page to write. -/
def bareState (x : Arr) (op n : Nat) (fs : List (Nat × Nat × Nat)) : State :=
  { arcState x op n fs with arc := { (arcState x op n fs).arc with vols := [] } }

/-- A result that is there, named. -/
theorem getD_some {o : Option State} (h : o.isSome = true) : o = some (o.getD ready) := by
  cases o with
  | none => cases h
  | some _ => rfl

/-- The same with a map leaf to be written. -/
def dirtyState : State :=
  let y := arcState testArr 0 32 []
  { y with arc := { y.arc with vols := [(0, { state := 1, vblk := 100, owner := 0x1000, leaves := [{ first := 0, resident := true, dirty := true, used := 0 }] })] } }

/-- Partition 0 runs; port 0 is up with interface 0; connection 0 carries one of its queues. -/
def netState (qid : Nat) : State :=
  let y := arcState testArr 0 32 []
  { y with
    hif := { y.hif with cmds := [] }, parts := [(0, { en := Tri.of true, state := 1, wcMax := Tri.of 100 })]
    arc := { y.arc with vols := [(0, { state := 1, vblk := 100, exported := some 1 })] }
    net := { ports := [(0, { link := true, mode := 1, lanes := 15 })], ifs := [(0, { ctl := 0x80000000 })]
             subsys := [(0, { en := true, maxConn := 8, nqn := [1] })], ctrls := [(1, { live := true, kato := 5 })], nextCntl := 2, nextConn := 1
             conns := [(0, { state := 3, qid := qid, cntl := 1 })] } }

/-- The same, connection 0 new. -/
def newConn (st : Nat) : State :=
  { netState 0 with net := { (netState 0).net with conns := [(0, { state := st })], subsys := [(0, { en := true, maxConn := 8, nqn := [1] })] } }

/-- A paced write of one block, its R2T sent. -/
def testWrite : NetWrite :=
  { cid := 0, vol := 0, lba := 0, nblk := 1, cmd := 0, parts := [], r2t := 4096, reserved := 1, recorded := 0, bad := false }

/-- A connected I/O queue; a write that is to be mirrored waits. -/
def mirrorNet : State :=
  { netState 1 with
    arc := { (netState 1).arc with arrays := [(0, { testArr with mirror := true })] }
    plk := { mirFail := true } }

/-- CP 0 of tile 0 running a kernel, with this much more state. -/
def lineState (x : Cp) : State :=
  { ready with
    cps := [(0, { x with
      run := true, g := put 0 (put 0 (put 0 x.g 1 1) 2 0x8000000000000000) 3 0xFFFFFFFFFFFFFFFF
      env := { codeLen := 64, readable := [(0, 65536)], writable := [(0, 65536)] } })] }

/-- The same with nothing more. -/
def cpState : State := lineState {}

/-- The same with a SEW code, VL 2. -/
def wideState (k : BitVec 2) : State := lineState { sew := k, vl := 2, cen := false }

/-- The same with groups of two registers. -/
def groupState : State := lineState { grp := 1 }

/-- Two bytes wait to be moved. -/
def vecState : State := wideState 0

/-- A clean line at address 0. -/
def testLine : CacheLine := { addr := 0, data := List.replicate 128 1, dirty := false, locked := false }

/-- A range operation of CP 0 is queued. -/
def rangeState : State :=
  { ready with tiles := [(0, { ranges := [{ cp := 0, clean := true, inval := false, inclLocked := false, start := 0, len := 128 }] })] }

/-- The other CPs of a kernel have halted. -/
def haltState : State :=
  { cpState with
    cps := cpState.cps ++ [(1, { halted := true }), (2, { halted := true }), (3, { halted := true })]
    tiles := [(0, { kernel := some { flight := 0, opIx := 0, rows := [], later := [], done := [], ranges := [], sel := [] } })] }

/-- A CP whose kernel may reach its private area and the pool alone. -/
def poorState : State := { ready with cps := [(0, { run := true, env := { codeLen := 64 } })] }

/-- A CP with the constant pool's first address in G4, no window staged. -/
def poolState : State := lineState { g := [(4, 0x10000000)] }

/-- What is outside at a device reset. -/
def testEnv : BootEnv := { devid := 0, failTiles := 0, failStack := none, bootId := 0, hostUp := true }

/-! ## Witnesses -/

theorem witness_GuardCompletes_1 : ∃ (r : Req) (s : State),
    s.reachable r 0x20 = true :=
  ⟨.pf0, ready, by decide⟩

theorem witness_GuardCompletes_2 : ∃ (s : State),
    (s.lock.isOpen = true ∧ s.lock.remain = 0) :=
  ⟨{ ready with glb := { ready.glb with guard := Tri.of { isOpen := true, holder := .pf0, remain := 0 } } }, by decide⟩

theorem witness_GuardCompletes_3 : ∃ (r : Req) (sp : Space) (off : Nat) (s : State),
    s.canAccess r sp off = true :=
  ⟨.pf0, .bar0, 0x20, ready, by decide⟩

theorem witness_GuardCompletes_4 : ∃ (r : Req) (sp : Space) (off : Nat) (size : Nat) (wr : Bool) (s : State),
    s.canRead r sp off = true ∧ (badSize sp off size wr || s.isReserved r sp off wr) = true :=
  ⟨.pf0, .bar0, 0x22, 1, true, ready, by decide⟩

theorem witness_GuardCompletes_5 : ∃ (r : Req) (off : Nat) (again : Word) (s : State) (x : Word) (t : State),
    r = .pf0 ∧ s.canRead r .bar0 off = true ∧ s.peekAt r .bar0 off = some x ∧ s.rcClear off again = some t :=
  ⟨.pf0, 0x24, 0, ready, _, _, by decide, by decide, rfl, rfl⟩

theorem witness_GuardCompletes_6 : ∃ (r : Req) (off : Nat) (again : Word) (s : State) (x : Word) (t : State) (n : Nat),
    r = .vf n ∧ s.canRead r .bar0 off = true ∧ s.peekAt r .bar0 off = some x ∧ s.rcClearVf (n - 1) off again = some t :=
  ⟨.vf 1, 0x230, 0, vfState, _, _, 1, by decide, by decide, rfl, rfl⟩

theorem witness_GuardCompletes_7 : ∃ (r : Req) (off : Nat) (again : Word) (s : State) (x : Word) (t : State),
    (r matches .jtag | .stw _) = true ∧ s.canRead r .bar0 off = true ∧ s.peekAt r .bar0 off = some x ∧ s.rcClear off again = some t :=
  ⟨.jtag, 0x24, 0, ready, _, _, by decide, by decide, rfl, rfl⟩

theorem witness_GuardCompletes_8 : ∃ (r : Req) (off : Nat) (s : State) (d : DWord),
    s.canRead r .bar0 off = true ∧ (r matches .vf _) = false ∧ s.wide off = some d ∧ (s.peekAt r .bar0 off).isSome = true :=
  ⟨.pf0, 0x10100, ready, _, by decide, by decide, rfl, by decide⟩

theorem witness_GuardCompletes_9 : ∃ (r : Req) (s : State),
    s.reachable r 0x10100 = true ∧ s.canRead r .bar0 0x10100 = true :=
  ⟨.pf0, ready, by decide⟩

theorem witness_GuardCompletes_10 : ∃ (r : Req) (s : State) (n : Nat),
    r = .vf n ∧ s.canRead r .bar0 0x100 = true :=
  ⟨.vf 1, vfState, 1, by decide⟩

theorem witness_GuardCompletes_11 : ∃ (f : TField) (s : State),
    f = .guard ∧ compare3 s.glb.guard = .same :=
  ⟨.guard, { ready with glb := { ready.glb with guard := (Tri.of ({ isOpen := true, holder := .pf0, remain := 1 } : Lock)) } }, by decide⟩

theorem witness_GuardCompletes_12 : ∃ (f : TField) (s : State) (u : Tri (Lock)),
    f = .guard ∧ compare3 s.glb.guard = .fixed u :=
  ⟨.guard, { ready with glb := { ready.glb with guard := (⟨({} : Lock), ({} : Lock), ({ isOpen := true, holder := .pf0, remain := 1 } : Lock)⟩ : Tri (Lock)) } }, _, by decide, rfl⟩

theorem witness_GuardCompletes_13 : ∃ (f : TField) (s : State),
    f = .guard ∧ compare3 s.glb.guard = .lost :=
  ⟨.guard, { ready with glb := { ready.glb with guard := (⟨({} : Lock), ({ isOpen := true, holder := .pf0, remain := 1 } : Lock), ({ isOpen := true, holder := .pf0, remain := 2 } : Lock)⟩ : Tri (Lock)) } }, by decide⟩

theorem witness_GuardCompletes_14 : ∃ (f : TField) (s : State) (r : Nat),
    (f = .tileMap r ∧ r < 4) ∧ compare3 (look (Tri.of 0) s.glb.tileMap r) = .same :=
  ⟨.tileMap 0, { ready with glb := { ready.glb with tileMap := [(0, (Tri.of 2))] } }, 0, by decide⟩

theorem witness_GuardCompletes_15 : ∃ (f : TField) (s : State) (r : Nat) (u : Tri (Word)),
    (f = .tileMap r ∧ r < 4) ∧ compare3 (look (Tri.of 0) s.glb.tileMap r) = .fixed u :=
  ⟨.tileMap 0, { ready with glb := { ready.glb with tileMap := [(0, (⟨1, 1, 2⟩ : Tri (Word)))] } }, 0, _, by decide, rfl⟩

theorem witness_GuardCompletes_16 : ∃ (f : TField) (s : State) (r : Nat),
    (f = .tileMap r ∧ r < 4) ∧ compare3 (look (Tri.of 0) s.glb.tileMap r) = .lost :=
  ⟨.tileMap 0, { ready with glb := { ready.glb with tileMap := [(0, (⟨1, 2, 3⟩ : Tri (Word)))] } }, 0, by decide⟩

theorem witness_GuardCompletes_17 : ∃ (f : TField) (s : State),
    f = .pdiv ∧ compare3 s.clk.pdiv = .same :=
  ⟨.pdiv, { ready with clk := { ready.clk with pdiv := (Tri.of 2) } }, by decide⟩

theorem witness_GuardCompletes_18 : ∃ (f : TField) (s : State) (u : Tri (BitVec 4)),
    f = .pdiv ∧ compare3 s.clk.pdiv = .fixed u :=
  ⟨.pdiv, { ready with clk := { ready.clk with pdiv := (⟨1, 1, 2⟩ : Tri (BitVec 4)) } }, _, by decide, rfl⟩

theorem witness_GuardCompletes_19 : ∃ (f : TField) (s : State),
    f = .pdiv ∧ compare3 s.clk.pdiv = .lost :=
  ⟨.pdiv, { ready with clk := { ready.clk with pdiv := (⟨1, 2, 3⟩ : Tri (BitVec 4)) } }, by decide⟩

theorem witness_GuardCompletes_20 : ∃ (f : TField) (s : State) (p : Nat),
    (f = .partEn p ∧ p < 4096) ∧ compare3 (s.part p).en = .same :=
  ⟨.partEn 0, { ready with parts := [(0, { en := (Tri.of false) })] }, 0, by decide⟩

theorem witness_GuardCompletes_21 : ∃ (f : TField) (s : State) (p : Nat) (u : Tri (Bool)),
    (f = .partEn p ∧ p < 4096) ∧ compare3 (s.part p).en = .fixed u :=
  ⟨.partEn 0, { ready with parts := [(0, { en := (⟨true, true, false⟩ : Tri (Bool)) })] }, 0, _, by decide, rfl⟩

theorem witness_GuardCompletes_22 : ∃ (f : TField) (s : State) (p : Nat),
    (f = .partKsrc p ∧ p < 4096) ∧ compare3 (s.part p).ksrc = .same :=
  ⟨.partKsrc 0, { ready with parts := [(0, { ksrc := (Tri.of false) })] }, 0, by decide⟩

theorem witness_GuardCompletes_23 : ∃ (f : TField) (s : State) (p : Nat) (u : Tri (Bool)),
    (f = .partKsrc p ∧ p < 4096) ∧ compare3 (s.part p).ksrc = .fixed u :=
  ⟨.partKsrc 0, { ready with parts := [(0, { ksrc := (⟨true, true, false⟩ : Tri (Bool)) })] }, 0, _, by decide, rfl⟩

theorem witness_GuardCompletes_24 : ∃ (f : TField) (s : State) (p : Nat),
    (f = .partPageMax p ∧ p < 4096) ∧ compare3 (s.part p).pageMax = .same :=
  ⟨.partPageMax 0, { ready with parts := [(0, { pageMax := (Tri.of 2) })] }, 0, by decide⟩

theorem witness_GuardCompletes_25 : ∃ (f : TField) (s : State) (p : Nat) (u : Tri (BitVec 17)),
    (f = .partPageMax p ∧ p < 4096) ∧ compare3 (s.part p).pageMax = .fixed u :=
  ⟨.partPageMax 0, { ready with parts := [(0, { pageMax := (⟨1, 1, 2⟩ : Tri (BitVec 17)) })] }, 0, _, by decide, rfl⟩

theorem witness_GuardCompletes_26 : ∃ (f : TField) (s : State) (p : Nat),
    (f = .partPageMax p ∧ p < 4096) ∧ compare3 (s.part p).pageMax = .lost :=
  ⟨.partPageMax 0, { ready with parts := [(0, { pageMax := (⟨1, 2, 3⟩ : Tri (BitVec 17)) })] }, 0, by decide⟩

theorem witness_GuardCompletes_27 : ∃ (f : TField) (s : State) (p : Nat),
    (f = .partQmax p ∧ p < 4096) ∧ compare3 (s.part p).qmax = .same :=
  ⟨.partQmax 0, { ready with parts := [(0, { qmax := (Tri.of 2) })] }, 0, by decide⟩

theorem witness_GuardCompletes_28 : ∃ (f : TField) (s : State) (p : Nat) (u : Tri (BitVec 13)),
    (f = .partQmax p ∧ p < 4096) ∧ compare3 (s.part p).qmax = .fixed u :=
  ⟨.partQmax 0, { ready with parts := [(0, { qmax := (⟨1, 1, 2⟩ : Tri (BitVec 13)) })] }, 0, _, by decide, rfl⟩

theorem witness_GuardCompletes_29 : ∃ (f : TField) (s : State) (p : Nat),
    (f = .partQmax p ∧ p < 4096) ∧ compare3 (s.part p).qmax = .lost :=
  ⟨.partQmax 0, { ready with parts := [(0, { qmax := (⟨1, 2, 3⟩ : Tri (BitVec 13)) })] }, 0, by decide⟩

theorem witness_GuardCompletes_30 : ∃ (f : TField) (s : State) (p : Nat),
    (f = .partWcMax p ∧ p < 4096) ∧ compare3 (s.part p).wcMax = .same :=
  ⟨.partWcMax 0, { ready with parts := [(0, { wcMax := (Tri.of 2) })] }, 0, by decide⟩

theorem witness_GuardCompletes_31 : ∃ (f : TField) (s : State) (p : Nat) (u : Tri (BitVec 13)),
    (f = .partWcMax p ∧ p < 4096) ∧ compare3 (s.part p).wcMax = .fixed u :=
  ⟨.partWcMax 0, { ready with parts := [(0, { wcMax := (⟨1, 1, 2⟩ : Tri (BitVec 13)) })] }, 0, _, by decide, rfl⟩

theorem witness_GuardCompletes_32 : ∃ (f : TField) (s : State) (p : Nat),
    (f = .partWcMax p ∧ p < 4096) ∧ compare3 (s.part p).wcMax = .lost :=
  ⟨.partWcMax 0, { ready with parts := [(0, { wcMax := (⟨1, 2, 3⟩ : Tri (BitVec 13)) })] }, 0, by decide⟩

theorem witness_GuardCompletes_33 : ∃ (f : TField) (s : State) (q : Nat),
    (f = .queueCtx q ∧ q < 65536) ∧ compare3 (s.queue q).ctx = .same :=
  ⟨.queueCtx 0, ready.setQueue 0 { ctx := (Tri.of 2) }, 0, by decide⟩

theorem witness_GuardCompletes_34 : ∃ (f : TField) (s : State) (q : Nat) (u : Tri (BitVec 13)),
    (f = .queueCtx q ∧ q < 65536) ∧ compare3 (s.queue q).ctx = .fixed u :=
  ⟨.queueCtx 0, ready.setQueue 0 { ctx := (⟨1, 1, 2⟩ : Tri (BitVec 13)) }, 0, _, by decide, rfl⟩

theorem witness_GuardCompletes_35 : ∃ (f : TField) (s : State) (q : Nat),
    (f = .queueCtx q ∧ q < 65536) ∧ compare3 (s.queue q).ctx = .lost :=
  ⟨.queueCtx 0, ready.setQueue 0 { ctx := (⟨1, 2, 3⟩ : Tri (BitVec 13)) }, 0, by decide⟩

theorem witness_GuardCompletes_36 : ∃ (f : TField) (s : State) (q : Nat),
    (f = .queueSlot q ∧ q < 65536) ∧ compare3 (s.queue q).slot = .same :=
  ⟨.queueSlot 0, ready.setQueue 0 { slot := (Tri.of 2) }, 0, by decide⟩

theorem witness_GuardCompletes_37 : ∃ (f : TField) (s : State) (q : Nat) (u : Tri (BitVec 12)),
    (f = .queueSlot q ∧ q < 65536) ∧ compare3 (s.queue q).slot = .fixed u :=
  ⟨.queueSlot 0, ready.setQueue 0 { slot := (⟨1, 1, 2⟩ : Tri (BitVec 12)) }, 0, _, by decide, rfl⟩

theorem witness_GuardCompletes_38 : ∃ (f : TField) (s : State) (q : Nat),
    (f = .queueSlot q ∧ q < 65536) ∧ compare3 (s.queue q).slot = .lost :=
  ⟨.queueSlot 0, ready.setQueue 0 { slot := (⟨1, 2, 3⟩ : Tri (BitVec 12)) }, 0, by decide⟩

theorem witness_GuardCompletes_39 : ∃ (f : TField) (s : State) (b : Nat),
    (f = .bankOwner b ∧ b < 32 ∧ s.astp = true) ∧ compare3 (s.bank b).owner = .same :=
  ⟨.bankOwner 0, ready.updBank 0 fun x => { x with owner := (Tri.of 2) }, 0, by decide⟩

theorem witness_GuardCompletes_40 : ∃ (f : TField) (s : State) (b : Nat) (u : Tri (BitVec 13)),
    (f = .bankOwner b ∧ b < 32 ∧ s.astp = true) ∧ compare3 (s.bank b).owner = .fixed u :=
  ⟨.bankOwner 0, ready.updBank 0 fun x => { x with owner := (⟨1, 1, 2⟩ : Tri (BitVec 13)) }, 0, _, by decide, rfl⟩

theorem witness_GuardCompletes_41 : ∃ (f : TField) (s : State) (b : Nat),
    (f = .bankOwner b ∧ b < 32 ∧ s.astp = true) ∧ compare3 (s.bank b).owner = .lost :=
  ⟨.bankOwner 0, ready.updBank 0 fun x => { x with owner := (⟨1, 2, 3⟩ : Tri (BitVec 13)) }, 0, by decide⟩

theorem witness_GuardCompletes_42 : ∃ (f : TField) (s : State) (a : Nat),
    (f = .arrGeom a ∧ a < 64) ∧ compare3 (s.arr a).geom = .same :=
  ⟨.arrGeom 0, { ready with arc := { ready.arc with arrays := [(0, { geom := (Tri.of 2) })] } }, 0, by decide⟩

theorem witness_GuardCompletes_43 : ∃ (f : TField) (s : State) (a : Nat) (u : Tri (Word)),
    (f = .arrGeom a ∧ a < 64) ∧ compare3 (s.arr a).geom = .fixed u :=
  ⟨.arrGeom 0, { ready with arc := { ready.arc with arrays := [(0, { geom := (⟨1, 1, 2⟩ : Tri (Word)) })] } }, 0, _, by decide, rfl⟩

theorem witness_GuardCompletes_44 : ∃ (f : TField) (s : State) (a : Nat),
    (f = .arrGeom a ∧ a < 64) ∧ compare3 (s.arr a).geom = .lost :=
  ⟨.arrGeom 0, { ready with arc := { ready.arc with arrays := [(0, { geom := (⟨1, 2, 3⟩ : Tri (Word)) })] } }, 0, by decide⟩

theorem witness_GuardCompletes_45 : ∃ (f : TField) (s : State) (a : Nat) (r : Nat),
    (f = .arrPos a r ∧ a < 64 ∧ r < 9) ∧ compare3 (look (Tri.of 0) (s.arr a).pos r) = .same :=
  ⟨.arrPos 0 0, { ready with arc := { ready.arc with arrays := [(0, { pos := [(0, (Tri.of 2))] })] } }, 0, 0, by decide⟩

theorem witness_GuardCompletes_46 : ∃ (f : TField) (s : State) (a : Nat) (r : Nat) (u : Tri (Word)),
    (f = .arrPos a r ∧ a < 64 ∧ r < 9) ∧ compare3 (look (Tri.of 0) (s.arr a).pos r) = .fixed u :=
  ⟨.arrPos 0 0, { ready with arc := { ready.arc with arrays := [(0, { pos := [(0, (⟨1, 1, 2⟩ : Tri (Word)))] })] } }, 0, 0, _, by decide, rfl⟩

theorem witness_GuardCompletes_47 : ∃ (f : TField) (s : State) (a : Nat) (r : Nat),
    (f = .arrPos a r ∧ a < 64 ∧ r < 9) ∧ compare3 (look (Tri.of 0) (s.arr a).pos r) = .lost :=
  ⟨.arrPos 0 0, { ready with arc := { ready.arc with arrays := [(0, { pos := [(0, (⟨1, 2, 3⟩ : Tri (Word)))] })] } }, 0, 0, by decide⟩

theorem witness_GuardCompletes_48 : ∃ (b : CheckBlock) (s : State) (o : CheckObj) (l : List CheckObj),
    ((s.ccr b).queue = o :: l ∧ s.stoppedAt b = false) ∧ (match o with | .partGen _ => false | .partRestore id => !s.restoreWaits id | _ => true) = true :=
  ⟨.sdma, { ready with ccrs := [(6, { queue := [.sdma 3] })] }, .sdma 3, [], by decide⟩

theorem witness_ClockCompletes_1 : ∃ (r : Req) (s : State),
    s.reachable r 0x10010 = true ∧ s.holds r = true :=
  ⟨.pf0, ready, by decide⟩

theorem witness_ClockCompletes_2 : ∃ (r : Req) (s : State),
    s.reachable r 0x10020 = true :=
  ⟨.pf0, ready, by decide⟩

theorem witness_ClockCompletes_3 : ∃ (r : Req) (w : Nat) (i : Nat) (hi : Bool) (s : State),
    (w < 4 ∧ i < 8) ∧ s.reachable r (0x10404 + w * 0x80 + i * 0x10 + 4 * b2n hi) = true :=
  ⟨.pf0, 0, 0, false, ready, by decide⟩

theorem witness_ClockCompletes_4 : ∃ (r : Req) (s : State),
    s.reachable r 0x60030 = true ∧ s.holds r = true :=
  ⟨.pf0, ready, by decide⟩

theorem witness_ClockCompletes_5 : ∃ (s : State),
    s.pwr.avsPend = true ∧ s.elapsed s.pwr.avsAt 1000000 = true :=
  ⟨{ ready with pwr := { avsPend := true }, clk := { ready.clk with alm := 1000000 } }, by decide⟩

theorem witness_ClockCompletes_6 : ∃ (s : State),
    s.clk.locked = true :=
  ⟨ready, by decide⟩

theorem witness_ClockCompletes_7 : ∃ (s : State),
    (s.clk.locked = false ∧ s.glb.start ≠ 0) :=
  ⟨{ ready with clk := {} }, by decide⟩

theorem witness_ClockCompletes_8 : ∃ (w : Nat) (i : Nat) (s : State),
    (w < 4 ∧ i < 8) ∧ (look {} s.clk.timers (8 * w + i)).en = true ∧ (look {} s.clk.timers (8 * w + i)).period = 0 ∧ (look {} s.clk.timers (8 * w + i)).deadline.toNat ≤ s.clk.alm.toNat :=
  ⟨0, 0, { ready with clk := { counting := true, timers := [(0, { en := true })] } }, by decide⟩

theorem witness_ClockCompletes_9 : ∃ (w : Nat) (i : Nat) (s : State),
    (w < 4 ∧ i < 8) ∧ (look {} s.clk.timers (8 * w + i)).en = true ∧ (look {} s.clk.timers (8 * w + i)).period ≠ 0 ∧ (look {} s.clk.timers (8 * w + i)).deadline.toNat ≤ s.clk.alm.toNat :=
  ⟨0, 0, { ready with clk := { counting := true, timers := [(0, { en := true, period := 5 })] } }, by decide⟩

theorem witness_ClockCompletes_10 : ∃ (s : State),
    (List.range 4).any s.linkUp = true ∧ (s.isSource = false ∧ s.timeSources ≠ []) :=
  ⟨{ linked with plk := { linked.plk with tsrc := false, peerTsrc := [(1, true)] } }, by decide⟩

theorem witness_ClockCompletes_11 : ∃ (s : State),
    (List.range 4).any s.linkUp = true ∧ (s.isSource = true ∨ s.timeSources = []) :=
  ⟨linked, by decide⟩

theorem witness_ClockCompletes_12 : ∃ (s : State),
    (s.isSource = true ∧ s.clk.counting = true) ∧ s.clk.tsyncDone < s.alm / 1000000 :=
  ⟨{ ready with clk := { ready.clk with alm := 1000000 } }, by decide⟩

theorem witness_ClockCompletes_13 : ∃ (s : State),
    (s.isSource = false ∧ s.glb.start ≠ 0) ∧ s.clk.counting = false :=
  ⟨{ ready with clk := {}, plk := { tsrc := false } }, by decide⟩

theorem witness_ClockCompletes_14 : ∃ (s : State),
    (s.isSource = false ∧ s.glb.start ≠ 0) ∧ (s.clk.counting = true ∧ s.timeSources = []) :=
  ⟨{ ready with plk := { tsrc := false } }, by decide⟩

theorem witness_ClockCompletes_15 : ∃ (s : State),
    (s.isSource = false ∧ s.glb.start ≠ 0) ∧ (s.clk.counting = true ∧ s.timeSources ≠ []) :=
  ⟨{ linked with plk := { linked.plk with tsrc := false, peerTsrc := [(1, true)] } }, by decide⟩

theorem witness_ClockCompletes_16 : ∃ (s : State),
    (s.plk.tsrc = false ∧ s.clk.counting = false ∧ s.glb.start ≠ 0) :=
  ⟨{ ready with clk := {}, plk := { tsrc := false } }, by decide⟩

theorem witness_ClockCompletes_17 : ∃ (s : State),
    (s.plk.tsrc = true ∧ s.clk.counting = false ∧ s.glb.start ≠ 0) :=
  ⟨{ ready with clk := {} }, by decide⟩

theorem witness_ClockCompletes_18 : ∃ (s : State),
    s.isSource = false :=
  ⟨{ ready with plk := { tsrc := false } }, by decide⟩

theorem witness_ClockCompletes_19 : ∃ (tj : BitVec 11) (s : State),
    (tj.toNat < 960 || s.pwr.thermTrip) = true :=
  ⟨0x330, ready, by decide⟩

theorem witness_ClockCompletes_20 : ∃ (tj : BitVec 11) (s : State),
    (960 ≤ tj.toNat ∧ s.pwr.thermTrip = false) :=
  ⟨0x3C0, ready, by decide⟩

theorem witness_ClockCompletes_21 : ∃ (up : Bool) (s : State),
    (up = true ∧ s.pwr.thrZone = 2) ∧ s.elapsed s.pwr.thrAt 10000000 = true :=
  ⟨true, { ready with pwr := { thrZone := 2 }, clk := { ready.clk with alm := 10000000 } }, by decide⟩

theorem witness_ClockCompletes_22 : ∃ (up : Bool) (s : State),
    (up = false ∧ s.pwr.thrZone = 0) ∧ s.elapsed s.pwr.thrAt 10000000 = true ∧ (s.divWritten.getD (tri s.clk.pdiv)).toNat < ((s.divWritten.map s.clk.effAfter).getD s.clk.pdivEff).toNat :=
  ⟨false, { ready with pwr := { thrZone := 0 }, clk := { ready.clk with alm := 10000000, pdivEff := 5 } }, by decide⟩

theorem witness_EventCompletes_1 : ∃ (src : Nat) (s : State),
    (src < 2048 ∧ isLevel src = false ∧ srcReserved src = false ∧ s.srcAbsent src = false) :=
  ⟨75, ready, by decide⟩

theorem witness_EventCompletes_2 : ∃ (src : Nat) (s : State),
    (isLevel src = true ∧ s.srcAbsent src = false ∧ s.levelIn src = true) ∧ ((s.route src).act = false ∨ s.evc.gated = true) :=
  ⟨0, ready, by decide⟩

theorem witness_EventCompletes_3 : ∃ (src : Nat) (s : State),
    (isLevel src = true ∧ s.srcAbsent src = false ∧ s.levelIn src = true) ∧ ((s.route src).act = true ∧ s.evc.gated = false) :=
  ⟨0, { ready with evc := { routes := [(0, { act := true })] } }, by decide⟩

theorem witness_EventCompletes_4 : ∃ (pin : Nat) (level : Bool) (s : State),
    (pin < 4 ∧ (s.pin pin).raw ≠ level) :=
  ⟨0, true, ready, by decide⟩

theorem witness_EventCompletes_5 : ∃ (pin : Nat) (s : State),
    (pin = 1 ∧ (s.pin pin).counting = true ∧ (s.pin pin).raw = true) ∧ (s.pin pin).filtUsed = 0 :=
  ⟨1, { ready with evc := { pins := [(1, { raw := true, counting := true })] } }, by decide⟩

theorem witness_EventCompletes_6 : ∃ (pin : Nat) (s : State),
    (pin = 1 ∧ (s.pin pin).counting = true ∧ (s.pin pin).raw = false) ∧ (s.pin pin).filtUsed = 0 :=
  ⟨1, { ready with evc := { pins := [(1, { raw := false, counting := true })] } }, by decide⟩

theorem witness_EventCompletes_7 : ∃ (pin : Nat) (s : State),
    (pin < 4 ∧ pin ≠ 1 ∧ (s.pin pin).counting = true) ∧ (s.pin pin).filtUsed = 0 :=
  ⟨0, { ready with evc := { pins := [(0, { raw := true, counting := true })] } }, by decide⟩

theorem witness_EventCompletes_8 : ∃ (w : Nat) (s : State) (k : Nat × Nat × Nat),
    (s.stw w).seq = none ∧ firstCand (s.stwCands w) = some k ∧ (w < 4 ∧ (s.stw w).inService = true) ∧ (k.1 < (s.stw w).cur ∧ (s.stw w).stack.length < 16) :=
  ⟨0, { ready with evc := { routes := [(75, { en := true, pend := true })] } }, _, rfl, rfl, by decide, by decide⟩

theorem witness_EventCompletes_9 : ∃ (w : Nat) (s : State) (k : Nat × Nat × Nat) (q : StwSeq),
    (s.stw w).seq = some q ∧ s.takeover w q = some k ∧ (w < 4 ∧ (s.stw w).inService = true ∧ (q.exiting = true → q.k ≠ 0)) :=
  ⟨0, { ready with evc := { routes := [(75, { en := true, pend := true })] }, stws := [(0, { seq := some { exiting := false, k := 3, prio := 9, src := 76 } })] }, _, _, rfl, rfl, by decide⟩

theorem witness_EventCompletes_10 : ∃ (w : Nat) (s : State) (f : StwFrame) (l : List StwFrame),
    (s.stw w).stack = f :: l ∧ (s.stw w).seq = none :=
  ⟨0, { ready with stws := [(0, { stack := [{ pc := 0, status := 0, g := [], prio := 16, src := 75 }] })] }, _, _, rfl, rfl⟩

theorem witness_EventCompletes_11 : ∃ (s : State) (k : Nat × Nat × Nat),
    firstCand s.pf0Cands = some k :=
  ⟨{ ready with evc := { routes := [(75, { en := true, pend := true, pf0 := true })] } }, _, rfl⟩

theorem witness_EventCompletes_12 : ∃ (r : Req) (s : State),
    s.reachable r 0x20204 = true :=
  ⟨.pf0, ready, by decide⟩

theorem witness_EventCompletes_13 : ∃ (r : Req) (s : State),
    s.reachable r 0x20200 = true :=
  ⟨.pf0, ready, by decide⟩

theorem witness_EventCompletes_14 : ∃ (r : Req) (src : Nat) (s : State),
    (src < 2048 ∧ s.reachable r (0x2A000 + 4 * src) = true) :=
  ⟨.pf0, 0, ready, by decide⟩

theorem witness_SdmaCompletes_1 : ∃ (r : Req) (c : Nat) (s : State),
    (c < 64 ∧ s.reachable r (0x3A000 + c * 0x40 + 0x14) = true) :=
  ⟨.pf0, 0, ready, by decide⟩

theorem witness_SdmaCompletes_4 : ∃ (c : Nat) (request : Bool) (s : State),
    (c < 64 ∧ s.pwr.ps ≠ 2 ∧ s.pwr.phase ≠ 3 ∧ (s.chan c).state = 1) ∧ ((s.chan c).reqsel = 0 ∨ request = s.sdmaRequest c) :=
  ⟨0, true, { ready with sdma := [(0, { state := 1 })] }, by decide⟩

theorem witness_SdmaCompletes_5 : ∃ (c : Nat) (s : State),
    (c < 64 ∧ s.pwr.ps ≠ 2 ∧ (s.chan c).state = 3) :=
  ⟨0, { ready with sdma := [(0, { state := 3 })] }, by decide⟩

theorem witness_SdmaCompletes_6 : ∃ (c : Nat) (s : State),
    (c < 64 ∧ s.pwr.ps ≠ 2 ∧ (s.chan c).state = 1 ∧ (s.chan c).tmoUs ≠ 0) ∧ s.elapsed (s.chan c).armedAt (1000 * (s.chan c).tmoUs.toNat) = true :=
  ⟨0, { ready with sdma := [(0, { state := 1, tmoUs := 1 })], clk := { ready.clk with alm := 1000 } }, by decide⟩

theorem witness_SdmaCompletes_7 : ∃ (c : Nat) (res : BusResult) (s : State),
    (c < 64 ∧ (s.chan c).state = 2) ∧ s.sdmaReaches (s.chan c).sspace = true ∧ s.sdmaReaches (s.chan c).dspace = true ∧ res = .err :=
  ⟨0, .err, { ready with sdma := [(0, { state := 2, cnt := 4, ctl := 0xA0 })] }, by decide⟩

theorem witness_SdmaCompletes_8 : ∃ (c : Nat) (res : BusResult) (s : State) (a : Nat),
    (c < 64 ∧ (s.chan c).state = 2) ∧ s.sdmaReaches (s.chan c).sspace = true ∧ s.sdmaReaches (s.chan c).dspace = true ∧ res = .ok ∧ s.sdmaRead (s.chan c).sspace (s.chan c).srcAt (s.chan c).burstLen (s.chan c).sfix = .error a :=
  ⟨0, .ok, { ready with sdma := [(0, { state := 2, cnt := 4, ctl := 0xB0, src := 8 })] }, _, by decide, rfl, rfl, rfl, rfl⟩

theorem witness_SdmaCompletes_9 : ∃ (c : Nat) (res : BusResult) (s : State) (bs : List Byte) (t : State) (a : Nat),
    (c < 64 ∧ (s.chan c).state = 2) ∧ s.sdmaReaches (s.chan c).sspace = true ∧ s.sdmaReaches (s.chan c).dspace = true ∧ res = .ok ∧ s.sdmaRead (s.chan c).sspace (s.chan c).srcAt (s.chan c).burstLen (s.chan c).sfix = .ok bs ∧ s.sdmaWrite (s.chan c).dspace (s.chan c).dstAt (s.chan c).dfix bs = (t, some a) :=
  ⟨0, .ok, { ready with sdma := [(0, { state := 2, cnt := 4, ctl := 0xE0, dst := 8 })] }, _, _, _, by decide, rfl, rfl, rfl, rfl, rfl⟩

theorem witness_SdmaCompletes_10 : ∃ (c : Nat) (res : BusResult) (s : State) (bs : List Byte) (t : State),
    (c < 64 ∧ (s.chan c).state = 2) ∧ s.sdmaReaches (s.chan c).sspace = true ∧ s.sdmaReaches (s.chan c).dspace = true ∧ res = .ok ∧ s.sdmaRead (s.chan c).sspace (s.chan c).srcAt (s.chan c).burstLen (s.chan c).sfix = .ok bs ∧ s.sdmaWrite (s.chan c).dspace (s.chan c).dstAt (s.chan c).dfix bs = (t, none) :=
  ⟨0, .ok, { ready with sdma := [(0, { state := 2, cnt := 4, ctl := 0xA0 })] }, _, _, by decide, rfl, rfl, rfl, rfl, rfl⟩

theorem witness_SdmaCompletes_11 : ∃ (c : Nat) (res : BusResult) (s : State) (bs : List Byte),
    (c < 64 ∧ (s.chan c).state = 4 ∧ s.sdmaReaches (s.chan c).dspace = true) ∧ res = .ok ∧ s.sdmaRead (s.chan c).dspace (s.chan c).lastWord 4 (s.chan c).dfix = .ok bs :=
  ⟨0, .ok, { ready with sdma := [(0, { state := 4, cnt := 4, done := 4, ctl := 0xA0 })] }, _, by decide, by decide, rfl⟩

theorem witness_SdmaCompletes_12 : ∃ (c : Nat) (res : BusResult) (s : State),
    (c < 64 ∧ (s.chan c).state = 4 ∧ s.sdmaReaches (s.chan c).dspace = true) ∧ (res = .err ∨ (s.sdmaRead (s.chan c).dspace (s.chan c).lastWord 4 (s.chan c).dfix).toOption = none) :=
  ⟨0, .err, { ready with sdma := [(0, { state := 4, cnt := 4, retry := 2 })] }, by decide⟩

theorem witness_VigilCompletes_1 : ∃ (phys : Nat) (check : Byte) (s : State),
    (phys < s.tilesPhys ∧ (check = 1 ∨ check = 3 ∨ check = 4 ∨ check = 5 ∨ check = 6)) :=
  ⟨0, 1, ready, by decide⟩

theorem witness_VigilCompletes_2 : ∃ (stw : Bool) (n : Nat) (s : State),
    (stw = false ∧ n < s.tilesPhys) :=
  ⟨false, 0, ready, by decide⟩

theorem witness_VigilCompletes_3 : ∃ (stw : Bool) (n : Nat) (s : State),
    (stw = true ∧ n < 4 ∧ (s.stw n).inService = true ∧ s.stewards ≠ [n]) :=
  ⟨true, 0, ready, by decide⟩

theorem witness_VigilCompletes_4 : ∃ (stw : Bool) (n : Nat) (s : State),
    (stw = true ∧ n < 4 ∧ (s.stw n).inService = true ∧ s.stewards = [n]) :=
  ⟨true, 0, { ready with stws := [(1, { inService := false }), (2, { inService := false }), (3, { inService := false })] }, by decide⟩

theorem witness_VigilCompletes_5 : ∃ (l : Nat) (s : State) (p : Nat) (k : List (Nat × Nat)),
    s.vigil.sparing = (l, p) :: k :=
  ⟨0, { ready with vigil := { sparing := [(0, 16)] } }, 16, [], by decide⟩

theorem witness_VigilCompletes_6 : ∃ (r : Req) (i : Nat) (s : State),
    (i < 4 ∧ s.reachable r (0x50 + 4 * i) = true ∧ s.holds r = true) :=
  ⟨.pf0, 0, ready, by decide⟩

theorem witness_VigilCompletes_7 : ∃ (s : State) (l : Nat) (p : Nat) (out : Bool),
    s.vigil.swap = some (l, p, out) ∧ p ≠ 0x1F ∧ (s.flightsOn (s.physOf l)).isEmpty = true :=
  ⟨{ ready with vigil := { swap := some (0, 16, false) } }, 0, 16, false, by decide⟩

theorem witness_VigilCompletes_8 : ∃ (s : State) (l : Nat) (out : Bool),
    s.vigil.swap = some (l, 0x1F, out) ∧ (s.flightsOn (s.physOf l)).isEmpty = true :=
  ⟨{ ready with vigil := { swap := some (0, 31, false) } }, 0, false, by decide⟩

theorem witness_VigilCompletes_9 : ∃ (r : Req) (s : State),
    (s.reachable r 0x40100 = true ∧ s.holds r = true) :=
  ⟨.pf0, ready, by decide⟩

theorem witness_VigilCompletes_12 : ∃ (pass : Bool) (s : State),
    (s.vigil.svcBusy = true ∧ s.svcReady = true) ∧ (bits s.vigil.svcCtl.toNat 19 18 = 1 ∧ pass = true) :=
  ⟨true, { ready with vigil := { svcBusy := true, svcCtl := 0x00040000 } }, by decide⟩

theorem witness_VigilCompletes_13 : ∃ (s : State),
    (s.vigil.svcBusy = true ∧ s.svcReady = true) ∧ (bits s.vigil.svcCtl.toNat 19 18 = 0 ∧ bits s.vigil.svcCtl.toNat 23 20 ≠ 1) :=
  ⟨{ ready with vigil := { svcBusy := true } }, by decide⟩

theorem witness_VigilCompletes_14 : ∃ (r : Req) (s : State),
    s.reachable r 0x40018 = true :=
  ⟨.pf0, ready, by decide⟩

theorem witness_VigilCompletes_15 : ∃ (r : Req) (s : State),
    s.reachable r 0x4001C = true :=
  ⟨.pf0, ready, by decide⟩

theorem witness_VigilCompletes_16 : ∃ (pass : Bool) (s : State),
    (s.vigil.svcBusy = false ∧ s.vigil.swap.isSome = false ∧ s.vigil.sparing.isEmpty = true) ∧ pass = true :=
  ⟨true, ready, by decide⟩

theorem witness_VigilCompletes_17 : ∃ (blk : Byte) (n : Nat) (pass : Bool) (s : State) (t : State),
    (s.vigil.svcBusy = false ∧ s.vigil.swap.isSome = false ∧ s.vigil.sparing.isEmpty = true) ∧ (pass = false ∧ s.checkerOut blk.toNat n = some (t, true)) :=
  ⟨0x10, 0, false, ready, _, by decide, ⟨rfl, rfl⟩⟩

theorem witness_VigilCompletes_18 : ∃ (blk : Byte) (n : Nat) (pass : Bool) (s : State),
    (s.vigil.svcBusy = false ∧ s.vigil.swap.isSome = false ∧ s.vigil.sparing.isEmpty = true) ∧ (pass = false ∧ s.checkerOut blk.toNat n = none) :=
  ⟨0x38, 0, false, ready, by decide, ⟨rfl, rfl⟩⟩

theorem witness_VigilCompletes_19 : ∃ (blk : Byte),
    (blk = 0x01 ∨ blk = 0x34 ∨ blk = 0xF0 ∨ blk = 0x05) :=
  ⟨0x05, by decide⟩

theorem witness_TrustCompletes_1 : ∃ (r : Req) (s : State),
    (s.reachable r 0x50038 = true ∧ s.holds r = true) :=
  ⟨.pf0, ready, by decide⟩

theorem witness_TrustCompletes_2 : ∃ (r : Req) (s : State),
    (s.reachable r 0x50020 = true ∧ s.holds r = true) :=
  ⟨.pf0, ready, by decide⟩

theorem witness_TrustCompletes_4 : ∃ (side : Bool) (r : Req) (s : State),
    (if side then 2 ≤ s.glb.start else s.reachable r 0x50100 = true) :=
  ⟨false, .pf0, ready, by decide⟩

theorem witness_TrustCompletes_5 : ∃ (side : Bool) (r : Req) (s : State),
    (if side then 2 ≤ s.glb.start else s.reachable r 0x50108 = true) :=
  ⟨false, .pf0, ready, by decide⟩

theorem witness_TrustCompletes_6 : ∃ (side : Bool) (r : Req) (s : State),
    (if side then 2 ≤ s.glb.start else s.reachable r 0x50108 = true ∧ s.holder r = none) :=
  ⟨false, .pf0, ready, by decide⟩

theorem witness_TrustCompletes_7 : ∃ (s : State),
    (s.trust.mbx ≠ 0 ∧ s.trust.mbxSide = true) ∧ s.elapsed s.trust.mbxAt 1000000000 = true :=
  ⟨{ ready with trust := { mbx := 1, mbxSide := true }, clk := { ready.clk with alm := 1000000000 } }, by decide⟩

theorem witness_TrustCompletes_8 : ∃ (s : State),
    (s.trust.mbx = 2 ∧ s.trust.mbxCmd = 1 ∧ s.trust.mbxLen = 0) :=
  ⟨{ ready with trust := { mbx := 2, mbxCmd := 1 } }, by decide⟩

theorem witness_TrustCompletes_9 : ∃ (s : State) (q : List Byte),
    (s.trust.mbx = 2 ∧ s.trust.mbxCmd = 2 ∧ s.trust.mbxLen = 12) ∧ q = sub (wordsToBytes s.trust.mbxIn) 0 12 ∧ (fieldLE q 0 1 ≤ 1 ∧ fieldLE q 1 3 = 0 ∧ fieldLE q 8 4 ≤ 65536) :=
  ⟨{ ready with trust := { mbx := 2, mbxCmd := 2, mbxLen := 12 } }, _, by decide, rfl, by decide⟩

theorem witness_TrustCompletes_10 : ∃ (s : State) (q : List Byte),
    (s.trust.mbx = 2 ∧ s.trust.mbxCmd = 3 ∧ s.trust.mbxLen = 32) ∧ q = sub (wordsToBytes s.trust.mbxIn) 0 32 :=
  ⟨{ ready with trust := { mbx := 2, mbxCmd := 3, mbxLen := 32 } }, _, by decide, rfl⟩

theorem witness_TrustCompletes_11 : ∃ (flashOk : Bool) (s : State) (q : List Byte),
    (s.trust.mbx = 2 ∧ s.trust.mbxCmd = 4 ∧ 9 ≤ s.trust.mbxLen.toNat ∧ s.trust.mbxLen.toNat ≤ 65544) ∧ q = sub (wordsToBytes s.trust.mbxIn) 0 s.trust.mbxLen.toNat ∧ (fieldLE q 0 4 % 65536 = 0 ∧ fieldLE q 0 4 + 65536 ≤ slotBytes ∧ fieldLE q 4 4 = 0) ∧ flashOk = true :=
  ⟨true, { ready with trust := { mbx := 2, mbxCmd := 4, mbxLen := 9 } }, _, by decide, rfl, by decide, by decide⟩

theorem witness_TrustCompletes_12 : ∃ (s : State),
    (s.trust.mbx = 2 ∧ s.trust.mbxCmd = 5 ∧ s.trust.mbxLen = 0) :=
  ⟨{ ready with trust := { mbx := 2, mbxCmd := 5 } }, by decide⟩

theorem witness_SpdmCompletes_1 : ∃ (s : State),
    s.trust.boot = 2 :=
  ⟨spdmState, by decide⟩

theorem witness_SpdmCompletes_8 : ∃ (handle : Nat) (seq : Nat) (last : Bool) (data : List Byte) (s : State) (bs : List Byte),
    (s.trust.boot = 2 ∧ 2 ≤ s.trust.spdm.phase) ∧ s.trust.spdm.chunk handle seq data = some bs ∧ last = false :=
  ⟨0, 0, false, [], spdmState, _, by decide, rfl, by decide⟩

theorem witness_SpdmCompletes_9 : ∃ (handle : Nat) (seq : Nat) (s : State) (n : Nat) (bs : List Byte),
    s.trust.boot = 2 ∧ s.trust.spdm.chunkOut = some (handle, seq, bs) ∧ n = s.trust.spdm.xfer - 12 - (if seq = 0 then 4 else 0) :=
  ⟨0, 0, { spdmState with trust := { spdmState.trust with spdm := { phase := 3, xfer := 42, chunkOut := some (0, 0, [1]) } } }, 26, [1], by decide⟩

theorem witness_SpdmCompletes_10 : ∃ (s : State),
    s.trust.boot ≠ 2 :=
  ⟨ready, by decide⟩

theorem witness_ResetCompletes_1 : ∃ (env : BootEnv) (s : State),
    (env.failStack = none ∨ ∃ n, env.failStack = some n ∧ n < s.stacks) :=
  ⟨{ devid := 0, failTiles := 0, failStack := none, bootId := 0, hostUp := true }, ready, Or.inl rfl⟩

theorem witness_ResetCompletes_2 : ∃ (r : Req) (env : BootEnv) (s : State),
    (env.failStack = none ∨ ∃ n, env.failStack = some n ∧ n < s.stacks) ∧ (s.reachable r 0x60010 = true ∧ s.holds r = true) :=
  ⟨.pf0, { devid := 0, failTiles := 0, failStack := none, bootId := 0, hostUp := true }, ready, Or.inl rfl, by decide⟩

theorem witness_ResetCompletes_4 : ∃ (cause : HostResetCause),
    cause = .perst :=
  ⟨.perst, by decide⟩

theorem witness_ResetCompletes_5 : ∃ (cause : HostResetCause) (s : State),
    (cause = .pf0Flr ∧ s.hif.portUp = true) :=
  ⟨.pf0Flr, ready, by decide⟩

theorem witness_ResetCompletes_6 : ∃ (cause : HostResetCause) (s : State),
    (cause = .vfEnableCleared ∧ s.hif.portUp = true ∧ s.hif.vfEnable = true) :=
  ⟨.vfEnableCleared, vfState, by decide⟩

theorem witness_ResetCompletes_7 : ∃ (s : State),
    (s.hif.portUp = false ∧ s.glb.start ≠ 0) :=
  ⟨{ ready with hif := {} }, by decide⟩

theorem witness_ResetCompletes_8 : ∃ (numVfs : Nat) (s : State),
    (1 ≤ numVfs ∧ numVfs ≤ 4096 ∧ s.hif.portUp = true ∧ s.hif.vfEnable = false) ∧ s.glb.start = 5 :=
  ⟨2, ready, by decide⟩

theorem witness_ResetCompletes_9 : ∃ (n : Nat) (s : State),
    s.vfExists n = true :=
  ⟨1, vfState, by decide⟩

theorem witness_ResetCompletes_10 : ∃ (fn : Nat) (s : State),
    (s.fnExists fn = true ∧ (s.func fn).d3hot = false) :=
  ⟨0, ready, by decide⟩

theorem witness_ResetCompletes_11 : ∃ (fn : Nat) (s : State),
    (s.fnExists fn = true ∧ (s.func fn).d3hot = true) :=
  ⟨0, { ready with hif := { funcs := [(0, { d3hot := true })] } }, by decide⟩

theorem witness_ResetCompletes_12 : ∃ (fn : Nat) (s : State),
    (s.fnExists fn = true ∧ (s.func fn).bme = true) :=
  ⟨0, ready, by decide⟩

theorem witness_ResetCompletes_13 : ∃ (fn : Nat) (s : State),
    (s.fnExists fn = true ∧ (s.func fn).bme = false) :=
  ⟨0, { ready with hif := {} }, by decide⟩

theorem witness_QueueCompletes_1 : ∃ (r : Req) (q : Nat) (s : State),
    (q < 65536 ∧ s.reachable r (0x800000 + q * 0x40) = true) :=
  ⟨.pf0, 0, ready, by decide⟩

theorem witness_QueueCompletes_5 : ∃ (r : Req) (win : Nat) (s : State) (q : Nat),
    s.reachesBar2 r win = true ∧ s.windowQueue r win = some q :=
  ⟨.pf0, 0, fetchState, 0, by decide⟩

theorem witness_QueueCompletes_6 : ∃ (r : Req) (win : Nat) (off : Nat) (ws : List Word) (s : State) (q : Nat),
    (s.reachesBar2 r win = true ∧ off < 256 ∧ off % 4 = 0 ∧ off + 4 * ws.length ≤ 256 ∧ ws ≠ []) ∧ s.windowQueue r win = some q :=
  ⟨.pf0, 0, 0, [7], fetchState, 0, by decide⟩

theorem witness_QueueCompletes_8 : ∃ (q : Nat) (s : State),
    (q < 65536 ∧ s.hasEntry q = true ∧ s.hasTurn q = true) ∧ s.placeOn (s.queue q).cqq.toNat = none :=
  ⟨0, { fetchState with hif := { fetchState.hif with ovfMib := 0, queues := [(0, { sqen := true, cqen := true, sqp := 1, cqp := 1, ctx := Tri.of 0x1000 })] } }, by decide⟩

theorem witness_QueueCompletes_9 : ∃ (q : Nat) (s : State) (pl : Place) (u : State),
    (q < 65536 ∧ s.hasEntry q = true ∧ s.hasTurn q = true) ∧ s.placeOn (s.queue q).cqq.toNat = some pl ∧ (u = (s.takeTurn q).updQueue q fun z => { z with fstop := false }) ∧ u.slotFails q (u.queue q).sqc = true :=
  ⟨0, { fetchState with hostBad := [(0, 64)] }, _, _, by decide +kernel, rfl, rfl, by decide +kernel⟩

theorem witness_QueueCompletes_10 : ∃ (q : Nat) (s : State) (pl : Place) (u : State),
    (q < 65536 ∧ s.hasEntry q = true ∧ s.hasTurn q = true) ∧ s.placeOn (s.queue q).cqq.toNat = some pl ∧ (u = (s.takeTurn q).updQueue q fun z => { z with fstop := false }) ∧ u.slotFails q (u.queue q).sqc = false ∧ fieldLE (u.slots q (u.queue q).sqc (u.entrySlots q)) 0 1 = 0 :=
  ⟨0, fetchState, _, _, by decide +kernel, rfl, rfl, by decide +kernel, by decide +kernel⟩

theorem witness_QueueCompletes_11 : ∃ (q : Nat) (s : State) (pl : Place) (u : State) (bs : List Byte),
    (q < 65536 ∧ s.hasEntry q = true ∧ s.hasTurn q = true) ∧ s.placeOn (s.queue q).cqq.toNat = some pl ∧ (u = (s.takeTurn q).updQueue q fun z => { z with fstop := false }) ∧ u.slotFails q (u.queue q).sqc = false ∧ bs = u.slots q (u.queue q).sqc (u.entrySlots q) ∧ fieldLE bs 0 1 ≠ 0 ∧ ((List.range (u.entrySlots q)).any (fun i => u.slotFails q ((u.queue q).sqc + BitVec.ofNat 32 i)) = false) ∧ headerStatus bs (u.queueFn q) (u.entrySlots q < fieldLE bs 1 1 % 32 + 1) = 0 :=
  ⟨0, { fetchState with hostMem := [(0, 0x80)] }, _, _, _, by decide +kernel, rfl, rfl, by decide +kernel, rfl, by decide +kernel, by decide +kernel, by decide +kernel⟩

theorem witness_QueueCompletes_12 : ∃ (q : Nat) (s : State) (pl : Place) (u : State) (bs : List Byte),
    (q < 65536 ∧ s.hasEntry q = true ∧ s.hasTurn q = true) ∧ s.placeOn (s.queue q).cqq.toNat = some pl ∧ (u = (s.takeTurn q).updQueue q fun z => { z with fstop := false }) ∧ u.slotFails q (u.queue q).sqc = false ∧ bs = u.slots q (u.queue q).sqc (u.entrySlots q) ∧ fieldLE bs 0 1 ≠ 0 ∧ ((List.range (u.entrySlots q)).any (fun i => u.slotFails q ((u.queue q).sqc + BitVec.ofNat 32 i)) = false) ∧ headerStatus bs (u.queueFn q) (u.entrySlots q < fieldLE bs 1 1 % 32 + 1) ≠ 0 :=
  ⟨0, { fetchState with hostMem := [(0, 0xFF)] }, _, _, _, by decide +kernel, rfl, rfl, by decide +kernel, rfl, by decide +kernel, by decide +kernel, by decide +kernel⟩

theorem witness_QueueCompletes_13 : ∃ (q : Nat) (s : State),
    (q < 65536 ∧ s.hasEntry q = true ∧ (s.placeOn (s.queue q).cqq.toNat).isSome = true ∧ (s.func (s.queueFn q)).ctoDisable = false) ∧ ((List.range (s.entrySlots q)).any (fun i => (look none (s.queue q).pushed (((s.queue q).sqc + BitVec.ofNat 32 i).toNat * 32)).isNone) = true) :=
  ⟨0, fetchState, by decide⟩

theorem witness_QueueCompletes_14 : ∃ (q : Nat) (s : State),
    (q < 65536 ∧ (s.queue q).modTimer = true ∧ (s.queue q).modUs ≠ 0 ∧ (s.queue q).modPend ≠ 0) ∧ ((s.queue q).ien = true ∧ s.elapsed (s.queue q).modAt (1000 * (s.queue q).modUs.toNat) = true) :=
  ⟨0, { ready with hif := { ready.hif with queues := [(0, { ien := true, modTimer := true, modUs := 5, modPend := 1 })] }, clk := { ready.clk with alm := 5000 } }, by decide⟩

theorem witness_QueueCompletes_15 : ∃ (fn : Nat) (vec : Nat) (s : State),
    (fn = 0 ∨ s.vfExists fn = true) ∧ (vec < s.vectorsOf fn ∧ look false (s.func fn).unmasked vec = false ∧ look false (s.func fn).pba vec = true) :=
  ⟨0, 0, { ready with hif := { funcs := [(0, { pba := [(0, true)] })] } }, by decide⟩

theorem witness_QueueCompletes_16 : ∃ (id : Nat) (s : State) (k : Cmd),
    s.cmd? id = some k ∧ (k.ctmo ≠ 0 ∧ s.notStarted k = true ∧ s.elapsed k.fetchedAt (1000000 * k.ctmo.toNat) = true) :=
  ⟨0, { ready with hif := { ready.hif with cmds := [{ ringCmd 0x49 64 [] with ctmo := 1 }] }, clk := { ready.clk with alm := 1000000 } }, { ringCmd 0x49 64 [] with ctmo := 1 }, by decide⟩

theorem witness_QueueCompletes_17 : ∃ (id : Nat) (s : State) (k : Cmd) (q : Nat),
    s.cmd? id = some k ∧ (s.hostReadOpen k = true ∧ s.hostWaits k = false ∧ (s.func (fnOf k.ctx.toNat)).ctoDisable = false ∧ k.origin = .ring q) :=
  ⟨0, ringState 0x01 32 [], ringCmd 0x01 32 [], 0, by decide⟩

theorem witness_PowerStateCompletes_1 : ∃ (id : Nat) (s : State) (c : Cmd),
    s.ready id 0x80 c = true ∧ (c.zeros [(10, 2), (14, 2), (20, 12)] = true ∧ c.f 9 1 < 2) ∧ (c.f 8 1 ≤ 2 ∧ (if c.f 8 1 = 1 then c.f 12 2 ≠ 0 ∧ c.f 12 2 < s.tilesSvc else c.f 12 2 = 0)) ∧ (s.pwr.phase = 0 ∧ c.f 8 1 = s.pwr.ps) :=
  ⟨0, (ringState 0x80 32 []), ringCmd 0x80 32 [], by decide⟩

theorem witness_PowerStateCompletes_2 : ∃ (id : Nat) (s : State) (c : Cmd),
    s.ready id 0x80 c = true ∧ (c.zeros [(10, 2), (14, 2), (20, 12)] = true ∧ c.f 9 1 < 2) ∧ (c.f 8 1 = 1 ∧ c.f 12 2 ≠ 0 ∧ c.f 12 2 < s.tilesSvc) ∧ (s.pwr.phase = 0 ∧ s.pwr.ps = 0) :=
  ⟨0, (ringState 0x80 32 [(8, 1, 1), (12, 2, 3)]), ringCmd 0x80 32 [(8, 1, 1), (12, 2, 3)], by decide⟩

theorem witness_PowerStateCompletes_3 : ∃ (id : Nat) (s : State) (c : Cmd),
    s.ready id 0x80 c = true ∧ (c.zeros [(10, 2), (14, 2), (20, 12)] = true ∧ c.f 9 1 < 2) ∧ (c.f 8 1 = 2 ∧ c.f 12 2 = 0) ∧ (s.pwr.phase = 0 ∧ s.pwr.ps < 2) :=
  ⟨0, (ringState 0x80 32 [(8, 1, 2)]), ringCmd 0x80 32 [(8, 1, 2)], by decide⟩

theorem witness_PowerStateCompletes_4 : ∃ (id : Nat) (s : State) (c : Cmd),
    s.ready id 0x80 c = true ∧ (c.zeros [(10, 2), (14, 2), (20, 12)] = true ∧ c.f 9 1 < 2) ∧ (c.f 8 1 = 0 ∧ c.f 12 2 = 0) ∧ (s.pwr.phase = 0 ∧ 0 < s.pwr.ps) :=
  ⟨0, { ringState 0x80 32 [] with pwr := { ps := 1 } }, ringCmd 0x80 32 [], by decide⟩

theorem witness_PowerStateCompletes_5 : ∃ (s : State),
    (s.pwr.phase = 2 ∧ s.hif.cmds.all (fun k => some k.id = s.pwr.cmd) = true) :=
  ⟨{ ready with pwr := { phase := 2 } }, by decide⟩

theorem witness_PowerStateCompletes_6 : ∃ (s : State) (id : Nat),
    (s.pwr.phase = 1 ∧ s.pwr.cmd = some id ∧ s.hif.cmds.any (fun k => id < k.id) = false) ∧ ((s.tilesFrom s.pwr.tiles).all (fun t => (s.tile t).flights.isEmpty) = true) :=
  ⟨{ ringState 0x80 32 [] with pwr := { phase := 1, target := 1, cmd := some 0, tiles := 3 } }, 0, by decide⟩

theorem witness_PowerStateCompletes_7 : ∃ (s : State),
    (s.pwr.phase = 3 ∧ s.hif.cmds.all (fun k => some k.id = s.pwr.cmd) = true) ∧ (s.sdmaIdle = true ∧ s.arc.arrays.all (fun e => e.2.state = 0 || e.2.flushed) = true) :=
  ⟨{ ready with pwr := { phase := 3, target := 2 } }, by decide⟩

theorem witness_PowerStateCompletes_8 : ∃ (s : State),
    (s.pwr.phase = 2 ∨ s.pwr.phase = 3) ∧ ((s.pwr.cmd.bind s.cmd?).any (fun c => s.elapsed c.fetchedAt (1000000 * c.tmoMs)) = true) :=
  ⟨{ ringState 0x80 32 [] with pwr := { phase := 2, target := 2, cmd := some 0 }, clk := { ready.clk with alm := 1000000000000 } }, by decide⟩

theorem witness_PowerStateCompletes_9 : ∃ (s : State),
    s.pwr.phase = 1 ∧ ((s.pwr.cmd.bind s.cmd?).any (fun c => s.elapsed c.fetchedAt (1000000 * c.tmoMs)) = true) :=
  ⟨{ ringState 0x80 32 [] with pwr := { phase := 1, target := 1, cmd := some 0 }, clk := { ready.clk with alm := 1000000000000 } }, by decide⟩

theorem witness_PowerStateCompletes_10 : ∃ (s : State),
    (s.pwr.phase = 4 ∧ s.ungated = true ∧ s.pwr.target ≠ 1 ∧ s.evc.gated = false) :=
  ⟨{ ready with pwr := { ps := 1, phase := 4 } }, by decide⟩

theorem witness_PowerStateCompletes_11 : ∃ (s : State),
    (s.pwr.phase = 4 ∧ s.ungated = true ∧ s.pwr.target ≠ 1 ∧ s.evc.gated = true) :=
  ⟨{ ready with pwr := { ps := 2, phase := 4 }, evc := { gated := true } }, by decide⟩

theorem witness_PartitionCompletes_1 : ∃ (r : Req) (p : Nat) (s : State),
    (p < 4096 ∧ s.reachable r (0x400000 + p * 0x100) = true) :=
  ⟨.pf0, 0, ready, by decide⟩

theorem witness_PartitionCompletes_3 : ∃ (id : Nat) (s : State) (c : Cmd) (a : Nat),
    s.ready id 0x60 c = true ∧ (c.zeros [(8, 4), (16, 16)] = true ∧ c.f 12 4 ≠ 0 ∧ c.f 12 4 ≤ 98304) ∧ (c.ctx.toNat < 4096 ∧ s.pagesUsed c.ctx.toNat + c.f 12 4 ≤ (tri (s.part c.ctx.toNat).pageMax).toNat) ∧ freeRange (s.pageList c.ctx.toNat) (c.f 12 4) = some a :=
  ⟨0, partState 1 0x60 32 [(12, 4, 2)], partCmd0 0x60 32 [(12, 4, 2)], 0, by decide⟩

theorem witness_PartitionCompletes_4 : ∃ (id : Nat) (s : State) (c : Cmd),
    s.ready id 0x61 c = true ∧ (c.zeros [(8, 4), (20, 12)] = true ∧ c.f 16 4 ≠ 0 ∧ c.f 16 4 ≤ 98304 ∧ c.f 12 4 + c.f 16 4 ≤ pagesPerCtx) ∧ ((List.range (c.f 16 4)).all (fun i => s.mapped c.ctx.toNat (c.f 12 4 + i)) = true) ∧ ((List.range (c.f 16 4)).any (fun i => s.pageNamed c.ctx.toNat (c.f 12 4 + i)) = false) :=
  ⟨0, { ringState 0x61 32 [(12, 4, 0), (16, 4, 1)] with pages := [(4096 * 131072, true)] }, ringCmd 0x61 32 [(12, 4, 0), (16, 4, 1)], by decide⟩

theorem witness_PartitionCompletes_5 : ∃ (id : Nat) (s : State) (c : Cmd),
    s.ready id 0x40 c = true ∧ s.hostFree c = true ∧ (c.zeros [(34, 30)] = true ∧ c.f 32 1 = 0 ∧ c.f 33 1 = 0 ∧ c.f 24 8 ≠ 0 ∧ c.f 24 8 ≤ 2 ^ 36) ∧ s.hostFails c.fn (c.f 8 8) (c.f 24 8) = false :=
  ⟨0, (ringState 0x40 64 [(24, 8, 4), (16, 8, 64)]), ringCmd 0x40 64 [(24, 8, 4), (16, 8, 64)], by decide⟩

theorem witness_PartitionCompletes_6 : ∃ (id : Nat) (s : State) (c : Cmd),
    s.ready id 0x40 c = true ∧ (c.zeros [(34, 30)] = true ∧ c.f 32 1 = 2 ∧ c.f 33 1 = 2 ∧ c.f 24 8 ≠ 0 ∧ c.f 24 8 ≤ 2 ^ 36) ∧ (s.hbmOk c.ctx.toNat (c.f 8 8) (c.f 24 8) = true ∧ s.hbmOk c.ctx.toNat (c.f 16 8) (c.f 24 8) = true) ∧ (c.f 16 8 + c.f 24 8 ≤ c.f 8 8 ∨ c.f 8 8 + c.f 24 8 ≤ c.f 16 8) :=
  ⟨0, { ringState 0x40 64 [(24, 8, 4), (16, 8, 64), (32, 1, 2), (33, 1, 2)] with pages := [(4096 * 131072, true)] }, ringCmd 0x40 64 [(24, 8, 4), (16, 8, 64), (32, 1, 2), (33, 1, 2)], by decide⟩

theorem witness_PartitionCompletes_7 : ∃ (p : Nat) (s : State),
    (p < 4096 ∧ (s.part p).state = 1 ∧ s.slotNow p = true ∧ (s.part p).inSlot = false) :=
  ⟨0, { ready with parts := [(0, { state := 1, fixslot := true, slotLen := 5 })] }, by decide⟩

theorem witness_PartitionCompletes_8 : ∃ (p : Nat) (s : State),
    (p < 4096 ∧ (s.part p).inSlot = true ∧ s.slotNow p = false) :=
  ⟨0, { ready with parts := [(0, { inSlot := true })] }, by decide⟩

theorem witness_PartitionCompletes_9 : ∃ (id : Nat) (s : State) (c : Cmd),
    s.ready id 0xA8 c = true ∧ (c.zeros [(10, 22)] = true ∧ c.f 8 2 < 4096 ∧ 1 ≤ (s.part (c.f 8 2)).state ∧ (s.part (c.f 8 2)).state ≤ 3) :=
  ⟨0, { ringState 0xA8 32 [] with parts := [(0, { state := 1 })] }, ringCmd 0xA8 32 [], by decide⟩

theorem witness_PartitionCompletes_10 : ∃ (id : Nat) (s : State) (c : Cmd),
    s.ready id 0xAD c = true ∧ (c.zeros [(10, 22)] = true ∧ c.f 8 2 < 4096 ∧ (s.part (c.f 8 2)).state = 3) :=
  ⟨0, { ringState 0xAD 32 [] with parts := [(0, { state := 3 })] }, ringCmd 0xAD 32 [], by decide⟩

theorem witness_PartitionCompletes_11 : ∃ (id : Nat) (s : State) (c : Cmd),
    s.ready id 0xA9 c = true ∧ (c.zeros [(10, 22)] = true ∧ c.f 8 2 < 4096 ∧ (s.part (c.f 8 2)).state = 1) :=
  ⟨0, { ringState 0xA9 32 [] with parts := [(0, { state := 1 })] }, ringCmd 0xA9 32 [], by decide⟩

theorem witness_PartitionCompletes_12 : ∃ (p : Nat) (s : State) (id : Nat),
    (p < 4096 ∧ (s.part p).state = 2 ∧ s.drained p = true) ∧ (s.part p).waiter = some id :=
  ⟨0, { ready with parts := [(0, { state := 2, waiter := some 0 })] }, _, by decide, rfl⟩

theorem witness_PartitionCompletes_13 : ∃ (p : Nat) (s : State) (id : Nat),
    (p < 4096 ∧ (s.part p).state = 4 ∧ (s.part p).genWait.isNone = true ∧ (s.banksOf p).all (fun b => !(s.bank b).clearing) = true) ∧ (s.part p).toOff = false ∧ (s.part p).waiter = some id :=
  ⟨0, { ready with parts := [(0, { state := 4, waiter := some 0 })] }, _, by decide, by decide, rfl⟩

theorem witness_PartitionCompletes_14 : ∃ (p : Nat) (s : State),
    (p < 4096 ∧ (s.part p).genWait = some 0) :=
  ⟨0, { ready with parts := [(0, { state := 4, genWait := some 0 })] }, by decide⟩

theorem witness_PartitionCompletes_15 : ∃ (id : Nat) (s : State) (c : Cmd),
    s.ready id 0xAA c = true ∧ s.hostFree c = true ∧ (c.zeros [(10, 6)] = true ∧ c.f 8 2 < 4096 ∧ c.f 16 8 % 4096 = 0 ∧ (s.part (c.f 8 2)).state = 3) ∧ (s.saveContent (c.f 8 2) []).length ≤ c.f 24 8 :=
  ⟨0, { ringState 0xAA 32 [(24, 8, 0x10000000000000)] with parts := [(0, { state := 3 })] }, ringCmd 0xAA 32 [(24, 8, 0x10000000000000)], by decide, by decide, by decide, (saveImage_short _ (by decide) : _ ≤ 2 ^ 52)⟩

theorem witness_PartitionCompletes_16 : ∃ (id : Nat) (s : State) (c : Cmd),
    s.ready id 0xAB c = true ∧ s.hostFree c = true ∧ (c.zeros [(10, 6)] = true ∧ c.f 8 2 < 4096 ∧ c.f 16 8 % 4096 = 0 ∧ (s.part (c.f 8 2)).state = 0 ∧ tri (s.part (c.f 8 2)).en = false) ∧ (s.hostFails c.fn (c.f 16 8) (c.f 24 8) = false ∧ 0x1000 ≤ c.f 24 8) ∧ (fieldLE (s.hostRead c.fn (c.f 16 8) 0x40) 0 4 = 0x49535A44 ∧ fieldLE (s.hostRead c.fn (c.f 16 8) 0x40) 4 2 = 1 ∧ fieldLE (s.hostRead c.fn (c.f 16 8) 0x40) 6 2 ≤ 1) ∧ (fieldLE (s.hostRead c.fn (c.f 16 8) 0x40) 0x10 8 ≤ c.f 24 8 ∧ (s.openImage (s.hostRead c.fn (c.f 16 8) (fieldLE (s.hostRead c.fn (c.f 16 8) 0x40) 0x10 8))).isSome = true) :=
  ⟨0, restoreState, ringCmd 0xAB 32 [(24, 8, 0x1000)], by decide +kernel, by decide +kernel, by decide +kernel, by decide +kernel, by decide +kernel, by decide +kernel⟩

theorem witness_PartitionCompletes_17 : ∃ (n : Nat) (v : Word) (s : State),
    s.vfExists n = true ∧ v.extractLsb' 16 4 &&& BitVec.setWidth 4 v &&& (s.part (n - 1)).evt = 0 :=
  ⟨1, 0, vfState, by decide⟩

theorem witness_PlanCompletes_1 : ∃ (id : Nat) (s : State) (c : Cmd) (n : Nat) (a : Nat) (h0 : Nat) (img : List Byte),
    s.ready id 0x01 c = true ∧ s.hostFree c = true ∧ a = c.f 8 8 ∧ n = c.f 16 4 ∧ img = s.hostRead c.fn a n ∧ (c.zeros [(20, 12)] = true ∧ a % 64 = 0 ∧ h0 < 1024 ∧ s.plan? c.ctx.toNat h0 = none) ∧ (s.pagesRefused c.ctx.toNat (planPages n) = false ∧ s.hostFails c.fn a n = false) ∧ loadFault img n = none :=
  ⟨0, loadState, loadCmd, _, _, 0, _, by decide, by decide, rfl, rfl, rfl, by decide, by decide, (by set_option maxRecDepth 1000000 in decide +kernel)⟩

theorem witness_PlanCompletes_2 : ∃ (id : Nat) (s : State) (c : Cmd) (pl : Plan),
    s.ready id 0x02 c = true ∧ (c.zeros [(12, 20)] = true ∧ s.plan? c.ctx.toNat (c.f 8 4) = some pl) ∧ (s.runs.any (fun r => r.ctx = c.ctx && r.handle = c.f 8 4) = false) :=
  ⟨0, { planState 2 with hif := { (planState 2).hif with cmds := [partCmd0 2 32 []] } }, partCmd0 2 32 [], scanPlan, by decide⟩

theorem witness_PlanCompletes_3 : ∃ (id : Nat) (s : State) (c : Cmd) (pl : Plan) (vals : List ParamVal) (rows : List (Option Nat)) (r : Run),
    s.ready id 0x03 c = true ∧ s.hostFree c = true ∧ (c.f 14 2 ≤ 1 ∧ c.zeros [(20, 4)] = true ∧ (if c.f 14 2 = 0 then c.f 12 2 ≤ 62 else c.f 24 8 % 16 = 0)) ∧ s.plan? c.ctx.toNat (c.f 8 4) = some pl ∧ s.paramsOf c = some vals ∧ r = newRun c s.nextRun (pl.fill vals) ∧ (s.paramCheck r pl).toOption = some rows ∧ s.bindReason { r with pages := runPages pl rows } pl = 0 :=
  ⟨0, planState 3, planCmd 3, scanPlan, [some (sub (planCmd 3).bytes 32 16), some (sub (planCmd 3).bytes 48 16)], [some 2], newRun (planCmd 3) 0 (scanPlan.fill [some (sub (planCmd 3).bytes 32 16), some (sub (planCmd 3).bytes 48 16)]), by decide, by decide, by decide, by decide +kernel, by decide +kernel, by decide +kernel, by decide +kernel, by decide +kernel⟩

theorem witness_PlanCompletes_4 : ∃ (id : Nat) (s : State) (c : Cmd) (x : Cmd) (r : Run),
    s.ready id 0x04 c = true ∧ c.zeros [(12, 20)] = true ∧ (s.hif.cmds.find? (fun y => y.op = 0x03 && y.ctx = c.ctx && s.sqName y = some (c.f 8 2) && y.f 4 2 = c.f 10 2) = some x) ∧ (s.runs.find? (fun y => y.cmd = x.id) = some r) :=
  ⟨1, { runState with hif := { runState.hif with cmds := [planCmd 3, { partCmd0 4 32 [] with id := 1 }] } }, { partCmd0 4 32 [] with id := 1 }, planCmd 3, testRun, by decide, by decide, by decide, by decide⟩

theorem witness_PlanCompletes_5 : ∃ (id : Nat) (s : State) (c : Cmd) (r : Run),
    s.cmd? id = some c ∧ (c.op = 0x03 ∧ c.f 16 4 ≠ 0 ∧ s.elapsed c.fetchedAt (1000 * c.f 16 4) = true) ∧ (s.runs.find? (fun y => y.cmd = id) = some r) :=
  ⟨0, { runState with hif := { runState.hif with cmds := [{ planCmd 3 with bytes := entry 64 [(12, 2, 2), (16, 4, 9)] }] }, clk := { ready.clk with alm := 9000 } }, { planCmd 3 with bytes := entry 64 [(12, 2, 2), (16, 4, 9)] }, testRun, by decide⟩

theorem witness_MorselCompletes_1 : ∃ (t : Nat) (s : State) (l : Nat) (q : Nat) (i : Nat) (r : Run) (pl : Plan),
    s.logOf t = some l ∧ (t < 18 ∧ (s.tile t).noclaim = false ∧ (s.tile t).drain = false ∧ (s.tile t).gated = false ∧ s.clk.locked = true ∧ s.isPartner t = false) ∧ (s.enterCands l).weightedPick l = some q ∧ (s.enterCands l).pipeFor q l = some (r, i) ∧ (s.enterCands l).planOf r = some pl ∧ ((s.tile t).admits pl r.id i = true ∧ (s.enterCands l).pairing t l r.ctx.toNat ((r.pipe i).led (r.pipe i).next) ≠ .waits) :=
  ⟨0, runState, 0, 0, 0, testRun, scanPlan, by decide, by decide, by decide +kernel, by decide +kernel, by decide +kernel, by decide +kernel⟩

theorem witness_MorselCompletes_2 : ∃ (t : Nat) (k : Nat) (agree : Bool) (s : State) (f : Flight) (r : Run) (pl : Plan) (w : OpWord) (e : Eval),
    ((s.tile t).gated = false ∧ s.clk.locked = true) ∧ (s.tile t).flights[k]? = some f ∧ s.run? f.run = some r ∧ s.planOf r = some pl ∧ pl.sink f.pipe = some w ∧ f.work = .rows e ∧ (((r.pipe f.pipe).led f.m).state = 1 ∧ ((r.pipe f.pipe).led f.m).token = f.token ∧ (s.jobsOf f.run f.pipe f.m).isEmpty = true) ∧ agree = true ∧ ((pl.pipes[f.pipe]?).any (·.single) && !inOrder (r.pipe f.pipe) f.m) = false ∧ ((w.op = 0x11 → ((r.pipe f.pipe).led f.m).committed = true) ∧ (w.op = 0x10 → s.canSend (fnOf f.ctx.toNat) = true)) ∧ s.writesHeld (s.morselDone t k f (s.envOf r pl f.pipe f.m) w e) = false :=
  ⟨0, 0, true, sinkState 6 1 { morsels := some 1, cursor := 1, ledger := [(0, { state := 1 })] } {} (.rows noRows), testFlight (.rows noRows), sinkRun { morsels := some 1, cursor := 1, ledger := [(0, { state := 1 })] } {}, sinkPlan 6 1, sinkWord 6, noRows, by decide, (by decide +kernel), (by decide +kernel), (by decide +kernel), (by decide +kernel), by decide, by decide, by decide, by decide, by decide, by decide⟩

theorem witness_MorselCompletes_3 : ∃ (t : Nat) (k : Nat) (agree : Bool) (s : State) (f : Flight) (r : Run) (pl : Plan) (w : OpWord) (e : Eval) (x : Nat),
    ((s.tile t).gated = false ∧ s.clk.locked = true) ∧ (s.tile t).flights[k]? = some f ∧ s.run? f.run = some r ∧ s.planOf r = some pl ∧ pl.sink f.pipe = some w ∧ (f.work = .rows e ∧ f.partner = some x) ∧ (((r.pipe f.pipe).led f.m).state = 1 ∧ ((r.pipe f.pipe).led f.m).token = f.token ∧ (s.jobsOf f.run f.pipe f.m).isEmpty = true) ∧ agree = false :=
  ⟨0, 0, false, { sinkState 6 1 { morsels := some 1, cursor := 1, ledger := [(0, { state := 1 })] } {} (.rows noRows) with tiles := [(0, { ctx := 0, flights := [{ testFlight (.rows noRows) with partner := some 3 }] })] }, { testFlight (.rows noRows) with partner := some 3 }, sinkRun { morsels := some 1, cursor := 1, ledger := [(0, { state := 1 })] } {}, sinkPlan 6 1, sinkWord 6, noRows, 3, by decide, (by decide +kernel), (by decide +kernel), (by decide +kernel), (by decide +kernel), by decide, by decide, by decide⟩

theorem witness_MorselCompletes_4 : ∃ (t : Nat) (k : Nat) (s : State) (f : Flight) (r : Run) (pl : Plan) (w : OpWord) (e : Eval),
    ((s.tile t).gated = false ∧ s.clk.locked = true) ∧ (s.tile t).flights[k]? = some f ∧ s.run? f.run = some r ∧ s.planOf r = some pl ∧ pl.sink f.pipe = some w ∧ f.work = .rows e ∧ (((r.pipe f.pipe).led f.m).state ≠ 1 ∨ ((r.pipe f.pipe).led f.m).token ≠ f.token) :=
  ⟨0, 0, sinkState 6 1 {} {} (.rows noRows), testFlight (.rows noRows), sinkRun {} {}, sinkPlan 6 1, sinkWord 6, noRows, by decide, (by decide +kernel), (by decide +kernel), (by decide +kernel), (by decide +kernel), by decide, by decide⟩

theorem witness_MorselCompletes_5 : ∃ (t : Nat) (k : Nat) (s : State) (f : Flight) (r : Run) (pl : Plan) (w : OpWord) (st : BitVec 16) (r0 : Word) (n : Nat),
    ((s.tile t).gated = false ∧ s.clk.locked = true) ∧ (s.tile t).flights[k]? = some f ∧ s.run? f.run = some r ∧ s.planOf r = some pl ∧ pl.sink f.pipe = some w ∧ f.work = .fails st r0 n ∧ (s.jobsOf f.run f.pipe f.m).isEmpty = true :=
  ⟨0, 0, sinkState 6 1 { morsels := some 1, cursor := 1, ledger := [(0, { state := 1 })] } {} (.fails 0x413 0 0), testFlight (.fails 0x413 0 0), sinkRun { morsels := some 1, cursor := 1, ledger := [(0, { state := 1 })] } {}, sinkPlan 6 1, sinkWord 6, 0x413, 0, 0, by decide, (by decide +kernel), (by decide +kernel), (by decide +kernel), (by decide +kernel), by decide, by decide⟩

theorem witness_MorselCompletes_6 : ∃ (r : Req) (t : Nat) (s : State),
    (t < 18 ∧ s.reachable r (tileOfs t + 0x114) = true) :=
  ⟨.pf0, 0, ready, by decide⟩

theorem witness_MorselCompletes_7 : ∃ (id : Nat) (s : State) (c : Cmd),
    s.ready id 0xAC c = true ∧ (c.zeros [(10, 22)] = true ∧ c.f 8 2 < 4096 ∧ (s.part (c.f 8 2)).state = 3) :=
  ⟨0, { ringState 0xAC 32 [] with parts := [(0, { state := 3 })] }, ringCmd 0xAC 32 [], by decide⟩

theorem witness_MorselCompletes_8 : ∃ (run : Nat) (mat : Nat) (s : State) (r : Run) (pl : Plan) (x : MatRec) (w : OpWord),
    s.run? run = some r ∧ s.planOf r = some pl ∧ pl.mats[mat]? = some x ∧ pl.matSink mat = some w ∧ (w.op ≠ 0x0D ∨ ((s.envOf r pl x.producer 0).markerDevices w).all (fun d => (r.mat mat).ends.getLsbD d) = true) ∧ ((r.pipe x.producer).done = true ∧ (r.mat mat).complete = false ∧ r.paused = false ∧ s.runMirrored r = true) ∧ s.writesHeld (s.completeMat run mat (s.envOf r pl x.producer 0) w) = false :=
  ⟨0, 0, sinkState 6 1 { done := true } {} (.rows noRows), sinkRun { done := true } {}, sinkPlan 6 1, ⟨1, 0, 0, 1, 65535, 8⟩, sinkWord 6, (by decide +kernel), (by decide +kernel), (by decide +kernel), (by decide +kernel), by decide, by decide, by decide⟩

theorem witness_MorselCompletes_9 : ∃ (run : Nat) (mat : Nat) (s : State) (r : Run) (pl : Plan) (x : MatRec),
    s.run? run = some r ∧ s.planOf r = some pl ∧ pl.mats[mat]? = some x ∧ ((r.mat mat).complete = true ∧ (r.mat mat).freed = false) ∧ r.repaired = true :=
  ⟨0, 0, repairedState, { sinkRun { done := true } { complete := true } with repaired := true }, sinkPlan 6 1, ⟨1, 0, 0, 1, 65535, 8⟩, (by decide +kernel), (by decide +kernel), (by decide +kernel), by decide, by decide⟩

theorem witness_MorselCompletes_10 : ∃ (run : Nat) (mat : Nat) (s : State) (r : Run) (pl : Plan) (x : MatRec) (mats : List Nat) (pipes : List Nat),
    s.run? run = some r ∧ s.planOf r = some pl ∧ pl.mats[mat]? = some x ∧ ((r.mat mat).complete = true ∧ (r.mat mat).freed = false) ∧ r.repaired = false ∧ mats = pl.againMats r mat pl.mats.length [mat] ∧ pipes = pl.againPipes mat mats :=
  ⟨0, 0, sinkState 6 1 { done := true } { complete := true } (.rows noRows), sinkRun { done := true } { complete := true }, sinkPlan 6 1, ⟨1, 0, 0, 1, 65535, 8⟩, [0], [0], (by decide +kernel), (by decide +kernel), (by decide +kernel), by decide, by decide, (by decide +kernel), (by decide +kernel)⟩

theorem witness_MorselCompletes_11 : ∃ (run : Nat) (pipe : Nat) (m : Nat) (s : State) (r : Run) (pl : Plan) (w : OpWord) (e : Eval) (g : Ref) (n : Nat),
    s.run? run = some r ∧ s.planOf r = some pl ∧ s.flightRows run pipe m = some e ∧ pl.sink pipe = some w ∧ (w.op = 0x11 ∧ ((r.pipe pipe).led m).committed = false ∧ (s.jobsOf run pipe m).isEmpty = true ∧ s.arcRuns = true) ∧ g = refOf (((s.envOf r pl pipe m).raw w.dst).getD []) ∧ n = (storeSegment pl pipe w e.active).length ∧ (s.volRefusal r.ctx.toNat g.volume (g.addr / 4096) 0 true = 0 ∧ s.admits r.ctx.toNat g.volume (ceilDiv n 4096) = true) :=
  ⟨0, 0, 0, storeState { morsels := some 1 }, storeRun { morsels := some 1 }, storePlan, { sinkWord 0x11 with dst := 0x2000 }, noRows, ⟨0, 65536, 1, 0⟩, 0, by decide +kernel, by decide +kernel, by decide +kernel, by decide +kernel, by decide +kernel, rfl, by decide +kernel, by decide +kernel⟩

theorem witness_MorselCompletes_12 : ∃ (run : Nat) (pipe : Nat) (m : Nat) (s : State) (r : Run) (pl : Plan) (w : OpWord) (e : Eval) (g : Ref),
    s.run? run = some r ∧ s.planOf r = some pl ∧ s.flightRows run pipe m = some e ∧ pl.sink pipe = some w ∧ (w.op = 0x11 ∧ ((r.pipe pipe).led m).committed = false ∧ (s.jobsOf run pipe m).isEmpty = true ∧ s.arcRuns = true) ∧ g = refOf (((s.envOf r pl pipe m).raw w.dst).getD []) ∧ s.volRefusal r.ctx.toNat g.volume (g.addr / 4096) 0 true ≠ 0 :=
  ⟨0, 0, 0, { storeState { morsels := some 1 } with arc := {} }, storeRun { morsels := some 1 }, storePlan, { sinkWord 0x11 with dst := 0x2000 }, noRows, ⟨0, 65536, 1, 0⟩, by decide +kernel, by decide +kernel, by decide +kernel, by decide +kernel, by decide +kernel, rfl, by decide +kernel⟩

theorem witness_MorselCompletes_13 : ∃ (run : Nat) (pipe : Nat) (s : State) (r : Run) (pl : Plan) (w : OpWord) (g : Ref) (segs : List (Nat × Nat × Nat)) (at_ : List Nat × Nat) (t1 : State),
    s.run? run = some r ∧ s.planOf r = some pl ∧ pl.sink pipe = some w ∧ (w.op = 0x11 ∧ (r.pipe pipe).done = true ∧ (r.pipe pipe).placed = false ∧ r.paused = false ∧ s.runMirrored r = true ∧ s.stagedDown r pipe = true ∧ s.arcRuns = true) ∧ g = refOf (((s.envOf r pl pipe 0).raw w.dst).getD []) ∧ segs = (r.pipe pipe).segments ∧ at_ = storePlaces (segs.map (·.2.1)) ∧ (at_.2 ≤ g.len ∧ s.volRefusal r.ctx.toNat g.volume (g.addr / 4096) (ceilDiv at_.2 4096) true = 0) ∧ (t1 = ((0 :: at_.1).zip (look (0, 0, 0) (r.pipe pipe).staged segs.length :: segs)).foldl (fun (x : State) e => x.placeRuns (stageVol r.id pipe) e.2.1 (ceilDiv e.2.2.1 4096) g.volume ((g.addr + e.1) / 4096)) s) ∧ (s.writesHeld ((((t1.setVol (stageVol r.id pipe) {}).recount (s.vol g.volume).array).updRun run fun x => x.updPipe pipe fun y => { y with placed := true }).settleRun run) = false) :=
  ⟨0, 0, storeState { morsels := some 0, done := true }, storeRun { morsels := some 0, done := true }, storePlan, { sinkWord 0x11 with dst := 0x2000 }, ⟨0, 65536, 1, 0⟩, [], _, _, by decide +kernel, by decide +kernel, by decide +kernel, by decide +kernel, rfl, by decide +kernel, rfl, by decide +kernel, rfl, by decide +kernel⟩

theorem witness_MorselCompletes_14 : ∃ (run : Nat) (pipe : Nat) (s : State) (r : Run) (pl : Plan) (w : OpWord) (g : Ref),
    s.run? run = some r ∧ s.planOf r = some pl ∧ pl.sink pipe = some w ∧ (w.op = 0x11 ∧ (r.pipe pipe).done = true ∧ (r.pipe pipe).placed = false ∧ r.paused = false ∧ s.runMirrored r = true ∧ s.stagedDown r pipe = true ∧ s.arcRuns = true) ∧ g = refOf (((s.envOf r pl pipe 0).raw w.dst).getD []) ∧ g.len < (storePlaces ((r.pipe pipe).segments.map (·.2.1))).2 :=
  ⟨0, 0, { storeState { morsels := some 0, done := true } with runs := [{ storeRun { morsels := some 0, done := true } with params := [some (entry 16 [(8, 4, 0), (12, 2, 1)])] }] }, { storeRun { morsels := some 0, done := true } with params := [some (entry 16 [(8, 4, 0), (12, 2, 1)])] }, storePlan, { sinkWord 0x11 with dst := 0x2000 }, ⟨0, 0, 1, 0⟩, by decide +kernel, by decide +kernel, by decide +kernel, by decide +kernel, rfl, by decide +kernel⟩

theorem witness_TableCompletes_1 : ∃ (id : Nat) (s : State) (c : Cmd),
    s.ready id 0x68 c = true ∧ (s.astWaits id = false ∧ c.zeros [(13, 1), (20, 12)] = true) :=
  ⟨0, (ringState 0x68 32 []), ringCmd 0x68 32 [], by decide⟩

theorem witness_TableCompletes_2 : ∃ (id : Nat) (s : State) (c : Cmd) (t : ATable),
    s.ready id 0x69 c = true ∧ (s.tableFor id c t = true ∧ c.zeros [(10, 22)] = true) ∧ ((s.runs.any fun r => r.ctx = t.ctx && r.tables.contains (c.f 8 2)) = false) :=
  ⟨0, astState 0x69 32 [], ringCmd 0x69 32 [], testTable, by decide⟩

theorem witness_TableCompletes_3 : ∃ (b : Nat) (s : State),
    (b < 32 ∧ (s.bank b).clearing = true) :=
  ⟨0, { ready with astore := { banks := [(0, { clearing := true })] } }, by decide⟩

theorem witness_TableCompletes_4 : ∃ (id : Nat) (s : State) (c : Cmd) (t : ATable) (ps : List Nat) (es : List (List AUnit)),
    s.ready id 0x6A c = true ∧ s.hostFree c = true ∧ (s.tableFor id c t = true ∧ c.zeros [(10, 2), (24, 8)] = true) ∧ (c.f 12 4 ≠ 0 ∧ c.f 12 4 ≤ 2097152 ∧ c.f 16 8 % 64 = 0) ∧ ps = freePositions t.interval.toNat (s.afterLast t) t.size (c.f 12 4) ∧ (es = (List.range (c.f 12 4)).map (fun k => entryOf t.width ((s.hostRead c.fn (c.f 16 8) (c.f 12 4 * 16 * t.width)).drop (k * 16 * t.width)))) ∧ (c.f 12 4 ≤ ps.length ∧ s.hostFails c.fn (c.f 16 8) (c.f 12 4 * 16 * t.width) = false ∧ es.any isHole = false) :=
  ⟨0, astState 0x6A 32 [(12, 4, 1)], ringCmd 0x6A 32 [(12, 4, 1)], testTable, _, _, by decide, by decide, by decide, by decide, rfl, rfl, by decide +kernel⟩

theorem witness_TableCompletes_5 : ∃ (id : Nat) (s : State) (c : Cmd) (t : ATable) (e : List AUnit) (w : List (Nat × List AUnit) × Nat × Word),
    s.ready id 0x6B c = true ∧ (s.tableFor id c t = true ∧ c.zeros [(10, 2), (16, 16)] = true) ∧ e = entryOf t.width (c.bytes.drop 32) ∧ (c.bytes.length = 32 * (1 + ceilDiv t.width 2) ∧ isHole e = false ∧ c.f 12 4 ≠ 0xFFFFFFFF ∧ c.f 12 4 < t.size) ∧ (s.insertReads t (c.f 12 4)).insertPlan t (c.f 12 4) e = some w :=
  ⟨0, astState 0x6B 64 [], ringCmd 0x6B 64 [], testTable, [{ data := 0, mask := 0 }], ([(0, [{ data := 0, mask := 0 }])], 0, shiftWord false 0 0), by decide, by decide, (by decide +kernel), by decide, by decide⟩

theorem witness_TableCompletes_6 : ∃ (id : Nat) (s : State) (c : Cmd) (t : ATable),
    s.ready id 0x6C c = true ∧ (s.tableFor id c t = true ∧ c.zeros [(10, 2), (16, 16)] = true) ∧ (c.f 12 4 < t.size ∧ isHole (s.entryAt t (c.f 12 4)) = false) :=
  ⟨0, astState 0x6C 32 [(12, 4, 65534)], ringCmd 0x6C 32 [(12, 4, 65534)], testTable, by decide⟩

theorem witness_TableCompletes_7 : ∃ (id : Nat) (s : State) (c : Cmd) (t : ATable) (rs : List (Option Nat × Bool)),
    s.ready id 0x6D c = true ∧ s.hostFree c = true ∧ (s.tableFor id c t = true ∧ c.zeros [(10, 2)] = true) ∧ (c.f 12 4 ≠ 0 ∧ c.f 12 4 ≤ 4096 ∧ c.f 16 8 % 8 = 0 ∧ c.f 24 8 % 4 = 0) ∧ (t.fault = false ∧ s.hostFails c.fn (c.f 16 8) (c.f 12 4 * 8 * t.width) = false) ∧ (rs = (List.range (c.f 12 4)).map (fun k => s.search t ((List.range t.width).map fun j => BitVec.ofNat 64 (leNat (s.hostRead c.fn (c.f 16 8 + 8 * (k * t.width + j)) 8))))) :=
  ⟨0, astState 0x6D 32 [(12, 4, 1)], ringCmd 0x6D 32 [(12, 4, 1)], testTable, _, by decide, by decide, by decide, by decide, by decide, rfl⟩

theorem witness_TableCompletes_8 : ∃ (id : Nat) (s : State) (c : Cmd) (t : ATable) (i : Nat),
    s.ready id 0x6E c = true ∧ (s.tableFor id c t = true ∧ c.zeros [(10, 4), (16, 16)] = true) ∧ i = (if c.f 14 2 = 0 then t.interval.toNat else c.f 14 2) ∧ (intervalOk (c.f 14 2) = true ∧ (s.used t).length ≤ t.capacity i) :=
  ⟨0, astState 0x6E 32 [(14, 2, 4)], ringCmd 0x6E 32 [(14, 2, 4)], testTable, 4, by decide, by decide, (by decide +kernel), by decide⟩

theorem witness_TableCompletes_9 : ∃ (n : Nat) (s : State) (t : ATable),
    s.atable n = t ∧ (t.enable = true ∧ t.rsp = true) ∧ t.rspWrites.drop (stepPrefix t.perBank 256 t.rspWrites).length ≠ [] :=
  ⟨0, { ready with astore := { tables := [(0, { testTable with rsp := true, rspWrites := [(0, []), (65536, [])] })] } }, { testTable with rsp := true, rspWrites := [(0, []), (65536, [])] }, by decide⟩

theorem witness_TableCompletes_10 : ∃ (n : Nat) (s : State) (t : ATable),
    s.atable n = t ∧ (t.enable = true ∧ t.rsp = true) ∧ t.rspWrites.drop (stepPrefix t.perBank 256 t.rspWrites).length = [] ∧ t.rspCmd = none :=
  ⟨0, { ready with astore := { tables := [(0, { testTable with rsp := true })] } }, { testTable with rsp := true }, by decide⟩

theorem witness_TableCompletes_11 : ∃ (id : Nat) (s : State) (c : Cmd) (t : ATable),
    s.ready id 0x6F c = true ∧ s.hostFree c = true ∧ (s.tableFor id c t = true ∧ c.zeros [(10, 2), (20, 4)] = true) ∧ (c.f 16 4 ≠ 0 ∧ c.f 16 4 ≤ 65536 ∧ c.f 24 8 % 64 = 0 ∧ c.f 12 4 + c.f 16 4 ≤ t.size) :=
  ⟨0, astState 0x6F 32 [(16, 4, 1)], ringCmd 0x6F 32 [(16, 4, 1)], testTable, by decide⟩

theorem witness_TableCompletes_12 : ∃ (s : State) (b : Nat) (n : Nat) (k : Nat),
    s.astp = true ∧ (b = s.astore.pos.toNat / 65536 ∧ n = s.astore.pos.toNat % 65536) ∧ k = s.physBank b * 65536 + n ∧ (look false s.astore.badShadow k = false ∧ s.unit k = look holeUnit s.astore.shadow k ∧ s.unitParityBad k = false) :=
  ⟨ready, 0, 0, 0, by decide⟩

theorem witness_TableCompletes_13 : ∃ (s : State) (b : Nat) (n : Nat) (k : Nat),
    s.astp = true ∧ (b = s.astore.pos.toNat / 65536 ∧ n = s.astore.pos.toNat % 65536) ∧ k = s.physBank b * 65536 + n ∧ (look false s.astore.pending k = false ∧ (s.bank b).clearing = false ∧ look false s.astore.badShadow k = false) ∧ (s.unit k ≠ look holeUnit s.astore.shadow k ∨ s.unitParityBad k = true) :=
  ⟨{ ready with astore := { shadow := [(0, { data := 1, mask := 1 })] } }, 0, 0, 0, by decide⟩

theorem witness_TableCompletes_14 : ∃ (s : State) (b : Nat) (n : Nat) (k : Nat),
    s.astp = true ∧ (b = s.astore.pos.toNat / 65536 ∧ n = s.astore.pos.toNat % 65536) ∧ k = s.physBank b * 65536 + n ∧ (look false s.astore.pending k = false ∧ (s.bank b).clearing = false ∧ look false s.astore.badShadow k = true) ∧ s.unitParityBad k = false :=
  ⟨{ ready with astore := { badShadow := [(0, true)] } }, 0, 0, 0, by decide⟩

theorem witness_TableCompletes_15 : ∃ (s : State) (b : Nat) (n : Nat) (k : Nat),
    s.astp = true ∧ (b = s.astore.pos.toNat / 65536 ∧ n = s.astore.pos.toNat % 65536) ∧ k = s.physBank b * 65536 + n ∧ (look false s.astore.pending k = false ∧ (s.bank b).clearing = false ∧ look false s.astore.badShadow k = true) ∧ s.unitParityBad k = true :=
  ⟨{ ready with astore := { badShadow := [(0, true)], badParity := [(0, true)] } }, 0, 0, 0, by decide⟩

theorem witness_TableCompletes_16 : ∃ (s : State) (b : Nat) (n : Nat) (k : Nat),
    s.astp = true ∧ (b = s.astore.pos.toNat / 65536 ∧ n = s.astore.pos.toNat % 65536) ∧ k = s.physBank b * 65536 + n ∧ (look false s.astore.pending k = true ∨ (s.bank b).clearing = true) :=
  ⟨{ ready with astore := { pending := [(0, true)] } }, 0, 0, 0, by decide⟩

theorem witness_TableCompletes_17 : ∃ (r : Req) (b : Nat) (s : State),
    (b < 32 ∧ s.reachable r (0x30A000 + 4 * b) = true) :=
  ⟨.pf0, 0, ready, by decide⟩

theorem witness_TableCompletes_18 : ∃ (off : Nat) (wr : Bool) (s : State),
    (0x1000000 ≤ off ∧ off < 0x3000000 ∧ off % 4 = 0 ∧ (wr = false → s.holder .pf0 = none)) :=
  ⟨0x1000000, false, ready, by decide⟩

theorem witness_CompressionCompletes_1 : ∃ (id : Nat) (s : State) (c : Cmd),
    s.ready id 0x48 c = true ∧ s.hostFree c = true ∧ s.cmpRefusal c true = 0 :=
  ⟨0, (ringState 0x48 64 [(24, 4, 1), (28, 4, 4096), (32, 1, 1)]), ringCmd 0x48 64 [(24, 4, 1), (28, 4, 4096), (32, 1, 1)], by decide⟩

theorem witness_CompressionCompletes_2 : ∃ (id : Nat) (s : State) (c : Cmd),
    s.ready id 0x49 c = true ∧ s.hostFree c = true ∧ s.cmpRefusal c false = 0 :=
  ⟨0, (ringState 0x49 64 [(24, 4, 1), (28, 4, 4096)]), ringCmd 0x49 64 [(24, 4, 1), (28, 4, 4096)], by decide⟩

theorem witness_CompressionCompletes_3 : ∃ (e : Nat) (s : State) (k : Nat) (j : Job),
    s.cmp.nextClass = some k ∧ (s.cmp.jobs.find? (fun j => j.cls = k && j.engine = none) = some j) ∧ (s.engineIn e = true ∧ (s.engineJobs e).length < 6 ∧ s.ungated = true) :=
  ⟨0, { ready with cmp := { jobs := [{ id := 0, cls := 2, morsel := none, slot := 0, engine := none, retried := false }] } }, 2, { id := 0, cls := 2, morsel := none, slot := 0, engine := none, retried := false }, by decide⟩

theorem witness_CompressionCompletes_4 : ∃ (id : Nat) (s : State) (j : Job) (c : Cmd),
    (s.cmp.jobs.find? (fun j => j.id = id && j.engine.isSome) = some j) ∧ (s.ungated = true ∧ j.morsel = none) ∧ s.cmd? id = some c ∧ (s.current c.ctx c.gen = true ∧ (s.hostWaits c && (c.f 34 1 = 0 || c.f 35 1 = 0)) = false) :=
  ⟨0, { ringState 0x49 64 [] with cmp := { jobs := [{ id := 0, cls := 2, morsel := none, slot := 0, engine := some 3, retried := false }] } }, { id := 0, cls := 2, morsel := none, slot := 0, engine := some 3, retried := false }, ringCmd 0x49 64 [], by decide⟩

theorem witness_CompressionCompletes_5 : ∃ (id : Nat) (s : State) (j : Job) (c : Cmd),
    (s.cmp.jobs.find? (fun j => j.id = id && j.engine.isSome) = some j) ∧ (s.ungated = true ∧ j.morsel = none) ∧ s.cmd? id = some c ∧ s.current c.ctx c.gen = false :=
  ⟨0, { ringState 0x49 64 [] with cmp := { jobs := [{ id := 0, cls := 2, morsel := none, slot := 0, engine := some 3, retried := false }] }, hif := { ready.hif with cmds := [{ partCmd0 0x49 64 [] with gen := 1 }] } }, { id := 0, cls := 2, morsel := none, slot := 0, engine := some 3, retried := false }, { partCmd0 0x49 64 [] with gen := 1 }, by decide⟩

theorem witness_CompressionCompletes_6 : ∃ (id : Nat) (s : State) (j : Job) (run : Nat) (pipe : Nat) (m : Nat) (r : Run) (pl : Plan),
    (s.cmp.jobs.find? (fun j => j.id = id && j.engine.isSome) = some j) ∧ (s.ungated = true ∧ j.morsel = some (run, pipe, m)) ∧ s.run? run = some r ∧ s.planOf r = some pl :=
  ⟨0, { runState with cmp := { jobs := [{ id := 0, cls := 0, morsel := some (0, 0, 0), slot := 0, engine := some 3, retried := false }] } }, { id := 0, cls := 0, morsel := some (0, 0, 0), slot := 0, engine := some 3, retried := false }, 0, 0, 0, testRun, scanPlan, (by decide +kernel), by decide, (by decide +kernel), (by decide +kernel)⟩

theorem witness_CompressionCompletes_7 : ∃ (ers : Bool) (e : Nat) (s : State),
    (ers = true ∧ e < 8 ∧ (!look false s.arc.ersOut e || s.testing 3 e) = true) :=
  ⟨true, 0, ready, by decide⟩

theorem witness_CompressionCompletes_8 : ∃ (ers : Bool) (e : Nat) (s : State) (jobs : List Job) (ctx : Nat),
    (ers = false ∧ (s.engineIn e || (e < 16 && (s.testing 2 e || !(s.engineJobs e).isEmpty))) = true) ∧ jobs = s.engineJobs e ∧ (ctx = (jobs.head?.bind fun j => match j.morsel with | some (run, _, _) => (s.run? run).map fun r => r.ctx.toNat | none => (s.cmd? j.id).map fun c => c.ctx.toNat).getD ownerCtx) :=
  ⟨false, 0, ready, _, _, by decide, rfl, rfl⟩

theorem witness_KernelEntryCompletes_1 : ∃ (dev : Nat) (bind : Nat) (exkey : Word) (ctx : BitVec 13) (gen : BitVec 16) (mat : Nat) (pipe : Nat) (m : Nat) (bucket : Nat) (rows : List Row) (s : State) (u : State) (r : Run) (pl : Plan),
    u = s.hear dev ∧ (dev < 8 ∧ dev ≠ u.pwr.devid.toNat ∧ u.reaches dev = true ∧ pipe < 256 ∧ m < 2 ^ 32) ∧ ((u.binding bind).en = true ∧ (u.binding bind).devmask.getLsbD dev = true ∧ look 0 (u.binding bind).gens dev = gen) ∧ look 0 (u.binding bind).ctxs dev = ctx ∧ u.exchangeRun bind exkey = some r ∧ u.planOf r = some pl ∧ u.exchangeOpen r dev bind mat = true ∧ u.writesHeld (u.placeExchange r pl dev mat pipe m bucket rows) = false :=
  ⟨1, 0, 0, 0, 0, 0, 0, 0, 0, [], exchangeState, _, exchangeRun, sinkPlan 0x0D 3, rfl, by decide, by decide, by decide, by decide, by decide, by decide, by decide⟩

theorem witness_KernelEntryCompletes_2 : ∃ (dev : Nat) (bind : Nat) (gen : BitVec 16) (pipe : Nat) (m : Nat) (s : State) (u : State),
    u = s.hear dev ∧ (dev < 8 ∧ dev ≠ u.pwr.devid.toNat ∧ u.reaches dev = true ∧ pipe < 256 ∧ m < 2 ^ 32) ∧ (!(u.binding bind).en || !(u.binding bind).devmask.getLsbD dev || look 0 (u.binding bind).gens dev ≠ gen) = true :=
  ⟨1, 0, 5, 0, 0, exchangeState, _, rfl, by decide, by decide⟩

theorem witness_KernelEntryCompletes_3 : ∃ (dev : Nat) (bind : Nat) (exkey : Word) (ctx : BitVec 13) (gen : BitVec 16) (pipe : Nat) (m : Nat) (s : State) (u : State) (r : Run),
    u = s.hear dev ∧ (dev < 8 ∧ dev ≠ u.pwr.devid.toNat ∧ u.reaches dev = true ∧ pipe < 256 ∧ m < 2 ^ 32) ∧ ((u.binding bind).en = true ∧ (u.binding bind).devmask.getLsbD dev = true ∧ look 0 (u.binding bind).gens dev = gen) ∧ look 0 (u.binding bind).ctxs dev ≠ ctx ∧ u.exchangeRun bind exkey = some r :=
  ⟨1, 0, 0, 5, 0, 0, 0, exchangeState, _, exchangeRun, rfl, by decide, by decide, by decide, by decide⟩

theorem witness_KernelEntryCompletes_4 : ∃ (dev : Nat) (bind : Nat) (exkey : Word) (mat : Nat) (s : State) (u : State) (r : Run),
    u = s.hear dev ∧ u.exchangeRun bind exkey = some r ∧ u.exchangeOpen r dev bind mat = true :=
  ⟨1, 0, 0, 0, exchangeState, _, exchangeRun, rfl, by decide, by decide⟩

theorem witness_KernelEntryCompletes_5 : ∃ (dev : Nat) (bind : Nat) (exkey : Word) (s : State) (u : State) (r : Run),
    u = s.hear dev ∧ u.exchangeRun bind exkey = some r ∧ (dev < 8 ∧ (u.binding bind).en = true ∧ (u.binding bind).devmask.getLsbD dev = true) :=
  ⟨1, 0, 0, exchangeState, _, exchangeRun, rfl, by decide, by decide⟩

theorem witness_KernelEntryCompletes_6 : ∃ (dev : Nat) (bind : Nat) (exkey : Word) (s : State) (u : State),
    u = s.hear dev ∧ u.exchangeRun bind exkey = none ∧ (dev < 8 ∧ (u.binding bind).en = true ∧ (u.binding bind).devmask.getLsbD dev = true) :=
  ⟨1, 0, 7, exchangeState, _, rfl, by decide, by decide⟩

theorem witness_ArrayAdminCompletes_1 : ∃ (id : Nat) (info : Option MemberInfo) (s : State) (c : Cmd) (i : MemberInfo) (n : Nat) (d : Nat) (l : Nat) (t : State),
    s.ready id 0x90 c = true ∧ (n = c.f 8 1 ∧ d = c.f 9 1 ∧ l = s.free.1.toNat % s.linksOf d) ∧ (c.zeros [(14, 18)] = true ∧ n ≤ 63 ∧ d ≤ 5 ∧ c.f 12 2 ≠ 0 ∧ c.f 12 2 ≤ 4095 ∧ (s.member n).state = 0) ∧ info = some i ∧ (t = s.free.2.updMember n fun w => { w with state := 1, lbas := i.lbas, mwrate := BitVec.ofNat 12 (c.f 12 2), dp := BitVec.ofNat 3 d, rid := BitVec.ofNat 16 (c.f 10 2), cap := i.cap, nsOk := i.nsOk, link := l, ioQueues := 8 }) :=
  ⟨0, some { cap := 9, lbas := 0, nsOk := true }, (ringState 0x90 32 [(12, 2, 1)]), ringCmd 0x90 32 [(12, 2, 1)], { cap := 9, lbas := 0, nsOk := true }, _, _, _, _, by decide, ⟨rfl, rfl, rfl⟩, by decide, rfl, rfl⟩

theorem witness_ArrayAdminCompletes_2 : ∃ (id : Nat) (info : Option MemberInfo) (s : State) (c : Cmd),
    s.ready id 0x90 c = true ∧ (c.zeros [(14, 18)] = true ∧ c.f 8 1 ≤ 63 ∧ c.f 9 1 ≤ 5 ∧ c.f 12 2 ≠ 0 ∧ c.f 12 2 ≤ 4095 ∧ (s.member (c.f 8 1)).state = 0) ∧ info = none :=
  ⟨0, none, (ringState 0x90 32 [(12, 2, 1)]), ringCmd 0x90 32 [(12, 2, 1)], by decide⟩

theorem witness_ArrayAdminCompletes_3 : ∃ (id : Nat) (s : State) (c : Cmd),
    s.ready id 0x91 c = true ∧ (c.zeros [(9, 23)] = true ∧ c.f 8 1 ≤ 63 ∧ ((s.member (c.f 8 1)).state = 1 ∨ (s.member (c.f 8 1)).state = 4)) :=
  ⟨0, { ringState 0x91 32 [] with arc := { members := [(0, { state := 1 })] } }, ringCmd 0x91 32 [], by decide⟩

theorem witness_ArrayAdminCompletes_4 : ∃ (id : Nat) (s : State) (c : Cmd),
    s.ready id 0x92 c = true ∧ (c.zeros [(19, 1), (68, 28)] = true ∧ c.f 16 1 / 4 = 0 ∧ c.f 8 1 ≤ 63 ∧ (s.arr (c.f 8 1)).state = 0) :=
  ⟨0, (ringState 0x92 96 []), ringCmd 0x92 96 [], by decide⟩

theorem witness_ArrayAdminCompletes_5 : ∃ (id : Nat) (s : State) (c : Cmd),
    s.ready id 0x95 c = true ∧ (c.zeros [(10, 22), (32, 12), (46, 2), (51, 1)] = true ∧ c.f 9 1 / 64 = 0 ∧ c.f 48 1 / 2 = 0 ∧ c.f 8 1 ≤ 63) ∧ ((s.arr (c.f 8 1)).state = 3 ∨ (s.arr (c.f 8 1)).state = 4 ∨ (s.arr (c.f 8 1)).state = 5) :=
  ⟨0, arcState testArr 0x95 64 [], ringCmd 0x95 64 [], by decide⟩

theorem witness_ArrayAdminCompletes_6 : ∃ (id : Nat) (s : State) (c : Cmd),
    s.ready id 0x94 c = true ∧ (c.zeros [(9, 23)] = true ∧ c.f 8 1 ≤ 63) ∧ ((s.arr (c.f 8 1)).state = 3 ∨ (s.arr (c.f 8 1)).state = 4) :=
  ⟨0, arcState testArr 0x94 32 [], ringCmd 0x94 32 [], by decide⟩

theorem witness_ArrayAdminCompletes_7 : ∃ (id : Nat) (s : State) (c : Cmd),
    s.ready id 0x94 c = true ∧ (c.zeros [(9, 23)] = true ∧ c.f 8 1 ≤ 63 ∧ (s.arr (c.f 8 1)).state = 5) :=
  ⟨0, arcState { testArr with state := 5 } 0x94 32 [], ringCmd 0x94 32 [], by decide⟩

theorem witness_ArrayAdminCompletes_8 : ∃ (a : Nat) (s : State) (x : Arr) (t : State),
    s.arr a = x ∧ (a < 64 ∧ x.state = 6 ∧ s.arcRuns = true ∧ x.cache = [] ∧ x.reserved = []) ∧ (x.stripes.all (fun e => e.2.state ≠ 1 && e.2.state ≠ 2) = true) ∧ ((s.hif.cmds.any fun c => (c.phase = waitSpace || (c.phase = waitLeaf && c.op = 0x21) || x.late.contains (0, c.id)) && (s.vol (c.f 8 2)).array = a) = false) ∧ s.checkpoint? a = some t :=
  ⟨0, bareState { testArr with state := 6 } 0x94 32 [], { testArr with state := 6 }, ((bareState { testArr with state := 6 } 0x94 32 []).checkpoint? 0).getD ready, rfl, by decide, by decide, by decide, getD_some (by decide +kernel)⟩

theorem witness_ArrayAdminCompletes_9 : ∃ (id : Nat) (s : State) (c : Cmd) (all : List (Nat × Nat × Nat)),
    s.ready id 0x9E c = true ∧ s.hostFree c = true ∧ (c.zeros [(9, 3), (24, 8)] = true ∧ c.f 8 1 ≤ 63 ∧ c.f 16 8 % 64 = 0 ∧ 3 ≤ (s.arr (c.f 8 1)).state) ∧ (all = (s.volsOf (c.f 8 1)).flatMap (fun v => (joinLost ((s.vol v).map.filter (·.kind = 2))).map fun e => (v, e.1, e.2))) :=
  ⟨0, arcState testArr 0x9E 32 [], ringCmd 0x9E 32 [], _, by decide, by decide, by decide, rfl⟩

theorem witness_ArrayAdminCompletes_10 : ∃ (id : Nat) (s : State) (c : Cmd) (r : Report),
    s.ready id 0x9F c = true ∧ s.hostFree c = true ∧ (c.zeros [(9, 7), (24, 8)] = true ∧ c.f 8 1 ≤ 63 ∧ c.f 16 8 % 64 = 0) ∧ (s.arr (c.f 8 1)).report = some r :=
  ⟨0, arcState { testArr with report := some { outcome := 0, alm := 0, freezeSeq := 0, ckptSeq := 0, x := 0, fromCopy1 := 0, blocksLost := 0, writesLost := 0, lost := 0, sealed := 0, missing := [] } } 0x9F 32 [], ringCmd 0x9F 32 [], { outcome := 0, alm := 0, freezeSeq := 0, ckptSeq := 0, x := 0, fromCopy1 := 0, blocksLost := 0, writesLost := 0, lost := 0, sealed := 0, missing := [] }, by decide⟩

theorem witness_ArrayAdminCompletes_11 : ∃ (id : Nat) (s : State) (c : Cmd),
    s.ready id 0x93 c = true ∧ (c.zeros [(9, 7), (24, 8)] = true ∧ c.f 8 1 ≤ 63) ∧ ((s.arr (c.f 8 1)).state = 0 ∨ (s.arr (c.f 8 1)).state = 7) :=
  ⟨0, (ringState 0x93 32 []), ringCmd 0x93 32 [], by decide⟩

theorem witness_ArrayAdminCompletes_12 : ∃ (id : Nat) (s : State) (c : Cmd),
    s.ready id 0x98 c = true ∧ (c.zeros [(14, 2), (24, 8)] = true ∧ c.f 11 1 / 2 = 0 ∧ c.f 8 2 ≤ 16383 ∧ c.f 10 1 ≤ 63 ∧ (s.vol (c.f 8 2)).state = 0) :=
  ⟨0, (ringState 0x98 32 []), ringCmd 0x98 32 [], by decide⟩

theorem witness_ArrayAdminCompletes_13 : ∃ (id : Nat) (s : State) (c : Cmd),
    s.ready id 0x9A c = true ∧ (c.zeros [(10, 6), (24, 8)] = true ∧ c.f 8 2 ≤ 16383 ∧ (s.vol (c.f 8 2)).state = 1) :=
  ⟨0, arcState testArr 0x9A 32 [], ringCmd 0x9A 32 [], by decide⟩

theorem witness_ArrayAdminCompletes_14 : ∃ (id : Nat) (s : State) (c : Cmd) (v : Nat),
    s.ready id 0x99 c = true ∧ v = c.f 8 2 ∧ (c.zeros [(10, 22)] = true ∧ v ≤ 16383 ∧ (s.vol v).state = 1 ∧ [3, 4, 5].contains (s.arr (s.vol v).array).state = true) ∧ ((s.vol v).waiter = none ∧ (s.vol v).exported = none ∧ s.volNamed v = false) ∧ ((s.updVol v fun y => { y with state := 2 }).volBusy v id = false) :=
  ⟨0, arcState testArr 0x99 32 [], ringCmd 0x99 32 [], _, by decide, rfl, by decide, by decide, by decide⟩

theorem witness_ArrayAdminCompletes_15 : ∃ (id : Nat) (s : State) (c : Cmd) (v : Nat),
    s.ready id 0x9B c = true ∧ v = c.f 8 2 ∧ (c.zeros [(10, 1), (14, 18)] = true ∧ v ≤ 16383 ∧ (s.vol v).state = 1 ∧ [3, 4, 5].contains (s.arr (s.vol v).array).state = true) ∧ (c.f 11 1 = 0 ∧ c.f 12 2 ≤ 4095) ∧ ((s.vol v).waiter = none ∧ (s.vol v).exported = none ∧ s.volNamed v = false ∧ s.volBusy v id = false) :=
  ⟨0, arcState testArr 0x9B 32 [], ringCmd 0x9B 32 [], _, by decide, rfl, by decide, by decide, by decide⟩

theorem witness_ArrayAdminCompletes_16 : ∃ (r : Req) (s : State),
    s.reachable r 0x330010 = true :=
  ⟨.pf0, ready, by decide⟩

theorem witness_ArrayAdminCompletes_17 : ∃ (r : Req) (s : State),
    (s.reachable r 0x330020 = true ∧ s.holds r = true) :=
  ⟨.pf0, ready, by decide⟩

theorem witness_ArrayAdminCompletes_18 : ∃ (r : Req) (p : Nat) (s : State),
    (p ≤ 5 ∧ s.reachable r (0x330100 + 4 * p) = true ∧ s.holds r = true) :=
  ⟨.pf0, 0, ready, by decide⟩

theorem witness_VolumeCompletes_1 : ∃ (id : Nat) (s : State) (c : Cmd),
    s.ready id 0x20 c = true ∧ s.hostFree c = true ∧ c.volZeros = false :=
  ⟨0, arcState testArr 0x20 64 [(12, 4, 1), (10, 1, 2)], ringCmd 0x20 64 [(12, 4, 1), (10, 1, 2)], by decide⟩

theorem witness_VolumeCompletes_2 : ∃ (id : Nat) (s : State) (c : Cmd),
    s.ready id 0x20 c = true ∧ s.hostFree c = true ∧ (c.volZeros = true ∧ (c.f 12 4 = 0 ∨ 256 < c.f 12 4)) :=
  ⟨0, arcState testArr 0x20 64 [], ringCmd 0x20 64 [], by decide⟩

theorem witness_VolumeCompletes_3 : ∃ (id : Nat) (s : State) (c : Cmd),
    s.ready id 0x20 c = true ∧ s.hostFree c = true ∧ (c.volZeros = true ∧ c.f 12 4 ≠ 0 ∧ c.f 12 4 ≤ 256 ∧ s.volRefusal c.ctx.toNat (c.f 8 2) (c.f 16 8) (c.f 12 4) false ≠ 0) :=
  ⟨0, (ringState 0x20 64 [(12, 4, 1)]), ringCmd 0x20 64 [(12, 4, 1)], by decide⟩

theorem witness_VolumeCompletes_4 : ∃ (id : Nat) (s : State) (c : Cmd),
    s.ready id 0x20 c = true ∧ s.hostFree c = true ∧ (c.volZeros = true ∧ c.f 12 4 ≠ 0 ∧ c.f 12 4 ≤ 256 ∧ s.volRefusal c.ctx.toNat (c.f 8 2) (c.f 16 8) (c.f 12 4) false = 0) ∧ s.leafMiss (c.f 8 2) (c.f 16 8) (c.f 16 8 + c.f 12 4) = true :=
  ⟨0, (fun y : State => { y with arc := { y.arc with vols := [(0, { state := 1, vblk := 100, owner := 0x1000, leaves := [{ first := 0, resident := false, dirty := false, used := 0 }] })] } }) (arcState testArr 0x20 64 [(12, 4, 1)]), ringCmd 0x20 64 [(12, 4, 1)], by decide⟩

theorem witness_VolumeCompletes_5 : ∃ (id : Nat) (s : State) (c : Cmd),
    s.ready id 0x20 c = true ∧ s.hostFree c = true ∧ (c.volZeros = true ∧ c.f 12 4 ≠ 0 ∧ c.f 12 4 ≤ 256 ∧ s.volRefusal c.ctx.toNat (c.f 8 2) (c.f 16 8) (c.f 12 4) false = 0) ∧ s.leafMiss (c.f 8 2) (c.f 16 8) (c.f 16 8 + c.f 12 4) = false :=
  ⟨0, arcState testArr 0x20 64 [(12, 4, 1)], ringCmd 0x20 64 [(12, 4, 1)], by decide⟩

theorem witness_VolumeCompletes_6 : ∃ (id : Nat) (s : State) (c : Cmd),
    s.ready id 0x21 c = true ∧ s.hostFree c = true ∧ c.volZeros = false :=
  ⟨0, arcState testArr 0x21 64 [(12, 4, 1), (10, 1, 2)], ringCmd 0x21 64 [(12, 4, 1), (10, 1, 2)], by decide⟩

theorem witness_VolumeCompletes_7 : ∃ (id : Nat) (s : State) (c : Cmd),
    s.ready id 0x21 c = true ∧ s.hostFree c = true ∧ (c.volZeros = true ∧ (c.f 12 4 = 0 ∨ 256 < c.f 12 4)) :=
  ⟨0, arcState testArr 0x21 64 [], ringCmd 0x21 64 [], by decide⟩

theorem witness_VolumeCompletes_8 : ∃ (id : Nat) (s : State) (c : Cmd),
    s.ready id 0x21 c = true ∧ s.hostFree c = true ∧ (c.volZeros = true ∧ c.f 12 4 ≠ 0 ∧ c.f 12 4 ≤ 256 ∧ s.writeRefusal c ≠ 0) :=
  ⟨0, (ringState 0x21 64 [(12, 4, 1)]), ringCmd 0x21 64 [(12, 4, 1)], by decide⟩

theorem witness_VolumeCompletes_9 : ∃ (id : Nat) (s : State) (c : Cmd),
    s.ready id 0x21 c = true ∧ s.hostFree c = true ∧ (c.volZeros = true ∧ c.f 12 4 ≠ 0 ∧ c.f 12 4 ≤ 256 ∧ s.writeRefusal c = 0) ∧ s.leafMiss (c.f 8 2) (c.f 16 8) (c.f 16 8 + c.f 12 4) = true :=
  ⟨0, (fun y : State => { y with arc := { y.arc with vols := [(0, { state := 1, vblk := 100, owner := 0x1000, leaves := [{ first := 0, resident := false, dirty := false, used := 0 }] })] } }) (arcState testArr 0x21 64 [(12, 4, 1)]), ringCmd 0x21 64 [(12, 4, 1)], by decide⟩

theorem witness_VolumeCompletes_10 : ∃ (id : Nat) (s : State) (c : Cmd),
    s.ready id 0x21 c = true ∧ s.hostFree c = true ∧ (c.volZeros = true ∧ c.f 12 4 ≠ 0 ∧ c.f 12 4 ≤ 256 ∧ s.writeRefusal c = 0) ∧ s.leafMiss (c.f 8 2) (c.f 16 8) (c.f 16 8 + c.f 12 4) = false :=
  ⟨0, arcState testArr 0x21 64 [(12, 4, 1)], ringCmd 0x21 64 [(12, 4, 1)], by decide⟩

theorem witness_VolumeCompletes_11 : ∃ (id : Nat) (s : State) (c : Cmd),
    s.ready id 0x22 c = true ∧ ((s.hif.cmds.any fun x => x.id < id && x.origin = c.origin && x.writesVol (c.f 8 2)) = false) ∧ (c.volZeros = true ∧ c.f 12 4 = 0 ∧ c.f 24 8 = 0) :=
  ⟨0, (ringState 0x22 32 []), ringCmd 0x22 32 [], by decide⟩

theorem witness_VolumeCompletes_12 : ∃ (id : Nat) (s : State) (c : Cmd),
    s.ready id 0x22 c = true ∧ ((s.hif.cmds.any fun x => x.id < id && x.origin = c.origin && x.writesVol (c.f 8 2)) = false) ∧ c.volZeros = false :=
  ⟨0, (ringState 0x22 32 [(10, 1, 2)]), ringCmd 0x22 32 [(10, 1, 2)], by decide⟩

theorem witness_VolumeCompletes_13 : ∃ (id : Nat) (s : State) (c : Cmd),
    s.ready id 0x22 c = true ∧ ((s.hif.cmds.any fun x => x.id < id && x.origin = c.origin && x.writesVol (c.f 8 2)) = false) ∧ (c.volZeros = true ∧ (c.f 12 4 ≠ 0 ∨ c.f 24 8 ≠ 0)) :=
  ⟨0, (ringState 0x22 32 [(12, 4, 1)]), ringCmd 0x22 32 [(12, 4, 1)], by decide⟩

theorem witness_VolumeCompletes_14 : ∃ (id : Nat) (s : State) (c : Cmd),
    s.ready id 0x23 c = true ∧ c.volZeros = false :=
  ⟨0, (ringState 0x23 32 [(10, 1, 2)]), ringCmd 0x23 32 [(10, 1, 2)], by decide⟩

theorem witness_VolumeCompletes_15 : ∃ (id : Nat) (s : State) (c : Cmd),
    s.ready id 0x23 c = true ∧ (c.volZeros = true ∧ (c.f 12 4 = 0 ∨ c.f 24 8 ≠ 0)) :=
  ⟨0, (ringState 0x23 32 []), ringCmd 0x23 32 [], by decide⟩

theorem witness_VolumeCompletes_16 : ∃ (id : Nat) (s : State) (c : Cmd),
    s.ready id 0x23 c = true ∧ (c.volZeros = true ∧ c.f 12 4 ≠ 0 ∧ c.f 24 8 = 0 ∧ s.volRefusal c.ctx.toNat (c.f 8 2) (c.f 16 8) (c.f 12 4) true ≠ 0) :=
  ⟨0, (ringState 0x23 32 [(12, 4, 1)]), ringCmd 0x23 32 [(12, 4, 1)], by decide⟩

theorem witness_VolumeCompletes_17 : ∃ (id : Nat) (s : State) (c : Cmd),
    s.ready id 0x23 c = true ∧ (c.volZeros = true ∧ c.f 12 4 ≠ 0 ∧ c.f 24 8 = 0 ∧ s.volRefusal c.ctx.toNat (c.f 8 2) (c.f 16 8) (c.f 12 4) true = 0) :=
  ⟨0, arcState testArr 0x23 32 [(12, 4, 1)], ringCmd 0x23 32 [(12, 4, 1)], by decide⟩

theorem witness_VolumeCompletes_18 : ∃ (id : Nat) (s : State) (c : Cmd),
    s.ready id 0x24 c = true ∧ c.volZeros = false :=
  ⟨0, (ringState 0x24 32 [(10, 1, 2)]), ringCmd 0x24 32 [(10, 1, 2)], by decide⟩

theorem witness_VolumeCompletes_19 : ∃ (id : Nat) (s : State) (c : Cmd),
    s.ready id 0x24 c = true ∧ (c.volZeros = true ∧ (c.f 12 4 = 0 ∨ c.f 24 8 ≠ 0)) :=
  ⟨0, (ringState 0x24 32 []), ringCmd 0x24 32 [], by decide⟩

theorem witness_VolumeCompletes_20 : ∃ (id : Nat) (s : State) (c : Cmd),
    s.ready id 0x24 c = true ∧ (c.volZeros = true ∧ c.f 12 4 ≠ 0 ∧ c.f 24 8 = 0 ∧ s.volRefusal c.ctx.toNat (c.f 8 2) (c.f 16 8) (c.f 12 4) false ≠ 0) :=
  ⟨0, (ringState 0x24 32 [(12, 4, 1)]), ringCmd 0x24 32 [(12, 4, 1)], by decide⟩

theorem witness_VolumeCompletes_21 : ∃ (id : Nat) (s : State) (c : Cmd),
    s.ready id 0x24 c = true ∧ (c.volZeros = true ∧ c.f 12 4 ≠ 0 ∧ c.f 24 8 = 0 ∧ s.volRefusal c.ctx.toNat (c.f 8 2) (c.f 16 8) (c.f 12 4) false = 0) :=
  ⟨0, arcState testArr 0x24 32 [(12, 4, 1)], ringCmd 0x24 32 [(12, 4, 1)], by decide⟩

theorem witness_VolumeCompletes_22 : ∃ (id : Nat) (s : State) (c : Cmd),
    s.cmd? id = some c ∧ (c.op = 0x21 ∧ c.phase = waitSpace ∧ s.hostWaits c = false ∧ s.serving 0x21 = true ∧ s.heldR2t c = none) ∧ ([3, 4, 6].contains (s.arr (s.vol (c.f 8 2)).array).state = true ∧ s.admits c.ctx.toNat (c.f 8 2) (c.f 12 4) = true ∧ s.spaceTaken id (s.vol (c.f 8 2)).array = false) :=
  ⟨0, { arcState testArr 0x21 64 [] with hif := { ready.hif with cmds := [{ ringCmd 0x21 64 [(12, 4, 1)] with phase := waitSpace }] } }, { ringCmd 0x21 64 [(12, 4, 1)] with phase := waitSpace }, by decide⟩

theorem witness_VolumeCompletes_23 : ∃ (id : Nat) (s : State) (c : Cmd) (conn : Nat) (cid : Nat),
    s.cmd? id = some c ∧ (c.op = 0x21 ∧ c.phase = waitSpace ∧ s.hostWaits c = false ∧ s.serving 0x21 = true ∧ s.heldR2t c = some (conn, cid)) ∧ ([3, 4, 6].contains (s.arr (s.vol (c.f 8 2)).array).state = true ∧ s.cacheFull (s.vol (c.f 8 2)).array = false) :=
  ⟨0, { netState 1 with hif := { (netState 1).hif with cmds := [{ ringCmd 0x21 64 [(12, 4, 1)] with origin := .net 0 0, phase := waitSpace }] }, net := { (netState 1).net with conns := [(0, { state := 3, qid := 1, cntl := 1, writes := [{ testWrite with r2t := 0 }] })] } }, { ringCmd 0x21 64 [(12, 4, 1)] with origin := .net 0 0, phase := waitSpace }, 0, 0, by decide +kernel, by decide +kernel, by decide +kernel⟩

theorem witness_VolumeCompletes_24 : ∃ (id : Nat) (s : State) (c : Cmd),
    s.cmd? id = some c ∧ ((c.op = 0x23 ∨ c.op = 0x24) ∧ c.phase = waitSpace ∧ s.hostWaits c = false ∧ s.serving c.op = true) ∧ ([3, 4, 6].contains (s.arr (s.vol (c.f 8 2)).array).state = true ∧ (s.arr (s.vol (c.f 8 2)).array).room 48 = true) :=
  ⟨0, { arcState testArr 0x23 32 [] with hif := { ready.hif with cmds := [{ ringCmd 0x23 32 [(12, 4, 1)] with phase := waitSpace }] } }, { ringCmd 0x23 32 [(12, 4, 1)] with phase := waitSpace }, by decide⟩

theorem witness_VolumeCompletes_25 : ∃ (id : Nat) (s : State) (c : Cmd),
    s.cmd? id = some c ∧ (c.phase = waitLeaf ∧ s.hostWaits c = false ∧ s.serving c.op = true ∧ c.op = 0x20) ∧ s.lateRefusal (c.f 8 2) false = 0 :=
  ⟨0, { arcState testArr 0x20 64 [] with hif := { ready.hif with cmds := [{ ringCmd 0x20 64 [(12, 4, 1)] with phase := waitLeaf }] } }, { ringCmd 0x20 64 [(12, 4, 1)] with phase := waitLeaf }, by decide⟩

theorem witness_VolumeCompletes_26 : ∃ (id : Nat) (s : State) (c : Cmd),
    s.cmd? id = some c ∧ (c.phase = waitLeaf ∧ s.hostWaits c = false ∧ s.serving c.op = true ∧ c.op ≠ 0x20) ∧ s.lateRefusal (c.f 8 2) true = 0 :=
  ⟨0, { arcState testArr 0x20 64 [] with hif := { ready.hif with cmds := [{ ringCmd 0x21 64 [(12, 4, 1)] with phase := waitLeaf }] } }, { ringCmd 0x21 64 [(12, 4, 1)] with phase := waitLeaf }, by decide⟩

theorem witness_VolumeCompletes_27 : ∃ (id : Nat) (s : State) (c : Cmd),
    s.cmd? id = some c ∧ (c.phase = waitLeaf ∧ s.hostWaits c = false ∧ s.serving c.op = true ∧ c.op ≠ 0x20) ∧ s.lateRefusal (c.f 8 2) true ≠ 0 :=
  ⟨0, { arcState { testArr with state := 5 } 0x20 64 [] with hif := { ready.hif with cmds := [{ ringCmd 0x21 64 [(12, 4, 1)] with phase := waitLeaf }] } }, { ringCmd 0x21 64 [(12, 4, 1)] with phase := waitLeaf }, by decide⟩

theorem witness_VolumeCompletes_28 : ∃ (id : Nat) (s : State) (c : Cmd),
    s.cmd? id = some c ∧ (c.phase = waitLeaf ∧ s.hostWaits c = false ∧ s.serving c.op = true ∧ c.op = 0x20) ∧ s.lateRefusal (c.f 8 2) false ≠ 0 :=
  ⟨0, { arcState { testArr with state := 7 } 0x20 64 [] with hif := { ready.hif with cmds := [{ ringCmd 0x20 64 [(12, 4, 1)] with phase := waitLeaf }] } }, { ringCmd 0x20 64 [(12, 4, 1)] with phase := waitLeaf }, by decide⟩

theorem witness_MediaCompletes_1 : ∃ (a : Nat) (stream : Nat) (s : State) (i : Nat),
    (s.arrWrites a = true ∧ (s.arr a).openOf stream = none ∧ s.streamNeeds a stream = true ∧ (s.arr a).opensRoom = true) ∧ s.nextSlot a = some i :=
  ⟨0, 2, dirtyState, 0, by decide +kernel, nextSlot_one (x := testArr) (op := 0) (n := 32) (fs := [])⟩

theorem witness_MediaCompletes_2 : ∃ (a : Nat) (stream : Nat) (s : State) (i : Nat),
    (s.arr a).openOf stream = some i ∧ (s.arrWrites a = true ∧ ((s.arr a).stripe i).blocks ≠ [] ∧ s.elapsed ((s.arr a).stripe i).at_ (1000 * (s.arr a).closeUs) = true) :=
  ⟨0, 0, { arcState { testArr with stripes := [(0, { state := 1, stream := 0, blocks := [{ vol := 0, lba := 0, seq := 0, from_ := 0, ctx := 0, gen := 0, data := [] }] })] } 0 32 [] with clk := { ready.clk with alm := 1000000000 } }, 0, by decide⟩

theorem witness_MediaCompletes_3 : ∃ (a : Nat) (st : Nat) (s : State) (x : Arr) (w : Stripe),
    x = s.arr a ∧ w = x.stripe st ∧ (s.arrWrites a = true ∧ w.state = 2 ∧ (x.geoOf st).k ≤ (s.writable a st).length ∧ (w.stream = 0 && x.olderHost st) = false) :=
  ⟨0, 0, arcState { testArr with stripes := [(0, { state := 2, stream := 2 })] } 0 32 [], _, _, rfl, rfl, by decide⟩

theorem witness_MediaCompletes_4 : ∃ (a : Nat) (st : Nat) (s : State),
    (s.arrWrites a = true ∧ 3 ≤ ((s.arr a).stripe st).state ∧ s.liveOf a st = [] ∧ (s.arr a).room 32 = true) :=
  ⟨0, 0, arcState { testArr with stripes := [(0, { state := 3 })] } 0 32 [], by decide⟩

theorem witness_MediaCompletes_5 : ∃ (a : Nat) (s : State) (i : Nat),
    s.victim a = some i ∧ (s.arrWrites a = true ∧ (s.arr a).state ≠ 6) :=
  ⟨0, arcState { testArr with stripes := [(0, { state := 3 })] } 0 32 [], 0, by decide⟩

theorem witness_MediaCompletes_6 : ∃ (a : Nat) (s : State) (t : State),
    s.arrWrites a = true ∧ (ringBytes ≤ 2 * (s.arr a).journalUsed ∨ (s.arr a).ckptAt.toNat + 10000000000 ≤ s.alm ∨ s.pwr.phase = 3 ∧ (s.arr a).cache = []) ∧ s.checkpoint? a = some t :=
  ⟨0, { bareState testArr 0 32 [] with clk := { ready.clk with alm := 10000000000 } }, (({ bareState testArr 0 32 [] with clk := { ready.clk with alm := 10000000000 } } : State).checkpoint? 0).getD ready, by decide, by decide, getD_some (by decide +kernel)⟩

theorem witness_MediaCompletes_7 : ∃ (n : Nat) (s : State),
    (n < 64 ∧ (s.member n).works = true) :=
  ⟨0, arcState testArr 0 32 [], by decide⟩

theorem witness_MediaCompletes_8 : ∃ (n : Nat) (mediaErr : Bool) (s : State),
    (n < 64 ∧ (s.member n).works = true) ∧ mediaErr = false :=
  ⟨0, false, arcState testArr 0 32 [], by decide⟩

theorem witness_MediaCompletes_9 : ∃ (n : Nat) (blk : Nat) (mediaErr : Bool) (s : State) (x : Arr) (g : Geo) (i : Nat) (p : Nat) (e : Nat) (abn : Nat) (t : State),
    (n < 64 ∧ (s.member n).works = true) ∧ (mediaErr = true ∧ x = s.arr (s.member n).array) ∧ (i = (blk - x.chunkBlk 0 0) / 16 ∧ g = x.geoOf i) ∧ g.posOf n = some p ∧ e = (p + g.n - i % g.n) % g.n ∧ abn = x.baseAbn i + 16 * e + (blk - x.chunkBlk 0 0) % 16 ∧ t = s.setMember n { s.member n with bad := put false (s.member n).bad blk true } :=
  ⟨0, 0, true, arcState testArr 0 32 [], _, _, _, 0, _, _, _, by decide, ⟨rfl, rfl⟩, ⟨rfl, rfl⟩, by decide, rfl, rfl, rfl⟩

theorem witness_MediaCompletes_10 : ∃ (w : MemberLoss) (s : State) (n : Nat),
    w = .link n ∧ (n < 64 ∧ (s.member n).works = true) :=
  ⟨.link 0, arcState testArr 0 32 [], 0, rfl, by decide⟩

theorem witness_MediaCompletes_11 : ∃ (w : MemberLoss) (s : State) (n : Nat),
    w = .fatalStatus n ∧ (n < 64 ∧ (s.member n).works = true) :=
  ⟨.fatalStatus 0, arcState testArr 0 32 [], 0, rfl, by decide⟩

theorem witness_MediaCompletes_12 : ∃ (id : Nat) (s : State) (c : Cmd),
    s.ready id 0x9C c = true ∧ (c.f 9 1 = 0 ∧ c.zeros [(14, 18)] = true ∧ c.f 8 1 ≤ 63 ∧ c.f 12 2 ≤ 4095 ∧ (s.arr (c.f 8 1)).rebuild.state < 2) ∧ ((s.arr (c.f 8 1)).state = 4 ∨ (s.arr (c.f 8 1)).state = 5) :=
  ⟨0, arcState { testArr with state := 4 } 0x9C 32 [], ringCmd 0x9C 32 [], by decide⟩

theorem witness_MediaCompletes_13 : ∃ (id : Nat) (s : State) (c : Cmd),
    s.ready id 0x9C c = true ∧ (c.f 9 1 = 1 ∧ c.zeros [(14, 18)] = true ∧ c.f 8 1 ≤ 63 ∧ c.f 12 2 ≤ 4095 ∧ (s.arr (c.f 8 1)).rebuild.state = 2) ∧ ((s.arr (c.f 8 1)).state = 4 ∨ (s.arr (c.f 8 1)).state = 5) :=
  ⟨0, arcState { testArr with state := 4, rebuild := { state := 2 } } 0x9C 32 [(9, 1, 1)], ringCmd 0x9C 32 [(9, 1, 1)], by decide⟩

theorem witness_MediaCompletes_14 : ∃ (id : Nat) (s : State) (c : Cmd),
    s.ready id 0x9C c = true ∧ (c.f 9 1 = 2 ∧ c.zeros [(14, 18)] = true ∧ c.f 8 1 ≤ 63 ∧ c.f 12 2 ≤ 4095 ∧ (s.arr (c.f 8 1)).rebuild.state = 3) ∧ ((s.arr (c.f 8 1)).state = 4 ∨ (s.arr (c.f 8 1)).state = 5) :=
  ⟨0, arcState { testArr with state := 4, rebuild := { state := 3 } } 0x9C 32 [(9, 1, 2)], ringCmd 0x9C 32 [(9, 1, 2)], by decide⟩

theorem witness_MediaCompletes_15 : ∃ (a : Nat) (s : State) (x : Arr) (writes : Bool) (r : State) (t : State) (u : State),
    s.arr a = x ∧ (a < 64 ∧ x.rebuild.state = 2 ∧ (x.state = 4 ∨ x.state = 5) ∧ s.arcRuns = true) ∧ ((x.stripe x.rebuild.cur).state = 2 && !(x.stripe x.rebuild.cur).rebuilt) = false ∧ writes = (3 ≤ (x.stripe x.rebuild.cur).state && !(x.stripe x.rebuild.cur).rebuilt) ∧ r = (match (if writes then (x.geoOf x.rebuild.cur).posOf x.rebuild.old else none) with | some p => (s.readSources a x.rebuild.cur ((p + (x.geoOf x.rebuild.cur).n - x.rebuild.cur % (x.geoOf x.rebuild.cur).n) % (x.geoOf x.rebuild.cur).n) (x.stripe x.rebuild.cur)).fillTarget a x.rebuild.cur | none => if writes then s.fillTarget a x.rebuild.cur else s) ∧ (t = r.updArr a fun y => { y with rebuild := { y.rebuild with cur := y.rebuild.cur + 1, since := if writes then y.rebuild.since + 65536 else y.rebuild.since } }) ∧ u = (if recordBytes ≤ (t.arr a).rebuild.since then t.writeProgress a else t) :=
  ⟨0, arcState { testArr with state := 4, rebuild := { state := 2 }, s := 2 } 0 32 [], { testArr with state := 4, rebuild := { state := 2 }, s := 2 }, _, _, _, _, by decide, by decide, by decide, rfl, rfl, rfl, rfl⟩

theorem witness_MediaCompletes_16 : ∃ (id : Nat) (s : State) (c : Cmd),
    s.ready id 0x9D c = true ∧ (c.zeros [(11, 1), (14, 18), (68, 28)] = true ∧ c.f 8 1 ≤ 63 ∧ c.f 12 2 ≤ 4095) ∧ ((s.arr (c.f 8 1)).reshaping = false ∧ (s.arr (c.f 8 1)).rebuild.state < 2 ∧ (s.arr (c.f 8 1)).state = 3) :=
  ⟨0, arcState testArr 0x9D 96 [], ringCmd 0x9D 96 [], by decide⟩

theorem witness_MediaCompletes_17 : ∃ (a : Nat) (s : State) (x : Arr),
    s.arr a = x ∧ (s.arrWrites a = true ∧ x.state ≠ 6 ∧ x.reshape.state = 1 ∧ x.reshape.since < recordBytes ∧ x.reshape.b < x.s) ∧ (x.stripe x.reshape.b).state = 0 :=
  ⟨0, arcState { testArr with reshape := { state := 1 } } 0 32 [], { testArr with reshape := { state := 1 } }, by decide⟩

theorem witness_MediaCompletes_18 : ∃ (a : Nat) (s : State) (x : Arr),
    s.arr a = x ∧ (s.arrWrites a = true ∧ x.state ≠ 6 ∧ x.reshape.state = 1 ∧ x.reshape.since < recordBytes ∧ x.reshape.b < x.s) ∧ (x.stripe x.reshape.b).state = 3 :=
  ⟨0, arcState { testArr with reshape := { state := 1 }, stripes := [(0, { state := 3 })] } 0 32 [], { testArr with reshape := { state := 1 }, stripes := [(0, { state := 3 })] }, by decide⟩

theorem witness_MediaCompletes_19 : ∃ (a : Nat) (s : State) (x : Arr) (t : State),
    s.arr a = x ∧ (s.arrWrites a = true ∧ x.state ≠ 6 ∧ x.reshape.state = 1 ∧ x.reshape.since < recordBytes ∧ x.s ≤ x.reshape.b) ∧ ((s.updArr a fun y => { y with reshape := { y.reshape with state := 3 } }).advanceDurable a x.s = some t) :=
  ⟨0, bareState { testArr with reshape := { state := 1, b := 1 } } 0 32 [], { testArr with reshape := { state := 1, b := 1 } }, (((bareState { testArr with reshape := { state := 1, b := 1 } } 0 32 []).updArr 0 fun y => { y with reshape := { y.reshape with state := 3 } }).advanceDurable 0 1).getD ready, rfl, by decide, getD_some (by decide +kernel)⟩

theorem witness_MediaCompletes_20 : ∃ (a : Nat) (s : State) (x : Arr) (t : State),
    s.arr a = x ∧ (s.arrWrites a = true ∧ x.state ≠ 6 ∧ x.reshape.state = 1 ∧ recordBytes ≤ x.reshape.since) ∧ s.advanceDurable a x.reshape.b = some t :=
  ⟨0, bareState { testArr with reshape := { state := 1, since := recordBytes } } 0 32 [], { testArr with reshape := { state := 1, since := recordBytes } }, ((bareState { testArr with reshape := { state := 1, since := recordBytes } } 0 32 []).advanceDurable 0 0).getD ready, rfl, by decide, getD_some (by decide +kernel)⟩

theorem witness_MediaCompletes_21 : ∃ (a : Nat) (s : State) (x : Arr) (gone : List Nat) (s1 : State) (s2 : State) (s3 : State) (s4 : State),
    s.arr a = x ∧ (a < 64 ∧ (x.state = 3 ∨ x.state = 4) ∧ x.reshape.state = 3 ∧ s.arcRuns = true) ∧ (gone = (x.members ++ if 2 ≤ x.rebuild.state && (x.reshape.rename x.rebuild.old).isNone then [x.rebuild.member] else []).filter fun y => !x.reshape.pos.contains y) ∧ (s1 = gone.foldl (fun (y : State) z => if [3, 5].contains (y.member z).state then y.eraseLabels z else y) s) ∧ s2 = s1.updArr a Arr.finishReshape ∧ (s3 = x.reshape.pos.zipIdx.foldl (fun (y : State) e => y.updMember e.1 fun w => if w.state = 3 then { w with pos := e.2 } else w) s2) ∧ (s4 = (if 2 ≤ (s3.arr a).rebuild.state then s3.updMember (s3.arr a).rebuild.member fun w => { w with pos := (s3.arr a).rebuild.pos } else s3)) :=
  ⟨0, arcState { testArr with reshape := { state := 3, k := 1, m := 1, pos := [0, 1] } } 0 32 [], { testArr with reshape := { state := 3, k := 1, m := 1, pos := [0, 1] } }, _, _, _, _, _, by decide, by decide, rfl, rfl, rfl, rfl, rfl⟩

theorem witness_MediaCompletes_22 : ∃ (s : State) (v : State),
    (s.arc.pf = 0 ∧ (look {} s.evc.pins 0).flt = false) ∧ (v = (List.range 64).foldl (fun (y : State) a => y.freezeArr a) s) :=
  ⟨{ ready with evc := { pins := [(0, { flt := false })] } }, _, by decide, rfl⟩

theorem witness_MediaCompletes_23 : ∃ (a : Nat) (n : Nat) (s : State) (x : Arr) (v : Nat) (sl : List (List Byte)),
    s.arr a = x ∧ x.streams.findIdx? (· = n) = some v ∧ (s.arc.pf = 1 ∧ a < 64 ∧ s.memberUp a n = true ∧ s.vaulted a = true ∧ x.seals.contains n = false) ∧ sl = x.imageSlots v :=
  ⟨0, 0, sealState, { testArr with stripes := [(0, { state := 1 })], streams := [0] }, 0, _, rfl, by decide, by decide, rfl⟩

theorem witness_MediaCompletes_24 : ∃ (a : Nat) (s : State),
    (a < 64 ∧ (s.arr a).state = 2 ∧ s.arcRuns = true ∧ (s.arr a).cmd = none) :=
  ⟨0, arcState { testArr with state := 2 } 0 32 [], by decide⟩

theorem witness_MediaCompletes_25 : ∃ (a : Nat) (s : State) (id : Nat),
    (a < 64 ∧ (s.arr a).state = 2 ∧ s.arcRuns = true) ∧ (s.arr a).cmd = some id :=
  ⟨0, arcState { testArr with state := 2, cmd := some 0 } 0x93 32 [], 0, by decide⟩

theorem witness_PortCompletes_1 : ∃ (port : Nat) (lanes : BitVec 4) (s : State),
    (s.netp = true ∧ port < 2 ∧ s.ungated = true) ∧ (modeLanes (s.port port).mode ≠ 0 && lanes &&& modeLanes (s.port port).mode = modeLanes (s.port port).mode) = (s.port port).link :=
  ⟨0, 15, netState 0, by decide⟩

theorem witness_PortCompletes_2 : ∃ (port : Nat) (lanes : BitVec 4) (s : State),
    (s.netp = true ∧ port < 2 ∧ s.ungated = true) ∧ (modeLanes (s.port port).mode ≠ 0 ∧ lanes &&& modeLanes (s.port port).mode = modeLanes (s.port port).mode ∧ (s.port port).link = false) :=
  ⟨0, 15, { ready with net := { ports := [(0, { mode := 1 })] } }, by decide⟩

theorem witness_PortCompletes_3 : ∃ (port : Nat) (s : State),
    (s.netp = true ∧ port < 2 ∧ s.ungated = true ∧ (s.port port).mode ≠ 0) :=
  ⟨0, netState 0, by decide⟩

theorem witness_PortCompletes_4 : ∃ (port : Nat) (s : State),
    s.portOpen port = true :=
  ⟨0, netState 0, by decide⟩

theorem witness_PortCompletes_5 : ∃ (port : Nat) (ifc : Nat) (s : State),
    (s.portOpen port = true ∧ s.ifOn port ifc = true) :=
  ⟨0, 0, netState 0, by decide⟩

theorem witness_PortCompletes_6 : ∃ (port : Nat) (msgType : BitVec 4) (s : State),
    (s.portOpen port = true ∧ msgType.toNat < 4 ∧ s.net.fifo.length < 64) :=
  ⟨0, 0, netState 0, by decide⟩

theorem witness_PortCompletes_7 : ∃ (port : Nat) (msgType : BitVec 4) (s : State),
    (s.portOpen port = true ∧ msgType.toNat < 4 ∧ 64 ≤ s.net.fifo.length) :=
  ⟨0, 0, { netState 0 with net := { (netState 0).net with fifo := List.replicate 64 { port := 0, tx := false, msgType := 0, seqId := 0, ts := 0 } } }, by decide⟩

theorem witness_PortCompletes_8 : ∃ (r : Req) (s : State),
    s.reachable r 0x35013C = true :=
  ⟨.pf0, ready, by decide⟩

theorem witness_PortCompletes_9 : ∃ (r : Req) (p : Nat) (s : State),
    (p < 2 ∧ s.reachable r (0x350100 + 4 * p) = true) :=
  ⟨.pf0, 0, ready, by decide⟩

theorem witness_PortCompletes_10 : ∃ (id : Nat) (s : State) (c : Cmd),
    s.ready id 0xA0 c = true ∧ s.hostWaits c = false ∧ (c.zeros [(11, 1), (14, 2), (24, 8)] = true ∧ c.f 10 1 = 0 ∧ c.f 8 2 < 4096 ∧ c.f 12 2 ≠ 0 ∧ c.f 12 2 ≤ 4096 ∧ c.f 16 8 % 64 = 0) ∧ (s.hostFails c.fn (c.f 16 8) 4352 = false ∧ (s.subsys (c.f 8 2)).en = false) :=
  ⟨0, (ringState 0xA0 32 [(12, 2, 4)]), ringCmd 0xA0 32 [(12, 2, 4)], by decide⟩

theorem witness_PortCompletes_11 : ∃ (id : Nat) (s : State) (c : Cmd),
    s.ready id 0xA0 c = true ∧ (c.zeros [(11, 1), (14, 2), (24, 8)] = true ∧ c.f 10 1 = 1 ∧ c.f 8 2 < 4096) ∧ ((s.subsys (c.f 8 2)).en = true ∧ s.exportsOf (c.f 8 2) = []) :=
  ⟨0, { ringState 0xA0 32 [(10, 1, 1)] with net := (netState 0).net }, ringCmd 0xA0 32 [(10, 1, 1)], by decide⟩

theorem witness_PortCompletes_12 : ∃ (id : Nat) (s : State) (c : Cmd),
    s.ready id 0xA1 c = true ∧ (c.zeros [(11, 1), (16, 16)] = true ∧ c.f 10 1 = 0 ∧ c.f 8 2 < 16384 ∧ c.f 12 4 ≠ 0 ∧ c.f 12 4 ≤ 1024 ∧ (s.vol (c.f 8 2)).exported = none) :=
  ⟨0, (ringState 0xA1 32 [(12, 4, 1)]), ringCmd 0xA1 32 [(12, 4, 1)], by decide⟩

theorem witness_PortCompletes_13 : ∃ (id : Nat) (s : State) (c : Cmd),
    s.ready id 0xA1 c = true ∧ (c.zeros [(11, 1), (16, 16)] = true ∧ c.f 10 1 = 1 ∧ c.f 8 2 < 16384 ∧ c.f 12 4 ≠ 0 ∧ c.f 12 4 ≤ 1024) ∧ ((s.vol (c.f 8 2)).exported.isSome = true ∧ (s.vol (c.f 8 2)).unexporting = none) :=
  ⟨0, { ringState 0xA1 32 [(10, 1, 1), (12, 4, 1)] with arc := (netState 0).arc }, ringCmd 0xA1 32 [(10, 1, 1), (12, 4, 1)], by decide⟩

theorem witness_PortCompletes_14 : ∃ (port : Nat) (ifc : Nat) (dport : Nat) (syn : Syn) (s : State),
    (s.portOpen port = true ∧ s.ifOn port ifc = true) ∧ (dport = 4420 ∧ (s.net.conns.filter fun e => e.2.state ≠ 0 && e.2.port = port).length < 2048) ∧ ((syn.target.any fun p => (s.subsys p).maxConn ≤ (s.net.conns.filter fun e => e.2.state = 3 && e.2.part = p).length) = false) :=
  ⟨0, 0, 4420, {}, netState 0, by decide⟩

theorem witness_PortCompletes_15 : ∃ (port : Nat) (ifc : Nat) (dport : Nat) (s : State),
    (s.portOpen port = true ∧ s.ifOn port ifc = true) ∧ dport ≠ 4420 :=
  ⟨0, 0, 0, netState 0, by decide⟩

theorem witness_PortCompletes_16 : ∃ (c : Nat) (s : State),
    (s.conn c).state ≠ 0 :=
  ⟨0, netState 0, by decide⟩

theorem witness_PortCompletes_17 : ∃ (c : Nat) (pfv : Nat) (hpda : Nat) (s : State),
    (s.pduCan c = true ∧ (s.conn c).state = 1 ∧ pfv = 0 ∧ hpda ≤ 31) :=
  ⟨0, 0, 0, newConn 1, by decide⟩

theorem witness_PortCompletes_18 : ∃ (c : Nat) (s : State),
    s.pduCan c = true :=
  ⟨0, netState 0, by decide⟩

theorem witness_PortCompletes_19 : ∃ (c : Nat) (bad : BadPdu) (s : State),
    (s.pduCan c = true ∧ (match bad with | .type n => !([0, 2, 4, 6]).contains n | .field => true | .headerDigest => (s.conn c).hdgst) = true) :=
  ⟨0, .type 9, netState 0, by decide⟩

theorem witness_PortCompletes_20 : ∃ (cntl : Nat) (s : State),
    ((look {} s.net.ctrls cntl).live = true ∧ (look {} s.net.ctrls cntl).kato ≠ 0) ∧ s.elapsed (look {} s.net.ctrls cntl).heardAt (1000000 * (look {} s.net.ctrls cntl).kato) = true :=
  ⟨1, { netState 0 with clk := { ready.clk with alm := 1000000000000 } }, by decide⟩

theorem witness_NvmeCompletes_1 : ∃ (c : Nat) (cid : Nat) (qid : Nat) (cntlid : Nat) (hostnqn : List Byte) (subnqn : List Byte) (prm : ConnectParams) (s : State) (y : State) (p : Nat),
    (s.pduCan c = true ∧ s.portCmds (s.conn c).port < 16384 ∧ s.pwr.ps ≠ 2 ∧ (s.conn c).state = 2 ∧ (s.connCmds c).any (fun e => e.origin = .net c cid) = false) ∧ y = s.capsuleCounted c 1024 ∧ (prm.dataOk = true ∧ (y.conn c).state = 2 ∧ prm.sqsize ≤ 127) ∧ (y.connectRefusal qid cntlid (nqnName hostnqn) (nqnName subnqn) = none ∧ qid ≠ 0) ∧ (p = ((y.net.subsys.find? fun e => e.2.en && e.2.nqn = nqnName subnqn).map (·.1)).getD 0) :=
  ⟨0, 0, 1, 1, [], [1], { kato := 0, sqsize := 31, dataOk := true }, newConn 2, _, _, by decide, rfl, by decide, by decide, rfl⟩

theorem witness_NvmeCompletes_2 : ∃ (c : Nat) (cid : Nat) (qid : Nat) (cntlid : Nat) (hostnqn : List Byte) (subnqn : List Byte) (prm : ConnectParams) (s : State) (y : State) (p : Nat),
    (s.pduCan c = true ∧ s.portCmds (s.conn c).port < 16384 ∧ s.pwr.ps ≠ 2 ∧ (s.conn c).state = 2 ∧ (s.connCmds c).any (fun e => e.origin = .net c cid) = false) ∧ y = s.capsuleCounted c 1024 ∧ (prm.dataOk = true ∧ (y.conn c).state = 2 ∧ prm.sqsize ≤ 31) ∧ (y.connectRefusal qid cntlid (nqnName hostnqn) (nqnName subnqn) = none ∧ qid = 0) ∧ (p = ((y.net.subsys.find? fun e => e.2.en && e.2.nqn = nqnName subnqn).map (·.1)).getD 0) :=
  ⟨0, 0, 0, 0xFFFF, [], [1], { kato := 0, sqsize := 31, dataOk := true }, newConn 2, _, _, by decide, rfl, by decide, by decide, rfl⟩

theorem witness_NvmeCompletes_3 : ∃ (c : Nat) (cid : Nat) (ofs : Nat) (s : State) (v : DWord),
    s.capsuleOk c cid true = true ∧ property ((s.capsuleCounted c 0).ctrlOf c) ofs = some v :=
  ⟨0, 0, 0, netState 0, _, by decide, rfl⟩

theorem witness_NvmeCompletes_4 : ∃ (c : Nat) (cid : Nat) (ofs : Nat) (s : State),
    s.capsuleOk c cid true = true ∧ ofs = 0x14 :=
  ⟨0, 0, 0x14, netState 0, by decide⟩

theorem witness_NvmeCompletes_5 : ∃ (c : Nat) (cid : Nat) (cns : Nat) (s : State) (y : State),
    s.capsuleOk c cid true = true ∧ y = s.capsuleCounted c 0 ∧ cns = 1 :=
  ⟨0, 0, 1, netState 0, _, by decide, rfl, by decide⟩

theorem witness_NvmeCompletes_6 : ∃ (c : Nat) (cid : Nat) (cns : Nat) (nsid : Nat) (s : State) (y : State) (v : Nat),
    s.capsuleOk c cid true = true ∧ y = s.capsuleCounted c 0 ∧ cns = 0 ∧ y.nsVol (y.conn c).part nsid = some v :=
  ⟨0, 0, 0, 1, netState 0, _, _, by decide, rfl, by decide, rfl⟩

theorem witness_NvmeCompletes_7 : ∃ (c : Nat) (cid : Nat) (lid : Nat) (s : State) (y : State),
    s.capsuleOk c cid true = true ∧ y = s.capsuleCounted c 0 ∧ (lid = 2 ∨ lid = 3) :=
  ⟨0, 0, 2, netState 0, _, by decide, rfl, by decide⟩

theorem witness_NvmeCompletes_8 : ∃ (c : Nat) (cid : Nat) (lid : Nat) (s : State) (y : State),
    s.capsuleOk c cid true = true ∧ y = s.capsuleCounted c 0 ∧ lid = 1 :=
  ⟨0, 0, 1, netState 0, _, by decide, rfl, by decide⟩

theorem witness_NvmeCompletes_9 : ∃ (c : Nat) (cid : Nat) (s : State),
    s.capsuleOk c cid true = true :=
  ⟨0, 0, netState 0, by decide⟩

theorem witness_NvmeCompletes_10 : ∃ (c : Nat) (cid : Nat) (op : Nat) (s : State),
    s.capsuleOk c cid true = true ∧ (op < 256 ∧ [0x02, 0x06, 0x18, 0x7F].contains op = false) :=
  ⟨0, 0, 0, netState 0, by decide⟩

theorem witness_NvmeCompletes_11 : ∃ (c : Nat) (cid : Nat) (op : Nat) (s : State),
    s.capsuleOk c cid false = true ∧ (op < 256 ∧ [0x00, 0x01, 0x02, 0x08, 0x09, 0x7F].contains op = false) :=
  ⟨0, 0, 5, netState 1, by decide⟩

theorem witness_NvmeCompletes_12 : ∃ (c : Nat) (cid : Nat) (nsid : Nat) (slba : Nat) (nlb : Nat) (s : State) (y : State) (v : Nat) (z : State) (k : Cmd),
    s.capsuleOk c cid false = true ∧ y = s.capsuleCounted c 0 ∧ y.nsVol (y.conn c).part nsid = some v ∧ z = (y.netCmd c cid 0x20 (volEntry 0x20 v (nlb + 1) slba)).1 ∧ k = (y.netCmd c cid 0x20 (volEntry 0x20 v (nlb + 1) slba)).2 ∧ (k.volZeros = true ∧ k.f 12 4 ≠ 0 ∧ k.f 12 4 ≤ 256 ∧ z.volRefusal k.ctx.toNat (k.f 8 2) (k.f 16 8) (k.f 12 4) false = 0) ∧ z.leafMiss (k.f 8 2) (k.f 16 8) (k.f 16 8 + k.f 12 4) = false :=
  ⟨0, 0, 1, 0, 0, netState 1, _, _, _, _, by decide, rfl, rfl, rfl, rfl, by decide, by decide⟩

theorem witness_NvmeCompletes_13 : ∃ (c : Nat) (cid : Nat) (nsid : Nat) (slba : Nat) (nlb : Nat) (capsule : List Byte) (s : State) (y : State) (v : Nat) (z : State) (k : Cmd),
    s.capsuleOk c cid false = true ∧ capsule = [] ∧ y = s.capsuleCounted c 0 ∧ y.nsVol (y.conn c).part nsid = some v ∧ (z = (y.netCmd c cid 0x21 (volEntry 0x21 v (nlb + 1) slba)).1.updConn c fun x => { x with writes := x.writes.filter (fun q => q.cid ≠ cid) ++ [{ cid := cid, vol := v, lba := slba, nblk := nlb + 1, cmd := (y.netCmd c cid 0x21 (volEntry 0x21 v (nlb + 1) slba)).2.id, parts := [], r2t := 0, reserved := 0, recorded := 0, bad := false }] }) ∧ k = (y.netCmd c cid 0x21 (volEntry 0x21 v (nlb + 1) slba)).2 ∧ ((z.beginWrite k).cmd? k.id).isSome = true :=
  ⟨0, 0, 1, 0, 0, [], netState 1, _, _, _, _, by decide, by decide, rfl, rfl, rfl, rfl, by decide⟩

theorem witness_NvmeCompletes_14 : ∃ (c : Nat) (cid : Nat) (nsid : Nat) (slba : Nat) (nlb : Nat) (capsule : List Byte) (dataOk : Bool) (s : State) (y : State) (v : Nat) (z : State) (k : Cmd),
    s.capsuleOk c cid false = true ∧ (capsule ≠ [] ∧ dataOk = true ∧ capsule.length = 4096 * (nlb + 1) ∧ capsule.length ≤ 8192) ∧ y = s.capsuleCounted c capsule.length ∧ y.nsVol (y.conn c).part nsid = some v ∧ z = (y.netCmd c cid 0x21 (volEntry 0x21 v (nlb + 1) slba ++ capsule)).1 ∧ k = (y.netCmd c cid 0x21 (volEntry 0x21 v (nlb + 1) slba ++ capsule)).2 ∧ ((z.beginWrite k).cmd? k.id).isSome = true :=
  ⟨0, 0, 1, 0, 0, List.replicate 4096 1, true, mirrorNet, _, 0, _, _, by decide, by decide +kernel, rfl, by decide +kernel, rfl, rfl, by decide +kernel⟩

theorem witness_NvmeCompletes_15 : ∃ (c : Nat) (cid : Nat) (nsid : Nat) (s : State) (y : State) (v : Nat) (z : State) (k : Cmd),
    s.capsuleOk c cid false = true ∧ y = s.capsuleCounted c 0 ∧ y.nsVol (y.conn c).part nsid = some v ∧ z = (y.netCmd c cid 0x22 (volEntry 0x22 v 0 0)).1 ∧ k = (y.netCmd c cid 0x22 (volEntry 0x22 v 0 0)).2 :=
  ⟨0, 0, 1, netState 1, _, _, _, _, by decide, rfl, rfl, rfl, rfl⟩

theorem witness_NvmeCompletes_16 : ∃ (c : Nat) (cid : Nat) (nsid : Nat) (slba : Nat) (nlb : Nat) (s : State) (y : State) (v : Nat) (z : State) (k : Cmd),
    s.capsuleOk c cid false = true ∧ y = s.capsuleCounted c 0 ∧ y.nsVol (y.conn c).part nsid = some v ∧ z = (y.netCmd c cid 0x23 (volEntry 0x23 v (nlb + 1) slba)).1 ∧ k = (y.netCmd c cid 0x23 (volEntry 0x23 v (nlb + 1) slba)).2 ∧ (k.volZeros = true ∧ k.f 12 4 ≠ 0 ∧ k.f 24 8 = 0 ∧ z.volRefusal k.ctx.toNat (k.f 8 2) (k.f 16 8) (k.f 12 4) true = 0) :=
  ⟨0, 0, 1, 0, 0, netState 1, _, _, _, _, by decide, rfl, rfl, rfl, rfl, by decide⟩

theorem witness_NvmeCompletes_17 : ∃ (c : Nat) (cid : Nat) (nsid : Nat) (ad : Bool) (dsm : DsmData) (s : State) (y : State) (v : Nat) (z : State) (k : Cmd),
    s.capsuleOk c cid false = true ∧ (ad = true ∧ dsm.dataOk = true ∧ dsm.ranges ≠ [] ∧ dsm.ranges.length ≤ 256) ∧ ((s.nsVol (s.conn c).part nsid).any (fun v => !(s.arr (s.vol v).array).room (48 * dsm.ranges.length)) = false) ∧ y = s.capsuleCounted c (16 * dsm.ranges.length) ∧ y.nsVol (y.conn c).part nsid = some v ∧ z = (y.netCmd c cid 0x24 (volEntry 0x24 v 0 0)).1 ∧ k = (y.netCmd c cid 0x24 (volEntry 0x24 v 0 0)).2 :=
  ⟨0, 0, 1, true, { ranges := [(0, 1)], dataOk := true }, netState 1, _, _, _, _, by decide, by decide, by decide, rfl, rfl, rfl, rfl⟩

theorem witness_NvmeCompletes_18 : ∃ (c : Nat) (cid : Nat) (ofs : Nat) (data : List Byte) (hdrOk : Bool) (dataOk : Bool) (s : State) (w : NetWrite) (s2 : State) (s3 : State),
    (s.pduCan c = true ∧ s.pwr.ps ≠ 2 ∧ hdrOk = true ∧ (s.conn c).state = 3) ∧ ((s.conn c).write? cid = some w ∧ s.mirrorHolds (s.vol w.vol).array = false) ∧ (w.fits ofs data.length = true ∧ ((s.netBytes c ((s.conn c).pduLen 24 4 data.length)).cmd? w.cmd).any (fun k => !(s.netBytes c ((s.conn c).pduLen 24 4 data.length)).current k.ctx k.gen) = false) ∧ (s2 = (s.netBytes c ((s.conn c).pduLen 24 4 data.length)).updWrite c cid fun y => { y with parts := y.parts ++ [(ofs, data)], bad := y.bad || !dataOk }) ∧ s3 = ((s2.recordPieces c cid 5).sendR2t c cid 8).pump w.cmd c cid 8 ∧ (((s3.conn c).write? cid).any (fun y => y.bad && y.outstanding = 0) = false) :=
  ⟨0, 0, 0, [1], true, true, { netState 1 with net := { (netState 1).net with conns := [(0, { state := 3, qid := 1, cntl := 1, writes := [testWrite] })] } }, testWrite, _, _, by decide, (by decide +kernel), by decide, rfl, rfl, by decide⟩

theorem witness_MeteringCompletes_1 : ∃ (s : State),
    s.clk.msDone < s.alm / 1000000 :=
  ⟨{ ready with clk := { ready.clk with alm := 1000000 } }, by decide⟩

theorem witness_MeteringCompletes_2 : ∃ (s : State),
    60000000000 * (s.clk.calDone + 1) ≤ s.alm :=
  ⟨{ ready with clk := { ready.clk with alm := 60000000000, msDone := 59999 } }, by decide⟩

theorem witness_MeteringCompletes_3 : ∃ (s : State) (b : Batch) (rest : List Batch),
    s.trust.batches = b :: rest ∧ (s.trust.mtrEn = true ∧ (s.trust.mtrP - s.trust.mtrC).toNat ≠ 2 ^ s.trust.mtrLog.toNat ∧ s.canSend 0 = true) :=
  ⟨{ ready with trust := { mtrEn := true, batches := [{ seq := 1, calends := 0, bootId := 0, ptpOfs := 0, recs := [] }] } }, { seq := 1, calends := 0, bootId := 0, ptpOfs := 0, recs := [] }, [], by decide⟩

theorem witness_MeteringCompletes_4 : ∃ (r : Req) (v : Word) (s : State),
    s.reachable r 0x50810 = true ∧ (v - s.trust.mtrC).toNat ≤ (s.trust.mtrP - s.trust.mtrC).toNat :=
  ⟨.pf0, 0, ready, by decide⟩

theorem witness_MeteringCompletes_5 : ∃ (r : Req) (v : Word) (s : State),
    s.reachable r 0x50810 = true ∧ ¬ (v - s.trust.mtrC).toNat ≤ (s.trust.mtrP - s.trust.mtrC).toNat :=
  ⟨.pf0, 1, ready, by decide⟩

theorem witness_PeerLinkCompletes_1 : ∃ (k : Nat) (lanes : BitVec 8) (peer : BitVec 3) (s : State),
    (k < s.plkCount ∧ (s.link k).state = 1 ∧ popCount lanes = 8 ∧ peer = s.pwr.devid ^^^ linkMask k) :=
  ⟨0, 255, 1, { ready with plk := { links := [(0, { state := 1 })] } }, by decide⟩

theorem witness_PeerLinkCompletes_2 : ∃ (k : Nat) (lanes : BitVec 8) (peer : BitVec 3) (s : State),
    (k < s.plkCount ∧ (s.link k).state = 1 ∧ popCount lanes = 7 ∧ peer = s.pwr.devid ^^^ linkMask k) :=
  ⟨0, 127, 1, { ready with plk := { links := [(0, { state := 1 })] } }, by decide⟩

theorem witness_PeerLinkCompletes_3 : ∃ (k : Nat) (lanes : BitVec 8) (peer : BitVec 3) (s : State),
    (k < s.plkCount ∧ (s.link k).state = 1 ∧ 7 ≤ popCount lanes ∧ peer ≠ s.pwr.devid ^^^ linkMask k) :=
  ⟨0, 127, 2, { ready with plk := { links := [(0, { state := 1 })] } }, by decide⟩

theorem witness_PeerLinkCompletes_4 : ∃ (k : Nat) (s : State),
    (k < s.plkCount ∧ (s.link k).state = 1 ∧ s.elapsed (s.link k).trainAt 20000000 = true ∧ 2 ≤ (s.link k).tries) :=
  ⟨0, { ready with clk := { ready.clk with alm := 20000000 }, plk := { links := [(0, { state := 1, tries := 2 })] } }, by decide⟩

theorem witness_PeerLinkCompletes_5 : ∃ (k : Nat) (s : State),
    (k < s.plkCount ∧ (s.link k).state = 1 ∧ s.elapsed (s.link k).trainAt 20000000 = true ∧ (s.link k).tries < 2) :=
  ⟨0, { ready with clk := { ready.clk with alm := 20000000 }, plk := { links := [(0, { state := 1 })] } }, by decide⟩

theorem witness_PeerLinkCompletes_6 : ∃ (k : Nat) (s : State),
    s.linkUp k = true :=
  ⟨0, linked, by decide⟩

theorem witness_PeerLinkCompletes_7 : ∃ (k : Nat) (lane : Nat) (s : State),
    (k < s.plkCount ∧ (s.link k).state = 2 ∧ lane < 8) :=
  ⟨0, 0, linked, by decide⟩

theorem witness_PeerLinkCompletes_8 : ∃ (r : Req) (k : Nat) (s : State),
    (k < 4 ∧ s.reachable r (0x360100 + 4 * k) = true) ∧ ((s.link k).state = 0 ∨ (s.link k).state = 4) ∧ (s.link k).offl = 0 ∧ tableWf {} s.plk.links = true :=
  ⟨.pf0, 0, ready, by decide⟩

theorem witness_PeerLinkCompletes_9 : ∃ (r : Req) (p : Nat) (s : State),
    (p < 4 ∧ s.reachable r (0x360100 + 4 * p) = true) :=
  ⟨.pf0, 0, ready, by decide⟩

theorem witness_PeerBindingCompletes_1 : ∃ (r : Req) (b : Nat) (s : State),
    (b < 64 ∧ s.reachable r (0x36A000 + b * 0x20) = true) :=
  ⟨.pf0, 0, ready, by decide⟩

theorem witness_PeerBindingCompletes_2 : ∃ (r : Req) (b : Nat) (s : State),
    (b < 64 ∧ s.reachable r (0x36A000 + b * 0x20) = true) ∧ ((s.ccr .plk).queue.contains (.binding b) = false ∧ (s.binding b).en = false) :=
  ⟨.pf0, 0, ready, by decide⟩

theorem witness_PeerBindingCompletes_3 : ∃ (dev : Nat) (b : Nat) (s : State) (u : State),
    u = s.hear dev ∧ (dev < 8 ∧ dev ≠ u.pwr.devid.toNat ∧ b < 64 ∧ u.reaches dev = true) ∧ (u.binding b).en = false :=
  ⟨1, 0, linked, _, rfl, by decide, by decide⟩

theorem witness_PeerBindingCompletes_4 : ∃ (dev : Nat) (b : Nat) (devmask : BitVec 8) (ctxs : List (BitVec 13)) (gen : BitVec 16) (s : State) (u : State),
    u = s.hear dev ∧ (dev < 8 ∧ dev ≠ u.pwr.devid.toNat ∧ b < 64 ∧ u.reaches dev = true) ∧ ((u.binding b).en = true ∧ (u.binding b).devmask = devmask ∧ (u.binding b).entries = ctxs ∧ devmask.getLsbD dev = true ∧ tableWf none (u.binding b).peers = true) ∧ ((look none (u.binding b).peers dev).isSome && look 0 (u.binding b).gens dev ≠ gen) = false :=
  ⟨1, 0, 3, List.replicate 8 0, 0, { linked with plk := { linked.plk with bindings := [(0, { en := true, devmask := 3 })] } }, _, rfl, by decide, by decide, by decide⟩

theorem witness_PeerBindingCompletes_5 : ∃ (dev : Nat) (b : Nat) (devmask : BitVec 8) (ctxs : List (BitVec 13)) (gen : BitVec 16) (s : State) (u : State),
    u = s.hear dev ∧ (dev < 8 ∧ dev ≠ u.pwr.devid.toNat ∧ b < 64 ∧ u.reaches dev = true) ∧ ((u.binding b).en = true ∧ (u.binding b).devmask = devmask ∧ (u.binding b).entries = ctxs ∧ devmask.getLsbD dev = true ∧ tableWf none (u.binding b).peers = true) ∧ ((look none (u.binding b).peers dev).isSome && look 0 (u.binding b).gens dev ≠ gen) = true :=
  ⟨1, 0, 3, List.replicate 8 0, 1, { linked with plk := { linked.plk with bindings := [(0, { en := true, devmask := 3, peers := [(1, some (0, []))] })] } }, _, rfl, by decide, by decide, by decide⟩

theorem witness_PeerBindingCompletes_6 : ∃ (dev : Nat) (b : Nat) (gen : BitVec 16) (s : State) (u : State),
    u = s.hear dev ∧ (dev < 8 ∧ dev ≠ u.pwr.devid.toNat ∧ b < 64 ∧ u.reaches dev = true ∧ (u.binding b).devmask.getLsbD dev = true) ∧ ((u.binding b).en = false ∨ look 0 (u.binding b).gens dev = gen) :=
  ⟨1, 0, 0, { linked with plk := { linked.plk with bindings := [(0, { devmask := 3 })] } }, _, rfl, by decide, by decide⟩

theorem witness_PeerBindingCompletes_7 : ∃ (dev : Nat) (b : Nat) (gen : BitVec 16) (s : State) (u : State),
    u = s.hear dev ∧ (dev < 8 ∧ dev ≠ u.pwr.devid.toNat ∧ b < 64 ∧ u.reaches dev = true ∧ (u.binding b).devmask.getLsbD dev = true) ∧ ((u.binding b).en = true ∧ look 0 (u.binding b).gens dev ≠ gen) :=
  ⟨1, 0, 1, { linked with plk := { linked.plk with bindings := [(0, { en := true, devmask := 3 })] } }, _, rfl, by decide, by decide⟩

theorem witness_PeerBindingCompletes_8 : ∃ (dev : Nat) (p : Nat) (gen : BitVec 16) (s : State) (u : State) (m : BitVec 8),
    u = s.hear dev ∧ (u.part p).genWait = some m ∧ (dev < 8 ∧ p < 4096 ∧ (u.part p).gen = gen ∧ m.getLsbD dev = true) :=
  ⟨1, 0, 0, { ready with parts := [(0, { genWait := some 2 })] }, _, 2, rfl, by decide, by decide⟩

theorem witness_MirroringCompletes_1 : ∃ (s : State),
    (s.plk.mirEn = true ∧ (s.plk.mirState = 1 ∨ s.plk.mirState = 2)) ∧ s.ungated = true :=
  ⟨{ ready with plk := { mirEn := true, mirState := 1 } }, by decide⟩

theorem witness_MirroringCompletes_2 : ∃ (id : Nat) (s : State),
    (s.plk.mirState = 2 ∧ s.awaitsAck id = true ∧ s.ungated = true) :=
  ⟨0, { ready with plk := { mirEn := true, mirState := 2, mirWait := [(0, 0)] } }, by decide⟩

theorem witness_MirroringCompletes_3 : ∃ (id : Nat) (s : State),
    (s.plk.mirState = 1 ∧ s.awaitsAck id = true ∧ s.plk.mirWait.filter (·.1 ≠ id) = [] ∧ s.cmd? id = none ∧ s.ungated = true) :=
  ⟨0, { ready with plk := { mirEn := true, mirState := 1, mirWait := [(0, 0)] } }, by decide⟩

theorem witness_MirroringCompletes_4 : ∃ (s : State),
    (s.plk.mirState = 1 ∨ s.plk.mirState = 2) ∧ (s.plk.mirWait.any (fun e => s.elapsed e.2 (1000 * s.plk.mirTmo.toNat)) = true ∧ s.ungated = true ∧ s.plk.mirFail = true) :=
  ⟨{ ready with clk := { ready.clk with alm := 10000 }, plk := { mirEn := true, mirState := 2, mirTmo := 10, mirFail := true, mirWait := [(0, 0)] } }, by decide⟩

theorem witness_MirroringCompletes_5 : ∃ (s : State),
    (s.plk.mirState = 1 ∨ s.plk.mirState = 2) ∧ (s.plk.mirWait.any (fun e => s.elapsed e.2 (1000 * s.plk.mirTmo.toNat)) = true ∧ s.ungated = true ∧ s.plk.mirFail = false) :=
  ⟨{ ready with clk := { ready.clk with alm := 10000 }, plk := { mirEn := true, mirState := 2, mirTmo := 10, mirWait := [(0, 0)] } }, by decide⟩

theorem witness_MirroringCompletes_6 : ∃ (m : CopyMessage) (s : State) (id : BitVec 128),
    (m = .ask id ∧ (s.plk.area.filter fun (e : MirBlk) => e.arrayId = id) ≠ []) :=
  ⟨.ask 0, { ready with plk := { area := [{ arrayId := 0, seq := 1, vol := 0, ctx := 0, gen := 0, lba := 0, data := [] }] } }, 0, by decide⟩

theorem witness_MirroringCompletes_7 : ∃ (m : CopyMessage) (s : State) (id : BitVec 128),
    (m = .ask id ∧ (s.plk.area.filter fun (e : MirBlk) => e.arrayId = id) = [] ∧ s.partnerJournal id = []) :=
  ⟨.ask 0, ready, 0, by decide⟩

theorem witness_MirroringCompletes_8 : ∃ (m : CopyMessage) (s : State) (id : BitVec 128) (journal : List JRec) (blocks : List MirBlk),
    (m = .answer id journal blocks ∧ s.reaches s.partner = true ∧ s.arc.arrays.any (fun e => e.2.state = 2 && e.2.arrayId = id) = true) :=
  ⟨.answer 0 [] [], { ready with plk := { links := [(3, { state := 2, peer := 7, insvc := 255 })] }, arc := { ready.arc with arrays := [(0, { state := 2 })] } }, 0, [], [], by decide⟩

theorem witness_MirroringCompletes_9 : ∃ (ev : PartnerEvent),
    ev = .enSet :=
  ⟨.enSet, by decide⟩

theorem witness_MirroringCompletes_10 : ∃ (ev : PartnerEvent),
    ev = .enCleared :=
  ⟨.enCleared, by decide⟩

theorem witness_MirroringCompletes_11 : ∃ (ev : PartnerEvent),
    ev = .wasReset :=
  ⟨.wasReset, by decide⟩

theorem witness_MirroringCompletes_12 : ∃ (ev : PartnerEvent) (s : State) (id : BitVec 128) (journal : List JRec) (blocks : List MirBlk),
    ev = .copy id journal blocks ∧ (s.plk.mirEn = true ∧ (s.plk.mirState = 1 ∨ s.plk.mirState = 2) ∧ s.ungated = true) :=
  ⟨.copy 0 [] [], { ready with plk := { mirEn := true, mirState := 1 } }, 0, [], [], by decide⟩

theorem witness_MirroringCompletes_13 : ∃ (ev : PartnerEvent) (s : State) (id : BitVec 128) (seqs : List Nat),
    ev = .done id seqs ∧ (s.plk.mirEn = true ∧ (s.plk.mirState = 1 ∨ s.plk.mirState = 2) ∧ s.ungated = true) :=
  ⟨.done 0 [1], { ready with plk := { mirEn := true, mirState := 1 } }, 0, [1], by decide⟩

theorem witness_MirroringCompletes_14 : ∃ (ev : PartnerEvent) (s : State) (id : BitVec 128) (u : State),
    ev = .imported id ∧ u = s.setPartnerCopy id none :=
  ⟨.imported 0, ready, 0, _, by decide, rfl⟩

theorem witness_MirroringCompletes_15 : ∃ (r : Req) (s : State),
    s.reachable r 0x360210 = true :=
  ⟨.pf0, ready, by decide⟩

theorem witness_MirroringCompletes_16 : ∃ (r : Req) (v : Word) (s : State),
    s.reachable r 0x360210 = true ∧ ((s.ccr .plk).queue.contains .mirror = false ∧ s.plk.mirEn = false ∧ v.getLsbD 26 = false) :=
  ⟨.pf0, 0, ready, by decide⟩

theorem witness_MirroringCompletes_17 : ∃ (r : Req) (s : State),
    s.reachable r 0x360210 = true ∧ ((s.ccr .plk).queue.contains .mirror = false ∧ s.plk.mirEn = true ∧ s.arc.arrays.any (fun e => e.2.mirror) = false) :=
  ⟨.pf0, { ready with plk := { mirEn := true } }, by decide⟩

theorem witness_MirroringCompletes_18 : ∃ (r : Req) (s : State),
    s.reachable r 0x360210 = true ∧ ((s.ccr .plk).queue.contains .mirror = false ∧ s.plk.mirEn = true) :=
  ⟨.pf0, { ready with plk := { mirEn := true, holdCopy := true } }, by decide⟩

theorem witness_ScalarIntegerCompletes_1 : ∃ (u : CpAt) (s : State) (c : Cp),
    s.executes u = true ∧ s.cpOf u.tile u.cp = c :=
  ⟨⟨0, 0⟩, cpState, _, by decide, rfl⟩

theorem witness_ScalarIntegerCompletes_6 : ∃ (u : CpAt) (b : BitVec 5) (s : State) (c : Cp),
    s.executes u = true ∧ s.cpOf u.tile u.cp = c ∧ c.rd b = 0#64 :=
  ⟨⟨0, 0⟩, 0, cpState, _, by decide, rfl, by decide⟩

theorem witness_ScalarIntegerCompletes_7 : ∃ (u : CpAt) (a : BitVec 5) (b : BitVec 5) (s : State) (c : Cp),
    s.executes u = true ∧ s.cpOf u.tile u.cp = c ∧ ((c.rd a).toInt = -(2 : Int) ^ 63 ∧ (c.rd b).toInt = -1) :=
  ⟨⟨0, 0⟩, 2, 3, cpState, _, by decide, rfl, by decide⟩

theorem witness_ScalarIntegerCompletes_8 : ∃ (u : CpAt) (a : BitVec 5) (b : BitVec 5) (s : State) (c : Cp),
    s.executes u = true ∧ s.cpOf u.tile u.cp = c ∧ c.rd b ≠ 0#64 ∧ (¬ ((c.rd a).toInt = -(2 : Int) ^ 63 ∧ (c.rd b).toInt = -1)) :=
  ⟨⟨0, 0⟩, 0, 1, cpState, _, by decide, rfl, by decide, by decide⟩

theorem witness_ScalarIntegerCompletes_10 : ∃ (u : CpAt) (b : BitVec 5) (s : State) (c : Cp),
    s.executes u = true ∧ s.cpOf u.tile u.cp = c ∧ c.rd b ≠ 0#64 :=
  ⟨⟨0, 0⟩, 1, cpState, _, by decide, rfl, by decide⟩

theorem witness_ScalarIntegerCompletes_32 : ∃ (u : CpAt) (a : BitVec 5) (b : BitVec 5) (s : State) (c : Cp),
    s.executes u = true ∧ s.cpOf u.tile u.cp = c ∧ (-(2 : Int) ^ 63 ≤ (c.rd a).toInt + (c.rd b).toInt ∧ (c.rd a).toInt + (c.rd b).toInt < (2 : Int) ^ 63) :=
  ⟨⟨0, 0⟩, 0, 0, cpState, _, by decide, rfl, by decide⟩

theorem witness_ScalarIntegerCompletes_33 : ∃ (u : CpAt) (a : BitVec 5) (b : BitVec 5) (s : State) (c : Cp),
    s.executes u = true ∧ s.cpOf u.tile u.cp = c ∧ (¬ (-(2 : Int) ^ 63 ≤ (c.rd a).toInt + (c.rd b).toInt ∧ (c.rd a).toInt + (c.rd b).toInt < (2 : Int) ^ 63)) :=
  ⟨⟨0, 0⟩, 2, 2, cpState, _, by decide, rfl, by decide⟩

theorem witness_ScalarIntegerCompletes_34 : ∃ (u : CpAt) (a : BitVec 5) (b : BitVec 5) (s : State) (c : Cp),
    s.executes u = true ∧ s.cpOf u.tile u.cp = c ∧ (-(2 : Int) ^ 63 ≤ (c.rd a).toInt - (c.rd b).toInt ∧ (c.rd a).toInt - (c.rd b).toInt < (2 : Int) ^ 63) :=
  ⟨⟨0, 0⟩, 0, 0, cpState, _, by decide, rfl, by decide⟩

theorem witness_ScalarIntegerCompletes_35 : ∃ (u : CpAt) (a : BitVec 5) (b : BitVec 5) (s : State) (c : Cp),
    s.executes u = true ∧ s.cpOf u.tile u.cp = c ∧ (¬ (-(2 : Int) ^ 63 ≤ (c.rd a).toInt - (c.rd b).toInt ∧ (c.rd a).toInt - (c.rd b).toInt < (2 : Int) ^ 63)) :=
  ⟨⟨0, 0⟩, 2, 1, cpState, _, by decide, rfl, by decide⟩

theorem witness_ScalarIntegerCompletes_36 : ∃ (u : CpAt) (a : BitVec 5) (b : BitVec 5) (s : State) (c : Cp),
    s.executes u = true ∧ s.cpOf u.tile u.cp = c ∧ (-(2 : Int) ^ 63 ≤ (c.rd a).toInt * (c.rd b).toInt ∧ (c.rd a).toInt * (c.rd b).toInt < (2 : Int) ^ 63) :=
  ⟨⟨0, 0⟩, 0, 0, cpState, _, by decide, rfl, by decide⟩

theorem witness_ScalarIntegerCompletes_37 : ∃ (u : CpAt) (a : BitVec 5) (b : BitVec 5) (s : State) (c : Cp),
    s.executes u = true ∧ s.cpOf u.tile u.cp = c ∧ (¬ (-(2 : Int) ^ 63 ≤ (c.rd a).toInt * (c.rd b).toInt ∧ (c.rd a).toInt * (c.rd b).toInt < (2 : Int) ^ 63)) :=
  ⟨⟨0, 0⟩, 2, 2, cpState, _, by decide, rfl, by decide⟩

theorem witness_ScalarIntegerCompletes_38 : ∃ (u : CpAt) (b : BitVec 5) (s : State) (c : Cp),
    s.executes u = true ∧ s.cpOf u.tile u.cp = c ∧ b = 0 :=
  ⟨⟨0, 0⟩, 0, cpState, _, by decide, rfl, by decide⟩

theorem witness_ScalarIntegerCompletes_39 : ∃ (u : CpAt) (b : BitVec 5) (s : State) (c : Cp),
    s.executes u = true ∧ s.cpOf u.tile u.cp = c ∧ b = 1 :=
  ⟨⟨0, 0⟩, 1, cpState, _, by decide, rfl, by decide⟩

theorem witness_ScalarIntegerCompletes_40 : ∃ (u : CpAt) (b : BitVec 5) (s : State) (c : Cp),
    s.executes u = true ∧ s.cpOf u.tile u.cp = c ∧ b = 2 :=
  ⟨⟨0, 0⟩, 2, cpState, _, by decide, rfl, by decide⟩

theorem witness_ScalarIntegerCompletes_41 : ∃ (u : CpAt) (b : BitVec 5) (s : State) (c : Cp),
    s.executes u = true ∧ s.cpOf u.tile u.cp = c ∧ 3 ≤ b.toNat :=
  ⟨⟨0, 0⟩, 3, cpState, _, by decide, rfl, by decide⟩

theorem witness_ScalarImmediateCompletes_1 : ∃ (u : CpAt) (s : State) (c : Cp),
    s.executes u = true ∧ s.cpOf u.tile u.cp = c :=
  ⟨⟨0, 0⟩, cpState, _, by decide, rfl⟩

theorem witness_ScalarImmediateCompletes_9 : ∃ (u : CpAt) (a : BitVec 5) (s : State) (c : Cp),
    s.executes u = true ∧ s.cpOf u.tile u.cp = c ∧ a = 0 :=
  ⟨⟨0, 0⟩, 0, cpState, _, by decide, rfl, by decide⟩

theorem witness_ScalarImmediateCompletes_10 : ∃ (u : CpAt) (a : BitVec 5) (s : State) (c : Cp),
    s.executes u = true ∧ s.cpOf u.tile u.cp = c ∧ a ≠ 0 :=
  ⟨⟨0, 0⟩, 1, cpState, _, by decide, rfl, by decide⟩

theorem witness_ScalarFloatCompletes_1 : ∃ (u : CpAt) (s : State) (c : Cp),
    s.executes u = true ∧ s.cpOf u.tile u.cp = c :=
  ⟨⟨0, 0⟩, cpState, _, by decide, rfl⟩

theorem witness_KernelControlCompletes_1 : ∃ (u : CpAt) (s : State) (c : Cp),
    s.executes u = true ∧ s.cpOf u.tile u.cp = c :=
  ⟨⟨0, 0⟩, cpState, _, by decide, rfl⟩

theorem witness_KernelControlCompletes_9 : ∃ (u : CpAt) (d : BitVec 5) (a : BitVec 5) (s : State) (c : Cp),
    s.executes u = true ∧ s.cpOf u.tile u.cp = c ∧ (d ≠ a ∨ d = 0) :=
  ⟨⟨0, 0⟩, 0, 0, cpState, _, by decide, rfl, by decide⟩

theorem witness_KernelControlCompletes_10 : ∃ (u : CpAt) (d : BitVec 5) (a : BitVec 5) (s : State) (c : Cp),
    s.executes u = true ∧ s.cpOf u.tile u.cp = c ∧ d = a ∧ (a ≠ 0 ∧ tableWf 0 c.g = true) :=
  ⟨⟨0, 0⟩, 1, 1, cpState, _, by decide, rfl, by decide, by decide⟩

theorem witness_KernelControlCompletes_12 : ∃ (u : CpAt) (imm : BitVec 16) (s : State) (c : Cp),
    s.executes u = true ∧ s.cpOf u.tile u.cp = c ∧ imm.toNat < 16 :=
  ⟨⟨0, 0⟩, 0, cpState, _, by decide, rfl, by decide⟩

theorem witness_KernelControlCompletes_13 : ∃ (u : CpAt) (imm : BitVec 16) (s : State) (c : Cp),
    s.executes u = true ∧ s.cpOf u.tile u.cp = c ∧ 16 ≤ imm.toNat :=
  ⟨⟨0, 0⟩, 16, cpState, _, by decide, rfl, by decide⟩

theorem witness_KernelControlCompletes_14 : ∃ (u : CpAt) (a : BitVec 5) (s : State) (c : Cp),
    s.executes u = true ∧ s.cpOf u.tile u.cp = c ∧ a = 0 :=
  ⟨⟨0, 0⟩, 0, cpState, _, by decide, rfl, by decide⟩

theorem witness_KernelControlCompletes_15 : ∃ (u : CpAt) (a : BitVec 5) (s : State) (c : Cp),
    s.executes u = true ∧ s.cpOf u.tile u.cp = c ∧ a = 1 :=
  ⟨⟨0, 0⟩, 1, cpState, _, by decide, rfl, by decide⟩

theorem witness_KernelControlCompletes_16 : ∃ (u : CpAt) (a : BitVec 5) (s : State) (c : Cp),
    s.executes u = true ∧ s.cpOf u.tile u.cp = c ∧ a = 2 :=
  ⟨⟨0, 0⟩, 2, cpState, _, by decide, rfl, by decide⟩

theorem witness_KernelControlCompletes_17 : ∃ (u : CpAt) (a : BitVec 5) (s : State) (c : Cp),
    s.executes u = true ∧ s.cpOf u.tile u.cp = c ∧ a = 3 :=
  ⟨⟨0, 0⟩, 3, cpState, _, by decide, rfl, by decide⟩

theorem witness_KernelControlCompletes_18 : ∃ (u : CpAt) (a : BitVec 5) (s : State) (c : Cp),
    s.executes u = true ∧ s.cpOf u.tile u.cp = c ∧ a = 4 :=
  ⟨⟨0, 0⟩, 4, cpState, _, by decide, rfl, by decide⟩

theorem witness_KernelControlCompletes_19 : ∃ (u : CpAt) (a : BitVec 5) (s : State) (c : Cp),
    s.executes u = true ∧ s.cpOf u.tile u.cp = c ∧ a = 5 :=
  ⟨⟨0, 0⟩, 5, cpState, _, by decide, rfl, by decide⟩

theorem witness_KernelControlCompletes_20 : ∃ (u : CpAt) (a : BitVec 5) (s : State) (c : Cp),
    s.executes u = true ∧ s.cpOf u.tile u.cp = c ∧ a = 7 :=
  ⟨⟨0, 0⟩, 7, cpState, _, by decide, rfl, by decide⟩

theorem witness_KernelControlCompletes_21 : ∃ (u : CpAt) (a : BitVec 5) (s : State) (c : Cp),
    s.executes u = true ∧ s.cpOf u.tile u.cp = c ∧ a = 6 :=
  ⟨⟨0, 0⟩, 6, cpState, _, by decide, rfl, by decide⟩

theorem witness_KernelControlCompletes_22 : ∃ (u : CpAt) (a : BitVec 5) (s : State) (c : Cp),
    s.executes u = true ∧ s.cpOf u.tile u.cp = c ∧ 8 ≤ a.toNat :=
  ⟨⟨0, 0⟩, 8, cpState, _, by decide, rfl, by decide⟩

theorem witness_KernelControlCompletes_23 : ∃ (u : CpAt) (d : BitVec 5) (s : State) (c : Cp),
    s.executes u = true ∧ s.cpOf u.tile u.cp = c ∧ d = 3 :=
  ⟨⟨0, 0⟩, 3, cpState, _, by decide, rfl, by decide⟩

theorem witness_KernelControlCompletes_24 : ∃ (u : CpAt) (d : BitVec 5) (s : State) (c : Cp),
    s.executes u = true ∧ s.cpOf u.tile u.cp = c ∧ d = 4 :=
  ⟨⟨0, 0⟩, 4, cpState, _, by decide, rfl, by decide⟩

theorem witness_KernelControlCompletes_25 : ∃ (u : CpAt) (d : BitVec 5) (s : State) (c : Cp),
    s.executes u = true ∧ s.cpOf u.tile u.cp = c ∧ (d ≠ 3 ∧ d ≠ 4) :=
  ⟨⟨0, 0⟩, 0, cpState, _, by decide, rfl, by decide⟩

theorem witness_KernelControlCompletes_26 : ∃ (u : CpAt) (s : State) (c : Cp),
    s.executes u = true ∧ s.cpOf u.tile u.cp = c ∧ s.rangeIdle u = true :=
  ⟨⟨0, 0⟩, cpState, _, by decide, rfl, by decide⟩

theorem witness_KernelControlCompletes_27 : ∃ (u : CpAt) (s : State) (c : Cp),
    s.executes u = true ∧ s.cpOf u.tile u.cp = c ∧ s.rangeIdle u = true ∧ ((s.tile u.tile).kernel = none ∧ tableWf {} s.tiles = true) :=
  ⟨⟨0, 0⟩, cpState, _, by decide, rfl, by decide, by decide⟩

theorem witness_KernelControlCompletes_28 : ∃ (u : CpAt) (s : State) (c : Cp),
    s.executes u = true ∧ s.cpOf u.tile u.cp = c ∧ s.rangeIdle u = true ∧ ((s.withCp u { c with halted := true } (s.tile u.tile)).tile u.tile).kernel.isSome = true ∧ ((List.range 4).all (fun k => ((s.withCp u { c with halted := true } (s.tile u.tile)).cpOf u.tile k).halted) = true) :=
  ⟨⟨0, 0⟩, haltState, _, by decide, rfl, by decide, by decide, by decide⟩

theorem witness_KernelControlCompletes_29 : ∃ (u : CpAt) (a : BitVec 5) (s : State) (c : Cp),
    s.executes u = true ∧ s.cpOf u.tile u.cp = c ∧ (c.rd a).toNat % 65536 = 0 :=
  ⟨⟨0, 0⟩, 0, cpState, _, by decide, rfl, by decide⟩

theorem witness_KernelControlCompletes_30 : ∃ (u : CpAt) (a : BitVec 5) (s : State) (c : Cp),
    s.executes u = true ∧ s.cpOf u.tile u.cp = c ∧ (c.rd a).toNat % 65536 ≠ 0 :=
  ⟨⟨0, 0⟩, 1, cpState, _, by decide, rfl, by decide⟩

theorem witness_KernelControlCompletes_31 : ∃ (u : CpAt) (w : Word) (s : State) (c : Cp),
    s.executes u = true ∧ s.cpOf u.tile u.cp = c ∧ cpDecode u w = none :=
  ⟨⟨0, 0⟩, 0, cpState, _, by decide, rfl, by decide⟩

theorem witness_ScalarMemoryCompletes_1 : ∃ (u : CpAt) (a : BitVec 5) (imm : BitVec 16) (s : State) (c : Cp) (c1 : Cp) (bs : List Byte) (t1 : Tile),
    s.executes u = true ∧ s.cpOf u.tile u.cp = c ∧ s.canLoad u (c.rd a + imm.signExtend 64) 1 = true ∧ cacheRead c (s.tile u.tile) (c.rd a + imm.signExtend 64).toNat 1 = (bs, c1, t1) :=
  ⟨⟨0, 0⟩, 0, 8, cpState, _, _, _, _, by decide, rfl, by decide, rfl⟩

theorem witness_ScalarMemoryCompletes_2 : ∃ (u : CpAt) (a : BitVec 5) (imm : BitVec 16) (s : State) (c : Cp) (c1 : Cp) (bs : List Byte) (t1 : Tile),
    s.executes u = true ∧ s.cpOf u.tile u.cp = c ∧ s.canLoad u (c.rd a + imm.signExtend 64) 2 = true ∧ cacheRead c (s.tile u.tile) (c.rd a + imm.signExtend 64).toNat 2 = (bs, c1, t1) :=
  ⟨⟨0, 0⟩, 0, 8, cpState, _, _, _, _, by decide, rfl, by decide, rfl⟩

theorem witness_ScalarMemoryCompletes_3 : ∃ (u : CpAt) (a : BitVec 5) (imm : BitVec 16) (s : State) (c : Cp) (c1 : Cp) (bs : List Byte) (t1 : Tile),
    s.executes u = true ∧ s.cpOf u.tile u.cp = c ∧ s.canLoad u (c.rd a + imm.signExtend 64) 4 = true ∧ cacheRead c (s.tile u.tile) (c.rd a + imm.signExtend 64).toNat 4 = (bs, c1, t1) :=
  ⟨⟨0, 0⟩, 0, 8, cpState, _, _, _, _, by decide, rfl, by decide, rfl⟩

theorem witness_ScalarMemoryCompletes_4 : ∃ (u : CpAt) (a : BitVec 5) (imm : BitVec 16) (s : State) (c : Cp) (c1 : Cp) (bs : List Byte) (t1 : Tile),
    s.executes u = true ∧ s.cpOf u.tile u.cp = c ∧ s.canLoad u (c.rd a + imm.signExtend 64) 8 = true ∧ cacheRead c (s.tile u.tile) (c.rd a + imm.signExtend 64).toNat 8 = (bs, c1, t1) :=
  ⟨⟨0, 0⟩, 0, 8, cpState, _, _, _, _, by decide, rfl, by decide, rfl⟩

theorem witness_ScalarMemoryCompletes_8 : ∃ (u : CpAt) (d : BitVec 5) (a : BitVec 5) (imm : BitVec 16) (s : State) (c : Cp) (c1 : Cp) (t1 : Tile),
    s.executes u = true ∧ s.cpOf u.tile u.cp = c ∧ s.canStore u (c.rd a + imm.signExtend 64) 1 = true ∧ cacheWrite c (s.tile u.tile) (c.rd a + imm.signExtend 64).toNat (natLE 1 (c.rd d).toNat) = (c1, t1) :=
  ⟨⟨0, 0⟩, 0, 0, 8, cpState, _, _, _, by decide, rfl, by decide, rfl⟩

theorem witness_ScalarMemoryCompletes_9 : ∃ (u : CpAt) (d : BitVec 5) (a : BitVec 5) (imm : BitVec 16) (s : State) (c : Cp) (c1 : Cp) (t1 : Tile),
    s.executes u = true ∧ s.cpOf u.tile u.cp = c ∧ s.canStore u (c.rd a + imm.signExtend 64) 2 = true ∧ cacheWrite c (s.tile u.tile) (c.rd a + imm.signExtend 64).toNat (natLE 2 (c.rd d).toNat) = (c1, t1) :=
  ⟨⟨0, 0⟩, 0, 0, 8, cpState, _, _, _, by decide, rfl, by decide, rfl⟩

theorem witness_ScalarMemoryCompletes_10 : ∃ (u : CpAt) (d : BitVec 5) (a : BitVec 5) (imm : BitVec 16) (s : State) (c : Cp) (c1 : Cp) (t1 : Tile),
    s.executes u = true ∧ s.cpOf u.tile u.cp = c ∧ s.canStore u (c.rd a + imm.signExtend 64) 4 = true ∧ cacheWrite c (s.tile u.tile) (c.rd a + imm.signExtend 64).toNat (natLE 4 (c.rd d).toNat) = (c1, t1) :=
  ⟨⟨0, 0⟩, 0, 0, 8, cpState, _, _, _, by decide, rfl, by decide, rfl⟩

theorem witness_ScalarMemoryCompletes_11 : ∃ (u : CpAt) (d : BitVec 5) (a : BitVec 5) (imm : BitVec 16) (s : State) (c : Cp) (c1 : Cp) (t1 : Tile),
    s.executes u = true ∧ s.cpOf u.tile u.cp = c ∧ s.canStore u (c.rd a + imm.signExtend 64) 8 = true ∧ cacheWrite c (s.tile u.tile) (c.rd a + imm.signExtend 64).toNat (natLE 8 (c.rd d).toNat) = (c1, t1) :=
  ⟨⟨0, 0⟩, 0, 0, 8, cpState, _, _, _, by decide, rfl, by decide, rfl⟩

theorem witness_CacheOperationsComplete_1 : ∃ (u : CpAt) (a : BitVec 5) (s : State) (c : Cp),
    s.executes u = true ∧ s.cpOf u.tile u.cp = c ∧ s.lineFree u (c.rd a) = true ∧ (c.mayWrite (lineOf (c.rd a).toNat) 128 = true ∧ c.cen = false) :=
  ⟨⟨0, 0⟩, 0, lineState { cen := false }, _, by decide, rfl, by decide, by decide⟩

theorem witness_CacheOperationsComplete_2 : ∃ (u : CpAt) (a : BitVec 5) (s : State) (c : Cp),
    s.executes u = true ∧ s.cpOf u.tile u.cp = c ∧ s.lineFree u (c.rd a) = true ∧ (c.mayWrite (lineOf (c.rd a).toNat) 128 = true ∧ c.cen = true ∧ (c.line? (c.rd a).toNat).isSome = true) :=
  ⟨⟨0, 0⟩, 0, lineState { cache := [testLine] }, _, by decide, rfl, by decide, by decide⟩

theorem witness_CacheOperationsComplete_3 : ∃ (u : CpAt) (a : BitVec 5) (s : State) (c : Cp),
    s.executes u = true ∧ s.cpOf u.tile u.cp = c ∧ s.lineFree u (c.rd a) = true ∧ (c.mayWrite (lineOf (c.rd a).toNat) 128 = true ∧ c.cen = true ∧ c.line? (c.rd a).toNat = none) :=
  ⟨⟨0, 0⟩, 0, lineState {}, _, by decide, rfl, by decide, by decide⟩

theorem witness_CacheOperationsComplete_4 : ∃ (u : CpAt) (a : BitVec 5) (s : State) (c : Cp) (l : CacheLine),
    s.executes u = true ∧ s.cpOf u.tile u.cp = c ∧ s.lineFree u (c.rd a) = true ∧ c.line? (c.rd a).toNat = some l :=
  ⟨⟨0, 0⟩, 0, lineState { cache := [testLine] }, _, _, by decide, rfl, by decide, rfl⟩

theorem witness_CacheOperationsComplete_5 : ∃ (u : CpAt) (a : BitVec 5) (s : State) (c : Cp),
    s.executes u = true ∧ s.cpOf u.tile u.cp = c ∧ s.lineFree u (c.rd a) = true ∧ c.line? (c.rd a).toNat = none :=
  ⟨⟨0, 0⟩, 0, lineState {}, _, by decide, rfl, by decide, by decide⟩

theorem witness_CacheOperationsComplete_6 : ∃ (u : CpAt) (a : BitVec 5) (s : State) (c : Cp) (l : CacheLine),
    s.executes u = true ∧ s.cpOf u.tile u.cp = c ∧ s.lineFree u (c.rd a) = true ∧ c.line? (c.rd a).toNat = some l ∧ l.locked = false :=
  ⟨⟨0, 0⟩, 0, lineState { cache := [testLine] }, _, _, by decide, rfl, by decide, rfl, by decide⟩

theorem witness_CacheOperationsComplete_7 : ∃ (u : CpAt) (a : BitVec 5) (s : State) (c : Cp) (l : CacheLine),
    s.executes u = true ∧ s.cpOf u.tile u.cp = c ∧ s.lineFree u (c.rd a) = true ∧ c.line? (c.rd a).toNat = some l ∧ l.locked = true :=
  ⟨⟨0, 0⟩, 0, lineState { cache := [{ testLine with locked := true }] }, _, _, by decide, rfl, by decide, rfl, by decide⟩

theorem witness_CacheOperationsComplete_12 : ∃ (u : CpAt) (a : BitVec 5) (s : State) (c : Cp),
    s.executes u = true ∧ s.cpOf u.tile u.cp = c ∧ s.lineFree u (c.rd a) = true ∧ (c.mayRead (c.rd a).toNat 1 = true ∧ (c.cen = false ∨ (c.line? (c.rd a).toNat).any (fun l => l.locked) = false ∧ 8 ≤ (c.cache.filter fun l => l.locked).length)) :=
  ⟨⟨0, 0⟩, 0, lineState { cen := false }, _, by decide, rfl, by decide, by decide⟩

theorem witness_CacheOperationsComplete_13 : ∃ (u : CpAt) (a : BitVec 5) (s : State) (c : Cp),
    s.executes u = true ∧ s.cpOf u.tile u.cp = c ∧ s.lineFree u (c.rd a) = true ∧ (c.mayRead (c.rd a).toNat 1 = true ∧ c.cen = true ∧ (c.line? (c.rd a).toNat).any (fun l => l.locked) = true) :=
  ⟨⟨0, 0⟩, 0, lineState { cache := [{ testLine with locked := true }] }, _, by decide, rfl, by decide, by decide⟩

theorem witness_CacheOperationsComplete_14 : ∃ (u : CpAt) (a : BitVec 5) (s : State) (c : Cp),
    s.executes u = true ∧ s.cpOf u.tile u.cp = c ∧ s.lineFree u (c.rd a) = true ∧ (c.mayRead (c.rd a).toNat 1 = true ∧ c.cen = true ∧ (c.line? (c.rd a).toNat).any (fun l => l.locked) = false ∧ (c.cache.filter fun l => l.locked).length < 8) ∧ ((c.line? (c.rd a).toNat).isSome = true ∨ unstaged (s.tile u.tile) (c.rd a).toNat = none) :=
  ⟨⟨0, 0⟩, 0, lineState {}, _, by decide, rfl, by decide, by decide, by decide⟩

theorem witness_CacheOperationsComplete_15 : ∃ (u : CpAt) (a : BitVec 5) (s : State) (c : Cp),
    s.executes u = true ∧ s.cpOf u.tile u.cp = c ∧ s.lineFree u (c.rd a) = true :=
  ⟨⟨0, 0⟩, 0, lineState {}, _, by decide, rfl, by decide⟩

theorem witness_CacheOperationsComplete_16 : ∃ (u : CpAt) (a : BitVec 5) (b : BitVec 5) (s : State) (c : Cp),
    s.executes u = true ∧ s.cpOf u.tile u.cp = c ∧ (s.rngeng = true ∧ s.rangeIdle u = true ∧ (c.rd a).toNat + (c.rd b).toNat ≤ 2 ^ 32) ∧ (c.rd b = 0 ∨ c.cen = false) :=
  ⟨⟨0, 0⟩, 0, 0, cpState, _, by decide, rfl, by decide, by decide⟩

theorem witness_CacheOperationsComplete_17 : ∃ (u : CpAt) (a : BitVec 5) (b : BitVec 5) (s : State) (c : Cp),
    s.executes u = true ∧ s.cpOf u.tile u.cp = c ∧ (s.rngeng = true ∧ s.rangeIdle u = true ∧ (c.rd a).toNat + (c.rd b).toNat ≤ 2 ^ 32) ∧ (c.rd b ≠ 0 ∧ c.cen = true) :=
  ⟨⟨0, 0⟩, 0, 1, cpState, _, by decide, rfl, by decide, by decide⟩

theorem witness_CacheOperationsComplete_26 : ∃ (t : Nat) (s : State) (q : RangeOp) (rest : List RangeOp) (c1 : Cp) (t1 : Tile),
    (s.tile t).ranges = q :: rest ∧ (s.cpOf t q.cp).flushWait = false ∧ applyRange q (s.cpOf t q.cp) (s.tile t) = (c1, t1) :=
  ⟨0, rangeState, _, _, _, _, rfl, rfl, rfl⟩

theorem witness_CacheOperationsComplete_27 : ∃ (t : Nat) (s : State) (q : RangeOp) (c1 : Cp) (t1 : Tile),
    (s.tile t).ranges = [q] ∧ (s.cpOf t q.cp).flushWait = true ∧ applyRange q (s.cpOf t q.cp) (s.tile t) = (c1, t1) :=
  ⟨0, { rangeState with cps := [(0, { flushWait := true })] }, _, _, _, rfl, rfl, rfl⟩

theorem witness_CacheOperationsComplete_28 : ∃ (r : Req) (u : CpAt) (s : State) (c : Cp),
    (u.tile < 18 ∧ u.cp < 4 ∧ s.reachable r (tileOfs u.tile + 0x200 + 0x20 * u.cp) = true) ∧ s.cpOf u.tile u.cp = c ∧ (c.cen = false ∨ c.flushWait = true) :=
  ⟨.pf0, ⟨0, 0⟩, lineState { cen := false }, _, by decide, rfl, by decide⟩

theorem witness_CacheOperationsComplete_29 : ∃ (r : Req) (u : CpAt) (s : State) (c : Cp),
    (u.tile < 18 ∧ u.cp < 4 ∧ s.reachable r (tileOfs u.tile + 0x200 + 0x20 * u.cp) = true) ∧ s.cpOf u.tile u.cp = c ∧ (c.cen = true ∧ c.flushWait = false ∧ s.rangeIdle u = false) :=
  ⟨.pf0, ⟨0, 0⟩, rangeState, _, by decide, rfl, by decide⟩

theorem witness_CacheOperationsComplete_30 : ∃ (r : Req) (u : CpAt) (s : State) (c : Cp),
    (u.tile < 18 ∧ u.cp < 4 ∧ s.reachable r (tileOfs u.tile + 0x200 + 0x20 * u.cp) = true) ∧ s.cpOf u.tile u.cp = c ∧ (c.cen = true ∧ c.flushWait = false ∧ s.rangeIdle u = true) :=
  ⟨.pf0, ⟨0, 0⟩, cpState, _, by decide, rfl, by decide⟩

theorem witness_CacheOperationsComplete_31 : ∃ (r : Req) (u : CpAt) (s : State) (c : Cp),
    (u.tile < 18 ∧ u.cp < 4 ∧ s.reachable r (tileOfs u.tile + 0x200 + 0x20 * u.cp) = true) ∧ s.cpOf u.tile u.cp = c ∧ c.flushWait = true :=
  ⟨.pf0, ⟨0, 0⟩, lineState { flushWait := true }, _, by decide, rfl, by decide⟩

theorem witness_CacheOperationsComplete_32 : ∃ (r : Req) (u : CpAt) (s : State) (c : Cp),
    (u.tile < 18 ∧ u.cp < 4 ∧ s.reachable r (tileOfs u.tile + 0x200 + 0x20 * u.cp) = true) ∧ s.cpOf u.tile u.cp = c ∧ (c.flushWait = false ∧ c.cen = true) :=
  ⟨.pf0, ⟨0, 0⟩, cpState, _, by decide, rfl, by decide⟩

theorem witness_CacheOperationsComplete_33 : ∃ (r : Req) (u : CpAt) (s : State) (c : Cp),
    (u.tile < 18 ∧ u.cp < 4 ∧ s.reachable r (tileOfs u.tile + 0x200 + 0x20 * u.cp) = true) ∧ s.cpOf u.tile u.cp = c ∧ (c.flushWait = false ∧ c.cen = false) :=
  ⟨.pf0, ⟨0, 0⟩, lineState { cen := false }, _, by decide, rfl, by decide⟩

theorem witness_CacheOperationsComplete_34 : ∃ (u : CpAt) (win : Nat) (s : State),
    (u.tile < s.tilesPhys ∧ u.cp < 4 ∧ (s.cpOf u.tile u.cp).staging = some win) :=
  ⟨⟨0, 0⟩, 0, lineState { staging := some 0 }, by decide⟩

theorem witness_CacheOperationsComplete_35 : ∃ (u : CpAt) (s : State),
    (u.tile < s.tilesPhys ∧ u.cp < 4 ∧ (s.cpOf u.tile u.cp).run = true ∧ (s.cpOf u.tile u.cp).halted = false) :=
  ⟨⟨0, 0⟩, cpState, by decide⟩

theorem witness_VectorIntegerCompletes_1 : ∃ (u : CpAt) (f : VFields) (x : Bool) (s : State) (c : Cp),
    s.executes u = true ∧ s.cpOf u.tile u.cp = c ∧ c.groupsOk f x = true :=
  ⟨⟨0, 0⟩, { a := 0, b := 0, d := 0, pe := false, pm := 0 }, false, cpState, _, by decide, rfl, by decide⟩

theorem witness_VectorIntegerCompletes_28 : ∃ (u : CpAt) (f : VFields) (x : Bool) (s : State) (c : Cp),
    s.executes u = true ∧ s.cpOf u.tile u.cp = c ∧ c.groupsOk f x = false :=
  ⟨⟨0, 0⟩, { a := 1, b := 0, d := 0, pe := false, pm := 0 }, false, groupState, _, by decide, rfl, by decide⟩

theorem witness_VectorIntegerCompletes_29 : ∃ (u : CpAt) (f : VFields) (x : Bool) (s : State) (c : Cp),
    s.executes u = true ∧ s.cpOf u.tile u.cp = c ∧ (f.a = 0 ∧ c.groupsOk f x = true) :=
  ⟨⟨0, 0⟩, { a := 0, b := 0, d := 0, pe := false, pm := 0 }, false, cpState, _, by decide, rfl, by decide⟩

theorem witness_VectorIntegerCompletes_31 : ∃ (u : CpAt) (f : VFields) (s : State) (c : Cp),
    s.executes u = true ∧ s.cpOf u.tile u.cp = c ∧ (16 ≤ c.sewBits ∧ f.d.toNat % c.grpN = 0 ∧ f.a.toNat % ceilDiv c.grpN 2 = 0 ∧ c.pmOk f = true) :=
  ⟨⟨0, 0⟩, { a := 0, b := 0, d := 0, pe := false, pm := 0 }, wideState 1, _, by decide, rfl, by decide⟩

theorem witness_VectorIntegerCompletes_33 : ∃ (u : CpAt) (f : VFields) (s : State) (c : Cp),
    s.executes u = true ∧ s.cpOf u.tile u.cp = c ∧ (16 ≤ c.sewBits ∧ f.a.toNat % c.grpN = 0 ∧ f.d.toNat % ceilDiv c.grpN 2 = 0 ∧ c.pmOk f = true) :=
  ⟨⟨0, 0⟩, { a := 0, b := 0, d := 0, pe := false, pm := 0 }, wideState 1, _, by decide, rfl, by decide⟩

theorem witness_VectorIntegerCompletes_34 : ∃ (u : CpAt) (s : State) (c : Cp),
    s.executes u = true ∧ s.cpOf u.tile u.cp = c ∧ c.sewBits = 8 :=
  ⟨⟨0, 0⟩, cpState, _, by decide, rfl, by decide⟩

theorem witness_VectorIntegerCompletes_37 : ∃ (u : CpAt) (f : VFields) (s : State) (c : Cp),
    s.executes u = true ∧ s.cpOf u.tile u.cp = c ∧ (c.vOk f.d.toNat = true ∧ c.vOk f.a.toNat = true ∧ c.pmOk f = true) :=
  ⟨⟨0, 0⟩, { a := 0, b := 0, d := 0, pe := false, pm := 0 }, cpState, _, by decide, rfl, by decide⟩

theorem witness_CompareCompletes_1 : ∃ (u : CpAt) (f : VFields) (x : Bool) (s : State) (c : Cp),
    s.executes u = true ∧ s.cpOf u.tile u.cp = c ∧ (f.d.toNat < 16 ∧ f.d.toNat % c.pg = 0 ∧ c.vOk f.a.toNat = true ∧ (x = true ∨ c.vOk f.b.toNat = true) ∧ c.pmOk f = true) :=
  ⟨⟨0, 0⟩, { a := 0, b := 0, d := 0, pe := false, pm := 0 }, false, cpState, _, by decide, rfl, by decide⟩

theorem witness_CompareCompletes_11 : ∃ (u : CpAt) (f : VFields) (x : Bool) (s : State) (c : Cp),
    s.executes u = true ∧ s.cpOf u.tile u.cp = c ∧ fpSew c.sewBits = true ∧ (f.d.toNat < 16 ∧ f.d.toNat % c.pg = 0 ∧ c.vOk f.a.toNat = true ∧ (x = true ∨ c.vOk f.b.toNat = true) ∧ c.pmOk f = true) :=
  ⟨⟨0, 0⟩, { a := 0, b := 0, d := 0, pe := false, pm := 0 }, false, wideState 2, _, by decide, rfl, by decide, by decide⟩

theorem witness_CompareCompletes_16 : ∃ (u : CpAt) (f : VFields) (s : State) (c : Cp),
    s.executes u = true ∧ s.cpOf u.tile u.cp = c ∧ (c.sewBits = 8 ∧ f.d.toNat < 16 ∧ f.d.toNat % c.pg = 0 ∧ c.vOk f.a.toNat = true ∧ c.pmOk f = true) :=
  ⟨⟨0, 0⟩, { a := 0, b := 0, d := 0, pe := false, pm := 0 }, cpState, _, by decide, rfl, by decide⟩

theorem witness_CompareCompletes_19 : ∃ (u : CpAt) (f : VFields) (s : State) (c : Cp),
    s.executes u = true ∧ s.cpOf u.tile u.cp = c ∧ (c.sewBits = 8 ∧ f.d.toNat < 16 ∧ f.d.toNat % c.pg = 0 ∧ c.vOk f.a.toNat = true ∧ c.pmOk f = true) ∧ f.b.toNat % 2 = 0 :=
  ⟨⟨0, 0⟩, { a := 0, b := 0, d := 0, pe := false, pm := 0 }, cpState, _, by decide, rfl, by decide, by decide⟩

theorem witness_CompareCompletes_20 : ∃ (u : CpAt) (f : VFields) (s : State) (c : Cp),
    s.executes u = true ∧ s.cpOf u.tile u.cp = c ∧ 16 ≤ f.d.toNat :=
  ⟨⟨0, 0⟩, { a := 0, b := 0, d := 16, pe := false, pm := 0 }, cpState, _, by decide, rfl, by decide⟩

theorem witness_VectorFloatCompletes_1 : ∃ (u : CpAt) (f : VFields) (x : Bool) (s : State) (c : Cp),
    s.executes u = true ∧ s.cpOf u.tile u.cp = c ∧ fpSew c.sewBits = true ∧ c.groupsOk f x = true :=
  ⟨⟨0, 0⟩, { a := 0, b := 0, d := 0, pe := false, pm := 0 }, false, wideState 2, _, by decide, rfl, by decide, by decide⟩

theorem witness_VectorFloatCompletes_9 : ∃ (u : CpAt) (f : VFields) (s : State) (c : Cp),
    s.executes u = true ∧ s.cpOf u.tile u.cp = c ∧ fpSew c.sewBits = true ∧ (c.vOk f.d.toNat = true ∧ c.vOk f.a.toNat = true ∧ c.pmOk f = true) :=
  ⟨⟨0, 0⟩, { a := 0, b := 0, d := 0, pe := false, pm := 0 }, wideState 2, _, by decide, rfl, by decide, by decide⟩

theorem witness_VectorFloatCompletes_15 : ∃ (u : CpAt) (f : VFields) (s : State) (c : Cp),
    s.executes u = true ∧ s.cpOf u.tile u.cp = c ∧ c.sewBits = 64 ∧ (c.vOk f.d.toNat = true ∧ c.vOk f.a.toNat = true ∧ c.pmOk f = true) :=
  ⟨⟨0, 0⟩, { a := 0, b := 0, d := 0, pe := false, pm := 0 }, wideState 3, _, by decide, rfl, by decide, by decide⟩

theorem witness_VectorFloatCompletes_18 : ∃ (u : CpAt) (f : VFields) (x : Bool) (s : State) (c : Cp),
    s.executes u = true ∧ s.cpOf u.tile u.cp = c ∧ c.sewBits = 64 ∧ c.groupsOk f x = true :=
  ⟨⟨0, 0⟩, { a := 0, b := 0, d := 0, pe := false, pm := 0 }, false, wideState 3, _, by decide, rfl, by decide, by decide⟩

theorem witness_VectorFloatCompletes_24 : ∃ (u : CpAt) (f : VFields) (s : State) (c : Cp),
    s.executes u = true ∧ s.cpOf u.tile u.cp = c ∧ c.sewBits = 64 ∧ c.groupsOk f false = true :=
  ⟨⟨0, 0⟩, { a := 0, b := 0, d := 0, pe := false, pm := 0 }, wideState 3, _, by decide, rfl, by decide, by decide⟩

theorem witness_VectorFloatCompletes_25 : ∃ (u : CpAt) (f : VFields) (x : Bool) (s : State) (c : Cp),
    s.executes u = true ∧ s.cpOf u.tile u.cp = c ∧ c.sewBits = 8 ∧ c.groupsOk f x = true :=
  ⟨⟨0, 0⟩, { a := 0, b := 0, d := 0, pe := false, pm := 0 }, false, cpState, _, by decide, rfl, by decide, by decide⟩

theorem witness_VectorFloatCompletes_27 : ∃ (u : CpAt) (s : State) (c : Cp),
    s.executes u = true ∧ s.cpOf u.tile u.cp = c ∧ (c.sewBits = 8 ∨ c.sewBits = 16) :=
  ⟨⟨0, 0⟩, cpState, _, by decide, rfl, by decide⟩

theorem witness_VectorFloatCompletes_28 : ∃ (u : CpAt) (s : State) (c : Cp),
    s.executes u = true ∧ s.cpOf u.tile u.cp = c ∧ c.sewBits ≠ 64 :=
  ⟨⟨0, 0⟩, cpState, _, by decide, rfl, by decide⟩

theorem witness_VectorFloatCompletes_29 : ∃ (u : CpAt) (s : State) (c : Cp),
    s.executes u = true ∧ s.cpOf u.tile u.cp = c ∧ c.sewBits ≠ 8 :=
  ⟨⟨0, 0⟩, wideState 2, _, by decide, rfl, by decide⟩

theorem witness_ReductionCompletes_1 : ∃ (u : CpAt) (f : VFields) (s : State) (c : Cp),
    s.executes u = true ∧ s.cpOf u.tile u.cp = c ∧ (c.vOk f.a.toNat = true ∧ c.pmOk f = true) :=
  ⟨⟨0, 0⟩, { a := 0, b := 0, d := 0, pe := false, pm := 0 }, cpState, _, by decide, rfl, by decide⟩

theorem witness_ReductionCompletes_6 : ∃ (u : CpAt) (f : VFields) (s : State) (c : Cp),
    s.executes u = true ∧ s.cpOf u.tile u.cp = c ∧ fpSew c.sewBits = true ∧ (c.vOk f.a.toNat = true ∧ c.pmOk f = true) :=
  ⟨⟨0, 0⟩, { a := 0, b := 0, d := 0, pe := false, pm := 0 }, wideState 2, _, by decide, rfl, by decide, by decide⟩

theorem witness_ReductionCompletes_9 : ∃ (u : CpAt) (f : VFields) (s : State) (c : Cp),
    s.executes u = true ∧ s.cpOf u.tile u.cp = c ∧ c.vOk f.a.toNat = true :=
  ⟨⟨0, 0⟩, { a := 0, b := 0, d := 0, pe := false, pm := 0 }, cpState, _, by decide, rfl, by decide⟩

theorem witness_ReductionCompletes_10 : ∃ (u : CpAt) (f : VFields) (s : State) (c : Cp),
    s.executes u = true ∧ s.cpOf u.tile u.cp = c ∧ (c.vOk f.d.toNat = true ∧ c.pmOk f = true) :=
  ⟨⟨0, 0⟩, { a := 0, b := 0, d := 0, pe := false, pm := 0 }, cpState, _, by decide, rfl, by decide⟩

theorem witness_ReductionCompletes_12 : ∃ (u : CpAt) (f : VFields) (s : State) (c : Cp),
    s.executes u = true ∧ s.cpOf u.tile u.cp = c ∧ (c.vOk f.d.toNat = true ∧ c.vOk f.a.toNat = true ∧ c.pmOk f = true) :=
  ⟨⟨0, 0⟩, { a := 0, b := 0, d := 0, pe := false, pm := 0 }, cpState, _, by decide, rfl, by decide⟩

theorem witness_ReductionCompletes_13 : ∃ (u : CpAt) (f : VFields) (s : State) (c : Cp),
    s.executes u = true ∧ s.cpOf u.tile u.cp = c ∧ c.groupsOk f false = true :=
  ⟨⟨0, 0⟩, { a := 0, b := 0, d := 0, pe := false, pm := 0 }, cpState, _, by decide, rfl, by decide⟩

theorem witness_ReductionCompletes_16 : ∃ (u : CpAt) (f : VFields) (s : State) (c : Cp),
    s.executes u = true ∧ s.cpOf u.tile u.cp = c ∧ (f.d.toNat < 16 ∧ f.d.toNat % c.pg = 0 ∧ f.pe = false ∧ f.pm = 0 ∧ f.a.toNat < 16 ∧ f.a.toNat % c.pg = 0 ∧ f.b.toNat < 16 ∧ f.b.toNat % c.pg = 0) :=
  ⟨⟨0, 0⟩, { a := 0, b := 0, d := 0, pe := false, pm := 0 }, cpState, _, by decide, rfl, by decide⟩

theorem witness_ReductionCompletes_20 : ∃ (u : CpAt) (f : VFields) (s : State) (c : Cp),
    s.executes u = true ∧ s.cpOf u.tile u.cp = c ∧ (f.d.toNat < 16 ∧ f.d.toNat % c.pg = 0 ∧ f.pe = false ∧ f.pm = 0 ∧ f.a.toNat < 16 ∧ f.a.toNat % c.pg = 0) :=
  ⟨⟨0, 0⟩, { a := 0, b := 0, d := 0, pe := false, pm := 0 }, cpState, _, by decide, rfl, by decide⟩

theorem witness_ReductionCompletes_22 : ∃ (u : CpAt) (f : VFields) (s : State) (c : Cp),
    s.executes u = true ∧ s.cpOf u.tile u.cp = c ∧ (f.d.toNat < 16 ∧ f.d.toNat % c.pg = 0 ∧ f.pe = false ∧ f.pm = 0) :=
  ⟨⟨0, 0⟩, { a := 0, b := 0, d := 0, pe := false, pm := 0 }, cpState, _, by decide, rfl, by decide⟩

theorem witness_ReductionCompletes_24 : ∃ (u : CpAt) (f : VFields) (s : State) (c : Cp),
    s.executes u = true ∧ s.cpOf u.tile u.cp = c ∧ (f.a.toNat < 16 ∧ f.a.toNat % c.pg = 0 ∧ f.pe = false ∧ f.pm = 0) :=
  ⟨⟨0, 0⟩, { a := 0, b := 0, d := 0, pe := false, pm := 0 }, cpState, _, by decide, rfl, by decide⟩

theorem witness_ReductionCompletes_27 : ∃ (u : CpAt) (f : VFields) (s : State) (c : Cp) (c1 : Cp) (bs : List Byte) (t1 : Tile),
    s.executes u = true ∧ s.cpOf u.tile u.cp = c ∧ (f.d.toNat < 16 ∧ f.d.toNat % c.pg = 0 ∧ f.pe = false ∧ f.pm = 0) ∧ s.bytesOk u false (c.rd f.a).toNat (ceilDiv c.vl 8) = true ∧ cacheRead c (s.tile u.tile) (c.rd f.a).toNat (ceilDiv c.vl 8) = (bs, c1, t1) :=
  ⟨⟨0, 0⟩, { a := 0, b := 0, d := 0, pe := false, pm := 0 }, cpState, _, _, _, _, by decide, rfl, by decide, by decide, rfl⟩

theorem witness_ReductionCompletes_28 : ∃ (u : CpAt) (f : VFields) (s : State) (c : Cp) (c1 : Cp) (c2 : Cp) (bs : List Byte) (t1 : Tile) (t2 : Tile),
    s.executes u = true ∧ s.cpOf u.tile u.cp = c ∧ (f.d.toNat < 16 ∧ f.d.toNat % c.pg = 0 ∧ f.pe = false ∧ f.pm = 0) ∧ s.bytesOk u true (c.rd f.a).toNat (ceilDiv c.vl 8) = true ∧ cacheRead c (s.tile u.tile) (c.rd f.a).toNat (ceilDiv c.vl 8) = (bs, c1, t1) ∧ (cacheWrite c1 t1 (c.rd f.a).toNat ((List.range (ceilDiv c.vl 8)).map fun k => predByte s.vlen c f.d.toNat (nth bs k 0) k) = (c2, t2)) :=
  ⟨⟨0, 0⟩, { a := 0, b := 0, d := 0, pe := false, pm := 0 }, cpState, _, _, _, _, _, _, by decide, rfl, by decide, by decide, rfl, rfl⟩

theorem witness_ReductionCompletes_29 : ∃ (u : CpAt) (f : VFields) (s : State) (c : Cp),
    s.executes u = true ∧ s.cpOf u.tile u.cp = c ∧ (f.pe = true ∨ f.pm ≠ 0 ∨ 16 ≤ f.d.toNat ∨ 16 ≤ f.a.toNat ∨ 16 ≤ f.b.toNat) :=
  ⟨⟨0, 0⟩, { a := 0, b := 0, d := 0, pe := true, pm := 0 }, cpState, _, by decide, rfl, by decide⟩

theorem witness_VectorMemoryCompletes_1 : ∃ (u : CpAt) (f : VFields) (s : State) (c : Cp) (c1 : Cp) (t1 : Tile),
    s.executes u = true ∧ s.cpOf u.tile u.cp = c ∧ (c.vOk f.d.toNat = true ∧ c.pmOk f = true) ∧ (s.vmemOk u f false (fun i => (((c.rd f.a).toNat : Int) + i * (c.sewBits / 8)) % 2 ^ 64) = true) ∧ (s.vmemAll u f (loadElem false s.vlen c.sewBits f.d.toNat) (fun i => (((c.rd f.a).toNat : Int) + i * (c.sewBits / 8)) % 2 ^ 64) = (c1, t1)) :=
  ⟨⟨0, 0⟩, { a := 1, b := 0, d := 0, pe := false, pm := 0 }, vecState, _, _, _, by decide, rfl, by decide, by decide +kernel, (Prod.eta _).symm⟩

theorem witness_VectorMemoryCompletes_2 : ∃ (u : CpAt) (f : VFields) (s : State) (c : Cp) (c1 : Cp) (t1 : Tile),
    s.executes u = true ∧ s.cpOf u.tile u.cp = c ∧ (c.vOk f.d.toNat = true ∧ c.pmOk f = true) ∧ (s.vmemOk u f false (fun i => (((c.rd f.a).toNat : Int) + i * (c.rd f.b).toInt) % 2 ^ 64) = true) ∧ (s.vmemAll u f (loadElem false s.vlen c.sewBits f.d.toNat) (fun i => (((c.rd f.a).toNat : Int) + i * (c.rd f.b).toInt) % 2 ^ 64) = (c1, t1)) :=
  ⟨⟨0, 0⟩, { a := 1, b := 0, d := 0, pe := false, pm := 0 }, vecState, _, _, _, by decide, rfl, by decide, by decide +kernel, (Prod.eta _).symm⟩

theorem witness_VectorMemoryCompletes_3 : ∃ (u : CpAt) (f : VFields) (s : State) (c : Cp) (c1 : Cp) (t1 : Tile),
    s.executes u = true ∧ s.cpOf u.tile u.cp = c ∧ (c.vOk f.d.toNat = true ∧ c.pmOk f = true ∧ c.vOk f.b.toNat = true) ∧ (s.vmemOk u f false (fun i => (((c.rd f.a).toNat : Int) + c.velem s.vlen c.sewBits f.b.toNat i) % 2 ^ 64) = true) ∧ (s.vmemAll u f (loadElem true s.vlen c.sewBits f.d.toNat) (fun i => (((c.rd f.a).toNat : Int) + c.velem s.vlen c.sewBits f.b.toNat i) % 2 ^ 64) = (c1, t1)) :=
  ⟨⟨0, 0⟩, { a := 1, b := 0, d := 0, pe := false, pm := 0 }, vecState, _, _, _, by decide, rfl, by decide, by decide +kernel, (Prod.eta _).symm⟩

theorem witness_VectorMemoryCompletes_4 : ∃ (u : CpAt) (f : VFields) (s : State) (c : Cp) (c1 : Cp) (t1 : Tile),
    s.executes u = true ∧ s.cpOf u.tile u.cp = c ∧ (c.vOk f.d.toNat = true ∧ c.pmOk f = true ∧ c.vOk f.b.toNat = true ∧ f.pe = true) ∧ (s.vmemOk u f false (fun i => (((c.rd f.a).toNat : Int) + c.velem s.vlen c.sewBits f.b.toNat i) % 2 ^ 64) = true) ∧ (s.vmemAll u f (loadElem true s.vlen c.sewBits f.d.toNat) (fun i => (((c.rd f.a).toNat : Int) + c.velem s.vlen c.sewBits f.b.toNat i) % 2 ^ 64) = (c1, t1)) :=
  ⟨⟨0, 0⟩, { a := 1, b := 0, d := 0, pe := true, pm := 0 }, vecState, _, _, _, by decide, rfl, by decide, by decide +kernel, (Prod.eta _).symm⟩

theorem witness_VectorMemoryCompletes_5 : ∃ (u : CpAt) (f : VFields) (s : State) (c : Cp) (c1 : Cp) (t1 : Tile),
    s.executes u = true ∧ s.cpOf u.tile u.cp = c ∧ (c.vOk f.d.toNat = true ∧ c.pmOk f = true) ∧ (s.vmemOk u f true (fun i => (((c.rd f.a).toNat : Int) + i * (c.sewBits / 8)) % 2 ^ 64) = true) ∧ (s.vmemAll u f (storeElem false s.vlen c.sewBits f.d.toNat) (fun i => (((c.rd f.a).toNat : Int) + i * (c.sewBits / 8)) % 2 ^ 64) = (c1, t1)) :=
  ⟨⟨0, 0⟩, { a := 1, b := 0, d := 0, pe := false, pm := 0 }, vecState, _, _, _, by decide, rfl, by decide, by decide +kernel, (Prod.eta _).symm⟩

theorem witness_VectorMemoryCompletes_6 : ∃ (u : CpAt) (f : VFields) (s : State) (c : Cp) (c1 : Cp) (t1 : Tile),
    s.executes u = true ∧ s.cpOf u.tile u.cp = c ∧ (c.vOk f.d.toNat = true ∧ c.pmOk f = true) ∧ (s.vmemOk u f true (fun i => (((c.rd f.a).toNat : Int) + i * (c.rd f.b).toInt) % 2 ^ 64) = true) ∧ (s.vmemAll u f (storeElem false s.vlen c.sewBits f.d.toNat) (fun i => (((c.rd f.a).toNat : Int) + i * (c.rd f.b).toInt) % 2 ^ 64) = (c1, t1)) :=
  ⟨⟨0, 0⟩, { a := 1, b := 0, d := 0, pe := false, pm := 0 }, vecState, _, _, _, by decide, rfl, by decide, by decide +kernel, (Prod.eta _).symm⟩

theorem witness_VectorMemoryCompletes_7 : ∃ (u : CpAt) (f : VFields) (s : State) (c : Cp) (c1 : Cp) (t1 : Tile),
    s.executes u = true ∧ s.cpOf u.tile u.cp = c ∧ (c.vOk f.d.toNat = true ∧ c.pmOk f = true ∧ c.vOk f.b.toNat = true) ∧ (s.vmemOk u f true (fun i => (((c.rd f.a).toNat : Int) + c.velem s.vlen c.sewBits f.b.toNat i) % 2 ^ 64) = true) ∧ (s.vmemAll u f (storeElem true s.vlen c.sewBits f.d.toNat) (fun i => (((c.rd f.a).toNat : Int) + c.velem s.vlen c.sewBits f.b.toNat i) % 2 ^ 64) = (c1, t1)) :=
  ⟨⟨0, 0⟩, { a := 1, b := 0, d := 0, pe := false, pm := 0 }, vecState, _, _, _, by decide, rfl, by decide, by decide +kernel, (Prod.eta _).symm⟩

theorem witness_StepRunsFront : ∃ s : State, s.pending = [] := ⟨ready, rfl⟩

theorem witness_GuardCountsDown : ∃ (r : Req) (s : State), (r = .pf0 ∨ ∃ w, r = .stw w) ∧ s.reachable r 0x20 = true ∧ s.lock.isOpen = false :=
  ⟨.stw 1, { ready with glb := { ready.glb with guard := Tri.of {} } }, .inr ⟨1, rfl⟩, by decide, by decide⟩

theorem witness_GuardRefuses_1 : ∃ (r : Req) (s : State),
    (s.reachable r 0x10010 = true ∧ s.holds r = false) :=
  ⟨.stw 0, ready, by decide⟩

theorem witness_GuardRefuses_2 : ∃ (r : Req) (s : State),
    (s.reachable r 0x60030 = true ∧ s.holds r = false) :=
  ⟨.stw 0, ready, by decide⟩

theorem witness_GuardRefuses_3 : ∃ (r : Req) (env : BootEnv) (s : State),
    (s.reachable r 0x60010 = true ∧ s.holds r = false ∧ env.failStack = none) :=
  ⟨.stw 0, testEnv, ready, by decide⟩

theorem witness_GuardRefuses_4 : ∃ (r : Req) (i : Nat) (s : State),
    (i < 4 ∧ s.reachable r (0x50 + 4 * i) = true ∧ s.holds r = false) :=
  ⟨.stw 0, 0, ready, by decide⟩

theorem witness_GuardRefuses_5 : ∃ (r : Req) (s : State),
    (s.reachable r 0x330020 = true ∧ s.holds r = false) :=
  ⟨.stw 0, ready, by decide⟩

theorem witness_GuardRefuses_6 : ∃ (r : Req) (p : Nat) (s : State),
    (p ≤ 5 ∧ s.reachable r (0x330100 + 4 * p) = true ∧ s.holds r = false) :=
  ⟨.stw 0, 0, ready, by decide⟩

theorem witness_GuardRefuses_7 : ∃ (r : Req) (s : State),
    (s.reachable r 0x50020 = true ∧ s.holds r = false) :=
  ⟨.stw 0, ready, by decide⟩

theorem witness_GuardRefuses_8 : ∃ (r : Req) (s : State),
    (s.reachable r 0x50038 = true ∧ s.holds r = false) :=
  ⟨.stw 0, ready, by decide⟩

theorem witness_GuardRefuses_9 : ∃ (r : Req) (s : State),
    (s.reachable r 0x40100 = true ∧ s.holds r = false) :=
  ⟨.stw 0, ready, by decide⟩

theorem witness_AccessFaults_1 : ∃ (u : CpAt) (a : BitVec 5) (imm : BitVec 16) (s : State) (c : Cp) (ea : Nat), s.executes u = true ∧
    s.cpOf u.tile u.cp = c ∧ (c.rd a + imm.signExtend 64).toNat = ea ∧ ea < 2 ^ 32 ∧ c.mayRead ea 1 = false ∧ c.mayWrite ea 1 = false :=
  ⟨⟨0, 0⟩, 0, 0x7FFF, poorState, _, _, by decide, rfl, rfl, by decide, by decide, by decide⟩
theorem witness_AccessFaults_2 : ∃ (u : CpAt) (a : BitVec 5) (imm : BitVec 16) (s : State) (c : Cp) (ea : Nat), s.executes u = true ∧
    s.cpOf u.tile u.cp = c ∧ (c.rd a + imm.signExtend 64).toNat = ea ∧ ea < 2 ^ 32 ∧ c.mayRead ea 2 = true ∧ c.mayWrite ea 2 = true ∧ ea % 2 ≠ 0 :=
  ⟨⟨0, 0⟩, 0, 3, cpState, _, _, by decide, rfl, rfl, by decide, by decide, by decide, by decide⟩
theorem witness_AccessFaults_3 : ∃ (u : CpAt) (a : BitVec 5) (imm : BitVec 16) (s : State) (c : Cp) (ea w : Nat), s.executes u = true ∧
    s.cpOf u.tile u.cp = c ∧ (c.rd a + imm.signExtend 64).toNat = ea ∧ ea < 2 ^ 32 ∧ c.mayRead ea 8 = true ∧ ea % 8 = 0 ∧
    rangeStalls u.cp c (s.tile u.tile) (lineOf ea) 128 = false ∧ unstaged (s.tile u.tile) ea = some w :=
  ⟨⟨0, 0⟩, 4, 8, poolState, _, _, 0, by decide, rfl, rfl, by decide, by decide, by decide, by decide, by decide⟩
theorem witness_AccessFaults_4 : ∃ (u : CpAt) (f : VFields) (s : State) (c : Cp) (j : Nat) (js : List Nat) (e : Nat), s.executes u = true ∧
    s.cpOf u.tile u.cp = c ∧ c.vOk f.d.toNat = true ∧ c.pmOk f = true ∧ pendingElems s.vlen c f = j :: js ∧
    accFault c (wrap64 ((c.rd f.a).toNat + j * (c.sewBits / 8))) (c.sewBits / 8) (c.sewBits / 8) false = some e :=
  ⟨⟨0, 0⟩, { a := 2, b := 0, d := 0, pe := false, pm := 0 }, vecState, _, 0, [1], 0x461, by decide, rfl, by decide, by decide, by decide +kernel, by decide +kernel⟩

theorem witness_FetchBeyondCode : ∃ (u : CpAt) (s : State), s.cpRuns u = true ∧ (s.cpOf u.tile u.cp).env.codeLen ≤ (s.cpOf u.tile u.cp).pc.toNat :=
  ⟨⟨0, 0⟩, lineState { pc := 64 }, by decide, by decide⟩

theorem witness_NvmeStatusMap : ∃ (s : State) (id conn cid : Nat) (c : Cmd), s.cmd? id = some c ∧ c.origin = .net conn cid ∧ s.vigil.resetReq = false ∧
    s.current c.ctx c.gen = true :=
  ⟨{ partState 1 0x20 32 [] with hif := { (partState 1 0x20 32 []).hif with cmds := [{ partCmd0 0x20 32 [] with origin := .net 0 5 }] } }, 0, 0, 5, _, rfl, rfl, by decide, by decide⟩

theorem witness_PackedArrays : ∃ (w : Nat) (xs : List Nat) (i b : Nat), i < xs.length ∧ b < w := ⟨3, [5], 0, 2, by decide, by decide⟩

theorem witness_FieldProducts : ∃ (u : CpAt) (f : VFields) (x : Bool) (s : State) (c : Cp), s.executes u = true ∧ s.cpOf u.tile u.cp = c ∧ c.sewBits = 8 ∧
    c.groupsOk f x = true := ⟨⟨0, 0⟩, { a := 1, b := 2, d := 3, pe := false, pm := 0 }, true, cpState, _, by decide, rfl, by decide, by decide⟩

theorem witness_GeneralRegisters : ∃ (c : Cp) (n : BitVec 5), tableWf 0 c.g = true ∧ n ≠ 0 := ⟨{}, 1, by decide, by decide⟩

theorem witness_VectorElements : ∃ (c : Cp) (vlen w : Nat), (vlen = 1024 ∨ vlen = 2048) ∧ (w = 8 ∨ w = 16 ∨ w = 32 ∨ w = 64) ∧ tableWf 0 c.v = true :=
  ⟨{}, 1024, 64, by decide, by decide, by decide⟩

theorem witness_PredicateElements : ∃ (c : Cp) (vlen i : Nat), (vlen = 1024 ∨ vlen = 2048) ∧ tableWf 0 c.p = true ∧ i < c.pgElems vlen :=
  ⟨{}, 2048, 255, by decide, by decide, by decide⟩
theorem witness_PredicateElements_2 : ∃ (c : Cp) (i : Nat), c.vl ≤ i := ⟨{}, 0, by decide⟩
theorem witness_PredicateElements_3 : ∃ (c : Cp) (vlen i : Nat) (f : VFields), f.pe = true ∧ c.pelem vlen f.pm.toNat i = false :=
  ⟨{}, 2048, 0, { a := 0, b := 0, d := 0, pe := true, pm := 0 }, by decide, by decide⟩

theorem witness_DivisionLaws : ∃ (w : Nat) (a b : BitVec w), 0 < w ∧ b ≠ 0 ∧ divCorner a b = false := ⟨64, 7, -2, by decide, by decide, by decide⟩

theorem witness_UncachedStores : ∃ (u : CpAt) (a : BitVec 5) (imm : BitVec 16) (s : State) (c : Cp) (ea : Nat), s.executes u = true ∧ s.cpOf u.tile u.cp = c ∧
    c.cen = false ∧ (c.rd a + imm.signExtend 64).toNat = ea ∧ tableWf {} s.tiles = true ∧ Memory.wf (s.tile u.tile).scratch = true ∧
    s.canStore u (c.rd a + imm.signExtend 64) 8 = true :=
  ⟨⟨0, 0⟩, 0, 8, vecState, _, _, by decide, rfl, by decide, rfl, by decide, by decide, by decide⟩

theorem witness_CachedStores : ∃ (u : CpAt) (a : BitVec 5) (imm : BitVec 16) (s : State) (c : Cp) (ea : Nat), s.executes u = true ∧ s.cpOf u.tile u.cp = c ∧
    c.cen = true ∧ (c.rd a + imm.signExtend 64).toNat = ea ∧ tableWf {} s.tiles = true ∧ c.cache.length < 47 ∧
    (∀ l ∈ c.cache, l.data.length = 128 ∧ l.addr % 128 = 0) ∧ s.canStore u (c.rd a + imm.signExtend 64) 1 = true :=
  ⟨⟨0, 0⟩, 0, 8, lineState { cache := [testLine] }, _, _, by decide, rfl, by decide, rfl, by decide, by decide, by decide +kernel, by decide⟩

theorem witness_StaleCommands : ∃ (s : State) (id : Nat) (c : Cmd), s.cmd? id = some c ∧ c.phase = .fetched ∧ s.fenceOk c = true ∧ s.serving c.op = true ∧
    s.current c.ctx c.gen = false :=
  ⟨{ partState 1 1 32 [] with parts := [(0, { en := Tri.of true, state := 1, gen := 1 })] }, 0, partCmd0 1 32 [], by decide +kernel, by decide, by decide, by decide, by decide⟩

theorem witness_IllegalWords : ∃ (u : CpAt) (w : Word) (i : Instr), cpDecode u w = some i := ⟨⟨0, 0⟩, 0x04000000, .add ⟨0, 0⟩ 0 0 0, by decide⟩

theorem witness_KeepsMemories : ∃ s t : State, step s = .next t ∧ s.memWf := ⟨State.reset, _, rfl, by decide, by decide, by decide, by decide, by decide, (by intro e h; simp [State.reset, State.resetOf] at h), by decide⟩

theorem witness_InstructionLeaves : ∃ (u : CpAt) (s : State), u.cp < 4 ∧ tableWf {} s.cps = true ∧ tableWf {} s.tiles = true ∧ tableWf {} s.parts = true ∧
    (s.tile u.tile).ctx.toNat < 4096 ∧ tableWf 0 (s.part (s.tile u.tile).ctx.toNat).mtr = true :=
  ⟨⟨0, 0⟩, cpState, by decide, by decide, by decide, by decide, by decide, by decide⟩

theorem witness_LatchedReads_1 : ∃ (r q : Req) (s : State), r = .pf0 ∧ (∃ w, w < 4 ∧ q = .stw w) ∧ q ≠ r ∧ s.canRead r .bar0 0x10100 = true ∧ s.serves 0x10100 = true ∧
    tableWf 0 s.latches = true := ⟨.pf0, .stw 1, ready, rfl, ⟨1, by decide, rfl⟩, by decide, by decide, by decide, by decide⟩
theorem witness_LatchedReads_2 : ∃ (r q : Req) (off ofs : Nat) (s : State) (d : DWord), s.canRead r .bar0 off = true ∧
    (match r with | .vf n => s.wideVf (n - 1) off | _ => s.wide off) = some d ∧ (s.peekAt r .bar0 off).isSome = true ∧ tableWf 0 s.latches = true ∧
    reqOk q = true ∧ reqOk r = true ∧ ofs < 2 ^ 27 ∧ (q, ofs) ≠ (r, off) :=
  ⟨.pf0, .vf 1, 0x50014, 0x50014, ready, _, by decide, rfl, by decide, by decide, by decide, by decide, by decide, by decide⟩

end Sys2Proof.Tests
end

section
/-! Registers and completions: which latch a read of a low word sets, and what a command answers that is stale, waits for no host
memory, or is a partition's administration (R17, R29, R44, R365, R408). -/

namespace Sys2Proof.Machine

/-! ## Latches (R29, R44) -/

/-- Requesters that exist have keys of their own. -/
theorem reqKey_inj {q r : Req} (hq : reqOk q = true) (hr : reqOk r = true) (h : reqKey q = reqKey r) : q = r := by
  cases q <;> cases r <;> simp_all [reqOk, reqKey, reqCode] <;> omega

/-- Requesters that exist have latches of their own, one for each offset of BAR0. -/
theorem latchKey_inj {q r : Req} {ofs off : Nat} (hq : reqOk q = true) (hr : reqOk r = true) (ho : ofs < 2 ^ 27)
    (hf : off < 2 ^ 27) (h : latchKey q ofs = latchKey r off) : q = r ∧ ofs = off := by
  simp only [latchKey] at h
  exact ⟨reqKey_inj hq hr (by omega), by omega⟩

/-- BAR0 ends below 2^26 (R30), so the offset of a read that takes effect fits a latch's index. -/
theorem canRead_bar0_lt {s : State} {r : Req} {off : Nat} (h : s.canRead r .bar0 off = true) : off < 2 ^ 27 := by
  cases r <;> simp [State.canRead, State.canAccess] at h <;> omega

/-- A low-word read changes the latches and sends the word, and nothing else. -/
theorem lowRead_eq (s : State) (r : Req) (off : Nat) (d : DWord) :
    s.lowRead r off d = { s with latches := (s.lowRead r off d).latches, out := .readData r (lo32 d) :: s.out } := rfl

theorem lowRead_latch_self {s : State} (h : tableWf 0 s.latches = true) (r : Req) (off : Nat) (d : DWord) :
    look 0 (s.lowRead r off d).latches (latchKey r off) = hi32 d := look_put_self h

theorem lowRead_latch_ne (s : State) {r q : Req} {off ofs : Nat} (h : latchKey q ofs ≠ latchKey r off) (d : DWord) :
    look 0 (s.lowRead r off d).latches (latchKey q ofs) = look 0 s.latches (latchKey q ofs) := look_put_ne h

/-- A low-word read leaves the latches of other requesters and of other offsets. -/
theorem lowRead_latch_other (s : State) {r q : Req} {off ofs : Nat} (hq : reqOk q = true) (hr : reqOk r = true) (ho : ofs < 2 ^ 27)
    (hf : off < 2 ^ 27) (h : (q, ofs) ≠ (r, off)) (d : DWord) :
    look 0 (s.lowRead r off d).latches (latchKey q ofs) = look 0 s.latches (latchKey q ofs) :=
  lowRead_latch_ne s (fun e => h (Prod.ext_iff.2 (latchKey_inj hq hr ho hf e))) d

/-- CLK_ALM_HI reads the requester's latch where CLK serves (R29). -/
theorem peek_almHi (s : State) (r : Req) :
    s.peek r 0x10104 = if s.serves 0x10100 then some (look 0 s.latches (latchKey r 0x10100)) else none := by
  have hs : s.serves 0x10104 = s.serves 0x10100 := rfl
  cases hv : s.serves 0x10100 <;> simp [State.peek, hs, hv, canonOfs, State.presentAt, State.wide]

/-- A counter's low-word read by any requester but a VF. -/
theorem execCounterLowRead_bar0 {s : State} {r : Req} {off : Nat} {d : DWord} (hr : ∀ n, r ≠ .vf n)
    (hread : s.canRead r .bar0 off = true) (hd : s.wide off = some d) (hpeek : (s.peekAt r .bar0 off).isSome = true) :
    execCounterLowRead r off s = .next (s.lowRead r off d) := by
  have hp : (s.peekAt r .bar0 off).isNone = false := by simpa using hpeek
  cases r with
  | vf n => exact absurd rfl (hr n)
  | pf0 | stw w | jtag => simp [execCounterLowRead, hread, hd, hp]

/-- A counter's low-word read by a VF, in its partition page. -/
theorem execCounterLowRead_vf {s : State} {n off : Nat} {d : DWord} (hread : s.canRead (.vf n) .bar0 off = true)
    (hd : s.wideVf (n - 1) off = some d) (hpeek : (s.peekAt (.vf n) .bar0 off).isSome = true) :
    execCounterLowRead (.vf n) off s = .next (s.lowRead (.vf n) off d) := by
  have hp : (s.peekAt (.vf n) .bar0 off).isNone = false := by simpa using hpeek
  simp [execCounterLowRead, hread, hd, hp]

/-! ## Ring commands -/

/-- A command that may start but carries an old generation completes with 0x0703 alone (R17). -/
theorem withCmd_stale {s : State} {id op : Nat} {c : Cmd} (hc : s.cmd? id = some c) (hop : c.op = op) (hp : c.phase = .fetched)
    (hf : s.fenceOk c = true) (hs : s.serving op = true) (hg : s.current c.ctx c.gen = false) (m : String) (k : Cmd → State) :
    withCmd s id op m k = .next (s.done id 0x0703) := by
  simp [withCmd, hc, hop, hp, hf, hs, hg]

/-- A command that nothing keeps from its host memory does not wait (R365). -/
theorem hostWaits_ready {s : State} {id op : Nat} {c : Cmd} (h : s.ready id op c = true) (hf : s.hostFree c = true) :
    (s.cmd? id).any s.hostWaits = false := by
  simpa [ready_cmd h, State.hostFree] using hf

/-- A partition command whose fields are in range and whose partition admits it runs (R408). -/
theorem partCmd_ready {s : State} {id op : Nat} {c : Cmd} {zeros : List (Nat × Nat)} {admits : Part → Bool} {fields : Cmd → Bool}
    (h : s.ready id op c = true) (hz : c.zeros zeros = true) (hp : c.f 8 2 < 4096) (hf : fields c = true)
    (ha : admits (s.part (c.f 8 2)) = true) (m : String) (k : Cmd → Nat → State) :
    partCmd s id op m zeros admits fields k = .next (k c (c.f 8 2)) := by
  simp [partCmd, withCmd_ready h, hz, Nat.not_le.2 hp, hf, ha]

end Sys2Proof.Machine
end

section
/-! The partitions' rows (13_partitions.md): what each operation answers where its conditions hold. -/

namespace Sys2Proof.Machine

/-! ## HBM pages and copies (R400) -/

/-- HBM_ALLOC within the partition's quota maps the lowest free run. -/
theorem execHbmAlloc_maps {s : State} {id a : Nat} {c : Cmd} (h : s.ready id 0x60 c = true)
    (hz : c.zeros [(8, 4), (16, 16)] = true) (h0 : c.f 12 4 ≠ 0) (hn : c.f 12 4 ≤ 98304) (hctx : c.ctx.toNat < 4096)
    (hq : s.pagesUsed c.ctx.toNat + c.f 12 4 ≤ (tri (s.part c.ctx.toNat).pageMax).toNat)
    (hfree : freeRange (s.pageList c.ctx.toNat) (c.f 12 4) = some a) :
    execHbmAlloc id s = .next
      (((List.range (c.f 12 4)).foldl (fun (x : State) i => x.mapPage c.ctx.toNat (a + i)) s).complete id 0 (BitVec.ofNat 32 a) 0) := by
  simp [execHbmAlloc, withCmd_ready h, hz, h0, Nat.not_lt.2 hn, Nat.not_lt.2 hq, Nat.not_le.2 hctx, hfree]

/-- HBM_FREE of mapped pages that no run names unmaps them. -/
theorem execHbmFree_unmaps {s : State} {id : Nat} {c : Cmd} (h : s.ready id 0x61 c = true)
    (hz : c.zeros [(8, 4), (20, 12)] = true) (h0 : c.f 16 4 ≠ 0) (hn : c.f 16 4 ≤ 98304) (hend : c.f 12 4 + c.f 16 4 ≤ pagesPerCtx)
    (hm : ((List.range (c.f 16 4)).all fun i => s.mapped c.ctx.toNat (c.f 12 4 + i)) = true)
    (hu : ((List.range (c.f 16 4)).any fun i => s.pageNamed c.ctx.toNat (c.f 12 4 + i)) = false) :
    execHbmFree id s = .next
      (((List.range (c.f 16 4)).foldl (fun (x : State) i => x.unmapPage c.ctx.toNat (c.f 12 4 + i)) s).done id 0) := by
  simp only [execHbmFree, withCmd_ready h, hz, hm, hu]
  simp [h0, Nat.not_lt.2 hn, Nat.not_lt.2 hend]

/-- MEM_COPY from host to host. -/
theorem execMemCopy_host {s : State} {id : Nat} {c : Cmd} (h : s.ready id 0x40 c = true) (hw : s.hostFree c = true)
    (hz : c.zeros [(34, 30)] = true) (hsk : c.f 32 1 = 0) (hdk : c.f 33 1 = 0) (h0 : c.f 24 8 ≠ 0) (hn : c.f 24 8 ≤ 2 ^ 36)
    (hr : s.hostFails c.fn (c.f 8 8) (c.f 24 8) = false) :
    execMemCopy id s = .next ((s.hostWrite c.fn (c.f 16 8) (s.hostRead c.fn (c.f 8 8) (c.f 24 8))).complete id 0
      (BitVec.ofNat 32 (c.f 24 8)) (BitVec.ofNat 32 (c.f 24 8 / 2 ^ 32))) := by
  have hwait : s.hostWaits c = false := by simpa [State.hostFree] using hw
  have hn' : ¬ 2 ^ 36 < c.f 24 8 := Nat.not_lt.2 hn
  rw [execMemCopy, if_neg (by simp [ready_cmd h, hwait]), withCmd_ready h]
  simp only [hz, hsk, hdk, h0, hn', hr]
  rfl

/-- MEM_COPY within a context's HBM, source and destination apart. -/
theorem execMemCopy_hbm {s : State} {id : Nat} {c : Cmd} (h : s.ready id 0x40 c = true)
    (hz : c.zeros [(34, 30)] = true) (hsk : c.f 32 1 = 2) (hdk : c.f 33 1 = 2) (h0 : c.f 24 8 ≠ 0) (hn : c.f 24 8 ≤ 2 ^ 36)
    (hsrc : s.hbmOk c.ctx.toNat (c.f 8 8) (c.f 24 8) = true) (hdst : s.hbmOk c.ctx.toNat (c.f 16 8) (c.f 24 8) = true)
    (hapart : c.f 16 8 + c.f 24 8 ≤ c.f 8 8 ∨ c.f 8 8 + c.f 24 8 ≤ c.f 16 8) :
    execMemCopy id s = .next ((s.hbmWrite c.ctx.toNat (c.f 16 8) (s.hbmRead c.ctx.toNat (c.f 8 8) (c.f 24 8))).complete id 0
      (BitVec.ofNat 32 (c.f 24 8)) (BitVec.ofNat 32 (c.f 24 8 / 2 ^ 32))) := by
  have hn' : ¬ 2 ^ 36 < c.f 24 8 := Nat.not_lt.2 hn
  have hundef : (decide (c.f 8 8 < c.f 16 8 + c.f 24 8) && decide (c.f 16 8 < c.f 8 8 + c.f 24 8)) = false := by
    simp; omega
  rw [execMemCopy, if_neg (by simp [ready_cmd h, hsk, hdk]), withCmd_ready h]
  simp only [hz, hsk, hdk, h0, hn', hsrc, hdst, Bool.and_assoc, hundef]
  rfl

/-! ## Fixed slots (R404), freeze, reset and the generation's report (R18, R397, R407) -/

/-- FIXED_SLOT_START in a running partition whose slot has come. -/
theorem execFixedSlotStart_starts {s : State} {p : Nat} (hp : p < 4096) (hrun : (s.part p).state = 1) (hnow : s.slotNow p = true)
    (hout : (s.part p).inSlot = false) :
    execFixedSlotStart p s = .next ((List.range 18).foldl (fun (y : State) t => y.dropFlights t
      (fun f => f.ctx.toNat ≠ p && ((List.range 16).any (fun l => (s.part p).tiles.getLsbD l && s.physOf l = t) ||
        f.partner.any fun m => (List.range 16).any fun l => (s.part p).tiles.getLsbD l && s.physOf l = m))
      fun f z => z.abandonFree f) (s.setPart p { s.part p with inSlot := true })) := by
  simp only [execFixedSlotStart, hp, hrun, hnow, hout, decide_true, Bool.not_false, Bool.and_true, if_true]

/-- A drained freeze ends FROZEN, and its PART_FREEZE completes with the µs since its fetch. -/
theorem execFreezeComplete_ends {s : State} {p id : Nat} (hp : p < 4096) (hst : (s.part p).state = 2) (hd : s.drained p = true)
    (hw : (s.part p).waiter = some id) :
    execFreezeComplete p s = .next ((s.setPart p { s.part p with state := 3, waiter := none, almFrozen := s.clk.alm }).complete id 0
      (BitVec.ofNat 32 ((s.alm - (s.part p).freezeAt.toNat) / 1000)) 0) := by
  have hc : (decide (p < 4096) && decide ((s.part p).state = 2) && s.drained p) = true := by simp [hp, hst, hd]
  rw [execFreezeComplete, when_pos hc, State.frozen, hw]

/-- A reset that does not lead to OFF ends in RUN with its event. -/
theorem execPartitionResetComplete_runs {s : State} {p id : Nat} (hp : p < 4096) (hst : (s.part p).state = 4)
    (hg : (s.part p).genWait.isNone = true) (hb : (s.banksOf p).all (fun b => !(s.bank b).clearing) = true)
    (hoff : (s.part p).toOff = false) (hw : (s.part p).waiter = some id) :
    execPartitionResetComplete p s = .next (((s.setPart p { s.part p with state := 1, waiter := none }).pvEvent p 1).done id 0) := by
  have hx : { s.part p with state := 1, toOff := false, waiter := none, offRec := (s.part p).offRec } =
      { s.part p with state := 1, waiter := none } := by rw [← hoff]
  simp only [execPartitionResetComplete, hp, hst, hg, hb, hoff, hw, decide_true, Bool.and_true, if_true]
  simp [hx]

/-- The report that a waiting generation increment needs last. -/
theorem execGenerationIncrementReport_last {s : State} {p : Nat} (hp : p < 4096) (hg : (s.part p).genWait = some 0) :
    execGenerationIncrementReport p s = .next ((s.setPart p { s.part p with genWait := none }).genReported p) := by
  simp [execGenerationIncrementReport, hp, hg]

/-! ## Save and restore (R410, R413) -/

/-- PART_SAVE of a frozen partition into enough room writes the image and leaves the partitions as the check of its tables does. -/
theorem execPartSave_saves {s : State} {id : Nat} {c : Cmd} (h : s.ready id 0xAA c = true) (hw : s.hostFree c = true)
    (hz : c.zeros [(10, 6)] = true) (hp : c.f 8 2 < 4096) (ha : c.f 16 8 % 4096 = 0) (hst : (s.part (c.f 8 2)).state = 3)
    (hlen : (s.saveContent (c.f 8 2) []).length ≤ c.f 24 8) :
    ∃ t : State, execPartSave id s = .next (t.complete id 0 (BitVec.ofNat 32 (s.saveContent (c.f 8 2) []).length)
        (BitVec.ofNat 32 ((s.saveContent (c.f 8 2) []).length / 2 ^ 32))) ∧
      t.hostMem = memWrite (s.checkTables (c.f 8 2)).hostMem (hostKey c.fn (c.f 16 8))
        ((s.checkTables (c.f 8 2)).saveBytes (c.f 8 2) (s.saveContent (c.f 8 2) [])) ∧
      t.parts = (s.checkTables (c.f 8 2)).parts := by
  simp only [execPartSave, hostWaits_ready h hw]
  rw [if_neg Bool.false_ne_true, partCmd_ready h hz hp (by simp [ha]) (by simp [hst]), if_neg (Nat.not_lt.2 hlen)]
  exact ⟨_, rfl, rfl, rfl⟩

/-- PART_RESTORE of an image that opens goes on to its check. -/
theorem execPartRestore_checks {s : State} {id : Nat} {c : Cmd} (h : s.ready id 0xAB c = true) (hw : s.hostFree c = true)
    (hz : c.zeros [(10, 6)] = true) (hp : c.f 8 2 < 4096) (ha : c.f 16 8 % 4096 = 0) (hst : (s.part (c.f 8 2)).state = 0)
    (hen : tri (s.part (c.f 8 2)).en = false) (hr : s.hostFails c.fn (c.f 16 8) (c.f 24 8) = false) (hn : 0x1000 ≤ c.f 24 8)
    (hmagic : fieldLE (s.hostRead c.fn (c.f 16 8) 0x40) 0 4 = 0x49535A44) (hmaj : fieldLE (s.hostRead c.fn (c.f 16 8) 0x40) 4 2 = 1)
    (hmin : fieldLE (s.hostRead c.fn (c.f 16 8) 0x40) 6 2 ≤ 1) (hlen : fieldLE (s.hostRead c.fn (c.f 16 8) 0x40) 0x10 8 ≤ c.f 24 8)
    (hopen : (s.openImage (s.hostRead c.fn (c.f 16 8) (fieldLE (s.hostRead c.fn (c.f 16 8) 0x40) 0x10 8))).isSome = true) :
    execPartRestore id s = .next ((s.phase id .checking).queueCheck .glb (.partRestore id)) := by
  have hnone : (s.openImage (s.hostRead c.fn (c.f 16 8) (fieldLE (s.hostRead c.fn (c.f 16 8) 0x40) 0x10 8))).isNone = false := by
    simpa using hopen
  simp only [execPartRestore, hostWaits_ready h hw]
  rw [if_neg Bool.false_ne_true, partCmd_ready h hz hp (by simp [ha]) (by simp [hst, hen])]
  simp [hr, Nat.not_lt.2 hn, hmagic, hmaj, Nat.not_lt.2 hmin, Nat.not_lt.2 hlen, hnone]

/-! ## The partition page (R421) -/

/-- The low four bits of a word. -/
theorem ofNat_bits_low4 (x : Word) : BitVec.ofNat 4 (bits x.toNat 3 0) = x.setWidth 4 := by
  apply BitVec.eq_of_toNat_eq; simp [bits]

/-- The EN bits that a masked write of PV_EVEN writes 1 are its masked value bits, whatever stood before. -/
theorem pvEven_written (old v : Word) :
    BitVec.ofNat 4 (bits (v >>> 16).toNat 3 0) &&& BitVec.ofNat 4 (bits ((old &&& ~~~(v >>> 16)) ||| (v &&& v >>> 16 &&& 0x7FFF)).toNat 3 0)
      = v.extractLsb' 16 4 &&& v.setWidth 4 := by
  have hmask : (v >>> 16).setWidth 4 = v.extractLsb' 16 4 := by
    ext i hi; simp
  have hlow : (0x7FFF : Word).setWidth 4 = BitVec.allOnes 4 := rfl
  have habs (m o w : BitVec 4) : m &&& ((o &&& ~~~m) ||| (w &&& m)) = m &&& w := by
    ext i hi; cases hm : m[i] <;> simp [hm]
  rw [ofNat_bits_low4, ofNat_bits_low4, BitVec.setWidth_or, BitVec.setWidth_and, BitVec.setWidth_and, BitVec.setWidth_and,
    BitVec.setWidth_not (by decide), hmask, hlow, BitVec.and_allOnes, habs]

/-- A write of PV_EVEN that enables no standing event sends no message. -/
theorem execPvEvenWrite_silent {s : State} {n : Nat} {v : Word} (hn : s.vfExists n = true)
    (hv : v.extractLsb' 16 4 &&& BitVec.setWidth 4 v &&& (s.part (n - 1)).evt = 0) :
    ∃ t : Part, execPvEvenWrite n v s = .next (s.setPart (n - 1) t) ∧ t.evt = (s.part (n - 1)).evt ∧ t.gen = (s.part (n - 1)).gen := by
  simp only [execPvEvenWrite, hn, pvEven_written, hv]
  exact ⟨_, rfl, rfl, rfl⟩

/-- Settles O11, row by row. -/
theorem partitionCompletes : Obligations.PartitionCompletes := by
  refine ⟨?enable, ?disable, ?alloc, ?free, ?copyHost, ?copyHbm, ?slotStart, ?slotEnd, ?reset, ?release, ?freeze, ?freezeEnd,
    ?resetEnd, ?report, ?save, ?restore, ?pvEven⟩
  case enable =>
    intro r p v s ⟨hp, hr⟩
    rw [exec_partitionEnable, execPartitionEnable, if_neg (Nat.not_le.2 hp), busRow_reachable hr]
  case disable =>
    intro r p v s ⟨hp, hr⟩
    rw [exec_partitionDisable, execPartitionDisable, if_neg (Nat.not_le.2 hp), busRow_reachable hr]
  case alloc =>
    intro id s c a h ⟨hz, h0, hn⟩ ⟨hctx, hq⟩ hfree
    exact execHbmAlloc_maps h hz h0 hn hctx hq hfree
  case free =>
    intro id s c h ⟨hz, h0, hn, hend⟩ hm hu
    exact execHbmFree_unmaps h hz h0 hn hend hm hu
  case copyHost =>
    intro id s c h hw ⟨hz, hsk, hdk, h0, hn⟩ hr
    exact execMemCopy_host h hw hz hsk hdk h0 hn hr
  case copyHbm =>
    intro id s c h ⟨hz, hsk, hdk, h0, hn⟩ ⟨hsrc, hdst⟩ hapart
    exact execMemCopy_hbm h hz hsk hdk h0 hn hsrc hdst hapart
  case slotStart =>
    intro p s ⟨hp, hrun, hnow, hout⟩
    exact execFixedSlotStart_starts hp hrun hnow hout
  case slotEnd =>
    intro p s ⟨hp, hin, hnow⟩
    exact when_pos (by simp [hp, hin, hnow]) ..
  case reset =>
    intro id s c h ⟨hz, hp, hlo, hhi⟩
    rw [exec_partReset, execPartReset, partCmd_ready h hz hp rfl (by simp [hlo, hhi])]
  case release =>
    intro id s c h ⟨hz, hp, hst⟩
    rw [exec_partRelease, execPartRelease, partCmd_ready h hz hp rfl (by simp [hst])]
  case freeze =>
    intro id s c h ⟨hz, hp, hst⟩
    rw [exec_partFreeze, execPartFreeze, partCmd_ready h hz hp rfl (by simp [hst])]
  case freezeEnd =>
    intro p s id ⟨hp, hst, hd⟩ hw
    exact execFreezeComplete_ends hp hst hd hw
  case resetEnd =>
    intro p s id ⟨hp, hst, hg, hb⟩ hoff hw
    exact execPartitionResetComplete_runs hp hst hg hb hoff hw
  case report =>
    intro p s ⟨hp, hg⟩
    exact execGenerationIncrementReport_last hp hg
  case save =>
    intro id s c h hw ⟨hz, hp, ha, hst⟩ hlen
    exact execPartSave_saves h hw hz hp ha hst hlen
  case restore =>
    intro id s c h hw ⟨hz, hp, ha, hst, hen⟩ ⟨hr, hn⟩ ⟨hmagic, hmaj, hmin⟩ ⟨hlen, hopen⟩
    exact execPartRestore_checks h hw hz hp ha hst hen hr hn hmagic hmaj hmin hlen hopen
  case pvEven =>
    intro n v s hn hv
    exact execPvEvenWrite_silent hn hv

end Sys2Proof.Machine
end

section
/-! The statements of the architecture chapter (01_architecture.md). -/

namespace Sys2Proof.Machine

/-! ## Reads of low words (R29, R44) -/

/-- The Almanac's low word, read by PF0 or a steward where CLK serves. -/
theorem execClkAlmLoRead_bar0 {s : State} {r : Req} (hr : ∀ n, r ≠ .vf n) (hread : s.canRead r .bar0 0x10100 = true)
    (hs : s.serves 0x10100 = true) : execClkAlmLoRead r s = .next (s.lowRead r 0x10100 s.clk.alm) := by
  cases r with
  | vf n => exact absurd rfl (hr n)
  | pf0 | stw w | jtag => simp [execClkAlmLoRead, hread, hs]

/-- Settles O60: the read is `lowRead`, whose latch is the requester's own (`latchKey_inj`). -/
theorem latchedReads : Obligations.LatchedReads := by
  have bus {q : Req} (h : q = .pf0 ∨ ∃ w, w < 4 ∧ q = .stw w) (t : State) :
      reqOk q = true ∧ (∀ n, q ≠ .vf n) ∧ t.peekAt q .bar0 0x10104 = t.peek q 0x10104 := by
    obtain rfl | ⟨w, hw, rfl⟩ := h
    · exact ⟨rfl, nofun, rfl⟩
    · exact ⟨decide_eq_true hw, nofun, rfl⟩
  refine ⟨fun r s hr hread hserves hwf => ?_, fun r off s d hread hd hpeek hwf => ?_⟩
  · obtain ⟨hok, hvf, hhi⟩ := bus hr (s.lowRead r 0x10100 s.clk.alm)
    have hserves' : (s.lowRead r 0x10100 s.clk.alm).serves 0x10100 = true := hserves
    refine ⟨_, execClkAlmLoRead_bar0 hvf hread hserves, lowRead_eq .., ?_, fun q hq hne => ?_⟩
    · rw [hhi, peek_almHi, if_pos hserves', lowRead_latch_self hwf]
    · obtain ⟨hqok, -, hqhi⟩ := bus hq (s.lowRead r 0x10100 s.clk.alm)
      rw [hqhi, (bus hq s).2.2, peek_almHi, peek_almHi, if_pos hserves', if_pos hserves,
        lowRead_latch_other s hqok hok (by decide) (by decide) fun e => hne (Prod.ext_iff.1 e).1]
  · have hrun : exec (.counterLowRead r off) s = .next (s.lowRead r off d) := by
      cases r with
      | vf n => exact execCounterLowRead_vf hread hd hpeek
      | pf0 | stw w | jtag => exact execCounterLowRead_bar0 nofun hread hd hpeek
    exact ⟨_, hrun, lowRead_eq .., lowRead_latch_self hwf .., fun q ofs hq hr ho hne =>
      lowRead_latch_other s hq hr ho (canRead_bar0_lt hread) hne d⟩

/-! ## Commands of an old generation (R17) -/

/-- Settles O53: each of these commands begins with `withCmd`, which discards a stale command before its own meaning is asked. -/
theorem staleCommands : Obligations.StaleCommands := by
  intro s id c hc hp hf hs hg i hi hop
  have stale (what : String) (k : Cmd → State) : withCmd s id i.1 what k = .next (s.done id 0x0703) :=
    withCmd_stale hc hop hp hf (hop ▸ hs) hg what k
  simp only [List.mem_cons, List.not_mem_nil, or_false] at hi
  obtain rfl | rfl | rfl | rfl | rfl | rfl | rfl | rfl | rfl | rfl | rfl := hi <;> exact stale ..

/-! ## Power-on reset -/

/-- GLB_TILE_MAP maps logical tile k to physical tile k after power-on reset (R309). -/
theorem reset_tileMap : ∀ k < 4,
    tri (look (Tri.of 0) State.reset.glb.tileMap k) = 0x03020100 + BitVec.ofNat 32 k * 0x04040404 := by decide

/-- After power-on reset every memory is empty, and so in its canonical form. -/
theorem reset_memWf : State.reset.memWf :=
  ⟨rfl, rfl, rfl, rfl, rfl, fun _ h => absurd h List.not_mem_nil, rfl⟩

/-- Settles O38: reset builds the state from its defaults; a table lists no entry, so each partition and link reads its default. -/
theorem resetLeaves : Obligations.ResetLeaves :=
  ⟨rfl, rfl, rfl, rfl, rfl, reset_tileMap, fun _ => rfl, rfl, rfl, fun _ => rfl, rfl, rfl, rfl, reset_memWf, rfl, rfl⟩

end Sys2Proof.Machine
end

section
/-! The G registers' guard: what one SCLK does to the lock, and what a discarded write leaves (R45 to R48, R52). -/

namespace Sys2Proof.Machine

/-! ## The lock (R45, R47) -/

@[simp] theorem lock_setLock (s : State) (l : Lock) : (s.setLock l).lock = l := tri_of l

/-- The armed lock stays armed. -/
theorem sclk_lock_armed {s : State} (h : s.lock.isOpen = false) : s.sclk.lock = s.lock := by simp [State.sclk, h]

/-- The open lock whose count has run out re-arms. -/
theorem sclk_lock_expired {s : State} (h : s.lock.isOpen = true) (h0 : s.lock.remain = 0) : s.sclk.lock = {} := by
  simp [State.sclk, h, h0]

/-- The open lock's count falls by one. -/
theorem sclk_lock_counts {s : State} (h : s.lock.isOpen = true) (h0 : s.lock.remain ≠ 0) :
    s.sclk.lock = { s.lock with remain := s.lock.remain - 1 } := by
  simp only [State.sclk, h, h0, Bool.not_true, Bool.false_eq_true, if_false, lock_setLock]

/-- The lock opened with a count of m holds m − n after n ≤ m SCLK. -/
theorem sclks_lock_open {s : State} {r : Req} {m : Nat} (hm : m < 2048)
    (h : s.lock = { isOpen := true, holder := r, remain := BitVec.ofNat 11 m }) :
    ∀ n ≤ m, (Nat.repeat State.sclk n s).lock = { isOpen := true, holder := r, remain := BitVec.ofNat 11 (m - n) } := by
  intro n
  induction n with
  | zero => exact fun _ => h
  | succ n ih =>
    intro hn
    have hl := ih (by omega)
    have hpos : BitVec.ofNat 11 (m - n) ≠ 0 := by bv_omega
    have hdec : BitVec.ofNat 11 (m - n) - 1 = BitVec.ofNat 11 (m - (n + 1)) := by bv_omega
    rw [Nat.repeat, sclk_lock_counts (by rw [hl]) (by rw [hl]; exact hpos), hl, hdec]

/-- The lock opened with a count of m is armed after more than m SCLK. -/
theorem sclks_lock_armed {s : State} {r : Req} {m : Nat} (hm : m < 2048)
    (h : s.lock = { isOpen := true, holder := r, remain := BitVec.ofNat 11 m }) :
    ∀ n, m < n → (Nat.repeat State.sclk n s).lock = {} := by
  intro n hn
  induction hn with
  | refl =>
    have hl := sclks_lock_open hm h m (Nat.le_refl m)
    exact sclk_lock_expired (by rw [hl]) (by rw [hl, Nat.sub_self]; rfl)
  | step _ ih => exact (sclk_lock_armed (by rw [ih])).trans ih

/-! ## Writes that are refused (R46, R52) -/

/-- A captured bus error changes the capture registers of GLB and of the partitions. -/
theorem busErr_eq (s : State) (r : Req) (sp : Space) (ofs : Word) (wr size : Bool) :
    s.busErr r sp ofs wr size =
      { s with parts := (s.busErr r sp ofs wr size).parts
               glb := { s.glb with buserr := (s.busErr r sp ofs wr size).glb.buserr
                                   buserrOfs := (s.busErr r sp ofs wr size).glb.buserrOfs } } := by
  cases r <;> rfl

/-- A refused G write changes the guard's log and the bus-error capture, the sources of events and the wake that event 75 may start. -/
theorem refuseG_eq (s : State) (r : Req) (ofs : Nat) :
    s.refuseG r ofs =
      { s with evc := (s.refuseG r ofs).evc, pwr := (s.refuseG r ofs).pwr, parts := (s.refuseG r ofs).parts
               glb := { s.glb with refused := satInc s.glb.refused, lastSrc := BitVec.ofNat 3 (reqCode r)
                                   buserr := (s.refuseG r ofs).glb.buserr, buserrOfs := (s.refuseG r ofs).glb.buserrOfs } } := by
  simp only [State.refuseG]
  rw [busErr_eq, State.raise_eq]

/-- A refused key write leaves the lock. -/
theorem badKey_lock (s : State) (r : Req) : (s.badKey r).lock = s.lock := by simp [State.badKey, State.lock]

/-- A byte counter that stops at 255. -/
theorem satInc_byte (x : Byte) : satInc x = if x = 255 then 255 else x + 1 := by
  have hmax : BitVec.allOnes 8 = 255 := rfl
  rw [satInc, hmax]
  split
  · assumption
  · rfl

/-! ## Rows that write a G register (R45, R46) -/

/-- From the holder of the open lock the write is performed, and the lock re-arms. -/
theorem busRow_gWrite_holds {s : State} {r : Req} {o : Nat} (h : s.reachable r o = true) (hl : s.holds r = true) (v : Word)
    (f : State → State) : busRow s r o v (s.gWrite r o f) = .next (f (s.setLock {})) := by
  rw [gWrite_holds hl, busRow_reachable h]

/-- From any other requester it is discarded and counted. -/
theorem busRow_gWrite_refused {s : State} {r : Req} {o : Nat} (h : s.reachable r o = true) (hl : s.holds r = false) (v : Word)
    (f : State → State) : busRow s r o v (s.gWrite r o f) = .next (s.refuseG r o) := by
  rw [gWrite_refused hl, busRow_reachable h]

/-! ## The key (R45) -/

/-- The key opens the armed lock for PF0 and the stewards. -/
theorem writeGuard_opens {s : State} {r : Req} (hr : r = .pf0 ∨ ∃ w, r = .stw w) (h : s.lock.isOpen = false) :
    s.writeGuard r 0x0000A5C3 = s.setLock { isOpen := true, holder := r, remain := 1024 } := by
  obtain rfl | ⟨w, rfl⟩ := hr <;> simp [State.writeGuard, h]

/-- A VF or JTAG is never given the lock. -/
theorem writeGuard_outsider {s : State} {r : Req} (hr : r = .jtag ∨ ∃ n, r = .vf n) (v : Word) : s.writeGuard r v = s.badKey r := by
  obtain rfl | ⟨n, rfl⟩ := hr <;> rfl

/-- Settles O39: the key sets the count to 1,024, and each SCLK is one of `sclk_lock_counts`, `sclk_lock_expired` and `sclk_lock_armed`. -/
theorem guardCountsDown : Obligations.GuardCountsDown := by
  refine ⟨fun r s hr hreach harmed => ?_, fun r v s hr => ?_⟩
  · have hlock : (s.writeGuard r 0x0000A5C3).lock = { isOpen := true, holder := r, remain := BitVec.ofNat 11 1024 } := by
      rw [writeGuard_opens hr harmed, lock_setLock]; rfl
    exact ⟨_, busRow_reachable hreach _ _, sclks_lock_open (by decide) hlock, sclks_lock_armed (by decide) hlock⟩
  · rw [writeGuard_outsider hr, badKey_lock]

/-- Settles O41: `refuseG_eq` names every field that a refused write changes. -/
theorem refusedWriteLeaves : Obligations.RefusedWriteLeaves := by
  intro r ofs s
  rw [refuseG_eq]
  exact ⟨satInc_byte _, rfl, rfl, rfl, rfl, rfl, rfl, rfl, rfl, rfl, rfl, rfl, rfl, rfl⟩

/-- Settles O40: each of these rows is a G write on the bus (`busRow_gWrite_refused`). -/
theorem guardRefuses : Obligations.GuardRefuses := by
  refine ⟨?clkDiv, ?pwrAvs, ?deviceReset, ?tileMap, ?arcDestroy, ?arcDp, ?fwAct, ?keyload, ?svcOut⟩
  case clkDiv => exact fun r v s ⟨h, hl⟩ => busRow_gWrite_refused h hl ..
  case pwrAvs => exact fun r v vout s ⟨h, hl⟩ => busRow_gWrite_refused h hl ..
  case deviceReset =>
    intro r env s ⟨h, hl, henv⟩
    rw [exec_deviceReset, execDeviceReset, henv]
    exact busRow_gWrite_refused h hl ..
  case tileMap =>
    intro r i v s ⟨hi, h, hl⟩
    rw [exec_glbTileMapWrite, execGlbTileMapWrite, if_neg (Nat.not_le.2 hi)]
    exact busRow_gWrite_refused h hl ..
  case arcDestroy => exact fun r v s ⟨h, hl⟩ => busRow_gWrite_refused h hl ..
  case arcDp =>
    intro r p v s ⟨hp, h, hl⟩
    rw [exec_arcDpWrite, execArcDpWrite, if_neg (by omega)]
    exact busRow_gWrite_refused h hl ..
  case fwAct => exact fun r s ⟨h, hl⟩ => busRow_gWrite_refused h hl ..
  case keyload => exact fun r s ⟨h, hl⟩ => busRow_gWrite_refused h hl ..
  case svcOut => exact fun r v s ⟨h, hl⟩ => busRow_gWrite_refused h hl ..

end Sys2Proof.Machine
end

section
/-! Register rows: reads that clear, the vote of T fields, timeouts and the end of a check (R28, R42, R49, R50, R53). -/

namespace Sys2Proof.Machine

/-! ## Shared answers -/

/-- A timeout whose time has come acts, unless the awaited event stands in the same TCLK (R28). -/
theorem timeout_pos {c : Bool} (h : c = true) (awaited : Instr → Bool) (m : String) (s t : State) :
    timeout c awaited m s t = .next (if s.comes awaited then s else t) := when_pos h ..

/-- A reachable register belongs to a block that serves (R511). -/
theorem reachable_serves {s : State} {r : Req} {ofs : Nat} (h : s.reachable r ofs = true) : s.serves ofs = true := by
  cases r <;> simp_all [State.reachable, State.serves]

/-- No VF reaches a register outside its page (R32). -/
theorem reachable_not_vf {s : State} {r : Req} {ofs : Nat} (h : s.reachable r ofs = true) (n : Nat) : r ≠ .vf n := by
  rintro rfl; simp [State.reachable] at h

/-- None of the requester's earlier writes is held where it reaches a register (R36). -/
theorem reachable_holder {s : State} {r : Req} {ofs : Nat} (h : s.reachable r ofs = true) : s.holder r = none := by
  cases r <;> simp_all [State.reachable]

/-! ## Reads that clear (R42, R43) -/

theorem execRcClearingRead_pf0 {s t : State} {off : Nat} {again x : Word} (hread : s.canRead .pf0 .bar0 off = true)
    (hx : s.peekAt .pf0 .bar0 off = some x) (ht : s.rcClear off again = some t) :
    execRcClearingRead .pf0 off again s = .next (t.emit (.readData .pf0 x)) := by
  simp [execRcClearingRead, hread, hx, ht]

theorem execRcClearingRead_vf {s t : State} {n off : Nat} {again x : Word} (hread : s.canRead (.vf n) .bar0 off = true)
    (hx : s.peekAt (.vf n) .bar0 off = some x) (ht : s.rcClearVf (n - 1) off again = some t) :
    execRcClearingRead (.vf n) off again s = .next (t.emit (.readData (.vf n) x)) := by
  simp [execRcClearingRead, hread, hx, ht]

/-- JTAG and the stewards look at a clearing register and clear nothing. -/
theorem execRcClearingRead_looks {s t : State} {r : Req} {off : Nat} {again x : Word} (hr : (r matches .jtag | .stw _) = true)
    (hread : s.canRead r .bar0 off = true) (hx : s.peekAt r .bar0 off = some x) (ht : s.rcClear off again = some t) :
    execRcClearingRead r off again s = .next (s.emit (.readData r x)) := by
  cases r with
  | pf0 | vf n => cases hr
  | jtag | stw w => simp [execRcClearingRead, hread, hx, ht]

/-! ## The vote of T fields (R49, R50) -/

section Vote

variable {α : Type} [DecidableEq α] {s : State} {t : Tri α} {ofs ctx action status : Nat} {repair : Tri α → State} {act : State → State}

/-- Copies that agree change nothing. -/
theorem voted_same (h : compare3 t = .same) : s.voted t ofs ctx action status repair act = s := by
  rw [State.voted, h]

/-- One copy that differs is rewritten and reported as corrected. -/
theorem voted_fixed {u : Tri α} (h : compare3 t = .fixed u) :
    s.voted t ofs ctx action status repair act =
      (repair u).record 0 ctx (ofs / 0x10000 % 256) 0x06 0 0 (BitVec.ofNat 32 (ofs % 0x10000)) false 0 := by
  rw [State.voted, h]

/-- Three copies that differ are reported as uncorrected, and the object is stopped. -/
theorem voted_lost (h : compare3 t = .lost) :
    s.voted t ofs ctx action status repair act =
      act (s.record 1 ctx (ofs / 0x10000 % 256) 0x06 0 action (BitVec.ofNat 32 (ofs % 0x10000)) false status) := by
  rw [State.voted, h]

variable {c : Bool} {m : String}

theorem when_voted_same (hc : c = true) (h : compare3 t = .same) :
    when_ c m (s.voted t ofs ctx action status repair act) = .next s := by rw [when_pos hc, voted_same h]

theorem when_voted_fixed {u : Tri α} (hc : c = true) (h : compare3 t = .fixed u) :
    when_ c m (s.voted t ofs ctx action status repair act) =
      .next ((repair u).record 0 ctx (ofs / 0x10000 % 256) 0x06 0 0 (BitVec.ofNat 32 (ofs % 0x10000)) false 0) := by
  rw [when_pos hc, voted_fixed h]

theorem when_voted_lost (hc : c = true) (h : compare3 t = .lost) :
    when_ c m (s.voted t ofs ctx action status repair act) =
      .next (act (s.record 1 ctx (ofs / 0x10000 % 256) 0x06 0 action (BitVec.ofNat 32 (ofs % 0x10000)) false status)) := by
  rw [when_pos hc, voted_lost h]

end Vote

/-- Settles O1, row by row; the rows of the vote are `State.voted` of the field's copies. -/
theorem guardCompletes : Obligations.GuardCompletes := by
  refine ⟨?guardWrite, ?guardExpiry, ?registerWrite, ?reserved, ?rcPf0, ?rcVf, ?rcLooks, ?counterLow, ?almLow, ?almLowVf,
    -- the lock
    fun | _, _, rfl, h => congrArg _ (voted_same h), fun | _, _, _, rfl, h => congrArg _ (voted_fixed h),
    fun | _, _, rfl, h => congrArg _ (voted_lost h),
    -- GLB_TILE_MAP
    fun | _, _, _, ⟨rfl, hr⟩, h => when_voted_same (decide_eq_true hr) h,
    fun | _, _, _, _, ⟨rfl, hr⟩, h => when_voted_fixed (decide_eq_true hr) h,
    fun | _, _, _, ⟨rfl, hr⟩, h => when_voted_lost (decide_eq_true hr) h,
    -- PDIV
    fun | _, _, rfl, h => congrArg _ (voted_same h), fun | _, _, _, rfl, h => congrArg _ (voted_fixed h),
    fun | _, _, rfl, h => congrArg _ (voted_lost h),
    -- a partition's EN and KSRC
    fun | _, _, _, ⟨rfl, hp⟩, h => when_voted_same (decide_eq_true hp) h,
    fun | _, _, _, _, ⟨rfl, hp⟩, h => when_voted_fixed (decide_eq_true hp) h,
    fun | _, _, _, ⟨rfl, hp⟩, h => when_voted_same (decide_eq_true hp) h,
    fun | _, _, _, _, ⟨rfl, hp⟩, h => when_voted_fixed (decide_eq_true hp) h,
    -- a partition's PAGE_MAX, QMAX and WC_MAX
    fun | _, _, _, ⟨rfl, hp⟩, h => when_voted_same (decide_eq_true hp) h,
    fun | _, _, _, _, ⟨rfl, hp⟩, h => when_voted_fixed (decide_eq_true hp) h,
    fun | _, _, _, ⟨rfl, hp⟩, h => when_voted_lost (decide_eq_true hp) h,
    fun | _, _, _, ⟨rfl, hp⟩, h => when_voted_same (decide_eq_true hp) h,
    fun | _, _, _, _, ⟨rfl, hp⟩, h => when_voted_fixed (decide_eq_true hp) h,
    fun | _, _, _, ⟨rfl, hp⟩, h => when_voted_lost (decide_eq_true hp) h,
    fun | _, _, _, ⟨rfl, hp⟩, h => when_voted_same (decide_eq_true hp) h,
    fun | _, _, _, _, ⟨rfl, hp⟩, h => when_voted_fixed (decide_eq_true hp) h,
    fun | _, _, _, ⟨rfl, hp⟩, h => when_voted_lost (decide_eq_true hp) h,
    -- a queue's CTX and SLOT
    fun | _, _, _, ⟨rfl, hq⟩, h => when_voted_same (decide_eq_true hq) h,
    fun | _, _, _, _, ⟨rfl, hq⟩, h => when_voted_fixed (decide_eq_true hq) h,
    fun | _, _, _, ⟨rfl, hq⟩, h => when_voted_lost (decide_eq_true hq) h,
    fun | _, _, _, ⟨rfl, hq⟩, h => when_voted_same (decide_eq_true hq) h,
    fun | _, _, _, _, ⟨rfl, hq⟩, h => when_voted_fixed (decide_eq_true hq) h,
    fun | _, _, _, ⟨rfl, hq⟩, h => when_voted_lost (decide_eq_true hq) h,
    -- a bank's OWNER
    fun | _, _, _, ⟨rfl, hb, ha⟩, h => when_voted_same (by simp [hb, ha]) h,
    fun | _, _, _, _, ⟨rfl, hb, ha⟩, h => when_voted_fixed (by simp [hb, ha]) h,
    fun | _, _, _, ⟨rfl, hb, ha⟩, h => when_voted_lost (by simp [hb, ha]) h,
    -- an array's geometry and positions
    fun | _, _, _, ⟨rfl, ha⟩, h => when_voted_same (decide_eq_true ha) h,
    fun | _, _, _, _, ⟨rfl, ha⟩, h => when_voted_fixed (decide_eq_true ha) h,
    fun | _, _, _, ⟨rfl, ha⟩, h => when_voted_lost (decide_eq_true ha) h,
    fun | _, _, _, _, ⟨rfl, ha, hr⟩, h => when_voted_same (by simp [ha, hr]) h,
    fun | _, _, _, _, _, ⟨rfl, ha, hr⟩, h => when_voted_fixed (by simp [ha, hr]) h,
    fun | _, _, _, _, ⟨rfl, ha, hr⟩, h => when_voted_lost (by simp [ha, hr]) h,
    ?check⟩
  case guardWrite => exact fun r v s h => busRow_reachable h ..
  case guardExpiry => exact fun s ⟨hopen, hzero⟩ => timeout_pos (by simp [hopen, hzero]) ..
  case registerWrite => exact fun r sp off v s h => when_pos h ..
  case reserved =>
    intro r sp off size wr s hread hres
    have hc : (s.canRead r sp off && (badSize sp off size wr || s.isReserved r sp off wr)) = true := by rw [hread, hres]; rfl
    exact when_pos hc ..
  case rcPf0 => exact fun | _, _, _, _, _, _, rfl, hread, hx, ht => execRcClearingRead_pf0 hread hx ht
  case rcVf => exact fun | _, _, _, _, _, _, _, rfl, hread, hx, ht => execRcClearingRead_vf hread hx ht
  case rcLooks => exact fun r off again s x t hr hread hx ht => execRcClearingRead_looks hr hread hx ht
  case counterLow =>
    intro r off s d hread hr hd hpeek
    exact execCounterLowRead_bar0 (by rintro n rfl; cases hr) hread hd hpeek
  case almLow => exact fun r s h hread => execClkAlmLoRead_bar0 (reachable_not_vf h) hread (reachable_serves h)
  case almLowVf =>
    rintro _ s n rfl hread
    simp [execClkAlmLoRead, hread]
  case check =>
    intro b s o l ⟨hq, hs⟩ ho
    rw [exec_consistencyCheckComplete, execConsistencyCheckComplete, if_neg (by simp [hs]), hq]
    cases o with
    | partGen p => cases ho
    | partRestore id => exact if_neg (by simpa using ho)
    | _ => rfl

end Sys2Proof.Machine
end

section
/-! The clocks, the Almanac, the core rail and the temperature (18_startup_clocks_power.md): what each row answers where its
conditions hold. -/

namespace Sys2Proof.Machine

/-! ## Steward timers (R518, R525) -/

/-- A timer whose DEADLINE has come fires, unless a write of its DEADLINE stands in the same TCLK: it stops where PERIOD is 0, and
goes on by PERIOD otherwise. -/
theorem execStewardTimerFire_due {s : State} {w i : Nat} {t : StwTimer} {f : StwTimer → StwTimer} (hw : w < 4) (hi : i < 8)
    (ht : look {} s.clk.timers (8 * w + i) = t) (hen : t.en = true) (hdue : t.deadline.toNat ≤ s.alm)
    (hf : (if t.period = 0 then { t with en := false } else { t with deadline := t.deadline + t.period.setWidth 64 }) = f t) :
    execStewardTimerFire w i s = .next (if s.comes (deadlineWrite w i) then s else (s.updTimer w i f).raisePriv w i) := by
  subst ht
  refine (timeout_pos ?_ ..).trans ?_
  · rw [decide_eq_true hw, decide_eq_true hi, hen, decide_eq_true hdue]; rfl
  · simp only [State.updTimer, upd, hf]

/-! ## The Almanac across a board (R465, R466) -/

/-- A device that is no time source and has a route to one sends its TIME messages and steers by the offset. -/
theorem execTimeExchange_follower {s : State} (hup : (List.range 4).any s.linkUp = true) (hsrc : s.isSource = false)
    (hroute : s.timeSources ≠ []) (ofs : Int) : execTimeExchange ofs s = .next (s.timeMessages.steer ofs) := by
  rw [execTimeExchange, when_pos hup, if_neg (by simp [hsrc, hroute])]

/-- The time source, and a device without a route to one, only sends its TIME messages. -/
theorem execTimeExchange_sends {s : State} (hup : (List.range 4).any s.linkUp = true)
    (h : s.isSource = true ∨ s.timeSources = []) (ofs : Int) : execTimeExchange ofs s = .next s.timeMessages := by
  rw [execTimeExchange, when_pos hup, if_pos (by simpa using h)]

/-- What an edge of TSYNC does to a device that follows it. -/
theorem execTsyncEdge_follower {s : State} (hsrc : s.isSource = false) (hstart : s.glb.start ≠ 0) (ofs : Int) :
    execTsyncEdge ofs s = .next (if !s.clk.counting then { s with clk := { s.clk with counting := true } }
      else if s.timeSources.isEmpty then s.steer ofs else s) := when_pos (by rw [hsrc, decide_eq_true hstart]; rfl) ..

/-- Settles O2, row by row. -/
theorem clockCompletes : Obligations.ClockCompletes := by
  refine ⟨?divWrite, ?trimWrite, ?deadlineWrite, ?avsWrite, ?avsTimeout, ?lockLoss, ?relock, ?fireOnce, ?firePeriodic,
    ?exchangeFollower, ?exchangeSends, ?pulse, ?edgeStarts, ?edgeSteers, ?edgeRouted, ?startTimeout, ?firstEdge, ?absent, ?sampleBelow,
    ?sampleTrip, ?stepUp, ?stepDown⟩
  case divWrite => exact fun r v s h hl => busRow_gWrite_holds h hl ..
  case trimWrite => exact fun r v s h => busRow_reachable h ..
  case deadlineWrite =>
    intro r w i hi v s ⟨hw, hi'⟩ h
    rw [exec_clkTmrDlWrite, execClkTmrDlWrite, if_neg (by simp [hw, hi']), busRow_reachable h]
  case avsWrite => exact fun r v vout s h hl => busRow_gWrite_holds h hl ..
  case avsTimeout => exact fun s hpend hdue => timeout_pos (by rw [hpend, hdue]; rfl) ..
  case lockLoss => exact fun s h => when_pos h ..
  case relock => exact fun s ⟨hlock, hstart⟩ => when_pos (by rw [hlock, decide_eq_true hstart]; rfl) ..
  case fireOnce =>
    intro w i s ⟨hw, hi⟩ hen hper hdue
    exact execStewardTimerFire_due hw hi rfl hen hdue (if_pos hper)
  case firePeriodic =>
    intro w i s ⟨hw, hi⟩ hen hper hdue
    exact execStewardTimerFire_due hw hi rfl hen hdue (if_neg hper)
  case exchangeFollower => exact fun ofs s hup ⟨hsrc, hroute⟩ => execTimeExchange_follower hup hsrc hroute ofs
  case exchangeSends => exact fun ofs s hup h => execTimeExchange_sends hup h ofs
  case pulse => exact fun s ⟨hsrc, hcount⟩ hdue => when_pos (by simp [hsrc, hcount, hdue]) ..
  case edgeStarts =>
    intro ofs s ⟨hsrc, hstart⟩ hcount
    rw [exec_tsyncEdge, execTsyncEdge_follower hsrc hstart, if_pos (by simp [hcount])]
  case edgeSteers =>
    intro ofs s ⟨hsrc, hstart⟩ ⟨hcount, hroute⟩
    rw [exec_tsyncEdge, execTsyncEdge_follower hsrc hstart, if_neg (by simp [hcount]), if_pos (by simp [hroute])]
  case edgeRouted =>
    intro ofs s ⟨hsrc, hstart⟩ ⟨hcount, hroute⟩
    rw [exec_tsyncEdge, execTsyncEdge_follower hsrc hstart, if_neg (by simp [hcount]), if_neg (by simp [hroute])]
  case startTimeout => exact fun s ⟨hsrc, hcount, hstart⟩ => timeout_pos (by rw [hsrc, hcount, decide_eq_true hstart]; rfl) ..
  case firstEdge => exact fun s ⟨hsrc, hcount, hstart⟩ => when_pos (by rw [hsrc, hcount, decide_eq_true hstart]; rfl) ..
  case absent => exact fun s hsrc => when_pos (by rw [hsrc]; rfl) ..
  case sampleBelow =>
    intro tj s h
    have hno : (decide (960 ≤ tj.toNat) && !s.pwr.thermTrip) = false := by
      rcases Bool.or_eq_true_iff.1 h with hcool | htrip
      · rw [decide_eq_false (Nat.not_le.2 (of_decide_eq_true hcool)), Bool.false_and]
      · rw [htrip, Bool.not_true, Bool.and_false]
    simp only [exec_temperatureSample, execTemperatureSample, hno, Bool.false_eq_true, if_false]
  case sampleTrip =>
    intro tj s ⟨hhot, htrip⟩
    simp only [exec_temperatureSample, execTemperatureSample, decide_eq_true hhot, htrip, Bool.not_false, Bool.and_self, if_true]
  case stepUp =>
    rintro _ s ⟨rfl, hzone⟩ hdue
    exact when_pos (by simp [hzone, hdue]) ..
  case stepDown =>
    rintro _ s ⟨rfl, hzone⟩ hdue hlow
    rw [exec_throttleStep, execThrottleStep, if_neg Bool.false_ne_true, when_pos (by simp [hzone, hdue, hlow]),
      BitVec.ofNat_toNat, BitVec.setWidth_eq]

end Sys2Proof.Machine
end

section
/-! Faults and service (16_faults_and_service.md): what each row answers where its conditions hold. -/

namespace Sys2Proof.Machine

/-! ## Sparing and swaps (R474, R477) -/

/-- The sparing at the head of the list is placed. -/
theorem execSparePlaced_head {s : State} {l p : Nat} {k : List (Nat × Nat)} (h : s.vigil.sparing = (l, p) :: k) :
    execSparePlaced l s = .next (let s1 := ((s.clearTile p).setPhys l p).setSpare p false
      { s1 with vigil := { s1.vigil with sparing := k, eqxLeft := put 0 s1.vigil.eqxLeft p 64 } }) := by
  simp only [execSparePlaced, h, if_true]

/-- A swap ends when the old tile has drained; onto 0x1F it leaves the logical tile without one. -/
theorem execSwapComplete_drained {s : State} {l p : Nat} {out : Bool} (h : s.vigil.swap = some (l, p, out))
    (hd : (s.flightsOn (s.physOf l)).isEmpty = true) :
    execSwapComplete s = .next (
      let s1 := if p = 0x1F then s.setPhys l p else (s.setPhys l p).setSpare p false
      let s3 := ((s1.updTile (s.physOf l) fun x => { x with drain := false }).returnBorrowed l).setSpare (s.physOf l) (!out)
      { s3 with vigil := { s3.vigil with swap := none, eqxLeft := put 0 s3.vigil.eqxLeft (s.physOf l) 0 } }) := by
  simp only [execSwapComplete, h, hd, if_true]

/-! ## Stewards (R478, R484) -/

/-- A steward that misses its heartbeat leaves service while another is left. -/
theorem execHeartbeatMiss_moves {s : State} {n : Nat} (hn : n < 4) (hs : (s.stw n).inService = true) (hl : s.stewards ≠ [n]) :
    execHeartbeatMiss true n s = .next ((s.record 1 ownerCtx 0xF1 8 n 4 0 false 0).moveSteward n) := by
  simp [execHeartbeatMiss, hn, hs, hl]

/-- The last steward's missed heartbeat requires a reset. -/
theorem execHeartbeatMiss_last {s : State} {n : Nat} (hn : n < 4) (hs : (s.stw n).inService = true) (hl : s.stewards = [n]) :
    execHeartbeatMiss true n s = .next (s.record 1 ownerCtx 0xF1 8 n 0x20 0 false 0).resetRequired := by
  simp [execHeartbeatMiss, hn, hs, hl]

/-! ## Online service (R481, R482) -/

/-- A row of VIGIL_SVC, from the holder of the open lock, writes its word with the row's ACTION in it. -/
theorem svcRow_holds {s : State} {r : Req} (h : s.reachable r 0x40100 = true) (hl : s.holds r = true) (action : Nat) (v : Word) :
    svcRow r action v s = .next ((s.setLock {}).writeSvc ((v &&& ~~~0x000C0000) ||| BitVec.ofNat 32 (action * 2 ^ 18))) :=
  busRow_gWrite_holds h hl ..

/-- A test that passes ends with RESULT 1. -/
theorem execServiceActionComplete_passed {s : State} (hb : s.vigil.svcBusy = true) (hr : s.svcReady = true)
    (ha : bits s.vigil.svcCtl.toNat 19 18 = 1) (ms : BitVec 16) :
    execServiceActionComplete true ms s = .next ({ s with vigil := { s.vigil with svcMs := ms } }.svcEnd 1 0) := by
  rw [execServiceActionComplete, if_pos (by rw [hb, hr]; rfl)]
  simp only [ha, if_true]

/-- OUT of a unit that is no bank ends with a service record and RESULT 1. -/
theorem execServiceActionComplete_out {s : State} (hb : s.vigil.svcBusy = true) (hr : s.svcReady = true)
    (ha : bits s.vigil.svcCtl.toNat 19 18 = 0) (hk : bits s.vigil.svcCtl.toNat 23 20 ≠ 1) (pass : Bool) (ms : BitVec 16) :
    execServiceActionComplete pass ms s = .next ((({ s with vigil := { s.vigil with svcMs := ms } }).record 3 ownerCtx
      (svcBlock (bits s.vigil.svcCtl.toNat 23 20) s.vigil.svcUnit) 0x10 s.vigil.svcUnit 4 0 false 0).svcEnd 1 0) := by
  rw [execServiceActionComplete, if_pos (by rw [hb, hr]; rfl)]
  simp only [ha, hk, Nat.zero_ne_one, if_false, if_true]

/-! ## Checkers (R485) -/

section

variable {s : State} {blk : Byte} {n : Nat} (hb : s.vigil.svcBusy = false) (hw : s.vigil.swap.isSome = false)
  (hs : s.vigil.sparing.isEmpty = true)
include hb hw hs

/-- Outside service traffic a checker that passes its test changes nothing. -/
theorem execCheckerSelfTest_passes : execCheckerSelfTest blk n true s = .next s := by
  simp [execCheckerSelfTest, hb, hw, hs]

/-- The unit of a checker that fails leaves service with a latent record, where it had a spare. -/
theorem execCheckerSelfTest_spared {t : State} (ho : s.checkerOut blk.toNat n = some (t, true)) :
    execCheckerSelfTest blk n false s = .next (t.record 2 ownerCtx blk.toNat 0x0E n 4 0 false 0) := by
  simp [execCheckerSelfTest, hb, hw, hs, ho]

/-- A failing checker writes the latent record alone, where no unit leaves service. -/
theorem execCheckerSelfTest_stays (ho : s.checkerOut blk.toNat n = none) :
    execCheckerSelfTest blk n false s = .next (s.record 2 ownerCtx blk.toNat 0x0E n 0 0 false 0) := by
  simp [execCheckerSelfTest, hb, hw, hs, ho]

end

/-- Settles O5, row by row. -/
theorem vigilCompletes : Obligations.VigilCompletes := by
  refine ⟨?tileFault, ?heartbeatTile, ?heartbeatMoves, ?heartbeatLast, ?sparePlaced, ?tileMap, ?swap, ?swapOut, ?svcOut, ?svcTest,
    ?svcIn, ?testPassed, ?outEnds, ?logC, ?uack, ?checkerPasses, ?checkerSpared, ?checkerStays, ?resetRequired⟩
  case tileFault =>
    intro phys check s ⟨hp, hc⟩
    have hcheck : tileChecks.contains check.toNat = true := by
      obtain rfl | rfl | rfl | rfl | rfl := hc <;> rfl
    exact when_pos (by rw [decide_eq_true hp, hcheck]; rfl) ..
  case heartbeatTile =>
    rintro _ n s ⟨rfl, hn⟩
    exact when_pos (decide_eq_true hn) ..
  case heartbeatMoves => exact fun | _, _, _, ⟨rfl, hn, hs, hl⟩ => execHeartbeatMiss_moves hn hs hl
  case heartbeatLast => exact fun | _, _, _, ⟨rfl, hn, hs, hl⟩ => execHeartbeatMiss_last hn hs hl
  case sparePlaced => exact fun l s p k h => execSparePlaced_head h
  case tileMap =>
    intro r i v s ⟨hi, h, hl⟩
    rw [exec_glbTileMapWrite, execGlbTileMapWrite, if_neg (Nat.not_le.2 hi)]
    exact busRow_gWrite_holds h hl ..
  case swap =>
    intro s l p out h hp hd
    rw [exec_swapComplete, execSwapComplete_drained h hd, if_neg hp]
  case swapOut =>
    intro s l out h hd
    rw [exec_swapComplete, execSwapComplete_drained h hd, if_pos rfl]
  case svcOut =>
    intro r v s ⟨h, hl⟩
    rw [exec_vigilSvcOut, execVigilSvcOut, svcRow_holds h hl, Nat.zero_mul, BitVec.ofNat_eq_ofNat, BitVec.or_zero]
  case svcTest => exact fun r v s ⟨h, hl⟩ => svcRow_holds h hl ..
  case svcIn => exact fun r v s ⟨h, hl⟩ => svcRow_holds h hl ..
  case testPassed => exact fun | _, ms, _, ⟨hb, hr⟩, ⟨ha, rfl⟩ => execServiceActionComplete_passed hb hr ha ms
  case outEnds => exact fun pass ms s ⟨hb, hr⟩ ⟨ha, hk⟩ => execServiceActionComplete_out hb hr ha hk pass ms
  case logC => exact fun r v s h => busRow_reachable h ..
  case uack => exact fun r v s h => busRow_reachable h ..
  case checkerPasses => exact fun | _, _, _, _, ⟨hb, hw, hs⟩, rfl => execCheckerSelfTest_passes hb hw hs
  case checkerSpared => exact fun | _, _, _, _, _, ⟨hb, hw, hs⟩, ⟨rfl, ho⟩ => execCheckerSelfTest_spared hb hw hs ho
  case checkerStays => exact fun | _, _, _, _, ⟨hb, hw, hs⟩, ⟨rfl, ho⟩ => execCheckerSelfTest_stays hb hw hs ho
  case resetRequired =>
    intro blk check s hblk
    have hin : [0x01, 0x34, 0xF0, 0x05].contains blk.toNat = true := by
      obtain rfl | rfl | rfl | rfl := hblk <;> rfl
    exact ⟨_, when_pos hin .., rfl⟩

end Sys2Proof.Machine
end

section
/-! TRUST's registers and mailbox (17_trust.md): what each row answers where its conditions hold. -/

namespace Sys2Proof.Machine

/-! ## The mailbox (R501, R502) -/

/-- An access to the mailbox by either side: the side band's restarts its timer. -/
theorem mbxRow_serves {s : State} {side : Bool} {r : Req} {ofs : Nat}
    (h : if side then 2 ≤ s.glb.start else s.reachable r ofs = true) (v : Word) (t : State) :
    mbxRow s side r ofs v t = .next (if side then t.setTrust fun x => { x with mbxAt := s.clk.alm } else t) := by
  cases side with
  | true => exact if_pos h
  | false => exact busRow_reachable h ..

/-- A read of MBX_DATA by either side sends its word. -/
theorem execMbxDataRead_serves {s : State} {side : Bool} {r : Req} (h : if side then 2 ≤ s.glb.start else s.reachable r 0x50108 = true) :
    execMbxDataRead side r s = .next (if side
      then ((s.readMbxData side r).2.emit (.readData r (s.readMbxData side r).1)).setTrust fun x => { x with mbxAt := s.clk.alm }
      else (s.readMbxData side r).2.emit (.readData r (s.readMbxData side r).1)) := by
  have hfree : (!side && (s.holder r).isSome) = false := by
    cases side with
    | true => rfl
    | false => rw [reachable_holder h]; rfl
  rw [execMbxDataRead, hfree]
  exact mbxRow_serves h ..

/-- The command that is BUSY runs on the request's bytes, and leaves its response. -/
theorem mbxRun_busy {s : State} {cmd : Byte} (hb : s.trust.mbx = 2) (hc : s.trust.mbxCmd = cmd) {k : List Byte → Nat × List Byte × State}
    {status : Nat} {bs : List Byte} {t : State} (hk : k (sub (wordsToBytes s.trust.mbxIn) 0 s.trust.mbxLen.toNat) = (status, bs, t)) :
    mbxRun s cmd.toNat k = .next (t.setTrust fun x => x.reply status bs) := by
  simp only [mbxRun, hb, hc, hk, decide_true, Bool.and_self, if_true]

/-- A command that succeeds with bytes to read leaves its response to be read (STATE 3). -/
theorem reply_response {t : Trust} {bs : List Byte} (h : bs ≠ []) : (t.reply 0 bs).mbx = 3 := by
  simp [Trust.reply, h]

/-- A request of the length that MBX_LEN gives. -/
theorem request_length {s : State} {n : BitVec 17} {q : List Byte} (hl : s.trust.mbxLen = n)
    (hq : q = sub (wordsToBytes s.trust.mbxIn) 0 n.toNat) :
    sub (wordsToBytes s.trust.mbxIn) 0 s.trust.mbxLen.toNat = q ∧ q.length = n.toNat := by
  subst hq; rw [hl]; exact ⟨rfl, sub_length ..⟩

/-! ## The mailbox's commands (R503, R504) -/

/-- GET_CERT with good fields reads the chain, and answers 3 beyond its end. -/
theorem execGetCert_reads {s : State} {q : List Byte} (hb : s.trust.mbx = 2) (hc : s.trust.mbxCmd = 2) (hl : s.trust.mbxLen = 12)
    (hq : q = sub (wordsToBytes s.trust.mbxIn) 0 12) (hslot : fieldLE q 0 1 ≤ 1) (hzero : fieldLE q 1 3 = 0) (hlen : fieldLE q 8 4 ≤ 65536) :
    execGetCert s = .next (if (Config.certChain (fieldLE q 0 1 = 1)).length < fieldLE q 4 4 + fieldLE q 8 4
      then s.setTrust fun t => t.reply 3 []
      else s.setTrust fun t => t.reply 0 (sub (Config.certChain (fieldLE q 0 1 = 1)) (fieldLE q 4 4) (fieldLE q 8 4))) := by
  obtain ⟨hreq, hn⟩ := request_length hl hq
  have hn : q.length = 12 := hn
  split
  case isTrue hend => exact mbxRun_busy hb hc (by simp [hreq, hn, hend])
  case isFalse hend => exact mbxRun_busy hb hc (by simp [hreq, hn, hend, hzero, Nat.not_lt.2 hslot, Nat.not_lt.2 hlen])

/-- FW_STAGE of a sector inside the slot, where the flash takes it, programs the sector and ends with status 0. -/
theorem execFwStage_programs {s : State} {q : List Byte} (hb : s.trust.mbx = 2) (hc : s.trust.mbxCmd = 4)
    (hlo : 9 ≤ s.trust.mbxLen.toNat) (hhi : s.trust.mbxLen.toNat ≤ 65544)
    (hq : q = sub (wordsToBytes s.trust.mbxIn) 0 s.trust.mbxLen.toNat) (hal : fieldLE q 0 4 % 65536 = 0)
    (hin : fieldLE q 0 4 + 65536 ≤ slotBytes) (hzero : fieldLE q 4 4 = 0) :
    execFwStage true s = .next ((s.setTrust fun t =>
      { t with flash := memWrite t.flash (slotBase t.stagingSlot + fieldLE q 0 4)
                 (q.drop 8 ++ List.replicate (65536 - (q.length - 8)) 0xFF), verified := false }).setTrust fun t => t.reply 0 []) := by
  obtain ⟨hreq, hn⟩ := request_length rfl hq
  refine mbxRun_busy hb hc ?_
  rw [hreq]
  simp only [hn, Nat.not_lt.2 hlo, Nat.not_lt.2 hhi, hal, Nat.not_lt.2 hin, hzero]
  rfl

/-- FW_VERIFY notes whether the staged image holds, and leaves a response. -/
theorem execFwVerify_verifies {s : State} (hb : s.trust.mbx = 2) (hc : s.trust.mbxCmd = 5) (hl : s.trust.mbxLen = 0) :
    ∃ t, execFwVerify s = .next t ∧ t.trust.verified = decide (s.trust.imageCode s.trust.stagingSlot = 0) ∧ t.trust.mbx = 3 := by
  have hn : s.trust.mbxLen.toNat = 0 := by rw [hl]; rfl
  refine ⟨_, mbxRun_busy hb hc (if_neg (by rw [sub_length, hn]; simp)), rfl, ?_⟩
  exact reply_response (List.ne_nil_of_length_pos (by simp))

/-- Settles O6, row by row. -/
theorem trustCompletes : Obligations.TrustCompletes := by
  refine ⟨?keyload, ?fwGo, ?fwCommit, ?mbxCmd, ?mbxWrite, ?mbxRead, ?sideband, ?getInfo, ?getCert, ?attReport, ?fwStage, ?fwVerify⟩
  case keyload => exact fun r s ⟨h, hl⟩ => busRow_gWrite_holds h hl ..
  case fwGo => exact fun r s ⟨h, hl⟩ => busRow_gWrite_holds h hl ..
  case fwCommit => exact fun r s ⟨h, hl⟩ => busRow_gWrite_holds h hl ..
  case mbxCmd => exact fun side r v s h => mbxRow_serves h ..
  case mbxWrite => exact fun side r v s h => mbxRow_serves h ..
  case mbxRead =>
    intro side r s h
    refine execMbxDataRead_serves ?_
    cases side with
    | true => exact h
    | false => exact h.1
  case sideband =>
    intro s ⟨hm, hside⟩ hdue
    exact timeout_pos (by rw [decide_eq_true hm, hside, hdue]; rfl) ..
  case getInfo =>
    intro s ⟨hb, hc, hl⟩
    have hn : s.trust.mbxLen.toNat = 0 := by rw [hl]; rfl
    rw [exec_getInfo]
    exact mbxRun_busy hb hc (by simp only [sub_length, hn, ne_eq, not_true_eq_false, if_false])
  case getCert => exact fun s q ⟨hb, hc, hl⟩ hq ⟨hslot, hzero, hlen⟩ => execGetCert_reads hb hc hl hq hslot hzero hlen
  case attReport =>
    intro s q ⟨hb, hc, hl⟩ hq
    obtain ⟨hreq, hn⟩ := request_length hl hq
    have hn : q.length = 32 := hn
    rw [exec_attReport]
    exact mbxRun_busy hb hc (by simp only [hreq, hn, ne_eq, not_true_eq_false, if_false])
  case fwStage =>
    rintro _ s q ⟨hb, hc, hlo, hhi⟩ hq ⟨hal, hin, hzero⟩ rfl
    exact execFwStage_programs hb hc hlo hhi hq hal hin hzero
  case fwVerify => exact fun s ⟨hb, hc, hl⟩ => execFwVerify_verifies hb hc hl

end Sys2Proof.Machine
end

section
/-! Resets and the host's functions (11_host_queues.md, 18_startup_clocks_power.md): what each row answers where its conditions
hold. -/

namespace Sys2Proof.Machine

/-! ## Resets of the device (R506, R508, R510) -/

/-- Power-on reset with no stack that fails, or with one that the part has, runs the sequence. -/
theorem execPowerOnReset_runs {s : State} {env : BootEnv} (h : env.failStack = none ∨ ∃ n, env.failStack = some n ∧ n < s.stacks) :
    execPowerOnReset env s = .next (execPowerOnReset.go env s) := by
  obtain h | ⟨n, h, hn⟩ := h
  · simp only [execPowerOnReset, h]
  · simp only [execPowerOnReset, h, hn, if_true]

/-- A device reset with no stack that fails, or with one that the part has, is a G write of PWR_RESET. -/
theorem execDeviceReset_gWrite {s : State} {env : BootEnv} (h : env.failStack = none ∨ ∃ n, env.failStack = some n ∧ n < s.stacks)
    (r : Req) :
    execDeviceReset r env s = busRow s r 0x60010 0x80000000 (s.gWrite r 0x60010 fun x => x.writeReset 0x80000000 env) := by
  obtain h | ⟨n, h, hn⟩ := h
  · simp only [execDeviceReset, h]
  · simp only [execDeviceReset, h, hn, if_true]

/-! ## Virtual functions and power states (R341, R365) -/

/-- VF Enable in READY takes NumVFs and grants the vectors. -/
theorem execVfEnableSet_ready {s : State} {n : Nat} (hlo : 1 ≤ n) (hhi : n ≤ 4096) (hup : s.hif.portUp = true)
    (hoff : s.hif.vfEnable = false) (hready : s.glb.start = 5) :
    execVfEnableSet n s =
      .next { s with hif := { s.hif with numVfs := n, vfEnable := true, granted := grants s.hif.vfCount n n 1 0 } } := by
  rw [execVfEnableSet, if_neg (by simp [hlo, hhi, hup, hoff, hready]), if_neg (by simp [hready])]

/-- Settles O8, row by row. -/
theorem resetCompletes : Obligations.ResetCompletes := by
  refine ⟨?powerOn, ?device, ?test, ?perst, ?pf0Flr, ?vfEnableCleared, ?perstRelease, ?vfEnableSet, ?vfReset, ?d3hot, ?d0, ?bmeClear,
    ?bmeSet⟩
  case powerOn => exact fun env s h => execPowerOnReset_runs h
  case device =>
    intro r env s henv ⟨h, hl⟩
    rw [exec_deviceReset, execDeviceReset_gWrite henv, busRow_gWrite_holds h hl]
  case test => exact fun s => rfl
  case perst => exact fun | _, _, rfl => ⟨_, rfl, rfl, rfl⟩
  case pf0Flr => exact fun | _, _, ⟨rfl, hup⟩ => when_pos hup ..
  case vfEnableCleared =>
    rintro _ s ⟨rfl, hup, hon⟩
    exact when_pos (by rw [hup, hon]; rfl) ..
  case perstRelease => exact fun s ⟨hup, hstart⟩ => when_pos (by rw [hup, decide_eq_true hstart]; rfl) ..
  case vfEnableSet => exact fun n s ⟨hlo, hhi, hup, hoff⟩ hready => execVfEnableSet_ready hlo hhi hup hoff hready
  case vfReset => exact fun n s h => when_pos h ..
  case d3hot => exact fun fn s ⟨hex, hd⟩ => when_pos (by rw [hex, hd]; rfl) ..
  case d0 => exact fun fn s ⟨hex, hd⟩ => if_pos (by rw [hex, hd]; rfl)
  case bmeClear => exact fun fn s ⟨hex, hb⟩ => when_pos (by rw [hex, hb]; rfl) ..
  case bmeSet => exact fun fn s ⟨hex, hb⟩ => when_pos (by rw [hex, hb]; rfl) ..

end Sys2Proof.Machine
end

section
/-! Plans and their runs (03_valyn_plans.md): what the plan commands and a run's timeout answer where their conditions hold. -/

namespace Sys2Proof.Machine

/-! ## LOAD_PLAN and UNLOAD_PLAN (R74, R75) -/

/-- Every handle is on the way round from the one that the search starts at. -/
theorem mem_handles {h : Nat} (hlt : h < 1024) (start : Nat) : h ∈ (List.range 1024).map fun i => (start + i) % 1024 :=
  List.mem_map.2 ⟨(h + 1024 - start % 1024) % 1024, List.mem_range.2 (by omega), by omega⟩

/-- A context with a free handle is given a free one. -/
theorem freeHandle_of_free {s : State} {ctx h : Nat} (hlt : h < 1024) (hfree : s.plan? ctx h = none) :
    ∃ k, s.freeHandle ctx = some k ∧ k < 1024 ∧ s.plan? ctx k = none := by
  have hsome : ((List.range 1024).all fun k => (s.plan? ctx k).isSome) = false :=
    List.all_eq_false.2 ⟨h, List.mem_range.2 hlt, by simp [hfree]⟩
  have hfound : (((List.range 1024).map fun i => (Config.handleStart s.freeCtr + i) % 1024).find?
      fun k => (s.plan? ctx k).isNone).isSome = true :=
    List.find?_isSome.2 ⟨h, mem_handles hlt _, by rw [hfree]; rfl⟩
  obtain ⟨k, hk⟩ := Option.isSome_iff_exists.1 hfound
  obtain ⟨i, -, rfl⟩ := List.mem_map.1 (List.mem_of_find?_eq_some hk)
  refine ⟨_, ?_, Nat.mod_lt _ (by decide), Option.isNone_iff_eq_none.1 (List.find?_some hk :)⟩
  rw [State.freeHandle, hsome]
  exact hk

/-- LOAD_PLAN of an image that passes its checks, into a free handle. -/
theorem execLoadPlan_loads {s : State} {id k : Nat} {c : Cmd} (h : s.ready id 0x01 c = true) (hw : s.hostFree c = true)
    (hz : c.zeros [(20, 12)] = true) (ha : c.f 8 8 % 64 = 0) (hk : s.freeHandle c.ctx.toNat = some k)
    (hp : s.pagesRefused c.ctx.toNat (planPages (c.f 16 4)) = false) (hr : s.hostFails c.fn (c.f 8 8) (c.f 16 4) = false)
    (himg : loadFault (s.hostRead c.fn (c.f 8 8) (c.f 16 4)) (c.f 16 4) = none) :
    execLoadPlan id s = .next
      (({ s.setPlan c.ctx.toNat k (some (loadedPlan (s.hostRead c.fn (c.f 8 8) (c.f 16 4)))) with freeCtr := s.freeCtr + 1 }).complete id 0
        (BitVec.ofNat 32 k) 0) := by
  simp only [execLoadPlan, hostWaits_ready h hw, withCmd_ready h, hz, ha, hk, hp, hr, himg]
  rfl

/-- UNLOAD_PLAN of a plan that no run uses frees its handle. -/
theorem execUnloadPlan_frees {s : State} {id : Nat} {c : Cmd} {pl : Plan} (h : s.ready id 0x02 c = true)
    (hz : c.zeros [(12, 20)] = true) (hpl : s.plan? c.ctx.toNat (c.f 8 4) = some pl)
    (hu : s.runs.any (fun r => r.ctx = c.ctx && r.handle = c.f 8 4) = false) :
    execUnloadPlan id s = .next ((s.setPlan c.ctx.toNat (c.f 8 4) none).done id 0) := by
  simp only [execUnloadPlan, withCmd_ready h, hz, hpl, hu]
  rfl

/-! ## RUN_PLAN (R72, R77) -/

/-- RUN_PLAN whose parameters and binding pass starts its run on the pages that the parameters give. -/
theorem execRunPlan_starts {s : State} {id : Nat} {c : Cmd} {pl : Plan} {vals : List ParamVal} {rows : List (Option Nat)} {r : Run}
    (h : s.ready id 0x03 c = true) (hw : s.hostFree c = true) (hblock : c.f 14 2 ≤ 1) (hz : c.zeros [(20, 4)] = true)
    (hargs : if c.f 14 2 = 0 then c.f 12 2 ≤ 62 else c.f 24 8 % 16 = 0) (hpl : s.plan? c.ctx.toNat (c.f 8 4) = some pl)
    (hvals : s.paramsOf c = some vals) (hr : r = newRun c s.nextRun (pl.fill vals)) (hrows : s.paramCheck r pl = .ok rows)
    (hbind : s.bindReason { r with pages := runPages pl rows } pl = 0) :
    execRunPlan id s = .next (s.startRun c { r with pages := runPages pl rows } pl rows) := by
  subst hr
  have hflag : c.f 14 2 / 2 = 0 := by omega
  have hok : ((!bit (c.f 14 2) 0 && decide (62 < c.f 12 2)) || (bit (c.f 14 2) 0 && decide (c.f 24 8 % 16 ≠ 0))) = false := by
    obtain h0 | h1 : c.f 14 2 = 0 ∨ c.f 14 2 = 1 := by omega
    · simp_all [bit]
    · simp_all [bit]
  simp only [execRunPlan, hostWaits_ready h hw, withCmd_ready h, hflag, hz, hok, hpl, hvals, hrows, hbind]
  rfl

/-! ## The ends of a run from outside (R28, R94, R370) -/

/-- CANCEL_PLAN ends the run of the RUN_PLAN that it names, unless the run's last report falls in the same SCLK. -/
theorem execCancelPlan_ends {s : State} {id : Nat} {c x : Cmd} {r : Run} (h : s.ready id 0x04 c = true)
    (hz : c.zeros [(12, 20)] = true)
    (hx : s.hif.cmds.find? (fun y => y.op = 0x03 && y.ctx = c.ctx && s.sqName y = some (c.f 8 2) && y.f 4 2 = c.f 10 2) = some x)
    (hr : s.runs.find? (fun y => y.cmd = x.id) = some r) :
    execCancelPlan id s = .next (if s.endsNow r.id then s.done id 0x0204 else (s.failRun r.id 0x040E 0).done id 0) := by
  simp only [execCancelPlan, withCmd_ready h, hz, hx, hr]
  rfl

/-- The timeout of a RUN_PLAN ends its run, unless the run's own end falls in the same TCLK. -/
theorem execRunTimeout_ends {s : State} {id : Nat} {c : Cmd} {r : Run} (hc : s.cmd? id = some c) (hop : c.op = 0x03)
    (hset : c.f 16 4 ≠ 0) (hdue : s.elapsed c.fetchedAt (1000 * c.f 16 4) = true)
    (hr : s.runs.find? (fun y => y.cmd = id) = some r) :
    execRunTimeout id s = .next (if s.endsNow r.id then s else s.failRun r.id 0x0800 0) := by
  simp [execRunTimeout, hc, hop, hset, hdue, hr]

/-- Settles O12, row by row. -/
theorem planCompletes : Obligations.PlanCompletes := by
  refine ⟨?load, ?unload, ?run, ?cancel, ?timeout⟩
  case load =>
    rintro id s c _ _ h0 _ h hw rfl rfl rfl ⟨hz, ha, hlt, hfree⟩ ⟨hp, hr⟩ himg
    obtain ⟨k, hk, hklt, hkfree⟩ := freeHandle_of_free hlt hfree
    exact ⟨k, hklt, hkfree, execLoadPlan_loads h hw hz ha hk hp hr himg⟩
  case unload => exact fun id s c pl h ⟨hz, hpl⟩ hu => execUnloadPlan_frees h hz hpl hu
  case run =>
    intro id s c pl vals rows r h hw ⟨hblock, hz, hargs⟩ hpl hvals hr hrows hbind
    cases hcheck : s.paramCheck r pl with
    | error e => rw [hcheck] at hrows; cases hrows
    | ok rows' =>
      rw [hcheck] at hrows; cases hrows
      exact execRunPlan_starts h hw hblock hz hargs hpl hvals hr hcheck hbind
  case cancel => exact fun id s c x r h hz hx hr => execCancelPlan_ends h hz hx hr
  case timeout => exact fun id s c r hc ⟨hop, hset, hdue⟩ hr => execRunTimeout_ends hc hop hset hdue hr

end Sys2Proof.Machine
end

section
/-! Morsels, materialisations and STOREs (03_valyn_plans.md): what each row answers where its conditions hold. -/

namespace Sys2Proof.Machine

/-- A change of state that mirrored arrays and journals hold back no write of happens. -/
theorem unlessHeld_free {s t : State} (h : s.writesHeld t = false) : s.unlessHeld t = .next t := by
  simp only [State.unlessHeld, h]
  rfl

/-! ## Claims (R82, R84, R85, R100) -/

/-- A tile that serves a logical tile and may claim takes the next morsel of the pipeline that the rules choose. -/
theorem execMorselClaim_claims {s : State} {t l q i : Nat} {r : Run} {pl : Plan} (hl : s.logOf t = some l) (ht : t < 18)
    (hno : (s.tile t).noclaim = false) (hdrain : (s.tile t).drain = false) (hgated : (s.tile t).gated = false)
    (hlock : s.clk.locked = true) (hpart : s.isPartner t = false) (hq : (s.enterCands l).weightedPick l = some q)
    (hr : (s.enterCands l).pipeFor q l = some (r, i)) (hpl : (s.enterCands l).planOf r = some pl)
    (hadm : (s.tile t).admits pl r.id i = true)
    (hpair : (s.enterCands l).pairing t l r.ctx.toNat ((r.pipe i).led (r.pipe i).next) ≠ .waits) :
    execMorselClaim t s = .next ((s.enterCands l).claim t l r pl i
      ((s.enterCands l).pairing t l r.ctx.toNat ((r.pipe i).led (r.pipe i).next))) := by
  simp [execMorselClaim, hl, Nat.not_le.2 ht, hno, hdrain, hgated, hlock, hpart, hq, hr, hpl, hadm, hpair]

/-! ## Ends of morsels (R82, R83, R94) -/

section MorselComplete
variable {s : State} {t k : Nat} {agree : Bool} {f : Flight} {r : Run} {pl : Plan} {w : OpWord}
  (hgated : (s.tile t).gated = false) (hlock : s.clk.locked = true) (hf : (s.tile t).flights[k]? = some f)
  (hr : s.run? f.run = some r) (hpl : s.planOf r = some pl) (hw : pl.sink f.pipe = some w)
include hgated hlock hf hr hpl hw

omit hr hpl hw in
/-- A report of a tile that runs is that of its flight. -/
theorem reported_flight : (if (s.tile t).gated || !s.clk.locked then none else (s.tile t).flights[k]?) = some f := by
  rw [hgated, hlock]
  exact hf

/-- A failing morsel whose jobs have ended ends its run, or is discarded where the ledger has moved on. -/
theorem execMorselComplete_fails {st : BitVec 16} {r0 : Word} {n : Nat} (hwork : f.work = .fails st r0 n)
    (hjobs : (s.jobsOf f.run f.pipe f.m).isEmpty = true) :
    execMorselComplete t k agree s = .next (if ((r.pipe f.pipe).led f.m).state ≠ 1 || ((r.pipe f.pipe).led f.m).token ≠ f.token
      then s.morselStale t k f else s.morselFails t f st (s.firstTrap f st r0)) := by
  simp only [execMorselComplete, reported_flight hgated hlock hf, hr, hpl, hw, hwork, hjobs]
  split <;> rfl

section Rows
variable {e : Eval} (hwork : f.work = .rows e)
include hwork

/-- Rows of a morsel that the ledger no longer waits for are discarded. -/
theorem execMorselComplete_stale (hled : ((r.pipe f.pipe).led f.m).state ≠ 1 ∨ ((r.pipe f.pipe).led f.m).token ≠ f.token) :
    execMorselComplete t k agree s = .next (s.morselStale t k f) := by
  simp only [execMorselComplete, reported_flight hgated hlock hf, hr, hpl, hw, hwork]
  exact if_pos (by simpa using hled)

section Current
variable (hstate : ((r.pipe f.pipe).led f.m).state = 1) (htoken : ((r.pipe f.pipe).led f.m).token = f.token)
  (hjobs : (s.jobsOf f.run f.pipe f.m).isEmpty = true)
include hstate htoken hjobs

/-- A pair whose digests differ runs its morsel again. -/
theorem execMorselComplete_differs {x : Nat} (hx : f.partner = some x) :
    execMorselComplete t k false s = .next (s.morselDiffers t k f x) := by
  simp only [execMorselComplete, reported_flight hgated hlock hf, hr, hpl, hw, hwork, hstate, htoken, hjobs, hx]
  simp

/-- Rows that agree, in their order and with their sink ready, reach the sink. -/
theorem execMorselComplete_done (horder : ((pl.pipes[f.pipe]?).any (·.single) && !inOrder (r.pipe f.pipe) f.m) = false)
    (hstore : w.op = 0x11 → ((r.pipe f.pipe).led f.m).committed = true)
    (hemit : w.op = 0x10 → s.canSend (fnOf f.ctx.toNat) = true)
    (hheld : s.writesHeld (s.morselDone t k f (s.envOf r pl f.pipe f.m) w e) = false) :
    execMorselComplete t k true s = .next (s.morselDone t k f (s.envOf r pl f.pipe f.m) w e) := by
  have hcommitted : (decide (w.op = 0x11) && !((r.pipe f.pipe).led f.m).committed) = false := by simpa using hstore
  have hsend : (decide (w.op = 0x10) && !s.canSend (fnOf f.ctx.toNat)) = false := by simpa using hemit
  simp only [execMorselComplete, reported_flight hgated hlock hf, hr, hpl, hw, hwork, hstate, htoken, hjobs, horder, hcommitted, hsend,
    unlessHeld_free hheld]
  simp

end Current
end Rows
end MorselComplete

/-! ## NOCLAIM and PART_THAW (R100, R397) -/

/-- A write of a tile's NOCLAIM. -/
theorem execNoclaimWrite_writes {s : State} {r : Req} {t : Nat} (ht : t < 18) (h : s.reachable r (tileOfs t + 0x114) = true) (v : Word) :
    execNoclaimWrite r t v s = .next (s.writeNoclaim t (v ||| 0x00010000)) := by
  rw [execNoclaimWrite, if_pos ht]
  exact busRow_reachable h ..

/-- PART_THAW of a frozen partition binds its runs again and lets it run. -/
theorem execPartThaw_thaws {s : State} {id : Nat} {c : Cmd} (h : s.ready id 0xAC c = true) (hz : c.zeros [(10, 22)] = true)
    (hp : c.f 8 2 < 4096) (hst : (s.part (c.f 8 2)).state = 3) :
    execPartThaw id s = .next (((((s.runs.filter fun r => r.ctx.toNat = c.f 8 2).map (·.id)).foldl State.rebind
      (s.updPart (c.f 8 2) fun x => { x with state := 1 })).pvEvent (c.f 8 2) 0).done id 0) :=
  partCmd_ready h hz hp rfl (decide_eq_true hst) ..

/-! ## Materialisations (R89, R92) -/

section Materialisation
variable {s : State} {run mat : Nat} {r : Run} {pl : Plan} {x : MatRec} (hr : s.run? run = some r) (hpl : s.planOf r = some pl)
  (hx : pl.mats[mat]? = some x)
include hr hpl hx

/-- A materialisation whose producer is done, and whose peers have all ended theirs, completes. -/
theorem execMaterialisationComplete_completes {w : OpWord} (hw : pl.matSink mat = some w)
    (hends : w.op ≠ 0x0D ∨ ((s.envOf r pl x.producer 0).markerDevices w).all (fun d => (r.mat mat).ends.getLsbD d) = true)
    (hdone : (r.pipe x.producer).done = true) (hopen : (r.mat mat).complete = false) (hrun : r.paused = false)
    (hmir : s.runMirrored r = true) (hheld : s.writesHeld (s.completeMat run mat (s.envOf r pl x.producer 0) w) = false) :
    execMaterialisationComplete run mat s = .next (s.completeMat run mat (s.envOf r pl x.producer 0) w) := by
  have hall : (decide (w.op ≠ 0x0D) || ((s.envOf r pl x.producer 0).markerDevices w).all fun d => (r.mat mat).ends.getLsbD d) = true := by
    rw [Bool.or_eq_true, decide_eq_true_eq]; exact hends
  simp only [execMaterialisationComplete, hr, hpl, hx, hw, hdone, hopen, hall, hrun, hmir, unlessHeld_free hheld]
  rfl

variable (hcomplete : (r.mat mat).complete = true) (hkept : (r.mat mat).freed = false)
include hcomplete hkept

/-- The second error in a run's materialisations ends the run. -/
theorem execMaterialisationError_ends (hrep : r.repaired = true) :
    execMaterialisationError run mat s = .next ((s.pageError r 0 0x0701).failRun run 0x0701 0) := by
  simp only [execMaterialisationError, hr, hpl, hx, hcomplete, hkept, hrep]
  rfl

/-- The first error discards what depends on the materialisation and runs its pipelines again. -/
theorem execMaterialisationError_repairs (hrep : r.repaired = false) :
    execMaterialisationError run mat s = .next
      (((((pl.againPipes mat (pl.againMats r mat pl.mats.length [mat])).foldl (fun (y : State) i => y.restartPipe run i)
        (s.pageError r 8 0)).updRun run fun y =>
          { y.discard pl (pl.againMats r mat pl.mats.length [mat]) (pl.againPipes mat (pl.againMats r mat pl.mats.length [mat])) with
            repaired := true })).settleRun run) := by
  simp only [execMaterialisationError, hr, hpl, hx, hcomplete, hkept, hrep]
  rfl

end Materialisation

/-! ## STORE (R87, R148) -/

section Store
variable {s : State} {run pipe m : Nat} {r : Run} {pl : Plan} {w : OpWord} {g : Ref} (hr : s.run? run = some r)
  (hpl : s.planOf r = some pl) (hw : pl.sink pipe = some w) (hop : w.op = 0x11) (harc : s.arcRuns = true)
include hr hpl hw hop harc

section Commit
variable {e : Eval} (he : s.flightRows run pipe m = some e) (hnew : ((r.pipe pipe).led m).committed = false)
  (hjobs : (s.jobsOf run pipe m).isEmpty = true) (hg : g = refOf (((s.envOf r pl pipe m).raw w.dst).getD []))
include he hnew hjobs hg

/-- A segment for a volume that takes it, with room in the write cache, is committed. -/
theorem execStoreCommit_commits (hvol : s.volRefusal r.ctx.toNat g.volume (g.addr / 4096) 0 true = 0)
    (hroom : s.admits r.ctx.toNat g.volume (ceilDiv (storeSegment pl pipe w e.active).length 4096) = true) :
    execStoreCommit run pipe m s = .next
      (((s.meter r.ctx.toNat 4 (storeSegment pl pipe w e.active).length).stageRows r pl pipe w m e.active).updRun run fun x =>
        x.updPipe pipe fun p => p.updLed m fun l => { l with committed := true }) := by
  subst hg
  simp only [execStoreCommit, hr, hpl, he, hw, hop, hnew, hjobs, harc, hvol]
  exact when_pos hroom ..

/-- A segment for a volume that refuses it ends the run. -/
theorem execStoreCommit_refused (hvol : s.volRefusal r.ctx.toNat g.volume (g.addr / 4096) 0 true ≠ 0) :
    execStoreCommit run pipe m s = .next (s.failRun run (s.volRefusal r.ctx.toNat g.volume (g.addr / 4096) 0 true) 0) := by
  subst hg
  simp only [execStoreCommit, hr, hpl, he, hw, hop, hnew, hjobs, harc]
  exact if_pos hvol

end Commit

section Place
variable (hdone : (r.pipe pipe).done = true) (hnew : (r.pipe pipe).placed = false) (hrun : r.paused = false)
  (hmir : s.runMirrored r = true) (hdown : s.stagedDown r pipe = true) (hg : g = refOf (((s.envOf r pl pipe 0).raw w.dst).getD []))
include hdone hnew hrun hmir hdown hg

/-- A STORE that does not fit its region ends the run. -/
theorem execStorePlace_tooLong (hlen : g.len < (storePlaces ((r.pipe pipe).segments.map (·.2.1))).2) :
    execStorePlace run pipe s = .next (s.failRun run 0x0510 0) := by
  subst hg
  simp only [execStorePlace, hr, hpl, hw, hop, hdone, hnew, hrun, hmir, hdown, harc]
  exact if_pos hlen

/-- A staged STORE that fits, in a volume that takes it, is placed: its runs leave the staging volume for their own. -/
theorem execStorePlace_places {segs : List (Nat × Nat × Nat)} {at_ : List Nat × Nat} {t1 : State}
    (hsegs : segs = (r.pipe pipe).segments) (hat : at_ = storePlaces (segs.map (·.2.1))) (hlen : at_.2 ≤ g.len)
    (hvol : s.volRefusal r.ctx.toNat g.volume (g.addr / 4096) (ceilDiv at_.2 4096) true = 0)
    (ht1 : t1 = ((0 :: at_.1).zip (look (0, 0, 0) (r.pipe pipe).staged segs.length :: segs)).foldl (fun (x : State) e =>
      x.placeRuns (stageVol r.id pipe) e.2.1 (ceilDiv e.2.2.1 4096) g.volume ((g.addr + e.1) / 4096)) s)
    (hheld : s.writesHeld ((((t1.setVol (stageVol r.id pipe) {}).recount (s.vol g.volume).array).updRun run fun x =>
      x.updPipe pipe fun y => { y with placed := true }).settleRun run) = false) :
    execStorePlace run pipe s = .next ((((t1.setVol (stageVol r.id pipe) {}).recount (s.vol g.volume).array).updRun run fun x =>
      x.updPipe pipe fun y => { y with placed := true }).settleRun run) := by
  subst hg hsegs hat ht1
  simp only [execStorePlace, hr, hpl, hw, hop, hdone, hnew, hrun, hmir, hdown, harc, Nat.not_lt.2 hlen, hvol]
  exact unlessHeld_free hheld

end Place
end Store

/-- Settles O13, row by row. -/
theorem morselCompletes : Obligations.MorselCompletes := by
  refine ⟨?claim, ?done, ?differs, ?stale, ?fails, ?noclaim, ?thaw, ?matComplete, ?matEnds, ?matRepairs, ?commit, ?commitRefused,
    ?place, ?placeTooLong⟩
  case claim =>
    exact fun t s l q i r pl hl ⟨ht, hno, hdrain, hgated, hlock, hpart⟩ hq hr hpl ⟨hadm, hpair⟩ =>
      execMorselClaim_claims hl ht hno hdrain hgated hlock hpart hq hr hpl hadm hpair
  case done =>
    rintro t k _ s f r pl w e ⟨hgated, hlock⟩ hf hr hpl hw hwork ⟨hstate, htoken, hjobs⟩ rfl horder ⟨hstore, hemit⟩ hheld
    exact execMorselComplete_done hgated hlock hf hr hpl hw hwork hstate htoken hjobs horder hstore hemit hheld
  case differs =>
    rintro t k _ s f r pl w e x ⟨hgated, hlock⟩ hf hr hpl hw ⟨hwork, hx⟩ ⟨hstate, htoken, hjobs⟩ rfl
    exact execMorselComplete_differs hgated hlock hf hr hpl hw hwork hstate htoken hjobs hx
  case stale =>
    exact fun t k agree s f r pl w e ⟨hgated, hlock⟩ hf hr hpl hw hwork hled =>
      execMorselComplete_stale hgated hlock hf hr hpl hw hwork hled
  case fails =>
    exact fun t k agree s f r pl w st r0 n ⟨hgated, hlock⟩ hf hr hpl hw hwork hjobs =>
      execMorselComplete_fails hgated hlock hf hr hpl hw hwork hjobs
  case noclaim => exact fun r t v s ⟨ht, h⟩ => execNoclaimWrite_writes ht h v
  case thaw => exact fun id s c h ⟨hz, hp, hst⟩ => execPartThaw_thaws h hz hp hst
  case matComplete =>
    exact fun run mat s r pl x w hr hpl hx hw hends ⟨hdone, hopen, hrun, hmir⟩ hheld =>
      execMaterialisationComplete_completes hr hpl hx hw hends hdone hopen hrun hmir hheld
  case matEnds => exact fun run mat s r pl x hr hpl hx ⟨hcomplete, hkept⟩ hrep => execMaterialisationError_ends hr hpl hx hcomplete hkept hrep
  case matRepairs =>
    rintro run mat s r pl x _ _ hr hpl hx ⟨hcomplete, hkept⟩ hrep rfl rfl
    exact execMaterialisationError_repairs hr hpl hx hcomplete hkept hrep
  case commit =>
    rintro run pipe m s r pl w e g _ hr hpl he hw ⟨hop, hnew, hjobs, harc⟩ hg rfl ⟨hvol, hroom⟩
    exact execStoreCommit_commits hr hpl hw hop harc he hnew hjobs hg hvol hroom
  case commitRefused =>
    exact fun run pipe m s r pl w e g hr hpl he hw ⟨hop, hnew, hjobs, harc⟩ hg hvol =>
      execStoreCommit_refused hr hpl hw hop harc he hnew hjobs hg hvol
  case place =>
    exact fun run pipe s r pl w g segs at_ t1 hr hpl hw ⟨hop, hdone, hnew, hrun, hmir, hdown, harc⟩ hg hsegs hat ⟨hlen, hvol⟩ ht1 hheld =>
      execStorePlace_places hr hpl hw hop harc hdone hnew hrun hmir hdown hg hsegs hat hlen hvol ht1 hheld
  case placeTooLong =>
    exact fun run pipe s r pl w g hr hpl hw ⟨hop, hdone, hnew, hrun, hmir, hdown, harc⟩ hg hlen =>
      execStorePlace_tooLong hr hpl hw hop harc hdone hnew hrun hmir hdown hg hlen

end Sys2Proof.Machine
end

section
/-! Exchange (15_peer_links.md): what rows and markers from a peer do where their conditions hold. -/

namespace Sys2Proof.Machine

/-! ## Rows that come from a peer (R94, R458) -/

section ExchangeRows
variable {s u : State} {dev bind mat pipe m bucket : Nat} {exkey : Word} {ctx : BitVec 13} {gen : BitVec 16} {rows : List Row} {r : Run}
  {pl : Plan} (hu : u = s.hear dev) (hdev : dev < 8) (hself : dev ≠ u.pwr.devid.toNat) (hreach : u.reaches dev = true)
  (hpipe : pipe < 256) (hm : m < 2 ^ 32)
include hu hdev hself hreach hpipe hm

omit hu in
/-- Another device that the links reach sends rows of a pipeline and a morsel. -/
theorem sender_ok : (decide (8 ≤ dev) || decide (dev = u.pwr.devid.toNat) || !u.reaches dev || decide (256 ≤ pipe) ||
    decide (2 ^ 32 ≤ m)) = false := by
  simp only [Nat.not_le.2 hdev, hself, hreach, Nat.not_le.2 hpipe, Nat.not_le.2 hm]
  rfl

/-- Rows outside the binding, or of an old generation, are discarded and counted. -/
theorem execExchangeRows_stale
    (hb : (!(u.binding bind).en || !(u.binding bind).devmask.getLsbD dev || look 0 (u.binding bind).gens dev ≠ gen) = true) :
    execExchangeRows dev bind exkey ctx gen mat pipe m bucket rows s = .next (u.stale ctx.toNat) := by
  subst hu
  simp only [execExchangeRows, sender_ok hdev hself hreach hpipe hm, hb]
  rfl

section Bound
variable (hen : (u.binding bind).en = true) (hmask : (u.binding bind).devmask.getLsbD dev = true)
  (hgen : look 0 (u.binding bind).gens dev = gen)
include hen hmask hgen

omit hu hdev hself hreach hpipe hm in
/-- The binding takes rows of the device and of their generation. -/
theorem bound_ok : (!(u.binding bind).en || !(u.binding bind).devmask.getLsbD dev || decide (look 0 (u.binding bind).gens dev ≠ gen)) =
    false := by
  rw [hen, hmask, decide_eq_false (not_not_intro hgen)]
  rfl

/-- Rows of another partition than the binding's end the run of the key. -/
theorem execExchangeRows_foreign (hctx : look 0 (u.binding bind).ctxs dev ≠ ctx) (hr : u.exchangeRun bind exkey = some r) :
    execExchangeRows dev bind exkey ctx gen mat pipe m bucket rows s = .next (u.failRun r.id 0x0601 0) := by
  subst hu
  simp only [execExchangeRows, sender_ok hdev hself hreach hpipe hm, bound_ok hen hmask hgen, hr]
  exact if_pos hctx

/-- Rows that the run of the key grants credit for take their place. -/
theorem execExchangeRows_placed (hctx : look 0 (u.binding bind).ctxs dev = ctx) (hr : u.exchangeRun bind exkey = some r)
    (hpl : u.planOf r = some pl) (hopen : u.exchangeOpen r dev bind mat = true)
    (hheld : u.writesHeld (u.placeExchange r pl dev mat pipe m bucket rows) = false) :
    execExchangeRows dev bind exkey ctx gen mat pipe m bucket rows s = .next (u.placeExchange r pl dev mat pipe m bucket rows) := by
  subst hu
  simp only [execExchangeRows, sender_ok hdev hself hreach hpipe hm, bound_ok hen hmask hgen, hr, Option.bind_some, hpl, hopen,
    unlessHeld_free hheld]
  exact if_neg (not_not_intro hctx)

end Bound
end ExchangeRows

/-! ## Markers (R458, R460) -/

/-- An end marker is noted in the materialisation of the run that takes it. -/
theorem execExchangeEndMarker_noted {s u : State} {dev bind mat : Nat} {exkey : Word} {r : Run} (hu : u = s.hear dev)
    (hr : u.exchangeRun bind exkey = some r) (hopen : u.exchangeOpen r dev bind mat = true) (pipe : Nat) :
    execExchangeEndMarker dev bind exkey mat pipe s =
      .next (u.updRun r.id fun y => y.updMat mat fun z => { z with ends := z.ends ||| devBit dev }) := by
  subst hu
  unfold execExchangeEndMarker
  simp only [hr]
  exact when_pos hopen ..

section AbortMarker
variable {s u : State} {dev bind : Nat} {exkey : Word} (hu : u = s.hear dev) (hdev : dev < 8) (hen : (u.binding bind).en = true)
  (hmask : (u.binding bind).devmask.getLsbD dev = true)
include hu hdev hen hmask

/-- An abort marker of a device of the binding ends the run of its key. -/
theorem execExchangeAbortMarker_ends {r : Run} (hr : u.exchangeRun bind exkey = some r) :
    execExchangeAbortMarker dev bind exkey s = .next (u.failRun r.id 0x0410 0) := by
  subst hu
  simp only [execExchangeAbortMarker, decide_eq_true hdev, hen, hmask, hr]
  rfl

/-- An abort marker whose key no run has changes nothing. -/
theorem execExchangeAbortMarker_noRun (hr : u.exchangeRun bind exkey = none) : execExchangeAbortMarker dev bind exkey s = .next u := by
  subst hu
  simp only [execExchangeAbortMarker, decide_eq_true hdev, hen, hmask, hr]
  rfl

end AbortMarker

/-- Settles O16, row by row. -/
theorem kernelEntryCompletes : Obligations.KernelEntryCompletes := by
  refine ⟨?placed, ?stale, ?foreign, ?endMarker, ?abortEnds, ?abortNoRun⟩
  case placed =>
    exact fun dev bind exkey ctx gen mat pipe m bucket rows s u r pl hu ⟨hdev, hself, hreach, hpipe, hm⟩ ⟨hen, hmask, hgen⟩ hctx hr hpl
      hopen hheld => execExchangeRows_placed hu hdev hself hreach hpipe hm hen hmask hgen hctx hr hpl hopen hheld
  case stale =>
    exact fun dev bind exkey ctx gen mat pipe m bucket rows s u hu ⟨hdev, hself, hreach, hpipe, hm⟩ hb =>
      execExchangeRows_stale hu hdev hself hreach hpipe hm hb
  case foreign =>
    exact fun dev bind exkey ctx gen mat pipe m bucket rows s u r hu ⟨hdev, hself, hreach, hpipe, hm⟩ ⟨hen, hmask, hgen⟩ hctx hr =>
      execExchangeRows_foreign hu hdev hself hreach hpipe hm hen hmask hgen hctx hr
  case endMarker => exact fun dev bind exkey mat pipe s u r hu hr hopen => execExchangeEndMarker_noted hu hr hopen pipe
  case abortEnds => exact fun dev bind exkey s u r hu hr ⟨hdev, hen, hmask⟩ => execExchangeAbortMarker_ends hu hdev hen hmask hr
  case abortNoRun => exact fun dev bind exkey s u hu hr ⟨hdev, hen, hmask⟩ => execExchangeAbortMarker_noRun hu hdev hen hmask hr

end Sys2Proof.Machine
end

section
/-! Scalar floating point on a column processor, and what the checks of its vector instructions answer (04_operators.md). -/

namespace Sys2Proof.Machine

/-! ## Instructions that pass their checks, or fail one (R179, R183, R185) -/

section
variable {u : CpAt} {s : State} {c : Cp} (he : s.executes u = true) (hc : s.cpOf u.tile u.cp = c)
include he hc

/-- An instruction that changes its CP alone completes. -/
theorem cpStep_completes (k : Cp → Cp) : cpStep s u k = .next (s.stepCp u (k c)) := by
  subst hc
  exact cpStep_executes he k

variable {k : Cp → Tile → CpRes}

/-- A vector instruction whose checks let it go on counts as one. -/
theorem cpRunV_completes {y : Cp} (hk : k c (s.tile u.tile) = .go y.adv (s.tile u.tile)) :
    cpRunV s u k = .next (s.stepVec u y) := by
  subst hc
  rw [cpRunV_executes he, hk]
  rfl

/-- A vector instruction that a check stops fails its kernel. -/
theorem cpRunV_fails {code : Nat} (hk : k c (s.tile u.tile) = .fail code 0 c (s.tile u.tile)) :
    cpRunV s u k = .next ((s.withCp u c (s.tile u.tile)).kernelFail u code 0) := by
  subst hc
  rw [cpRunV_executes he, hk]
  rfl

end

/-! ## Scalar floating point (R186, R188) -/

/-- An instruction with a floating point result writes it to G[D] and sets its flags. -/
theorem cpStep_fpResult (r : Cp → Nat × KFlags) (u : CpAt) (d : BitVec 5) (s : State) (c : Cp) (he : s.executes u = true)
    (hc : s.cpOf u.tile u.cp = c) :
    cpStep s u (fun c => (c.wr d (BitVec.ofNat 64 (r c).1)).flag (r c).2) =
      .next (s.stepCp u (c.result d (BitVec.ofNat 64 (r c).1) (r c).2)) :=
  cpStep_completes he hc _

/-- A scalar FP instruction on G[A] and G[B] writes the result of its operation. -/
theorem scalarFp_completes (op : Fmt → Nat → Nat → Nat × KFlags) (u : CpAt) (d a b : BitVec 5) (dbl : Bool) (s : State) (c : Cp)
    (he : s.executes u = true) (hc : s.cpOf u.tile u.cp = c) :
    scalarFp op u d a b dbl s = .next (s.stepCp u (c.result d
      (BitVec.ofNat 64 (op (fmtOf dbl) (fpIn dbl (c.rd a)) (fpIn dbl (c.rd b))).1)
      (op (fmtOf dbl) (fpIn dbl (c.rd a)) (fpIn dbl (c.rd b))).2)) :=
  cpStep_fpResult (fun c => op (fmtOf dbl) (fpIn dbl (c.rd a)) (fpIn dbl (c.rd b))) u d s c he hc

/-- Settles O28, instruction by instruction. -/
theorem scalarFloatCompletes : Obligations.ScalarFloatCompletes := by
  unfold Obligations.ScalarFloatCompletes
  simp only [exec_fadd, exec_fsub, exec_fmul, exec_fdiv, exec_fmin, exec_fmax, exec_fsqrt, exec_feq, exec_flt, exec_fle, exec_fcvti,
    exec_fcvtf, exec_fcvtp, exec_fma]
  refine ⟨?fadd, ?fsub, ?fmul, ?fdiv, ?fmin, ?fmax, ?fsqrt, ?feq, ?flt, ?fle, ?fcvti, ?fcvtf, ?fcvtp, ?fma⟩
  case fadd => exact scalarFp_completes fpAdd
  case fsub => exact scalarFp_completes fpSub
  case fmul => exact scalarFp_completes fpMul
  case fdiv => exact scalarFp_completes fpDiv
  case fmin => exact scalarFp_completes (fpMinMax false)
  case fmax => exact scalarFp_completes (fpMinMax true)
  case fsqrt => exact fun u d a => scalarFp_completes (fun f x _ => fpSqrt f x) u d a 0
  case feq => exact scalarFp_completes fun f x y => (b2n (fpCmp 0 f x y).1, (fpCmp 0 f x y).2)
  case flt => exact scalarFp_completes fun f x y => (b2n (fpCmp 1 f x y).1, (fpCmp 1 f x y).2)
  case fle => exact scalarFp_completes fun f x y => (b2n (fpCmp 2 f x y).1, (fpCmp 2 f x y).2)
  case fcvti =>
    intro u d a dbl s c he hc
    rw [execFcvti, cpStep_completes he hc]
    rfl
  case fcvtf => exact fun u d a dbl => cpStep_fpResult (fun c => intToFp (fmtOf dbl) (c.rd a).toInt) u d
  case fcvtp => exact fun u d a dbl => cpStep_fpResult (fun c => fpToFp (fmtOf !dbl) (fmtOf dbl) (fpIn (!dbl) (c.rd a))) u d
  case fma =>
    exact fun u d a b dbl =>
      cpStep_fpResult (fun c => fpFma (fmtOf dbl) (fpIn dbl (c.rd a)) (fpIn dbl (c.rd b)) (fpIn dbl (c.rd d))) u d

end Sys2Proof.Machine
end

section
/-! Compares and byte patterns of a column processor (04_operators.md): what each leaves in its predicate group. -/

namespace Sys2Proof.Machine

/-! ## The operands (R181 to R184) -/

/-- The registers of a compare are groups, and its predicate has a name. -/
def Cp.compareOk (c : Cp) (f : VFields) (x : Bool) : Prop :=
  f.d.toNat < 16 ∧ f.d.toNat % c.pg = 0 ∧ c.vOk f.a.toNat = true ∧ (x = true ∨ c.vOk f.b.toNat = true) ∧ c.pmOk f = true

/-- The registers of a byte pattern are groups of bytes, and its predicate has a name. -/
def Cp.patternOk (c : Cp) (f : VFields) : Prop :=
  c.sewBits = 8 ∧ f.d.toNat < 16 ∧ f.d.toNat % c.pg = 0 ∧ c.vOk f.a.toNat = true ∧ c.pmOk f = true

/-- An instruction that is legal and keeps to the vector configuration goes on. -/
theorem legal_vecOk {name config : Bool} (hname : name = true) (hconfig : config = true) (c : Cp) (t : Tile) (r : CpRes) :
    legal name c t (vecOk config c t r) = r := by
  rw [hname, hconfig]
  rfl

/-- A compare of such registers passes both checks. -/
theorem Cp.compareOk.passes {c : Cp} {f : VFields} {x : Bool} (h : c.compareOk f x) {sewOk : Bool} (hsew : sewOk = true) (t : Tile)
    (r : CpRes) :
    legal (pName f.d) c t
      (vecOk (sewOk && c.pOk f.d.toNat && c.vOk f.a.toNat && (x || c.vOk f.b.toNat) && c.pmOk f) c t r) = r := by
  obtain ⟨hname, hgroup, ha, hb, hpm⟩ := h
  exact legal_vecOk (decide_eq_true hname) (by rw [hsew, Cp.pOk, decide_eq_true hgroup, ha, Bool.or_eq_true_iff.2 hb, hpm]; rfl) c t r

/-- A byte pattern on such registers passes both checks. -/
theorem Cp.patternOk.passes {c : Cp} {f : VFields} (h : c.patternOk f) (t : Tile) (r : CpRes) :
    legal (pName f.d) c t (vecOk (c.sewBits = 8 && c.pOk f.d.toNat && c.vOk f.a.toNat && c.pmOk f) c t r) = r := by
  obtain ⟨hsew, hname, hgroup, ha, hpm⟩ := h
  exact legal_vecOk (decide_eq_true hname) (by rw [decide_eq_true hsew, Cp.pOk, decide_eq_true hgroup, ha, hpm]; rfl) c t r

/-! ## Compares (R182, R188) -/

/-- A compare writes its predicate group and sets the flags of its active elements. -/
theorem vecCmp_completes {sewOk : Nat → Bool} (op : Nat → Nat → Nat → Bool × KFlags) (u : CpAt) (f : VFields) (x : Bool) (s : State)
    (c : Cp) (he : s.executes u = true) (hc : s.cpOf u.tile u.cp = c) (hsew : sewOk c.sewBits = true) (hok : c.compareOk f x) :
    vecCmp sewOk op s u f x = .next (s.stepVec u ((c.actives s.vlen f).foldl
      (fun (y : Cp) i => y.flag (op c.sewBits (c.velem s.vlen c.sewBits f.a.toNat i) (vecB s.vlen c f x i)).2)
      (writePred s.vlen c f.d.toNat fun i =>
        c.active s.vlen f i && (op c.sewBits (c.velem s.vlen c.sewBits f.a.toNat i) (vecB s.vlen c f x i)).1))) :=
  cpRunV_completes he hc (hok.passes hsew ..)

/-- An integer compare writes its predicate group and sets no flag. -/
theorem vecCmp_integer (cmp : (w : Nat) → BitVec w → BitVec w → Bool) (u : CpAt) (f : VFields) (x : Bool) (s : State) (c : Cp)
    (he : s.executes u = true) (hc : s.cpOf u.tile u.cp = c) (hok : c.compareOk f x) :
    vecCmp (fun _ => true) (fun w p q => (cmp w (BitVec.ofNat w p) (BitVec.ofNat w q), 0)) s u f x =
      .next (s.stepVec u (writePred s.vlen c f.d.toNat fun i =>
        c.active s.vlen f i && cmp c.sewBits (c.srcA s.vlen f i) (c.srcB s.vlen f x i))) := by
  refine (vecCmp_completes _ u f x s c he hc rfl hok).trans ?_
  simp only [BitVec.ofNat_eq_ofNat, Cp.flag_zero, foldl_keep]
  rfl

/-- A compare into a name of 16 or more is illegal (R184, R185). -/
theorem vecCmp_illegal (sewOk : Nat → Bool) (op : Nat → Nat → Nat → Bool × KFlags) (u : CpAt) (f : VFields) (x : Bool) (s : State)
    (c : Cp) (he : s.executes u = true) (hc : s.cpOf u.tile u.cp = c) (hname : 16 ≤ f.d.toNat) :
    vecCmp sewOk op s u f x = .next ((s.withCp u c (s.tile u.tile)).kernelFail u 0x0460 0) :=
  cpRunV_fails he hc (if_neg (by simp [pName, hname]))

/-! ## Byte patterns (R191) -/

/-- A byte pattern writes its predicate group. -/
theorem vecPat_completes (p : Cp → DWord → Nat → Bool) (u : CpAt) (f : VFields) (s : State) (c : Cp) (he : s.executes u = true)
    (hc : s.cpOf u.tile u.cp = c) (hok : c.patternOk f) :
    vecPat p s u f = .next (s.stepVec u (writePred s.vlen c f.d.toNat fun i => c.active s.vlen f i && p c (c.rd f.b) i)) :=
  cpRunV_completes he hc (hok.passes ..)

/-- Bits 15:8 of a number are its second byte. -/
theorem bits_15_8 (n : Nat) : bits n 15 8 = n / 256 % 256 := congrArg (· % 256) (Nat.shiftRight_eq_div_pow n 8)

/-- Bits 7:0 of a number are its low byte. -/
theorem bits_7_0 (n : Nat) : bits n 7 0 = n % 256 := rfl

/-- Settles O33, instruction by instruction. -/
theorem compareCompletes : Obligations.CompareCompletes := by
  unfold Obligations.CompareCompletes
  simp only [exec_ceq, exec_cne, exec_clt, exec_cle, exec_cgt, exec_cge, exec_cltu, exec_cleu, exec_cgtu, exec_cgeu, exec_cfeq,
    exec_cflt, exec_cfle, exec_cfun, exec_cftlt, exec_vbeq, exec_vbrng, exec_vpat, exec_vpatm]
  refine ⟨?ceq, ?cne, ?clt, ?cle, ?cgt, ?cge, ?cltu, ?cleu, ?cgtu, ?cgeu, ?cfeq, ?cflt, ?cfle, ?cfun, ?cftlt, ?vbeq, ?vbrng, ?vpat,
    ?vpatm, ?illegal⟩
  case ceq => exact vecCmp_integer fun _ => cmpS 0
  case cne => exact vecCmp_integer fun _ => cmpS 1
  case clt => exact vecCmp_integer fun _ => cmpS 2
  case cle => exact vecCmp_integer fun _ => cmpS 3
  case cgt => exact vecCmp_integer fun _ => cmpS 4
  case cge => exact vecCmp_integer fun _ => cmpS 5
  case cltu => exact vecCmp_integer fun _ => cmpU 2
  case cleu => exact vecCmp_integer fun _ => cmpU 3
  case cgtu => exact vecCmp_integer fun _ => cmpU 4
  case cgeu => exact vecCmp_integer fun _ => cmpU 5
  case cfeq => exact vecCmp_completes fun w => fpCmp 0 (vfmt w)
  case cflt => exact vecCmp_completes fun w => fpCmp 1 (vfmt w)
  case cfle => exact vecCmp_completes fun w => fpCmp 2 (vfmt w)
  case cfun => exact vecCmp_completes fun w => fpUnord (vfmt w)
  case cftlt => exact vecCmp_completes fun w => fpTlt (vfmt w)
  case vbeq =>
    exact fun u f s => vecPat_completes (fun c b i => byteAt s.vlen c f.a.toNat i = b.toNat % 256) u f s
  case vbrng =>
    intro u f s c he hc hok
    rw [execVbrng, vecPat_completes _ u f s c he hc hok]
    simp only [bits_7_0, bits_15_8, Bool.decide_and]
    rfl
  case vpat =>
    exact fun u f s => vecPat_completes (fun c b i =>
      (List.range 8).all fun k => byteAt s.vlen c f.a.toNat (i + k) = bits b.toNat (8 * k + 7) (8 * k)) u f s
  case vpatm =>
    intro u f s c he hc hok heven
    rw [execVpatm, if_neg (by omega), vecPat_completes _ u f s c he hc hok]
  case illegal => exact vecCmp_illegal _ _

end Sys2Proof.Machine
end

section
/-! Vector floating point, CF32 and GF(2^8) instructions of a column processor (04_operators.md). -/

namespace Sys2Proof.Machine

/-! ## Instructions on V[A], B and V[D] (R182, R183) -/

section
variable {w : Nat} {sewOk : Nat → Bool} (op : Nat → Nat → Nat → Nat → Nat × KFlags) (u : CpAt) (f : VFields) (x : Bool) (s : State)
  (c : Cp) (he : s.executes u = true) (hc : s.cpOf u.tile u.cp = c)
include he hc

/-- With a SEW that it takes, such an instruction writes the active elements of V[D]. -/
theorem vecTri_completes (hsew : sewOk c.sewBits = true) (hok : c.groupsOk f x = true) :
    vecTri sewOk op s u f x = .next (s.stepVec u (elemwise s.vlen c.sewBits f c fun i =>
      op c.sewBits (c.velem s.vlen c.sewBits f.a.toNat i) (vecB s.vlen c f x i) (c.velem s.vlen c.sewBits f.d.toNat i))) :=
  cpRunV_completes he hc (if_pos (by rw [hsew]; exact hok))

/-- With another SEW it fails its kernel. -/
theorem vecTri_wrongSew (hsew : sewOk c.sewBits = false) :
    vecTri sewOk op s u f x = .next ((s.withCp u c (s.tile u.tile)).kernelFail u 0x0463 0) :=
  cpRunV_fails he hc (if_neg (by rw [hsew]; exact Bool.false_ne_true))

/-- An instruction for SEW w alone, at SEW w. -/
theorem vecTri_onlySew (hw : c.sewBits = w) (hok : c.groupsOk f x = true) :
    vecTri (fun v => v = w) op s u f x = .next (s.stepVec u (elemwise s.vlen c.sewBits f c fun i =>
      op c.sewBits (c.velem s.vlen c.sewBits f.a.toNat i) (vecB s.vlen c f x i) (c.velem s.vlen c.sewBits f.d.toNat i))) :=
  vecTri_completes op u f x s c he hc (decide_eq_true hw) hok

/-- An instruction for SEW w alone, at another SEW. -/
theorem vecTri_otherSew (hw : c.sewBits ≠ w) :
    vecTri (fun v => v = w) op s u f x = .next ((s.withCp u c (s.tile u.tile)).kernelFail u 0x0463 0) :=
  vecTri_wrongSew op u f x s c he hc (decide_eq_false hw)

end

/-- The floating point instructions take no SEW of 8 or 16. -/
theorem fpSew_narrow {w : Nat} (h : w = 8 ∨ w = 16) : fpSew w = false := by
  obtain rfl | rfl := h <;> rfl

/-! ## Instructions on V[A] alone (R182, R183) -/

section
variable {w : Nat} {sewOk : Nat → Bool} (op : Nat → Nat → Nat × KFlags) (u : CpAt) (f : VFields) (s : State) (c : Cp)
  (he : s.executes u = true) (hc : s.cpOf u.tile u.cp = c)
include he hc

/-- With a SEW that it takes, such an instruction writes the active elements of V[D]. -/
theorem vecUn_completes (hsew : sewOk c.sewBits = true)
    (hok : c.vOk f.d.toNat = true ∧ c.vOk f.a.toNat = true ∧ c.pmOk f = true) :
    vecUn op sewOk s u f = .next (s.stepVec u (elemwise s.vlen c.sewBits f c fun i =>
      op c.sewBits (c.velem s.vlen c.sewBits f.a.toNat i))) := by
  obtain ⟨hd, ha, hpm⟩ := hok
  exact cpRunV_completes he hc (if_pos (by rw [hsew, hd, ha, hpm]; rfl))

/-- An instruction for SEW w alone, at SEW w. -/
theorem vecUn_onlySew (hw : c.sewBits = w)
    (hok : c.vOk f.d.toNat = true ∧ c.vOk f.a.toNat = true ∧ c.pmOk f = true) :
    vecUn op (fun v => v = w) s u f = .next (s.stepVec u (elemwise s.vlen c.sewBits f c fun i =>
      op c.sewBits (c.velem s.vlen c.sewBits f.a.toNat i))) :=
  vecUn_completes op u f s c he hc (decide_eq_true hw) hok

end

/-- Settles O34, instruction by instruction. -/
theorem vectorFloatCompletes : Obligations.VectorFloatCompletes := by
  unfold Obligations.VectorFloatCompletes
  simp only [exec_vfadd, exec_vfsub, exec_vfmul, exec_vfdiv, exec_vfmin, exec_vfmax, exec_vfma, exec_vfnms, exec_vfsqrt, exec_vfabs,
    exec_vfneg, exec_vcvtfi, exec_vcvtif, exec_vcvtuf, exec_vcvtds, exec_vcvtsd, exec_vcabs2, exec_vcmul, exec_vcmulc, exec_vcmac,
    exec_vcmacc, exec_vcadd, exec_vcsub, exec_vbfly, exec_vgfmul, exec_vgfmac]
  refine ⟨?vfadd, ?vfsub, ?vfmul, ?vfdiv, ?vfmin, ?vfmax, ?vfma, ?vfnms, ?vfsqrt, ?vfabs, ?vfneg, ?vcvtfi, ?vcvtif, ?vcvtuf, ?vcvtds,
    ?vcvtsd, ?vcabs2, ?vcmul, ?vcmulc, ?vcmac, ?vcmacc, ?vcadd, ?vcsub, ?vbfly, ?vgfmul, ?vgfmac, ?vfaddSew, ?vcmulSew, ?vgfmulSew⟩
  case vfadd => exact vecTri_completes fun w p q _ => fpAdd (vfmt w) p q
  case vfsub => exact vecTri_completes fun w p q _ => fpSub (vfmt w) p q
  case vfmul => exact vecTri_completes fun w p q _ => fpMul (vfmt w) p q
  case vfdiv => exact vecTri_completes fun w p q _ => fpDiv (vfmt w) p q
  case vfmin => exact vecTri_completes fun w p q _ => fpMinMax false (vfmt w) p q
  case vfmax => exact vecTri_completes fun w p q _ => fpMinMax true (vfmt w) p q
  case vfma => exact vecTri_completes fun w p q r => fpFma (vfmt w) p q r
  case vfnms => exact vecTri_completes fun w p q r => fpFnms (vfmt w) p q r
  case vfsqrt => exact fun u f x => vecUn_completes (fun w p => fpSqrt (vfmt w) p) u f
  case vfabs => exact vecUn_completes fun w p => fpAbs (vfmt w) p
  case vfneg => exact vecUn_completes fun w p => fpNeg (vfmt w) p
  case vcvtfi => exact vecUn_completes fun w p => ((fpToInt (vfmt w) w p).1.toNat, (fpToInt (vfmt w) w p).2)
  case vcvtif => exact vecUn_completes fun w p => intToFp (vfmt w) (BitVec.ofNat w p).toInt
  case vcvtuf => exact vecUn_completes fun w p => intToFp (vfmt w) p
  case vcvtds => exact vecUn_onlySew fun _ p => fpToFp f64 f32 p
  case vcvtsd => exact vecUn_onlySew fun _ p => fpToFp f32 f64 (p % 2 ^ 32)
  case vcabs2 => exact vecUn_onlySew fun _ p => cfAbs2 p
  case vcmul => exact vecTri_onlySew fun _ p q _ => cfMul p q
  case vcmulc => exact vecTri_onlySew fun _ p q _ => cfMulC p q
  case vcmac => exact vecTri_onlySew fun _ p q r => cfMac r p q
  case vcmacc => exact vecTri_onlySew fun _ p q r => cfMacC r p q
  case vcadd => exact vecTri_onlySew fun _ p q _ => cfAdd p q
  case vcsub => exact vecTri_onlySew fun _ p q _ => cfSub p q
  case vbfly =>
    intro u f s c he hc hw hok
    have hchecks : (c.sewBits = 64 && c.vOk f.d.toNat && c.vOk f.a.toNat && c.vOk f.b.toNat && c.pmOk f) = true := by
      rw [decide_eq_true hw]
      exact hok
    exact cpRunV_completes he hc (if_pos hchecks)
  case vgfmul => exact vecTri_onlySew fun _ p q _ => (gfMul p q, 0)
  case vgfmac => exact vecTri_onlySew fun _ p q r => (r ^^^ gfMul p q, 0)
  case vfaddSew => exact fun u f x s c he hc hw => vecTri_wrongSew _ u f x s c he hc (fpSew_narrow hw)
  case vcmulSew => exact vecTri_otherSew _
  case vgfmulSew => exact vecTri_otherSew _

end Sys2Proof.Machine
end

section
/-! Packed arrays of fields (05_column_formats.md). -/

namespace Sys2Proof.Machine

/-! ## Bits of little-endian bytes (R11) -/

/-- The little-endian number of a list of bytes has bit k in byte k / 8, a missing byte reading 0. -/
theorem testBit_leNat (bs : List Byte) (k : Nat) : (leNat bs).testBit k = (bs[k / 8]?.getD 0).getLsbD (k % 8) := by
  induction bs generalizing k with
  | nil => simp [leNat]
  | cons b bs ih =>
    rw [leNat, Nat.add_comm, Nat.testBit_two_pow_mul_add (i := 8) _ b.isLt]
    split
    case isTrue hk => rw [Nat.div_eq_of_lt hk, Nat.mod_eq_of_lt hk]; rfl
    case isFalse hk => rw [ih, show k / 8 = (k - 8) / 8 + 1 by omega, show k % 8 = (k - 8) % 8 by omega, List.getElem?_cons_succ]

/-- Byte k of the bytes from o on, a missing byte reading 0. -/
theorem sub_getD (bs : List Byte) (o : Nat) {n k : Nat} (hk : k < n) : (sub bs o n)[k]?.getD 0 = bs[o + k]?.getD 0 := by
  rw [sub, List.getElem?_append, List.length_take, List.length_drop]
  split
  case isTrue h => rw [List.getElem?_take_of_lt hk, List.getElem?_drop]
  case isFalse h => rw [List.getElem?_replicate_of_lt (by omega), List.getElem?_eq_none (by omega)]; rfl

/-- Bit k of the n bytes from o on. -/
theorem testBit_fieldLE (bs : List Byte) (o : Nat) {n k : Nat} (hk : k < 8 * n) :
    (fieldLE bs o n).testBit k = (bs[o + k / 8]?.getD 0).getLsbD (k % 8) := by
  rw [fieldLE, testBit_leNat, sub_getD bs o (by omega)]

/-- Bit k of the n bytes of a number is its bit k. -/
theorem getLsbD_natLE (v : Nat) {n k : Nat} (hk : k < 8 * n) : ((natLE n v)[k / 8]?.getD 0).getLsbD (k % 8) = v.testBit k := by
  rw [← testBit_leNat, leNat_natLE, show 256 ^ n = 2 ^ (8 * n) from (Nat.pow_mul 2 8 n).symm, Nat.testBit_mod_two_pow, decide_eq_true hk,
    Bool.true_and]

/-! ## Packed arrays (R157) -/

/-- Bit b of field i is bit i w + b of the array. -/
theorem testBit_packedField (bs : List Byte) (i : Nat) {w b : Nat} (hb : b < w) :
    (packedField bs w i).testBit b = (bs[(i * w + b) / 8]?.getD 0).getLsbD ((i * w + b) % 8) := by
  generalize hp : i * w = p
  have hbyte : p / 8 + (b + p % 8) / 8 = (p + b) / 8 := by omega
  have hbit : (b + p % 8) % 8 = (p + b) % 8 := by omega
  rw [packedField, hp, Nat.testBit_mod_two_pow, decide_eq_true hb, Bool.true_and, Nat.testBit_div_two_pow,
    testBit_fieldLE bs _ (by omega), hbyte, hbit]

/-- The number whose little-endian bytes are the packed array. -/
def packedNat (w : Nat) (xs : List Nat) : Nat := xs.foldr (fun x acc => x % 2 ^ w + acc * 2 ^ w) 0

theorem packFields_eq (w : Nat) (xs : List Nat) : packFields w xs = natLE (packedLen w xs.length) (packedNat w xs) := rfl

/-- A number of fields has bit b of field i at bit i w + b. -/
theorem testBit_packedNat {w b : Nat} (hb : b < w) (xs : List Nat) (i : Nat) (hi : i < xs.length) :
    (packedNat w xs).testBit (i * w + b) = (xs[i]).testBit b := by
  induction xs generalizing i with
  | nil => exact absurd hi (Nat.not_lt_zero i)
  | cons x xs ih =>
    have hcons : packedNat w (x :: xs) = 2 ^ w * packedNat w xs + x % 2 ^ w := by
      rw [Nat.add_comm, Nat.mul_comm]; rfl
    rw [hcons, Nat.testBit_two_pow_mul_add _ (Nat.mod_lt x (Nat.two_pow_pos w))]
    cases i with
    | zero => simp [hb]
    | succ i =>
      have hrest : (i + 1) * w + b = i * w + b + w := by rw [Nat.succ_mul]; omega
      rw [hrest, if_neg (by omega), Nat.add_sub_cancel, ih i (Nat.lt_of_succ_lt_succ hi), List.getElem_cons_succ]

/-- A packed array has room for the bits of its fields. -/
theorem fields_le_packedLen (w n : Nat) : n * w ≤ 8 * packedLen w n := by
  unfold packedLen roundUp ceilDiv; omega

/-- Bit b of field i lies before the end of n fields. -/
theorem fieldBit_lt {w n i b : Nat} (hi : i < n) (hb : b < w) : i * w + b < n * w :=
  calc i * w + b < i * w + w := Nat.add_lt_add_left hb _
    _ = (i + 1) * w := (Nat.succ_mul i w).symm
    _ ≤ n * w := Nat.mul_le_mul_right w hi

/-- The packing places bit b of field i at bit i w + b of the array. -/
theorem getLsbD_packFields {w b : Nat} (hb : b < w) (xs : List Nat) {i : Nat} (hi : i < xs.length) :
    ((packFields w xs)[(i * w + b) / 8]?.getD 0).getLsbD ((i * w + b) % 8) = (xs[i]).testBit b := by
  have hroom : i * w + b < 8 * packedLen w xs.length := Nat.lt_of_lt_of_le (fieldBit_lt hi hb) (fields_le_packedLen w xs.length)
  rw [packFields_eq, getLsbD_natLE _ hroom, testBit_packedNat hb xs i hi]

/-- Settles O45: a field's bits through the little-endian bytes that hold them, the packing's through the number it writes. -/
theorem packedArrays : Obligations.PackedArrays := by
  unfold Obligations.PackedArrays
  refine ⟨?fieldBits, ?fieldBound, ?length, ?packedLength, ?packedBits⟩
  case fieldBits => exact fun bs w i b hb => testBit_packedField bs i hb
  case fieldBound => exact fun bs w i => Nat.mod_lt _ (Nat.two_pow_pos w)
  case length => exact fun w n => rfl
  case packedLength => exact fun w xs => natLE_length _ _
  case packedBits => exact fun w xs i b hi hb => getLsbD_packFields hb xs hi

end Sys2Proof.Machine
end

section
/-! Words of the column processor's instructions (06_column_processor.md): the round trip, and what decodes to nothing. -/

namespace Sys2Proof.Laws

/-! ## The round trip (R184 to R186) -/

/-- Settles O56: each instruction of the column processor by its own law, every other command because it has no word. -/
theorem wordsRoundTrip : Obligations.WordsRoundTrip := by
  intro i
  cases i with
  | add => apply CpWords.add | sub => apply CpWords.sub | mul => apply CpWords.mul | mulh => apply CpWords.mulh
  | mulhu => apply CpWords.mulhu | div => apply CpWords.div | divu => apply CpWords.divu | rem => apply CpWords.rem
  | remu => apply CpWords.remu | and => apply CpWords.and | or => apply CpWords.or | xor => apply CpWords.xor | shl => apply CpWords.shl
  | shr => apply CpWords.shr | sar => apply CpWords.sar | rotl => apply CpWords.rotl | slt => apply CpWords.slt
  | sltu => apply CpWords.sltu | min => apply CpWords.min | max => apply CpWords.max | minu => apply CpWords.minu
  | maxu => apply CpWords.maxu | clz => apply CpWords.clz | ctz => apply CpWords.ctz | popc => apply CpWords.popc
  | addo => apply CpWords.addo | subo => apply CpWords.subo | mulo => apply CpWords.mulo | sext => apply CpWords.sext
  | zext => apply CpWords.zext | addi => apply CpWords.addi | andi => apply CpWords.andi | ori => apply CpWords.ori
  | xori => apply CpWords.xori | shli => apply CpWords.shli | shri => apply CpWords.shri | sari => apply CpWords.sari
  | lui => apply CpWords.lui | slti => apply CpWords.slti | fadd => apply CpWords.fadd | fsub => apply CpWords.fsub
  | fmul => apply CpWords.fmul | fdiv => apply CpWords.fdiv | fsqrt => apply CpWords.fsqrt | fmin => apply CpWords.fmin
  | fmax => apply CpWords.fmax | feq => apply CpWords.feq | flt => apply CpWords.flt | fle => apply CpWords.fle
  | fcvti => apply CpWords.fcvti | fcvtf => apply CpWords.fcvtf | fcvtp => apply CpWords.fcvtp | fma => apply CpWords.fma
  | lb => apply CpWords.lb | lh => apply CpWords.lh | lw => apply CpWords.lw | ld => apply CpWords.ld | lbu => apply CpWords.lbu
  | lhu => apply CpWords.lhu | lwu => apply CpWords.lwu | sb => apply CpWords.sb | sh => apply CpWords.sh | sw => apply CpWords.sw
  | sd => apply CpWords.sd | beq => apply CpWords.beq | bne => apply CpWords.bne | blt => apply CpWords.blt | bge => apply CpWords.bge
  | bltu => apply CpWords.bltu | bgeu => apply CpWords.bgeu | jmp => apply CpWords.jmp | jal => apply CpWords.jal
  | vld => apply CpWords.vld | vlds => apply CpWords.vlds | vldx => apply CpWords.vldx | vldff => apply CpWords.vldff
  | vst => apply CpWords.vst | vsts => apply CpWords.vsts | vstx => apply CpWords.vstx | halt => apply CpWords.halt
  | fence => apply CpWords.fence | rdsr => apply CpWords.rdsr | wrsr => apply CpWords.wrsr | trap => apply CpWords.trap
  | jr => apply CpWords.jr | nop => apply CpWords.nop | dcz => apply CpWords.dcz | dcl => apply CpWords.dcl | dci => apply CpWords.dci
  | dcci => apply CpWords.dcci | dlock => apply CpWords.dlock | dunlock => apply CpWords.dunlock | rngc => apply CpWords.rngc
  | rngi => apply CpWords.rngi | rngci => apply CpWords.rngci | rngiIncludeLocked => apply CpWords.rngiIncludeLocked
  | rngciIncludeLocked => apply CpWords.rngciIncludeLocked | vcfg => apply CpWords.vcfg | vredsum => apply CpWords.vredsum
  | vredmin => apply CpWords.vredmin | vredmax => apply CpWords.vredmax | vredminu => apply CpWords.vredminu
  | vredmaxu => apply CpWords.vredmaxu | vfredsum => apply CpWords.vfredsum | vfredmin => apply CpWords.vfredmin
  | vfredmax => apply CpWords.vfredmax | vget => apply CpWords.vget | vins => apply CpWords.vins | viota => apply CpWords.viota
  | vcompress => apply CpWords.vcompress | vperm => apply CpWords.vperm | vslup => apply CpWords.vslup | vsldn => apply CpWords.vsldn
  | vadd => apply CpWords.vadd | vsub => apply CpWords.vsub | vmul => apply CpWords.vmul | vmulh => apply CpWords.vmulh
  | vmulhu => apply CpWords.vmulhu | vdiv => apply CpWords.vdiv | vdivu => apply CpWords.vdivu | vrem => apply CpWords.vrem
  | vremu => apply CpWords.vremu | vand => apply CpWords.vand | vor => apply CpWords.vor | vxor => apply CpWords.vxor
  | vshl => apply CpWords.vshl | vshr => apply CpWords.vshr | vsar => apply CpWords.vsar | vrotl => apply CpWords.vrotl
  | vmin => apply CpWords.vmin | vmax => apply CpWords.vmax | vminu => apply CpWords.vminu | vmaxu => apply CpWords.vmaxu
  | vadds => apply CpWords.vadds | vsubs => apply CpWords.vsubs | vaddsu => apply CpWords.vaddsu | vsubsu => apply CpWords.vsubsu
  | vaddo => apply CpWords.vaddo | vsubo => apply CpWords.vsubo | vmulo => apply CpWords.vmulo | vmv => apply CpWords.vmv
  | vmerge => apply CpWords.vmerge | vsexth => apply CpWords.vsexth | vzexth => apply CpWords.vzexth | vnarh => apply CpWords.vnarh
  | vpopc => apply CpWords.vpopc | vclz => apply CpWords.vclz | ceq => apply CpWords.ceq | cne => apply CpWords.cne
  | clt => apply CpWords.clt | cle => apply CpWords.cle | cgt => apply CpWords.cgt | cge => apply CpWords.cge
  | cltu => apply CpWords.cltu | cleu => apply CpWords.cleu | cgtu => apply CpWords.cgtu | cgeu => apply CpWords.cgeu
  | cfeq => apply CpWords.cfeq | cflt => apply CpWords.cflt | cfle => apply CpWords.cfle | cfun => apply CpWords.cfun
  | cftlt => apply CpWords.cftlt | vbeq => apply CpWords.vbeq | vbrng => apply CpWords.vbrng | vpat => apply CpWords.vpat
  | vpatm => apply CpWords.vpatm | vfadd => apply CpWords.vfadd | vfsub => apply CpWords.vfsub | vfmul => apply CpWords.vfmul
  | vfdiv => apply CpWords.vfdiv | vfsqrt => apply CpWords.vfsqrt | vfmin => apply CpWords.vfmin | vfmax => apply CpWords.vfmax
  | vfma => apply CpWords.vfma | vfnms => apply CpWords.vfnms | vfabs => apply CpWords.vfabs | vfneg => apply CpWords.vfneg
  | vcvtfi => apply CpWords.vcvtfi | vcvtif => apply CpWords.vcvtif | vcvtuf => apply CpWords.vcvtuf | vcvtds => apply CpWords.vcvtds
  | vcvtsd => apply CpWords.vcvtsd | vcmul => apply CpWords.vcmul | vcmulc => apply CpWords.vcmulc | vcmac => apply CpWords.vcmac
  | vcmacc => apply CpWords.vcmacc | vcadd => apply CpWords.vcadd | vcsub => apply CpWords.vcsub | vcabs2 => apply CpWords.vcabs2
  | vbfly => apply CpWords.vbfly | vgfmul => apply CpWords.vgfmul | vgfmac => apply CpWords.vgfmac | pand => apply CpWords.pand
  | por => apply CpWords.por | pxor => apply CpWords.pxor | pandn => apply CpWords.pandn | pnot => apply CpWords.pnot
  | pset => apply CpWords.pset | pclr => apply CpWords.pclr | pmov => apply CpWords.pmov | pcnt => apply CpWords.pcnt
  | pfirst => apply CpWords.pfirst | pfromg => apply CpWords.pfromg | pldb => apply CpWords.pldb | pstb => apply CpWords.pstb
  | _ => exact cpWords_none _ rfl

/-! ## Words that are no instruction (R185) -/

/-- The MAJOR of a word is its top six bits. -/
theorem splitWord_major (w : Word) : (splitWord w).major.toNat = (w >>> 26).toNat := by
  have hw : w.toNat >>> 26 < 2 ^ 6 := by rw [Nat.shiftRight_eq_div_pow]; omega
  rw [BitVec.toNat_ushiftRight]
  exact Nat.mod_eq_of_lt hw

/-- The predicate fields of a word join to its bits 10:6. -/
theorem splitWord_pe_pm (w : Word) : (splitWord w).pe ++ (splitWord w).pm = w.extractLsb' 6 5 := extract_join w 6 1 4

/-- A word without an instruction decodes to nothing. -/
theorem cpDecode_none {u : CpAt} {w : Word} (h : cpDecodeRaw u (splitWord w) = none) : cpDecode u w = none := by
  rw [cpDecode, h]

/-- What decodes keeps the fields that must be 0 at 0. -/
theorem cpDecode_fieldsOk {u : CpAt} {w : Word} {i : Instr} (h : cpDecode u w = some i) : cpFieldsOk i = true := by
  rw [cpDecode] at h
  split at h
  case h_2 => cases h
  case h_1 j _ =>
    obtain ⟨hok, hj⟩ := Option.ite_none_right_eq_some.1 h
    exact Option.some.inj hj ▸ hok

/-- In format SR the predicate fields must be 0. -/
theorem cpDecodeRaw_sr {u : CpAt} {f : WordFields} (hsr : isSR f.major.toNat = true) (hp : f.pe ++ f.pm ≠ (0 : BitVec 5)) :
    cpDecodeRaw u f = none := by
  have hfields : f.pe ≠ 0 ∨ f.pm ≠ 0 := by
    by_cases hpe : f.pe = 0
    · exact .inr fun hpm => hp (by rw [hpe, hpm]; rfl)
    · exact .inl hpe
  rw [cpDecodeRaw, if_pos (by simpa [hsr] using hfields)]

/-- Settles O54: a MAJOR of no table entry leaves the last arm of the decoder, and each kind of illegal field its own check. -/
theorem illegalWords : Obligations.IllegalWords := by
  unfold Obligations.IllegalWords
  refine ⟨?major, ?zero, ?predicate, ?fields⟩
  case major =>
    intro u w h
    apply cpDecode_none
    rw [← splitWord_major] at h
    generalize splitWord w = f at h
    unfold cpDecodeRaw
    split
    · rfl
    · split
      case h_49 => rfl
      all_goals exact absurd (by simp [*]) h
  case zero => exact fun u => rfl
  case predicate =>
    intro u w hmajor hfield
    rw [← splitWord_major] at hmajor
    have hsr : isSR (splitWord w).major.toNat = true := by simpa [isSR, or_assoc] using hmajor
    exact cpDecode_none (cpDecodeRaw_sr hsr (splitWord_pe_pm w ▸ hfield))
  case fields => exact fun u w i => cpDecode_fieldsOk

/-- Settles O55, word by word. -/
theorem instructionWords : Obligations.InstructionWords :=
  fun _ => ⟨rfl, rfl, rfl, rfl, rfl, rfl, rfl, rfl, rfl, rfl, rfl, rfl⟩

end Sys2Proof.Laws
end

section
/-! G, V and P registers of a column processor (06_column_processor.md): what a read gives after a write. -/

namespace Sys2Proof.Machine

/-! ## G registers (R178) -/

theorem Cp.rd_wr_self {c : Cp} {n : BitVec 5} (h : tableWf 0 c.g = true) (hn : n ≠ 0) (v : DWord) : (c.wr n v).rd n = v := by
  rw [Cp.wr, Cp.rd, if_neg hn, if_neg hn]
  exact look_put_self h

theorem Cp.rd_wr_ne (c : Cp) {n m : BitVec 5} (hm : m ≠ n) (v : DWord) : (c.wr n v).rd m = c.rd m := by
  unfold Cp.wr
  split
  case isTrue => rfl
  case isFalse =>
    have hreg : look 0 (put 0 c.g n.toNat v) m.toNat = look 0 c.g m.toNat := look_put_ne fun e => hm (BitVec.eq_of_toNat_eq e)
    rw [Cp.rd, Cp.rd, hreg]

/-- A write of a G register changes the G registers alone and keeps their table's form. -/
theorem Cp.wr_only (c : Cp) (n : BitVec 5) (v : DWord) :
    ∃ g, c.wr n v = { c with g := g } ∧ (tableWf 0 c.g = true → tableWf 0 g = true) := by
  unfold Cp.wr
  split
  case isTrue => exact ⟨c.g, rfl, id⟩
  case isFalse => exact ⟨_, rfl, put_wf⟩

/-- Settles O47: the registers are the entries of a table, G0 none of them. -/
theorem generalRegisters : Obligations.GeneralRegisters :=
  ⟨fun _ => rfl, fun _ _ => rfl, fun _ _ v h hn => Cp.rd_wr_self h hn v, fun c _ _ v hm => c.rd_wr_ne hm v, Cp.wr_only⟩

/-! ## Fields of a number -/

/-- The w bits from bit p on of a number, bit by bit. -/
theorem testBit_bits (r p : Nat) {w : Nat} (hw : 0 < w) (k : Nat) :
    (bits r (p + w - 1) p).testBit k = (decide (k < w) && r.testBit (p + k)) := by
  rw [bits, show p + w - 1 + 1 - p = w by omega, Nat.testBit_mod_two_pow, Nat.testBit_shiftRight]

/-- A number with its w bits from bit p on replaced has the new bits there and its own elsewhere. -/
theorem testBit_replaceBits (r p x : Nat) {w : Nat} (hw : 0 < w) (b : Nat) :
    (r - bits r (p + w - 1) p * 2 ^ p + x % 2 ^ w * 2 ^ p).testBit b =
      if p ≤ b ∧ b < p + w then x.testBit (b - p) else r.testBit b := by
  have hfield : bits r (p + w - 1) p = r / 2 ^ p % 2 ^ w := by
    rw [bits, show p + w - 1 + 1 - p = w by omega, Nat.shiftRight_eq_div_pow]
  have hsplit : 2 ^ p * (2 ^ w * (r / 2 ^ p / 2 ^ w) + r / 2 ^ p % 2 ^ w) + r % 2 ^ p = r := by
    rw [Nat.div_add_mod, Nat.div_add_mod]
  have hlow : r % 2 ^ p < 2 ^ p := Nat.mod_lt _ (Nat.two_pow_pos p)
  have hnew : r - bits r (p + w - 1) p * 2 ^ p + x % 2 ^ w * 2 ^ p =
      2 ^ p * (2 ^ w * (r / 2 ^ p / 2 ^ w) + x % 2 ^ w) + r % 2 ^ p := by
    rw [hfield]
    rw [Nat.mul_add] at hsplit ⊢
    rw [Nat.mul_comm _ (2 ^ p), Nat.mul_comm _ (2 ^ p)]
    omega
  rw [hnew, Nat.testBit_two_pow_mul_add _ hlow, Nat.testBit_two_pow_mul_add _ (Nat.mod_lt x (Nat.two_pow_pos w))]
  by_cases hb : b < p
  · rw [if_pos hb, if_neg (by omega), Nat.testBit_mod_two_pow, decide_eq_true hb, Bool.true_and]
  · rw [if_neg hb]
    by_cases hbw : b - p < w
    · rw [if_pos hbw, if_pos (by omega), Nat.testBit_mod_two_pow, decide_eq_true hbw, Bool.true_and]
    · rw [if_neg hbw, if_neg (by omega), Nat.testBit_div_two_pow, Nat.testBit_div_two_pow]
      congr 1
      omega

/-! ## Vector elements (R178, R181) -/

/-- A width of the hardware divides its VLEN, which a V register holds. -/
theorem vlen_elements {vlen w : Nat} (hv : vlen = 1024 ∨ vlen = 2048) (hw : w = 8 ∨ w = 16 ∨ w = 32 ∨ w = 64) :
    ∃ m, vlen = m * w ∧ 0 < w ∧ 0 < m ∧ m * w ≤ 2048 := by
  have hdvd : w ∣ vlen := by obtain rfl | rfl := hv <;> obtain rfl | rfl | rfl | rfl := hw <;> decide
  have hm : vlen / w * w = vlen := Nat.div_mul_cancel hdvd
  exact ⟨vlen / w, hm.symm, by omega, Nat.div_pos (by omega) (by omega), by omega⟩

/-- Bit k of element i stands in the element's register, in the element's place. -/
theorem Cp.testBit_velem (c : Cp) {m w : Nat} (hw : 0 < w) (n i k : Nat) :
    (c.velem (m * w) w n i).testBit k = (decide (k < w) && (look 0 c.v (n + i / m)).getLsbD (i % m * w + k)) := by
  rw [Cp.velem, Nat.mul_div_mul_right _ _ hw, Nat.mul_div_cancel _ hw, testBit_bits _ _ hw]
  rfl

/-- The registers after element i is written: its own bits in its place, every other bit as it was. -/
theorem Cp.getLsbD_setVelem (c : Cp) {m w : Nat} (hw : 0 < w) (hm : 0 < m) (hfit : m * w ≤ 2048) (hwf : tableWf 0 c.v = true)
    (n i x k b : Nat) :
    (look 0 (c.setVelem (m * w) w n i x).v k).getLsbD b =
      if k = n + i / m ∧ i % m * w ≤ b ∧ b < i % m * w + w then x.testBit (b - i % m * w) else (look 0 c.v k).getLsbD b := by
  have hplace : i % m * w + w ≤ m * w := by rw [← Nat.succ_mul]; exact Nat.mul_le_mul_right w (Nat.mod_lt i hm)
  simp only [Cp.setVelem, Nat.mul_div_mul_right _ _ hw, Nat.mul_div_cancel _ hw]
  by_cases hk : k = n + i / m
  · subst hk
    rw [look_put_self hwf, BitVec.getLsbD_ofNat, testBit_replaceBits _ _ _ hw]
    by_cases hb : i % m * w ≤ b ∧ b < i % m * w + w
    · rw [if_pos hb, if_pos ⟨rfl, hb⟩, decide_eq_true (by omega), Bool.true_and]
    · rw [if_neg hb, if_neg (fun h => hb h.2)]
      by_cases hreg : b < 2048
      · rw [decide_eq_true hreg, Bool.true_and]; rfl
      · rw [decide_eq_false hreg, Bool.false_and, BitVec.getLsbD_of_ge _ _ (by omega)]
  · rw [look_put_ne hk, if_neg fun h => hk h.1]

/-- The places of two elements in one register do not overlap. -/
theorem element_place_disjoint {i j w k : Nat} (hij : j ≠ i) (hk : k < w) : ¬ (i * w ≤ j * w + k ∧ j * w + k < i * w + w) := by
  intro ⟨hlow, hhigh⟩
  have hle : ∀ a b : Nat, a < b → a * w + w ≤ b * w := fun a b h => by rw [← Nat.succ_mul]; exact Nat.mul_le_mul_right w h
  rcases Nat.lt_or_gt_of_ne hij with h | h
  · have := hle _ _ h; omega
  · have := hle _ _ h; omega

/-- An element written gives the value's low bits, every other element what it gave before. -/
theorem Cp.velem_setVelem (c : Cp) {vlen w : Nat} (n i j x : Nat) (hv : vlen = 1024 ∨ vlen = 2048)
    (hwidth : w = 8 ∨ w = 16 ∨ w = 32 ∨ w = 64) (hwf : tableWf 0 c.v = true) :
    (c.setVelem vlen w n i x).velem vlen w n j = if j = i then x % 2 ^ w else c.velem vlen w n j := by
  obtain ⟨m, rfl, hw, hm, hfit⟩ := vlen_elements hv hwidth
  apply Nat.eq_of_testBit_eq
  intro k
  by_cases hij : j = i
  · subst hij
    rw [if_pos rfl, Nat.testBit_mod_two_pow, Cp.testBit_velem _ hw, c.getLsbD_setVelem hw hm hfit hwf]
    by_cases hk : k < w
    · rw [if_pos ⟨rfl, by omega, by omega⟩, Nat.add_sub_cancel_left]
    · rw [decide_eq_false hk, Bool.false_and, Bool.false_and]
  · rw [if_neg hij, Cp.testBit_velem _ hw, Cp.testBit_velem _ hw, c.getLsbD_setVelem hw hm hfit hwf]
    by_cases hk : k < w
    · have hplace : ¬ (n + j / m = n + i / m ∧ i % m * w ≤ j % m * w + k ∧ j % m * w + k < i % m * w + w) := by
        intro ⟨hreg, hover⟩
        have hmod : j % m ≠ i % m := fun e => hij (by
          rw [← Nat.div_add_mod j m, ← Nat.div_add_mod i m, e, Nat.add_left_cancel hreg])
        exact element_place_disjoint hmod hk hover
      rw [if_neg hplace]
    · rw [decide_eq_false hk, Bool.false_and, Bool.false_and]

/-! ## Elementwise results (R182) -/

/-- The active elements are the elements that are active. -/
theorem Cp.mem_actives (c : Cp) (vlen : Nat) (f : VFields) (i : Nat) : i ∈ c.actives vlen f ↔ c.active vlen f i = true := by
  rw [Cp.actives, List.mem_filter, List.mem_range]
  exact and_iff_right_of_imp fun h => of_decide_eq_true (Bool.and_eq_true_iff.1 h).1

/-- Elements written one after the other, each with its flags. -/
theorem Cp.velem_foldl_setVelem {vlen w : Nat} (hv : vlen = 1024 ∨ vlen = 2048) (hw : w = 8 ∨ w = 16 ∨ w = 32 ∨ w = 64) (n i : Nat)
    (val : Nat → Nat × KFlags) (l : List Nat) (c : Cp) (hwf : tableWf 0 c.v = true) :
    (l.foldl (fun (y : Cp) j => (y.setVelem vlen w n j (val j).1).flag (val j).2) c).velem vlen w n i =
      if i ∈ l then (val i).1 % 2 ^ w else c.velem vlen w n i := by
  induction l generalizing c with
  | nil => simp
  | cons j l ih =>
    have hstep : ((c.setVelem vlen w n j (val j).1).flag (val j).2).velem vlen w n i =
        if i = j then (val j).1 % 2 ^ w else c.velem vlen w n i := c.velem_setVelem n j i _ hv hw hwf
    rw [List.foldl_cons, ih _ (put_wf hwf), hstep]
    by_cases hij : i = j
    · simp [hij]
    · simp [hij]

/-- Elements written one after the other change the V registers and KSTAT alone. -/
theorem Cp.foldl_setVelem_only (vlen w n : Nat) (val : Nat → Nat × KFlags) (l : List Nat) (c : Cp) :
    ∃ v k, l.foldl (fun (y : Cp) j => (y.setVelem vlen w n j (val j).1).flag (val j).2) c = { c with v := v, kstat := k } := by
  induction l generalizing c with
  | nil => exact ⟨c.v, c.kstat, rfl⟩
  | cons j l ih =>
    obtain ⟨v, k, h⟩ := ih ((c.setVelem vlen w n j (val j).1).flag (val j).2)
    exact ⟨v, k, h⟩

/-- Settles O48: one element's write, then the fold over the active elements. -/
theorem vectorElements : Obligations.VectorElements := by
  unfold Obligations.VectorElements
  refine ⟨?element, ?elementwise, ?only⟩
  case element => exact fun c vlen w n i j x hv hw hwf => c.velem_setVelem n i j x hv hw hwf
  case elementwise =>
    intro c vlen w i f val hv hw hwf
    simp only [elemwise, Cp.velem_foldl_setVelem hv hw _ _ _ _ _ hwf, Cp.mem_actives]
  case only => exact fun c vlen w f val => Cp.foldl_setVelem_only vlen w _ val _ c

/-! ## Predicate elements (R178, R181, R182) -/

section
variable (c : Cp) {vlen : Nat} (hwf : tableWf 0 c.p = true) (n i : Nat)
include hwf

/-- The predicate registers after element i is written: its own bit in its place, every other bit as it was. -/
theorem Cp.getLsbD_setPelem (x : Bool) (k : Nat) {b : Nat} (hb : b < 256) :
    (look 0 (c.setPelem vlen n i x).p k).getLsbD b =
      if k = n + i / (vlen / 8) ∧ b = i % (vlen / 8) then x else (look 0 c.p k).getLsbD b := by
  by_cases hk : k = n + i / (vlen / 8)
  · subst hk
    have hmask : (BitVec.ofNat 256 (2 ^ (i % (vlen / 8)))).getLsbD b = decide (b = i % (vlen / 8)) := by
      rw [BitVec.getLsbD_ofNat, Nat.testBit_two_pow, decide_eq_true hb, Bool.true_and, decide_eq_decide]
      exact eq_comm
    simp only [Cp.setPelem, look_put_self hwf, true_and]
    cases x
    case true =>
      rw [if_pos rfl, BitVec.getLsbD_or, hmask]
      by_cases hbit : b = i % (vlen / 8) <;> simp [hbit]
    case false =>
      rw [if_neg Bool.false_ne_true, BitVec.getLsbD_and, BitVec.getLsbD_not, hmask]
      by_cases hbit : b = i % (vlen / 8) <;> simp [hbit, hb]
  · rw [if_neg fun h => hk h.1, Cp.setPelem, look_put_ne hk]

/-- A predicate element written is what it then reads, every other element reads as before. -/
theorem Cp.pelem_setPelem (hv : vlen = 1024 ∨ vlen = 2048) (j : Nat) (x : Bool) :
    (c.setPelem vlen n i x).pelem vlen n j = if j = i then x else c.pelem vlen n j := by
  have hlen : 0 < vlen / 8 ∧ vlen / 8 ≤ 256 := by omega
  have hmod : j % (vlen / 8) < vlen / 8 := Nat.mod_lt j hlen.1
  have hplace : (n + j / (vlen / 8) = n + i / (vlen / 8) ∧ j % (vlen / 8) = i % (vlen / 8)) ↔ j = i := by
    constructor
    · intro ⟨hreg, hbit⟩
      rw [← Nat.div_add_mod j (vlen / 8), ← Nat.div_add_mod i (vlen / 8), hbit, Nat.add_left_cancel hreg]
    · rintro rfl
      exact ⟨rfl, rfl⟩
  rw [Cp.pelem, Cp.getLsbD_setPelem c hwf n i x _ (by omega)]
  simp only [hplace]
  rfl

end

/-- Predicate elements written one after the other. -/
theorem Cp.pelem_foldl_setPelem {vlen : Nat} (hv : vlen = 1024 ∨ vlen = 2048) (n i : Nat) (val : Nat → Bool) (l : List Nat) (c : Cp)
    (hwf : tableWf 0 c.p = true) :
    (l.foldl (fun (x : Cp) j => x.setPelem vlen n j (val j)) c).pelem vlen n i = if i ∈ l then val i else c.pelem vlen n i := by
  induction l generalizing c with
  | nil => simp
  | cons j l ih =>
    rw [List.foldl_cons, ih _ (put_wf hwf), Cp.pelem_setPelem c hwf _ _ hv]
    by_cases hij : i = j
    · simp [hij]
    · simp [hij]

/-- Predicate elements written one after the other change the P registers alone. -/
theorem Cp.foldl_setPelem_only (vlen n : Nat) (val : Nat → Bool) (l : List Nat) (c : Cp) :
    ∃ p, l.foldl (fun (x : Cp) j => x.setPelem vlen n j (val j)) c = { c with p := p } := by
  induction l generalizing c with
  | nil => exact ⟨c.p, rfl⟩
  | cons j l ih =>
    obtain ⟨p, h⟩ := ih (c.setPelem vlen n j (val j))
    exact ⟨p, h⟩

/-- Settles O49: one element's write, then the fold over the group. -/
theorem predicateElements : Obligations.PredicateElements := by
  unfold Obligations.PredicateElements
  refine ⟨?element, ?only, ?beyond, ?inactive⟩
  case element =>
    intro c vlen n i val hv hwf hi
    rw [writePred, Cp.pelem_foldl_setPelem hv _ _ _ _ _ hwf, if_pos (List.mem_range.2 hi)]
  case only => exact fun c vlen n val => Cp.foldl_setPelem_only vlen n val _ c
  case beyond =>
    intro c vlen i f hi
    rw [Cp.active, decide_eq_false (Nat.not_lt.2 hi), Bool.false_and]
  case inactive =>
    intro c vlen i f hpe hp
    rw [Cp.active, hpe, hp]
    exact Bool.and_false _

end Sys2Proof.Machine
end

section
/-! Arithmetic of a column processor (06_column_processor.md): division and high products (R187), products in GF(2^8) (R190). -/

namespace Sys2Proof.Machine

/-! ## Division and high products (R187) -/

section
variable {w : Nat} (a b : BitVec w)

/-- A product and its operands' signed product have the same low bits. -/
theorem mul_eq_ofInt : a * b = BitVec.ofInt w (a.toInt * b.toInt) := by
  rw [BitVec.ofInt_mul, BitVec.ofInt_toInt, BitVec.ofInt_toInt]

/-- In the corner minimum / -1 the dividend is its own product with the divisor. -/
theorem mul_of_divCorner (hw : 0 < w) (h : divCorner a b = true) : a * b = a := by
  simp only [divCorner, Bool.and_eq_true, decide_eq_true_eq] at h
  have ha : a = BitVec.intMin w := BitVec.eq_of_toInt_eq (h.1.trans (BitVec.toInt_intMin_of_pos hw).symm)
  have hb : b = -1#w := by
    rw [BitVec.neg_one_eq_allOnes]
    exact BitVec.eq_of_toInt_eq (h.2.trans (by rw [BitVec.toInt_allOnes, if_pos hw]))
  rw [ha, hb, BitVec.mul_neg, BitVec.mul_one, BitVec.neg_intMin]

/-- Signed quotient and remainder give the dividend back. -/
theorem iDiv_mul_add_iRem (hw : 0 < w) : (iDiv a b).1 * b + (iRem a b).1 = a := by
  unfold iDiv iRem
  split
  case isTrue hb => simp
  case isFalse hb =>
    split
    case isTrue hcorner => simpa using mul_of_divCorner a b hw hcorner
    case isFalse hcorner =>
      calc BitVec.ofInt w (a.toInt.tdiv b.toInt) * b + BitVec.ofInt w (a.toInt.tmod b.toInt)
          = BitVec.ofInt w (a.toInt.tdiv b.toInt * b.toInt + a.toInt.tmod b.toInt) := by
            rw [BitVec.ofInt_add, BitVec.ofInt_mul, BitVec.ofInt_toInt]
        _ = a := by rw [Int.tdiv_mul_add_tmod, BitVec.ofInt_toInt]

/-- Unsigned quotient and remainder give the dividend back. -/
theorem iDivu_mul_add_iRemu : (iDivu a b).1 * b + (iRemu a b).1 = a := by
  unfold iDivu iRemu
  split
  case isTrue hb => simp
  case isFalse hb =>
    apply BitVec.eq_of_toNat_eq
    simp [BitVec.toNat_add, BitVec.toNat_mul, Nat.div_add_mod', Nat.mod_eq_of_lt a.isLt]

/-- Outside the corner the remainder is the one of the operands' numbers. -/
theorem toInt_iRem (hb : b ≠ 0) (hcorner : divCorner a b = false) : (iRem a b).1.toInt = a.toInt.tmod b.toInt := by
  have hw : 0 < w := Nat.pos_of_ne_zero fun h => hb (by subst h; exact Subsingleton.elim _ _)
  have hb0 : b.toInt ≠ 0 := fun h => hb (BitVec.eq_of_toInt_eq (h.trans BitVec.toInt_zero.symm))
  have hlt : (a.toInt.tmod b.toInt).natAbs < b.toInt.natAbs := by
    rw [Int.natAbs_tmod]
    exact Nat.mod_lt _ (Int.natAbs_pos.2 hb0)
  have hlo := BitVec.le_toInt b
  have hhi := BitVec.toInt_lt (x := b)
  rw [iRem, if_neg hb, if_neg (by simp [hcorner])]
  exact BitVec.toInt_ofInt_eq_self hw (by omega) (by omega)

/-- The remainder is smaller than the divisor and has the dividend's sign. -/
theorem iRem_bounds (hb : b ≠ 0) (hcorner : divCorner a b = false) :
    (iRem a b).1.toInt.natAbs < b.toInt.natAbs ∧ (0 ≤ a.toInt → 0 ≤ (iRem a b).1.toInt) ∧ (a.toInt ≤ 0 → (iRem a b).1.toInt ≤ 0) := by
  have hb0 : b.toInt ≠ 0 := fun h => hb (BitVec.eq_of_toInt_eq (h.trans BitVec.toInt_zero.symm))
  rw [toInt_iRem a b hb hcorner]
  refine ⟨?smaller, ?nonneg, ?nonpos⟩
  case smaller =>
    rw [Int.natAbs_tmod]
    exact Nat.mod_lt _ (Int.natAbs_pos.2 hb0)
  case nonneg => exact Int.tmod_nonneg _
  case nonpos =>
    intro ha
    have hneg : 0 ≤ (-a.toInt).tmod b.toInt := Int.tmod_nonneg _ (by omega)
    rw [Int.neg_tmod] at hneg
    omega

/-- The unsigned remainder is smaller than the divisor. -/
theorem iRemu_lt (hb : b ≠ 0) : (iRemu a b).1.toNat < b.toNat := by
  have hb0 : b.toNat ≠ 0 := fun h => hb (BitVec.eq_of_toNat_eq h)
  rw [iRemu, if_neg hb, BitVec.toNat_umod]
  exact Nat.mod_lt _ (Nat.pos_of_ne_zero hb0)

/-- The high half of a signed product is the quotient by 2^w of the whole. -/
theorem toInt_iMulh (hw : 0 < w) : (iMulh a b).1.toInt = a.toInt * b.toInt / (2 : Int) ^ w := by
  have hpos : (0 : Int) < 2 ^ w := Int.pow_pos (by decide)
  have hhalf : (2 : Int) ^ (w * 2 - 2) < 2 ^ (w - 1) * 2 ^ w :=
    lt_of_lt_of_eq (Int.pow_lt_pow_of_lt (by decide) (by omega)) (Int.pow_add 2 (w - 1) w)
  have hle : a.toInt * b.toInt ≤ 2 ^ (w * 2 - 2) := BitVec.toInt_mul_toInt_le
  have hge : -(2 ^ (w * 2 - 2)) ≤ a.toInt * b.toInt := BitVec.le_toInt_mul_toInt
  refine BitVec.toInt_ofInt_eq_self hw ?low ?high
  case low =>
    rw [Int.le_ediv_iff_mul_le hpos, Int.neg_mul]
    omega
  case high =>
    rw [Int.ediv_lt_iff_lt_mul hpos]
    omega

/-- High and low half are the whole signed product. -/
theorem toInt_mul_halves (hw : 0 < w) : a.toInt * b.toInt = (iMulh a b).1.toInt * 2 ^ w + (iMul a b).1.toNat := by
  have hlow : (((iMul a b).1.toNat : Nat) : Int) = a.toInt * b.toInt % 2 ^ w := by
    rw [iMul, plain, mul_eq_ofInt, BitVec.toNat_ofInt, Int.toNat_of_nonneg (Int.emod_nonneg _ (Int.natCast_ne_zero.2 (Nat.ne_of_gt (Nat.two_pow_pos w))))]
    push_cast
    rfl
  rw [toInt_iMulh a b hw, hlow, Int.ediv_mul_add_emod]

/-- High and low half are the whole unsigned product. -/
theorem toNat_mul_halves : a.toNat * b.toNat = (iMulhu a b).1.toNat * 2 ^ w + (iMul a b).1.toNat := by
  have hhigh : a.toNat * b.toNat / 2 ^ w < 2 ^ w := Nat.div_lt_of_lt_mul (Nat.mul_lt_mul'' a.isLt b.isLt)
  rw [iMulhu, iMul, plain, plain, BitVec.toNat_ofNat, Nat.mod_eq_of_lt hhigh, BitVec.toNat_mul, Nat.div_add_mod']

end

/-- Settles O50, law by law. -/
theorem divisionLaws : Obligations.DivisionLaws :=
  ⟨fun _ a b hw => ⟨iDiv_mul_add_iRem a b hw, iDivu_mul_add_iRemu a b⟩, fun _ => iRem_bounds, fun _ => iRemu_lt, fun _ => toInt_mul_halves,
    fun _ => toNat_mul_halves⟩

/-! ## Polynomial products over GF(2) (R190) -/

/-- The xor of the shifts of a that the low n bits of b select. -/
def shiftSum (n a b : Nat) : Nat := (List.range n).foldl (fun p i => if b.testBit i then p ^^^ a <<< i else p) 0

theorem polyMul_eq (a b : Nat) : polyMul a b = shiftSum 8 a b := rfl

theorem shiftSum_succ (n a b : Nat) :
    shiftSum (n + 1) a b = if b.testBit n then shiftSum n a b ^^^ a <<< n else shiftSum n a b := by
  rw [shiftSum, List.range_succ, List.foldl_append]
  rfl

/-- The first two terms of a sum exchanged. -/
theorem natXor_swap (x y z : Nat) : x ^^^ (y ^^^ z) = y ^^^ (x ^^^ z) := by
  rw [← Nat.xor_assoc, Nat.xor_comm x y, Nat.xor_assoc]

/-- The last two terms of a sum exchanged. -/
theorem natXor_swap_right (x y z : Nat) : x ^^^ y ^^^ z = x ^^^ z ^^^ y := by
  rw [Nat.xor_assoc, Nat.xor_assoc, Nat.xor_comm y]

/-- A term added to both summands is gone. -/
theorem natXor_cancel (x y z : Nat) : x ^^^ y = x ^^^ z ^^^ (y ^^^ z) := by
  rw [Nat.xor_assoc, natXor_swap z, Nat.xor_self, Nat.xor_zero]

theorem shiftSum_xor (n a p q : Nat) : shiftSum n a (p ^^^ q) = shiftSum n a p ^^^ shiftSum n a q := by
  induction n with
  | zero => exact (Nat.xor_self 0).symm
  | succ n ih =>
    rw [shiftSum_succ, shiftSum_succ, shiftSum_succ, ih, Nat.testBit_xor]
    cases p.testBit n <;> cases q.testBit n
    case false.false => rfl
    case false.true => exact Nat.xor_assoc ..
    case true.false => exact natXor_swap_right ..
    case true.true => exact natXor_cancel ..

theorem shiftSum_shiftLeft (n a q : Nat) : shiftSum (n + 1) a (q <<< 1) = shiftSum n a q <<< 1 := by
  induction n with
  | zero => rw [shiftSum_succ, if_neg (by simp)]; rfl
  | succ n ih =>
    have hbit : (q <<< 1).testBit (n + 1) = q.testBit n := by simp [Nat.testBit_shiftLeft]
    rw [shiftSum_succ (n + 1), hbit, ih, shiftSum_succ n a q]
    split
    · rw [Nat.shiftLeft_xor_distrib, ← Nat.shiftLeft_add]
    · rfl

/-- The multiple of a by 2 q is twice the multiple by q. -/
theorem polyMul_shiftLeft (a : Nat) {q : Nat} (hq : q < 128) : polyMul a (q <<< 1) = polyMul a q <<< 1 := by
  have hbit : q.testBit 7 = false := Nat.testBit_lt_two_pow hq
  rw [polyMul_eq, polyMul_eq, shiftSum_shiftLeft, shiftSum_succ 7 a q, hbit, if_neg Bool.false_ne_true]

/-! ## The field of 256 elements (R190) -/

/-- x is y less a multiple of 0x11D by a polynomial of fewer than k terms. -/
def GfReduced (k x y : Nat) : Prop := ∃ q < 2 ^ k, x = y ^^^ polyMul 0x11D q

theorem GfReduced.refl (k x : Nat) : GfReduced k x x := ⟨0, Nat.two_pow_pos k, (Nat.xor_zero x).symm⟩

/-- Sums of reduced elements are reduced. -/
theorem GfReduced.xor {k l x y x' y' : Nat} (h : GfReduced k x y) (h' : GfReduced l x' y') (hkl : k ≤ l) :
    GfReduced l (x ^^^ x') (y ^^^ y') := by
  obtain ⟨q, hq, rfl⟩ := h
  obtain ⟨q', hq', rfl⟩ := h'
  refine ⟨q ^^^ q', Nat.xor_lt_two_pow (Nat.lt_of_lt_of_le hq (Nat.pow_le_pow_right (by decide) hkl)) hq', ?_⟩
  rw [polyMul_eq _ (q ^^^ q'), shiftSum_xor, ← polyMul_eq, ← polyMul_eq, Nat.xor_assoc, Nat.xor_assoc]
  congr 1
  exact natXor_swap ..

/-- Twice a reduced element is the double, reduced. -/
theorem GfReduced.double {k x y : Nat} (h : GfReduced k x y) (hk : k ≤ 7) : GfReduced (k + 1) (gfDouble x) (y <<< 1) := by
  obtain ⟨q, hq, rfl⟩ := h
  have hq7 : q < 128 := Nat.lt_of_lt_of_le hq (Nat.pow_le_pow_right (n := 2) (by decide) hk)
  have htwice : GfReduced (k + 1) ((y ^^^ polyMul 0x11D q) <<< 1) (y <<< 1) :=
    ⟨q <<< 1, by rw [Nat.shiftLeft_eq, Nat.pow_succ]; omega, by rw [polyMul_shiftLeft _ hq7, Nat.shiftLeft_xor_distrib]⟩
  have hmod : GfReduced 1 0x11D 0 := ⟨1, by decide, by decide⟩
  have hmul : 2 * (y ^^^ polyMul 0x11D q) = (y ^^^ polyMul 0x11D q) <<< 1 := by
    rw [Nat.shiftLeft_eq, Nat.mul_comm, Nat.pow_one]
  unfold gfDouble
  rw [hmul]
  split
  case isTrue => exact htwice
  case isFalse =>
    have hsum := hmod.xor htwice (Nat.le_add_left 1 k)
    rwa [Nat.xor_comm, Nat.zero_xor] at hsum

/-- Twice a field element is a field element. -/
theorem gfDouble_lt {x : Nat} (h : x < 256) : gfDouble x < 256 := by
  unfold gfDouble
  split
  case isTrue => omega
  case isFalse hx =>
    have hbound : 2 * x ^^^ 0x11D < 2 ^ 9 := Nat.xor_lt_two_pow (by omega) (by decide)
    have htop : (2 * x).testBit 8 = true := by rw [Nat.testBit_eq_decide_div_mod_eq]; exact decide_eq_true (by omega)
    have hcleared : (2 * x ^^^ 0x11D).testBit 8 = false := by rw [Nat.testBit_xor, htop]; rfl
    rw [Nat.testBit_eq_decide_div_mod_eq] at hcleared
    have := of_decide_eq_false hcleared
    omega

/-- One step of the field's product: the shifted operand, and the sum so far. -/
def gfStep (b : Nat) (p : Nat × Nat) (i : Nat) : Nat × Nat := (gfDouble p.1, if b.testBit i then p.2 ^^^ p.1 else p.2)

/-- After n steps: the operand shifted n times and the sum of the shifts selected so far, both reduced. -/
theorem gfSteps {a : Nat} (ha : a < 256) (b : Nat) {n : Nat} (hn : n ≤ 8) :
    (((List.range n).foldl (gfStep b) (a, 0)).1 < 256 ∧ ((List.range n).foldl (gfStep b) (a, 0)).2 < 256) ∧
      GfReduced n ((List.range n).foldl (gfStep b) (a, 0)).1 (a <<< n) ∧
      GfReduced (n - 1) ((List.range n).foldl (gfStep b) (a, 0)).2 (shiftSum n a b) := by
  induction n with
  | zero => exact ⟨⟨ha, Nat.zero_lt_succ _⟩, .refl _ _, .refl _ _⟩
  | succ n ih =>
    rw [List.range_succ, List.foldl_append]
    generalize (List.range n).foldl (gfStep b) (a, 0) = p at ih
    obtain ⟨⟨hx, hy⟩, hshift, hsum⟩ := ih (by omega)
    have hdouble := hshift.double (by omega)
    rw [← Nat.shiftLeft_add] at hdouble
    simp only [List.foldl_cons, List.foldl_nil, gfStep, shiftSum_succ]
    split
    case isTrue => exact ⟨⟨gfDouble_lt hx, Nat.xor_lt_two_pow (n := 8) hy hx⟩, hdouble, hsum.xor hshift (Nat.sub_le n 1)⟩
    case isFalse =>
      refine ⟨⟨gfDouble_lt hx, hy⟩, hdouble, ?_⟩
      simpa using hsum.xor (.refl n 0) (Nat.sub_le n 1)

/-- The field's product is the polynomial product, reduced. -/
theorem gfMul_reduced {a : Nat} (ha : a < 256) (b : Nat) : gfMul a b < 256 ∧ GfReduced 7 (gfMul a b) (polyMul a b) := by
  have hsteps : gfMul a b = ((List.range 8).foldl (gfStep b) (a, 0)).2 := by rw [gfMul, Nat.mod_eq_of_lt ha]; rfl
  obtain ⟨⟨_, hlt⟩, _, hred⟩ := gfSteps ha b (Nat.le_refl 8)
  exact ⟨hsteps ▸ hlt, hsteps ▸ hred⟩

/-- Settles O46: the product by its eight steps, the instructions by `vecTri_onlySew`. -/
theorem fieldProducts : Obligations.FieldProducts := by
  unfold Obligations.FieldProducts
  refine ⟨?product, ?sample, ?instructions⟩
  case product => exact fun a b ha _ => gfMul_reduced ha b
  case sample => decide
  case instructions =>
    intro u f x s c he hc hw hok
    have hB : ∀ i, vecB s.vlen c f x i = if x then (c.rd f.b).toNat % 256 else c.velem s.vlen 8 f.b.toNat i := by
      intro i
      simp only [vecB, hw, Nat.reducePow]
    rw [exec_vgfmul, exec_vgfmac, execVgfmul, execVgfmac, vecTri_onlySew _ u f x s c he hc hw hok, vecTri_onlySew _ u f x s c he hc hw hok, hw]
    simp only [hB, and_self]

end Sys2Proof.Machine
end

section
/-! Scalar instructions of a column processor (06_column_processor.md): what they complete with, and the fetch beyond the code. -/

namespace Sys2Proof.Machine

/-! ## Instructions that run (R185, R197, R200) -/

section
variable {u : CpAt} {s : State}

/-- A fetch at or beyond CODE_LEN fails the kernel, whatever the instruction (R200). -/
theorem cpRun_beyond (hruns : s.cpRuns u = true) (hpc : (s.cpOf u.tile u.cp).env.codeLen ≤ (s.cpOf u.tile u.cp).pc.toNat)
    (k : Cp → Tile → CpRes) : cpRun s u k = .next (s.kernelFail u 0x0464 0) := by
  rw [cpRun, if_pos hruns]
  exact if_pos hpc

/-- The same of a vector instruction. -/
theorem cpRunV_beyond (hruns : s.cpRuns u = true) (hpc : (s.cpOf u.tile u.cp).env.codeLen ≤ (s.cpOf u.tile u.cp).pc.toNat)
    (k : Cp → Tile → CpRes) : cpRunV s u k = .next (s.kernelFail u 0x0464 0) := by
  rw [cpRunV, if_pos hruns]
  exact if_pos hpc

variable {c : Cp} (he : s.executes u = true) (hc : s.cpOf u.tile u.cp = c) {k : Cp → Tile → CpRes}
include he hc

/-- An instruction whose checks let it go on leaves its CP and its tile so. -/
theorem cpRun_completes {y : Cp} {t : Tile} (hk : k c (s.tile u.tile) = .go y t) : cpRun s u k = .next (s.withCp u y t) := by
  subst hc
  rw [cpRun_executes he, hk]
  rfl

/-- An instruction that a check stops fails its kernel. -/
theorem cpRun_fails {code addr : Nat} {y : Cp} {t : Tile} (hk : k c (s.tile u.tile) = .fail code addr y t) :
    cpRun s u k = .next ((s.withCp u y t).kernelFail u code addr) := by
  subst hc
  rw [cpRun_executes he, hk]
  rfl

end

/-- Settles O43: each of these instructions begins with the fetch. -/
theorem fetchBeyondCode : Obligations.FetchBeyondCode := by
  intro u s hruns hpc
  have hscalar := cpRun_beyond hruns hpc
  have hvector := cpRunV_beyond hruns hpc
  refine ⟨fun d a b => ?_, fun d a imm => ?_, fun f x => ?_, ?_⟩
  · simp only [exec_add, execAdd, exec_div, execDiv, scalarInt, exec_sext, execSext, cpStep, exec_dlock, execDlock, exec_rngci, execRngci,
      rangeOp, exec_wrsr, execWrsr, exec_jr, execJr, exec_trap, execTrap, hscalar, and_self]
  · simp only [exec_addi, execAddi, scalarImm, cpStep, exec_lw, execLw, loadG, exec_sd, execSd, exec_beq, execBeq, branchIf, exec_vcfg,
      execVcfg, hscalar, and_self]
  · simp only [exec_vadd, execVadd, vecBin, exec_ceq, execCeq, vecCmp, exec_vld, execVld, vecLoad, exec_vredsum, execVredsum, vecRed,
      exec_pand, execPand, predLogic, exec_vfadd, execVfadd, vecTri, hvector, and_self]
  · simp only [exec_nop, execNop, cpStep, exec_fence, execFence, hscalar, and_self]

/-! ## Integer instructions (R186, R187) -/

section
variable (u : CpAt) (d a b : BitVec 5) (s : State) (c : Cp) (he : s.executes u = true) (hc : s.cpOf u.tile u.cp = c)
include he hc

/-- An instruction on G[A] and G[B] writes its result and sets its flags. -/
theorem scalarInt_completes {op : DWord → DWord → DWord × KFlags} {v : DWord} {f : KFlags} (h : op (c.rd a) (c.rd b) = (v, f)) :
    scalarInt op u d a b s = .next (s.stepCp u (c.result d v f)) := by
  refine (cpStep_completes he hc _).trans ?_
  simp only [h]
  rfl

/-- An instruction without flags writes its result alone. -/
theorem scalarInt_plain (op : DWord → DWord → DWord) :
    scalarInt (fun x y => plain (op x y)) u d a b s = .next (s.stepCp u (c.wr d (op (c.rd a) (c.rd b)))) := by
  rw [scalarInt_completes (op := fun x y => plain (op x y)) u d a b s c he hc rfl, Cp.result, BitVec.ofNat_eq_ofNat, Cp.flag_zero]

/-- An instruction that sets no flag on its operands writes its result alone. -/
theorem scalarInt_unflagged {op : DWord → DWord → DWord × KFlags} {v : DWord} (h : op (c.rd a) (c.rd b) = (v, 0)) :
    scalarInt op u d a b s = .next (s.stepCp u (c.wr d v)) := by
  rw [scalarInt_completes u d a b s c he hc h, Cp.result, BitVec.ofNat_eq_ofNat, Cp.flag_zero]

/-- An instruction on G[A] and an immediate, without flags. -/
theorem scalarImm_plain (op : DWord → DWord → DWord) (imm : DWord) :
    scalarImm (fun x y => plain (op x y)) imm u d a s = .next (s.stepCp u (c.wr d (op (c.rd a) imm))) := by
  refine (cpStep_completes he hc _).trans ?_
  simp only [plain, BitVec.ofNat_eq_ofNat, Cp.flag_zero]

end

/-! ### Division (R187) -/

theorem divCorner_iff (x y : DWord) : divCorner x y = true ↔ x.toInt = -(2 : Int) ^ 63 ∧ y.toInt = -1 := by
  simp [divCorner]

theorem ne_zero_of_toInt_neg {y : DWord} (h : y.toInt = -1) : y ≠ 0 := by
  rintro rfl
  cases h

theorem iDiv_corner {x y : DWord} (h : x.toInt = -(2 : Int) ^ 63 ∧ y.toInt = -1) : iDiv x y = (x, 0x02) := by
  rw [iDiv, if_neg (ne_zero_of_toInt_neg h.2), if_pos ((divCorner_iff x y).2 h)]
  rfl

theorem iDiv_regular {x y : DWord} (hy : y ≠ 0) (h : ¬ (x.toInt = -(2 : Int) ^ 63 ∧ y.toInt = -1)) :
    iDiv x y = (BitVec.ofInt 64 (x.toInt.tdiv y.toInt), 0) := by
  rw [iDiv, if_neg hy, if_neg fun e => h ((divCorner_iff x y).1 e)]

theorem iRem_corner {x y : DWord} (h : x.toInt = -(2 : Int) ^ 63 ∧ y.toInt = -1) : iRem x y = (0, 0x02) := by
  rw [iRem, if_neg (ne_zero_of_toInt_neg h.2), if_pos ((divCorner_iff x y).2 h)]
  rfl

theorem iRem_regular {x y : DWord} (hy : y ≠ 0) (h : ¬ (x.toInt = -(2 : Int) ^ 63 ∧ y.toInt = -1)) :
    iRem x y = (BitVec.ofInt 64 (x.toInt.tmod y.toInt), 0) := by
  rw [iRem, if_neg hy, if_neg fun e => h ((divCorner_iff x y).1 e)]

/-! ### Checked forms (R187) -/

theorem fitsS_iff (z : Int) : fitsS 64 z = true ↔ -(2 : Int) ^ 63 ≤ z ∧ z < (2 : Int) ^ 63 := by
  simp [fitsS]

/-- A checked result that fits sets no flag. -/
theorem checked_fits {z : Int} {v : DWord} (hv : BitVec.ofInt 64 z = v) (h : -(2 : Int) ^ 63 ≤ z ∧ z < (2 : Int) ^ 63) :
    checked 64 z = (v, 0) := by
  rw [checked, hv, (fitsS_iff z).2 h]
  rfl

/-- A checked result that does not fit sets OV. -/
theorem checked_overflows {z : Int} {v : DWord} (hv : BitVec.ofInt 64 z = v) (h : ¬ (-(2 : Int) ^ 63 ≤ z ∧ z < (2 : Int) ^ 63)) :
    checked 64 z = (v, 0x02) := by
  rw [checked, hv, Bool.eq_false_iff.2 fun e => h ((fitsS_iff z).1 e)]
  rfl

/-- A wrapped sum is the sum of the signed numbers. -/
theorem ofInt_add_toInt (x y : DWord) : BitVec.ofInt 64 (x.toInt + y.toInt) = x + y := by
  rw [BitVec.ofInt_add, BitVec.ofInt_toInt, BitVec.ofInt_toInt]

/-- A wrapped difference is the difference of the signed numbers. -/
theorem ofInt_sub_toInt (x y : DWord) : BitVec.ofInt 64 (x.toInt - y.toInt) = x - y := by
  rw [Int.sub_eq_add_neg, BitVec.ofInt_add, BitVec.ofInt_neg, BitVec.ofInt_toInt, BitVec.ofInt_toInt, BitVec.sub_eq_add_neg]

/-! ### SEXT and ZEXT (R186) -/

theorem extendBits_open (signed : Bool) (x : DWord) {code : BitVec 5} (h : 3 ≤ code.toNat) :
    extendBits signed x code = Config.extendCode signed x code := if_pos h

/-- Settles O26, instruction by instruction. -/
theorem scalarIntegerCompletes : Obligations.ScalarIntegerCompletes := by
  unfold Obligations.ScalarIntegerCompletes
  simp only [exec_add, exec_sub, exec_mul, exec_mulh, exec_mulhu, exec_div, exec_divu, exec_rem, exec_remu, exec_and, exec_or, exec_xor,
    exec_shl, exec_shr, exec_sar, exec_rotl, exec_slt, exec_sltu, exec_min, exec_max, exec_minu, exec_maxu, exec_clz, exec_ctz, exec_popc,
    exec_addo, exec_subo, exec_mulo, exec_sext, exec_zext]
  refine ⟨?add, ?sub, ?mul, ?mulh, ?mulhu, ?divZero, ?divCorner, ?div, ?divuZero, ?divu, ?remZero, ?remCorner, ?rem, ?remuZero, ?remu,
    ?and, ?or, ?xor, ?shl, ?shr, ?sar, ?rotl, ?slt, ?sltu, ?min, ?max, ?minu, ?maxu, ?clz, ?ctz, ?popc, ?addo, ?addoOver, ?subo,
    ?suboOver, ?mulo, ?muloOver, ?sext8, ?sext16, ?sext32, ?sextOpen, ?zext8, ?zext16, ?zext32, ?zextOpen⟩
  case add => exact fun u d a b s c he hc => scalarInt_plain u d a b s c he hc fun x y => x + y
  case sub => exact fun u d a b s c he hc => scalarInt_plain u d a b s c he hc fun x y => x - y
  case mul => exact fun u d a b s c he hc => scalarInt_plain u d a b s c he hc fun x y => x * y
  case mulh =>
    exact fun u d a b s c he hc => scalarInt_plain u d a b s c he hc fun x y => BitVec.ofInt 64 (x.toInt * y.toInt / (2 : Int) ^ 64)
  case mulhu =>
    exact fun u d a b s c he hc => scalarInt_plain u d a b s c he hc fun x y => BitVec.ofNat 64 (x.toNat * y.toNat / 2 ^ 64)
  case divZero => exact fun u d a b s c he hc h => scalarInt_completes u d a b s c he hc (if_pos h)
  case divCorner => exact fun u d a b s c he hc h => scalarInt_completes u d a b s c he hc (iDiv_corner h)
  case div => exact fun u d a b s c he hc h hcorner => scalarInt_unflagged u d a b s c he hc (iDiv_regular h hcorner)
  case divuZero => exact fun u d a b s c he hc h => scalarInt_completes u d a b s c he hc (if_pos h)
  case divu => exact fun u d a b s c he hc h => scalarInt_unflagged u d a b s c he hc (if_neg h)
  case remZero => exact fun u d a b s c he hc h => scalarInt_completes u d a b s c he hc (if_pos h)
  case remCorner => exact fun u d a b s c he hc h => scalarInt_completes u d a b s c he hc (iRem_corner h)
  case rem => exact fun u d a b s c he hc h hcorner => scalarInt_unflagged u d a b s c he hc (iRem_regular h hcorner)
  case remuZero => exact fun u d a b s c he hc h => scalarInt_completes u d a b s c he hc (if_pos h)
  case remu => exact fun u d a b s c he hc h => scalarInt_unflagged u d a b s c he hc (if_neg h)
  case and => exact fun u d a b s c he hc => scalarInt_plain u d a b s c he hc fun x y => x &&& y
  case or => exact fun u d a b s c he hc => scalarInt_plain u d a b s c he hc fun x y => x ||| y
  case xor => exact fun u d a b s c he hc => scalarInt_plain u d a b s c he hc fun x y => x ^^^ y
  case shl => exact fun u d a b s c he hc => scalarInt_plain u d a b s c he hc fun x y => x <<< (y.toNat % 64)
  case shr => exact fun u d a b s c he hc => scalarInt_plain u d a b s c he hc fun x y => x >>> (y.toNat % 64)
  case sar => exact fun u d a b s c he hc => scalarInt_plain u d a b s c he hc fun x y => x.sshiftRight (y.toNat % 64)
  case rotl => exact fun u d a b s c he hc => scalarInt_plain u d a b s c he hc fun x y => x.rotateLeft (y.toNat % 64)
  case slt => exact fun u d a b s c he hc => scalarInt_plain u d a b s c he hc fun x y => if x.slt y then 1 else 0
  case sltu => exact fun u d a b s c he hc => scalarInt_plain u d a b s c he hc fun x y => if x.ult y then 1 else 0
  case min => exact fun u d a b s c he hc => scalarInt_plain u d a b s c he hc fun x y => if y.slt x then y else x
  case max => exact fun u d a b s c he hc => scalarInt_plain u d a b s c he hc fun x y => if x.slt y then y else x
  case minu => exact fun u d a b s c he hc => scalarInt_plain u d a b s c he hc fun x y => if y.ult x then y else x
  case maxu => exact fun u d a b s c he hc => scalarInt_plain u d a b s c he hc fun x y => if x.ult y then y else x
  case clz => exact fun u d a s c he hc => scalarInt_plain u d a 0 s c he hc fun x _ => BitVec.ofNat 64 (clzN 64 x.toNat)
  case ctz => exact fun u d a s c he hc => scalarInt_plain u d a 0 s c he hc fun x _ => BitVec.ofNat 64 (ctzN 64 x.toNat)
  case popc => exact fun u d a s c he hc => scalarInt_plain u d a 0 s c he hc fun x _ => BitVec.ofNat 64 (popN 64 x.toNat)
  case addo =>
    exact fun u d a b s c he hc h => scalarInt_unflagged u d a b s c he hc (checked_fits (ofInt_add_toInt _ _) h)
  case addoOver =>
    exact fun u d a b s c he hc h => scalarInt_completes u d a b s c he hc (checked_overflows (ofInt_add_toInt _ _) h)
  case subo =>
    exact fun u d a b s c he hc h => scalarInt_unflagged u d a b s c he hc (checked_fits (ofInt_sub_toInt _ _) h)
  case suboOver =>
    exact fun u d a b s c he hc h => scalarInt_completes u d a b s c he hc (checked_overflows (ofInt_sub_toInt _ _) h)
  case mulo =>
    exact fun u d a b s c he hc h => scalarInt_unflagged u d a b s c he hc (checked_fits (mul_eq_ofInt _ _).symm h)
  case muloOver =>
    exact fun u d a b s c he hc h => scalarInt_completes u d a b s c he hc (checked_overflows (mul_eq_ofInt _ _).symm h)
  case sext8 | sext16 | sext32 | zext8 | zext16 | zext32 =>
    rintro u d a b s c he hc rfl
    exact cpStep_completes he hc _
  case sextOpen | zextOpen => exact fun u d a b s c he hc _ => ⟨_, cpStep_completes he hc _⟩

/-! ## Immediate instructions (R186) -/

/-- The count of a shift by a zero-extended immediate. -/
theorem shCount_setWidth (imm : BitVec 16) : shCount (imm.setWidth 64) = imm.toNat % 64 := by
  rw [shCount, BitVec.toNat_setWidth, Nat.mod_mod_of_dvd _ (by decide)]

/-- Settles O27, instruction by instruction. -/
theorem scalarImmediateCompletes : Obligations.ScalarImmediateCompletes := by
  unfold Obligations.ScalarImmediateCompletes
  simp only [exec_addi, exec_andi, exec_ori, exec_xori, exec_shli, exec_shri, exec_sari, exec_slti, exec_lui]
  refine ⟨?addi, ?andi, ?ori, ?xori, ?shli, ?shri, ?sari, ?slti, ?lui, ?luiIllegal⟩
  case addi => exact fun u d a imm s c he hc => scalarImm_plain u d a s c he hc (fun x y => x + y) _
  case andi => exact fun u d a imm s c he hc => scalarImm_plain u d a s c he hc (fun x y => x &&& y) _
  case ori => exact fun u d a imm s c he hc => scalarImm_plain u d a s c he hc (fun x y => x ||| y) _
  case xori => exact fun u d a imm s c he hc => scalarImm_plain u d a s c he hc (fun x y => x ^^^ y) _
  case shli =>
    intro u d a imm s c he hc
    rw [← shCount_setWidth]
    exact scalarImm_plain u d a s c he hc (fun x y => x <<< shCount y) _
  case shri =>
    intro u d a imm s c he hc
    rw [← shCount_setWidth]
    exact scalarImm_plain u d a s c he hc (fun x y => x >>> shCount y) _
  case sari =>
    intro u d a imm s c he hc
    rw [← shCount_setWidth]
    exact scalarImm_plain u d a s c he hc (fun x y => x.sshiftRight (shCount y)) _
  case slti => exact fun u d a imm s c he hc => scalarImm_plain u d a s c he hc (fun x y => if x.slt y then 1 else 0) _
  case lui => exact fun u d a imm s c he hc ha => cpRun_completes he hc (if_pos (decide_eq_true ha))
  case luiIllegal => exact fun u d a imm s c he hc ha => cpRun_fails he hc (if_neg fun h => ha (of_decide_eq_true h))

end Sys2Proof.Machine
end

section
/-! Branches, jumps and system instructions of a column processor (06_column_processor.md). -/

namespace Sys2Proof.Machine

/-! ## Branches (R186) -/

/-- A branch goes by its offset where its condition holds, and to the next instruction otherwise. -/
theorem branchIf_completes {taken : DWord → DWord → Bool} (u : CpAt) (a b : BitVec 5) (ofs : BitVec 16) (s : State) (c : Cp)
    (he : s.executes u = true) (hc : s.cpOf u.tile u.cp = c) {p : Prop} [Decidable p] (hp : taken (c.rd a) (c.rd b) = true ↔ p) :
    branchIf taken u a b ofs s = .next (s.withCp u { c with pc := if p then c.pc + ofs * 4 else c.pc + 4 } (s.tile u.tile)) := by
  refine cpRun_completes he hc ?_
  by_cases h : p
  · rw [if_pos h, if_pos (hp.2 h)]
  · rw [if_neg h, if_neg fun e => h (hp.1 e)]
    rfl

/-! ## The configuration and the special registers (R179, R180) -/

section
variable {u : CpAt} {s : State} {c : Cp} (he : s.executes u = true) (hc : s.cpOf u.tile u.cp = c)
include he hc

/-- RDSR of a register but CYCLE. -/
theorem execRdsr_completes (d : BitVec 5) {a : BitVec 5} {v : DWord} (hcycle : a ≠ 6)
    (hv : specialReg s.vlen u.cp c (s.tile u.tile) a.toNat = some v) : execRdsr u d a s = .next (s.stepCp u (c.wr d v)) := by
  rw [execRdsr, if_neg hcycle]
  refine cpRun_completes he hc ?_
  simp only [hv]

/-- RDSR of CYCLE gives a free value. -/
theorem execRdsr_cycle (d : BitVec 5) :
    execRdsr u d 6 s = .next ({ s with freeCtr := s.freeCtr + 1 }.stepCp u (c.wr d s.free.1)) := by
  have he' : State.executes { s with freeCtr := s.freeCtr + 1 } u = true := he
  rw [execRdsr, if_pos rfl]
  exact cpStep_completes he' hc _

/-- RDSR of a number that names no register fails the kernel. -/
theorem execRdsr_fails (d : BitVec 5) {a : BitVec 5} (ha : 8 ≤ a.toNat) :
    execRdsr u d a s = .next ((s.withCp u c (s.tile u.tile)).kernelFail u 0x0460 0) := by
  have hcycle : a ≠ 6 := by rintro rfl; exact absurd ha (by decide)
  have hnone : specialReg s.vlen u.cp c (s.tile u.tile) a.toNat = none := by
    unfold specialReg
    split
    case h_8 => rfl
    all_goals omega
  rw [execRdsr, if_neg hcycle]
  refine cpRun_fails he hc ?_
  simp only [hnone]

end

/-- RNGST: BUSY in bit 63, the lines skipped below (R179). -/
theorem rngst_value (busy : Bool) (n : BitVec 16) :
    BitVec.ofNat 64 (b2n busy * 2 ^ 63 + n.toNat) =
      if !busy then n.setWidth 64 else n.setWidth 64 ||| 0x8000000000000000 := by
  cases busy
  case false =>
    apply BitVec.eq_of_toNat_eq
    simp [b2n]
  case true =>
    have hn : n.toNat < 2 ^ 63 := by omega
    have hjoin := Nat.two_pow_add_eq_or_of_lt hn 1
    rw [Nat.mul_one, Nat.or_comm] at hjoin
    have hone : b2n true * 2 ^ 63 + n.toNat = 2 ^ 63 + n.toNat := congrArg (· + n.toNat) (Nat.one_mul _)
    apply BitVec.eq_of_toNat_eq
    rw [hone, hjoin, BitVec.toNat_ofNat, Nat.mod_eq_of_lt (hjoin ▸ (by omega : 2 ^ 63 + n.toNat < 2 ^ 64)), if_neg (by decide),
      BitVec.toNat_or, BitVec.toNat_setWidth, Nat.mod_eq_of_lt (by omega)]
    rfl

/-- A legal VCFG immediate: SEW in bits 1:0, the group in bits 3:2 (R180). -/
theorem vcfg_fields {imm : BitVec 16} (h : imm.toNat < 16) :
    (imm.setWidth 2).toNat = imm.toNat % 4 ∧ ((imm >>> 2).setWidth 2).toNat = imm.toNat / 4 := by
  constructor
  · simp
  · rw [BitVec.toNat_setWidth, BitVec.toNat_ushiftRight, Nat.shiftRight_eq_div_pow]
    omega

/-- The bits of a VCFG immediate that must be 0. -/
theorem bits_15_4 (imm : BitVec 16) : bits imm.toNat 15 4 = 0 ↔ imm.toNat < 16 := by
  have h := imm.isLt
  rw [bits, Nat.shiftRight_eq_div_pow]
  omega

/-! ## HALT (R203) -/

/-- HALT without a range operation of the CP halts it; the last CP's ends the kernel. -/
theorem execHalt_idle {u : CpAt} {s : State} {c : Cp} (he : s.executes u = true) (hc : s.cpOf u.tile u.cp = c)
    (hidle : s.rangeIdle u = true) :
    execHalt u s = .next (if ((s.withCp u { c with halted := true } (s.tile u.tile)).tile u.tile).kernel.isSome &&
        (List.range 4).all (fun k => ((s.withCp u { c with halted := true } (s.tile u.tile)).cpOf u.tile k).halted)
      then (s.withCp u { c with halted := true } (s.tile u.tile)).endKernel u.tile
      else s.withCp u { c with halted := true } (s.tile u.tile)) := by
  have hrun := cpRun_completes he hc (k := fun c t => if rangeBusy u.cp t then .wait else .go { c with halted := true } t)
    (if_neg (by simpa [State.rangeIdle] using hidle))
  rw [execHalt, hrun]

/-- Settles O29, instruction by instruction. -/
theorem kernelControlCompletes : Obligations.KernelControlCompletes := by
  unfold Obligations.KernelControlCompletes
  simp only [exec_beq, exec_bne, exec_blt, exec_bge, exec_bltu, exec_bgeu, exec_jmp, exec_jal, exec_jr, exec_nop, exec_vcfg, exec_rdsr,
    exec_wrsr, exec_fence, exec_halt, exec_trap, exec_illegalInstruction]
  refine ⟨?beq, ?bne, ?blt, ?bge, ?bltu, ?bgeu, ?jmp, ?jal, ?jr, ?jrLink, ?nop, ?vcfg, ?vcfgIllegal, ?vl, ?vcfgReg, ?vlenb, ?rix, ?kstat,
    ?rngst, ?cpix, ?cycle, ?rdsrIllegal, ?wrRix, ?wrKstat, ?wrsrIllegal, ?fence, ?halt, ?haltLast, ?trapZero, ?trap, ?illegal⟩
  case beq => exact fun u a b ofs s c he hc => branchIf_completes u a b ofs s c he hc decide_eq_true_iff
  case bne => exact fun u a b ofs s c he hc => branchIf_completes u a b ofs s c he hc decide_eq_true_iff
  case blt => exact fun u a b ofs s c he hc => branchIf_completes u a b ofs s c he hc Iff.rfl
  case bge => exact fun u a b ofs s c he hc => branchIf_completes u a b ofs s c he hc (Bool.not_eq_true' _).to_iff
  case bltu => exact fun u a b ofs s c he hc => branchIf_completes u a b ofs s c he hc Iff.rfl
  case bgeu => exact fun u a b ofs s c he hc => branchIf_completes u a b ofs s c he hc (Bool.not_eq_true' _).to_iff
  case jmp => exact fun u ofs s c he hc => cpRun_completes he hc rfl
  case jal => exact fun u ofs s c he hc => cpRun_completes he hc rfl
  case jr =>
    intro u d a s c he hc hda
    have hlink : (c.wr d ((c.pc + 4).setWidth 64)).rd a = c.rd a := by
      rcases hda with hne | rfl
      · exact c.rd_wr_ne (Ne.symm hne) _
      · rfl
    refine cpRun_completes he hc ?_
    simp only [hlink]
  case jrLink =>
    rintro u d a s c he hc rfl ⟨ha, hwf⟩
    refine cpRun_completes he hc ?_
    simp only [Cp.rd_wr_self hwf ha]
    rw [BitVec.setWidth_setWidth_of_le _ (by decide), BitVec.setWidth_eq]
  case nop => exact fun u s c he hc => cpStep_completes he hc _
  case vcfg =>
    intro u d a imm s c he hc himm
    obtain ⟨hsew, hgrp⟩ := vcfg_fields himm
    refine cpRun_completes he hc ?_
    rw [legal, if_pos (decide_eq_true ((bits_15_4 imm).2 himm))]
    simp only [vlmax, Cp.sewBits, Cp.grpN, hsew, hgrp]
  case vcfgIllegal =>
    intro u d a imm s c he hc himm
    exact cpRun_fails he hc (if_neg fun h => absurd ((bits_15_4 imm).1 (of_decide_eq_true h)) (Nat.not_lt.2 himm))
  case vl | vcfgReg | vlenb | rix | kstat | cpix =>
    rintro u d a s c he hc rfl
    exact execRdsr_completes he hc d (by decide) rfl
  case rngst =>
    rintro u d a s c he hc rfl
    rw [execRdsr_completes he hc d (by decide) rfl, rngst_value]
    rfl
  case cycle =>
    rintro u d a s c he hc rfl
    exact ⟨_, execRdsr_cycle he hc d⟩
  case rdsrIllegal => exact fun u d a s c he hc ha => execRdsr_fails he hc d ha
  case wrRix =>
    rintro u d a s c he hc rfl
    exact cpRun_completes he hc rfl
  case wrKstat =>
    rintro u d a s c he hc rfl
    exact cpRun_completes he hc rfl
  case wrsrIllegal =>
    rintro u d a s c he hc ⟨h3, h4⟩
    exact cpRun_fails he hc (by rw [if_neg h3, if_neg h4])
  case fence =>
    intro u s c he hc hidle
    exact cpRun_completes he hc (if_neg (by simpa [State.rangeIdle] using hidle))
  case halt =>
    rintro u s c he hc hidle ⟨hkernel, hwf⟩
    have htile : (s.withCp u { c with halted := true } (s.tile u.tile)).tile u.tile = s.tile u.tile := State.tile_setTile_self _ _ hwf
    rw [execHalt_idle he hc hidle, htile, hkernel]
    rfl
  case haltLast =>
    intro u s c he hc hidle hkernel hall
    rw [execHalt_idle he hc hidle, hkernel, hall]
    rfl
  case trapZero =>
    intro u a s c he hc h
    exact cpRun_fails he hc (if_pos h)
  case trap =>
    intro u a s c he hc h
    exact cpRun_fails he hc (if_neg h)
  case illegal =>
    intro u w s c he hc hw
    rw [execIllegalInstruction, hw]
    exact cpRun_fails he hc rfl

end Sys2Proof.Machine
end

section
/-! Loads and stores of a column processor (06_column_processor.md): what they fault with, and what they leave in memory. -/

namespace Sys2Proof.Machine

/-! ## Checks of an access (R194, R195, R197) -/

/-- An address beyond 32 bits, or one the CP may not reach, faults with 0x0461. -/
theorem accFault_forbidden {c : Cp} {a n align : Nat} {wr : Bool} (h : 2 ^ 32 ≤ a ∨ (if wr then c.mayWrite a n else c.mayRead a n) = false) :
    accFault c a n align wr = some 0x0461 := by
  refine if_pos ?_
  rw [Int.toNat_natCast]
  rcases h with hbeyond | hmay
  · rw [decide_eq_true (by omega : (2 : Int) ^ 32 ≤ a), Bool.or_true, Bool.true_or]
  · rw [hmay]
    exact Bool.or_true _

/-- An address that the CP may reach faults where it is misaligned, and nowhere else. -/
theorem accFault_reached {c : Cp} {a n align : Nat} {wr : Bool} (ha : a < 2 ^ 32) (h : (if wr then c.mayWrite a n else c.mayRead a n) = true) :
    accFault c a n align wr = if a % align ≠ 0 then some 0x0462 else none := by
  have hneg : decide ((a : Int) < 0) = false := decide_eq_false (by omega)
  have hbeyond : decide ((2 : Int) ^ 32 ≤ a) = false := decide_eq_false (by omega)
  rw [accFault, hneg, hbeyond, Int.toNat_natCast, h]
  rfl

/-! ## Scalar loads and stores (R186, R194, R195) -/

/-- The store of the low n bytes of G[D]: SB, SH, SW and SD are its instances (R186). -/
def storeG (n : Nat) (u : CpAt) (d a : BitVec 5) (imm : BitVec 16) (s : State) : Out1 :=
  cpRun s u fun c t => scalarStore u.cp c t (c.ea a imm) (natLE n (c.rd d).toNat)

theorem execSb_eq (u : CpAt) (d a : BitVec 5) (imm : BitVec 16) (s : State) : execSb u d a imm s = storeG 1 u d a imm s := rfl

theorem execSh_eq (u : CpAt) (d a : BitVec 5) (imm : BitVec 16) (s : State) : execSh u d a imm s = storeG 2 u d a imm s := rfl

theorem execSw_eq (u : CpAt) (d a : BitVec 5) (imm : BitVec 16) (s : State) : execSw u d a imm s = storeG 4 u d a imm s := rfl

theorem execSd_eq (u : CpAt) (d a : BitVec 5) (imm : BitVec 16) (s : State) : execSd u d a imm s = storeG 8 u d a imm s := rfl

section
variable {u : CpAt} {s : State} {c : Cp} (he : s.executes u = true) (hc : s.cpOf u.tile u.cp = c) (n : Nat) (signed : Bool)
  (d a : BitVec 5) (imm : BitVec 16)
include he hc

/-- A load that may go writes the bytes it reads, extended. -/
theorem loadG_completes {c1 : Cp} {bs : List Byte} {t1 : Tile} (hcan : s.canLoad u (c.rd a + imm.signExtend 64) n = true)
    (hread : cacheRead c (s.tile u.tile) (c.rd a + imm.signExtend 64).toNat n = (bs, c1, t1)) :
    loadG n signed u d a imm s = .next (s.withCp u (c1.wr d (if signed then (BitVec.ofNat (8 * n) (leNat bs)).signExtend 64
      else (BitVec.ofNat (8 * n) (leNat bs)).setWidth 64)).adv t1) := by
  subst hc
  simp only [State.canLoad, Bool.and_eq_true, Option.isNone_iff_eq_none, Bool.not_eq_true'] at hcan
  obtain ⟨⟨hfault, hstall⟩, hstaged⟩ := hcan
  refine cpRun_completes he rfl ?_
  simp only [scalarLoad, Cp.ea, hfault, hstall, hstaged, hread, Bool.false_eq_true, if_false]

/-- A load that faults fails the kernel. -/
theorem loadG_fails {e : Nat} (hfault : accFault c (c.rd a + imm.signExtend 64).toNat n n false = some e) :
    loadG n signed u d a imm s = .next ((s.withCp u c (s.tile u.tile)).kernelFail u e (c.rd a + imm.signExtend 64).toNat) := by
  refine cpRun_fails he hc ?_
  simp only [scalarLoad, Cp.ea, hfault]

/-- A load that misses staging stops its CP until the fill. -/
theorem loadG_misses {w : Nat} (hfault : accFault c (c.rd a + imm.signExtend 64).toNat n n false = none)
    (hstall : rangeStalls u.cp c (s.tile u.tile) (lineOf (c.rd a + imm.signExtend 64).toNat) 128 = false)
    (hstaged : unstaged (s.tile u.tile) (c.rd a + imm.signExtend 64).toNat = some w) :
    loadG n signed u d a imm s = .next (s.withCp u { c with staging := some w } (s.tile u.tile)) := by
  subst hc
  rw [loadG, cpRun_executes he]
  simp only [scalarLoad, Cp.ea, hfault, hstall, hstaged, Bool.false_eq_true, if_false]
  rfl

/-- A store that may go writes its bytes. -/
theorem storeG_completes {c1 : Cp} {t1 : Tile} (hcan : s.canStore u (c.rd a + imm.signExtend 64) n = true)
    (hwrite : cacheWrite c (s.tile u.tile) (c.rd a + imm.signExtend 64).toNat (natLE n (c.rd d).toNat) = (c1, t1)) :
    storeG n u d a imm s = .next (s.withCp u c1.adv t1) := by
  subst hc
  simp only [State.canStore, Bool.and_eq_true, Option.isNone_iff_eq_none, Bool.not_eq_true'] at hcan
  obtain ⟨hfault, hstall⟩ := hcan
  refine cpRun_completes he rfl ?_
  simp only [scalarStore, Cp.ea, natLE_length, hfault, hstall, hwrite, Bool.false_eq_true, if_false]

/-- A store that faults fails the kernel. -/
theorem storeG_fails {e : Nat} (hfault : accFault c (c.rd a + imm.signExtend 64).toNat n n true = some e) :
    storeG n u d a imm s = .next ((s.withCp u c (s.tile u.tile)).kernelFail u e (c.rd a + imm.signExtend 64).toNat) := by
  refine cpRun_fails he hc ?_
  simp only [scalarStore, Cp.ea, natLE_length, hfault]

/-- The faults of a load: permission before alignment, then staging. -/
theorem loadG_faults {ea : Nat} (hea : (c.rd a + imm.signExtend 64).toNat = ea) :
    (2 ^ 32 ≤ ea ∨ c.mayRead ea n = false →
        loadG n signed u d a imm s = .next ((s.withCp u c (s.tile u.tile)).kernelFail u 0x0461 ea)) ∧
      (ea < 2 ^ 32 → c.mayRead ea n = true → ea % n ≠ 0 →
        loadG n signed u d a imm s = .next ((s.withCp u c (s.tile u.tile)).kernelFail u 0x0462 ea)) ∧
      ∀ w, ea < 2 ^ 32 → c.mayRead ea n = true → ea % n = 0 → rangeStalls u.cp c (s.tile u.tile) (lineOf ea) 128 = false →
        unstaged (s.tile u.tile) ea = some w → loadG n signed u d a imm s = .next (s.withCp u { c with staging := some w } (s.tile u.tile)) := by
  subst hea
  refine ⟨?forbidden, ?misaligned, ?missing⟩
  case forbidden => exact fun h => loadG_fails he hc n signed d a imm (accFault_forbidden (wr := false) h)
  case misaligned => exact fun hlt hmay hmod => loadG_fails he hc n signed d a imm ((accFault_reached (wr := false) hlt hmay).trans (if_pos hmod))
  case missing =>
    exact fun w hlt hmay hmod => loadG_misses he hc n signed d a imm ((accFault_reached (wr := false) hlt hmay).trans (if_neg fun hne => hne hmod))

/-- The faults of a store: permission before alignment. -/
theorem storeG_faults {ea : Nat} (hea : (c.rd a + imm.signExtend 64).toNat = ea) :
    (2 ^ 32 ≤ ea ∨ c.mayWrite ea n = false →
        storeG n u d a imm s = .next ((s.withCp u c (s.tile u.tile)).kernelFail u 0x0461 ea)) ∧
      (ea < 2 ^ 32 → c.mayWrite ea n = true → ea % n ≠ 0 →
        storeG n u d a imm s = .next ((s.withCp u c (s.tile u.tile)).kernelFail u 0x0462 ea)) := by
  subst hea
  exact ⟨fun h => storeG_fails he hc n d a imm (accFault_forbidden (wr := true) h),
    fun hlt hmay hmod => storeG_fails he hc n d a imm ((accFault_reached (wr := true) hlt hmay).trans (if_pos hmod))⟩

end

/-- Settles O30, instruction by instruction. -/
theorem scalarMemoryCompletes : Obligations.ScalarMemoryCompletes := by
  unfold Obligations.ScalarMemoryCompletes
  simp only [exec_lb, exec_lh, exec_lw, exec_ld, exec_lbu, exec_lhu, exec_lwu, exec_sb, exec_sh, exec_sw, exec_sd, execSb_eq, execSh_eq,
    execSw_eq, execSd_eq]
  refine ⟨?lb, ?lh, ?lw, ?ld, ?lbu, ?lhu, ?lwu, ?sb, ?sh, ?sw, ?sd⟩
  case lb => exact fun u d a imm s c c1 bs t1 he hc => loadG_completes he hc 1 true d a imm
  case lh => exact fun u d a imm s c c1 bs t1 he hc => loadG_completes he hc 2 true d a imm
  case lw => exact fun u d a imm s c c1 bs t1 he hc => loadG_completes he hc 4 true d a imm
  case ld =>
    intro u d a imm s c c1 bs t1 he hc hcan hread
    rw [execLd, loadG_completes he hc 8 false d a imm hcan hread, if_neg Bool.false_ne_true, BitVec.setWidth_eq]
  case lbu => exact fun u d a imm s c c1 bs t1 he hc => loadG_completes he hc 1 false d a imm
  case lhu => exact fun u d a imm s c c1 bs t1 he hc => loadG_completes he hc 2 false d a imm
  case lwu => exact fun u d a imm s c c1 bs t1 he hc => loadG_completes he hc 4 false d a imm
  case sb => exact fun u d a imm s c c1 t1 he hc => storeG_completes he hc 1 d a imm
  case sh => exact fun u d a imm s c c1 t1 he hc => storeG_completes he hc 2 d a imm
  case sw => exact fun u d a imm s c c1 t1 he hc => storeG_completes he hc 4 d a imm
  case sd => exact fun u d a imm s c c1 t1 he hc => storeG_completes he hc 8 d a imm

/-! ## Accesses that fault (R195, R197) -/

/-- A vector access whose first element from RIX on faults stops there. -/
theorem vmemLoop_fails {cp w e j : Nat} {wr : Bool} {addr : Nat → Int} {one : Nat → Nat → Cp → Tile → Cp × Tile} {c : Cp}
    (hfault : accFault c (addr j) (w / 8) (w / 8) wr = some e) (js : List Nat) (t : Tile) :
    vmemLoop cp w wr addr one (j :: js) c t = .fail e (addr j).toNat { c with rix := BitVec.ofNat 16 j } t := by
  simp only [vmemLoop, hfault]

/-- A vector instruction that fails leaves its CP and its tile so and is not counted. -/
theorem cpRunV_failsAt {u : CpAt} {s : State} {c : Cp} (he : s.executes u = true) (hc : s.cpOf u.tile u.cp = c)
    {k : Cp → Tile → CpRes} {code addr : Nat} {y : Cp} {t : Tile} (hk : k c (s.tile u.tile) = .fail code addr y t) :
    cpRunV s u k = .next ((s.withCp u y t).kernelFail u code addr) := by
  subst hc
  rw [cpRunV_executes he, hk]
  rfl

/-- Settles O42: the checks of an access, in their order. -/
theorem accessFaults : Obligations.AccessFaults := by
  unfold Obligations.AccessFaults
  refine ⟨?scalar, ?vector⟩
  case scalar =>
    intro u d a imm s c ea he hc hea
    have load := fun n signed => loadG_faults he hc n signed d a imm hea
    have store := fun n => storeG_faults he hc n d a imm hea
    simp only [List.forall_mem_cons, exec_lb, exec_lh, exec_lw, exec_ld, exec_lbu, exec_lhu, exec_lwu, exec_sb, exec_sh, exec_sw, exec_sd,
      execSb_eq, execSh_eq, execSw_eq, execSd_eq]
    exact ⟨⟨load 1 true, load 2 true, load 4 true, load 8 false, load 1 false, load 2 false, load 4 false, List.forall_mem_nil _⟩,
      store 1, store 2, store 4, store 8, List.forall_mem_nil _⟩
  case vector =>
    intro u f s c j js e he hc hd hpm hpending hfault
    have hok : (c.vOk f.d.toNat && c.pmOk f) = true := by rw [hd, hpm]; rfl
    rw [exec_vld, execVld, vecLoad]
    refine cpRunV_failsAt he hc ?_
    rw [vecOk, if_pos hok, hpending, vmemLoop_fails (addr := fun i => wrap64 ((c.rd f.a).toNat + i * (c.sewBits / 8))) hfault]
    rfl

/-! ## Stores past the cache (R214) -/

/-- Byte k of a number's low n bytes. -/
theorem natLE_getD (v : Nat) {n k : Nat} (hk : k < n) : (natLE n v)[k]?.getD 0 = BitVec.ofNat 8 (v / 256 ^ k) := by
  induction n generalizing v k with
  | zero => exact absurd hk (Nat.not_lt_zero k)
  | succ n ih =>
    cases k with
    | zero => simp [natLE]
    | succ k =>
      rw [natLE, List.getElem?_cons_succ, ih _ (Nat.lt_of_succ_lt_succ hk), Nat.div_div_eq_div_mul, Nat.pow_succ', Nat.mul_comm]

/-- With the cache disabled a store leaves its CP as it was and puts its bytes into scratch. -/
theorem cacheWrite_uncached {c : Cp} (hcen : c.cen = false) (bs : List Byte) :
    ∀ (t : Tile) (a : Nat), Memory.wf t.scratch = true → (cacheWrite c t a bs).1 = c ∧
      ∀ k, memByte (cacheWrite c t a bs).2.scratch k = if a ≤ k ∧ k < a + bs.length then bs[k - a]?.getD 0 else memByte t.scratch k := by
  induction bs with
  | nil =>
    intro t a _
    exact ⟨rfl, fun k => (if_neg (by simp)).symm⟩
  | cons b bs ih =>
    intro t a hwf
    have hstep : cacheWr c t a b = (c, t.store a [b]) := if_pos (by rw [hcen]; rfl)
    obtain ⟨hcp, hbytes⟩ := ih (t.store a [b]) (a + 1) (memWrite_wf hwf)
    rw [cacheWrite, hstep]
    refine ⟨hcp, fun k => ?_⟩
    have hfirst : memByte (t.store a [b]).scratch k = if k = a then b else memByte t.scratch k := by
      refine (memByte_memWrite hwf).trans ?_
      by_cases hk : k = a
      · subst hk; simp
      · rw [if_neg hk, if_neg (by simp only [List.length_singleton]; omega)]
    rw [hbytes, hfirst, List.length_cons]
    by_cases hk : k = a
    · subst hk
      rw [if_neg (by omega), if_pos rfl, if_pos (by omega), Nat.sub_self]
      rfl
    · rw [if_neg hk]
      by_cases hin : a + 1 ≤ k ∧ k < a + 1 + bs.length
      · rw [if_pos hin, if_pos (by omega), show k - a = (k - (a + 1)) + 1 by omega, List.getElem?_cons_succ]
      · rw [if_neg hin, if_neg (by omega)]

/-- With the cache disabled a store of the low n bytes of G[D] puts them into its tile's scratch and leaves every other byte. -/
theorem storeG_uncached {u : CpAt} {s : State} {c : Cp} {ea : Nat} (he : s.executes u = true) (hc : s.cpOf u.tile u.cp = c)
    (hcen : c.cen = false) (d a : BitVec 5) (imm : BitVec 16) (hea : (c.rd a + imm.signExtend 64).toNat = ea)
    (htiles : tableWf {} s.tiles = true) (hwf : Memory.wf (s.tile u.tile).scratch = true) (n : Nat)
    (hcan : s.canStore u (c.rd a + imm.signExtend 64) n = true) :
    ∃ t, storeG n u d a imm s = .next t ∧
      (∀ b, ea ≤ b → b < ea + n → memByte (t.tile u.tile).scratch b = BitVec.ofNat 8 ((c.rd d).toNat / 256 ^ (b - ea))) ∧
      (∀ b, b < ea ∨ ea + n ≤ b → memByte (t.tile u.tile).scratch b = memByte (s.tile u.tile).scratch b) ∧
      (∀ k, k ≠ u.tile → t.tile k = s.tile k) ∧ t = s.withCp u c.adv (t.tile u.tile) := by
  subst hea
  obtain ⟨hcp, hbytes⟩ := cacheWrite_uncached hcen (natLE n (c.rd d).toNat) (s.tile u.tile) (c.rd a + imm.signExtend 64).toNat hwf
  generalize hwrite : cacheWrite c (s.tile u.tile) (c.rd a + imm.signExtend 64).toNat (natLE n (c.rd d).toNat) = r at hcp hbytes
  obtain ⟨c1, t1⟩ := r
  obtain rfl : c1 = c := hcp
  have htile : (s.withCp u c1.adv t1).tile u.tile = t1 := State.tile_setTile_self _ _ htiles
  rw [natLE_length] at hbytes
  refine ⟨s.withCp u c1.adv t1, storeG_completes he hc n d a imm hcan hwrite, ?stored, ?others, ?tiles, ?state⟩
  case stored =>
    intro b hlo hhi
    rw [htile, hbytes, if_pos ⟨hlo, hhi⟩, natLE_getD _ (by omega)]
  case others =>
    intro b hb
    rw [htile, hbytes, if_neg (by omega)]
  case tiles =>
    intro k hk
    exact (State.tile_setTile_ne _ _ hk).trans (State.tile_setCp ..)
  case state => rw [htile]

/-- Settles O51, store by store. -/
theorem uncachedStores : Obligations.UncachedStores := by
  intro u d a imm s c ea he hc hcen hea htiles hwf
  simp only [List.forall_mem_cons, exec_sb, exec_sh, exec_sw, exec_sd, execSb_eq, execSh_eq, execSw_eq, execSd_eq]
  have store := storeG_uncached he hc hcen d a imm hea htiles hwf
  exact ⟨store 1, store 2, store 4, store 8, List.forall_mem_nil _⟩

/-! ## Stores into the cache (R196, R208) -/

/-- What a CP with its cache enabled reads at an address: the byte of the line held, or what stands below the cache. -/
def Cp.held (c : Cp) (t : Tile) (a : Nat) : Byte :=
  match c.line? a with
  | some l => nth l.data (a % 128) 0
  | none => backing c t a

theorem nth_setNth {α : Type} (d y : α) (l : List α) (i j : Nat) (hi : i < l.length) :
    nth (setNth l i y) j d = if j = i then y else nth l j d := by
  induction l generalizing i j with
  | nil => exact absurd hi (Nat.not_lt_zero i)
  | cons x l ih =>
    cases i with
    | zero => cases j <;> rfl
    | succ i =>
      cases j with
      | zero => rfl
      | succ j => simpa [nth, setNth] using ih i j (Nat.lt_of_succ_lt_succ hi)

/-- With room for a line, a fetch puts the line of an address in front, with the bytes that were read there, and every other line is
found as before. -/
theorem fetchLine_front {c : Cp} (t : Tile) (a : Nat) (hroom : c.cache.length < 48) :
    ∃ l rest, fetchLine c t a = ({ c with cache := l :: rest }, t) ∧ l.addr = lineOf a ∧ rest.length ≤ c.cache.length ∧
      ((∀ x ∈ c.cache, x.data.length = 128) → l.data.length = 128) ∧
      (∀ k, lineOf k = lineOf a → nth l.data (k % 128) 0 = c.held t k) ∧
      ∀ k, lineOf k ≠ lineOf a → (rest.find? fun x => x.addr = lineOf k) = c.line? k := by
  cases hl : c.line? a with
  | some l =>
    have haddr : l.addr = lineOf a := by simpa using List.find?_some hl
    refine ⟨l, c.cache.filter fun x => x.addr ≠ l.addr, by simp only [fetchLine, hl], haddr, List.length_filter_le _ _,
      fun hdata => hdata l (List.mem_of_find?_eq_some hl), ?same, ?other⟩
    case same =>
      intro k hk
      have hline : c.line? k = some l := by rw [Cp.line?, hk]; exact hl
      rw [Cp.held, hline]
    case other =>
      intro k hk
      rw [Cp.line?, List.find?_filter]
      congr 1
      funext x
      by_cases hx : x.addr = lineOf k
      · simp [hx, haddr, hk]
      · simp [hx]
  | none =>
    have hmake : makeRoom c t = (c, t) := if_pos hroom
    refine ⟨{ addr := lineOf a, data := (List.range 128).map fun i => backing c t (lineOf a + i), dirty := false, locked := false }, c.cache,
      by simp only [fetchLine, hl, hmake], rfl, Nat.le_refl _, fun _ => ?full, ?same, fun _ _ => rfl⟩
    case full => rw [List.length_map, List.length_range]
    case same =>
      intro k hk
      have hline : c.line? k = none := by rw [Cp.line?, hk]; exact hl
      have hplace : lineOf a + k % 128 = k := by rw [← hk, lineOf]; omega
      have hlt : k % 128 < 128 := Nat.mod_lt k (by decide)
      rw [Cp.held, hline, nth, List.getElem?_map, List.getElem?_range hlt]
      exact congrArg (backing c t) hplace

/-- A read through the cache gives the byte held. -/
theorem cacheRd_held {c : Cp} (t : Tile) (a : Nat) (hcen : c.cen = true) (hroom : c.cache.length < 48) :
    (cacheRd c t a).1 = c.held t a := by
  obtain ⟨l, rest, hfetch, haddr, _, _, hsame, _⟩ := fetchLine_front t a hroom
  have hfound : Cp.line? { c with cache := l :: rest } a = some l := by simp [Cp.line?, haddr]
  rw [cacheRd, hcen, if_neg (by decide), hfetch]
  simp only [hfound]
  exact hsame a rfl

/-- A line with its byte i replaced, dirty now. -/
def CacheLine.putByte (l : CacheLine) (i : Nat) (b : Byte) : CacheLine := { l with data := setNth l.data i b, dirty := true }

/-- An update of a line in place, which keeps its address, is seen where that line is found. -/
theorem Cp.line?_updLine (c : Cp) (a k : Nat) (f : CacheLine → CacheLine) (hf : ∀ l, (f l).addr = l.addr) :
    (c.updLine a f).line? k = (c.line? k).map fun l => if l.addr = lineOf a then f l else l := by
  have hkeeps : ∀ l : CacheLine, (if l.addr = lineOf a then f l else l).addr = l.addr := by
    intro l
    split
    · exact hf l
    · rfl
  simp only [Cp.line?, Cp.updLine, List.find?_map, Function.comp_def, hkeeps]

/-- A byte stored through the cache is what is held there, and nothing else changes. -/
theorem cacheWr_held {c : Cp} (t : Tile) (a : Nat) (b : Byte) (hcen : c.cen = true) (hroom : c.cache.length < 48)
    (hdata : ∀ l ∈ c.cache, l.data.length = 128) :
    ∃ cache, cacheWr c t a b = ({ c with cache := cache }, t) ∧ cache.length ≤ c.cache.length + 1 ∧
      ∀ k, Cp.held { c with cache := cache } t k = if k = a then b else c.held t k := by
  obtain ⟨l, rest, hfetch, haddr, hlen, hline, hsame, hother⟩ := fetchLine_front t a hroom
  have hwrite : cacheWr c t a b = (Cp.updLine { c with cache := l :: rest } a fun l => l.putByte (a % 128) b, t) := by
    refine (if_neg (by rw [hcen]; decide)).trans ?_
    rw [hfetch]
    rfl
  refine ⟨(Cp.updLine { c with cache := l :: rest } a fun l => l.putByte (a % 128) b).cache, hwrite, by simpa [Cp.updLine] using hlen, fun k => ?_⟩
  have hfound := Cp.line?_updLine { c with cache := l :: rest } a k (fun l => l.putByte (a % 128) b) fun _ => rfl
  change Cp.held (Cp.updLine { c with cache := l :: rest } a fun l => l.putByte (a % 128) b) t k = _
  rw [Cp.held, hfound]
  by_cases hk : lineOf k = lineOf a
  · have hplace : k % 128 = a % 128 ↔ k = a := by simp only [lineOf] at hk; omega
    have hlt : a % 128 < l.data.length := by rw [hline hdata]; exact Nat.mod_lt a (by decide)
    have hfront : Cp.line? { c with cache := l :: rest } k = some l := by
      rw [Cp.line?, hk]
      exact List.find?_cons_of_pos (decide_eq_true haddr)
    rw [hfront, Option.map_some, if_pos haddr, ← hsame k hk]
    exact (nth_setNth _ _ _ _ _ hlt).trans (by simp only [hplace])
  · have hne : k ≠ a := fun e => hk (by rw [e])
    have hrest : Cp.line? { c with cache := l :: rest } k = c.line? k := by
      rw [← hother k hk]
      exact List.find?_cons_of_neg (by rw [haddr]; simpa using Ne.symm hk)
    rw [if_neg hne, hrest, Cp.held]
    cases hkept : c.line? k with
    | none => rfl
    | some x =>
      have hx : x.addr = lineOf k := by simpa using List.find?_some hkept
      rw [Option.map_some, if_neg (by rw [hx]; exact hk)]

/-- Settles O52: what the cache holds after the store is the byte stored, and what it held. -/
theorem cachedStores : Obligations.CachedStores := by
  intro u d a imm s c ea he hc hcen hea _ hroom hlines hcan
  subst hea
  obtain ⟨cache, hwrite, hlen, hheld⟩ := cacheWr_held (s.tile u.tile) (c.rd a + imm.signExtend 64).toNat (BitVec.ofNat 8 (c.rd d).toNat) hcen
    (by omega) fun l hl => (hlines l hl).1
  refine ⟨{ c with cache := cache }, ?completes, ⟨cache, rfl⟩, fun b => ?reads⟩
  case completes =>
    rw [exec_sb, execSb_eq]
    refine storeG_completes he hc 1 d a imm hcan ?_
    rw [natLE, natLE, cacheWrite, hwrite]
    rfl
  case reads =>
    have hafter := cacheRd_held (c := { c with cache := cache }) (s.tile u.tile) b hcen (Nat.lt_of_le_of_lt hlen (by omega))
    rw [hafter, hheld, cacheRd_held _ b hcen (by omega)]

end Sys2Proof.Machine
end

section
/-! The vector integer instructions (06_column_processor.md, R181 to R183, R186, R187). -/

namespace Sys2Proof.Machine

/-! ## The shared forms of the vector integer instructions -/

section
variable {u : CpAt} {f : VFields} {x : Bool} {s : State} {c : Cp} (he : s.executes u = true) (hc : s.cpOf u.tile u.cp = c)
include he hc

/-- A vector integer instruction on proper groups writes its active elements and is counted. -/
theorem vecBin_completes (op : (w : Nat) → BitVec w → BitVec w → BitVec w × KFlags) (hok : c.groupsOk f x = true) :
    vecBin op s u f x =
      .next (s.stepVec u (c.vecWrite s.vlen f fun i => op c.sewBits (c.srcA s.vlen f i) (c.srcB s.vlen f x i))) :=
  cpRunV_completes he hc (if_pos hok)

/-- On a register that heads no group it fails the kernel. -/
theorem vecBin_fails (op : (w : Nat) → BitVec w → BitVec w → BitVec w × KFlags) (hok : c.groupsOk f x = false) :
    vecBin op s u f x = .next ((s.withCp u c (s.tile u.tile)).kernelFail u 0x0463 0) :=
  cpRunV_fails he hc (if_neg (by rw [show (c.vOk f.d.toNat && c.vOk f.a.toNat && (x || c.vOk f.b.toNat) && c.pmOk f) = false from hok]; decide))

/-- VMV takes no A operand and otherwise checks and writes as the others do. -/
theorem execVmv_completes (hok : f.a = 0 ∧ c.groupsOk f x = true) :
    execVmv u f x s = .next (s.stepVec u (elemwise s.vlen c.sewBits f c fun i => (vecB s.vlen c f x i, 0))) := by
  obtain ⟨ha, hgroups⟩ := hok
  simp only [Cp.groupsOk, Bool.and_eq_true] at hgroups
  obtain ⟨⟨⟨hd, -⟩, hb⟩, hpm⟩ := hgroups
  refine cpRunV_completes he hc (legal_vecOk (decide_eq_true ha) ?_ c _ _)
  rw [hd, hb, hpm]
  rfl

/-- VMERGE writes every element below VL. -/
theorem execVmerge_completes (hok : c.groupsOk f x = true) :
    execVmerge u f x s = .next (s.stepVec u ((List.range c.vl).foldl (fun (y : Cp) i => y.setVelem s.vlen c.sewBits f.d.toNat i
      (if c.active s.vlen f i then c.velem s.vlen c.sewBits f.a.toNat i else vecB s.vlen c f x i)) c)) :=
  cpRunV_completes he hc (if_pos hok)

/-- VSEXTH and VZEXTH widen the elements of a group of half as many registers. -/
theorem vecWiden_completes (signed : Bool)
    (hok : 16 ≤ c.sewBits ∧ f.d.toNat % c.grpN = 0 ∧ f.a.toNat % ceilDiv c.grpN 2 = 0 ∧ c.pmOk f = true) :
    vecWiden signed s u f = .next (s.stepVec u (elemwise s.vlen c.sewBits f c fun i =>
      (if signed then ((BitVec.ofNat (c.sewBits / 2) (c.velem s.vlen (c.sewBits / 2) f.a.toNat i)).signExtend c.sewBits).toNat
        else (BitVec.ofNat (c.sewBits / 2) (c.velem s.vlen (c.sewBits / 2) f.a.toNat i)).toNat, 0))) := by
  obtain ⟨hsew, hd, ha, hpm⟩ := hok
  exact cpRunV_completes he hc (if_pos (by simp only [hsew, Cp.vOk, hd, ha, hpm, decide_true, Bool.and_true]))

/-- At SEW 8 there is no half width to widen. -/
theorem vecWiden_sew8 (signed : Bool) (hsew : c.sewBits = 8) :
    vecWiden signed s u f = .next ((s.withCp u c (s.tile u.tile)).kernelFail u 0x0463 0) :=
  cpRunV_fails he hc (if_neg (by simp [hsew]))

/-- VNARH narrows into a group of half as many registers. -/
theorem execVnarh_completes (hok : 16 ≤ c.sewBits ∧ f.a.toNat % c.grpN = 0 ∧ f.d.toNat % ceilDiv c.grpN 2 = 0 ∧ c.pmOk f = true) :
    execVnarh u f x s = .next (s.stepVec u ((c.actives s.vlen f).foldl (fun (y : Cp) i =>
      y.setVelem s.vlen (c.sewBits / 2) f.d.toNat i (c.velem s.vlen c.sewBits f.a.toNat i)) c)) := by
  obtain ⟨hsew, ha, hd, hpm⟩ := hok
  exact cpRunV_completes he hc (if_pos (by simp only [hsew, Cp.vOk, hd, ha, hpm, decide_true, Bool.and_true]))

/-- At SEW 8 there is no half width to narrow to. -/
theorem execVnarh_sew8 (hsew : c.sewBits = 8) :
    execVnarh u f x s = .next ((s.withCp u c (s.tile u.tile)).kernelFail u 0x0463 0) :=
  cpRunV_fails he hc (if_neg (by simp [hsew]))

end

/-- Settles O32, instruction by instruction. -/
theorem vectorIntegerCompletes : Obligations.VectorIntegerCompletes := by
  refine ⟨?vadd, ?vsub, ?vmul, ?vmulh, ?vmulhu, ?vdiv, ?vdivu, ?vrem, ?vremu, ?vand, ?vor, ?vxor, ?vshl, ?vshr, ?vsar, ?vrotl, ?vmin,
    ?vmax, ?vminu, ?vmaxu, ?vadds, ?vsubs, ?vaddsu, ?vsubsu, ?vaddo, ?vsubo, ?vmulo, ?badGroup, ?vmv, ?vmerge, ?vsexth, ?vzexth, ?vnarh,
    ?vsexth8, ?vzexth8, ?vnarh8, ?vpopc, ?vclz⟩ <;> intro u f x s c he hc hok
  case vadd => exact vecBin_completes he hc (fun w => @iAdd w) hok
  case vsub => exact vecBin_completes he hc (fun w => @iSub w) hok
  case vmul => exact vecBin_completes he hc (fun w => @iMul w) hok
  case vmulh => exact vecBin_completes he hc (fun w => @iMulh w) hok
  case vmulhu => exact vecBin_completes he hc (fun w => @iMulhu w) hok
  case vdiv => exact vecBin_completes he hc (fun w => @iDiv w) hok
  case vdivu => exact vecBin_completes he hc (fun w => @iDivu w) hok
  case vrem => exact vecBin_completes he hc (fun w => @iRem w) hok
  case vremu => exact vecBin_completes he hc (fun w => @iRemu w) hok
  case vand => exact vecBin_completes he hc (fun w => @iAnd w) hok
  case vor => exact vecBin_completes he hc (fun w => @iOr w) hok
  case vxor => exact vecBin_completes he hc (fun w => @iXor w) hok
  case vshl => exact vecBin_completes he hc (fun w => @iShl w) hok
  case vshr => exact vecBin_completes he hc (fun w => @iShr w) hok
  case vsar => exact vecBin_completes he hc (fun w => @iSar w) hok
  case vrotl => exact vecBin_completes he hc (fun w => @iRotl w) hok
  case vmin => exact vecBin_completes he hc (fun w => @iMin w) hok
  case vmax => exact vecBin_completes he hc (fun w => @iMax w) hok
  case vminu => exact vecBin_completes he hc (fun w => @iMinu w) hok
  case vmaxu => exact vecBin_completes he hc (fun w => @iMaxu w) hok
  case vadds => exact vecBin_completes he hc (fun w => @iAdds w) hok
  case vsubs => exact vecBin_completes he hc (fun w => @iSubs w) hok
  case vaddsu => exact vecBin_completes he hc (fun w => @iAddsu w) hok
  case vsubsu => exact vecBin_completes he hc (fun w => @iSubsu w) hok
  case vaddo => exact vecBin_completes he hc (fun w => @iAddo w) hok
  case vsubo => exact vecBin_completes he hc (fun w => @iSubo w) hok
  case vmulo => exact vecBin_completes he hc (fun w => @iMulo w) hok
  case badGroup => exact vecBin_fails he hc (fun w => @iAdd w) hok
  case vmv => exact execVmv_completes he hc hok
  case vmerge => exact execVmerge_completes he hc hok
  case vsexth => exact vecWiden_completes he hc true hok
  case vzexth => exact vecWiden_completes he hc false hok
  case vnarh => exact execVnarh_completes (x := x) he hc hok
  case vsexth8 => exact vecWiden_sew8 he hc true hok
  case vzexth8 => exact vecWiden_sew8 he hc false hok
  case vnarh8 => exact execVnarh_sew8 (x := x) he hc hok
  case vpopc => exact vecUn_completes (fun w n => (popN w n, 0)) u f s c he hc (sewOk := fun _ => true) rfl hok
  case vclz => exact vecUn_completes (fun w n => (clzN w n, 0)) u f s c he hc (sewOk := fun _ => true) rfl hok

end Sys2Proof.Machine
end

section
/-! What an instruction of a column processor leaves of the machine (06_column_processor.md, R178, R181, R415). -/

namespace Sys2Proof.Machine

/-- Putting an entry back where it stands changes nothing. -/
theorem put_look_from {α : Type} [DecidableEq α] {d : α} {m : SMap α} {k lo : Nat} (h : wfFrom d lo m = true) :
    put d m k (look d m k) = m := by
  induction m generalizing lo with
  | nil => exact if_pos rfl
  | cons e r ih =>
    obtain ⟨i, y⟩ := e
    simp only [wfFrom, Bool.and_eq_true, decide_eq_true_eq] at h
    obtain ⟨⟨-, hy⟩, hr⟩ := h
    rcases Nat.lt_trichotomy k i with hlt | rfl | hgt
    · have hdefault : look d ((i, y) :: r) k = d := (if_neg (Nat.ne_of_gt hlt)).trans (look_lt_of_wf hr (by omega))
      rw [hdefault, put, if_pos hlt, if_pos rfl]
    · have hentry : look d ((k, y) :: r) k = y := if_pos rfl
      rw [hentry, put, if_neg (Nat.lt_irrefl k), if_pos rfl, if_neg hy]
    · have hrest : look d ((i, y) :: r) k = look d r k := if_neg (Nat.ne_of_lt hgt)
      rw [hrest, put, if_neg (by omega), if_neg (Nat.ne_of_gt hgt), ih hr]

/-- Putting a tile back where it stands changes nothing. -/
theorem State.setTile_tile {s : State} (n : Nat) (h : tableWf {} s.tiles = true) : s.setTile n (s.tile n) = s := by
  rw [State.setTile, State.tile, put_look_from h]

/-- An instruction that replaces its CP alone leaves every other field of the machine. -/
theorem State.stepCp_only {s : State} {u : CpAt} {c : Cp} (t : Tile) (h : tableWf {} s.tiles = true) :
    s.stepCp u c = { s with cps := (s.withCp u c.adv t).cps } :=
  State.setTile_tile (s := s.setCp u.tile u.cp c.adv) u.tile h

/-- A meter's count changes the partitions alone. -/
theorem State.meter_only (s : State) (ctx i n : Nat) : s.meter ctx i n = { s with parts := (s.meter ctx i n).parts } := by
  unfold State.meter
  split <;> rfl

/-- A meter's count leaves every other partition, and every one where the context is none. -/
theorem State.part_meter_ne (s : State) {ctx p : Nat} (i n : Nat) (h : p ≠ ctx ∨ 4096 ≤ p) : (s.meter ctx i n).part p = s.part p := by
  unfold State.meter
  split
  · exact State.part_setPart_ne s _ (by omega)
  · rfl

/-- A meter's count replaces the meters of its partition alone. -/
theorem State.part_meter_self {s : State} {ctx : Nat} (i n : Nat) (hctx : ctx < 4096) (h : tableWf {} s.parts = true) :
    (s.meter ctx i n).part ctx = { s.part ctx with mtr := upd 0 (s.part ctx).mtr i fun x => x + BitVec.ofNat 64 n } := by
  rw [State.meter, if_pos hctx]
  exact State.part_setPart_self ctx _ h

/-- A meter's count adds to one of its partition's meters. -/
theorem State.look_meter {s : State} {ctx : Nat} (i n j : Nat) (hctx : ctx < 4096) (h : tableWf {} s.parts = true)
    (hmtr : tableWf 0 (s.part ctx).mtr = true) :
    look 0 ((s.meter ctx i n).part ctx).mtr j =
      if j = i then look 0 (s.part ctx).mtr i + BitVec.ofNat 64 n else look 0 (s.part ctx).mtr j := by
  have hcount : ((s.meter ctx i n).part ctx).mtr = upd 0 (s.part ctx).mtr i fun x => x + BitVec.ofNat 64 n := by
    rw [State.part_meter_self i n hctx h]
  rw [hcount]
  by_cases hj : j = i
  · subst hj
    exact (look_upd_self hmtr).trans (if_pos rfl).symm
  · exact (look_upd_ne hj).trans (if_neg hj).symm

/-- Settles O59: the rules of the state's operations, put together. -/
theorem instructionLeaves : Obligations.InstructionLeaves := by
  intro u s c t hu hcps htiles hparts
  refine ⟨State.cpOf_setCp_self _ _ _ hcps, State.tile_setTile_self _ _ htiles, ?cps, fun n hn => State.tile_setTile_ne _ _ hn, rfl,
    State.stepCp_only t htiles, State.meter_only _ _ _ _, fun p hp => State.part_meter_ne (s.stepCp u c) 1 1 hp, ?counted⟩
  case cps =>
    intro n k hk hne
    refine State.cpOf_setCp_ne s c fun heq => hne ?_
    rw [show n = u.tile by omega, show k = u.cp by omega]
  case counted =>
    rintro p rfl hp hmtr
    have hpart := State.part_meter_self (s := s.stepCp u c) 1 1 hp hparts
    refine ⟨?_, fun i => State.look_meter (s := s.stepCp u c) 1 1 i hp hparts hmtr⟩
    rw [State.stepVec, hpart]
    rfl

end Sys2Proof.Machine
end

section
/-! The vector loads and stores that complete (06_column_processor.md, R196 to R198). -/

namespace Sys2Proof.Machine

/-- The elements of an access that may go are moved one after the other, and RIX is cleared. -/
theorem vmemLoop_vmemAll {u : CpAt} {s : State} {c c1 : Cp} {t1 : Tile} {f : VFields} {wr : Bool} {addr : Nat → Int}
    {one : Nat → Nat → Cp → Tile → Cp × Tile} (hone : ∀ i a c t, OnlyElems c t (one i a c t)) (hc : s.cpOf u.tile u.cp = c)
    (hok : s.vmemOk u f wr addr = true) (hall : s.vmemAll u f one addr = (c1, t1)) :
    vmemLoop u.cp c.sewBits wr addr one (pendingElems s.vlen c f) c (s.tile u.tile) = .go { c1 with rix := 0 } t1 := by
  subst hc
  rw [State.vmemAll] at hall
  rw [vmemLoop_go u.cp _ wr addr one hone _ _ _ hok, hall]

/-- A vector access whose checks pass completes with its elements moved, and is counted. -/
theorem cpRunV_moved {u : CpAt} {s : State} {c c1 : Cp} {t1 : Tile} (he : s.executes u = true) (hc : s.cpOf u.tile u.cp = c)
    {k : Cp → Tile → CpRes} {ok : Bool} {r : CpRes} (hk : k c (s.tile u.tile) = vecOk ok c (s.tile u.tile) (advGo r)) (hok : ok = true)
    (hmoved : r = .go { c1 with rix := 0 } t1) :
    cpRunV s u k = .next ((s.withCp u { c1 with rix := 0, pc := c1.pc + 4 } t1).meter t1.ctx.toNat 1 1) := by
  subst hc
  rw [cpRunV_executes he, hk, vecOk, if_pos hok, hmoved]
  rfl

section
variable {u : CpAt} {f : VFields} {s : State} {c c1 : Cp} {t1 : Tile} (he : s.executes u = true) (hc : s.cpOf u.tile u.cp = c)
include he hc

/-- A unit-stride or strided load whose elements may go. -/
theorem vecLoad_completes (cached : Bool) (addr : Cp → Nat → Nat → Int) (hok : c.vOk f.d.toNat = true ∧ c.pmOk f = true)
    (hmay : s.vmemOk u f false (fun i => wrap64 (addr c c.sewBits i)) = true)
    (hall : s.vmemAll u f (loadElem cached s.vlen c.sewBits f.d.toNat) (fun i => wrap64 (addr c c.sewBits i)) = (c1, t1)) :
    vecLoad cached s u f addr = .next ((s.withCp u { c1 with rix := 0, pc := c1.pc + 4 } t1).meter t1.ctx.toNat 1 1) := by
  obtain ⟨hd, hpm⟩ := hok
  exact cpRunV_moved he hc rfl (by rw [hd, hpm]; rfl) (vmemLoop_vmemAll (fun _ _ _ _ => loadElem_only ..) hc hmay hall)

/-- A unit-stride or strided store whose elements may go. -/
theorem vecStore_completes (cached : Bool) (addr : Cp → Nat → Nat → Int) (hok : c.vOk f.d.toNat = true ∧ c.pmOk f = true)
    (hmay : s.vmemOk u f true (fun i => wrap64 (addr c c.sewBits i)) = true)
    (hall : s.vmemAll u f (storeElem cached s.vlen c.sewBits f.d.toNat) (fun i => wrap64 (addr c c.sewBits i)) = (c1, t1)) :
    vecStore cached s u f addr = .next ((s.withCp u { c1 with rix := 0, pc := c1.pc + 4 } t1).meter t1.ctx.toNat 1 1) := by
  obtain ⟨hd, hpm⟩ := hok
  exact cpRunV_moved he hc rfl (by rw [hd, hpm]; rfl) (vmemLoop_vmemAll (fun _ _ _ _ => storeElem_only ..) hc hmay hall)

/-- An indexed load whose elements may go. -/
theorem execVldx_completes (hok : c.vOk f.d.toNat = true ∧ c.pmOk f = true ∧ c.vOk f.b.toNat = true)
    (hmay : s.vmemOk u f false (idxAddr s.vlen c f) = true)
    (hall : s.vmemAll u f (loadElem true s.vlen c.sewBits f.d.toNat) (idxAddr s.vlen c f) = (c1, t1)) :
    execVldx u f s = .next ((s.withCp u { c1 with rix := 0, pc := c1.pc + 4 } t1).meter t1.ctx.toNat 1 1) := by
  obtain ⟨hd, hpm, hb⟩ := hok
  exact cpRunV_moved he hc rfl (by rw [hd, hb, hpm]; rfl) (vmemLoop_vmemAll (fun _ _ _ _ => loadElem_only ..) hc hmay hall)

/-- An indexed store whose elements may go. -/
theorem execVstx_completes (hok : c.vOk f.d.toNat = true ∧ c.pmOk f = true ∧ c.vOk f.b.toNat = true)
    (hmay : s.vmemOk u f true (idxAddr s.vlen c f) = true)
    (hall : s.vmemAll u f (storeElem true s.vlen c.sewBits f.d.toNat) (idxAddr s.vlen c f) = (c1, t1)) :
    execVstx u f s = .next ((s.withCp u { c1 with rix := 0, pc := c1.pc + 4 } t1).meter t1.ctx.toNat 1 1) := by
  obtain ⟨hd, hpm, hb⟩ := hok
  exact cpRunV_moved he hc rfl (by rw [hd, hb, hpm]; rfl) (vmemLoop_vmemAll (fun _ _ _ _ => storeElem_only ..) hc hmay hall)

/-- A VLDFF whose elements may all go does what VLDX does. -/
theorem execVldff_completes (hok : c.vOk f.d.toNat = true ∧ c.pmOk f = true ∧ c.vOk f.b.toNat = true ∧ f.pe = true)
    (hmay : s.vmemOk u f false (idxAddr s.vlen c f) = true)
    (hall : s.vmemAll u f (loadElem true s.vlen c.sewBits f.d.toNat) (idxAddr s.vlen c f) = (c1, t1)) :
    execVldff u f s = .next ((s.withCp u { c1 with rix := 0, pc := c1.pc + 4 } t1).meter t1.ctx.toNat 1 1) := by
  obtain ⟨hd, hpm, hb, hpe⟩ := hok
  have hmoved := vmemLoop_vmemAll (fun _ _ _ _ => loadElem_only ..) hc hmay hall
  subst hc
  rw [execVldff, cpRunV_executes he, legal_vecOk hpe (by rw [hd, hb, hpm]; rfl), hmoved]
  rfl

end

/-- Settles O36, instruction by instruction. -/
theorem vectorMemoryCompletes : Obligations.VectorMemoryCompletes := by
  refine ⟨?vld, ?vlds, ?vldx, ?vldff, ?vst, ?vsts, ?vstx⟩ <;> intro u f s c c1 t1 he hc hok hmay hall
  case vld => exact vecLoad_completes he hc false (fun c w i => (c.rd f.a).toNat + i * (w / 8)) hok hmay hall
  case vlds => exact vecLoad_completes he hc false (fun c _ i => ((c.rd f.a).toNat : Int) + i * (c.rd f.b).toInt) hok hmay hall
  case vldx => exact execVldx_completes he hc hok hmay hall
  case vldff => exact execVldff_completes he hc hok hmay hall
  case vst => exact vecStore_completes he hc false (fun c w i => (c.rd f.a).toNat + i * (w / 8)) hok hmay hall
  case vsts => exact vecStore_completes he hc false (fun c _ i => ((c.rd f.a).toNat : Int) + i * (c.rd f.b).toInt) hok hmay hall
  case vstx => exact execVstx_completes he hc hok hmay hall

end Sys2Proof.Machine
end

section
/-! VGET and its predicate operand (06_column_processor.md, R181, R183, R192), and the CP of a kernel that fails (R204). -/

namespace Sys2Proof.Machine

/-! ## A kernel that fails -/

/-- A VIGIL record touches no CP. -/
theorem State.record_cps (s : State) (cls ctx blk chk unit action : Nat) (ofs : Word) (wr : Bool) (status : Nat) :
    (s.record cls ctx blk chk unit action ofs wr status).cps = s.cps := by
  unfold State.record
  dsimp only
  split
  · rfl
  · split
    · exact State.raise_cps _ 76
    · rfl

/-- A stopped kernel's CP 0 does not run. -/
theorem State.stopKernel_stops {s : State} (t : Nat) (h : tableWf {} s.cps = true) : ((s.stopKernel t).cpOf t 0).run = false := by
  have hcps : List.range 4 = [0, 1, 2, 3] := rfl
  simp only [State.stopKernel, hcps, List.foldl_cons, List.foldl_nil, State.updTile, State.cpOf_setTile]
  rw [State.cpOf_setCp_ne _ _ (by omega), State.cpOf_setTile, State.cpOf_setCp_ne _ _ (by omega), State.cpOf_setTile,
    State.cpOf_setCp_ne _ _ (by omega), State.cpOf_setTile, State.cpOf_setCp_self t 0 _ h]
  rfl

/-- Where no morsel's kernel holds the tile, a failure stops its CPs. -/
theorem State.kernelFail_stops {s : State} {n : Nat} (code addr : Nat) (hcps : tableWf {} s.cps = true) (hkernel : (s.tile n).kernel = none) :
    ((s.kernelFail ⟨n, 0⟩ code addr).cpOf n 0).run = false := by
  unfold State.kernelFail
  dsimp only
  rw [State.tile_setCp, hkernel]
  refine State.stopKernel_stops n ?_
  rw [State.record_cps]
  exact put_wf hcps

/-- A VGET whose predicate operand heads no group fails its kernel, whatever V[A] is (R183). -/
theorem execVget_fails {u : CpAt} {f : VFields} {s : State} {c : Cp} (he : s.executes u = true) (hc : s.cpOf u.tile u.cp = c)
    (hpm : c.pmOk f = false) : execVget u f s = .next ((s.withCp u c (s.tile u.tile)).kernelFail u 0x0463 0) :=
  cpRunV_fails he hc (if_neg (by rw [hpm, Bool.and_false]; exact Bool.false_ne_true))

/-! ## The counterexample -/

/-- CP 0 of tile 0 runs with groups of two registers. -/
def pairedGroups : State :=
  { State.reset with
    clk := { State.reset.clk with locked := true }
    cps := [(0, { run := true, grp := 1, env := { codeLen := 64 } })] }

/-- A VGET under P1, which heads no predicate group where a group has two registers. -/
def getUnderP1 : VFields := { a := 0, b := 0, d := 0, pe := true, pm := 1 }

theorem pairedGroups_executes : pairedGroups.executes ⟨0, 0⟩ = true := by decide

/-- Refutes O35: a VGET whose predicate operand P1 heads no group fails its kernel with 0x0463 (R183) and stops its CP, while the clause
of VGET, which asks nothing of that operand, says that it completes. -/
theorem not_reductionCompletes : ¬ Obligations.ReductionCompletes := by
  unfold Obligations.ReductionCompletes
  rintro ⟨-, -, -, -, -, -, -, -, hvget, -⟩
  have hcompletes := hvget ⟨0, 0⟩ getUnderP1 pairedGroups _ pairedGroups_executes rfl (by decide)
  have hfails := execVget_fails (f := getUnderP1) pairedGroups_executes rfl (by decide)
  have hsame := Host.Outcome.next.inj (hfails.symm.trans hcompletes)
  have hstopped := State.kernelFail_stops (s := pairedGroups.withCp ⟨0, 0⟩ (pairedGroups.cpOf 0 0) (pairedGroups.tile 0)) (n := 0)
    0x0463 0 (by decide) (by decide)
  have hruns := hstopped.symm.trans (congrArg (fun t => (State.cpOf t 0 0).run) hsame)
  exact absurd hruns (by decide)

end Sys2Proof.Machine
end

section
/-! The associative store (07_associative_store.md): what the table commands, a unit's check and the windows answer where their conditions
hold. -/

namespace Sys2Proof.Machine

/-! ## The commands on a table (R231, R232) -/

/-- What `tableFor` asks of a command and its table. -/
theorem tableFor_iff (s : State) (id : Nat) (c : Cmd) (t : ATable) : s.tableFor id c t = true ↔
    s.astWaits id = false ∧ c.f 8 2 ≤ 63 ∧ s.atable (c.f 8 2) = t ∧ t.enable = true ∧ t.ctx = c.ctx ∧ t.rsp = false := by
  simp [State.tableFor, and_assoc]

section
variable {s : State} {id op : Nat} {c : Cmd} {t : ATable}

/-- A command on a table that its context owns gets to its own work. -/
theorem astCmd_ready {zeros : List (Nat × Nat)} (h : s.ready id op c = true) (ht : s.tableFor id c t = true) (hz : c.zeros zeros = true)
    (m : String) (changes : Bool) (k : Cmd → Nat → ATable → State) :
    astCmd s id op m zeros changes k = .next (k c (c.f 8 2) t) := by
  obtain ⟨hwait, hn, rfl, hen, hctx, hrsp⟩ := (tableFor_iff ..).1 ht
  simp [astCmd, hwait, withCmd_ready h, hz, Nat.not_lt.2 hn, hen, hctx, hrsp]

/-- AST_CREATE goes on to its check. -/
theorem execAstCreate_checks (h : s.ready id 0x68 c = true) (hwait : s.astWaits id = false) (hz : c.zeros [(13, 1), (20, 12)] = true) :
    execAstCreate id s = .next ((s.phase id .checking).queueCheck .astore (.astTable id)) := by
  simp [execAstCreate, hwait, withCmd_ready h, hz]

/-- AST_DESTROY of a table that no run names disables it and starts the clear of its banks. -/
theorem execAstDestroy_clears (h : s.ready id 0x69 c = true) (ht : s.tableFor id c t = true) (hz : c.zeros [(10, 22)] = true)
    (hruns : (s.runs.any fun r => r.ctx = t.ctx && r.tables.contains (c.f 8 2)) = false) :
    execAstDestroy id s = .next ((banksIn t.banks).foldl (fun (x : State) b => x.clearBank b)
      ((s.updAtable (c.f 8 2) fun x => { x with enable := false, fault := false, destroyCmd := some id }).phase id .running)) := by
  rw [execAstDestroy, astCmd_ready h ht hz, hruns]
  rfl

/-- AST_LOAD of entries that are no holes, where the table has positions for them. -/
theorem execAstLoad_loads {ps : List Nat} {es : List (List AUnit)} (h : s.ready id 0x6A c = true) (hw : s.hostFree c = true)
    (ht : s.tableFor id c t = true) (hz : c.zeros [(10, 2), (24, 8)] = true) (h0 : c.f 12 4 ≠ 0) (hmax : c.f 12 4 ≤ 2097152)
    (ha : c.f 16 8 % 64 = 0) (hps : ps = freePositions t.interval.toNat (s.afterLast t) t.size (c.f 12 4))
    (hes : es = (List.range (c.f 12 4)).map fun k =>
      entryOf t.width ((s.hostRead c.fn (c.f 16 8) (c.f 12 4 * 16 * t.width)).drop (k * 16 * t.width)))
    (hroom : c.f 12 4 ≤ ps.length) (hread : s.hostFails c.fn (c.f 16 8) (c.f 12 4 * 16 * t.width) = false)
    (hfull : es.any isHole = false) :
    execAstLoad id s = .next ((s.putEntries t (ps.zip es)).complete id 0 (BitVec.ofNat 32 (nth ps 0 0))
      (BitVec.ofNat 32 (nth ps (c.f 12 4 - 1) 0))) := by
  subst hps hes
  have hargs : (decide (c.f 12 4 = 0) || decide (2097152 < c.f 12 4) || decide (c.f 16 8 % 64 ≠ 0)) = false := by
    simp [h0, Nat.not_lt.2 hmax, ha]
  obtain ⟨-, -, htable, -⟩ := (tableFor_iff ..).1 ht
  rw [execAstLoad, hostWaits_ready h hw, if_neg Bool.false_ne_true, astCmd_ready h ht hz]
  simp only [hargs, if_neg (Nat.not_lt.2 hroom), hread, hfull, htable]
  rfl

/-- AST_INSERT before a position of the table that has a hole in reach. -/
theorem execAstInsert_inserts {e : List AUnit} {w : List (Nat × List AUnit) × Nat × Word} (h : s.ready id 0x6B c = true)
    (ht : s.tableFor id c t = true) (hz : c.zeros [(10, 2), (16, 16)] = true) (he : e = entryOf t.width (c.bytes.drop 32))
    (hlen : c.bytes.length = 32 * (1 + ceilDiv t.width 2)) (hfull : isHole e = false) (hbefore : c.f 12 4 ≠ 0xFFFFFFFF)
    (hpos : c.f 12 4 < t.size) (hplan : (s.insertReads t (c.f 12 4)).insertPlan t (c.f 12 4) e = some w) :
    execAstInsert id s = .next (((s.insertReads t (c.f 12 4)).putEntries t w.1).complete id 0 (BitVec.ofNat 32 w.2.1) w.2.2) := by
  subst he
  rw [execAstInsert, astCmd_ready h ht hz]
  simp [hlen, hfull, hbefore, Nat.not_le.2 hpos, hplan]

/-- AST_DELETE of an entry makes its unit 0 a hole. -/
theorem execAstDelete_deletes (h : s.ready id 0x6C c = true) (ht : s.tableFor id c t = true) (hz : c.zeros [(10, 2), (16, 16)] = true)
    (hpos : c.f 12 4 < t.size) (hfull : isHole (s.entryAt t (c.f 12 4)) = false) :
    execAstDelete id s = .next ((s.putUnit (s.unitAt t (c.f 12 4) 0) holeUnit).complete id 0 1 0) := by
  rw [execAstDelete, astCmd_ready h ht hz]
  simp [Nat.not_le.2 hpos, hfull]

/-- AST_SEARCH of a table without a fault writes the result words of its keys and counts the banks' searches. -/
theorem execAstSearch_searches {rs : List (Option Nat × Bool)} (h : s.ready id 0x6D c = true) (hw : s.hostFree c = true)
    (ht : s.tableFor id c t = true) (hz : c.zeros [(10, 2)] = true) (h0 : c.f 12 4 ≠ 0) (hmax : c.f 12 4 ≤ 4096)
    (ha : c.f 16 8 % 8 = 0) (hres : c.f 24 8 % 4 = 0) (hfault : t.fault = false)
    (hread : s.hostFails c.fn (c.f 16 8) (c.f 12 4 * 8 * t.width) = false)
    (hrs : rs = (List.range (c.f 12 4)).map fun k =>
      s.search t ((List.range t.width).map fun j => BitVec.ofNat 64 (leNat (s.hostRead c.fn (c.f 16 8 + 8 * (k * t.width + j)) 8)))) :
    execAstSearch id s = .next (((s.hostWrite c.fn (c.f 24 8) (rs.flatMap fun r => natLE 4 (searchWord r).toNat)).countSearches
      (c.f 12 4 * (banksIn t.banks).length)).complete id 0 (BitVec.ofNat 32 (rs.countP fun r => r.1.isSome)) 0) := by
  subst hrs
  have hargs : (decide (c.f 12 4 = 0) || decide (4096 < c.f 12 4) || decide (c.f 16 8 % 8 ≠ 0) || decide (c.f 24 8 % 4 ≠ 0)) = false := by
    simp [h0, Nat.not_lt.2 hmax, ha, hres]
  rw [execAstSearch, hostWaits_ready h hw, if_neg Bool.false_ne_true, astCmd_ready h ht hz]
  simp only [hargs, hfault, hread]
  rfl

/-- AST_READ of positions of the table writes their entries once their units are checked. -/
theorem execAstRead_reads (h : s.ready id 0x6F c = true) (hw : s.hostFree c = true) (ht : s.tableFor id c t = true)
    (hz : c.zeros [(10, 2), (20, 4)] = true) (h0 : c.f 16 4 ≠ 0) (hmax : c.f 16 4 ≤ 65536) (ha : c.f 24 8 % 64 = 0)
    (hend : c.f 12 4 + c.f 16 4 ≤ t.size) :
    execAstRead id s = .next (((s.checkEntries t (c.f 12 4) (c.f 16 4)).hostWrite c.fn (c.f 24 8) ((List.range (c.f 16 4)).flatMap fun k =>
      entryBytes ((s.checkEntries t (c.f 12 4) (c.f 16 4)).entryAt t (c.f 12 4 + k)))).complete id 0 (BitVec.ofNat 32 (c.f 16 4)) 0) := by
  rw [execAstRead, hostWaits_ready h hw, if_neg Bool.false_ne_true, astCmd_ready h ht hz]
  simp [h0, Nat.not_lt.2 hmax, ha, Nat.not_lt.2 hend]

/-! ## RESPREAD (R236) -/

/-- AST_RESPREAD to an interval under which the entries fit plans its writes on the checked table. -/
theorem execAstRespread_starts {i : Nat} (h : s.ready id 0x6E c = true) (ht : s.tableFor id c t = true)
    (hz : c.zeros [(10, 4), (16, 16)] = true) (hi : i = if c.f 14 2 = 0 then t.interval.toNat else c.f 14 2)
    (hok : intervalOk (c.f 14 2) = true) (hfit : (s.used t).length ≤ t.capacity i) :
    execAstRespread id s = .next (((s.checkTable t 0 t.size).updAtable (c.f 8 2) fun x => { x with
      rsp := true, rspInterval := BitVec.ofNat 9 i, rspWrites := (s.checkTable t 0 t.size).respreadWrites t i,
      rspCmd := some id }).phase id .running) := by
  subst hi
  rw [execAstRespread, astCmd_ready h ht hz]
  simp only [hok, if_neg (Nat.not_lt.2 hfit)]
  rfl

end

section
variable {n : Nat} {s : State} {t : ATable} (ht : s.atable n = t) (hen : t.enable = true) (hrsp : t.rsp = true)
include ht hen hrsp

/-- A step that leaves writes for the next ones. -/
theorem execRespreadStep_goesOn (hleft : t.rspWrites.drop (stepPrefix t.perBank 256 t.rspWrites).length ≠ []) :
    execRespreadStep n s = .next ((s.putEntries t (stepPrefix t.perBank 256 t.rspWrites)).updAtable n fun x =>
      { x with rspWrites := t.rspWrites.drop (stepPrefix t.perBank 256 t.rspWrites).length }) := by
  subst ht
  simp only [execRespreadStep, hen, hrsp, List.isEmpty_eq_false_iff.2 hleft]
  rfl

/-- The last step of a RESPREAD that no command waits for. -/
theorem execRespreadStep_ends (hleft : t.rspWrites.drop (stepPrefix t.perBank 256 t.rspWrites).length = []) (hcmd : t.rspCmd = none) :
    execRespreadStep n s = .next ((s.putEntries t (stepPrefix t.perBank 256 t.rspWrites)).updAtable n fun x =>
      { x with rsp := false, interval := x.rspInterval, rspWrites := [], rspCmd := none }) := by
  subst ht
  simp only [execRespreadStep, hen, hrsp, List.isEmpty_iff.2 hleft, hcmd]
  rfl

end

/-! ## A unit's check (R242) -/

section
variable {s : State} {b u k : Nat} (hk : k = s.physBank b * 65536 + u)
include hk

/-- A unit that is being written, or whose bank is being cleared, is passed over. -/
theorem checkUnit_busy (h : look false s.astore.pending k = true ∨ (s.bank b).clearing = true) : s.checkUnit b u = s := by
  subst hk
  exact if_pos (Bool.or_eq_true_iff.2 h)

/-- Any other unit is judged by its shadow, by its parity where the shadow is uncorrectable. -/
theorem checkUnit_idle (hp : look false s.astore.pending k = false) (hc : (s.bank b).clearing = false) :
    s.checkUnit b u =
      if look false s.astore.badShadow k then (if s.unitParityBad k then s.emberFault b u else s.emberFix b u (s.unit k))
      else if s.unit k ≠ look holeUnit s.astore.shadow k || s.unitParityBad k then s.emberFix b u (look holeUnit s.astore.shadow k)
      else s := by
  subst hk
  exact if_neg (by rw [hp, hc]; exact Bool.false_ne_true)

/-- A good unit with a good shadow changes nothing. -/
theorem checkUnit_good (hs : look false s.astore.badShadow k = false) (hu : s.unit k = look holeUnit s.astore.shadow k)
    (hpar : s.unitParityBad k = false) : s.checkUnit b u = s := by
  by_cases hbusy : look false s.astore.pending k = true ∨ (s.bank b).clearing = true
  · exact checkUnit_busy hk hbusy
  · simp only [not_or, Bool.not_eq_true] at hbusy
    rw [checkUnit_idle hk hbusy.1 hbusy.2]
    simp [hs, hu, hpar]

/-- A bad unit is corrected from its shadow. -/
theorem checkUnit_bad (hp : look false s.astore.pending k = false) (hc : (s.bank b).clearing = false)
    (hs : look false s.astore.badShadow k = false) (hbad : s.unit k ≠ look holeUnit s.astore.shadow k ∨ s.unitParityBad k = true) :
    s.checkUnit b u = s.emberFix b u (look holeUnit s.astore.shadow k) := by
  rw [checkUnit_idle hk hp hc, if_neg (by rw [hs]; exact Bool.false_ne_true), if_pos (by simpa using hbad)]

/-- An uncorrectable shadow is corrected from a unit of good parity. -/
theorem checkUnit_badShadow (hp : look false s.astore.pending k = false) (hc : (s.bank b).clearing = false)
    (hs : look false s.astore.badShadow k = true) (hpar : s.unitParityBad k = false) :
    s.checkUnit b u = s.emberFix b u (s.unit k) := by
  rw [checkUnit_idle hk hp hc, if_pos hs, if_neg (by rw [hpar]; exact Bool.false_ne_true)]

/-- A bad unit whose shadow is uncorrectable is lost. -/
theorem checkUnit_lost (hp : look false s.astore.pending k = false) (hc : (s.bank b).clearing = false)
    (hs : look false s.astore.badShadow k = true) (hpar : s.unitParityBad k = true) : s.checkUnit b u = s.emberFault b u := by
  rw [checkUnit_idle hk hp hc, if_pos hs, if_pos hpar]

end

/-! ## Ember (R241) -/

/-- The scrub's step to the next unit changes POS and SWEEPS alone. -/
theorem Astore.nextPos_only (a : Astore) : ∃ pos sweeps, a.nextPos = { a with pos := pos, sweeps := sweeps } := by
  unfold Astore.nextPos
  split
  · exact ⟨_, _, rfl⟩
  · exact ⟨_, a.sweeps, rfl⟩

/-- EMBER_CHECK checks the unit at POS as it stands once POS has moved on, which changes nothing that the check reads. -/
theorem execEmberCheck_checks {s : State} {b n : Nat} {f : State → State} (ha : s.astp = true)
    (hpos : b = s.astore.pos.toNat / 65536 ∧ n = s.astore.pos.toNat % 65536)
    (hcheck : ∀ pos sweeps, ({ s with astore := { s.astore with pos := pos, sweeps := sweeps } } : State).checkUnit b n =
      f { s with astore := { s.astore with pos := pos, sweeps := sweeps } }) :
    execEmberCheck s = .next (f { s with astore := s.astore.nextPos }) := by
  obtain ⟨rfl, rfl⟩ := hpos
  obtain ⟨pos, sweeps, hnext⟩ := s.astore.nextPos_only
  rw [execEmberCheck, when_pos ha, hnext, hcheck]

/-! ## The direct windows (R243) -/

/-- An access to a direct window, a read of it where no earlier write of PF0 is held. -/
theorem execDirectWindowAccess_reaches {off : Nat} {wr : Bool} {s : State} (hlo : 0x1000000 ≤ off) (hhi : off < 0x3000000)
    (hword : off % 4 = 0) (hfree : wr = false → s.holder .pf0 = none) (v : Word) :
    execDirectWindowAccess off wr v s =
      .next (if wr then s.inOrder .pf0 .bar0 [(off, v)] (s.window off true v) else s.window off false v) := by
  have hin : (decide (0x1000000 ≤ off) && decide (off < 0x3000000) && decide (off % 4 = 0)) = true := by simp [hlo, hhi, hword]
  rw [execDirectWindowAccess, if_pos hin]
  cases wr with
  | true => rfl
  | false => exact when_pos (by rw [hfree rfl]; rfl) ..

/-- Settles O14, row by row. -/
theorem tableCompletes : Obligations.TableCompletes := by
  refine ⟨?create, ?destroy, ?clear, ?load, ?insert, ?delete, ?search, ?respread, ?step, ?lastStep, ?read, ?good, ?bad, ?badShadow, ?lost,
    ?busy, ?owner, ?window⟩
  case create => exact fun id s c h ⟨hwait, hz⟩ => execAstCreate_checks h hwait hz
  case destroy => exact fun id s c t h ⟨ht, hz⟩ hruns => execAstDestroy_clears h ht hz hruns
  case clear => exact fun b s ⟨hb, hc⟩ => if_pos (by rw [hc, decide_eq_true hb]; rfl)
  case load =>
    exact fun id s c t ps es h hw ⟨ht, hz⟩ ⟨h0, hmax, ha⟩ hps hes ⟨hroom, hread, hfull⟩ =>
      execAstLoad_loads h hw ht hz h0 hmax ha hps hes hroom hread hfull
  case insert =>
    exact fun id s c t e w h ⟨ht, hz⟩ he ⟨hlen, hfull, hbefore, hpos⟩ hplan =>
      execAstInsert_inserts h ht hz he hlen hfull hbefore hpos hplan
  case delete => exact fun id s c t h ⟨ht, hz⟩ ⟨hpos, hfull⟩ => execAstDelete_deletes h ht hz hpos hfull
  case search =>
    exact fun id s c t rs h hw ⟨ht, hz⟩ ⟨h0, hmax, ha, hres⟩ ⟨hfault, hread⟩ hrs =>
      execAstSearch_searches h hw ht hz h0 hmax ha hres hfault hread hrs
  case respread => exact fun id s c t i h ⟨ht, hz⟩ hi ⟨hok, hfit⟩ => execAstRespread_starts h ht hz hi hok hfit
  case step => exact fun n s t ht ⟨hen, hrsp⟩ hleft => execRespreadStep_goesOn ht hen hrsp hleft
  case lastStep => exact fun n s t ht ⟨hen, hrsp⟩ hleft hcmd => execRespreadStep_ends ht hen hrsp hleft hcmd
  case read =>
    exact fun id s c t h hw ⟨ht, hz⟩ ⟨h0, hmax, ha, hend⟩ => execAstRead_reads h hw ht hz h0 hmax ha hend
  case good =>
    exact fun s b n k ha hpos hk ⟨hs, hu, hpar⟩ => execEmberCheck_checks (f := id) ha hpos fun _ _ => checkUnit_good hk hs hu hpar
  case bad =>
    exact fun s b n k ha hpos hk ⟨hp, hc, hs⟩ hbad =>
      execEmberCheck_checks (f := fun x => x.emberFix b n _) ha hpos fun _ _ => checkUnit_bad hk hp hc hs hbad
  case badShadow =>
    exact fun s b n k ha hpos hk ⟨hp, hc, hs⟩ hpar =>
      execEmberCheck_checks (f := fun x => x.emberFix b n _) ha hpos fun _ _ => checkUnit_badShadow hk hp hc hs hpar
  case lost =>
    exact fun s b n k ha hpos hk ⟨hp, hc, hs⟩ hpar =>
      execEmberCheck_checks (f := fun x => x.emberFault b n) ha hpos fun _ _ => checkUnit_lost hk hp hc hs hpar
  case busy => exact fun s b n k ha hpos hk h => execEmberCheck_checks (f := id) ha hpos fun _ _ => checkUnit_busy hk h
  case owner =>
    intro r b v s ⟨hb, hr⟩
    rw [exec_astoreOwnerWrite, execAstoreOwnerWrite, if_neg (by omega), busRow_reachable hr]
  case window => exact fun off wr v s ⟨hlo, hhi, hword, hfree⟩ => execDirectWindowAccess_reaches hlo hhi hword hfree v

end Sys2Proof.Machine
end

section
/-! The compression engines (08_compression.md): how a command's job comes to wait, and what starts, ends and interrupts a job. -/

namespace Sys2Proof.Machine

/-! ## Commands (R247, R257, R258) -/

/-- A command of the compression engines that nothing refuses puts its job behind those that wait, in the commands' class. -/
theorem cmpCommand_waits {s : State} {id op : Nat} {c : Cmd} (h : s.ready id op c = true) (hw : s.hostFree c = true)
    (hpass : s.cmpRefusal c (op = 0x48) = 0) (m : String) :
    cmpCommand id op m s = .next ((s.setJobs (s.cmp.jobs ++
      [{ id := id, cls := 2, morsel := none, slot := 0, engine := none, retried := false }])).phase id (.waiting 3)) := by
  have hwait : s.hostWaits c = false := by simpa [State.hostFree] using hw
  have hgo : (s.cmd? id).any (fun c => s.hostWaits c && (c.f 34 1 = 0 || c.f 35 1 = 0)) = false := by
    rw [ready_cmd h, Option.any_some, hwait, Bool.false_and]
  rw [cmpCommand, hgo, if_neg Bool.false_ne_true, withCmd_ready h]
  simp only [hpass, ne_eq, not_true_eq_false, if_false]

/-! ## The start of a job (R246, R247) -/

/-- A free stream of an engine in service takes the oldest job of the class that is served next. -/
theorem execCmpJobStart_takes {s : State} {e k : Nat} {j : Job} (hclass : s.cmp.nextClass = some k)
    (hj : s.cmp.jobs.find? (fun j => j.cls = k && j.engine = none) = some j) (hin : s.engineIn e = true)
    (hfree : (s.engineJobs e).length < 6) (hrun : s.ungated = true) :
    execCmpJobStart e s = .next ((fun u : State => ({ u with cmp := { u.cmp with turn := j.cls } } : State).phase j.id .running)
      (s.setJobs (s.cmp.jobs.map fun (x : Job) => if x.id = j.id then { x with engine := some e } else x))) := by
  have hstream : (s.engineIn e && decide ((s.engineJobs e).length < 6) && s.ungated) = true := by
    rw [hin, decide_eq_true hfree, hrun]
    rfl
  simp only [execCmpJobStart, hclass, Option.bind_some, hj, if_pos hstream]

/-! ## The end of a job (R252, R256, R259) -/

section
variable {s : State} {id : Nat} {j : Job} (hj : s.cmp.jobs.find? (fun j => j.id = id && j.engine.isSome) = some j)
  (hrun : s.ungated = true)
include hj hrun

/-- While the engines are clocked, a job that runs can end. -/
theorem find?_ungated : s.cmp.jobs.find? (fun j => j.id = id && j.engine.isSome && s.ungated) = some j := by
  simpa only [hrun, Bool.and_true] using hj

/-- The job of a command whose generation is current has its engine's effect. -/
theorem execCmpJobComplete_current {c : Cmd} (hm : j.morsel = none) (hc : s.cmd? id = some c) (hgen : s.current c.ctx c.gen = true)
    (hgo : (s.hostWaits c && (c.f 34 1 = 0 || c.f 35 1 = 0)) = false) :
    execCmpJobComplete id s = .next ((s.setJobs (s.cmp.jobs.filter fun x => x.id ≠ id)).cmpEnd c (j.engine.getD 0)) := by
  simp only [execCmpJobComplete, find?_ungated hj hrun, hm, hc, hgen, hgo]
  rfl

/-- The job of a command whose generation is old writes nothing (R17). -/
theorem execCmpJobComplete_stale {c : Cmd} (hm : j.morsel = none) (hc : s.cmd? id = some c) (hgen : s.current c.ctx c.gen = false) :
    execCmpJobComplete id s = .next ((s.setJobs (s.cmp.jobs.filter fun x => x.id ≠ id)).done id 0x0703) := by
  simp only [execCmpJobComplete, find?_ungated hj hrun, hm, hc, hgen]
  rfl

/-- A morsel's job that encodes is verified; one that decodes ends. -/
theorem execCmpJobComplete_morsel {run pipe m : Nat} {r : Run} {pl : Plan} (hm : j.morsel = some (run, pipe, m))
    (hr : s.run? run = some r) (hpl : s.planOf r = some pl) :
    execCmpJobComplete id s = .next (if j.cls = 1
      then (s.setJobs (s.cmp.jobs.filter fun x => x.id ≠ id)).slotEnd j r pl pipe m (j.engine.getD 0)
      else s.setJobs (s.cmp.jobs.filter fun x => x.id ≠ id)) := by
  simp only [execCmpJobComplete, find?_ungated hj hrun, hm, hr, hpl]

end

/-- Settles O15, row by row. -/
theorem compressionCompletes : Obligations.CompressionCompletes := by
  refine ⟨?deflate, ?inflate, ?start, ?current, ?stale, ?morsel, ?ersFault, ?cmpFault⟩
  case deflate => exact fun id s c h hw hpass => cmpCommand_waits h hw hpass _
  case inflate => exact fun id s c h hw hpass => cmpCommand_waits h hw hpass _
  case start => exact fun e s k j hclass hj ⟨hin, hfree, hrun⟩ => execCmpJobStart_takes hclass hj hin hfree hrun
  case current => exact fun id s j c hj ⟨hrun, hm⟩ hc ⟨hgen, hgo⟩ => execCmpJobComplete_current hj hrun hm hc hgen hgo
  case stale => exact fun id s j c hj ⟨hrun, hm⟩ hc hgen => execCmpJobComplete_stale hj hrun hm hc hgen
  case morsel => exact fun id s j run pipe m r pl hj ⟨hrun, hm⟩ hr hpl => execCmpJobComplete_morsel hj hrun hm hr hpl
  case ersFault =>
    rintro ers e s ⟨rfl, hlt, hin⟩
    exact when_pos (by rw [decide_eq_true hlt, hin]; rfl) ..
  case cmpFault =>
    rintro ers e s jobs ctx ⟨rfl, hin⟩ rfl rfl
    exact when_pos hin ..

end Sys2Proof.Machine
end

section
/-! The administration of arrays and volumes (09_arrays_and_writes.md): what each command and register write answers where its
conditions hold. -/

namespace Sys2Proof.Machine

/-! ## Members (R266, R295) -/

section Attach
variable {s : State} {id : Nat} {c : Cmd} (h : s.ready id 0x90 c = true) (hz : c.zeros [(14, 18)] = true) (hn : c.f 8 1 ≤ 63)
  (hport : c.f 9 1 ≤ 5) (hrate0 : c.f 12 2 ≠ 0) (hrate : c.f 12 2 ≤ 4095) (hfree : (s.member (c.f 8 1)).state = 0)
include h hz hn hport hrate0 hrate hfree

/-- MBR_ATTACH of a drive that answers enters the member with what the drive reports, and brings its link up. -/
theorem execMbrAttach_attaches (i : MemberInfo) {t : State}
    (ht : t = s.free.2.updMember (c.f 8 1) fun w => { w with
      state := 1, lbas := i.lbas, mwrate := BitVec.ofNat 12 (c.f 12 2), dp := BitVec.ofNat 3 (c.f 9 1), rid := BitVec.ofNat 16 (c.f 10 2)
      cap := i.cap, nsOk := i.nsOk, link := s.free.1.toNat % s.linksOf (c.f 9 1), ioQueues := 8 }) :
    execMbrAttach id (some i) s = .next ((({ t with
      arc := { t.arc with
        up := put 0 t.arc.up (c.f 9 1) (look 0 t.arc.up (c.f 9 1) ||| BitVec.ofNat 4 (2 ^ (s.free.1.toNat % s.linksOf (c.f 9 1)))) } }
      : State).toMember (c.f 8 1) attachCmds).complete id 0 (lo32 i.cap) (hi32 i.cap)) := by
  subst ht
  simp [execMbrAttach, withCmd_ready h, hz, Nat.not_lt.2 hn, Nat.not_lt.2 hport, hrate0, Nat.not_lt.2 hrate, hfree]

/-- MBR_ATTACH of a drive that does not answer ends with a status that R57 issues. -/
theorem execMbrAttach_unanswered : execMbrAttach id none s = .next (s.free.2.done id (issuedStatus s.free.1.toNat)) := by
  simp [execMbrAttach, withCmd_ready h, hz, Nat.not_lt.2 hn, Nat.not_lt.2 hport, hrate0, Nat.not_lt.2 hrate, hfree]

end Attach

/-- MBR_DETACH of an attached or failed member shuts its drive down. -/
theorem execMbrDetach_detaches {s : State} {id : Nat} {c : Cmd} (h : s.ready id 0x91 c = true) (hz : c.zeros [(9, 23)] = true)
    (hn : c.f 8 1 ≤ 63) (hst : (s.member (c.f 8 1)).state = 1 ∨ (s.member (c.f 8 1)).state = 4) :
    execMbrDetach id s = .next ((((s.toMember (c.f 8 1) detachCmds).updMember (c.f 8 1) Member.detached).emit
      (.memberShutdown (c.f 8 1))).done id 0) := by
  have hin : [1, 4].contains (s.member (c.f 8 1)).state = true := by simpa using hst
  simp only [execMbrDetach, withCmd_ready h, hz, if_neg (Nat.not_lt.2 hn), hin]
  rfl

/-! ## Commands that wait for their check (R295, R296) -/

section Checks
variable {s : State} {id : Nat} {c : Cmd}

/-- ARR_CREATE of an array that does not exist. -/
theorem execArrCreate_checks (h : s.ready id 0x92 c = true) (hz : c.zeros [(19, 1), (68, 28)] = true) (hflags : c.f 16 1 / 4 = 0)
    (ha : c.f 8 1 ≤ 63) (hst : (s.arr (c.f 8 1)).state = 0) :
    execArrCreate id s = .next (((s.updArr (c.f 8 1) fun x => { x with state := 1, prev := 0, cmd := some id }).phase id
      .checking).queueCheck .arc (.arrCreate id)) := by
  simp only [execArrCreate, withCmd_ready h, hz, hflags, if_neg (Nat.not_lt.2 ha), hst]
  rfl

/-- ARR_SET of an array in service. -/
theorem execArrSet_checks (h : s.ready id 0x95 c = true) (hz : c.zeros [(10, 22), (32, 12), (46, 2), (51, 1)] = true)
    (hmask : c.f 9 1 / 64 = 0) (hmirror : c.f 48 1 / 2 = 0) (ha : c.f 8 1 ≤ 63)
    (hst : (s.arr (c.f 8 1)).state = 3 ∨ (s.arr (c.f 8 1)).state = 4 ∨ (s.arr (c.f 8 1)).state = 5) :
    execArrSet id s = .next ((s.phase id .checking).queueCheck .arc (.arrSet id)) := by
  have hin : [3, 4, 5].contains (s.arr (c.f 8 1)).state = true := by simpa using hst
  simp only [execArrSet, withCmd_ready h, hz, hmask, hmirror, if_neg (Nat.not_lt.2 ha), hin]
  rfl

/-- ARR_IMPORT into an array that does not exist or is stopped. -/
theorem execArrImport_checks (h : s.ready id 0x93 c = true) (hz : c.zeros [(9, 7), (24, 8)] = true) (ha : c.f 8 1 ≤ 63)
    (hst : (s.arr (c.f 8 1)).state = 0 ∨ (s.arr (c.f 8 1)).state = 7) :
    execArrImport id s = .next (((s.updArr (c.f 8 1) fun x => { x with prev := x.state, state := 1, cmd := some id }).phase id
      .checking).queueCheck .arc (.arrImport id)) := by
  have hin : (decide ((s.arr (c.f 8 1)).state ≠ 0) && decide ((s.arr (c.f 8 1)).state ≠ 7)) = false := by
    simpa [Classical.or_iff_not_imp_left] using hst
  simp only [execArrImport, withCmd_ready h, hz, if_neg (Nat.not_lt.2 ha), hin]
  rfl

/-- VOL_CREATE of a volume that does not exist. -/
theorem execVolCreate_checks (h : s.ready id 0x98 c = true) (hz : c.zeros [(14, 2), (24, 8)] = true) (hflags : c.f 11 1 / 2 = 0)
    (hv : c.f 8 2 ≤ 16383) (ha : c.f 10 1 ≤ 63) (hst : (s.vol (c.f 8 2)).state = 0) :
    execVolCreate id s = .next ((s.phase id .checking).queueCheck .arc (.volCreate id)) := by
  simp only [execVolCreate, withCmd_ready h, hz, hflags, decide_eq_false (Nat.not_lt.2 hv), decide_eq_false (Nat.not_lt.2 ha), hst]
  rfl

/-- VOL_RESIZE of a volume that exists. -/
theorem execVolResize_checks (h : s.ready id 0x9A c = true) (hz : c.zeros [(10, 6), (24, 8)] = true) (hv : c.f 8 2 ≤ 16383)
    (hst : (s.vol (c.f 8 2)).state = 1) :
    execVolResize id s = .next ((s.phase id .checking).queueCheck .arc (.volResize id)) := by
  simp [execVolResize, withCmd_ready h, hz, Nat.not_lt.2 hv, hst]

end Checks

/-! ## The end of an array (R297, R298) -/

section Stop
variable {s : State} {id : Nat} {c : Cmd} (h : s.ready id 0x94 c = true) (hz : c.zeros [(9, 23)] = true) (ha : c.f 8 1 ≤ 63)
include h hz ha

/-- ARR_STOP of an array that takes writes starts its draining. -/
theorem execArrStop_drains (hst : (s.arr (c.f 8 1)).state = 3 ∨ (s.arr (c.f 8 1)).state = 4) :
    execArrStop id s = .next ((((s.updArr (c.f 8 1) fun y =>
      { y with state := 6, cmd := some id, late := s.lateWrites (c.f 8 1) }).writeLabels (c.f 8 1) false).phase id .running).closeStreams
        (c.f 8 1)) := by
  obtain hst | hst := hst <;> simp [execArrStop, withCmd_ready h, hz, Nat.not_lt.2 ha, hst]

/-- ARR_STOP of a failed array, which has nothing to drain, stops it at once. -/
theorem execArrStop_stops (hst : (s.arr (c.f 8 1)).state = 5) :
    execArrStop id s = .next (((s.writeLabels (c.f 8 1) false).updArr (c.f 8 1) fun y => { y with state := 7 }.stopRebuild).done id 0) := by
  simp only [execArrStop, withCmd_ready h, hz, if_neg (Nat.not_lt.2 ha), hst]
  rfl

end Stop

/-- A drained array whose checkpoint can be written is stopped, and its ARR_STOP completes. -/
theorem execArrDrainComplete_stops {s t : State} {a : Nat} {x : Arr} (hx : s.arr a = x) (ha : a < 64) (hst : x.state = 6)
    (hrun : s.arcRuns = true) (hcache : x.cache = []) (hres : x.reserved = [])
    (hclosed : x.stripes.all (fun e => e.2.state ≠ 1 && e.2.state ≠ 2) = true)
    (hwaits : (s.hif.cmds.any fun c => (c.phase = waitSpace || (c.phase = waitLeaf && c.op = 0x21) || x.late.contains (0, c.id)) &&
      (s.vol (c.f 8 2)).array = a) = false) (ht : s.checkpoint? a = some t) :
    execArrDrainComplete a s = .next (match x.cmd with
      | some id => ((t.writeLabels a true).updArr a fun y => { y with state := 7, cmd := none, late := [] }.stopRebuild).done id 0
      | none => (t.writeLabels a true).updArr a fun y => { y with state := 7, cmd := none, late := [] }.stopRebuild) := by
  subst hx
  simp only [execArrDrainComplete, ha, hst, hrun, hcache, hres, hclosed, hwaits, ht]
  rfl

/-! ## Lists of lost blocks and of a replay's report (R334, R337) -/

/-- ARR_LOSTLIST writes the ranges of lost blocks, as many as the command has room for. -/
theorem execArrLostlist_lists {s : State} {id : Nat} {c : Cmd} {all : List (Nat × Nat × Nat)} (h : s.ready id 0x9E c = true)
    (hw : s.hostFree c = true) (hz : c.zeros [(9, 3), (24, 8)] = true) (ha : c.f 8 1 ≤ 63) (haddr : c.f 16 8 % 64 = 0)
    (hst : 3 ≤ (s.arr (c.f 8 1)).state)
    (hall : all = (s.volsOf (c.f 8 1)).flatMap fun v => (joinLost ((s.vol v).map.filter (·.kind = 2))).map fun e => (v, e.1, e.2)) :
    execArrLostlist id s = .next ((s.hostWrite c.fn (c.f 16 8) ((all.take (c.f 12 4)).flatMap fun e =>
      natLE 2 e.1 ++ natLE 2 0 ++ natLE 4 e.2.2 ++ natLE 8 e.2.1)).complete id 0
        (BitVec.ofNat 32 (all.take (c.f 12 4)).length) (BitVec.ofNat 32 all.length)) := by
  subst hall
  rw [execArrLostlist, hostWaits_ready h hw, if_neg Bool.false_ne_true, withCmd_ready h]
  simp [hz, Nat.not_lt.2 ha, haddr, Nat.not_lt.2 hst]

/-- ARR_VAULT_INFO writes the report of the array's replay. -/
theorem execArrVaultInfo_reports {s : State} {id : Nat} {c : Cmd} {r : Report} (h : s.ready id 0x9F c = true)
    (hw : s.hostFree c = true) (hz : c.zeros [(9, 7), (24, 8)] = true) (ha : c.f 8 1 ≤ 63) (haddr : c.f 16 8 % 64 = 0)
    (hr : (s.arr (c.f 8 1)).report = some r) :
    execArrVaultInfo id s = .next ((s.hostWrite c.fn (c.f 16 8) r.bytes).done id 0) := by
  rw [execArrVaultInfo, hostWaits_ready h hw, if_neg Bool.false_ne_true, withCmd_ready h]
  simp [hz, Nat.not_lt.2 ha, haddr, hr]

/-! ## The end and the owner of a volume (R299) -/

/-- A change of a volume that exists in an array in service, that nothing else names and whose commands have ended, takes effect. -/
theorem volAdmin_ends {s : State} {id op : Nat} {c : Cmd} {zeros ok : Cmd → Bool} {begin_ finish : Cmd → Nat → State → State}
    (h : s.ready id op c = true) (hz : zeros c = true) (hv : c.f 8 2 ≤ 16383) (hok : ok c = true) (hst : (s.vol (c.f 8 2)).state = 1)
    (harr : [3, 4, 5].contains (s.arr (s.vol (c.f 8 2)).array).state = true) (hwait : (s.vol (c.f 8 2)).waiter = none)
    (hexp : (s.vol (c.f 8 2)).exported = none) (hname : s.volNamed (c.f 8 2) = false)
    (hidle : (begin_ c (c.f 8 2) s).volBusy (c.f 8 2) id = false) (what : String) :
    volAdmin s id op what zeros ok begin_ finish = .next ((finish c (c.f 8 2) (begin_ c (c.f 8 2) s)).done id 0) := by
  obtain ⟨hc, -, hphase, -⟩ := (ready_iff ..).1 h
  simp only [volAdmin, hc, hphase, withCmd_ready h, hz, hok, hst, harr, hwait, hexp, hname, hidle, decide_eq_false (Nat.not_lt.2 hv)]
  simp

/-- VOL_DESTROY drops the volume. -/
theorem execVolDestroy_drops {s : State} {id : Nat} {c : Cmd} (h : s.ready id 0x99 c = true) (hz : c.zeros [(10, 22)] = true)
    (hv : c.f 8 2 ≤ 16383) (hst : (s.vol (c.f 8 2)).state = 1)
    (harr : [3, 4, 5].contains (s.arr (s.vol (c.f 8 2)).array).state = true) (hwait : (s.vol (c.f 8 2)).waiter = none)
    (hexp : (s.vol (c.f 8 2)).exported = none) (hname : s.volNamed (c.f 8 2) = false)
    (hidle : (s.updVol (c.f 8 2) fun y => { y with state := 2 }).volBusy (c.f 8 2) id = false) :
    execVolDestroy id s = .next (((s.updVol (c.f 8 2) fun y => { y with state := 2 }).dropVol (c.f 8 2)).done id 0) :=
  volAdmin_ends h hz hv rfl hst harr hwait hexp hname hidle _

/-- VOL_OWNER that clears SHARED names the owner, and the members' system areas hold it. -/
theorem execVolOwner_names {s : State} {id : Nat} {c : Cmd} (h : s.ready id 0x9B c = true) (hz : c.zeros [(10, 1), (14, 18)] = true)
    (hv : c.f 8 2 ≤ 16383) (hst : (s.vol (c.f 8 2)).state = 1)
    (harr : [3, 4, 5].contains (s.arr (s.vol (c.f 8 2)).array).state = true) (hflags : c.f 11 1 = 0) (howner : c.f 12 2 ≤ 4095)
    (hwait : (s.vol (c.f 8 2)).waiter = none) (hexp : (s.vol (c.f 8 2)).exported = none) (hname : s.volNamed (c.f 8 2) = false)
    (hidle : s.volBusy (c.f 8 2) id = false) :
    execVolOwner id s = .next (((s.updVol (c.f 8 2) fun y =>
      { y with shared := false, owner := BitVec.ofNat 13 (c.f 12 2), waiter := none }).writeSys (s.vol (c.f 8 2)).array).done id 0) := by
  have hshared : bit (c.f 11 1) 0 = false := by rw [hflags]; rfl
  rw [execVolOwner, volAdmin_ends h (by simp [hz, hflags]) hv (by simp [howner]) hst harr hwait hexp hname hidle]
  simp [hshared]

/-- Settles O17, row by row. -/
theorem arrayAdminCompletes : Obligations.ArrayAdminCompletes := by
  refine ⟨?attach, ?unanswered, ?detach, ?create, ?set, ?stop, ?stopFailed, ?drained, ?lostlist, ?vaultInfo, ?imports, ?volCreate,
    ?volResize, ?destroy, ?owner, ?mapc, ?destroyGo, ?dp⟩
  case attach =>
    rintro id _ s c i _ _ _ t h ⟨rfl, rfl, rfl⟩ ⟨hz, hn, hport, hrate0, hrate, hfree⟩ rfl ht
    exact execMbrAttach_attaches h hz hn hport hrate0 hrate hfree i ht
  case unanswered =>
    rintro id _ s c h ⟨hz, hn, hport, hrate0, hrate, hfree⟩ rfl
    exact execMbrAttach_unanswered h hz hn hport hrate0 hrate hfree
  case detach => exact fun id s c h ⟨hz, hn, hst⟩ => execMbrDetach_detaches h hz hn hst
  case create => exact fun id s c h ⟨hz, hflags, ha, hst⟩ => execArrCreate_checks h hz hflags ha hst
  case set => exact fun id s c h ⟨hz, hmask, hmirror, ha⟩ hst => execArrSet_checks h hz hmask hmirror ha hst
  case stop => exact fun id s c h ⟨hz, ha⟩ hst => execArrStop_drains h hz ha hst
  case stopFailed => exact fun id s c h ⟨hz, ha, hst⟩ => execArrStop_stops h hz ha hst
  case drained =>
    intro a s x t hx ⟨ha, hst, hrun, hcache, hres⟩ hclosed hwaits ht
    have hstop := execArrDrainComplete_stops hx ha hst hrun hcache hres hclosed hwaits ht
    cases hcmd : x.cmd <;> (rw [hcmd] at hstop; exact hstop)
  case lostlist => exact fun id s c all h hw ⟨hz, ha, haddr, hst⟩ hall => execArrLostlist_lists h hw hz ha haddr hst hall
  case vaultInfo => exact fun id s c r h hw ⟨hz, ha, haddr⟩ hr => execArrVaultInfo_reports h hw hz ha haddr hr
  case imports => exact fun id s c h ⟨hz, ha⟩ hst => execArrImport_checks h hz ha hst
  case volCreate => exact fun id s c h ⟨hz, hflags, hv, ha, hst⟩ => execVolCreate_checks h hz hflags hv ha hst
  case volResize => exact fun id s c h ⟨hz, hv, hst⟩ => execVolResize_checks h hz hv hst
  case destroy =>
    rintro id s c _ h rfl ⟨hz, hv, hst, harr⟩ ⟨hwait, hexp, hname⟩ hidle
    exact execVolDestroy_drops h hz hv hst harr hwait hexp hname hidle
  case owner =>
    rintro id s c _ h rfl ⟨hz, hv, hst, harr⟩ ⟨hflags, howner⟩ ⟨hwait, hexp, hname, hidle⟩
    exact execVolOwner_names h hz hv hst harr hflags howner hwait hexp hname hidle
  case mapc => exact fun r v s hr => busRow_reachable hr ..
  case destroyGo => exact fun r v s ⟨hr, hl⟩ => busRow_gWrite_holds hr hl ..
  case dp =>
    intro r p v s ⟨hp, hr, hl⟩
    rw [exec_arcDpWrite, execArcDpWrite, if_neg (Nat.not_lt.2 hp), busRow_gWrite_holds hr hl]

end Sys2Proof.Machine
end

section
/-! Reads, writes and trims of volumes (09_arrays_and_writes.md): a command's checks in their order, and what one that waits does once
its map leaf or its space is there. -/

namespace Sys2Proof.Machine

/-! ## The checks of a command (R292, R294) -/

/-- Neither bound of a command's block count is passed. -/
theorem count_ok {n m : Nat} (h0 : n ≠ 0) (hn : n ≤ m) : (decide (n = 0) || decide (m < n)) = false := by
  simp [h0, Nat.not_lt.2 hn]

section Begin
variable {s : State} {c : Cmd}

/-! A read (R279, R293) -/

/-- A read with a reserved bit. -/
theorem beginRead_reserved (hz : c.volZeros = false) : s.beginRead c = s.done c.id 0x0100 := by
  simp [State.beginRead, hz]

section Read
variable (hz : c.volZeros = true)
include hz

/-- A read of no block, or of more than 256. -/
theorem beginRead_count (hn : c.f 12 4 = 0 ∨ 256 < c.f 12 4) : s.beginRead c = s.done c.id 0x0105 := by
  simp [State.beginRead, hz, hn]

variable (h0 : c.f 12 4 ≠ 0) (hn : c.f 12 4 ≤ 256)
include h0 hn

/-- A read that its volume refuses. -/
theorem beginRead_refused (he : s.volRefusal c.ctx.toNat (c.f 8 2) (c.f 16 8) (c.f 12 4) false ≠ 0) :
    s.beginRead c = s.done c.id (s.volRefusal c.ctx.toNat (c.f 8 2) (c.f 16 8) (c.f 12 4) false) := by
  simp [State.beginRead, hz, count_ok h0 hn, he]

variable (he : s.volRefusal c.ctx.toNat (c.f 8 2) (c.f 16 8) (c.f 12 4) false = 0)
include he

/-- A read whose map leaves are not held fetches them and waits. -/
theorem beginRead_waits (hm : s.leafMiss (c.f 8 2) (c.f 16 8) (c.f 16 8 + c.f 12 4) = true) :
    s.beginRead c = (s.fetchLeaves (c.f 8 2) (c.f 16 8) (c.f 16 8 + c.f 12 4)).phase c.id waitLeaf := by
  simp [State.beginRead, hz, count_ok h0 hn, he, hm]

/-- A read whose map leaves are held reads the blocks. -/
theorem beginRead_reads (hm : s.leafMiss (c.f 8 2) (c.f 16 8) (c.f 16 8 + c.f 12 4) = false) :
    s.beginRead c = (s.touch (c.f 8 2) (c.f 16 8) (c.f 16 8 + c.f 12 4) false).volRead c := by
  simp [State.beginRead, hz, count_ok h0 hn, he, hm]

end Read

/-! A write (R282, R293) -/

/-- A write with a reserved bit. -/
theorem beginWrite_reserved (hz : c.volZeros = false) : s.beginWrite c = s.done c.id 0x0100 := by
  simp [State.beginWrite, hz]

section Write
variable (hz : c.volZeros = true)
include hz

/-- A write of no block, or of more than 256. -/
theorem beginWrite_count (hn : c.f 12 4 = 0 ∨ 256 < c.f 12 4) : s.beginWrite c = s.done c.id 0x0105 := by
  simp [State.beginWrite, hz, hn]

variable (h0 : c.f 12 4 ≠ 0) (hn : c.f 12 4 ≤ 256)
include h0 hn

/-- A write that its volume refuses. -/
theorem beginWrite_refused (he : s.writeRefusal c ≠ 0) : s.beginWrite c = s.done c.id (s.writeRefusal c) := by
  simp [State.beginWrite, hz, count_ok h0 hn, he]

variable (he : s.writeRefusal c = 0)
include he

/-- A write whose map leaves are not held fetches them and waits. -/
theorem beginWrite_waits (hm : s.leafMiss (c.f 8 2) (c.f 16 8) (c.f 16 8 + c.f 12 4) = true) :
    s.beginWrite c = ((s.unlate c).fetchLeaves (c.f 8 2) (c.f 16 8) (c.f 16 8 + c.f 12 4)).phase c.id waitLeaf := by
  simp [State.beginWrite, hz, count_ok h0 hn, he, hm]

/-- A write whose map leaves are held starts. -/
theorem beginWrite_starts (hm : s.leafMiss (c.f 8 2) (c.f 16 8) (c.f 16 8 + c.f 12 4) = false) :
    s.beginWrite c = ((s.unlate c).touch (c.f 8 2) (c.f 16 8) (c.f 16 8 + c.f 12 4) false).startWrite c := by
  simp [State.beginWrite, hz, count_ok h0 hn, he, hm]

end Write

/-! Zeroes (kind 1) and a deallocation (kind 2) (R293) -/

section Trim
variable {kind : Nat}

/-- A trim with a reserved bit. -/
theorem trimBegin_reserved (hz : c.volZeros = false) : s.trimBegin kind c = s.done c.id 0x0100 := by
  simp [State.trimBegin, hz]

variable (hz : c.volZeros = true)
include hz

/-- A trim of no block, or with an address. -/
theorem trimBegin_operands (hn : c.f 12 4 = 0 ∨ c.f 24 8 ≠ 0) : s.trimBegin kind c = s.done c.id 0x0105 := by
  have hbad : (decide (c.f 12 4 = 0) || decide (c.f 24 8 ≠ 0)) = true := by simpa using hn
  simp only [State.trimBegin, hz, hbad, Bool.not_true, if_neg Bool.false_ne_true, if_true]

variable (h0 : c.f 12 4 ≠ 0) (haddr : c.f 24 8 = 0)
include h0 haddr

/-- A trim that its volume refuses; a failed array refuses zeroes alone. -/
theorem trimBegin_refused (he : s.volRefusal c.ctx.toNat (c.f 8 2) (c.f 16 8) (c.f 12 4) (kind = 1) ≠ 0) :
    s.trimBegin kind c = s.done c.id (s.volRefusal c.ctx.toNat (c.f 8 2) (c.f 16 8) (c.f 12 4) (kind = 1)) := by
  simp [State.trimBegin, hz, h0, haddr, he]

/-- A trim that nothing refuses takes effect where the journal has room for its entry, and waits for it elsewhere. -/
theorem trimBegin_admitted (he : s.volRefusal c.ctx.toNat (c.f 8 2) (c.f 16 8) (c.f 12 4) (kind = 1) = 0) :
    s.trimBegin kind c = if (s.arr (s.vol (c.f 8 2)).array).room 48 then s.trimNow kind c else s.phase c.id waitSpace := by
  simp [State.trimBegin, hz, h0, haddr, he]

end Trim
end Begin

/-! ## The commands (R293) -/

section Commands
variable {s : State} {id : Nat} {c : Cmd}

/-- VOL_READ is its checks. -/
theorem execVolRead_begins {t : State} (h : s.ready id 0x20 c = true) (hw : s.hostFree c = true) (ht : s.beginRead c = t) :
    execVolRead id s = .next t := by
  rw [execVolRead, hostWaits_ready h hw, if_neg Bool.false_ne_true, withCmd_ready h, ht]

/-- VOL_WRITE is its checks. -/
theorem execVolWrite_begins {t : State} (h : s.ready id 0x21 c = true) (hw : s.hostFree c = true) (ht : s.beginWrite c = t) :
    execVolWrite id s = .next t := by
  rw [execVolWrite, hostWaits_ready h hw, if_neg Bool.false_ne_true, withCmd_ready h, ht]

/-- VOL_WRITE_ZEROES is its checks. -/
theorem execVolWriteZeroes_begins {t : State} (h : s.ready id 0x23 c = true) (ht : s.trimBegin 1 c = t) :
    execVolWriteZeroes id s = .next t := by
  rw [execVolWriteZeroes, withCmd_ready h, ht]

/-- VOL_DEALLOC is its checks. -/
theorem execVolDealloc_begins {t : State} (h : s.ready id 0x24 c = true) (ht : s.trimBegin 2 c = t) :
    execVolDealloc id s = .next t := by
  rw [execVolDealloc, withCmd_ready h, ht]

section Flush
variable (h : s.ready id 0x22 c = true)
  (hlast : (s.hif.cmds.any fun x => x.id < id && x.origin = c.origin && x.writesVol (c.f 8 2)) = false)
include h hlast

/-- VOL_FLUSH behind which no write of its queue is outstanding is its checks (R293). -/
theorem execVolFlush_checks : execVolFlush id s = .next (if !c.volZeros then s.done id 0x0100
    else if c.f 12 4 ≠ 0 || c.f 24 8 ≠ 0 then s.done id 0x0105
    else s.done id (s.volRefusal c.ctx.toNat (c.f 8 2) 0 0 false)) := by
  rw [execVolFlush, ready_cmd h, Option.any_some, hlast, if_neg Bool.false_ne_true, withCmd_ready h]

/-- A flush with its fields 0 completes with its volume's status. -/
theorem execVolFlush_completes (hz : c.volZeros = true) (h0 : c.f 12 4 = 0) (haddr : c.f 24 8 = 0) :
    execVolFlush id s = .next (s.done id (s.volRefusal c.ctx.toNat (c.f 8 2) 0 0 false)) := by
  simp [execVolFlush_checks h hlast, hz, h0, haddr]

/-- A flush with a reserved bit. -/
theorem execVolFlush_reserved (hz : c.volZeros = false) : execVolFlush id s = .next (s.done id 0x0100) := by
  simp [execVolFlush_checks h hlast, hz]

/-- A flush with a block count or an address. -/
theorem execVolFlush_operands (hz : c.volZeros = true) (hn : c.f 12 4 ≠ 0 ∨ c.f 24 8 ≠ 0) :
    execVolFlush id s = .next (s.done id 0x0105) := by
  rw [execVolFlush_checks h hlast, hz, if_neg (by decide), if_pos (by simpa using hn)]

end Flush
end Commands

/-! ## Commands that wait (R279, R282) -/

section Waiting
variable {s : State} {id : Nat} {c : Cmd} (hc : s.cmd? id = some c) (hwait : s.hostWaits c = false) (hserve : s.serving c.op = true)
include hc hwait hserve

section Space
variable (hphase : c.phase = waitSpace) (harr : [3, 4, 6].contains (s.arr (s.vol (c.f 8 2)).array).state = true)
include hphase harr

/-- A ring's write that waits takes its space once the caches admit it and no earlier command is before it. -/
theorem execWriteCacheReserve_writes (hop : c.op = 0x21) (hr2t : s.heldR2t c = none)
    (hadm : s.admits c.ctx.toNat (c.f 8 2) (c.f 12 4) = true) (hfirst : s.spaceTaken id (s.vol (c.f 8 2)).array = false) :
    execWriteCacheReserve id s = .next (s.volWrite c) := by
  simp only [execWriteCacheReserve, hc, hop, hr2t, hphase, hwait, hop ▸ hserve, harr, hadm, hfirst]
  rfl

/-- A network write that waits asks its host for the data once the cache is below its limit. -/
theorem execWriteCacheReserve_asks {conn cid : Nat} (hop : c.op = 0x21) (hr2t : s.heldR2t c = some (conn, cid))
    (hroom : s.cacheFull (s.vol (c.f 8 2)).array = false) :
    execWriteCacheReserve id s = .next (((s.phase id .running).sendR2t conn cid 8).pump id conn cid 8) := by
  simp only [execWriteCacheReserve, hc, hop, hr2t, hphase, hwait, hop ▸ hserve, harr, hroom]
  rfl

/-- Zeroes or a deallocation that wait take effect once the journal has room. -/
theorem execWriteCacheReserve_trims (hop : c.op = 0x23 ∨ c.op = 0x24) (hroom : (s.arr (s.vol (c.f 8 2)).array).room 48 = true) :
    execWriteCacheReserve id s = .next (s.trimNow (if c.op = 0x23 then 1 else 2) c) := by
  have hne : c.op ≠ 0x21 := by omega
  have hin : [0x23, 0x24].contains c.op = true := by simpa using hop
  simp only [execWriteCacheReserve, hc, if_pos hne, hphase, hwait, hserve, harr, hin, hroom]
  rfl

end Space

section Leaf
variable (hphase : c.phase = waitLeaf)
include hphase

/-- The arrival of a map leaf judges its command by the array's state, and goes on with it where that admits it. -/
theorem execLeafReadComplete_judges : execLeafReadComplete id s = .next
    (if s.lateRefusal (c.f 8 2) (c.op ≠ 0x20) ≠ 0 then s.done id (s.lateRefusal (c.f 8 2) (c.op ≠ 0x20))
    else if c.op = 0x20 then ((s.touch (c.f 8 2) (c.f 16 8) (c.f 16 8 + c.f 12 4) false).phase id .fetched).volRead c
    else ((s.touch (c.f 8 2) (c.f 16 8) (c.f 16 8 + c.f 12 4) false).phase id .fetched).startWrite c) := by
  simp only [execLeafReadComplete, hc, hphase, hwait, hserve, decide_true, Bool.not_false, Bool.and_true, if_true]
  split <;> rfl

/-- A read whose leaf has arrived. -/
theorem execLeafReadComplete_read (hop : c.op = 0x20) (he : s.lateRefusal (c.f 8 2) false = 0) : execLeafReadComplete id s =
    .next (((s.touch (c.f 8 2) (c.f 16 8) (c.f 16 8 + c.f 12 4) false).phase id .fetched).volRead c) := by
  simp [execLeafReadComplete_judges hc hwait hserve hphase, hop, he]

/-- A read whose leaf has arrived in an array that no longer serves. -/
theorem execLeafReadComplete_readRefused (hop : c.op = 0x20) (he : s.lateRefusal (c.f 8 2) false ≠ 0) :
    execLeafReadComplete id s = .next (s.done id (s.lateRefusal (c.f 8 2) false)) := by
  simp [execLeafReadComplete_judges hc hwait hserve hphase, hop, he]

/-- A write whose leaf has arrived. -/
theorem execLeafReadComplete_write (hop : c.op ≠ 0x20) (he : s.lateRefusal (c.f 8 2) true = 0) : execLeafReadComplete id s =
    .next (((s.touch (c.f 8 2) (c.f 16 8) (c.f 16 8 + c.f 12 4) false).phase id .fetched).startWrite c) := by
  simp [execLeafReadComplete_judges hc hwait hserve hphase, hop, he]

/-- A write whose leaf has arrived in an array that no longer takes writes. -/
theorem execLeafReadComplete_writeRefused (hop : c.op ≠ 0x20) (he : s.lateRefusal (c.f 8 2) true ≠ 0) :
    execLeafReadComplete id s = .next (s.done id (s.lateRefusal (c.f 8 2) true)) := by
  simp [execLeafReadComplete_judges hc hwait hserve hphase, hop, he]

end Leaf
end Waiting

/-- Settles O18, row by row: a command is its checks, in their order. -/
theorem volumeCompletes : Obligations.VolumeCompletes := by
  refine ⟨?readReserved, ?readCount, ?readRefused, ?readWaits, ?reads, ?writeReserved, ?writeCount, ?writeRefused, ?writeWaits, ?writes,
    ?flush, ?flushReserved, ?flushOperands, ?zeroesReserved, ?zeroesOperands, ?zeroesRefused, ?zeroes, ?deallocReserved, ?deallocOperands,
    ?deallocRefused, ?dealloc, ?spaceWrites, ?spaceAsks, ?spaceTrims, ?leafRead, ?leafWrite, ?leafWriteRefused, ?leafReadRefused⟩
  case readReserved => exact fun id s c h hw hz => execVolRead_begins h hw (ready_id h ▸ beginRead_reserved hz)
  case readCount => exact fun id s c h hw ⟨hz, hn⟩ => execVolRead_begins h hw (ready_id h ▸ beginRead_count hz hn)
  case readRefused => exact fun id s c h hw ⟨hz, h0, hn, he⟩ => execVolRead_begins h hw (ready_id h ▸ beginRead_refused hz h0 hn he)
  case readWaits =>
    exact fun id s c h hw ⟨hz, h0, hn, he⟩ hm => execVolRead_begins h hw (ready_id h ▸ beginRead_waits hz h0 hn he hm)
  case reads => exact fun id s c h hw ⟨hz, h0, hn, he⟩ hm => execVolRead_begins h hw (beginRead_reads hz h0 hn he hm)
  case writeReserved => exact fun id s c h hw hz => execVolWrite_begins h hw (ready_id h ▸ beginWrite_reserved hz)
  case writeCount => exact fun id s c h hw ⟨hz, hn⟩ => execVolWrite_begins h hw (ready_id h ▸ beginWrite_count hz hn)
  case writeRefused =>
    exact fun id s c h hw ⟨hz, h0, hn, he⟩ => execVolWrite_begins h hw (ready_id h ▸ beginWrite_refused hz h0 hn he)
  case writeWaits =>
    exact fun id s c h hw ⟨hz, h0, hn, he⟩ hm => execVolWrite_begins h hw (ready_id h ▸ beginWrite_waits hz h0 hn he hm)
  case writes => exact fun id s c h hw ⟨hz, h0, hn, he⟩ hm => execVolWrite_begins h hw (beginWrite_starts hz h0 hn he hm)
  case flush => exact fun id s c h hlast ⟨hz, h0, haddr⟩ => execVolFlush_completes h hlast hz h0 haddr
  case flushReserved => exact fun id s c h hlast hz => execVolFlush_reserved h hlast hz
  case flushOperands => exact fun id s c h hlast ⟨hz, hn⟩ => execVolFlush_operands h hlast hz hn
  case zeroesReserved => exact fun id s c h hz => execVolWriteZeroes_begins h (ready_id h ▸ trimBegin_reserved hz)
  case zeroesOperands => exact fun id s c h ⟨hz, hn⟩ => execVolWriteZeroes_begins h (ready_id h ▸ trimBegin_operands hz hn)
  case zeroesRefused =>
    exact fun id s c h ⟨hz, h0, haddr, he⟩ => execVolWriteZeroes_begins h (ready_id h ▸ trimBegin_refused hz h0 haddr he)
  case zeroes =>
    exact fun id s c h ⟨hz, h0, haddr, he⟩ => execVolWriteZeroes_begins h (ready_id h ▸ trimBegin_admitted hz h0 haddr he)
  case deallocReserved => exact fun id s c h hz => execVolDealloc_begins h (ready_id h ▸ trimBegin_reserved hz)
  case deallocOperands => exact fun id s c h ⟨hz, hn⟩ => execVolDealloc_begins h (ready_id h ▸ trimBegin_operands hz hn)
  case deallocRefused =>
    exact fun id s c h ⟨hz, h0, haddr, he⟩ => execVolDealloc_begins h (ready_id h ▸ trimBegin_refused hz h0 haddr he)
  case dealloc => exact fun id s c h ⟨hz, h0, haddr, he⟩ => execVolDealloc_begins h (ready_id h ▸ trimBegin_admitted hz h0 haddr he)
  case spaceWrites =>
    exact fun id s c hc ⟨hop, hphase, hwait, hserve, hr2t⟩ ⟨harr, hadm, hfirst⟩ =>
      execWriteCacheReserve_writes hc hwait (hop ▸ hserve) hphase harr hop hr2t hadm hfirst
  case spaceAsks =>
    exact fun id s c conn cid hc ⟨hop, hphase, hwait, hserve, hr2t⟩ ⟨harr, hroom⟩ =>
      execWriteCacheReserve_asks hc hwait (hop ▸ hserve) hphase harr hop hr2t hroom
  case spaceTrims =>
    exact fun id s c hc ⟨hop, hphase, hwait, hserve⟩ ⟨harr, hroom⟩ =>
      execWriteCacheReserve_trims hc hwait hserve hphase harr hop hroom
  case leafRead =>
    exact fun id s c hc ⟨hphase, hwait, hserve, hop⟩ he => execLeafReadComplete_read hc hwait hserve hphase hop he
  case leafWrite =>
    exact fun id s c hc ⟨hphase, hwait, hserve, hop⟩ he => execLeafReadComplete_write hc hwait hserve hphase hop he
  case leafWriteRefused =>
    exact fun id s c hc ⟨hphase, hwait, hserve, hop⟩ he => execLeafReadComplete_writeRefused hc hwait hserve hphase hop he
  case leafReadRefused =>
    exact fun id s c hc ⟨hphase, hwait, hserve, hop⟩ he => execLeafReadComplete_readRefused hc hwait hserve hphase hop he

end Sys2Proof.Machine
end

section
/-! Events on the media (09_arrays_and_writes.md, 10_rebuild_reshape_power_loss.md): what each answers where its conditions hold. -/

namespace Sys2Proof.Machine

/-! ## Stripes (R273, R274) -/

section Stripes
variable {s : State} {a : Nat} (hwr : s.arrWrites a = true)
include hwr

/-- A stream that needs a stripe and has none opens the next slot. -/
theorem execStripeOpen_opens {stream i : Nat} (hopen : (s.arr a).openOf stream = none) (hneed : s.streamNeeds a stream = true)
    (hroom : (s.arr a).opensRoom = true) (hi : s.nextSlot a = some i) :
    execStripeOpen a stream s = .next ((s.openStripe a i stream).fillStream a stream) := by
  simp only [execStripeOpen, hwr, hopen, hneed, hroom, hi]
  rfl

/-- An open stripe that has waited for CLOSE_US closes, unless a block comes that fills it. -/
theorem execStripeCloseTimeout_closes {stream i : Nat} (hopen : (s.arr a).openOf stream = some i)
    (hblocks : ((s.arr a).stripe i).blocks ≠ []) (hdue : s.elapsed ((s.arr a).stripe i).at_ (1000 * (s.arr a).closeUs) = true) :
    execStripeCloseTimeout a stream s = .next (if s.comes (fun c => stream = 0 && s.fills a i c) then s else s.closeStripe a i) := by
  simp only [execStripeCloseTimeout, hopen]
  exact timeout_pos (by simp [hwr, hblocks, hdue]) ..

/-- A closed stripe whose data can be written is committed and sealed. -/
theorem execStripeCommit_seals {st : Nat} (hst : ((s.arr a).stripe st).state = 2)
    (hk : ((s.arr a).geoOf st).k ≤ (s.writable a st).length)
    (horder : (((s.arr a).stripe st).stream = 0 && (s.arr a).olderHost st) = false) :
    execStripeCommit a st s = .next ((((s.stripeWritten a st).commitStream a st ((s.arr a).stripe st).stream).sealStripe a
      st).fillHost a) :=
  when_pos (by simp only [hwr, hst, decide_eq_true hk, horder]; rfl) ..

/-- A sealed stripe without a live block is freed, with room in the journal for its entry. -/
theorem execStripeFree_frees {st : Nat} (hst : 3 ≤ ((s.arr a).stripe st).state) (hlive : s.liveOf a st = [])
    (hroom : (s.arr a).room 32 = true) :
    execStripeFree a st s = .next ((fun t : State => if ((s.arr a).stripe st).lostOfs.isEmpty then t else t.writeSys a)
      (s.updArr a fun y => (y.updStripe st fun z => { gen := z.gen }).append (.stripeFree st ((s.arr a).stripe st).gen))) :=
  when_pos (by simp [hwr, hst, hlive, hroom]) ..

/-! ## Harvest and the checkpoint (R280, R289) -/

/-- Harvest moves the live blocks of its victim. -/
theorem execHarvest_moves {i : Nat} (hi : s.victim a = some i) (hst : (s.arr a).state ≠ 6) :
    execHarvest a s = .next ((s.updArr a fun y => y.updStripe i fun z => { z with state := 4 }).fillHarvest a) := by
  simp only [execHarvest, hi]
  exact when_pos (by simp [hwr, hst]) ..

/-- A checkpoint that is due and whose pages can be written. -/
theorem execMapCheckpoint_writes {t : State}
    (hdue : ringBytes ≤ 2 * (s.arr a).journalUsed ∨ (s.arr a).ckptAt.toNat + 10000000000 ≤ s.alm ∨
      s.pwr.phase = 3 ∧ (s.arr a).cache = []) (ht : s.checkpoint? a = some t) : execMapCheckpoint a s = .next t := by
  have hdue' : (decide (ringBytes ≤ 2 * (s.arr a).journalUsed) || decide ((s.arr a).ckptAt.toNat + 10000000000 ≤ s.alm) ||
      (decide (s.pwr.phase = 3) && (s.arr a).cache.isEmpty)) = true := by simpa [or_assoc] using hdue
  simp only [execMapCheckpoint, hwr, hdue', ht]
  rfl

end Stripes

/-! ## Members (R265, R312) -/

section Members
variable {s : State} {n : Nat} (hn : n < 64) (hworks : (s.member n).works = true)
include hn hworks

/-- The member's number is in range and the member works. -/
theorem member_in_use : (decide (n < 64) && (s.member n).works) = true := by
  simp [hn, hworks]

/-- A command's timeout aborts it and resets the drive; a failed retry fails the member. -/
theorem execMemberCommandTimeout_aborts (retryOk : Bool) :
    execMemberCommandTimeout n retryOk s = .next
      (if s.comes (fun i => match i with | .memberCommandCompletion m _ _ => m = n | _ => false) then s
      else if retryOk then (s.emit (.memberCmd n .abort)).emit (.memberReset n)
      else ((s.emit (.memberCmd n .abort)).emit (.memberReset n)).failMember n) :=
  timeout_pos (member_in_use hn hworks) ..

/-- An access without a media error clears the block's mark. -/
theorem execMemberCommandCompletion_good (blk : Nat) :
    execMemberCommandCompletion n blk false s = .next (s.setMember n { s.member n with bad := put false (s.member n).bad blk false }) := by
  simp only [execMemberCommandCompletion, member_in_use hn hworks, Bool.not_true, if_neg Bool.false_ne_true, Bool.false_and]
  split <;> rfl

/-- A media error marks the block, and a live data block of a sealed stripe is read again from the others. -/
theorem execMemberCommandCompletion_bad {blk p : Nat} {x : Arr} {g : Geo} {i e abn : Nat} {t : State}
    (hx : x = s.arr (s.member n).array) (hi : i = (blk - x.chunkBlk 0 0) / 16) (hg : g = x.geoOf i) (hp : g.posOf n = some p)
    (he : e = (p + g.n - i % g.n) % g.n) (habn : abn = x.baseAbn i + 16 * e + (blk - x.chunkBlk 0 0) % 16)
    (ht : t = s.setMember n { s.member n with bad := put false (s.member n).bad blk true }) :
    execMemberCommandCompletion n blk true s = .next
      (if x.chunkBlk 0 0 ≤ blk && s.memberUp (s.member n).array n && 3 ≤ (x.stripe i).state && e < g.k &&
        !(s.liveIn (s.member n).array abn (abn + 1)).isEmpty
      then t.afterRead (s.member n).array (t.readAbn (s.member n).array abn) else t) := by
  subst hx hi hg he habn ht
  simp only [execMemberCommandCompletion, member_in_use hn hworks, hp]
  rfl

/-- A link that goes down takes its bit out of the port's and fails the member. -/
theorem execMemberLinkDown_link :
    execMemberLinkDown (.link n) s = .next (({ s with
      arc := { s.arc with
        up := put 0 s.arc.up (s.member n).dp.toNat
          (look 0 s.arc.up (s.member n).dp.toNat &&& ~~~(BitVec.ofNat 4 (2 ^ (s.member n).link))) } } : State).failMember n) :=
  when_pos (member_in_use hn hworks) ..

/-- A fatal status fails the member. -/
theorem execMemberLinkDown_fatal : execMemberLinkDown (.fatalStatus n) s = .next (s.failMember n) :=
  when_pos (member_in_use hn hworks) ..

end Members

/-! ## Rebuild (R316, R319) -/

/-- An ARR_REBUILD of the row's action with its fields in range is the action. -/
theorem rebuildCmd_ready {s : State} {id action : Nat} {c : Cmd} (h : s.ready id 0x9C c = true) (haction : action ≤ 2)
    (hact : c.f 9 1 = action) (hz : c.zeros [(14, 18)] = true) (ha : c.f 8 1 ≤ 63) (hrate : c.f 12 2 ≤ 4095) (what : String)
    (k : Cmd → Nat → State) : rebuildCmd s id action what k = .next (k c (c.f 8 1)) := by
  have hsame : min (c.f 9 1) 3 % 3 = action := by omega
  rw [rebuildCmd, ready_cmd h, Option.any_some, hsame, if_neg (by simp), withCmd_ready h]
  simp [hz, Nat.not_lt.2 ha, hact, Nat.not_lt.2 haction, Nat.not_lt.2 hrate]

/-- A rebuild in the action's source state of an array in service takes the rate and goes to the destination. -/
theorem rebuildTo_moves {s : State} {id a rate src dest : Nat} (hsrc : (s.arr a).rebuild.state = src)
    (hst : (s.arr a).state = 4 ∨ (s.arr a).state = 5) :
    s.rebuildTo id a rate src dest = ((s.setRbRate a rate).updArr a fun x =>
      { x with rebuild := { x.rebuild with state := dest } }).complete id 0 0 (BitVec.ofNat 32 (s.arr a).rebuild.member) := by
  simp [State.rebuildTo, hsrc, hst]

/-- ARR_REBUILD start waits for its check where no rebuild runs. -/
theorem execArrRebuildStart_checks {s : State} {id : Nat} {c : Cmd} (h : s.ready id 0x9C c = true) (hact : c.f 9 1 = 0)
    (hz : c.zeros [(14, 18)] = true) (ha : c.f 8 1 ≤ 63) (hrate : c.f 12 2 ≤ 4095) (hidle : (s.arr (c.f 8 1)).rebuild.state < 2)
    (hst : (s.arr (c.f 8 1)).state = 4 ∨ (s.arr (c.f 8 1)).state = 5) :
    execArrRebuildStart id s = .next ((s.phase id .checking).queueCheck .arc (.arrRebuild id)) := by
  have hin : [4, 5].contains (s.arr (c.f 8 1)).state = true := by simpa using hst
  rw [execArrRebuildStart, rebuildCmd_ready h (by decide) hact hz ha hrate, if_neg (Nat.not_le.2 hidle), hin]
  rfl

/-- The cursor's step over a slot that is not waiting for its seal: what the slot holds is rebuilt where it is sealed and not rebuilt
yet, progress is recorded each time enough has been written, and the last slot ends the rebuild. -/
theorem execRebuildCursorStep_steps {s r t u : State} {a : Nat} {x : Arr} {writes : Bool} (hx : s.arr a = x) (ha : a < 64)
    (hrb : x.rebuild.state = 2) (hst : x.state = 4 ∨ x.state = 5) (hrun : s.arcRuns = true)
    (hseal : ((x.stripe x.rebuild.cur).state = 2 && !(x.stripe x.rebuild.cur).rebuilt) = false)
    (hw : writes = (3 ≤ (x.stripe x.rebuild.cur).state && !(x.stripe x.rebuild.cur).rebuilt))
    (hr : r = match (if writes then (x.geoOf x.rebuild.cur).posOf x.rebuild.old else none) with
      | some p => (s.readSources a x.rebuild.cur ((p + (x.geoOf x.rebuild.cur).n - x.rebuild.cur % (x.geoOf x.rebuild.cur).n) %
        (x.geoOf x.rebuild.cur).n) (x.stripe x.rebuild.cur)).fillTarget a x.rebuild.cur
      | none => if writes then s.fillTarget a x.rebuild.cur else s)
    (ht : t = r.updArr a fun y => { y with rebuild := { y.rebuild with
      cur := y.rebuild.cur + 1, since := if writes then y.rebuild.since + 65536 else y.rebuild.since } })
    (hu : u = if recordBytes ≤ (t.arr a).rebuild.since then t.writeProgress a else t) :
    execRebuildCursorStep a s = .next (if x.slotsNeeded ≤ x.rebuild.cur + 1 then u.endRebuild a else u) := by
  subst hx hw hr ht hu
  have hgo : (!(decide (a < 64) && decide ((s.arr a).rebuild.state = 2) && [4, 5].contains (s.arr a).state && s.arcRuns)) = false := by
    simp [ha, hrb, hst, hrun]
  simp only [execRebuildCursorStep, hgo, hseal]
  rfl

/-! ## Reshape (R323, R325) -/

/-- ARR_RESHAPE of a complete array that neither rebuilds nor reshapes waits for its check. -/
theorem execArrReshape_checks {s : State} {id : Nat} {c : Cmd} (h : s.ready id 0x9D c = true)
    (hz : c.zeros [(11, 1), (14, 18), (68, 28)] = true) (ha : c.f 8 1 ≤ 63) (hrate : c.f 12 2 ≤ 4095)
    (hre : (s.arr (c.f 8 1)).reshaping = false) (hrb : (s.arr (c.f 8 1)).rebuild.state < 2) (hst : (s.arr (c.f 8 1)).state = 3) :
    execArrReshape id s = .next ((s.phase id .checking).queueCheck .arc (.arrReshape id)) := by
  simp [execArrReshape, withCmd_ready h, hz, Nat.not_lt.2 ha, Nat.not_lt.2 hrate, hre, Nat.not_le.2 hrb, hst]

section Step
variable {s : State} {a : Nat} {x : Arr} (hx : s.arr a = x) (hwr : s.arrWrites a = true) (hst : x.state ≠ 6)
  (hre : x.reshape.state = 1)
include hx hwr hst hre

/-- A step of a reshape that moves, by what has been written since the last record and by the slot at B. -/
theorem execReshapeStep_moves : execReshapeStep a s =
    if recordBytes ≤ x.reshape.since then afterCheckpoint (s.advanceDurable a x.reshape.b)
    else if x.s ≤ x.reshape.b then
      afterCheckpoint ((s.updArr a fun y => { y with reshape := { y.reshape with state := 3 } }).advanceDurable a x.s)
    else if (x.stripe x.reshape.b).state = 0 then .next (s.updArr a fun y => { y with reshape := { y.reshape with b := y.reshape.b + 1 } })
    else if (x.stripe x.reshape.b).state = 3 then
      .next ((s.updArr a fun y => y.updStripe x.reshape.b fun z => { z with state := 4 }).fillHarvest a)
    else no "slot B is not yet FREE" := by
  subst hx
  exact if_neg (by simp [hwr, hst, hre])

/-- With enough written since the last record, B is recorded. -/
theorem execReshapeStep_records {t : State} (hsince : recordBytes ≤ x.reshape.since) (ht : s.advanceDurable a x.reshape.b = some t) :
    execReshapeStep a s = .next t := by
  rw [execReshapeStep_moves hx hwr hst hre, if_pos hsince, ht]
  rfl

variable (hsince : x.reshape.since < recordBytes)
include hsince

/-- Past the last slot of the old geometry the reshape has moved everything. -/
theorem execReshapeStep_last {t : State} (hb : x.s ≤ x.reshape.b)
    (ht : (s.updArr a fun y => { y with reshape := { y.reshape with state := 3 } }).advanceDurable a x.s = some t) :
    execReshapeStep a s = .next t := by
  rw [execReshapeStep_moves hx hwr hst hre, if_neg (Nat.not_le.2 hsince), if_pos hb, ht]
  rfl

variable (hb : x.reshape.b < x.s)
include hb

/-- A FREE slot is passed. -/
theorem execReshapeStep_passes (hslot : (x.stripe x.reshape.b).state = 0) :
    execReshapeStep a s = .next (s.updArr a fun y => { y with reshape := { y.reshape with b := y.reshape.b + 1 } }) := by
  rw [execReshapeStep_moves hx hwr hst hre, if_neg (Nat.not_le.2 hsince), if_neg (Nat.not_le.2 hb), if_pos hslot]

/-- A SEALED slot is harvested. -/
theorem execReshapeStep_harvests (hslot : (x.stripe x.reshape.b).state = 3) :
    execReshapeStep a s = .next ((s.updArr a fun y => y.updStripe x.reshape.b fun z => { z with state := 4 }).fillHarvest a) := by
  rw [execReshapeStep_moves hx hwr hst hre, if_neg (Nat.not_le.2 hsince), if_neg (Nat.not_le.2 hb), if_neg (by simp [hslot]), if_pos hslot]

end Step

/-- The end of a reshape: the members that leave lose their labels, the new geometry is the array's, and the others take their
positions in it. -/
theorem execReshapeFinish_finishes {s s1 s2 s3 s4 : State} {a : Nat} {x : Arr} {gone : List Nat} (hx : s.arr a = x) (ha : a < 64)
    (hst : x.state = 3 ∨ x.state = 4) (hre : x.reshape.state = 3) (hrun : s.arcRuns = true)
    (hgone : gone = (x.members ++ if 2 ≤ x.rebuild.state && (x.reshape.rename x.rebuild.old).isNone then [x.rebuild.member] else
      []).filter fun y => !x.reshape.pos.contains y)
    (h1 : s1 = gone.foldl (fun (y : State) z => if [3, 5].contains (y.member z).state then y.eraseLabels z else y) s)
    (h2 : s2 = s1.updArr a Arr.finishReshape)
    (h3 : s3 = x.reshape.pos.zipIdx.foldl
      (fun (y : State) e => y.updMember e.1 fun w => if w.state = 3 then { w with pos := e.2 } else w) s2)
    (h4 : s4 = if 2 ≤ (s3.arr a).rebuild.state
      then s3.updMember (s3.arr a).rebuild.member fun w => { w with pos := (s3.arr a).rebuild.pos } else s3) :
    execReshapeFinish a s = .next (((((s4.judge a).writeLabels a false).writeSys a).writeProgress a).nextRebuild a) := by
  subst hx hgone h1 h2 h3 h4
  exact if_neg (by simp [ha, hst, hre, hrun])

/-! ## Power loss and replay (R328, R332) -/

/-- PWRFAIL_N freezes every array, ends the connections, gates the tiles and goes on to the vault. -/
theorem execFreeze_freezes {s v : State} (hpf : s.arc.pf = 0) (hpin : (look {} s.evc.pins 0).flt = false)
    (hv : v = (List.range 64).foldl (fun (y : State) a => y.freezeArr a) s) :
    execFreeze s = .next (({ v with
      arc := { v.arc with pf := 1, freezeAlm := s.clk.alm }
      net := { v.net with conns := [], ctrls := [] } }.onTiles 0 fun t => { t with gated := true }).settleVault) := by
  have hlow : (!(decide (s.arc.pf = 0) && !(look {} s.evc.pins 0).flt)) = false := by rw [hpf, hpin]; rfl
  rw [execFreeze, hlow, if_neg Bool.false_ne_true, ← hv]

/-- A member that is up writes its stream of the image, and the seal behind it. -/
theorem execVaultSeal_seals {s : State} {a n v : Nat} {x : Arr} {sl : List (List Byte)} (hx : s.arr a = x)
    (hv : x.streams.findIdx? (· = n) = some v) (hpf : s.arc.pf = 1) (ha : a < 64) (hup : s.memberUp a n = true)
    (hvault : s.vaulted a = true) (hnew : x.seals.contains n = false) (hsl : sl = x.imageSlots v) :
    execVaultSeal a n s = .next ((((s.writeMember n (imageBlk 0) sl.flatten).writeMember n sealBlk
      (sealBytes (x.vaultHdr s.arc.freezeAlm v) sl)).updArr a fun y => { y with seals := y.seals ++ [n] }).settleVault) := by
  subst hx hsl
  simp only [execVaultSeal, hv]
  exact when_pos (by simp only [hpf, ha, hup, hvault, hnew]; rfl) ..

/-- A replay that has ended brings its array up, and the command that waits for it completes. -/
theorem execReplayEnd_bringsUp {s : State} {a : Nat} (ha : a < 64) (hst : (s.arr a).state = 2) (hrun : s.arcRuns = true) :
    execReplayEnd a s = .next (match (s.arr a).cmd with
      | some id => ((s.replay a).bringUp a).done id 0
      | none => (s.replay a).bringUp a) :=
  when_pos (by simp [ha, hst, hrun]) ..

/-- Settles O19, row by row. -/
theorem mediaCompletes : Obligations.MediaCompletes := by
  refine ⟨?opens, ?close, ?commit, ?free, ?harvest, ?checkpoint, ?timeout, ?good, ?bad, ?linkDown, ?fatal, ?start, ?pause, ?resume,
    ?cursor, ?reshape, ?passes, ?harvests, ?last, ?records, ?finish, ?freeze, ?seals, ?replay, ?replayCmd⟩
  case opens => exact fun a stream s i ⟨hwr, hopen, hneed, hroom⟩ hi => execStripeOpen_opens hwr hopen hneed hroom hi
  case close => exact fun a stream s i hopen ⟨hwr, hblocks, hdue⟩ => execStripeCloseTimeout_closes hwr hopen hblocks hdue
  case commit =>
    rintro a st s _ _ rfl rfl ⟨hwr, hst, hk, horder⟩
    exact execStripeCommit_seals hwr hst hk horder
  case free => exact fun a st s ⟨hwr, hst, hlive, hroom⟩ => execStripeFree_frees hwr hst hlive hroom
  case harvest => exact fun a s i hi ⟨hwr, hst⟩ => execHarvest_moves hwr hi hst
  case checkpoint => exact fun a s t hwr hdue ht => execMapCheckpoint_writes hwr hdue ht
  case timeout => exact fun n retryOk s ⟨hn, hworks⟩ => execMemberCommandTimeout_aborts hn hworks retryOk
  case good =>
    rintro n blk _ s ⟨hn, hworks⟩ rfl
    exact execMemberCommandCompletion_good hn hworks blk
  case bad =>
    rintro n blk _ s x g i p e abn t ⟨hn, hworks⟩ ⟨rfl, hx⟩ ⟨hi, hg⟩ hp he habn ht
    exact execMemberCommandCompletion_bad hn hworks hx hi hg hp he habn ht
  case linkDown =>
    rintro _ s n rfl ⟨hn, hworks⟩
    exact execMemberLinkDown_link hn hworks
  case fatal =>
    rintro _ s n rfl ⟨hn, hworks⟩
    exact execMemberLinkDown_fatal hn hworks
  case start =>
    exact fun id s c h ⟨hact, hz, ha, hrate, hidle⟩ hst => execArrRebuildStart_checks h hact hz ha hrate hidle hst
  case pause =>
    intro id s c h ⟨hact, hz, ha, hrate, hrb⟩ hst
    rw [exec_arrRebuildPause, execArrRebuildPause, rebuildCmd_ready h (by decide) hact hz ha hrate, rebuildTo_moves hrb hst]
  case resume =>
    intro id s c h ⟨hact, hz, ha, hrate, hrb⟩ hst
    rw [exec_arrRebuildResume, execArrRebuildResume, rebuildCmd_ready h (by decide) hact hz ha hrate, rebuildTo_moves hrb hst]
  case cursor =>
    exact fun a s x writes r t u hx ⟨ha, hrb, hst, hrun⟩ hseal hw hr ht hu =>
      execRebuildCursorStep_steps hx ha hrb hst hrun hseal hw hr ht hu
  case reshape => exact fun id s c h ⟨hz, ha, hrate⟩ ⟨hre, hrb, hst⟩ => execArrReshape_checks h hz ha hrate hre hrb hst
  case passes => exact fun a s x hx ⟨hwr, hst, hre, hsince, hb⟩ hslot => execReshapeStep_passes hx hwr hst hre hsince hb hslot
  case harvests => exact fun a s x hx ⟨hwr, hst, hre, hsince, hb⟩ hslot => execReshapeStep_harvests hx hwr hst hre hsince hb hslot
  case last => exact fun a s x t hx ⟨hwr, hst, hre, hsince, hb⟩ ht => execReshapeStep_last hx hwr hst hre hsince hb ht
  case records => exact fun a s x t hx ⟨hwr, hst, hre, hsince⟩ ht => execReshapeStep_records hx hwr hst hre hsince ht
  case finish =>
    exact fun a s x gone s1 s2 s3 s4 hx ⟨ha, hst, hre, hrun⟩ hgone h1 h2 h3 h4 =>
      execReshapeFinish_finishes hx ha hst hre hrun hgone h1 h2 h3 h4
  case freeze => exact fun s v ⟨hpf, hpin⟩ hv => execFreeze_freezes hpf hpin hv
  case seals =>
    exact fun a n s x v sl hx hv ⟨hpf, ha, hup, hvault, hnew⟩ hsl => execVaultSeal_seals hx hv hpf ha hup hvault hnew hsl
  case replay =>
    intro a s ⟨ha, hst, hrun, hcmd⟩
    rw [exec_replayEnd, execReplayEnd_bringsUp ha hst hrun, hcmd]
  case replayCmd =>
    intro a s id ⟨ha, hst, hrun⟩ hcmd
    rw [exec_replayEnd, execReplayEnd_bringsUp ha hst hrun, hcmd]

end Sys2Proof.Machine
end

section
/-! The host queues and the device power states (11_host_queues.md, R346 to R371): what each row answers where its conditions
hold. -/

namespace Sys2Proof.Machine

/-! ## Queue records and windows (R346, R348, R352, R353, R361) -/

/-- A write of a queue record by a requester that reaches it. -/
theorem writeQrow_reachable {s : State} {r : Req} {q : Nat} (hq : q < 65536) (h : s.reachable r (0x800000 + q * 0x40) = true)
    (v : Word) : writeQrow r q v s = .next (s.writeQ r q 0 v) := by
  rw [writeQrow, if_neg (Nat.not_le.2 hq), busRow_reachable h]

/-- An access to a window that serves a queue reaches the queue. -/
theorem inWindow_serves {s : State} {r : Req} {win q : Nat} (h : s.windowQueue r win = some q) (ofs : Nat) (wr : Bool)
    (f : Nat → State) : s.inWindow r win ofs wr f = f q := by
  rw [State.inWindow, h]

/-- A push of whole aligned words within a window that serves a queue. -/
theorem execPushWrite_pushes {s : State} {r : Req} {win off q : Nat} {ws : List Word} (hr : s.reachesBar2 r win = true)
    (hoff : off < 256) (hal : off % 4 = 0) (hend : off + 4 * ws.length ≤ 256) (hne : ws ≠ []) (hw : s.windowQueue r win = some q) :
    execPushWrite r win off ws s = .next (s.inOrder r .bar2
      (ws.zipIdx.map fun e => (win * 0x1000 + 0x100 + off + 4 * e.2, e.1)) (s.pushBytes q off ws)) := by
  rw [execPushWrite, when_pos (by simp [hr, hoff, hne]), if_pos (by simp [hal, hend]), inWindow_serves hw]

/-! ## Fetch (R354 to R357) -/

section Turn
variable {q : Nat} {s : State} (hq : q < 65536) (he : s.hasEntry q = true) (ht : s.hasTurn q = true)
include hq he ht

/-- With no place on the CQ, fetching stops on every SQ that names it. -/
theorem execEntryFetch_stops (hp : s.placeOn (s.queue q).cqq.toNat = none) :
    execEntryFetch q s = .next
      ((s.sqsOf (s.queue q).cqq.toNat).foldl (fun y i => y.updQueue i fun z => { z with fstop := true }) s) := by
  simp only [execEntryFetch, hp]
  exact if_neg (by simp [hq, he, ht])

/-- With a place on the CQ, the SQ takes its turn and fetches. -/
theorem execEntryFetch_fetches {pl : Place} {u : State} (hp : s.placeOn (s.queue q).cqq.toNat = some pl)
    (hu : u = (s.takeTurn q).updQueue q fun z => { z with fstop := false }) :
    execEntryFetch q s = .next (u.fetchEntry q pl) := by
  subst hu
  simp only [execEntryFetch, hp]
  exact if_neg (by simp [hq, he, ht])

end Turn

section Entry
variable {u : State} {q : Nat}

/-- A first slot that cannot be read is a fetch error. -/
theorem fetchEntry_fails (h : u.slotFails q (u.queue q).sqc = true) (pl : Place) : u.fetchEntry q pl = u.fetchError q :=
  if_pos h

variable (h : u.slotFails q (u.queue q).sqc = false)
include h

/-- Padding is passed over, and takes no place. -/
theorem fetchEntry_padding (h0 : fieldLE (u.slots q (u.queue q).sqc (u.entrySlots q)) 0 1 = 0) (pl : Place) :
    u.fetchEntry q pl = u.consumeSlots q (u.entrySlots q) :=
  (if_neg (by simp [h])).trans (if_pos h0)

/-- An entry that can be read takes its place and is delivered; its header's check decides whether it goes on or completes. -/
theorem fetchEntry_delivers {bs : List Byte} (hbs : bs = u.slots q (u.queue q).sqc (u.entrySlots q)) (h0 : fieldLE bs 0 1 ≠ 0)
    (hall : ((List.range (u.entrySlots q)).any fun i => u.slotFails q ((u.queue q).sqc + BitVec.ofNat 32 i)) = false) (pl : Place) :
    u.fetchEntry q pl =
      if headerStatus bs (u.queueFn q) (u.entrySlots q < fieldLE bs 1 1 % 32 + 1) = 0 then
        (((u.consumeSlots q (u.entrySlots q)).updQueue (u.queue q).cqq.toNat fun z => z.takePlace pl).deliver q bs pl).powerOnFetch
          (fieldLE bs 0 1)
      else
        (((u.consumeSlots q (u.entrySlots q)).updQueue (u.queue q).cqq.toNat fun z => z.takePlace pl).deliver q bs pl).done u.hif.nextId
          (headerStatus bs (u.queueFn q) (u.entrySlots q < fieldLE bs 1 1 % 32 + 1)) := by
  subst hbs
  exact (if_neg (by simp [h])).trans ((if_neg h0).trans (if_neg (by rw [hall]; exact Bool.false_ne_true)))

end Entry

/-! ## Vectors and timeouts (R364, R370, R371) -/

/-- Unmasking a vector with a pending message sends it. -/
theorem execVectorUnmask_sends {s : State} {fn vec : Nat} (hfn : fn = 0 ∨ s.vfExists fn = true) (hvec : vec < s.vectorsOf fn)
    (hmask : look false (s.func fn).unmasked vec = false) (hpend : look false (s.func fn).pba vec = true) :
    execVectorUnmask fn vec s = .next ((s.updFunc fn fun f =>
      { f with unmasked := put false f.unmasked vec true, pba := put false f.pba vec false }).msix fn vec) := by
  have hexists : (decide (fn = 0) || s.vfExists fn) = true := by simpa using hfn
  rw [execVectorUnmask, if_neg (by simp only [hexists, hvec, hmask]; decide)]
  simp only [hpend, if_true]

/-- A command that has not started within its queue's CTMO ends, unless it starts in the same TCLK. -/
theorem execStartTimeout_ends {s : State} {id : Nat} {k : Cmd} (hk : s.cmd? id = some k) (hset : k.ctmo ≠ 0)
    (hidle : s.notStarted k = true) (hdue : s.elapsed k.fetchedAt (1000000 * k.ctmo.toNat) = true) :
    execStartTimeout id s = .next (if s.comes (fun i => startsCmd i = some id) then s else (s.forget id).done id 0x0802) := by
  simp only [execStartTimeout, hk]
  exact timeout_pos (by rw [decide_eq_true hset, hidle, hdue]; rfl) ..

/-- Settles O9, row by row; the rows of the fetch share the turn (`execEntryFetch_fetches`). -/
theorem queueCompletes : Obligations.QueueCompletes := by
  refine ⟨?sqEnable, ?cqEnable, ?sqDisable, ?cqDisable, ?doorbell, ?push, ?consume, ?noPlace, ?unreadable, ?padding, ?good, ?bad,
    ?fetchError, ?moderation, ?unmask, ?start, ?hostRead⟩
  case sqEnable => exact fun r q v s ⟨hq, h⟩ => writeQrow_reachable hq h ..
  case cqEnable => exact fun r q v s ⟨hq, h⟩ => writeQrow_reachable hq h ..
  case sqDisable => exact fun r q v s ⟨hq, h⟩ => writeQrow_reachable hq h ..
  case cqDisable => exact fun r q v s ⟨hq, h⟩ => writeQrow_reachable hq h ..
  case doorbell =>
    intro r win n s q hr hw
    rw [exec_producerDoorbell, execProducerDoorbell, when_pos hr, inWindow_serves hw]
  case push => exact fun r win off ws s q ⟨hr, hoff, hal, hend, hne⟩ hw => execPushWrite_pushes hr hoff hal hend hne hw
  case consume =>
    intro r win n s q hr hw
    rw [exec_completionConsumerWrite, execCompletionConsumerWrite, when_pos hr, inWindow_serves hw]
  case noPlace => exact fun q s ⟨hq, he, ht⟩ hp => execEntryFetch_stops hq he ht hp
  case unreadable =>
    intro q s pl u ⟨hq, he, ht⟩ hp hu h
    rw [exec_entryFetch, execEntryFetch_fetches hq he ht hp hu, fetchEntry_fails h]
  case padding =>
    intro q s pl u ⟨hq, he, ht⟩ hp hu h h0
    rw [exec_entryFetch, execEntryFetch_fetches hq he ht hp hu, fetchEntry_padding h h0]
  case good =>
    intro q s pl u bs ⟨hq, he, ht⟩ hp hu h hbs h0 hall hst
    rw [exec_entryFetch, execEntryFetch_fetches hq he ht hp hu, fetchEntry_delivers h hbs h0 hall, if_pos hst]
  case bad =>
    intro q s pl u bs ⟨hq, he, ht⟩ hp hu h hbs h0 hall hst
    rw [exec_entryFetch, execEntryFetch_fetches hq he ht hp hu, fetchEntry_delivers h hbs h0 hall, if_neg hst]
  case fetchError =>
    intro q s ⟨hq, he, hp, hcto⟩ hread
    exact when_pos (by rw [decide_eq_true hq, he, hp, hcto]; exact hread) ..
  case moderation =>
    intro q s ⟨hq, htimer, hus, hpend⟩ ⟨hien, hdue⟩
    exact when_pos (by rw [decide_eq_true hq, hien, htimer, decide_eq_true hus, decide_eq_true hpend, hdue]; rfl) ..
  case unmask => exact fun fn vec s hfn ⟨hvec, hmask, hpend⟩ => execVectorUnmask_sends hfn hvec hmask hpend
  case start => exact fun id s k hk ⟨hset, hidle, hdue⟩ => execStartTimeout_ends hk hset hidle hdue
  case hostRead =>
    intro id s k q hk ⟨hopen, hwait, hcto, horigin⟩
    simp only [exec_hostReadTimeout, execHostReadTimeout, hk]
    exact timeout_pos (by rw [hopen, hwait, hcto, horigin]; rfl) ..

/-! ## DEV_PSTATE (R367, R368) -/

/-- A DEV_PSTATE whose fields are in range, while no entry and no wake is in progress: it completes in the state in force, drains
the tiles that leave for PS1, waits for the flush of PS2, or wakes. -/
theorem execDevPstate_idle {s : State} {id : Nat} {c : Cmd} (h : s.ready id 0x80 c = true)
    (hz : c.zeros [(10, 2), (14, 2), (20, 12)] = true) (hflags : c.f 9 1 < 2) (hps : c.f 8 1 ≤ 2)
    (htiles : if c.f 8 1 = 1 then c.f 12 2 ≠ 0 ∧ c.f 12 2 < s.tilesSvc else c.f 12 2 = 0) (hphase : s.pwr.phase = 0) :
    execDevPstate id s = .next (
      if c.f 8 1 = s.pwr.ps then s.complete id 0 (BitVec.ofNat 32 s.pwr.ps) 0
      else if s.pwr.ps < c.f 8 1 then
        if c.f 8 1 = 1 then
          { (s.phase id .running) with
            pwr := { s.pwr with phase := 1, target := c.f 8 1, cmd := some id, tiles := c.f 12 2 } }.onTiles (c.f 12 2)
              fun t => { t with noclaim := true, drain := true }
        else
          { (s.phase id .running) with
            pwr := { s.pwr with phase := 2, target := c.f 8 1, cmd := some id, wakeAny := bit (c.f 9 1) 0 } }
      else
        { (s.phase id .running) with
          pwr := { s.pwr with
            phase := 4, target := c.f 8 1, cmd := some id, tiles := if c.f 8 1 = 1 then c.f 12 2 else s.pwr.tiles } }) := by
  have hflag : c.f 9 1 / 2 = 0 := by omega
  have hargs : (decide (2 < c.f 8 1) || if c.f 8 1 = 1 then decide (c.f 12 2 = 0) || decide (s.tilesSvc ≤ c.f 12 2)
      else decide (c.f 12 2 ≠ 0)) = false := by
    split at htiles
    case isTrue h1 => simp [h1, htiles]
    case isFalse h1 => simp [h1, htiles, hps]
  rw [execDevPstate, withCmd_ready h]
  simp only [hz, hflag, hargs, hphase]
  rfl

/-! ## The ends of an entry (R368, R447) -/

/-- The entry into PS1 ends when nothing later is fetched and the tiles that leave run nothing. -/
theorem execPstateEntryComplete_ps1 {s : State} {id : Nat} (hphase : s.pwr.phase = 1) (hcmd : s.pwr.cmd = some id)
    (hlater : (s.hif.cmds.any fun k => id < k.id) = false)
    (hidle : ((s.tilesFrom s.pwr.tiles).all fun t => (s.tile t).flights.isEmpty) = true) :
    execPstateEntryComplete s = .next (({ s with pwr := { s.pwr with ps := 1, phase := 0 } }.onTiles s.pwr.tiles
      fun t => { t with gated := true }).pstateDone 0) := by
  simp only [execPstateEntryComplete, hcmd]
  exact if_pos (by rw [decide_eq_true hphase, hlater, hidle]; rfl)

/-- The entry into PS2 ends when the DEV_PSTATE is alone, SDMA is idle and the arrays that run are flushed. -/
theorem execPstateEntryComplete_ps2 {s : State} (hphase : s.pwr.phase = 3)
    (halone : (s.hif.cmds.all fun k => some k.id = s.pwr.cmd) = true) (hsdma : s.sdmaIdle = true)
    (hflushed : (s.arc.arrays.all fun e => e.2.state = 0 || e.2.flushed) = true) :
    execPstateEntryComplete s = .next ((({ s with
      pwr := { s.pwr with ps := 2, phase := 0 }
      evc := { s.evc with gated := true, latch := [] } }.leavePs1).onTiles 0 fun t => { t with gated := true }).pstateDone 0) := by
  rw [execPstateEntryComplete, if_neg (by simp [hphase])]
  exact if_pos (by rw [decide_eq_true hphase, halone, hsdma, hflushed]; rfl)

/-- An entry whose TMO_MS has passed goes back to the state before, unless it ends in the same TCLK. -/
theorem execPstateEntryTimeout_due {s : State} (hlo : 1 ≤ s.pwr.phase) (hhi : s.pwr.phase ≤ 3)
    (hdue : ((s.pwr.cmd.bind s.cmd?).any fun c => s.elapsed c.fetchedAt (1000000 * c.tmoMs)) = true) :
    execPstateEntryTimeout s = .next (if s.comes (· = .pstateEntryComplete) then s else
      (if s.pwr.phase = 1 then ({ s with pwr := { s.pwr with phase := 0, target := s.pwr.ps } }).leavePs1
        else { s with pwr := { s.pwr with phase := 0, target := s.pwr.ps } }).pstateDone 0x0803) := by
  obtain ⟨c, hc, helapsed⟩ := (Option.any_eq_true ..).1 hdue
  simp only [execPstateEntryTimeout, hc]
  exact timeout_pos (by rw [decide_eq_true hlo, decide_eq_true hhi, helapsed]; rfl) ..

/-- The end of a wake to another state than PS1: the tiles are no longer gated, and EVC is restored where it was. -/
theorem execWakeComplete_wakes {s : State} (hphase : s.pwr.phase = 4) (hrun : s.ungated = true) (htarget : s.pwr.target ≠ 1) {t : State}
    (ht : t = ({ s with pwr := { s.pwr with ps := s.pwr.target, phase := 0 } }.onTiles 0 fun t => { t with gated := false }).leavePs1) :
    execWakeComplete s = .next ((if s.evc.gated then t.evcRestore else t).pstateDone 0) := by
  subst ht
  simp only [execWakeComplete, if_neg htarget]
  exact if_pos (by rw [decide_eq_true hphase, hrun]; rfl)

/-- Settles O10, row by row; the rows of DEV_PSTATE are the branches of `execDevPstate_idle`. -/
theorem powerStateCompletes : Obligations.PowerStateCompletes := by
  refine ⟨?same, ?ps1, ?ps2, ?wake, ?flush, ?entered1, ?entered2, ?timeout2, ?timeout1, ?wakes, ?wakesEvc⟩
  case same =>
    intro id s c h ⟨hz, hflags⟩ ⟨hps, htiles⟩ ⟨hphase, hin⟩
    rw [exec_devPstate, execDevPstate_idle h hz hflags hps htiles hphase, if_pos hin, hin]
  case ps1 =>
    intro id s c h ⟨hz, hflags⟩ ⟨hps, htiles⟩ ⟨hphase, hin⟩
    rw [exec_devPstate, execDevPstate_idle h hz hflags (by omega) (by rwa [if_pos hps]) hphase, if_neg (by omega), if_pos (by omega),
      if_pos hps, hps]
  case ps2 =>
    intro id s c h ⟨hz, hflags⟩ ⟨hps, htiles⟩ ⟨hphase, hin⟩
    rw [exec_devPstate, execDevPstate_idle h hz hflags (by omega) (by rwa [if_neg (by omega)]) hphase, if_neg (by omega),
      if_pos (by omega), if_neg (by omega), hps]
  case wake =>
    intro id s c h ⟨hz, hflags⟩ ⟨hps, htiles⟩ ⟨hphase, hin⟩
    rw [exec_devPstate, execDevPstate_idle h hz hflags (by omega) (by rwa [if_neg (by omega)]) hphase, if_neg (by omega),
      if_neg (by omega), if_neg (by omega), hps]
  case flush => exact fun s ⟨hphase, halone⟩ => when_pos (by rw [decide_eq_true hphase, halone]; rfl) ..
  case entered1 => exact fun s id ⟨hphase, hcmd, hlater⟩ hidle => execPstateEntryComplete_ps1 hphase hcmd hlater hidle
  case entered2 => exact fun s ⟨hphase, halone⟩ ⟨hsdma, hflushed⟩ => execPstateEntryComplete_ps2 hphase halone hsdma hflushed
  case timeout2 =>
    intro s hphase hdue
    rw [exec_pstateEntryTimeout, execPstateEntryTimeout_due (by omega) (by omega) hdue, if_neg (c := s.pwr.phase = 1) (by omega)]
  case timeout1 =>
    intro s hphase hdue
    rw [exec_pstateEntryTimeout, execPstateEntryTimeout_due (by omega) (by omega) hdue, if_pos hphase]
  case wakes =>
    intro s ⟨hphase, hrun, htarget, hevc⟩
    rw [exec_wakeComplete, execWakeComplete_wakes hphase hrun htarget rfl, hevc, if_neg Bool.false_ne_true]
  case wakesEvc =>
    intro s ⟨hphase, hrun, htarget, hevc⟩
    rw [exec_wakeComplete, execWakeComplete_wakes hphase hrun htarget rfl, if_pos hevc]

end Sys2Proof.Machine
end

section
/-! The network ports and connections (12_network_target.md, R375 to R382, R387 to R391): what each row answers where its conditions
hold. -/

namespace Sys2Proof.Machine

/-! ## Ports (R375 to R377, R389, R391) -/

/-- A change of a port's lanes leaves its link up where its mode's lanes all stand, and raises event 82 where that differs from before. -/
theorem execNetLinkChange_links {s : State} {port : Nat} {lanes : BitVec 4} {up : Bool} (hnet : s.netp = true) (hport : port < 2)
    (hrun : s.ungated = true)
    (hup : (modeLanes (s.port port).mode ≠ 0 && lanes &&& modeLanes (s.port port).mode = modeLanes (s.port port).mode) = up) {t : State}
    (ht : t = s.updPort port fun x => { x with lanes := lanes &&& modeLanes (s.port port).mode, link := up }) :
    execNetLinkChange port lanes s = .next (if up = (s.port port).link then t else t.raise 82) := by
  subst hup ht
  exact when_pos (by rw [hnet, decide_eq_true hport, hrun]; rfl) ..

/-- A message that crosses an open port is stamped, where the FIFO has room. -/
theorem execPtpEventMessage_crosses {s : State} {port : Nat} {msgType : BitVec 4} (hopen : s.portOpen port = true)
    (hevent : msgType.toNat < 4) (tx : Bool) (seqId : BitVec 16) :
    execPtpEventMessage port tx msgType seqId s = .next (if s.net.fifo.length < 64 then
      { s with net := { s.net with fifo := s.net.fifo ++ [{ port := port, tx := tx, msgType := msgType, seqId := seqId, ts := s.clk.alm }] } }
      else s) :=
  when_pos (by rw [hopen, decide_eq_true hevent]; rfl) ..

/-! ## Subsystems and namespaces (R379, R380) -/

section Commands
variable {s : State} {id : Nat} {c : Cmd}

/-- NET_SUBSYS with good operands for a partition without a subsystem goes on to its check. -/
theorem execNetSubsysEnable_checks (h : s.ready id 0xA0 c = true) (hwait : s.hostWaits c = false)
    (hz : c.zeros [(11, 1), (14, 2), (24, 8)] = true) (hact : c.f 10 1 = 0) (hp : c.f 8 2 < 4096) (h0 : c.f 12 2 ≠ 0)
    (hmax : c.f 12 2 ≤ 4096) (hal : c.f 16 8 % 64 = 0) (hread : s.hostFails c.fn (c.f 16 8) 4352 = false)
    (hoff : (s.subsys (c.f 8 2)).en = false) :
    execNetSubsysEnable id s = .next ((s.phase id .checking).queueCheck .net (.netSubsys id)) := by
  rw [execNetSubsysEnable, if_neg (by simp [ready_cmd h, hwait, hact]), withCmd_ready h]
  simp [hz, hact, Nat.not_le.2 hp, h0, Nat.not_lt.2 hmax, hal, hread, hoff]

/-- NET_SUBSYS that disables a subsystem without namespaces closes its connections. -/
theorem execNetSubsysDisable_closes (h : s.ready id 0xA0 c = true) (hz : c.zeros [(11, 1), (14, 2), (24, 8)] = true)
    (hact : c.f 10 1 = 1) (hp : c.f 8 2 < 4096) (hon : (s.subsys (c.f 8 2)).en = true) (hnone : s.exportsOf (c.f 8 2) = []) :
    execNetSubsysDisable id s = .next ((((s.net.conns.filter fun e => e.2.state = 3 && e.2.part = c.f 8 2).foldl
      (fun (y : State) e => (y.closeConn e.1).emit (.tcpClose e.1)) s).setSubsys (c.f 8 2) {}).done id 0) := by
  rw [execNetSubsysDisable, if_neg (by simp [ready_cmd h, hact]), withCmd_ready h]
  simp [hz, Nat.not_le.2 hp, hon, hnone]

section Export
variable (h : s.ready id 0xA1 c = true) (hz : c.zeros [(11, 1), (16, 16)] = true) (hv : c.f 8 2 < 16384) (h0 : c.f 12 4 ≠ 0)
  (hmax : c.f 12 4 ≤ 1024)
include h hz hv h0 hmax

/-- NET_EXPORT of a volume that is not exported goes on to its check. -/
theorem execNetExport_checks (hact : c.f 10 1 = 0) (hnew : (s.vol (c.f 8 2)).exported = none) :
    execNetExport id s = .next ((s.phase id .checking).queueCheck .net (.netExport id)) := by
  rw [execNetExport, if_neg (by simp [ready_cmd h, hact]), withCmd_ready h]
  simp [hz, hact, Nat.not_le.2 hv, h0, Nat.not_lt.2 hmax, hnew]

/-- NET_EXPORT with the action that withdraws the namespace marks the volume, which settles once its commands have ended. -/
theorem execNetUnexportswaits (hact : c.f 10 1 = 1) (hexp : (s.vol (c.f 8 2)).exported.isSome = true)
    (hfree : (s.vol (c.f 8 2)).unexporting = none) :
    execNetUnexport id s =
      .next (((s.phase id .running).updVol (c.f 8 2) fun x => { x with unexporting := some id }).settleExports) := by
  have hsome : (s.vol (c.f 8 2)).exported.isNone = false := by simpa using hexp
  rw [execNetUnexport, if_neg (by simp [ready_cmd h, hact]), withCmd_ready h]
  simp [hz, Nat.not_le.2 hv, h0, Nat.not_lt.2 hmax, hsome, hfree]

end Export
end Commands

/-! ## Connections (R376, R377, R381, R382, R387) -/

section Syn
variable {s : State} {port ifc : Nat} (hopen : s.portOpen port = true) (hif : s.ifOn port ifc = true)
include hopen hif

/-- A SYN to another port than 4420 is reset. -/
theorem execTcpSyn_otherPort {dport : Nat} (hd : dport ≠ 4420) (syn : Syn) :
    execTcpSyn port ifc dport syn s = .next (s.emit (.tcpRst port)) := by
  simp [execTcpSyn, hopen, hif, hd]

/-- A SYN for which the port and the subsystem have room opens a connection. -/
theorem execTcpSyn_opens {syn : Syn} (hroom : (s.net.conns.filter fun e => e.2.state ≠ 0 && e.2.port = port).length < 2048)
    (hfree : (syn.target.any fun p =>
      (s.subsys p).maxConn ≤ (s.net.conns.filter fun e => e.2.state = 3 && e.2.part = p).length) = false) :
    execTcpSyn port ifc 4420 syn s = .next ({ s.free.2 with
      net := { s.net with
        conns := put {} s.net.conns s.net.nextConn { state := 1, port := port, ifc := ifc, mac := syn.mac, opts := syn.opts }
        nextConn := s.net.nextConn + 1 } }.emit
      (.tcpSynAck s.net.nextConn port ifc syn.mac (s.synOpts port ifc syn.opts))) := by
  simp only [execTcpSyn, hopen, hif, hfree, decide_eq_false (Nat.not_le.2 hroom)]
  rfl

end Syn

/-- An ICReq of the known version, on a connection that waits for it, is answered. -/
theorem execIcreq_answers {s : State} {c hpda : Nat} (hpdu : s.pduCan c = true) (hnew : (s.conn c).state = 1) (hpad : hpda ≤ 31)
    (hdgst ddgst : Bool) (maxr2t : Nat) :
    execIcreq c 0 hpda hdgst ddgst maxr2t s = .next ((s.updConn c fun x =>
      { x with state := 2, hdgst := hdgst, ddgst := ddgst, hpda := hpda, maxr2t := maxr2t }).emit (.icResp c hdgst ddgst 0 131072)) := by
  simp [execIcreq, hpdu, hnew, Nat.not_lt.2 hpad]

/-- Settles O20, row by row. -/
theorem portCompletes : Obligations.PortCompletes := by
  refine ⟨?linkSame, ?linkUp, ?codeword, ?segment, ?arp, ?stamped, ?dropped, ?pop, ?portWrite, ?subsys, ?subsysEnd, ?exports, ?unexport,
    ?opens, ?otherPort, ?closes, ?icreq, ?termReq, ?badPdu, ?keepAlive⟩
  case linkSame =>
    intro port lanes s ⟨hnet, hport, hrun⟩ hsame
    rw [exec_netLinkChange, execNetLinkChange_links hnet hport hrun hsame rfl, if_pos rfl]
  case linkUp =>
    intro port lanes s ⟨hnet, hport, hrun⟩ ⟨hmode, hlanes, hdown⟩
    rw [exec_netLinkChange, execNetLinkChange_links (up := true) hnet hport hrun
      (by rw [decide_eq_true hmode, decide_eq_true hlanes]; rfl) rfl, if_neg (by simp [hdown])]
  case codeword =>
    exact fun port s ⟨hnet, hport, hrun, hmode⟩ => when_pos (by rw [hnet, hrun, decide_eq_true hport, decide_eq_true hmode]; rfl) ..
  case segment => exact fun port s hopen => when_pos hopen ..
  case arp => exact fun port ifc s hopen => when_pos (Bool.and_eq_true_iff.2 hopen) ..
  case stamped =>
    intro port tx msgType seqId s ⟨hopen, hevent, hroom⟩
    rw [exec_ptpEventMessage, execPtpEventMessage_crosses hopen hevent, if_pos hroom]
  case dropped =>
    intro port tx msgType seqId s ⟨hopen, hevent, hfull⟩
    rw [exec_ptpEventMessage, execPtpEventMessage_crosses hopen hevent, if_neg (Nat.not_lt.2 hfull)]
  case pop => exact fun r v s h => busRow_reachable h ..
  case portWrite =>
    intro r p v s ⟨hp, h⟩
    rw [exec_netPortWrite, execNetPortWrite, if_pos hp, busRow_reachable h]
  case subsys =>
    exact fun id s c h hwait ⟨hz, hact, hp, h0, hmax, hal⟩ ⟨hread, hoff⟩ =>
      execNetSubsysEnable_checks h hwait hz hact hp h0 hmax hal hread hoff
  case subsysEnd => exact fun id s c h ⟨hz, hact, hp⟩ ⟨hon, hnone⟩ => execNetSubsysDisable_closes h hz hact hp hon hnone
  case exports => exact fun id s c h ⟨hz, hact, hv, h0, hmax, hnew⟩ => execNetExport_checks h hz hv h0 hmax hact hnew
  case unexport => exact fun id s c h ⟨hz, hact, hv, h0, hmax⟩ ⟨hexp, hfree⟩ => execNetUnexportswaits h hz hv h0 hmax hact hexp hfree
  case opens =>
    rintro port ifc _ syn s ⟨hopen, hif⟩ ⟨rfl, hroom⟩ hfree
    exact execTcpSyn_opens hopen hif hroom hfree
  case otherPort => exact fun port ifc dport syn s ⟨hopen, hif⟩ hd => execTcpSyn_otherPort hopen hif hd syn
  case closes => exact fun c s h => when_pos (decide_eq_true h) ..
  case icreq =>
    rintro c _ hpda hdgst ddgst maxr2t s ⟨hpdu, hnew, rfl, hpad⟩
    exact execIcreq_answers hpdu hnew hpad hdgst ddgst maxr2t
  case termReq => exact fun c s hpdu => when_pos hpdu ..
  case badPdu => exact fun c bad s h => when_pos (Bool.and_eq_true_iff.2 h) ..
  case keepAlive =>
    intro cntl s ⟨hlive, hkato⟩ hdue
    exact timeout_pos (by rw [hlive, decide_eq_true hkato, hdue]; rfl) ..

end Sys2Proof.Machine
end

section
/-! The NVMe commands over TCP (12_network_target.md, R381 to R388): a capsule that its connection takes, its answer, and the status that
the answer carries. -/

namespace Sys2Proof.Machine

/-! ## Statuses (R386) -/

/-- A success. -/
theorem nvmeStatus_success (w : Bool) : nvmeStatus 0x0000 w = (0, 0x00, false) := rfl

/-- A bad command: the class 0x01xx. -/
theorem nvmeStatus_invalid {k : Nat} (hk : k < 256) (w : Bool) : nvmeStatus (0x0100 + k) w = (0, 0x02, true) := by
  have hclass : (0x0100 + k) / 256 = 1 := by omega
  rw [nvmeStatus, if_neg (by omega), if_pos hclass]

/-- An object that is not ready: the class 0x02xx. -/
theorem nvmeStatus_notReady {k : Nat} (hk : k < 256) (w : Bool) : nvmeStatus (0x0200 + k) w = (0, 0x82, false) := by
  have hclass : (0x0200 + k) / 256 = 2 := by omega
  rw [nvmeStatus, if_neg (by omega), if_neg (by omega), if_pos hclass]

/-- An internal error: the class 0x07xx. -/
theorem nvmeStatus_internal {k : Nat} (hk : k < 256) (w : Bool) : nvmeStatus (0x0700 + k) w = (0, 0x06, false) := by
  have hclass : (0x0700 + k) / 256 = 7 := by omega
  rw [nvmeStatus, if_neg (by omega), if_neg (by omega), if_neg (by omega), if_neg (by simp; omega), if_neg (by omega), if_neg (by omega)]

/-- A command of a connection that completes sends its capsule with the status of the table, and frees what waits for it. -/
theorem complete_net {s : State} {id conn cid : Nat} {c : Cmd} (hc : s.cmd? id = some c) (hnet : c.origin = .net conn cid)
    (hreset : s.vigil.resetReq = false) (hcur : s.current c.ctx c.gen = true) (status : Nat) (r0 r1 : Word) :
    s.complete id status r0 r1 =
      ((s.setCmds (s.hif.cmds.filter fun x => x.id ≠ id)).capsule conn cid 0 (nvmeStatus status (c.op ≠ 0x20))).settleExports := by
  simp [State.complete, hreset, hc, hnet, hcur]

/-- Settles O44: the classes of the table, and the completion of a connection's command. -/
theorem nvmeStatusMap : Obligations.NvmeStatusMap :=
  ⟨nvmeStatus_success, fun _ w hk => nvmeStatus_invalid hk w, fun _ w hk => nvmeStatus_notReady hk w, fun _ => ⟨rfl, rfl⟩, rfl, rfl,
    fun _ => rfl, fun _ w hk => nvmeStatus_internal hk w,
    fun _ _ status _ _ r0 r1 _ hc hnet hreset hcur => complete_net hc hnet hreset hcur status r0 r1, rfl⟩

/-! ## Connect (R381, R383) -/

section Connect
variable {s : State} {c cid : Nat} (hpdu : s.pduCan c = true) (hroom : s.portCmds (s.conn c).port < 16384) (hps : s.pwr.ps ≠ 2)
  (hstate : (s.conn c).state = 2) (hnew : ((s.connCmds c).any fun e => e.origin = .net c cid) = false)
include hpdu hroom hps hstate hnew

/-- A capsule on a connection that has exchanged its ICReq is taken. -/
theorem capsuleIn_takes (n : Nat) (k : State → State) : s.capsuleIn c cid n k = .next (k (s.capsuleCounted c n)) := by
  simp [State.capsuleIn, hpdu, Nat.not_le.2 hroom, hps, hstate, hnew, State.capsuleCounted]

variable {y : State} (hy : y = s.capsuleCounted c 1024) {qid cntlid p : Nat} {hostnqn subnqn : List Byte} {prm : ConnectParams}
  (hdata : prm.dataOk = true) (hyet : (y.conn c).state = 2)
  (hadm : y.connectRefusal qid cntlid (nqnName hostnqn) (nqnName subnqn) = none)
  (hp : p = ((y.net.subsys.find? fun e => e.2.en && e.2.nqn = nqnName subnqn).map (·.1)).getD 0)
include hy hdata hyet hadm hp

/-- The Connect of an I/O queue that nothing refuses joins it to its controller. -/
theorem execConnect_io (hq : qid ≠ 0) (hsize : prm.sqsize ≤ 127) :
    execConnect c cid qid cntlid hostnqn subnqn prm s = .next
      ((y.updConn c fun x => { x with state := 3, part := p, qid := qid, cntl := cntlid, sqsize := prm.sqsize }).capsule c cid
        (BitVec.ofNat 64 cntlid) (0, 0, false)) := by
  rw [execConnect, capsuleIn_takes hpdu hroom hps hstate hnew, ← hy]
  simp [hdata, hyet, hadm, hq, Nat.not_lt.2 hsize, ← hp]

/-- The Connect of an admin queue that nothing refuses creates its controller. -/
theorem execConnect_admin (hq : qid = 0) (hsize : prm.sqsize ≤ 31) {y1 : State}
    (hy1 : y1 = y.updConn c fun x => { x with state := 3, part := p, qid := 0, cntl := y.net.nextCntl, sqsize := prm.sqsize }) :
    execConnect c cid qid cntlid hostnqn subnqn prm s = .next ({ y1 with net := { y1.net with
      ctrls := put {} y1.net.ctrls y.net.nextCntl
        { live := true, part := p, hostnqn := nqnName hostnqn, kato := prm.kato, heardAt := y1.clk.alm }
      nextCntl := y.net.nextCntl + 1 } }.capsule c cid (BitVec.ofNat 64 y.net.nextCntl) (0, 0, false)) := by
  subst hq hy1
  rw [execConnect, capsuleIn_takes hpdu hroom hps hstate hnew, ← hy]
  simp [hdata, hyet, hadm, Nat.not_lt.2 hsize, ← hp]

end Connect

section Taken
variable {s : State} {c cid : Nat}

/-! ## The admin queue (R383, R385) -/

/-- The kind of the queue that takes a capsule. -/
theorem capsuleOk_kind {admin : Bool} (h : s.capsuleOk c cid admin = true) : decide ((s.conn c).qid = 0) = admin := by
  simp only [State.capsuleOk, Bool.and_eq_true, decide_eq_true_eq] at h
  exact h.1.2

/-- A property that exists is read. -/
theorem execPropertyGet_reads {ofs : Nat} {v : DWord} (h : s.capsuleOk c cid true = true)
    (hv : property ((s.capsuleCounted c 0).ctrlOf c) ofs = some v) :
    execPropertyGet c cid ofs s = .next ((s.capsuleCounted c 0).capsule c cid v (0, 0, false)) := by
  rw [execPropertyGet, command_takes h]
  simp only [hv]

/-- Property CC is written. -/
theorem execPropertySet_writes {v : DWord} {y : State} (h : s.capsuleOk c cid true = true) (hy : y = s.capsuleCounted c 0) :
    execPropertySet c cid 0x14 v s = .next (({ y with net := { y.net with
      ctrls := upd {} y.net.ctrls (y.conn c).cntl fun x => { x with cc := v.setWidth 32 } } }).capsule c cid 0 (0, 0, false)) := by
  rw [execPropertySet, command_takes h, ← hy]
  simp only [if_true]

/-- Identify of the controller. -/
theorem execIdentify_controller {nsid : Nat} {y : State} (h : s.capsuleOk c cid true = true) (hy : y = s.capsuleCounted c 0) :
    execIdentify c cid 1 nsid s =
      .next (({ y.sendData c cid (y.identifyCtrl c) with freeCtr := y.freeCtr + 1 }).capsule c cid 0 (0, 0, false)) := by
  rw [execIdentify, command_takes h, ← hy]
  simp only

/-- Identify of a namespace. -/
theorem execIdentify_namespace {nsid v : Nat} {y : State} (h : s.capsuleOk c cid true = true) (hy : y = s.capsuleCounted c 0)
    (hv : y.nsVol (y.conn c).part nsid = some v) :
    execIdentify c cid 0 nsid s =
      .next (({ y.sendData c cid (y.identifyNs v) with freeCtr := y.freeCtr + 1 }).capsule c cid 0 (0, 0, false)) := by
  rw [execIdentify, command_takes h, ← hy]
  simp only [hv]

/-- The log pages of 512 bytes and the one of 64. -/
theorem execGetLogPage_sends {lid n : Nat} {y : State} (h : s.capsuleOk c cid true = true) (hy : y = s.capsuleCounted c 0)
    (hpage : (lid = 2 ∨ lid = 3) ∧ n = 512 ∨ lid = 1 ∧ n = 64) :
    execGetLogPage c cid lid s =
      .next (({ y.sendData c cid (undefinedBytes y.freeCtr n) with freeCtr := y.freeCtr + 1 }).capsule c cid 0 (0, 0, false)) := by
  rw [execGetLogPage, command_takes h, ← hy]
  obtain ⟨rfl | rfl, rfl⟩ | ⟨rfl, rfl⟩ := hpage <;> simp only

/-- An opcode that a queue of its kind does not handle is invalid. -/
theorem execInvalidCommandOpcode_refuses {admin : Bool} {op : Nat} (h : s.capsuleOk c cid admin = true) (hop : op < 256)
    (hknown : (if admin then [0x02, 0x06, 0x18, 0x7F] else [0x00, 0x01, 0x02, 0x08, 0x09, 0x7F]).contains op = false) :
    execInvalidCommandOpcode c cid op s = .next ((s.capsuleCounted c 0).capsule c cid 0 (0, 0x01, true)) := by
  obtain rfl := capsuleOk_kind h
  simp only [decide_eq_true_eq] at hknown
  simp only [execInvalidCommandOpcode, hknown, decide_eq_false (Nat.not_le.2 hop), Bool.or_false, if_neg Bool.false_ne_true]
  exact command_takes h ..

/-! ## I/O commands (R384, R385, R387) -/

/-- An I/O command on a namespace of its subsystem reaches the volume. -/
theorem ioCommand_takes {nsid n v : Nat} {y : State} (h : s.capsuleOk c cid false = true) (hy : y = s.capsuleCounted c n)
    (hv : y.nsVol (y.conn c).part nsid = some v) (k : State → Nat → State) : s.ioCommand c cid nsid n k = .next (k y v) := by
  rw [State.ioCommand, command_takes h, ← hy]
  simp only [hv]

variable {nsid v : Nat} (h : s.capsuleOk c cid false = true)
include h

section Write
variable {slba nlb : Nat} {capsule : List Byte} {y z : State} {k : Cmd}

/-- A write without data in its capsule is under way, its data to come. -/
theorem execNvmeWrite_paced (hy : y = s.capsuleCounted c 0) (hv : y.nsVol (y.conn c).part nsid = some v)
    (hk : k = (y.netCmd c cid 0x21 (volEntry 0x21 v (nlb + 1) slba)).2)
    (hz : z = (y.netCmd c cid 0x21 (volEntry 0x21 v (nlb + 1) slba)).1.updConn c fun x => { x with
      writes := x.writes.filter (fun q => q.cid ≠ cid) ++ [{ cid := cid, vol := v, lba := slba, nblk := nlb + 1, cmd := k.id, parts := []
                                                             r2t := 0, reserved := 0, recorded := 0, bad := false }] })
    (hgoes : ((z.beginWrite k).cmd? k.id).isSome = true) (dataOk : Bool) :
    execNvmeWrite c cid nsid slba nlb [] dataOk s = .next (z.beginWrite k) := by
  have hkept : ((z.beginWrite k).cmd? k.id).isNone = false := by simpa using hgoes
  rw [execNvmeWrite, ioCommand_takes (n := ([] : List Byte).length) h hy hv]
  simp only [List.isEmpty_nil, List.append_nil, ← hk, if_true, ← hz, hkept]
  rfl

/-- A write whose capsule holds its data. -/
theorem execNvmeWrite_inCapsule (hne : capsule ≠ []) (hlen : capsule.length = 4096 * (nlb + 1)) (hmax : capsule.length ≤ 8192)
    (hy : y = s.capsuleCounted c capsule.length) (hv : y.nsVol (y.conn c).part nsid = some v)
    (hz : z = (y.netCmd c cid 0x21 (volEntry 0x21 v (nlb + 1) slba ++ capsule)).1)
    (hk : k = (y.netCmd c cid 0x21 (volEntry 0x21 v (nlb + 1) slba ++ capsule)).2)
    (hgoes : ((z.beginWrite k).cmd? k.id).isSome = true) :
    execNvmeWrite c cid nsid slba nlb capsule true s = .next (z.beginWrite k) := by
  have hkept : ((z.beginWrite k).cmd? k.id).isNone = false := by simpa using hgoes
  have hdata : capsule.isEmpty = false := by simpa using hne
  have hwhole : decide (capsule.length ≠ 4096 * (nlb + 1)) = false := decide_eq_false fun hne => hne hlen
  rw [execNvmeWrite, ioCommand_takes h hy hv]
  simp only [if_neg (Nat.not_lt.2 hmax), hdata, hwhole, ← hz, ← hk, hkept, Bool.not_true, Bool.and_false, if_neg Bool.false_ne_true]

end Write

/-- A deallocation of good ranges, for which the journal has room, ends with what they give. -/
theorem execDatasetManagement_deallocates {dsm : DsmData} {y z : State} {k : Cmd} (hdata : dsm.dataOk = true) (hne : dsm.ranges ≠ [])
    (hmax : dsm.ranges.length ≤ 256)
    (hroom : (s.nsVol (s.conn c).part nsid).any (fun v => !(s.arr (s.vol v).array).room (48 * dsm.ranges.length)) = false)
    (hy : y = s.capsuleCounted c (16 * dsm.ranges.length)) (hv : y.nsVol (y.conn c).part nsid = some v)
    (hz : z = (y.netCmd c cid 0x24 (volEntry 0x24 v 0 0)).1) (hk : k = (y.netCmd c cid 0x24 (volEntry 0x24 v 0 0)).2) :
    execDatasetManagement c cid nsid true dsm s =
      .next ((z.dealloc k.ctx.toNat v dsm.ranges).1.done k.id (z.dealloc k.ctx.toNat v dsm.ranges).2) := by
  rw [execDatasetManagement, if_neg (by rw [hroom]; exact Bool.false_ne_true), ioCommand_takes h hy hv]
  simp [hdata, hne, Nat.not_lt.2 hmax, ← hz, ← hk]

end Taken

/-! ## The data of a paced write (R384, R387) -/

/-- Data that answers an R2T of a write in progress is recorded, and more is asked for. -/
theorem execH2cdata_records {s : State} {c cid ofs : Nat} {data : List Byte} {w : NetWrite} (hpdu : s.pduCan c = true)
    (hps : s.pwr.ps ≠ 2) (hstate : (s.conn c).state = 3) (hw : (s.conn c).write? cid = some w)
    (hfree : s.mirrorHolds (s.vol w.vol).array = false) (hfits : w.fits ofs data.length = true) {dataOk : Bool} {s1 s2 s3 : State}
    (hs1 : s1 = s.netBytes c ((s.conn c).pduLen 24 4 data.length))
    (hcur : ((s1.cmd? w.cmd).any fun k => !s1.current k.ctx k.gen) = false)
    (hs2 : s2 = s1.updWrite c cid fun y => { y with parts := y.parts ++ [(ofs, data)], bad := y.bad || !dataOk })
    (hs3 : s3 = ((s2.recordPieces c cid 5).sendR2t c cid 8).pump w.cmd c cid 8)
    (hgood : (((s3.conn c).write? cid).any fun y => y.bad && y.outstanding = 0) = false) :
    execH2cdata c cid ofs data true dataOk s = .next s3 := by
  have hgo : (!s.pduCan c || decide (s.pwr.ps = 2)) = false := by rw [hpdu, decide_eq_false hps]; rfl
  simp only [execH2cdata, hgo, hw, Option.any_some, hfree, hstate, hfits, ← hs1, hcur, ← hs2, ← hs3, if_neg Bool.false_ne_true,
    Bool.not_true, ne_eq, not_true_eq_false, if_false]
  cases hleft : (s3.conn c).write? cid with
  | none => rfl
  | some y => exact if_neg (by rw [hleft, Option.any_some] at hgood; rw [hgood]; exact Bool.false_ne_true)

/-- Settles O21, row by row. -/
theorem nvmeCompletes : Obligations.NvmeCompletes := by
  refine ⟨?connectIo, ?connectAdmin, ?propertyGet, ?propertySet, ?identifyCtrl, ?identifyNs, ?logPage512, ?logPage64, ?keepAlive,
    ?invalidAdmin, ?invalidIo, ?read, ?writePaced, ?writeInCapsule, ?flush, ?zeroes, ?dealloc, ?data⟩
  case connectIo =>
    intro c cid qid cntlid hostnqn subnqn prm s y p ⟨hpdu, hroom, hps, hstate, hnew⟩ hy ⟨hdata, hyet, hsize⟩ ⟨hadm, hq⟩ hp
    rw [exec_connect, execConnect_io hpdu hroom hps hstate hnew hy hdata hyet hadm hp hq hsize]
  case connectAdmin =>
    intro c cid qid cntlid hostnqn subnqn prm s y p ⟨hpdu, hroom, hps, hstate, hnew⟩ hy ⟨hdata, hyet, hsize⟩ ⟨hadm, hq⟩ hp
    rw [exec_connect, execConnect_admin hpdu hroom hps hstate hnew hy hdata hyet hadm hp hq hsize rfl]
  case propertyGet =>
    intro c cid ofs s v h hv
    rw [exec_propertyGet, execPropertyGet_reads h hv]
  case propertySet =>
    rintro c cid _ v s h rfl
    rw [exec_propertySet, execPropertySet_writes h rfl]
  case identifyCtrl =>
    rintro c cid _ nsid s y h hy rfl
    rw [exec_identify, execIdentify_controller h hy]
  case identifyNs =>
    rintro c cid _ nsid s y v h hy rfl hv
    rw [exec_identify, execIdentify_namespace h hy hv]
  case logPage512 =>
    intro c cid lid s y h hy hlid
    rw [exec_getLogPage, execGetLogPage_sends h hy (.inl ⟨hlid, rfl⟩)]
  case logPage64 =>
    intro c cid lid s y h hy hlid
    rw [exec_getLogPage, execGetLogPage_sends h hy (.inr ⟨hlid, rfl⟩)]
  case keepAlive =>
    intro c cid s h
    rw [exec_keepAlive, execKeepAlive, command_takes h]
  case invalidAdmin =>
    intro c cid op s h ⟨hop, hknown⟩
    rw [exec_invalidCommandOpcode, execInvalidCommandOpcode_refuses h hop hknown]
  case invalidIo =>
    intro c cid op s h ⟨hop, hknown⟩
    rw [exec_invalidCommandOpcode, execInvalidCommandOpcode_refuses h hop hknown]
  case read =>
    intro c cid nsid slba nlb s y v z k h hy hv hz hk ⟨hbits, h0, hn, he⟩ hm
    rw [exec_nvmeRead, execNvmeRead, ioCommand_takes h hy hv, ← beginRead_reads hbits h0 hn he hm, hz, hk]
  case writePaced =>
    rintro c cid nsid slba nlb _ dataOk s y v z k h rfl hy hv hz rfl hgoes
    rw [exec_nvmeWrite, execNvmeWrite_paced h hy hv rfl hz hgoes dataOk]
  case writeInCapsule =>
    rintro c cid nsid slba nlb capsule _ s y v z k h ⟨hne, rfl, hlen, hmax⟩ hy hv hz hk hgoes
    rw [exec_nvmeWrite, execNvmeWrite_inCapsule h hne hlen hmax hy hv hz hk hgoes]
  case flush =>
    intro c cid nsid s y v z k h hy hv hz hk
    rw [exec_nvmeFlush, execNvmeFlush, ioCommand_takes h hy hv, hz, hk]
  case zeroes =>
    intro c cid nsid slba nlb s y v z k h hy hv hz hk ⟨hbits, h0, haddr, he⟩
    rw [exec_nvmeWriteZeroes, execNvmeWriteZeroes, ioCommand_takes h hy hv]
    simp only [← hz, ← hk, trimBegin_admitted (kind := 1) hbits h0 haddr he, State.trimNow]
  case dealloc =>
    rintro c cid nsid _ dsm s y v z k h ⟨rfl, hdata, hne, hmax⟩ hroom hy hv hz hk
    rw [exec_datasetManagement, execDatasetManagement_deallocates h hdata hne hmax hroom hy hv hz hk]
  case data =>
    rintro c cid ofs data _ dataOk s w s2 s3 ⟨hpdu, hps, rfl, hstate⟩ ⟨hw, hfree⟩ ⟨hfits, hcur⟩ hs2 hs3 hgood
    rw [exec_h2cdata, execH2cdata_records hpdu hps hstate hw hfree hfits rfl hcur hs2 hs3 hgood]

end Sys2Proof.Machine
end

section
/-! The step itself, and the memories at reset (01_architecture.md, R398, R402, R438). -/

namespace Sys2Proof.Machine

/-- Settles O37: `step` is a match on the queue. -/
theorem stepRunsFront : Obligations.StepRunsFront :=
  ⟨fun _ _ _ => rfl, fun s h => by rw [step, h]⟩

/-- Settles O57: after reset no memory lists a byte, and no page is mapped. -/
theorem resetMemories : Obligations.ResetMemories := reset_memWf

end Sys2Proof.Machine
end

section
/-! Metering (13_partitions.md, R415 to R419): what each row answers where its conditions hold. -/

namespace Sys2Proof.Machine

/-- Counting to the next millisecond boundary is counting once. -/
theorem countTo_next (s : State) :
    s.countTo (s.clk.msDone + 1) = ({ s with clk := { s.clk with msDone := s.clk.msDone + 1 } } : State).msCounts := by
  simp [State.countTo]

/-- TRUST_MTR_C up to P frees slots (R418). -/
theorem writeMtrC_upToP {s : State} {v : Word} (h : (v - s.trust.mtrC).toNat ≤ (s.trust.mtrP - s.trust.mtrC).toNat) :
    s.writeMtrC v = { s with trust := { s.trust with mtrC := v } } := if_pos h

/-- TRUST_MTR_C past P is discarded (R418). -/
theorem writeMtrC_pastP {s : State} {v : Word} (h : ¬(v - s.trust.mtrC).toNat ≤ (s.trust.mtrP - s.trust.mtrC).toNat) :
    s.writeMtrC v = s := if_neg h

/-- METER_BATCH_WRITE into a free slot writes the oldest batch there (R418). -/
theorem execMeterBatchWrite_writes {s : State} {b : Batch} {rest : List Batch} (hb : s.trust.batches = b :: rest)
    (hen : s.trust.mtrEn = true) (hroom : (s.trust.mtrP - s.trust.mtrC).toNat ≠ 2 ^ s.trust.mtrLog.toNat) (hsend : s.canSend 0 = true) :
    execMeterBatchWrite s = .next (({ s.hostWrite 0 (s.trust.mtrBase.toNat + s.trust.mtrP.toNat % 2 ^ s.trust.mtrLog.toNat * 0x100000)
      (batchSlot b s.freeCtr) with
        freeCtr := s.freeCtr + 1, trust := { s.trust with batches := rest, mtrP := s.trust.mtrP + 1 } }).raise 78) := by
  simp only [execMeterBatchWrite, hb, hen, ne_eq, hroom, not_false_eq_true, decide_true, hsend]
  rfl

/-- Settles O22, row by row. -/
theorem meteringCompletes : Obligations.MeteringCompletes := by
  refine ⟨?millisecond, ?calends, ?batch, ?upToP, ?pastP⟩
  case millisecond =>
    intro s h
    rw [exec_millisecondBoundary, execMillisecondBoundary, when_pos (decide_eq_true h), countTo_next]
    rfl
  case calends => exact fun s h => when_pos (decide_eq_true h) ..
  case batch => exact fun s b rest hb ⟨hen, hroom, hsend⟩ => execMeterBatchWrite_writes hb hen hroom hsend
  case upToP =>
    intro r v s hr h
    rw [exec_trustMtrCWrite, execTrustMtrCWrite, busRow_reachable hr, writeMtrC_upToP h]
  case pastP =>
    intro r v s hr h
    rw [exec_trustMtrCWrite, execTrustMtrCWrite, busRow_reachable hr, writeMtrC_pastP h]

end Sys2Proof.Machine
end

section
/-! The event controller (14_events_and_service_dma.md, R423 to R437): what each row answers where its conditions hold. -/

namespace Sys2Proof.Machine

/-! ## Level sources and pins (R423, R428) -/

/-- A level source that asserts pends, unless it is ACT while EVC runs. -/
theorem execLevelSourceAssert_asserts {s : State} {src : Nat} (h : isLevel src = true ∧ s.srcAbsent src = false ∧ s.levelIn src = true) :
    execLevelSourceAssert src s = .next (if (s.route src).act && !s.evc.gated then s else s.raise src) :=
  when_pos (by obtain ⟨hl, ha, hi⟩ := h; rw [hl, ha, hi]; rfl) ..

/-- The expiry of a pin's filter moves its filtered level to the raw one. -/
theorem execPinFilterExpiry_counted {s t : State} {pin : Nat} (hp : pin < 4) (hc : (s.pin pin).counting = true)
    (hf : (s.pin pin).filtUsed = 0) (ht : t = s.updPin pin fun x => { x with flt := x.raw, counting := false }) :
    execPinFilterExpiry pin s =
      .next (if pin = 1 then (if (s.pin pin).raw then t.raise 1 else t) else if t.levelIn pin && !(t.route pin).act then t.raise pin else t) := by
  subst ht
  exact if_pos (by rw [decide_eq_true hp, hc, decide_eq_true hf]; rfl)

/-! ## Steward entry and exit (R426 to R432) -/

/-- An event that outranks the steward's priority begins its entry. -/
theorem execHandlerEntry_begins {s : State} {w : Nat} {k : Cand} (hseq : (s.stw w).seq = none) (hk : firstCand (s.stwCands w) = some k)
    (hw : w < 4) (hs : (s.stw w).inService = true) (hp : k.1 < (s.stw w).cur) (hst : (s.stw w).stack.length < 16) :
    execHandlerEntry w s = .next (((s.takeSource (candSrc w k)).stackFrame w
      { pc := (s.stw w).pc, status := (s.stw w).status, g := stwRegs (s.stw w), prio := (s.stw w).cur, src := candSrc w k }).updStw w
        fun y => { y with seq := some { exiting := false, k := 0, prio := k.1, src := candSrc w k } }) := by
  simp only [execHandlerEntry, hseq, hk, hw, hs, hp, hst]
  rfl

/-- An entry under way, or an exit past its first SCLK, is taken over. -/
theorem execHandlerEntry_takesOver {s : State} {w : Nat} {k : Cand} {q : StwSeq} (hseq : (s.stw w).seq = some q)
    (hk : s.takeover w q = some k) (hw : w < 4) (hs : (s.stw w).inService = true) (hx : q.exiting = true → q.k ≠ 0) :
    execHandlerEntry w s = .next (s.takeOver w q k) := by
  have hfirst : (q.exiting && decide (q.k = 0)) = false := by simpa using hx
  simp only [execHandlerEntry, hseq, hk, hfirst, hw, hs]
  rfl

/-- A steward that runs a handler, and neither enters nor leaves one, begins to leave it. -/
theorem execEret_begins {s : State} {w : Nat} {f : StwFrame} {l : List StwFrame} (hst : (s.stw w).stack = f :: l)
    (hseq : (s.stw w).seq = none) :
    execEret w s = .next ((s.ackSource f.src).updStw w
      fun y => { y with seq := some { exiting := true, k := 0, prio := f.prio, src := f.src } }) := by
  simp only [execEret, hst, hseq]
  rfl

/-! ## PF0's events (R434) -/

/-- The event taken first for PF0 sends its vector and becomes ACT. -/
theorem execPf0EventMessage_sends {s : State} {k : Cand} (hk : firstCand s.pf0Cands = some k) :
    execPf0EventMessage s =
      .next ((s.updRoute k.2.2 fun r => { r with pend := false, act := true }).msix 0 (s.route k.2.2).vec.toNat) := by
  simp only [execPf0EventMessage, hk]

/-- Settles O3, row by row. -/
theorem eventCompletes : Obligations.EventCompletes := by
  refine ⟨?edge, ?level, ?levelAct, ?pinRaw, ?tsyncRise, ?tsyncFall, ?pinLevel, ?entry, ?takeover, ?eret, ?pf0, ?hack, ?swset, ?route⟩
  case edge =>
    intro src s ⟨hlt, hl, hr, ha⟩
    exact when_pos (by rw [decide_eq_true hlt, hl, hr, ha]; rfl) ..
  case level =>
    intro src s h hact
    rw [exec_levelSourceAssert, execLevelSourceAssert_asserts h, if_neg]
    obtain ha | hg := hact
    · simp [ha]
    · simp [hg]
  case levelAct =>
    intro src s h ⟨ha, hg⟩
    rw [exec_levelSourceAssert, execLevelSourceAssert_asserts h, if_pos (by rw [ha, hg]; rfl)]
  case pinRaw => exact fun pin level s ⟨hp, hraw⟩ => when_pos (by rw [decide_eq_true hp, decide_eq_true hraw]; rfl) ..
  case tsyncRise =>
    rintro _ s ⟨rfl, hc, hraw⟩ hf
    rw [exec_pinFilterExpiry, execPinFilterExpiry_counted (by decide) hc hf rfl, if_pos rfl, if_pos hraw]
  case tsyncFall =>
    rintro _ s ⟨rfl, hc, hraw⟩ hf
    rw [exec_pinFilterExpiry, execPinFilterExpiry_counted (by decide) hc hf rfl, if_pos rfl, if_neg (by simp [hraw])]
  case pinLevel =>
    intro pin s ⟨hp, hne, hc⟩ hf
    rw [exec_pinFilterExpiry, execPinFilterExpiry_counted hp hc hf rfl, if_neg hne]
  case entry => exact fun w s k hseq hk ⟨hw, hs⟩ ⟨hp, hst⟩ => execHandlerEntry_begins hseq hk hw hs hp hst
  case takeover => exact fun w s k q hseq hk ⟨hw, hs, hx⟩ => execHandlerEntry_takesOver hseq hk hw hs hx
  case eret => exact fun w s f l hst hseq => execEret_begins hst hseq
  case pf0 => exact fun s k hk => execPf0EventMessage_sends hk
  case hack => exact fun r v s h => busRow_reachable h ..
  case swset => exact fun r v s h => busRow_reachable h ..
  case route =>
    intro r src v s ⟨hlt, h⟩
    rw [exec_evcRouteEnable, execEvcRouteEnable, if_neg (by omega), busRow_reachable h]

end Sys2Proof.Machine
end

section
/-! The service DMA (14_events_and_service_dma.md, R438 to R449): what each row answers where its conditions hold. -/

namespace Sys2Proof.Machine

/-- A row that writes SDMA_CTL of a channel. -/
theorem sdmaRow_writes {s : State} {r : Req} {c : Nat} (hc : c < 64) (h : s.reachable r (0x3A000 + c * 0x40 + 0x14) = true)
    (v force : Word) : sdmaRow r c v force s = .next (s.writeSdma r c 0x14 (v ||| force)) := by
  rw [sdmaRow, if_neg (by omega), busRow_reachable h]

/-! ## Bursts (R440 to R442) -/

/-- In ARMED the request is sampled. -/
theorem execBurstStart_armed {s : State} {c : Nat} {request : Bool} (hc : c < 64) (hps : s.pwr.ps ≠ 2) (hph : s.pwr.phase ≠ 3)
    (hst : (s.chan c).state = 1) (hr : (s.chan c).reqsel = 0 ∨ request = s.sdmaRequest c) :
    execBurstStart c request s = .next (if s.sdmaRequest c then s.updChan c fun y => { y with state := 2, tries := 0 } else s) := by
  rw [execBurstStart, if_neg (by simp [hps]; omega), if_pos hst]
  exact when_pos (by simp [hph, hr]) ..

/-- In RETRY the repeat starts. -/
theorem execBurstStart_retry {s : State} {c : Nat} (hc : c < 64) (hps : s.pwr.ps ≠ 2) (hst : (s.chan c).state = 3) (request : Bool) :
    execBurstStart c request s = .next (s.updChan c fun y => { y with state := 2 }) := by
  rw [execBurstStart, if_neg (by simp [hps]; omega), if_neg (by simp [hst]), if_pos hst]

section Burst
variable {s : State} {c : Nat} {wr : Bool} (h : c < 64 ∧ (s.chan c).state = 2) (hsrc : s.sdmaReaches (s.chan c).sspace = true)
  (hdst : s.sdmaReaches (s.chan c).dspace = true)
include h hsrc hdst

/-- A burst ends on a bus error from outside. -/
theorem execBurstComplete_err : execBurstComplete c .err wr s =
    .next (s.free.2.burstFails c ((if wr then (s.chan c).dstAt else (s.chan c).srcAt) + s.free.1.toNat % (s.chan c).burstLen) wr) := by
  simp only [execBurstComplete, h, hsrc, hdst]
  rfl

/-- A burst's read meets a bus error. -/
theorem execBurstComplete_readFails {a : Nat}
    (hr : s.sdmaRead (s.chan c).sspace (s.chan c).srcAt (s.chan c).burstLen (s.chan c).sfix = .error a) :
    execBurstComplete c .ok wr s = .next (s.burstFails c a false) := by
  simp only [execBurstComplete, h, hsrc, hdst, hr]
  rfl

/-- A burst's write meets a bus error. -/
theorem execBurstComplete_writeFails {bs : List Byte} {t : State} {a : Nat}
    (hr : s.sdmaRead (s.chan c).sspace (s.chan c).srcAt (s.chan c).burstLen (s.chan c).sfix = .ok bs)
    (hw : s.sdmaWrite (s.chan c).dspace (s.chan c).dstAt (s.chan c).dfix bs = (t, some a)) :
    execBurstComplete c .ok wr s = .next (t.burstFails c a true) := by
  simp only [execBurstComplete, h, hsrc, hdst, hr, hw]
  rfl

/-- A burst moves its bytes. -/
theorem execBurstComplete_moves {bs : List Byte} {t : State}
    (hr : s.sdmaRead (s.chan c).sspace (s.chan c).srcAt (s.chan c).burstLen (s.chan c).sfix = .ok bs)
    (hw : s.sdmaWrite (s.chan c).dspace (s.chan c).dstAt (s.chan c).dfix bs = (t, none)) :
    execBurstComplete c .ok wr s = .next (t.burstDone c (s.chan c).burstLen) := by
  simp only [execBurstComplete, h, hsrc, hdst, hr, hw]
  rfl

end Burst

/-! ## The read-back (R443) -/

/-- A read-back that succeeds ends the transfer, or its abort. -/
theorem execReadbackComplete_ok {s : State} {c : Nat} {bs : List Byte}
    (h : c < 64 ∧ (s.chan c).state = 4 ∧ s.sdmaReaches (s.chan c).dspace = true)
    (hr : s.sdmaRead (s.chan c).dspace (s.chan c).lastWord 4 (s.chan c).dfix = .ok bs) :
    execReadbackComplete c .ok s = .next (if (s.chan c).aborting then s.sdmaAborted c
      else if (s.chan c).ien then (s.updChan c fun y => { y with state := 5, inReadback := false }).raise (8 + c)
      else s.updChan c fun y => { y with state := 5, inReadback := false }) := by
  simp only [execReadbackComplete, h, hr]
  rfl

/-- A read-back that fails is repeated, or halts the channel. -/
theorem execReadbackComplete_fails {s : State} {c : Nat} {res : BusResult}
    (h : c < 64 ∧ (s.chan c).state = 4 ∧ s.sdmaReaches (s.chan c).dspace = true)
    (hf : res = .err ∨ (s.sdmaRead (s.chan c).dspace (s.chan c).lastWord 4 (s.chan c).dfix).toOption = none) :
    execReadbackComplete c res s = .next (if (s.chan c).rbTries < (s.chan c).retry.toNat
      then s.updChan c fun y => { y with rbTries := y.rbTries + 1 }
      else (s.updChan c fun y => { y with state := 7, errAddr := BitVec.ofNat 64 (s.chan c).lastWord, dirWrite := false, inReadback := true }).raise
        (8 + c)) := by
  cases hr : s.sdmaRead (s.chan c).dspace (s.chan c).lastWord 4 (s.chan c).dfix with
  | error a => simp only [execReadbackComplete, h, hr, Bool.and_false]; rfl
  | ok bs =>
    obtain rfl | hn := hf
    · simp only [execReadbackComplete, h, hr]; rfl
    · rw [hr] at hn; cases hn

/-- Settles O4, row by row. -/
theorem sdmaCompletes : Obligations.SdmaCompletes := by
  refine ⟨?go, ?abort, ?resume, ?armed, ?retry, ?timeout, ?err, ?readFails, ?writeFails, ?moves, ?readback, ?readbackFails⟩
  case go => exact fun r c v s ⟨hc, h⟩ => sdmaRow_writes hc h ..
  case abort => exact fun r c v s ⟨hc, h⟩ => sdmaRow_writes hc h ..
  case resume => exact fun r c v s ⟨hc, h⟩ => sdmaRow_writes hc h ..
  case armed => exact fun c request s ⟨hc, hps, hph, hst⟩ hr => execBurstStart_armed hc hps hph hst hr
  case retry => exact fun c request s ⟨hc, hps, hst⟩ => execBurstStart_retry hc hps hst request
  case timeout =>
    intro c s ⟨hc, hps, hst, htmo⟩ hdue
    exact timeout_pos (by rw [decide_eq_true hc, decide_eq_true hst, decide_eq_true htmo, decide_eq_true hps, hdue]; rfl) ..
  case err => rintro c _ wr s h hsrc hdst rfl; exact execBurstComplete_err h hsrc hdst
  case readFails => rintro c _ wr s a h hsrc hdst rfl hr; exact execBurstComplete_readFails h hsrc hdst hr
  case writeFails => rintro c _ wr s bs t a h hsrc hdst rfl hr hw; exact execBurstComplete_writeFails h hsrc hdst hr hw
  case moves => rintro c _ wr s bs t h hsrc hdst rfl hr hw; exact execBurstComplete_moves h hsrc hdst hr hw
  case readback => rintro c _ s bs h rfl hr; exact execReadbackComplete_ok h hr
  case readbackFails => exact fun c res s h hf => execReadbackComplete_fails h hf

end Sys2Proof.Machine
end

section
/-! The SPDM responder (17_trust.md, R500): what each request is answered with. -/

namespace Sys2Proof.Machine

/-- While TRUST runs the responder's response is sent. -/
theorem spdmReply_runs {s : State} (h : s.trust.boot = 2) (k : State → SpdmResp × State) :
    s.spdmReply k = .next ((k s).2.emit (.spdm (k s).1.1 (k s).1.2)) := if_pos h

/-- While TRUST runs a request takes the responder's turn. -/
theorem spdmRequest_runs {s : State} (h : s.trust.boot = 2) (q : SpdmReq) : s.spdmRequest q = .next (s.spdmTurn q) :=
  spdmReply_runs h _

/-- A chunk in its order that is not the last one is kept and acknowledged. -/
theorem execChunkSend_more {s : State} {handle seq : Nat} {data bs : List Byte} (h : s.trust.boot = 2) (hp : 2 ≤ s.trust.spdm.phase)
    (hc : s.trust.spdm.chunk handle seq data = some bs) :
    execChunkSend handle seq false data s = .next ((s.updSpdm fun y => { y with chunkIn := some (handle, seq + 1, bs) }).emit
      (.spdm 0x05 (natLE 1 0 ++ (natLE 1 handle ++ natLE 2 seq)))) := by
  simp only [execChunkSend, spdmReply_runs h, if_neg (Nat.not_lt.2 hp), hc]
  rfl

/-- The chunk that is due of a large response leaves, and the rest is kept. -/
theorem execChunkGet_due {s : State} {handle seq n : Nat} {bs : List Byte} (h : s.trust.boot = 2)
    (hc : s.trust.spdm.chunkOut = some (handle, seq, bs)) (hn : n = s.trust.spdm.xfer - 12 - (if seq = 0 then 4 else 0)) :
    execChunkGet handle seq s =
      .next ((s.updSpdm fun y => { y with chunkOut := if (bs.drop n).isEmpty then none else some (handle, seq + 1, bs.drop n) }).emit
        (.spdm 0x06 (natLE 1 (b2n (bs.drop n).isEmpty) ++ natLE 1 handle ++ natLE 2 seq ++ natLE 2 0 ++ natLE 4 (bs.take n).length
          ++ (if seq = 0 then natLE 4 bs.length else []) ++ bs.take n))) := by
  subst hn
  simp only [execChunkGet, spdmReply_runs h, hc]
  simp

/-- Settles O7, row by row. -/
theorem spdmCompletes : Obligations.SpdmCompletes := by
  refine ⟨?version, ?capabilities, ?algorithms, ?digests, ?certificate, ?challenge, ?measurements, ?chunkSend, ?chunkGet, ?stopped⟩
  case version => exact fun s h => spdmRequest_runs h _
  case capabilities => exact fun _ _ _ s h => spdmRequest_runs h _
  case algorithms => exact fun _ _ _ s h => spdmRequest_runs h _
  case digests => exact fun s h => spdmRequest_runs h _
  case certificate => exact fun _ _ _ s h => spdmRequest_runs h _
  case challenge => exact fun _ _ _ s h => spdmRequest_runs h _
  case measurements => exact fun _ _ _ _ s h => spdmRequest_runs h _
  case chunkSend => rintro handle seq _ data s bs ⟨h, hp⟩ hc rfl; exact execChunkSend_more h hp hc
  case chunkGet => exact fun handle seq s n bs h hc hn => execChunkGet_due h hc hn
  case stopped => exact fun s h => if_neg h

end Sys2Proof.Machine
end

section
/-! Peer links (15_peer_links.md, R451 to R454, R467): what each row answers where its conditions hold. -/

namespace Sys2Proof.Machine

/-- A timeout that acts, its effect rewritten. -/
theorem timeout_eq {c : Bool} (h : c = true) {awaited : Instr → Bool} {m : String} {s t u : State} (ht : t = u) :
    timeout c awaited m s t = .next (if s.comes awaited then s else u) := ht ▸ timeout_pos h ..

/-! ## Training (R451, R452) -/

/-- Training that ends with the right peer brings the link UP, or UP7 with seven lanes. -/
theorem execLinkTrainingComplete_up {s : State} {k : Nat} {lanes : BitVec 8} {peer : BitVec 3} (hk : k < s.plkCount)
    (hst : (s.link k).state = 1) (hl : 7 ≤ popCount lanes) (hp : peer = s.pwr.devid ^^^ linkMask k) :
    execLinkTrainingComplete k lanes peer s = .next (s.setLink k
      { s.link k with state := if popCount lanes = 8 then 2 else 3, insvc := lanes, peer := peer, tries := 0 }) := by
  rw [execLinkTrainingComplete, if_neg (by simp [hk, hst, hl]), if_neg (not_not_intro hp)]

/-- Training that ends with a wrong peer leaves the link DOWN in CONFLICT. -/
theorem execLinkTrainingComplete_conflict {s : State} {k : Nat} {lanes : BitVec 8} {peer : BitVec 3} (hk : k < s.plkCount)
    (hst : (s.link k).state = 1) (hl : 7 ≤ popCount lanes) (hp : peer ≠ s.pwr.devid ^^^ linkMask k) :
    execLinkTrainingComplete k lanes peer s = .next (s.setLink k { s.link k with state := 0, conflict := true, tries := 0 }) := by
  rw [execLinkTrainingComplete, if_neg (by simp [hk, hst, hl]), if_pos hp]

/-- An attempt that has taken its 20 ms ends without a lock. -/
theorem linkTraining_due {s : State} {k : Nat} (hk : k < s.plkCount) (hst : (s.link k).state = 1)
    (hdue : s.elapsed (s.link k).trainAt 20000000 = true) :
    (k < s.plkCount && (s.link k).state = 1 && s.elapsed (s.link k).trainAt 20000000) = true := by
  rw [decide_eq_true hk, decide_eq_true hst, hdue]; rfl

/-! ## The link's register (R467) -/

/-- Link k after its update. -/
theorem link_updLink_self {s : State} {k : Nat} {f : Link → Link} (h : tableWf {} s.plk.links = true) :
    (s.updLink k f).link k = f (s.link k) := look_upd_self h

/-- RETRAIN of a link that is DOWN or FAILED, with no lane out of service, starts its training. -/
theorem writeLink_retrain {s : State} {k : Nat} (hst : (s.link k).state = 0 ∨ (s.link k).state = 4) (hoff : (s.link k).offl = 0)
    (hwf : tableWf {} s.plk.links = true) :
    s.writeLink k (s.retrainWord k) = (s.updLink k fun y => { y with offl := 0 }).setLink k
      { s.link k with state := 1, conflict := false, tries := 0, trainAt := s.clk.alm } := by
  have hword : s.retrainWord k = 0x01000000 := by rw [State.retrainWord, hoff]; rfl
  have h2 : (s.link k).state ≠ 2 := by rintro h; simp [h] at hst
  have h3 : (s.link k).state ≠ 3 := by rintro h; simp [h] at hst
  have hready : bit (0x01000000 : Word).toNat 24 = true ∧ ((s.link k).state = 0 ∨ (s.link k).state = 4) := ⟨rfl, hst⟩
  rw [State.writeLink, hword, if_neg (by decide)]
  simp only [h2, h3, link_updLink_self hwf, decide_false, Bool.false_and, Bool.false_eq_true, if_false, Bool.and_eq_true, Bool.or_eq_true,
    decide_eq_true_eq]
  rw [if_pos hready, show BitVec.ofNat 8 (bits (0x01000000 : Word).toNat 7 0) = (s.link k).offl from hoff.symm]
  exact congrArg (State.setLink · k _) (by rw [hoff]; rfl)

/-- Settles O23, row by row. -/
theorem peerLinkCompletes : Obligations.PeerLinkCompletes := by
  refine ⟨?up, ?up7, ?conflict, ?failed, ?again, ?silent, ?lane, ?retrain, ?offl⟩
  case up =>
    intro k lanes peer s ⟨hk, hst, hl, hp⟩
    rw [exec_linkTrainingComplete, execLinkTrainingComplete_up hk hst (by omega) hp, if_pos hl]
  case up7 =>
    intro k lanes peer s ⟨hk, hst, hl, hp⟩
    rw [exec_linkTrainingComplete, execLinkTrainingComplete_up hk hst (by omega) hp, if_neg (by omega)]
  case conflict => exact fun k lanes peer s ⟨hk, hst, hl, hp⟩ => execLinkTrainingComplete_conflict hk hst hl hp
  case failed =>
    exact fun k s ⟨hk, hst, hdue, htries⟩ => timeout_eq (linkTraining_due hk hst hdue) (if_neg (Nat.not_lt.2 htries))
  case again =>
    exact fun k s ⟨hk, hst, hdue, htries⟩ => timeout_eq (linkTraining_due hk hst hdue) (if_pos htries)
  case silent => exact fun k s h => when_pos h ..
  case lane => exact fun k lane s ⟨hk, hst, hl⟩ => when_pos (by rw [decide_eq_true hk, decide_eq_true hst, decide_eq_true hl]; rfl) ..
  case retrain =>
    intro r k s ⟨hk, hr⟩ hst hoff hwf
    rw [exec_plkRetrain, execPlkRetrain, if_neg (by omega), busRow_reachable hr, writeLink_retrain hst hoff hwf]
  case offl =>
    intro r p v s ⟨hp, hr⟩
    rw [exec_plkOfflWrite, execPlkOfflWrite, if_neg (by omega), busRow_reachable hr]

end Sys2Proof.Machine
end

section
/-! Peer bindings (15_peer_links.md, R456, R459, R460, R467): what each row answers where its conditions hold. -/

namespace Sys2Proof.Machine

/-- An update of binding b that gives the same record gives the same state. -/
theorem updBinding_congr {s : State} {b : Nat} {f g : Binding → Binding} (h : f (s.binding b) = g (s.binding b)) :
    s.updBinding b f = s.updBinding b g :=
  congrArg (fun x => ({ s with plk := { s.plk with bindings := put {} s.plk.bindings b x } } : State)) h

/-! ## The register row (R456) -/

/-- A field of a register word. -/
theorem ofNat_bits (v : Word) (lo w : Nat) : BitVec.ofNat w (bits v.toNat (lo + w - 1) lo) = v.extractLsb' lo w := by
  apply BitVec.eq_of_toNat_eq
  obtain rfl | h : w = 0 ∨ lo + w - 1 + 1 - lo = w := by omega
  · simp [BitVec.of_length_zero]
  · simp [bits, h]

/-- The write of PLK_BIND_CTL with EN = 1 to a binding that is off and is not being checked queues its check. -/
theorem writeBinding_enables {s : State} {b : Nat} (hq : (s.ccr .plk).queue.contains (.binding b) = false) (hen : (s.binding b).en = false)
    (r : Req) (v : Word) :
    s.writeBinding r b 0 (v ||| 0x80000000) =
      (s.updBinding b fun y => { y with devmask := v.extractLsb' 16 8, part := v.extractLsb' 0 13 }).queueCheck .plk (.binding b) := by
  have hbit : bit (v ||| 0x80000000).toNat 31 = true := by
    rw [bit, BitVec.testBit_toNat, BitVec.getLsbD_or]; simp
  have hmask : BitVec.ofNat 8 (bits (v ||| 0x80000000).toNat 23 16) = v.extractLsb' 16 8 := by
    rw [ofNat_bits _ 16 8, BitVec.extractLsb'_or]; exact BitVec.or_zero
  have hpart : BitVec.ofNat 13 (bits (v ||| 0x80000000).toNat 12 0) = v.extractLsb' 0 13 := by
    rw [ofNat_bits _ 0 13, BitVec.extractLsb'_or]; exact BitVec.or_zero
  simp only [State.writeBinding, hq, hen, hbit, hmask, hpart]
  rfl

/-! ## Messages (R456, R459, R460) -/

/-- A binding once a device has announced its own (R456): UP toward it where both have the same DEVMASK and CTX entries. -/
def Binding.announced (x : Binding) (dev : Nat) (devmask : BitVec 8) (ctxs : List (BitVec 13)) (gen : BitVec 16) : Binding :=
  let y := { x with peers := put none x.peers dev (some (devmask, ctxs)), gens := put 0 x.gens dev gen }
  if y.en && y.devmask.getLsbD dev && y.meets dev then { y with up := y.up ||| devBit dev, lost := y.lost &&& ~~~devBit dev } else y

/-- Whether an announcement brings another GEN of an enabled binding (R460). -/
def Binding.genMoves (x : Binding) (dev : Nat) (gen : BitVec 16) : Bool :=
  x.en && x.devmask.getLsbD dev && (look none x.peers dev).isSome && look 0 x.gens dev ≠ gen

/-- BINDING_MESSAGE from a device that is reached. -/
theorem execBindingMessage_hears {s u : State} {dev b : Nat} (hu : u = s.hear dev)
    (h : dev < 8 ∧ dev ≠ u.pwr.devid.toNat ∧ b < 64 ∧ u.reaches dev = true) (devmask : BitVec 8) (ctxs : List (BitVec 13)) (gen : BitVec 16) :
    execBindingMessage dev b devmask ctxs gen s = .next
      (if (u.binding b).genMoves dev gen then (u.updBinding b fun x => x.announced dev devmask ctxs gen).failBinding b
       else u.updBinding b fun x => x.announced dev devmask ctxs gen) := by
  subst hu
  obtain ⟨hdev, hown, hb, hr⟩ := h
  exact if_neg (by simp [hdev, hown, hb, hr])

section Announced
variable {x : Binding} {dev : Nat} {devmask : BitVec 8} {ctxs : List (BitVec 13)} {gen : BitVec 16}

/-- A binding that is off only notes what the device announced. -/
theorem announced_off (h : x.en = false) :
    x.announced dev devmask ctxs gen = { x with peers := put none x.peers dev (some (devmask, ctxs)), gens := put 0 x.gens dev gen } :=
  if_neg (by simp [h])

theorem genMoves_off (h : x.en = false) : x.genMoves dev gen = false := by rw [Binding.genMoves, h]; rfl

variable (h : x.en = true ∧ x.devmask = devmask ∧ x.entries = ctxs ∧ devmask.getLsbD dev = true ∧ tableWf none x.peers = true)
include h

/-- A binding that is on is UP toward a device that announces the same. -/
theorem announced_meets :
    x.announced dev devmask ctxs gen =
      { x with peers := put none x.peers dev (some (devmask, ctxs)), gens := put 0 x.gens dev gen
               up := x.up ||| devBit dev, lost := x.lost &&& ~~~devBit dev } := by
  obtain ⟨hen, rfl, rfl, hdev, hwf⟩ := h
  refine if_pos ?_
  have hmeets : look none (put none x.peers dev (some (x.devmask, x.entries))) dev = some (x.devmask, x.entries) := look_put_self hwf
  simp only [hen, hdev, Binding.meets, hmeets, Bool.and_true, Bool.true_and]
  exact decide_eq_true rfl

/-- Its GEN moves where an earlier announcement gave another one. -/
theorem genMoves_on : x.genMoves dev gen = ((look none x.peers dev).isSome && decide (look 0 x.gens dev ≠ gen)) := by
  obtain ⟨hen, rfl, rfl, hdev, -⟩ := h
  rw [Binding.genMoves, hen, hdev]; rfl

end Announced

/-- GENERATION_UPDATE_MESSAGE from a device of the binding that is reached. -/
theorem execGenerationUpdateMessage_hears {s u : State} {dev b : Nat} (hu : u = s.hear dev)
    (h : dev < 8 ∧ dev ≠ u.pwr.devid.toNat ∧ b < 64 ∧ u.reaches dev = true ∧ (u.binding b).devmask.getLsbD dev = true) {gen : BitVec 16}
    {t : State}
    (ht : t = (u.updBinding b fun y => { y with gens := put 0 y.gens dev gen }).plkSend dev
      (.plkGenAck dev (look 0 (u.binding b).ctxs dev).toNat gen)) :
    execGenerationUpdateMessage dev b gen s = .next
      (if look 0 (u.binding b).gens dev ≠ gen && (u.binding b).en then t.failBinding b else t) := by
  subst hu ht
  obtain ⟨hdev, hown, hb, hr, hm⟩ := h
  exact if_neg (by simp [hdev, hown, hb, hr, hm])

/-- GENERATION_UPDATE_ACK that is awaited clears its device. -/
theorem execGenerationUpdateAck_clears {s u : State} {dev p : Nat} {gen : BitVec 16} {m : BitVec 8} (hu : u = s.hear dev)
    (hm : (u.part p).genWait = some m) (h : dev < 8 ∧ p < 4096 ∧ (u.part p).gen = gen ∧ m.getLsbD dev = true) :
    execGenerationUpdateAck dev p gen s = .next (u.setPart p { u.part p with genWait := some (m &&& ~~~devBit dev) }) := by
  subst hu
  obtain ⟨hdev, hp, hgen, hbit⟩ := h
  unfold execGenerationUpdateAck
  simp only [hm]
  exact when_pos (by simp [hdev, hp, hgen, hbit]) ..

/-- Settles O24, row by row. -/
theorem peerBindingCompletes : Obligations.PeerBindingCompletes := by
  refine ⟨?row, ?enable, ?off, ?meets, ?moves, ?genSame, ?genMoves, ?ack⟩
  case row =>
    intro r b v s ⟨hb, h⟩
    rw [exec_peerBindingEnable, execPeerBindingEnable, if_neg (by omega), busRow_reachable h]
  case enable =>
    intro r b v s ⟨hb, h⟩ ⟨hq, hen⟩
    rw [exec_peerBindingEnable, execPeerBindingEnable, if_neg (by omega), busRow_reachable h, writeBinding_enables hq hen]
  case off =>
    intro dev b devmask ctxs gen s u hu h hoff
    rw [exec_bindingMessage, execBindingMessage_hears hu h, genMoves_off hoff, if_neg (by decide)]
    exact congrArg _ (updBinding_congr (announced_off hoff))
  case meets =>
    intro dev b devmask ctxs gen s u hu h hon hsame
    rw [exec_bindingMessage, execBindingMessage_hears hu h, genMoves_on hon, hsame, if_neg (by decide)]
    exact congrArg _ (updBinding_congr (announced_meets hon))
  case moves =>
    intro dev b devmask ctxs gen s u hu h hon hmoves
    rw [exec_bindingMessage, execBindingMessage_hears hu h, genMoves_on hon, hmoves, if_pos rfl]
    exact congrArg (fun t : State => Host.Outcome.next (t.failBinding b)) (updBinding_congr (announced_meets hon))
  case genSame =>
    intro dev b gen s u hu h hsame
    rw [exec_generationUpdateMessage, execGenerationUpdateMessage_hears hu h rfl, if_neg]
    obtain hen | hg := hsame
    · rw [hen, Bool.and_false]; exact Bool.false_ne_true
    · rw [decide_eq_false (not_not_intro hg)]; exact Bool.false_ne_true
  case genMoves =>
    intro dev b gen s u hu h ⟨hen, hg⟩
    rw [exec_generationUpdateMessage, execGenerationUpdateMessage_hears hu h rfl, if_pos (by rw [decide_eq_true hg, hen]; rfl)]
  case ack => exact fun dev p gen s u m hu hm h => execGenerationUpdateAck_clears hu hm h

end Sys2Proof.Machine
end

section
/-! Partner mirroring (15_peer_links.md, R461 to R464, R467): what each row answers where its conditions hold. -/

namespace Sys2Proof.Machine
/-! ## PLK_MIRROR (R461, R467) -/

/-- PLK_MIRROR as a number. -/
theorem mirrorWord_toNat (s : State) :
    s.mirrorWord.toNat = b2n s.plk.mirEn * 2 ^ 31 + b2n s.plk.mirFail * 2 ^ 25 + s.plk.mirTmo.toNat := by
  have htmo := s.plk.mirTmo.isLt
  cases hen : s.plk.mirEn <;> cases hf : s.plk.mirFail <;> simp [State.mirrorWord, packW, hen, hf, b2n] <;> omega

/-- EN stands in bit 31. -/
theorem mirrorWord_en (s : State) : s.mirrorWord.getLsbD 31 = s.plk.mirEn := by
  have htmo := s.plk.mirTmo.isLt
  rw [BitVec.getLsbD, mirrorWord_toNat, Nat.testBit_eq_decide_div_mod_eq]
  cases s.plk.mirEn <;> cases s.plk.mirFail <;> simp [b2n] <;> omega

/-- MIRFAIL stands in bit 25. -/
theorem mirrorWord_fail (s : State) : s.mirrorWord.getLsbD 25 = s.plk.mirFail := by
  have htmo := s.plk.mirTmo.isLt
  rw [BitVec.getLsbD, mirrorWord_toNat, Nat.testBit_eq_decide_div_mod_eq]
  cases s.plk.mirEn <;> cases s.plk.mirFail <;> simp [b2n] <;> omega

/-- RELEASE reads 0. -/
theorem mirrorWord_release (s : State) : s.mirrorWord.getLsbD 26 = false := by
  have htmo := s.plk.mirTmo.isLt
  rw [BitVec.getLsbD, mirrorWord_toNat, Nat.testBit_eq_decide_div_mod_eq]
  cases s.plk.mirEn <;> cases s.plk.mirFail <;> simp [b2n] <;> omega

/-- MIR_TMO stands in bits 15 to 0. -/
theorem mirrorWord_tmo (s : State) : s.mirrorWord.extractLsb' 0 16 = s.plk.mirTmo := by
  have htmo := s.plk.mirTmo.isLt
  apply BitVec.eq_of_toNat_eq
  rw [BitVec.extractLsb'_toNat, mirrorWord_toNat]
  cases s.plk.mirEn <;> cases s.plk.mirFail <;> simp [b2n] <;> omega

/-- A write of PLK_MIRROR that is neither held nor discarded, by the fields of its word. -/
theorem writeMirror_free {s : State} {v : Word} {en fail release : Bool} {tmo : BitVec 16}
    (hq : (s.ccr .plk).queue.contains .mirror = false) (hen : v.getLsbD 31 = en) (hfail : v.getLsbD 25 = fail)
    (hrel : v.getLsbD 26 = release) (htmo : v.extractLsb' 0 16 = tmo)
    (hoff : (!en && s.plk.mirEn && s.arc.arrays.any fun e => e.2.mirror) = false) {t : State}
    (ht : t = { s with plk := { s.plk with mirFail := fail, mirTmo := tmo } }) (r : Req) :
    s.writeMirror r v =
      (if !en && s.plk.mirEn then (if release then t.releaseCopy else t).mirrorOff
       else if en && !s.plk.mirEn then (if release then t.releaseCopy else t).queueCheck .plk .mirror
       else if release then t.releaseCopy else t) := by
  subst ht
  have hbit : ∀ i, bit v.toNat i = v.getLsbD i := fun i => (BitVec.testBit_toNat v)
  simp only [State.writeMirror, hq, hbit, hen, hfail, hrel, ofNat_bits v 0 16, htmo, hoff]
  rfl

/-- A write of the fields as they stand. -/
theorem mirror_unchanged (s : State) : s = { s with plk := { s.plk with mirFail := s.plk.mirFail, mirTmo := s.plk.mirTmo } } := rfl

/-- The write with EN = 1 and no RELEASE, from OFF, queues the check. -/
theorem writeMirror_enables {s : State} {v : Word} (hq : (s.ccr .plk).queue.contains .mirror = false) (hen : s.plk.mirEn = false)
    (hv : v.getLsbD 26 = false) (r : Req) :
    s.writeMirror r (v ||| 0x80000000) =
      { s with plk := { s.plk with mirFail := v.getLsbD 25, mirTmo := v.extractLsb' 0 16 } }.queueCheck .plk .mirror := by
  rw [writeMirror_free (en := true) (fail := v.getLsbD 25) (release := false) (tmo := v.extractLsb' 0 16) hq (by simp) (by simp)
    (by rw [BitVec.getLsbD_or, hv]; rfl) (by rw [BitVec.extractLsb'_or]; exact BitVec.or_zero) (by rfl) rfl, hen]
  rfl

/-- The write with EN = 0, while no array has MIRROR = 1, turns mirroring off. -/
theorem writeMirror_disables {s : State} (hq : (s.ccr .plk).queue.contains .mirror = false) (hen : s.plk.mirEn = true)
    (ha : (s.arc.arrays.any fun e => e.2.mirror) = false) (r : Req) : s.writeMirror r (s.mirrorWord &&& 0x7FFFFFFF) = s.mirrorOff := by
  rw [writeMirror_free (en := false) (fail := s.plk.mirFail) (release := false) (tmo := s.plk.mirTmo) hq (by simp)
    (by rw [BitVec.getLsbD_and, mirrorWord_fail]; exact Bool.and_true _) (by rw [BitVec.getLsbD_and, mirrorWord_release]; rfl)
    (by rw [BitVec.extractLsb'_and, mirrorWord_tmo]; exact BitVec.and_allOnes) (by rw [ha, Bool.and_false]) (mirror_unchanged s), hen]
  rfl

/-- The write with RELEASE = 1, while mirroring is on, releases the copy. -/
theorem writeMirror_releases {s : State} (hq : (s.ccr .plk).queue.contains .mirror = false) (hen : s.plk.mirEn = true) (r : Req) :
    s.writeMirror r (s.mirrorWord ||| 0x04000000) = s.releaseCopy := by
  rw [writeMirror_free (en := true) (fail := s.plk.mirFail) (release := true) (tmo := s.plk.mirTmo) hq (by simp [mirrorWord_en, hen])
    (by rw [BitVec.getLsbD_or, mirrorWord_fail]; exact Bool.or_false _) (by simp)
    (by rw [BitVec.extractLsb'_or, mirrorWord_tmo]; exact BitVec.or_zero) (by rfl) (mirror_unchanged s), hen]
  rfl

/-! ## Acknowledgements (R462, R463) -/

/-- MIRROR_ACK that is awaited completes its write; the last one of SYNCING makes MIRRORED. -/
theorem execMirrorAck_awaited {s : State} {id : Nat} (hst : s.plk.mirState = 1 ∨ s.plk.mirState = 2) (hid : s.awaitsAck id = true)
    (hrun : s.ungated = true) {t : State}
    (ht : t = { s with plk := { s.plk with mirWait := s.plk.mirWait.filter (·.1 ≠ id) } }.writeDone id) :
    execMirrorAck id s = .next (if s.plk.mirState = 1 && (s.plk.mirWait.filter (·.1 ≠ id)).isEmpty
      then { t with plk := { t.plk with mirState := 2, holdCopy := false } } else t) := by
  subst ht
  exact if_pos (by simp [hst, hid, hrun])

/-- A write of which no command is left completes nothing. -/
theorem writeDone_gone {s : State} {id : Nat} (h : s.cmd? id = none) : s.writeDone id = s := by rw [State.writeDone, h]

/-- MIRROR_ACK_TIMEOUT acts on a missed acknowledgement. -/
theorem mirrorAck_due {s : State} (hst : s.plk.mirState = 1 ∨ s.plk.mirState = 2)
    (hdue : s.plk.mirWait.any (fun e => s.elapsed e.2 (1000 * s.plk.mirTmo.toNat)) = true) (hrun : s.ungated = true) :
    ((s.plk.mirState = 1 || s.plk.mirState = 2) && s.plk.mirWait.any (fun e => s.elapsed e.2 (1000 * s.plk.mirTmo.toNat))
      && s.ungated) = true := by
  rw [hdue, hrun]; simp [hst]

/-- Mirroring that runs breaks (R462): with MIRFAIL the writes keep waiting. -/
theorem mirrorBreak_fails {s : State} (hst : s.plk.mirState = 1 ∨ s.plk.mirState = 2) (hf : s.plk.mirFail = true) :
    s.mirrorBreak = { s with plk := { s.plk with mirState := 3, holdCopy := true } } := by
  rw [State.mirrorBreak, if_pos (by simpa using hst), hf]; rfl

/-- Without MIRFAIL they complete. -/
theorem mirrorBreak_completes {s : State} (hst : s.plk.mirState = 1 ∨ s.plk.mirState = 2) (hf : s.plk.mirFail = false) :
    s.mirrorBreak = s.plk.mirWait.foldl (fun (x : State) e => x.writeDone e.1)
      { s with plk := { s.plk with mirState := 3, holdCopy := true, mirWait := [] } } := by
  rw [State.mirrorBreak, if_pos (by simpa using hst), hf]; rfl

/-! ## The partner's messages (R461, R462, R464) -/

/-- A copy that is held is sent. -/
theorem sendCopy_held {s : State} {id : BitVec 128} (h : (s.plk.area.filter fun (e : MirBlk) => e.arrayId = id) ≠ []) :
    s.sendCopy id = s.plkSend s.partner (.plkCopy id (s.partnerJournal id) (s.plk.area.filter fun (e : MirBlk) => e.arrayId = id)) :=
  if_neg (by simp only [Bool.and_eq_true, List.isEmpty_iff]; exact fun e => h e.1)

/-- With none held nothing is sent. -/
theorem sendCopy_none {s : State} {id : BitVec 128} (h : (s.plk.area.filter fun (e : MirBlk) => e.arrayId = id) = [])
    (hj : s.partnerJournal id = []) : s.sendCopy id = s :=
  if_pos (by rw [h, hj]; rfl)

/-- Mirroring that is on and runs. -/
theorem mirror_runs {s : State} (hen : s.plk.mirEn = true) (hst : s.plk.mirState = 1 ∨ s.plk.mirState = 2) (hrun : s.ungated = true) :
    (s.plk.mirEn && (s.plk.mirState = 1 || s.plk.mirState = 2) && s.ungated) = true := by rw [hen, hrun]; simp [hst]

/-- Settles O25, row by row. -/
theorem mirroringCompletes : Obligations.MirroringCompletes := by
  refine ⟨?write, ?ack, ?lastAck, ?breaks, ?completes, ?ask, ?askNone, ?answer, ?enSet, ?enCleared, ?wasReset, ?copy, ?done, ?imported,
    ?row, ?enable, ?disable, ?release⟩
  case write => exact fun arrayId seq vol lba blocks s ⟨hen, hst⟩ hrun => when_pos (mirror_runs hen hst hrun) ..
  case ack =>
    intro id s ⟨hst, hid, hrun⟩
    rw [exec_mirrorAck, execMirrorAck_awaited (.inr hst) hid hrun rfl, if_neg (by rw [hst]; simp)]
  case lastAck =>
    intro id s ⟨hst, hid, hw, hc, hrun⟩
    have hgone (l : List (Nat × DWord)) : ({ s with plk := { s.plk with mirWait := l } } : State).writeDone id =
        { s with plk := { s.plk with mirWait := l } } := writeDone_gone hc
    rw [exec_mirrorAck, execMirrorAck_awaited (.inl hst) hid hrun rfl, hw, hgone, if_pos (by rw [hst]; rfl)]
  case breaks => exact fun s hst ⟨hdue, hrun, hf⟩ => timeout_eq (mirrorAck_due hst hdue hrun) (mirrorBreak_fails hst hf)
  case completes => exact fun s hst ⟨hdue, hrun, hf⟩ => timeout_eq (mirrorAck_due hst hdue hrun) (mirrorBreak_completes hst hf)
  case ask => rintro _ s id ⟨rfl, h⟩; exact congrArg _ (sendCopy_held h)
  case askNone => rintro _ s id ⟨rfl, h, hj⟩; exact congrArg _ (sendCopy_none h hj)
  case answer => rintro _ s id journal blocks ⟨rfl, hr, ha⟩; exact when_pos (by rw [hr, ha]; rfl) ..
  case enSet => rintro _ s rfl; rfl
  case enCleared => rintro _ s rfl; rfl
  case wasReset => rintro _ s rfl; rfl
  case copy => rintro _ s id journal blocks rfl ⟨hen, hst, hrun⟩; exact when_pos (mirror_runs hen hst hrun) ..
  case done => rintro _ s id seqs rfl ⟨hen, hst, hrun⟩; exact when_pos (mirror_runs hen hst hrun) ..
  case imported => rintro _ s id _ rfl rfl; rfl
  case row => exact fun r v s h => busRow_reachable h ..
  case enable =>
    intro r v s h ⟨hq, hen, hv⟩
    rw [exec_plkMirrorEnable, execPlkMirrorEnable, busRow_reachable h, writeMirror_enables hq hen hv]
  case disable =>
    intro r s h ⟨hq, hen, ha⟩
    rw [exec_plkMirrorDisable, execPlkMirrorDisable, busRow_reachable h, writeMirror_disables hq hen ha]
  case release =>
    intro r s h ⟨hq, hen⟩
    rw [exec_plkMirrorRelease, execPlkMirrorRelease, busRow_reachable h, writeMirror_releases hq hen]

end Sys2Proof.Machine
end

section
/-! What every command keeps (01_architecture.md, R398, R402, R438): the queue's rest, the part, and the canonical form of the memories.
One lemma for each operation of the model, in the model's order: from a state that keeps it (`h : Keeps s₀ s`) to the state after the
operation, so that the lemma of a composed operation is the chain of its parts' lemmas. `.either` is an `if`; a command that answers no
state has nothing to keep (`KeepsOut.refused`). -/

namespace Sys2Proof.Machine

/-! ### An `if`, a fold, a change of fields -/

section
variable {s₀ s : State}

theorem Keeps.either {t u : State} {c : Prop} [Decidable c] (h : Keeps s₀ t) (k : Keeps s₀ u) : Keeps s₀ (if c then t else u) :=
  .ite (fun _ => h) fun _ => k

theorem KeepsOut.refused {what} : KeepsOut s₀ (Machine.no what) := by
  intro t e; cases e

theorem KeepsOut.either {o p : Out1} {c : Prop} [Decidable c] (h : KeepsOut s₀ o) (k : KeepsOut s₀ p) :
    KeepsOut s₀ (if c then o else p) :=
  .ite (fun _ => h) fun _ => k

theorem Keeps.eitherFst {α : Type} {p q : State × α} {c : Prop} [Decidable c] (h : Keeps s₀ p.1) (k : Keeps s₀ q.1) :
    Keeps s₀ (if c then p else q).1 := by
  split
  · exact h
  · exact k

theorem Keeps.eitherSnd {α : Type} {p q : α × State} {c : Prop} [Decidable c] (h : Keeps s₀ p.2) (k : Keeps s₀ q.2) :
    Keeps s₀ (if c then p else q).2 := by
  split
  · exact h
  · exact k

/-- What a step that may find no room leaves. -/
def KeepsOpt (s : State) (o : Option State) : Prop := ∀ t, o = some t → Keeps s t

theorem KeepsOpt.none : KeepsOpt s₀ none := by
  intro t e; cases e

theorem KeepsOpt.some (h : Keeps s₀ s) : KeepsOpt s₀ (some s) := by
  intro t e; cases e; exact h

theorem KeepsOpt.either {o p : Option State} {c : Prop} [Decidable c] (ho : KeepsOpt s₀ o) (hp : KeepsOpt s₀ p) :
    KeepsOpt s₀ (if c then o else p) := by
  split
  · exact ho
  · exact hp

theorem KeepsOpt.map {o : Option State} {f : State → State} (ho : KeepsOpt s₀ o) (k : ∀ x, Keeps s₀ x → Keeps s₀ (f x)) :
    KeepsOpt s₀ (o.map f) := by
  intro t e
  obtain ⟨x, hx, rfl⟩ := Option.map_eq_some_iff.1 e
  exact k x (ho x hx)

theorem KeepsOpt.bind {o : Option State} {f : State → Option State} (ho : KeepsOpt s₀ o)
    (k : ∀ x, Keeps s₀ x → KeepsOpt s₀ (f x)) : KeepsOpt s₀ (o.bind f) := by
  intro t e
  obtain ⟨x, hx, ht⟩ := Option.bind_eq_some_iff.1 e
  exact k x (ho x hx) t ht

variable (h : Keeps s₀ s)
include h

/-- A change of fields of which none holds a memory, the queue or the part; TRUST keeps its flash. -/
theorem Keeps.updTrust {glb ccrs clk stws evc sdma vigil pwr hif parts pass cands hostBad plans runs nextRun cps astore cmp arc net plk
    images latches freeCtr out trust} (hf : trust.flash = s.trust.flash) :
    Keeps s₀ { s with
      glb := glb, ccrs := ccrs, clk := clk, stws := stws, evc := evc, sdma := sdma, vigil := vigil, pwr := pwr, hif := hif,
      parts := parts, pass := pass, cands := cands, hostBad := hostBad, plans := plans, runs := runs, nextRun := nextRun, cps := cps,
      astore := astore, cmp := cmp, arc := arc, net := net, plk := plk, images := images, latches := latches, freeCtr := freeCtr,
      out := out, trust := trust } :=
  h.fields rfl rfl rfl rfl rfl rfl hf rfl rfl

/-- A change of fields of which none holds a memory, the queue, the part or TRUST. -/
theorem Keeps.upd {glb ccrs clk stws evc sdma vigil pwr hif parts pass cands hostBad plans runs nextRun cps astore cmp arc net plk
    images latches freeCtr out} :
    Keeps s₀ { s with
      glb := glb, ccrs := ccrs, clk := clk, stws := stws, evc := evc, sdma := sdma, vigil := vigil, pwr := pwr, hif := hif,
      parts := parts, pass := pass, cands := cands, hostBad := hostBad, plans := plans, runs := runs, nextRun := nextRun, cps := cps,
      astore := astore, cmp := cmp, arc := arc, net := net, plk := plk, images := images, latches := latches, freeCtr := freeCtr,
      out := out } :=
  h.updTrust rfl

theorem Keeps.fold {α : Type} {f : State → α → State} {l : List α} (k : ∀ a x, Keeps s₀ x → Keeps s₀ (f x a)) :
    Keeps s₀ (l.foldl f s) := by
  induction l generalizing s with
  | nil => exact h
  | cons a r ih => exact ih (k a s h)

/-! ### Tiles and memories -/

theorem Keeps.free : Keeps s₀ s.free.2 := h.trans (keeps_free s)
theorem Keeps.tile {n} (w : s₀.memWf) : (s.tile n).memWf := tile_memWf (h.2.2 w) n
theorem Keeps.setTile {n x} (k : s₀.memWf → x.memWf) : Keeps s₀ (s.setTile n x) :=
  ⟨h.1, h.2.1, fun w => (keeps_setTile fun _ => k w).2.2 (h.2.2 w)⟩
theorem Keeps.updTile {n f} (k : ∀ x, (f x).scratch = x.scratch ∧ (f x).foreign = x.foreign) :
    Keeps s₀ (s.updTile n f) := h.trans (keeps_updTile s n f (fun x => (k x).1) fun x => (k x).2)
theorem Keeps.hostWrite {fn a bs} : Keeps s₀ (s.hostWrite fn a bs) := h.trans (keeps_hostWrite ..)
theorem Keeps.hbmWrite {ctx a bs} : Keeps s₀ (s.hbmWrite ctx a bs) := h.trans (keeps_hbmWrite ..)
theorem Keeps.mapPage {ctx page} : Keeps s₀ (s.mapPage ctx page) := h.trans (keeps_mapPage ..)
theorem Keeps.unmapPage {ctx page} : Keeps s₀ (s.unmapPage ctx page) := h.trans (keeps_unmapPage ..)
theorem Keeps.unmapAll {ctx} : Keeps s₀ (s.unmapAll ctx) := h.trans (keeps_unmapAll ..)

end

/-! ### A tile's bytes under the accesses of its column processors -/

section
variable {t : Tile} (ht : t.memWf)
include ht

theorem Tile.memWf.store {a bs} : (t.store a bs).memWf := by
  refine ⟨memWrite_wf ht.1, fun e he => ?_⟩
  obtain ⟨o, ho, hm⟩ := List.mem_filterMap.1 he
  dsimp only at hm
  split at hm
  · cases hm
  · cases hm; exact clearRange_wf (ht.2 o ho)

theorem Tile.memWf.writeBack {l} : (t.writeBack l).memWf := by
  unfold Tile.writeBack
  split
  · exact ht.store
  · exact ht

theorem Tile.memWf.foldl {α : Type} {f : Tile → α → Tile} {l : List α} (k : ∀ x a, x.memWf → (f x a).memWf) :
    (l.foldl f t).memWf := by
  induction l generalizing t with
  | nil => exact ht
  | cons a r ih => exact ih (k t a ht)

theorem Tile.memWf.makeRoom {c} : (Machine.makeRoom c t).2.memWf := by
  unfold Machine.makeRoom
  split
  · exact ht
  · split
    · exact ht
    · exact ht.writeBack

theorem Tile.memWf.fetchLine {c a} : (Machine.fetchLine c t a).2.memWf := by
  unfold Machine.fetchLine
  split
  · exact ht
  · exact ht.makeRoom

theorem Tile.memWf.cacheRd {c a} : (Machine.cacheRd c t a).2.2.memWf := by
  unfold Machine.cacheRd
  split
  · exact ht
  · exact ht.fetchLine

theorem Tile.memWf.cacheWr {c a b} : (Machine.cacheWr c t a b).2.memWf := by
  unfold Machine.cacheWr
  split
  · exact ht.store
  · exact ht.fetchLine

theorem Tile.memWf.cacheRead {c a n} : (Machine.cacheRead c t a n).2.2.memWf := by
  induction n generalizing c t a with
  | zero => exact ht
  | succ n ih => exact ih ht.cacheRd

theorem Tile.memWf.cacheWrite {c a bs} : (Machine.cacheWrite c t a bs).2.memWf := by
  induction bs generalizing c t a with
  | nil => exact ht
  | cons b bs ih => exact ih ht.cacheWr

theorem Tile.memWf.flushCache {c} : (Machine.flushCache c t).2.memWf := ht.foldl fun _ _ h => h.writeBack

theorem Tile.memWf.endFlush {c} : (Machine.endFlush c t).2.memWf := ht.flushCache

theorem Tile.memWf.applyRange {r c} : (Machine.applyRange r c t).2.memWf := by
  refine ht.foldl fun x l hx => ?_
  split
  · exact hx.writeBack
  · exact hx

/-- What an instruction's result leaves in the tile is in its form. -/
def CpRes.memWf : CpRes → Prop
  | .go _ t | .fail _ _ _ t | .miss _ _ t => t.memWf
  | .wait => True

theorem Tile.memWf.legal {ok c r} (hr : r.memWf) : (Machine.legal ok c t r).memWf := by
  unfold Machine.legal
  split
  · exact hr
  · exact ht

theorem Tile.memWf.vecOk {ok c r} (hr : r.memWf) : (Machine.vecOk ok c t r).memWf := by
  unfold Machine.vecOk
  split
  · exact hr
  · exact ht

theorem Tile.memWf.scalarLoad {u c a n k} (hk : ∀ bs c1 t1, t1.memWf → (k bs c1 t1).memWf) :
    (Machine.scalarLoad u c t a n k).memWf := by
  unfold Machine.scalarLoad
  split
  · exact ht
  · split
    · trivial
    · split
      · exact ht
      · exact hk _ _ _ ht.cacheRead

theorem Tile.memWf.scalarStore {u c a bs} : (Machine.scalarStore u c t a bs).memWf := by
  unfold Machine.scalarStore
  split
  · exact ht
  · split
    · trivial
    · exact ht.cacheWrite

theorem Tile.memWf.vmemLoop {u w wr addr one js c} (hone : ∀ j a c t, t.memWf → (one j a c t).2.memWf) :
    (Machine.vmemLoop u w wr addr one js c t).memWf := by
  induction js generalizing c t with
  | nil => exact ht
  | cons j js ih =>
    unfold Machine.vmemLoop
    dsimp only
    split
    · exact ht
    · split
      · trivial
      · split
        · exact ht
        · exact ih (hone _ _ _ _ ht)

theorem Tile.memWf.loadElem {cached vlen w d i a c} : (Machine.loadElem cached vlen w d i a c t).2.memWf := by
  unfold Machine.loadElem
  split
  · exact ht.cacheRead
  · exact ht

theorem Tile.memWf.storeElem {cached vlen w d i a c} : (Machine.storeElem cached vlen w d i a c t).2.memWf := by
  unfold Machine.storeElem
  dsimp only
  split
  · exact ht.cacheWrite
  · exact ht.store

theorem Tile.memWf.lineOp {u c a k} (hk : ∀ x, (k x).memWf) : (Machine.lineOp u c t a k).memWf := by
  unfold Machine.lineOp
  split
  · exact ht
  · split
    · trivial
    · exact hk _

theorem Tile.memWf.bytesLoop {wr cp a n c r} (hr : r.memWf) : (Machine.bytesLoop wr cp a n c t r).memWf := by
  unfold Machine.bytesLoop
  split
  · exact ht
  · split
    · trivial
    · split
      · exact ht
      · exact hr

end

theorem CpRes.memWf.advGo {r : CpRes} (hr : r.memWf) : (Machine.advGo r).memWf := by
  unfold Machine.advGo
  split <;> exact hr

theorem CpRes.memWf.either {p q : CpRes} {c : Prop} [Decidable c] (hp : p.memWf) (hq : q.memWf) : (if c then p else q).memWf := by
  split
  · exact hp
  · exact hq

/-! ### The flash under TRUST's operations -/

/-- The flash is in its form. -/
def Trust.memWf (t : Trust) : Prop := Memory.wf t.flash = true

theorem Trust.memWf.either {t u : Trust} {c : Prop} [Decidable c] (h : t.memWf) (k : u.memWf) : (if c then t else u).memWf := by
  split
  · exact h
  · exact k

section
variable {t : Trust} (w : t.memWf)
include w

theorem Trust.memWf.rewrite {active trial tried} : (t.rewrite active trial tried).memWf := memWrite_wf w

theorem Trust.memWf.measureRom {b} : (t.measureRom b).memWf := w

theorem Trust.memWf.loadStages {b l} : (t.loadStages b l).memWf := by
  induction l generalizing t with
  | nil => exact w
  | cons i r ih => exact .either (ih (.either w w)) w

theorem Trust.memWf.tryBoot {b fb trial n} : (t.tryBoot b fb trial n).memWf := by
  induction n generalizing t b fb trial with
  | zero => exact w
  | succ n ih =>
    have wrote : (if fb then t.rewrite b false false else t).memWf := .either w.rewrite w
    exact .either (Trust.memWf.measureRom (by exact wrote)).loadStages (ih (by exact w))

theorem Trust.memWf.bootChain : t.bootChain.memWf := by
  unfold Trust.bootChain
  exact .either w.tryBoot (.tryBoot (.either w.rewrite w))

theorem Trust.memWf.activate : t.activate.memWf := .either w w.rewrite

theorem Trust.memWf.commit : t.commit.memWf := .either w.rewrite w

theorem Trust.memWf.startCmd : t.startCmd.memWf := .either w w

end

section
variable {s₀ s : State} (h : Keeps s₀ s)
include h

/-! ### Machine/Ops.lean -/

theorem Keeps.setPart {p x} : Keeps s₀ (s.setPart p x) := h.upd
theorem Keeps.updPart {p f} : Keeps s₀ (s.updPart p f) := h.setPart
theorem Keeps.setQueue {q x} : Keeps s₀ (s.setQueue q x) := h.upd
theorem Keeps.updQueue {q f} : Keeps s₀ (s.updQueue q f) := h.setQueue
theorem Keeps.updFunc {n f} : Keeps s₀ (s.updFunc n f) := h.upd
theorem Keeps.updStw {w f} : Keeps s₀ (s.updStw w f) := h.upd
theorem Keeps.putArr {a x} : Keeps s₀ (s.putArr a x) := h.upd
theorem Keeps.setVol {v x} : Keeps s₀ (s.setVol v x) := h.upd
theorem Keeps.updVol {v f} : Keeps s₀ (s.updVol v f) := h.setVol
theorem Keeps.setMember {n x} : Keeps s₀ (s.setMember n x) := h.upd
theorem Keeps.updMember {n f} : Keeps s₀ (s.updMember n f) := h.setMember
theorem Keeps.emit {o} : Keeps s₀ (s.emit o) := h.upd
theorem Keeps.plkSend {dest o} : Keeps s₀ (s.plkSend dest o) := h.upd

theorem Keeps.timeout {c awaited what t} (ht : Keeps s₀ t) : KeepsOut s₀ (Machine.timeout c awaited what s t) :=
  .when_ fun _ => .either h ht

theorem Keeps.awaitAck {id} : Keeps s₀ (s.awaitAck id) := h.upd
theorem Keeps.msix {fn vec} : Keeps s₀ (s.msix fn vec) := .either h.updFunc <| .either h.updFunc h.emit
theorem Keeps.updRoute {src f} : Keeps s₀ (s.updRoute src f) := h.upd
theorem Keeps.startWake {dest} : Keeps s₀ (s.startWake dest) := h.upd

theorem Keeps.raise {src} : Keeps s₀ (s.raise src) :=
  .either h <| .either (.either h.upd.startWake h.upd) <| .either (.either h h.upd) h.updRoute

theorem Keeps.setArr {a x} : Keeps s₀ (s.setArr a x) := .either h.putArr.raise h.putArr
theorem Keeps.updArr {a f} : Keeps s₀ (s.updArr a f) := h.setArr
theorem Keeps.raisePriv {w i} : Keeps s₀ (s.raisePriv w i) := .either h.upd h.upd

theorem Keeps.record {cls ctx blk chk unit action ofs wr status} : Keeps s₀ (s.record cls ctx blk chk unit action ofs wr status) :=
  .either h.upd <| .either h.upd.raise h.upd

theorem Keeps.resetRequired : Keeps s₀ s.resetRequired := h.upd

theorem Keeps.busErr {r sp ofs wr size} : Keeps s₀ (s.busErr r sp ofs wr size) := by
  unfold State.busErr
  split
  · exact h.upd
  · exact h.upd.updPart
  · exact h

theorem Keeps.reserved {r sp ofs wr size} : Keeps s₀ (s.reserved r sp ofs wr size) := by
  unfold State.reserved
  split
  · exact h.updStw
  · exact .either h h.emit
  · exact .either h.busErr.updFunc h.busErr.emit

theorem Keeps.setLock {l} : Keeps s₀ (s.setLock l) := h.upd
theorem Keeps.badKey {r} : Keeps s₀ (s.badKey r) := h.upd.raise
theorem Keeps.refuseG {r ofs} : Keeps s₀ (s.refuseG r ofs) := h.upd.raise.busErr

theorem Keeps.gWrite {r ofs perform} (hperform : ∀ x, Keeps s₀ x → Keeps s₀ (perform x)) : Keeps s₀ (s.gWrite r ofs perform) :=
  .either (hperform _ h.setLock) h.refuseG

theorem Keeps.updCcr {b f} : Keeps s₀ (s.updCcr b f) := h.upd
theorem Keeps.queueCheck {b o} : Keeps s₀ (s.queueCheck b o) := h.updCcr
theorem Keeps.holdWrite {b r ofs v sp} : Keeps s₀ (s.holdWrite b r ofs v sp) := h.updCcr

theorem Keeps.inOrder {r sp ws t} (ht : Keeps s₀ t) : Keeps s₀ (s.inOrder r sp ws t) := by
  unfold State.inOrder
  split
  · exact h.fold fun _ _ h => h.holdWrite
  · exact ht

theorem Keeps.busRow {r ofs v t} (ht : Keeps s₀ t) : KeepsOut s₀ (Machine.busRow s r ofs v t) := by
  unfold Machine.busRow
  split
  · exact .refused
  · exact .either .refused <| .next (h.inOrder (.either ht h.reserved))

theorem Keeps.checkDone {b reason obj} : Keeps s₀ (s.checkDone b reason obj) := h.updCcr
theorem Keeps.svcEnd {result reason} : Keeps s₀ (s.svcEnd result reason) := h.upd
theorem Keeps.testFaulted {kind ix} : Keeps s₀ (s.testFaulted kind ix) := .either h.svcEnd h
theorem Keeps.pvEvent {p i} : Keeps s₀ (s.pvEvent p i) := .either h <| .either h.setPart.msix h.setPart
theorem Keeps.stale {ctx} : Keeps s₀ (s.stale ctx) := .either h.updPart.pvEvent h
theorem Keeps.setCmds {l} : Keeps s₀ (s.setCmds l) := h.upd
theorem Keeps.updCmd {id f} : Keeps s₀ (s.updCmd id f) := h.setCmds
theorem Keeps.cqInterrupt {cq} : Keeps s₀ (s.cqInterrupt cq) := h.setQueue.msix
theorem Keeps.cqPme {cq} : Keeps s₀ (s.cqPme cq) := .either h.setQueue.updQueue.updFunc.emit h.setQueue
theorem Keeps.cqThreshold {cq} : Keeps s₀ (s.cqThreshold cq) := .either h.cqInterrupt h.cqPme
theorem Keeps.cqCount {cq noirq irqnow} : Keeps s₀ (s.cqCount cq noirq irqnow) := .either h <| .either h.setQueue.cqThreshold h.setQueue

theorem Keeps.moveReservation {cq} : Keeps s₀ (s.moveReservation cq) := by
  unfold State.moveReservation
  dsimp only
  split
  · exact h.updCmd.updQueue
  · exact h.updQueue.updQueue

theorem Keeps.cqWrite {cq e} : Keeps s₀ (s.cqWrite cq e) :=
  .either (.setQueue (.hostWrite (.either h.moveReservation h))) <| .cqCount (.setQueue (.hostWrite (.either h.moveReservation h)))

theorem Keeps.cqDrain {cq n} : Keeps s₀ (s.cqDrain cq n) := by
  induction n generalizing s with
  | zero => exact h
  | succ n ih =>
    unfold State.cqDrain
    dsimp only
    split
    · exact h.setQueue
    · exact .either h (ih h.setQueue.cqWrite)

theorem Keeps.cqPost {cq e} : Keeps s₀ (s.cqPost cq e) := .either h.cqWrite <| .either h.setQueue h.setQueue.cqCount

theorem Keeps.ringComplete {c q status r0 r1} : Keeps s₀ (s.ringComplete c q status r0 r1) :=
  .either h.setCmds.updQueue.stale h.setCmds.cqPost

theorem Keeps.updConn {c f} : Keeps s₀ (s.updConn c f) := h.upd
theorem Keeps.netBytes {c n} : Keeps s₀ (s.netBytes c n) := .either h.updPart h
theorem Keeps.capsule {conn cid result m} : Keeps s₀ (s.capsule conn cid result m) := .either h h.netBytes.emit

theorem Keeps.settleExports : Keeps s₀ s.settleExports := by
  refine h.fold fun _ _ h => ?_
  split
  · exact h
  · refine .either h ?_
    dsimp only
    split
    · split
      · exact h.updVol.ringComplete
      · exact h.updVol
    · exact h.updVol

theorem Keeps.complete {id status r0 r1} : Keeps s₀ (s.complete id status r0 r1) := by
  unfold State.complete
  split
  · exact h
  · split
    · exact .settleExports (.either h.setCmds.capsule h.setCmds.stale)
    · exact h.ringComplete

theorem Keeps.done {id status} : Keeps s₀ (s.done id status) := h.complete

theorem Keeps.withCmd {id op what k} (hk : ∀ x, Keeps s₀ (k x)) : KeepsOut s₀ (Machine.withCmd s id op what k) := by
  unfold Machine.withCmd
  split
  · exact .refused
  · exact .either (.either (.next (hk _)) <| .next h.done) .refused

theorem Keeps.phase {id p} : Keeps s₀ (s.phase id p) := h.updCmd

/-! ### Machine/Evc.lean -/

theorem Keeps.ackSource {n} : Keeps s₀ (s.ackSource n) := .either h.updRoute h.upd
theorem Keeps.execLevelSourceAssert {src} : KeepsOut s₀ (Machine.execLevelSourceAssert src s) := .when_ fun _ => .either h h.raise
theorem Keeps.updPin {i f} : Keeps s₀ (s.updPin i f) := h.upd
theorem Keeps.pinSclk : Keeps s₀ s.pinSclk := h.upd

theorem Keeps.execPinFilterExpiry {pin} : KeepsOut s₀ (Machine.execPinFilterExpiry pin s) :=
  .either (.next (.either (.either h.updPin.raise h.updPin) <| .either h.updPin.raise h.updPin)) .refused

theorem Keeps.localWrite {a bs} : Keeps s₀ { s with stwLocal := memWrite s.stwLocal a bs } := by
  refine h.trans ⟨rfl, rfl, fun w => ?_⟩
  obtain ⟨hhost, hhbm, hstw, hflash, hpages, htiles, hlocal⟩ := w
  exact ⟨hhost, hhbm, hstw, hflash, hpages, htiles, memWrite_wf hlocal⟩

theorem Keeps.stackFrame {w f} : Keeps s₀ (s.stackFrame w f) := h.localWrite.updStw
theorem Keeps.takeSource {n} : Keeps s₀ (s.takeSource n) := .either h.updRoute h.upd
theorem Keeps.yieldSource {n} : Keeps s₀ (s.yieldSource n) := .either h.updRoute h.upd
theorem Keeps.takeOver {w q c} : Keeps s₀ (s.takeOver w q c) := .updStw (.takeSource (.either h h.yieldSource))
theorem Keeps.seqEnd {w q} : Keeps s₀ (s.seqEnd w q) := h.updStw

theorem Keeps.stwSclk {w} : Keeps s₀ (s.stwSclk w) := by
  unfold State.stwSclk
  split
  · exact h
  · exact .either h.seqEnd <| by
      split
      · exact h.takeOver
      · exact h.updStw

theorem Keeps.execHandlerEntry {w} : KeepsOut s₀ (Machine.execHandlerEntry w s) := by
  unfold Machine.execHandlerEntry
  dsimp only
  split
  · split
    · exact .either .refused <| .either (.next h.takeOver) .refused
    · exact .refused
  · split
    · exact .refused
    · exact .either (.next h.takeSource.stackFrame.updStw) .refused

theorem Keeps.execEret {w} : KeepsOut s₀ (Machine.execEret w s) := by
  unfold Machine.execEret
  dsimp only
  split
  · exact .refused
  · exact .when_ fun _ => h.ackSource.updStw

theorem Keeps.execPf0EventMessage : KeepsOut s₀ (Machine.execPf0EventMessage s) := by
  unfold Machine.execPf0EventMessage
  split
  · exact .refused
  · exact .next h.updRoute.msix

theorem Keeps.writeHack {r v} : Keeps s₀ (s.writeHack r v) := .either h <| .either h.ackSource h.upd
theorem Keeps.writeSwset {v} : Keeps s₀ (s.writeSwset v) := .either (.either h.raisePriv h) <| .either h.raise h

theorem Keeps.writeRoute {r src v} : Keeps s₀ (s.writeRoute r src v) :=
  .either h.holdWrite <| .either h.updRoute <| .either h.updRoute.queueCheck h.updRoute

theorem Keeps.execEvcRouteEnable {r src v} : KeepsOut s₀ (Machine.execEvcRouteEnable r src v s) :=
  .either .refused <| h.busRow h.writeRoute

theorem Keeps.evcRestore : Keeps s₀ s.evcRestore := .fold (.upd (h.fold fun _ _ h => h.updRoute)) fun _ _ h => .either h.updRoute h

/-! ### Machine/Hif.lean -/

theorem Keeps.queueCheckEnd {q sq cq} : Keeps s₀ (s.queueCheckEnd q sq cq) := .checkDone (.either h.updQueue h)

theorem Keeps.writeQctl {q v} : Keeps s₀ (s.writeQctl q v) :=
  .either (.queueCheck (.either h.setQueue.updQueue h.setQueue)) <| .either h.setQueue.updQueue h.setQueue

theorem Keeps.writeQ {r q o v} : Keeps s₀ (s.writeQ r q o v) :=
  .either h <| .either h.holdWrite <| .either h.writeQctl <| .either h.setQueue <| .either h.setQueue <| .either h <|
    .either h.setQueue <| .either h.setQueue <| .either h.setQueue <| .either h.setQueue <| .either h.setQueue <| .either h.setQueue h

theorem Keeps.writeQrow {r q v} : KeepsOut s₀ (Machine.writeQrow r q v s) := .either .refused <| h.busRow h.writeQ

theorem Keeps.inWindow {r win ofs wr f} (hf : ∀ x, Keeps s₀ (f x)) : Keeps s₀ (s.inWindow r win ofs wr f) := by
  unfold State.inWindow
  split
  · exact hf _
  · exact h.reserved

theorem Keeps.dbError {q} : Keeps s₀ (s.dbError q) := .either h h.updQueue.raise
theorem Keeps.doorbell {q n} : Keeps s₀ (s.doorbell q n) := .either (.either h.setQueue.startWake h.setQueue) h.dbError
theorem Keeps.pushBytes {q b ws} : Keeps s₀ (s.pushBytes q b ws) := .either h h.setQueue

theorem Keeps.execPushWrite {r win off ws} : KeepsOut s₀ (Machine.execPushWrite r win off ws s) :=
  .when_ fun _ => h.inOrder (.either (h.inWindow fun _ => h.pushBytes) h.reserved)

theorem Keeps.consume {q n} : Keeps s₀ (s.consume q n) :=
  .either (.either (.setQueue (.either h.setQueue h.setQueue.cqDrain)) <| .either h.setQueue h.setQueue.cqDrain) h.dbError

theorem Keeps.consumeSlots {q n} : Keeps s₀ (s.consumeSlots q n) := h.updQueue
theorem Keeps.fetchError {q} : Keeps s₀ (s.fetchError q) := h.updQueue.raise
theorem Keeps.takeTurn {q} : Keeps s₀ (s.takeTurn q) := h.upd
theorem Keeps.deliver {q bytes pl} : Keeps s₀ (s.deliver q bytes pl) := h.upd
theorem Keeps.powerOnFetch {op} : Keeps s₀ (s.powerOnFetch op) := .either h.startWake <| .either h.upd h

theorem Keeps.fetchEntry {q pl} : Keeps s₀ (s.fetchEntry q pl) :=
  .either h.fetchError <| .either h.consumeSlots <| .either h.fetchError <|
    .either h.consumeSlots.updQueue.deliver.powerOnFetch h.consumeSlots.updQueue.deliver.done

theorem Keeps.execEntryFetch {q} : KeepsOut s₀ (Machine.execEntryFetch q s) := by
  refine .either .refused ?_
  split
  · exact .next (h.fold fun _ _ h => h.updQueue)
  · exact .next h.takeTurn.updQueue.fetchEntry

theorem Keeps.execVectorUnmask {fn vec} : KeepsOut s₀ (Machine.execVectorUnmask fn vec s) :=
  .either .refused <| .next (.either h.updFunc.msix h.updFunc)

/-! ### Machine/Runs.lean -/

theorem Keeps.setPhys {l p} : Keeps s₀ (s.setPhys l p) := h.upd
theorem Keeps.setSpare {p b} : Keeps s₀ (s.setSpare p b) := h.upd
theorem Keeps.updRun {rid f} : Keeps s₀ (s.updRun rid f) := h.upd
theorem Keeps.meter {ctx i n} : Keeps s₀ (s.meter ctx i n) := .either h.updPart h

theorem Keeps.countTile {t till} : Keeps s₀ (s.countTile t till) := by
  unfold State.countTile
  dsimp only
  split
  · exact h
  · exact h.meter.setTile h.tile

theorem Keeps.addPass {q t held} : Keeps s₀ (s.addPass q t held) := .either h.upd h
theorem Keeps.setCp {t c x} : Keeps s₀ (s.setCp t c x) := h.upd

theorem Keeps.stopKernel {t} : Keeps s₀ (s.stopKernel t) :=
  .updTile (h.fold fun _ _ h => h.setCp.setTile fun w => (h.tile w).flushCache) (by simp)

theorem Keeps.queueJob {cls morsel slot} : Keeps s₀ (s.queueJob cls morsel slot) := h.upd

theorem Keeps.heldPass {t f} : Keeps s₀ (s.heldPass t f) := by
  unfold State.heldPass
  split
  · exact h.addPass
  · exact h

theorem Keeps.endFlight {t k f} : Keeps s₀ (s.endFlight t k f) := by
  refine .upd ?_
  refine .either ?_ ?_
  · exact .stopKernel (by
      split
      · exact h.countTile.heldPass.heldPass
      · exact h.countTile.heldPass)
  · split
    · exact h.countTile.heldPass.heldPass
    · exact h.countTile.heldPass

theorem Keeps.eraseFlight {t k} : Keeps s₀ (s.eraseFlight t k) :=
  h.updTile (by simp)

theorem Keeps.dropFlight {t k} : Keeps s₀ (s.dropFlight t k) := by
  unfold State.dropFlight
  split
  · exact h
  · exact .either h.eraseFlight h.endFlight.eraseFlight

theorem Keeps.onPair {t partner f} (k : ∀ x, (f x).scratch = x.scratch ∧ (f x).foreign = x.foreign) :
    Keeps s₀ (s.onPair t partner f) := by
  unfold State.onPair
  split
  · exact (h.updTile k).updTile k
  · exact h.updTile k

theorem Keeps.countAbn {t partner} : Keeps s₀ (s.countAbn t partner) :=
  h.onPair (by simp)

theorem Keeps.dropFlights {t c back} (hback : ∀ x y, Keeps s₀ y → Keeps s₀ (back x y)) : Keeps s₀ (s.dropFlights t c back) :=
  h.fold fun _ _ h => by
    split
    · exact .either (hback _ _ h.dropFlight.countAbn) h
    · exact h

theorem Keeps.abortPeers {r} : Keeps s₀ (s.abortPeers r) := h.fold fun _ _ h => h.fold fun _ _ h => .either h.plkSend h
theorem Keeps.removeRun {rid} : Keeps s₀ (s.removeRun rid) := .upd (h.fold fun _ _ h => h.dropFlights fun _ _ h => h)

theorem Keeps.failRun {rid status r0} : Keeps s₀ (s.failRun rid status r0) := by
  unfold State.failRun
  split
  · exact h
  · exact h.abortPeers.removeRun.complete

theorem Keeps.abandonLedger {f} : Keeps s₀ (s.abandonLedger f) := by
  unfold State.abandonLedger
  split
  · exact h
  · exact .either h <| .either h.updRun h.updRun.failRun

theorem Keeps.abandonFree {f} : Keeps s₀ (s.abandonFree f) := h.updRun

theorem Keeps.abandonFlight {t k f} : Keeps s₀ (s.abandonFlight t k f) :=
  .abandonLedger (.either (h.endFlight.countAbn.updTile (by simp)) h.endFlight.countAbn.eraseFlight)

theorem Keeps.abandonTile {t} : Keeps s₀ (s.abandonTile t) :=
  h.fold fun _ _ h => h.fold fun _ _ h => by
    split
    · exact .either h.abandonFlight h
    · exact h

/-! ### Machine/Peers.lean -/

theorem Keeps.updLink {k f} : Keeps s₀ (s.updLink k f) := h.upd
theorem Keeps.hear {e} : Keeps s₀ (s.hear e) := .either h <| by
  split
  · exact h.upd
  · exact h

theorem Keeps.sendFlit {k i} : Keeps s₀ (s.sendFlit k i) := by
  unfold State.sendFlit
  split
  · exact h
  · exact .either h.upd.emit h.upd

theorem Keeps.linkFlit {k} : Keeps s₀ (s.linkFlit k) := by
  refine .either h ?_
  dsimp only
  split
  · exact h.upd
  · split
    · exact h.upd.upd.sendFlit
    · exact h.upd.upd

theorem Keeps.plkAcks : Keeps s₀ s.plkAcks := h.upd
theorem Keeps.resend {old} : Keeps s₀ (s.resend old) := h.upd
theorem Keeps.linkTick : Keeps s₀ s.linkTick := .plkAcks (h.fold fun _ _ h => h.linkFlit)
theorem Keeps.updBinding {b f} : Keeps s₀ (s.updBinding b f) := h.upd
theorem Keeps.failBinding {b} : Keeps s₀ (s.failBinding b) := h.fold fun _ _ h => h.failRun
theorem Keeps.sendGens {p} : Keeps s₀ (s.sendGens p) := h.fold fun _ _ h => .either (h.fold fun _ _ h => .either h.plkSend h) h
theorem Keeps.genIncrement {p} : Keeps s₀ (s.genIncrement p) := h.updPart.sendGens
theorem Keeps.freshKey {p} : Keeps s₀ (s.freshKey p) := h.upd
theorem Keeps.losePeer {e} : Keeps s₀ (s.losePeer e) := h.upd.upd.fold fun _ _ h => .either h.updBinding.failBinding h

/-! ### Machine/Partitions.lean -/

theorem Keeps.partEnableEnd {p} : Keeps s₀ (s.partEnableEnd p) := .either (.updCcr (.genIncrement (.either h h.freshKey))) h.checkDone
theorem Keeps.partEnabled {p} : Keeps s₀ (s.partEnabled p) := h.updPart.upd.checkDone
theorem Keeps.applyPart {p y} : Keeps s₀ (s.applyPart p y) := .either h.setPart.pvEvent h.setPart
theorem Keeps.partFieldEnd {p o v} : Keeps s₀ (s.partFieldEnd p o v) := .checkDone (.either h.applyPart h)
theorem Keeps.writeOffField {p o v} : Keeps s₀ (s.writeOffField p o v) := .either h.setPart <| .either (.either h h.setPart) h.applyPart
theorem Keeps.updBank {b f} : Keeps s₀ (s.updBank b f) := h.upd
theorem Keeps.clearBank {b} : Keeps s₀ (s.clearBank b) := h.upd.updBank
theorem Keeps.dropTables {p} : Keeps s₀ (s.dropTables p) := h.upd.fold fun _ _ h => h.updBank.clearBank
theorem Keeps.dropConns {p} : Keeps s₀ (s.dropConns p) := .upd (h.fold fun _ _ h => h.emit)
theorem Keeps.forget {id} : Keeps s₀ (s.forget id) := h.upd
theorem Keeps.dropCommands {p} : Keeps s₀ (s.dropCommands p) := h.fold fun _ _ h => h.forget.done

theorem Keeps.frozen {p} : Keeps s₀ (s.frozen p) := by
  unfold State.frozen
  dsimp only
  split
  · exact h.setPart.complete
  · exact h.setPart

theorem Keeps.endFreeze {p} : Keeps s₀ (s.endFreeze p) := .either h.frozen <| by
  split
  · exact h
  · exact h.free.updPart.done

theorem Keeps.startReset {p off w} : Keeps s₀ (s.startReset p off w) := by
  refine .either ?_ ?_
  · exact .unmapAll (.dropCommands (.dropConns (.dropTables (.upd (h.endFreeze.updPart.upd.genIncrement.fold fun _ _ h => h.failRun)))))
  · refine .freshKey (.unmapAll (.dropCommands (.dropConns (.dropTables (.upd ?_)))))
    exact h.endFreeze.updPart.upd.genIncrement.fold fun _ _ h => h.failRun

theorem Keeps.execPartitionResetComplete {p} : KeepsOut s₀ (Machine.execPartitionResetComplete p s) := by
  exact .either (.next (by
    split
    · exact .done (.either h.setPart h.setPart.pvEvent)
    · exact .either h.setPart h.setPart.pvEvent)) .refused

theorem Keeps.writePart {r p o v} : Keeps s₀ (s.writePart r p o v) :=
  .either h <| .either h.holdWrite <| .either (.either h <| .either h.queueCheck h.applyPart) <|
    .either (.either h.writeOffField.queueCheck h.writeOffField) <| .either h.startReset <| .either h.queueCheck h.applyPart

theorem Keeps.execPartitionEnable {r p v} : KeepsOut s₀ (Machine.execPartitionEnable r p v s) :=
  .either .refused <| h.busRow h.writePart

theorem Keeps.execPartitionDisable {r p v} : KeepsOut s₀ (Machine.execPartitionDisable r p v s) :=
  .either .refused <| h.busRow h.writePart

theorem Keeps.execHbmAlloc {id} : KeepsOut s₀ (Machine.execHbmAlloc id s) := by
  refine h.withCmd fun _ => ?_
  refine .either h.done <| .either h.done <| .either h.done <| .either h.done ?_
  split
  · exact h.done
  · exact .complete (h.fold fun _ _ h => h.mapPage)

theorem Keeps.execHbmFree {id} : KeepsOut s₀ (Machine.execHbmFree id s) :=
  h.withCmd fun _ => .either h.done <| .either h.done <| .either h.done <| .either h.done <| .done (h.fold fun _ _ h => h.unmapPage)

theorem Keeps.execMemCopy {id} : KeepsOut s₀ (Machine.execMemCopy id s) :=
  .either .refused <| h.withCmd fun _ => .either h.done <| .either h.done <| .either h.done <| .either h.done <|
    .complete (.upd (.either h.hostWrite h.hbmWrite))

theorem Keeps.execFixedSlotStart {p} : KeepsOut s₀ (Machine.execFixedSlotStart p s) :=
  .either (.next (h.setPart.fold fun _ _ h => h.dropFlights fun _ _ h => h.abandonFree)) .refused

theorem Keeps.partCmd {id op what zeros admits fields k} (hk : ∀ x y, Keeps s₀ (k x y)) :
    KeepsOut s₀ (Machine.partCmd s id op what zeros admits fields k) :=
  h.withCmd fun _ => .either h.done <| .either h.done <| .either (hk _ _) h.done

theorem Keeps.pauseRuns {p} : Keeps s₀ (s.pauseRuns p) := h.upd

theorem Keeps.execPvEvenWrite {n v} : KeepsOut s₀ (Machine.execPvEvenWrite n v s) :=
  .either .refused <| .next (.either h.setPart.msix h.setPart)

/-! ### Machine/Plk.lean -/

theorem Keeps.startSync : Keeps s₀ s.startSync :=
  .either (.upd (h.upd.fold fun _ _ h => h.plkSend.awaitAck.upd)) <| h.upd.fold fun _ _ h => h.plkSend.awaitAck.upd

theorem Keeps.writeDone {id} : Keeps s₀ (s.writeDone id) := by
  unfold State.writeDone
  split
  · exact h.complete
  · exact h

theorem Keeps.mirrorBreak : Keeps s₀ s.mirrorBreak := .either (.either h.upd <| h.upd.upd.fold fun _ _ h => h.writeDone) h
theorem Keeps.mirrorTry : Keeps s₀ s.mirrorTry := .either h.startSync h
theorem Keeps.mirrorEnd : Keeps s₀ s.mirrorEnd := .checkDone (.either h.upd.plkSend.mirrorTry h)
theorem Keeps.discardCopy : Keeps s₀ s.discardCopy := h.upd
theorem Keeps.releaseCopy : Keeps s₀ s.releaseCopy := .either h.discardCopy h
theorem Keeps.mirrorOff : Keeps s₀ s.mirrorOff := .plkSend (h.upd.discardCopy.fold fun _ _ h => h.writeDone)

theorem Keeps.writeMirror {r v} : Keeps s₀ (s.writeMirror r v) :=
  .either h.holdWrite <| .either h <| .either (.mirrorOff (.either h.upd.releaseCopy h.upd)) <|
    .either (.queueCheck (.either h.upd.releaseCopy h.upd)) <| .either h.upd.releaseCopy h.upd

theorem Keeps.noteRecs {arrayId rs} : Keeps s₀ (s.noteRecs arrayId rs) := h.upd

theorem Keeps.execMirrorAck {id} : KeepsOut s₀ (Machine.execMirrorAck id s) :=
  .either (.next (.either h.upd.writeDone.upd h.upd.writeDone)) .refused

theorem Keeps.sendCopy {arrayId} : Keeps s₀ (s.sendCopy arrayId) := .either h h.plkSend

theorem Keeps.execPartnerCopyRequest {m} : KeepsOut s₀ (Machine.execPartnerCopyRequest m s) := by
  unfold Machine.execPartnerCopyRequest
  split
  · exact .next h.sendCopy
  · exact .when_ fun _ => h.upd

theorem Keeps.setPartnerCopy {arrayId c} : Keeps s₀ (s.setPartnerCopy arrayId c) := by
  unfold State.setPartnerCopy
  dsimp only
  split <;> exact h.upd

theorem Keeps.execPartnerMirrorMessage {ev} : KeepsOut s₀ (Machine.execPartnerMirrorMessage ev s) := by
  unfold Machine.execPartnerMirrorMessage
  dsimp only
  split
  · exact .next h.upd.mirrorTry
  · exact .next h.upd.mirrorBreak.discardCopy
  · exact .next h.upd.mirrorBreak
  · exact .when_ fun _ => h.setPartnerCopy.plkSend
  · exact .when_ fun _ => h.upd.noteRecs
  · exact .next (.either h.setPartnerCopy.upd h.setPartnerCopy)

theorem Keeps.setLink {k x} : Keeps s₀ (s.setLink k x) :=
  .either (.mirrorBreak (.fold (.resend (.either h.updLink h.updLink.raise)) fun _ _ h => h.losePeer)) <|
    .mirrorTry (.fold (.resend (.either h.updLink h.updLink.raise)) fun _ _ h => h.losePeer)

theorem Keeps.execLinkTrainingComplete {k lanes peer} : KeepsOut s₀ (Machine.execLinkTrainingComplete k lanes peer s) :=
  .either .refused <| .either (.next h.setLink) <| .next h.setLink

theorem Keeps.writeLink {k v} : Keeps s₀ (s.writeLink k v) :=
  .either h <| .either (.setLink (.either h.setLink <| .either (.either h.free.setLink h.free.updLink) h.updLink)) <|
    .either h.setLink <| .either (.either h.free.setLink h.free.updLink) h.updLink

theorem Keeps.execPlkRetrain {r k} : KeepsOut s₀ (Machine.execPlkRetrain r k s) := .either .refused <| h.busRow h.writeLink
theorem Keeps.execPlkOfflWrite {r p v} : KeepsOut s₀ (Machine.execPlkOfflWrite r p v s) := .either .refused <| h.busRow h.writeLink
theorem Keeps.bindingEnd {b} : Keeps s₀ (s.bindingEnd b) := .checkDone (.either (h.updBinding.fold fun _ _ h => .either h h.plkSend) h)

theorem Keeps.writeBinding {r b o v} : Keeps s₀ (s.writeBinding r b o v) :=
  .either h.holdWrite <| .either (.either h.updBinding h) <| .either (.either h.updBinding.queueCheck h.updBinding) <|
    .either h.updBinding h

theorem Keeps.execPeerBindingEnable {r b v} : KeepsOut s₀ (Machine.execPeerBindingEnable r b v s) :=
  .either .refused <| h.busRow h.writeBinding

theorem Keeps.execBindingMessage {dev b devmask ctxs gen} : KeepsOut s₀ (Machine.execBindingMessage dev b devmask ctxs gen s) :=
  .either .refused <| .next (.either h.hear.updBinding.failBinding h.hear.updBinding)

theorem Keeps.execGenerationUpdateMessage {dev b gen} : KeepsOut s₀ (Machine.execGenerationUpdateMessage dev b gen s) :=
  .either .refused <| .next (.either h.hear.updBinding.plkSend.failBinding h.hear.updBinding.plkSend)

theorem Keeps.execGenerationUpdateAck {dev p gen} : KeepsOut s₀ (Machine.execGenerationUpdateAck dev p gen s) := by
  unfold Machine.execGenerationUpdateAck
  dsimp only
  split
  · exact .when_ fun _ => h.hear.setPart
  · exact .refused

/-! ### Machine/Vigil.lean -/

theorem Keeps.returnBorrowed {l} : Keeps s₀ (s.returnBorrowed l) := by
  unfold State.returnBorrowed
  split
  · exact h
  · exact h.upd.setSpare

theorem Keeps.swapLost {l} : Keeps s₀ (s.swapLost l) := by
  unfold State.swapLost
  split
  · exact .either (.either h.upd.svcEnd h.upd) h
  · exact h

theorem Keeps.chooseSpare : Keeps s₀ s.chooseSpare.2 := by
  unfold State.chooseSpare
  dsimp only
  split
  · exact h
  · split
    · exact h.returnBorrowed.upd
    · exact h

theorem Keeps.swapTargetLost {t} : Keeps s₀ (s.swapTargetLost t) := by
  unfold State.swapTargetLost
  split
  · exact .either (by
      dsimp only
      split
      · exact h.chooseSpare.upd
      · exact .either h.chooseSpare.upd <| h.chooseSpare.upd.updTile (by simp)) h
  · exact h

theorem Keeps.tileOutOf {t cls chk} : Keeps s₀ (s.tileOutOf t cls chk) := by
  unfold State.tileOutOf
  dsimp only
  split
  · refine .testFaulted (.swapTargetLost ?_)
    split
    · exact h.record.abandonTile.setSpare.upd
    · split
      · exact h.record.abandonTile.setSpare.upd.chooseSpare.upd
      · exact h.record.abandonTile.setSpare.upd.chooseSpare.upd.setPhys
  · refine .either h.swapLost.record ?_
    split
    · exact (h.swapLost.chooseSpare.record.updTile (by simp)).abandonTile.returnBorrowed.upd
    · exact (h.swapLost.chooseSpare.record.updTile (by simp)).abandonTile.returnBorrowed.setPhys

theorem Keeps.tileFaultAt {t chk} : Keeps s₀ (s.tileFaultAt t chk) := h.tileOutOf

theorem Keeps.clearTile {t} : Keeps s₀ (s.clearTile t) :=
  .fold (h.setTile fun _ => ⟨rfl, fun _ h => by cases h⟩) fun _ _ h => h.setCp

theorem Keeps.execSparePlaced {l} : KeepsOut s₀ (Machine.execSparePlaced l s) := by
  unfold Machine.execSparePlaced
  split
  · exact .either (.next h.clearTile.setPhys.setSpare.upd) .refused
  · exact .refused

theorem Keeps.moveSteward {n} : Keeps s₀ (s.moveSteward n) := h.upd.upd.updStw

theorem Keeps.execHeartbeatMiss {stw n} : KeepsOut s₀ (Machine.execHeartbeatMiss stw n s) :=
  .either (.when_ fun _ => h.tileFaultAt) <| .either .refused <| .either (.next h.record.resetRequired) <| .next h.record.moveSteward

theorem Keeps.startSwap {l p out} : Keeps s₀ (s.startSwap l p out) :=
  .either h.setPhys.setSpare <| (h.updTile (by simp)).upd

theorem Keeps.writeTileMap {r i v} : Keeps s₀ (s.writeTileMap r i v) := by
  unfold State.writeTileMap
  split
  · exact h
  · exact .either h.startSwap h.refuseG
  · exact h.refuseG

theorem Keeps.execGlbTileMapWrite {r i v} : KeepsOut s₀ (Machine.execGlbTileMapWrite r i v s) :=
  .either .refused <| h.busRow (h.gWrite fun _ h => h.writeTileMap)

theorem Keeps.execSwapComplete : KeepsOut s₀ (Machine.execSwapComplete s) := by
  unfold Machine.execSwapComplete
  split
  · exact .refused
  · exact .either (.next (.upd (.setSpare (.returnBorrowed (.updTile (.either h.setPhys h.setPhys.setSpare) (by simp)))))) .refused

theorem Keeps.svcOut {kind ix} : Keeps s₀ (s.svcOut kind ix) := by
  exact .either (by dsimp only; split <;> exact h.chooseSpare.startSwap) <| .either h.upd <| .either h.upd <| .either h.moveSteward h

theorem Keeps.writeSvc {v} : Keeps s₀ (s.writeSvc v) := .either h.upd <| .either h.upd <| .either h.upd.svcOut h.upd
theorem Keeps.svcRow {r action v} : KeepsOut s₀ (Machine.svcRow r action v s) := h.busRow (h.gWrite fun _ h => h.writeSvc)
theorem Keeps.replaceBank {b} : Keeps s₀ (s.replaceBank b) := h.upd.updBank.upd

theorem Keeps.svcIn {kind ix} : Keeps s₀ (s.svcIn kind ix) :=
  .either (h.updTile (by simp)).setSpare <| .either h.upd <| .either h.upd <| .either h.upd <| .either h.updStw h

theorem Keeps.rowFails {pc} : Keeps s₀ (s.rowFails pc) := .either h.upd.svcEnd <| .svcEnd (by split <;> exact h.free.record.upd)

theorem Keeps.execServiceActionComplete {pass ms} : KeepsOut s₀ (Machine.execServiceActionComplete pass ms s) := by
  refine .either (.next ?_) .refused
  exact .either (.either h.upd.svcEnd <| .either h.upd.rowFails h.upd.record.svcEnd) <|
    .either (.svcEnd (.record (.either h.upd.replaceBank h.upd))) h.upd.svcIn.record.svcEnd

theorem Keeps.writeLogC {r v} : Keeps s₀ (s.writeLogC r v) := .either h.upd h
theorem Keeps.writeUack {r v} : Keeps s₀ (s.writeUack r v) := .either h.upd h

theorem Keeps.checkerOut {blk n c} (e : s.checkerOut blk n = some c) : Keeps s₀ c.1 := by
  unfold State.checkerOut at e
  split at e
  · split at e <;> cases e
    · exact h.svcOut
    · exact h.setSpare
  split at e
  · split at e <;> cases e
    exact h.replaceBank
  split at e
  · split at e <;> cases e
    exact h.svcOut
  split at e
  · split at e <;> cases e
    exact h.svcOut
  split at e
  · split at e <;> cases e
    exact h.svcOut
  · cases e

theorem Keeps.execCheckerSelfTest {blk n pass} : KeepsOut s₀ (Machine.execCheckerSelfTest blk n pass s) := by
  refine .either .refused (.either (.next h) ?_)
  dsimp only
  split
  · exact .next h.record
  next c e => exact .next (.either (h.checkerOut e).record (h.checkerOut e).record.upd)

/-! ### Machine/Functions.lean -/

theorem Keeps.execVfEnableSet {numVfs} : KeepsOut s₀ (Machine.execVfEnableSet numVfs s) :=
  .either .refused <| .either (.next h) <| .next h.upd

theorem Keeps.resetIfOn {p} : Keeps s₀ (s.resetIfOn p) := .either h.startReset h
theorem Keeps.portReset : Keeps s₀ s.portReset := .fold (.upd (h.fold fun _ _ h => h.forget.updQueue)) fun _ _ h => h.resetIfOn

theorem Keeps.execHostPortReset {cause} : KeepsOut s₀ (Machine.execHostPortReset cause s) := by
  unfold Machine.execHostPortReset
  dsimp only
  split
  · exact .next h.portReset.upd.upd
  · exact .when_ fun _ => h.portReset.upd
  · exact .when_ fun _ => h.portReset.upd

theorem Keeps.fnResume {fn} : Keeps s₀ (s.fnResume fn) :=
  .either h <| .fold (.updFunc (.fold (h.fold fun _ _ h => h.cqDrain) fun _ _ h => .either h.cqInterrupt h)) fun _ _ h => h.msix

theorem Keeps.execFunctionD0Return {fn} : KeepsOut s₀ (Machine.execFunctionD0Return fn s) :=
  .either (.next (.fnResume (h.updFunc.fold fun _ _ h => h.updQueue))) .refused

theorem Keeps.execStartTimeout {id} : KeepsOut s₀ (Machine.execStartTimeout id s) := by
  unfold Machine.execStartTimeout
  split
  · exact .refused
  · exact h.timeout h.forget.done

theorem Keeps.onTiles {n f} (k : ∀ x, (f x).scratch = x.scratch ∧ (f x).foreign = x.foreign) :
    Keeps s₀ (s.onTiles n f) := h.fold fun _ _ h => h.updTile k

theorem Keeps.pstateDone {status} : Keeps s₀ (s.pstateDone status) := by
  unfold State.pstateDone
  split
  · exact h
  · dsimp only
    split
    · exact h.upd.complete
    · exact h.upd

theorem Keeps.execDevPstate {id} : KeepsOut s₀ (Machine.execDevPstate id s) :=
  h.withCmd fun _ => .either h.complete <| .either h.complete <| .either h.complete <| .either h.complete <|
    .either (.either (h.phase.upd.upd.onTiles (by simp)) h.phase.upd.upd) h.phase.upd.upd

theorem Keeps.leavePs1 : Keeps s₀ s.leavePs1 :=
  .either h <| (h.onTiles (by simp)).upd

theorem Keeps.execPstateEntryComplete : KeepsOut s₀ (Machine.execPstateEntryComplete s) :=
  .either (.next (h.upd.onTiles (by simp)).pstateDone) <| .either (.next (h.upd.leavePs1.onTiles (by simp)).pstateDone) .refused

theorem Keeps.execWakeComplete : KeepsOut s₀ (Machine.execWakeComplete s) := by
  refine .either (.next (.pstateDone ?_)) .refused
  exact .either (.evcRestore (.either ((h.upd.onTiles (by simp)).onTiles (by simp)) <| (h.upd.onTiles (by simp)).leavePs1)) <|
    .either ((h.upd.onTiles (by simp)).onTiles (by simp)) <| (h.upd.onTiles (by simp)).leavePs1

/-! ### Machine/ArcCore.lean -/

theorem Keeps.toMember {n cs} : Keeps s₀ (s.toMember n cs) := h.fold fun _ _ h => h.emit
theorem Keeps.sendRead {n blk k} : Keeps s₀ (s.sendRead n blk k) := h.emit
theorem Keeps.sendReads {rs} : Keeps s₀ (s.sendReads rs) := h.fold fun _ _ h => h.sendRead
theorem Keeps.writeMember {n blk bs} : Keeps s₀ (s.writeMember n blk bs) := h.setMember.emit
theorem Keeps.readSources {a i e st} : Keeps s₀ (s.readSources a i e st) := h.fold fun _ _ h => by
  split
  · exact h.sendRead
  · exact h
theorem Keeps.recount {a} : Keeps s₀ (s.recount a) := h.updArr

/-! ### Machine/ArcLog.lean -/

theorem Keeps.writeLabels {a stop} : Keeps s₀ (s.writeLabels a stop) := by
  dsimp only [State.writeLabels]
  refine .either (.writeMember (.writeMember ?_)) ?_ <;> exact .fold h.updArr fun _ _ h => h.writeMember.writeMember

theorem Keeps.relabel {a} : Keeps s₀ (s.relabel a) := h.updArr.fold fun _ _ h => by
  split
  · exact h.writeMember.writeMember
  · exact h
theorem Keeps.writeSys {a} : Keeps s₀ (s.writeSys a) := h.fold fun _ _ h => h.updMember
theorem Keeps.writeProgress {a} : Keeps s₀ (s.writeProgress a) := h.updArr.fold fun _ _ h => h.writeMember
theorem Keeps.openStripe {a i stream} : Keeps s₀ (s.openStripe a i stream) := h.upd.updArr
theorem Keeps.closeStripe {a i} : Keeps s₀ (s.closeStripe a i) := h.updArr
theorem Keeps.place {a i bs} : Keeps s₀ (s.place a i bs) := .either h.updArr.closeStripe h.updArr
theorem Keeps.writeStripe {a i} : Keeps s₀ (s.writeStripe a i) := h.fold fun _ _ h => by
  split
  · exact h
  · exact h.writeMember

theorem Keeps.stripeWritten {a i} : Keeps s₀ (s.stripeWritten a i) := by
  dsimp only [State.stripeWritten]
  exact h.writeStripe.updArr

theorem Keeps.releaseCache {a} : Keeps s₀ (s.releaseCache a) := .either h.updArr h.updArr.plkSend

theorem Keeps.sealStripe {a i} : Keeps s₀ (s.sealStripe a i) := by
  dsimp only [State.sealStripe]
  exact h.updArr.recount.updArr.releaseCache

theorem Keeps.numberPages {a} : Keeps s₀ (s.numberPages a) := h.fold fun _ _ h => .either h h.updVol
theorem Keeps.setSysRun {a v e} : Keeps s₀ (s.setSysRun a v e) := .either h.updVol.updArr h.updVol

theorem Keeps.commitSystem {a i} : Keeps s₀ (s.commitSystem a i) :=
  h.fold fun _ _ h => by
    split
    · exact h
    · exact .setSysRun (.either h.updArr h)

theorem Keeps.updLeaf {v first f} : Keeps s₀ (s.updLeaf v first f) := h.updVol

theorem Keeps.getD {o : Option State} (ho : KeepsOpt s₀ o) : Keeps s₀ (o.getD s) := by
  cases o with
  | none => exact h
  | some t => exact ho t rfl

theorem Keeps.writeAll {α : Type} {f : State → α → Option State} {l : List α} (k : ∀ a x, Keeps s₀ x → KeepsOpt s₀ (f x a)) :
    KeepsOpt s₀ (s.writeAll f l) := by
  induction l generalizing s with
  | nil => exact .some h
  | cons a r ih =>
    unfold State.writeAll
    split
    next e => exact ih (k a s h _ e)
    next => exact .none

theorem Keeps.placePage {a vol page bs} : KeepsOpt s₀ (s.placePage a vol page bs) := by
  unfold State.placePage
  dsimp only
  split
  · exact .some h.place
  · exact .either (fun t e => by obtain ⟨i, -, rfl⟩ := Option.map_eq_some_iff.1 e; exact h.openStripe.place) .none

theorem Keeps.writeLeaf {v first} : KeepsOpt s₀ (s.writeLeaf v first) := by
  unfold State.writeLeaf
  dsimp only
  split
  · exact .some h
  · exact h.numberPages.placePage.map fun _ h => h.updLeaf

theorem Keeps.writeRoots {v} : KeepsOpt s₀ (s.writeRoots v) :=
  .either (.some h) ((h.writeAll fun _ _ h => h.placePage).map fun _ h => h.updVol)

theorem Keeps.fillSystem {a} : Keeps s₀ (s.fillSystem a) := h.fold fun _ _ h => .either (h.getD h.writeLeaf) h

theorem Keeps.evict {room n} : Keeps s₀ (s.evict room n) := by
  induction n generalizing s with
  | zero => exact h
  | succ n ih =>
    refine .either h ?_
    split
    · exact h
    · split
      · exact h
      next e => exact ih (KeepsOpt.either h.writeLeaf (.some h) _ e).updLeaf

theorem Keeps.touch {v lo hi dirty} : Keeps s₀ (s.touch v lo hi dirty) := h.updVol.upd.evict
theorem Keeps.setMap {v lo hi m} : Keeps s₀ (s.setMap v lo hi m) := h.touch.updVol
theorem Keeps.applyRuns {v es} : Keeps s₀ (s.applyRuns v es) := h.fold fun _ _ h => h.setMap
theorem Keeps.settleVault : Keeps s₀ s.settleVault := .either h.upd.upd h.upd

theorem Keeps.fillHost {a} : Keeps s₀ (s.fillHost a) := by
  unfold State.fillHost
  split
  · exact .either h h.place
  · exact h

theorem Keeps.rewritePages {a} : Keeps s₀ (s.rewritePages a) := h.fold fun _ _ h => .either h.updArr <| h.fold fun _ _ h => h.updVol

theorem Keeps.lostOffset {a i b} : Keeps s₀ (s.lostOffset a i b) := by
  dsimp only [State.lostOffset]
  refine .writeSys (.recount (.updArr ?_))
  exact h.fold fun _ _ h => .either h.updArr <| by
    split
    · exact h.updArr
    · exact h.updArr.applyRuns

theorem Keeps.afterRead {a r} : Keeps s₀ (s.afterRead a r) := by
  refine .either h ?_
  dsimp only
  split
  · split
    · exact h.sendReads.lostOffset
    · exact h.sendReads
  · split
    · exact h.sendReads.updArr
    · exact h.sendReads

theorem Keeps.fillHarvest {a} : Keeps s₀ (s.fillHarvest a) := by
  unfold State.fillHarvest
  dsimp only
  split
  · exact .either (h.rewritePages.fold fun _ _ h => h.afterRead) <| .place (h.rewritePages.fold fun _ _ h => h.afterRead)
  · exact h.rewritePages.fold fun _ _ h => h.afterRead

theorem Keeps.appendPiece {v ctx gen lba bs} : Keeps s₀ (s.appendPiece v ctx gen lba bs) := h.updArr.releaseCache

theorem Keeps.appendWrite {v ctx gen lba bs} : Keeps s₀ (s.appendWrite v ctx gen lba bs) :=
  .fillHost (h.fold fun _ _ h => h.appendPiece)

theorem Keeps.trim {v kind lba n} : Keeps s₀ (s.trim v kind lba n) := h.updArr.releaseCache.setMap.recount
theorem Keeps.prunePages {a} : Keeps s₀ (s.prunePages a) := h.fold fun _ _ h => .either h h.updArr.updVol
theorem Keeps.recordCheckpoint {a} : Keeps s₀ (s.recordCheckpoint a) := .writeSys (.updArr (h.fold fun _ _ h => h.writeMember))
theorem Keeps.commitPages {a i} : KeepsOpt s₀ (s.commitPages a i) := .either .none (.some h.stripeWritten.commitSystem.sealStripe)

theorem Keeps.drainSystem {a} : KeepsOpt s₀ (s.drainSystem a) := by
  refine Keeps.writeAll ?_ fun _ _ h => h.commitPages
  split
  · exact h.closeStripe
  · exact h

theorem Keeps.writePages {a} : KeepsOpt s₀ (s.writePages a) :=
  .bind (.bind h.numberPages.prunePages.drainSystem fun _ h => h.writeAll fun _ _ h => h.writeLeaf) fun _ h =>
    .bind (h.writeAll fun _ _ h => h.writeRoots) fun _ h => .bind h.drainSystem fun _ h =>
      .bind (h.updArr.writeAll fun _ _ h => h.placePage) fun _ h => h.drainSystem

theorem Keeps.checkpoint? {a} : KeepsOpt s₀ (s.checkpoint? a) := h.writePages.map fun _ h => h.recordCheckpoint
theorem Keeps.checkpoint {a} : Keeps s₀ (s.checkpoint a) := h.getD h.checkpoint?

/-! ### Machine/ArcVolumes.lean -/

theorem Keeps.scatter {fn es bs} : Keeps s₀ (s.scatter fn es bs) := by
  induction es generalizing s bs with
  | nil => exact h
  | cons e r ih => exact ih h.hostWrite

theorem Keeps.sendData {conn cid bs} : Keeps s₀ (s.sendData conn cid bs) := h.fold fun _ _ h => h.netBytes.emit

theorem Keeps.readBlocks {v lba n} : Keeps s₀ (s.readBlocks v lba n).2 := by
  induction n generalizing s lba with
  | zero => exact h
  | succ n ih => exact ih h.afterRead

theorem Keeps.netRead {c conn cid} : Keeps s₀ (s.netRead c conn cid) := by
  unfold State.netRead
  dsimp only
  split
  · exact h.readBlocks.meter.sendData.done
  · exact h.readBlocks.meter.done

theorem Keeps.volRead {c} : Keeps s₀ (s.volRead c) := by
  unfold State.volRead
  dsimp only
  split
  · exact h.netRead
  · split
    · exact h.done
    · exact h.readBlocks.scatter.upd.meter.complete

theorem Keeps.fetchLeaves {v lo hi} : Keeps s₀ (s.fetchLeaves v lo hi) := h.fold fun _ _ h => by
  split
  · exact h.sendReads
  · exact h

theorem Keeps.beginRead {c} : Keeps s₀ (s.beginRead c) :=
  .either h.done <| .either h.done <| .either h.done <| .either h.fetchLeaves.phase h.touch.volRead

theorem Keeps.execVolRead {id} : KeepsOut s₀ (Machine.execVolRead id s) := .either .refused <| h.withCmd fun _ => h.beginRead

theorem Keeps.runWrite {rid v ctx gen lba bs} : Keeps s₀ (s.runWrite rid v ctx gen lba bs) :=
  .either h.appendWrite h.appendWrite.plkSend.upd.awaitAck.updRun

omit h in
theorem KeepsOut.unlessHeld {t} (ht : Keeps s₀ t) : KeepsOut s₀ (s.unlessHeld t) := .either .refused <| .next ht

theorem Keeps.finishWrite {c v lba bs} : Keeps s₀ (s.finishWrite c v lba bs) :=
  .either h.appendWrite.meter.plkSend.phase.awaitAck h.appendWrite.meter.complete

theorem Keeps.updWrite {conn cid f} : Keeps s₀ (s.updWrite conn cid f) := h.updConn

theorem Keeps.sendR2t {conn cid n} : Keeps s₀ (s.sendR2t conn cid n) := by
  induction n generalizing s with
  | zero => exact h
  | succ n ih =>
    unfold State.sendR2t
    split
    · exact h
    · exact .either h (.either h.phase (ih h.netBytes.emit.updWrite))

theorem Keeps.reservePiece {c conn cid} : Keeps s₀ (s.reservePiece c conn cid) := h.updArr.phase.updWrite.sendR2t

theorem Keeps.pump {id conn cid n} : Keeps s₀ (s.pump id conn cid n) := by
  induction n generalizing s with
  | zero => exact h
  | succ n ih =>
    unfold State.pump
    split
    · exact .either (.either (ih h.updCmd.reservePiece) h.updCmd.phase) h
    · exact h

theorem Keeps.volWrite {c} : Keeps s₀ (s.volWrite c) := by
  unfold State.volWrite
  split
  · exact .either h.finishWrite h.reservePiece.pump
  · split
    · exact h.done
    · exact h.finishWrite

theorem Keeps.startWrite {c} : Keeps s₀ (s.startWrite c) := by
  unfold State.startWrite
  dsimp only
  split
  · exact h.phase.pump
  · exact .either h.volWrite h.phase

theorem Keeps.unlate {c} : Keeps s₀ (s.unlate c) := .either h.updArr h

theorem Keeps.beginWrite {c} : Keeps s₀ (s.beginWrite c) :=
  .either h.done <| .either h.done <| .either h.done <| .either h.unlate.fetchLeaves.phase h.unlate.touch.startWrite

theorem Keeps.execVolWrite {id} : KeepsOut s₀ (Machine.execVolWrite id s) := .either .refused <| h.withCmd fun _ => h.beginWrite
theorem Keeps.trimNow {kind c} : Keeps s₀ (s.trimNow kind c) := h.trim.complete

theorem Keeps.execWriteCacheReserve {id} : KeepsOut s₀ (Machine.execWriteCacheReserve id s) := by
  unfold Machine.execWriteCacheReserve
  split
  · exact .refused
  · refine .either (.when_ fun _ => h.trimNow) ?_
    split
    · exact .when_ fun _ => h.phase.sendR2t.pump
    · exact .when_ fun _ => h.volWrite

theorem Keeps.execLeafReadComplete {id} : KeepsOut s₀ (Machine.execLeafReadComplete id s) := by
  unfold Machine.execLeafReadComplete
  split
  · exact .refused
  · exact .either (.either (.next h.done) <| .next (.either h.touch.phase.volRead h.touch.phase.startWrite)) .refused

theorem Keeps.execVolFlush {id} : KeepsOut s₀ (Machine.execVolFlush id s) :=
  .either .refused <| h.withCmd fun _ => .either h.done <| .either h.done h.done

theorem Keeps.trimBegin {kind c} : Keeps s₀ (s.trimBegin kind c) :=
  .either h.done <| .either h.done <| .either h.done <| .either h.trimNow h.phase

/-! ### Machine/ArcStripes.lean -/

theorem Keeps.fillStream {a stream} : Keeps s₀ (s.fillStream a stream) := .either h.fillHost <| .either h.fillHarvest h.fillSystem

theorem Keeps.execStripeOpen {a stream} : KeepsOut s₀ (Machine.execStripeOpen a stream s) :=
  .either .refused <| by
    split
    · exact .refused
    · exact .next h.openStripe.fillStream

theorem Keeps.execStripeCloseTimeout {a stream} : KeepsOut s₀ (Machine.execStripeCloseTimeout a stream s) := by
  unfold Machine.execStripeCloseTimeout
  split
  · exact .refused
  · exact h.timeout h.closeStripe

theorem Keeps.commitHost {a i} : Keeps s₀ (s.commitHost a i) := by
  dsimp only [State.commitHost]
  exact .updArr (h.updArr.fold fun _ _ h => h.applyRuns)

theorem Keeps.commitMoves {a i} : Keeps s₀ (s.commitMoves a i) := by
  refine h.fold fun _ _ h => ?_
  dsimp only
  split
  · exact .either h.updArr.applyRuns h.updArr
  · exact h.updArr

theorem Keeps.commitStream {a st stream} : Keeps s₀ (s.commitStream a st stream) :=
  .either h.commitHost <| .either h.commitMoves h.commitSystem

theorem Keeps.execStripeCommit {a st} : KeepsOut s₀ (Machine.execStripeCommit a st s) :=
  .when_ fun _ => h.stripeWritten.commitStream.sealStripe.fillHost

theorem Keeps.execStripeFree {a st} : KeepsOut s₀ (Machine.execStripeFree a st s) := .when_ fun _ => .either h.updArr h.updArr.writeSys

theorem Keeps.execHarvest {a} : KeepsOut s₀ (Machine.execHarvest a s) := by
  unfold Machine.execHarvest
  split
  · exact .refused
  · exact .when_ fun _ => h.updArr.fillHarvest

theorem Keeps.execMapCheckpoint {a} : KeepsOut s₀ (Machine.execMapCheckpoint a s) := by
  unfold Machine.execMapCheckpoint
  dsimp only
  split
  next e => exact .next (KeepsOpt.either h.checkpoint? .none _ e)
  · exact .refused

/-! ### Machine/ArcRebuild.lean -/

theorem Keeps.startRebuild {a old y} : Keeps s₀ (s.startRebuild a old y) := by
  dsimp only [State.startRebuild]
  exact h.updArr.updMember.writeLabels.writeProgress

theorem Keeps.nextRebuild {a} : Keeps s₀ (s.nextRebuild a) := by
  unfold State.nextRebuild
  dsimp only
  split
  · exact h
  · exact .either h <| by
      split
      · exact h.startRebuild
      · exact h.updArr

theorem Keeps.judge {a} : Keeps s₀ (s.judge a) := h.updArr

theorem Keeps.failMember {n} : Keeps s₀ (s.failMember n) := by
  refine .either ?_ ?_
  · exact .either h.updMember.updArr.settleVault <| .either h.updMember.updArr.relabel <|
      .either h.updMember.updArr.judge.writeLabels.nextRebuild h.updMember.updArr.judge.writeLabels
  · exact .either (.either h.updMember.updArr.nextRebuild h.updMember.updArr) <| .either h.updMember.updArr h.updMember

theorem Keeps.execMemberLinkDown {w} : KeepsOut s₀ (Machine.execMemberLinkDown w s) := by
  unfold Machine.execMemberLinkDown
  split
  · exact .when_ fun _ => h.failMember
  · exact .when_ fun _ => h.upd.failMember

theorem Keeps.execMemberCommandCompletion {n blk mediaErr} : KeepsOut s₀ (Machine.execMemberCommandCompletion n blk mediaErr s) := by
  exact .either .refused <| .next (by
    split
    · exact h.setMember
    · exact .either h.setMember.afterRead h.setMember)

theorem Keeps.fillTarget {a i} : Keeps s₀ (s.fillTarget a i) := by
  unfold State.fillTarget
  dsimp only
  split
  · exact h.updArr
  · exact .updArr (.writeMember (h.fold fun _ _ h => .either h h.lostOffset))

theorem Keeps.queryRebuild {a abns} : Keeps s₀ (s.queryRebuild a abns) := by
  refine .either h ?_
  refine h.fold fun _ _ h => ?_
  dsimp only
  split
  · exact h
  · exact .either h.fillTarget.updArr h

theorem Keeps.endRebuild {a} : Keeps s₀ (s.endRebuild a) := by
  dsimp only [State.endRebuild]
  exact h.updMember.updArr.judge.writeLabels.writeSys.writeProgress.nextRebuild

theorem Keeps.execRebuildCursorStep {a} : KeepsOut s₀ (Machine.execRebuildCursorStep a s) := by
  refine .either .refused <| .either .refused ?_
  refine .next ?_
  refine .either ?_ ?_
  · refine .endRebuild ?_
    exact .either (.writeProgress (.updArr (by
      split
      · exact h.readSources.fillTarget
      · exact .either h.fillTarget h))) <|
      .updArr (by
        split
        · exact h.readSources.fillTarget
        · exact .either h.fillTarget h)
  · exact .either (.writeProgress (.updArr (by
      split
      · exact h.readSources.fillTarget
      · exact .either h.fillTarget h))) <|
      .updArr (by
        split
        · exact h.readSources.fillTarget
        · exact .either h.fillTarget h)

theorem Keeps.rebuildCmd {id action what k} (hk : ∀ x y, Keeps s₀ (k x y)) : KeepsOut s₀ (Machine.rebuildCmd s id action what k) :=
  .either .refused <| h.withCmd fun _ => .either h.done <| .either h.done <| hk _ _

theorem Keeps.setRbRate {a v} : Keeps s₀ (s.setRbRate a v) := h.updArr

theorem Keeps.execArrRebuildStart {id} : KeepsOut s₀ (Machine.execArrRebuildStart id s) :=
  h.rebuildCmd fun _ _ => .either h.done <| .either h.done h.phase.queueCheck

theorem Keeps.arrRebuildEnd {id} : Keeps s₀ (s.arrRebuildEnd id) := by
  unfold State.arrRebuildEnd
  split
  · exact h.checkDone
  · exact .either h.checkDone.complete h.setRbRate.startRebuild.checkDone.complete

theorem Keeps.rebuildTo {id a rate src dest} : Keeps s₀ (s.rebuildTo id a rate src dest) := .either h.done h.setRbRate.updArr.complete

theorem Keeps.execArrReshape {id} : KeepsOut s₀ (Machine.execArrReshape id s) :=
  h.withCmd fun _ => .either h.done <| .either h.done <| .either h.done <| .either h.done h.phase.queueCheck

theorem Keeps.arrReshapeEnd {id} : Keeps s₀ (s.arrReshapeEnd id) := by
  unfold State.arrReshapeEnd
  split
  · exact h.checkDone
  · exact .either h.checkDone.complete <|
      .complete (.checkDone (.writeProgress (.writeSys (.writeLabels (.updArr (h.fold fun _ _ h => .either h h.updMember))))))

theorem Keeps.advanceDurable {a b} : KeepsOpt s₀ (s.advanceDurable a b) := h.checkpoint?.map fun _ h => h.updArr.writeProgress

omit h in
theorem KeepsOpt.afterCheckpoint {r} (hr : KeepsOpt s₀ r) : KeepsOut s₀ (Machine.afterCheckpoint r) := by
  cases r with
  | some t => exact .next (hr t rfl)
  | none => exact .refused

theorem Keeps.execReshapeStep {a} : KeepsOut s₀ (Machine.execReshapeStep a s) := by
  dsimp only [Machine.execReshapeStep]
  exact .either .refused <| .either h.advanceDurable.afterCheckpoint <| .either h.updArr.advanceDurable.afterCheckpoint <|
    .either (.next h.updArr) <| .either (.next h.updArr.fillHarvest) .refused

theorem Keeps.eraseLabels {z} : Keeps s₀ (s.eraseLabels z) := h.writeMember.writeMember.updMember

theorem Keeps.execReshapeFinish {a} : KeepsOut s₀ (Machine.execReshapeFinish a s) := by
  refine .either .refused ?_
  refine .next ?_
  refine .nextRebuild (.writeProgress (.writeSys (.writeLabels (.judge ?_))))
  exact .either (.updMember (.fold (.updArr (h.fold fun _ _ h => .either h.eraseLabels h)) fun _ _ h => h.updMember)) <|
    .fold (.updArr (h.fold fun _ _ h => .either h.eraseLabels h)) fun _ _ h => h.updMember

/-! ### Machine/ArcAdmin.lean -/

theorem Keeps.execMbrAttach {id info} : KeepsOut s₀ (Machine.execMbrAttach id info s) := by
  refine h.withCmd fun _ => ?_
  refine .either h.done <| .either h.done <| .either h.done ?_
  dsimp only
  split
  · exact h.free.done
  · exact h.free.updMember.upd.toMember.complete

theorem Keeps.execMbrDetach {id} : KeepsOut s₀ (Machine.execMbrDetach id s) :=
  h.withCmd fun _ => .either h.done <| .either h.done <| .either h.done h.toMember.updMember.emit.done

theorem Keeps.execArrCreate {id} : KeepsOut s₀ (Machine.execArrCreate id s) :=
  h.withCmd fun _ => .either h.done <| .either h.done <| .either h.done h.updArr.phase.queueCheck

theorem Keeps.arcFail {id reason obj largest} : Keeps s₀ (s.arcFail id reason obj largest) := h.checkDone.complete

theorem Keeps.arrCreateEnd {id} : Keeps s₀ (s.arrCreateEnd id) := by
  unfold State.arrCreateEnd
  split
  · exact h.checkDone
  · refine .either h.setArr.arcFail ?_
    refine .done (.checkDone (.writeSys (.writeLabels ?_)))
    exact .fold (h.free.free.setArr.fold fun _ _ h => h.setMember.toMember.writeMember.writeMember) fun _ _ h => h.updMember

theorem Keeps.execArrSet {id} : KeepsOut s₀ (Machine.execArrSet id s) :=
  h.withCmd fun _ => .either h.done <| .either h.done <| .either h.done h.phase.queueCheck

theorem Keeps.arrSetEnd {id} : Keeps s₀ (s.arrSetEnd id) := by
  unfold State.arrSetEnd
  split
  · exact h.checkDone
  · refine .either h.arcFail ?_
    refine .done (.checkDone (.writeSys ?_))
    exact .either (.nextRebuild (.either (h.updArr.fold fun _ _ h => .either h.updMember <| .either h.updMember h) h.updArr)) <|
      .either (h.updArr.fold fun _ _ h => .either h.updMember <| .either h.updMember h) h.updArr

theorem Keeps.closeStreams {a} : Keeps s₀ (s.closeStreams a) := h.fold fun _ _ h => by
  split
  · exact h.closeStripe
  · exact h

theorem Keeps.execArrStop {id} : KeepsOut s₀ (Machine.execArrStop id s) :=
  h.withCmd fun _ => .either h.done <| .either h.done <| .either h.writeLabels.updArr.done <| .either h.done <|
    .either h.done h.updArr.writeLabels.phase.closeStreams

theorem Keeps.execArrDrainComplete {a} : KeepsOut s₀ (Machine.execArrDrainComplete a s) := by
  refine .either .refused ?_
  split
  · exact .refused
  next t e =>
    refine .next ?_
    split
    · exact (h.checkpoint? t e).writeLabels.updArr.done
    · exact (h.checkpoint? t e).writeLabels.updArr

theorem Keeps.destroyArr {a} : Keeps s₀ (s.destroyArr a) :=
  .setArr (.fold (h.fold fun _ _ h => .either h.eraseLabels h) fun _ _ h => h.setVol)

theorem Keeps.writeDestroy {v} : Keeps s₀ (s.writeDestroy v) := .either h.upd <| .either h.upd.destroyArr.upd h.upd.upd
theorem Keeps.writeMapc {v} : Keeps s₀ (s.writeMapc v) := .either h h.upd
theorem Keeps.writeDp {p v} : Keeps s₀ (s.writeDp p v) := .either h h.upd

theorem Keeps.execArcDpWrite {r p v} : KeepsOut s₀ (Machine.execArcDpWrite r p v s) :=
  .either .refused <| h.busRow (h.gWrite fun _ h => h.writeDp)

theorem Keeps.execVolCreate {id} : KeepsOut s₀ (Machine.execVolCreate id s) :=
  h.withCmd fun _ => .either h.done <| .either h.done <| .either h.done h.phase.queueCheck

theorem Keeps.volCreateEnd {id} : Keeps s₀ (s.volCreateEnd id) := by
  unfold State.volCreateEnd
  split
  · exact h.checkDone
  · exact .either h.arcFail h.setVol.writeSys.checkDone.done

theorem Keeps.execVolResize {id} : KeepsOut s₀ (Machine.execVolResize id s) :=
  h.withCmd fun _ => .either h.done <| .either h.done <| .either h.done h.phase.queueCheck

theorem Keeps.withRoom {a n} : Keeps s₀ (s.withRoom a n) := .either h h.checkpoint

theorem Keeps.volResizeEnd {id} : Keeps s₀ (s.volResizeEnd id) := by
  unfold State.volResizeEnd
  split
  · exact h.checkDone
  · exact .either h.arcFail <| .done (.checkDone (.writeSys (.updVol (.either h.withRoom.trim h))))

theorem Keeps.dropVol {v} : Keeps s₀ (s.dropVol v) := by
  dsimp only [State.dropVol]
  exact h.withRoom.trim.setVol.recount.writeSys

theorem Keeps.volAdmin {id op what zeros ok begin_ finish}
    (hbegin : ∀ x y z, Keeps s₀ z → Keeps s₀ (begin_ x y z)) (hfinish : ∀ x y z, Keeps s₀ z → Keeps s₀ (finish x y z)) :
    KeepsOut s₀ (Machine.volAdmin s id op what zeros ok begin_ finish) := by
  unfold Machine.volAdmin
  split
  · exact .refused
  · exact .either (.when_ fun _ => .done (hfinish _ _ _ h)) <| h.withCmd fun _ => .either h.done <| .either h.done <| .either h.done <|
      .either h.done <| .either h.done <| .either (.phase (.updVol (hbegin _ _ _ h))) <| .done (hfinish _ _ _ (hbegin _ _ _ h))

theorem Keeps.execArrLostlist {id} : KeepsOut s₀ (Machine.execArrLostlist id s) :=
  .either .refused <| h.withCmd fun _ => .either h.done <| .either h.done <| .either h.done h.hostWrite.complete

/-! ### Machine/ArcPower.lean -/

theorem Keeps.vaultHeaders {a} : Keeps s₀ (s.vaultHeaders a) := h.updArr.fold fun _ _ h => h.writeMember.writeMember
theorem Keeps.nothingToVault {a} : Keeps s₀ (s.nothingToVault a) := h.fold fun _ _ h => h.updMember
theorem Keeps.freezeArr {a} : Keeps s₀ (s.freezeArr a) := .either h.vaultHeaders <| .either h.nothingToVault h

theorem Keeps.execFreeze : KeepsOut s₀ (Machine.execFreeze s) :=
  .either .refused <| .next (.settleVault (.onTiles (.upd (h.fold fun _ _ h => h.freezeArr)) (by simp)))

theorem Keeps.execVaultSeal {a n} : KeepsOut s₀ (Machine.execVaultSeal a n s) := by
  unfold Machine.execVaultSeal
  dsimp only
  split
  · exact .refused
  · exact .when_ fun _ => h.writeMember.writeMember.updArr.settleVault

theorem Keeps.readLabels {mask} : Keeps s₀ (s.readLabels mask) := h.fold fun _ _ h => .either h.sendRead.sendRead h

theorem Keeps.execArrImport {id} : KeepsOut s₀ (Machine.execArrImport id s) :=
  h.withCmd fun _ => .either h.done <| .either h.done <| .either h.done h.updArr.phase.queueCheck

theorem Keeps.arrImportEnd {id} : Keeps s₀ (s.arrImportEnd id) := by
  unfold State.arrImportEnd
  split
  · exact h.checkDone
  · refine .either h.readLabels.updArr.arcFail ?_
    split
    · exact h.readLabels
    · refine .checkDone (.phase ?_)
      exact .either (.plkSend (.updArr (h.readLabels.fold fun _ _ h => h.updMember))) <|
        .updArr (h.readLabels.fold fun _ _ h => h.updMember)

theorem Keeps.restoreGeometry {a} : Keeps s₀ (s.restoreGeometry a) := by
  unfold State.restoreGeometry
  split
  · exact h
  · exact .either h h.updArr

theorem Keeps.assume {a abns} : Keeps s₀ (s.assume a abns) := h.updArr
theorem Keeps.readPages {a abns} : Keeps s₀ (s.readPages a abns) := h.sendReads

theorem Keeps.readControl {a} : Keeps s₀ (s.readControl a) :=
  h.fold fun _ _ h => .either (h.fold fun _ _ h => h.sendRead) <| .sendRead (h.fold fun _ _ h => h.sendRead)

theorem Keeps.placeSys {a r maps pages} : Keeps s₀ (s.placeSys a r maps pages) :=
  .fold (.setVol (h.updArr.fold fun _ _ h => h.setVol)) fun _ _ h => h.updMember

theorem Keeps.restoreStripes {a js lost} : Keeps s₀ (s.restoreStripes a js lost) := h.updArr.updArr.recount

theorem Keeps.resume {a} : Keeps s₀ (s.resume a) := by
  unfold State.resume
  dsimp only
  split
  · exact h.updArr.updMember.updArr.updArr
  · exact h.updArr.nextRebuild

theorem Keeps.replay {a} : Keeps s₀ (s.replay a) := by
  refine .either h.restoreGeometry.readControl.updArr ?_
  dsimp only
  split <;> exact h.restoreGeometry.readControl.readPages.readPages.placeSys.setVol.restoreStripes.updArr

theorem Keeps.bringUp {a} : Keeps s₀ (s.bringUp a) := by
  unfold State.bringUp
  extract_lets s3 s4 s5 plk s6
  have up : Keeps s₀ s4 := (Keeps.updArr h).resume.judge.releaseCache
  have filled : Keeps s₀ s5 := up.writeLabels.checkpoint.writeSys.fillHost
  have told : Keeps s₀ s6 := filled.upd
  exact .either told.plkSend told

theorem Keeps.execReplayEnd {a} : KeepsOut s₀ (Machine.execReplayEnd a s) :=
  .when_ fun _ => by
    split
    · exact h.replay.bringUp.done
    · exact h.replay.bringUp

theorem Keeps.execArrVaultInfo {id} : KeepsOut s₀ (Machine.execArrVaultInfo id s) := by
  refine .either .refused ?_
  refine h.withCmd fun _ => ?_
  exact .either h.done <| .either h.done <| by
    split
    · exact h.done
    · exact h.hostWrite.done

/-! ### Machine/Astore.lean -/

theorem Keeps.updAtable {n f} : Keeps s₀ (s.updAtable n f) := h.upd
theorem Keeps.putUnit {k u} : Keeps s₀ (s.putUnit k u) := h.upd
theorem Keeps.putHalf {k mask high v} : Keeps s₀ (s.putHalf k mask high v) := h.upd
theorem Keeps.putEntry {t p e} : Keeps s₀ (s.putEntry t p e) := h.fold fun _ _ h => h.putUnit
theorem Keeps.putEntries {t l} : Keeps s₀ (s.putEntries t l) := h.fold fun _ _ h => h.putEntry
theorem Keeps.countSearches {n} : Keeps s₀ (s.countSearches n) := h.upd
theorem Keeps.emberFix {b u w} : Keeps s₀ (s.emberFix b u w) := h.putUnit.upd.record
theorem Keeps.emberFault {b u} : Keeps s₀ (s.emberFault b u) := h.upd.updBank.record

theorem Keeps.checkUnit {b u} : Keeps s₀ (s.checkUnit b u) :=
  .either h <| .either (.either h.emberFault h.emberFix) <| .either h.emberFix h

theorem Keeps.checkEntries {t p n} : Keeps s₀ (s.checkEntries t p n) := h.fold fun _ _ h => h.fold fun _ _ h => h.checkUnit
theorem Keeps.checkTable {t lo hi} : Keeps s₀ (s.checkTable t lo hi) := h.fold fun _ _ h => h.fold fun _ _ h => .either h.checkUnit h

theorem Keeps.astCreateEnd {id} : Keeps s₀ (s.astCreateEnd id) := by
  unfold State.astCreateEnd
  split
  · exact h.checkDone
  · exact .either h.checkDone.complete <| .done (.checkDone (h.updAtable.fold fun _ _ h => h.updBank))

theorem Keeps.execAstCreate {id} : KeepsOut s₀ (Machine.execAstCreate id s) :=
  .either .refused <| h.withCmd fun _ => .either h.done h.phase.queueCheck

theorem Keeps.astCmd {id op what zeros changes k} (hk : ∀ x y z, Keeps s₀ (k x y z)) :
    KeepsOut s₀ (Machine.astCmd s id op what zeros changes k) :=
  .either .refused <| h.withCmd fun _ => .either h.done <| .either h.done <| .either h.done <| .either h.done <| .either h.done <|
    hk _ _ _

theorem Keeps.execAstDestroy {id} : KeepsOut s₀ (Machine.execAstDestroy id s) :=
  h.astCmd fun _ _ _ => .either h.done <| h.updAtable.phase.fold fun _ _ h => h.clearBank

theorem Keeps.endDestroys : Keeps s₀ s.endDestroys := by
  refine h.fold fun _ _ h => ?_
  split
  · exact h
  · exact .either h <| .done (.updAtable (h.fold fun _ _ h => h.updBank))

theorem Keeps.execBankClearComplete {b} : KeepsOut s₀ (Machine.execBankClearComplete b s) :=
  .either (.next h.updBank.endDestroys) .refused

theorem Keeps.execAstLoad {id} : KeepsOut s₀ (Machine.execAstLoad id s) :=
  .either .refused <| h.astCmd fun _ _ _ => .either h.done <| .either h.done <| .either h.done <| .either h.done h.putEntries.complete

theorem Keeps.insertReads {t a} : Keeps s₀ (s.insertReads t a) := h.checkTable

theorem Keeps.execAstInsert {id} : KeepsOut s₀ (Machine.execAstInsert id s) := by
  refine h.astCmd fun _ _ _ => ?_
  refine .either h.done <| .either h.done <| .either h.done ?_
  dsimp only
  split
  · exact h.insertReads.done
  · exact h.insertReads.putEntries.complete

theorem Keeps.execAstDelete {id} : KeepsOut s₀ (Machine.execAstDelete id s) :=
  h.astCmd fun _ _ _ => .either h.done <| .either h.complete h.putUnit.complete

theorem Keeps.execAstSearch {id} : KeepsOut s₀ (Machine.execAstSearch id s) :=
  .either .refused <| h.astCmd fun _ _ _ => .either h.done <| .either h.done <| .either h.done h.hostWrite.countSearches.complete

theorem Keeps.execAstRead {id} : KeepsOut s₀ (Machine.execAstRead id s) :=
  .either .refused <| h.astCmd fun _ _ _ => .either h.done h.checkEntries.hostWrite.complete

theorem Keeps.execAstRespread {id} : KeepsOut s₀ (Machine.execAstRespread id s) :=
  h.astCmd fun _ _ _ => .either h.done <| .either h.done h.checkTable.updAtable.phase

theorem Keeps.execRespreadStep {n} : KeepsOut s₀ (Machine.execRespreadStep n s) := by
  refine .either ?_ .refused
  exact .either (.next (by
    split
    · exact h.putEntries.updAtable.done
    · exact h.putEntries.updAtable)) <| .next h.putEntries.updAtable

theorem Keeps.writeOwner {b v} : Keeps s₀ (s.writeOwner b v) := .either h h.updBank.clearBank

theorem Keeps.execAstoreOwnerWrite {r b v} : KeepsOut s₀ (Machine.execAstoreOwnerWrite r b v s) :=
  .either .refused <| h.busRow h.writeOwner

theorem Keeps.window {off wr v} : Keeps s₀ (s.window off wr v) := .either h.reserved <| .either h.putHalf h.checkUnit.emit

theorem Keeps.execDirectWindowAccess {off wr v} : KeepsOut s₀ (Machine.execDirectWindowAccess off wr v s) :=
  .either (.either (.next (h.inOrder h.window)) <| .when_ fun _ => h.window) .refused

/-! ### Machine/SourceReads.lean -/

theorem Keeps.afterVolume {ctx v bytes lbas} : Keeps s₀ (s.afterVolume ctx v bytes lbas) :=
  .meter (.queryRebuild (h.fold fun _ _ h => h.touch.afterRead))

theorem Keeps.scanRecord {ctx a slot} : Keeps s₀ (s.scanRecord ctx a slot) := h.record

/-! ### Machine/Sinks.lean -/

theorem Keeps.emitEntry {fn d m n} : Keeps s₀ (s.emitEntry fn d m n) := h.hostWrite

theorem Keeps.emitSegment {fn d ts cols m rows} : Keeps s₀ (s.emitSegment fn d ts cols m rows) :=
  .emitEntry (h.fold fun _ _ h => .hostWrite (.either h.hostWrite.hostWrite h.hostWrite))

theorem Keeps.encodeJobs {v x} : Keeps s₀ (s.encodeJobs v x) := by
  unfold State.encodeJobs
  split
  · exact h.fold fun _ _ h => h.queueJob
  · exact h

theorem Keeps.spillWrite {r g bs} : Keeps s₀ (s.spillWrite r g bs) := h.fold fun _ _ h => h.runWrite.upd

theorem Keeps.makeRoom {rid j pl} : Keeps s₀ (s.makeRoom rid j pl) := by
  unfold State.makeRoom
  split
  · exact h
  · refine .either (.either h h.updRun) ?_
    split
    · exact h.failRun
    · exact .either h.failRun <| .either h.failRun h.spillWrite.meter.updRun

theorem Keeps.exchange {rid v w k m rows} : Keeps s₀ (s.exchange rid v w k m rows) :=
  h.updRun.fold fun _ _ h => h.fold fun _ _ h => .either h h.plkSend

/-! ### Machine/RunEnds.lean -/

theorem Keeps.endMarkers {rid v w} : Keeps s₀ (s.endMarkers rid v w) := .either h.updRun <| h.updRun.fold fun _ _ h => h.plkSend
theorem Keeps.matSegment {rid v w m rows} : Keeps s₀ (s.matSegment rid v w m rows) := .either h.exchange h.updRun

theorem Keeps.stage {r pipe m volume bs rows} : Keeps s₀ (s.stage r pipe m volume bs rows) :=
  .updRun (.runWrite (.updVol (.either h h.trim)))

theorem Keeps.stageRows {r pl pipe w m rows} : Keeps s₀ (s.stageRows r pl pipe w m rows) := h.stage.updRun

theorem Keeps.stageManifest {rid pipe pl w} : Keeps s₀ (s.stageManifest rid pipe pl w) := by
  unfold State.stageManifest
  split
  · exact h
  · exact h.stage.meter

theorem Keeps.cutMorsel {rid v w ks m} : Keeps s₀ (s.cutMorsel rid v w ks m) :=
  .either (.either h <| .either h.emitEntry h.emitSegment) <| .either (.either h.stageRows h) <| .either h.matSegment h

theorem Keeps.freeMats {rid pl} : Keeps s₀ (s.freeMats rid pl) := h.updRun

theorem Keeps.finishPipe {rid i pl} : Keeps s₀ (s.finishPipe rid i pl) := by
  unfold State.finishPipe
  split
  · refine .freeMats (.updRun ?_)
    refine .either ?_ ?_
    · exact .endMarkers (.either h <| .either (.makeRoom (h.fold fun _ _ h => h.cutMorsel)) <| h.fold fun _ _ h => h.cutMorsel)
    · refine .either ?_ ?_
      · exact .stageManifest (.either h <| .either (.makeRoom (h.fold fun _ _ h => h.cutMorsel)) <| h.fold fun _ _ h => h.cutMorsel)
      · exact .either h <| .either (.makeRoom (h.fold fun _ _ h => h.cutMorsel)) <| h.fold fun _ _ h => h.cutMorsel
  · exact h

theorem Keeps.mergePasses {rid i pl} : Keeps s₀ (s.mergePasses rid i pl) :=
  h.fold fun _ _ h => by
    split
    · exact .either h h.updRun.makeRoom
    · exact h

theorem Keeps.learnMorsels {rid i r pl} : Keeps s₀ (s.learnMorsels rid i r pl) := by
  unfold State.learnMorsels
  split
  · exact .either h.updRun.mergePasses h.failRun
  · exact h

theorem Keeps.settlePipe {rid i} : Keeps s₀ (s.settlePipe rid i) := by
  unfold State.settlePipe
  split
  · exact h
  · split
    · exact h
    · exact .either h <| .either h.learnMorsels.updRun.updRun.finishPipe h.learnMorsels.updRun.updRun

theorem Keeps.settleRun {rid} : Keeps s₀ (s.settleRun rid) := by
  unfold State.settleRun
  split
  · exact h
  · refine .either h ?_
    dsimp only
    split
    · exact h.fold fun _ _ h => h.settlePipe
    · split
      · exact h.fold fun _ _ h => h.settlePipe
      · exact .either (.complete (.removeRun (h.fold fun _ _ h => h.settlePipe))) <| h.fold fun _ _ h => h.settlePipe

theorem Keeps.completeMat {rid j v w} : Keeps s₀ (s.completeMat rid j v w) := by
  unfold State.completeMat
  dsimp only
  split
  · exact h.failRun
  · exact h.upd.updRun.settleRun

theorem Keeps.execMaterialisationComplete {run mat} : KeepsOut s₀ (Machine.execMaterialisationComplete run mat s) := by
  unfold Machine.execMaterialisationComplete
  split
  · exact .refused
  · split
    · exact .refused
    · split
      · exact .either (.unlessHeld h.completeMat) .refused
      · exact .refused

theorem Keeps.restartPipe {rid i} : Keeps s₀ (s.restartPipe rid i) := .updRun (h.fold fun _ _ h => h.dropFlights fun _ _ h => h)
theorem Keeps.pageError {r action status} : Keeps s₀ (s.pageError r action status) := h.free.record

theorem Keeps.execMaterialisationError {run mat} : KeepsOut s₀ (Machine.execMaterialisationError run mat s) := by
  unfold Machine.execMaterialisationError
  split
  · exact .refused
  · split
    · exact .refused
    · split
      · exact .refused
      · exact .either .refused <| .either (.next h.pageError.failRun) <|
          .next (.settleRun (.updRun (h.pageError.fold fun _ _ h => h.restartPipe)))

theorem Keeps.execStoreCommit {run pipe m} : KeepsOut s₀ (Machine.execStoreCommit run pipe m s) := by
  unfold Machine.execStoreCommit
  split
  · exact .refused
  · split
    · split
      · exact .either .refused <| .either (.next h.failRun) <| .when_ fun _ => h.meter.stageRows.updRun
      · exact .refused
    · exact .refused

theorem Keeps.placeRuns {from_ base n v lba} : Keeps s₀ (s.placeRuns from_ base n v lba) := h.updArr.releaseCache.applyRuns

theorem Keeps.execStorePlace {run pipe} : KeepsOut s₀ (Machine.execStorePlace run pipe s) := by
  unfold Machine.execStorePlace
  split
  · exact .refused
  · split
    · exact .refused
    · split
      · exact .refused
      · exact .either .refused <| .either (.next h.failRun) <| .either (.next h.failRun) <|
          .unlessHeld (.settleRun (.updRun (.recount (.setVol (h.fold fun _ _ h => h.placeRuns)))))

/-! ### Machine/Binding.lean -/

theorem Keeps.setPlan {ctx e x} : Keeps s₀ (s.setPlan ctx e x) := h.upd

theorem Keeps.execLoadPlan {id} : KeepsOut s₀ (Machine.execLoadPlan id s) := by
  refine .either .refused ?_
  refine h.withCmd fun _ => ?_
  refine .either h.done <| .either h.done ?_
  split
  · exact h.done
  · refine .either h.done <| .either h.done ?_
    dsimp only
    split
    · exact h.complete
    · exact h.setPlan.upd.complete

theorem Keeps.execUnloadPlan {id} : KeepsOut s₀ (Machine.execUnloadPlan id s) :=
  h.withCmd fun _ => .either h.done <| .either h.done <| .either h.done h.setPlan.done

theorem Keeps.startRun {c r pl rows} : Keeps s₀ (s.startRun c r pl rows) := .either h.upd.phase.settleRun h.upd.phase.failRun

theorem Keeps.execRunPlan {id} : KeepsOut s₀ (Machine.execRunPlan id s) := by
  refine .either .refused ?_
  refine h.withCmd fun _ => ?_
  refine .either h.done <| .either h.done ?_
  split
  · exact h.done
  · split
    · exact h.done
    · dsimp only
      split
      · exact h.complete
      · exact .either h.complete h.startRun

/-! ### Machine/Clocks.lean -/

theorem Keeps.writeDiv {v} : Keeps s₀ (s.writeDiv v) := .either h h.upd
theorem Keeps.updTimer {w i f} : Keeps s₀ (s.updTimer w i f) := h.upd
theorem Keeps.writeDeadline {w i hi v} : Keeps s₀ (s.writeDeadline w i hi v) := h.updTimer

theorem Keeps.execClkTmrDlWrite {r w i hi v} : KeepsOut s₀ (Machine.execClkTmrDlWrite r w i hi v s) :=
  .either .refused <| h.busRow h.writeDeadline

theorem Keeps.steer {x} : Keeps s₀ (s.steer x) := .upd (.either h.free.upd h)
theorem Keeps.timeMessages : Keeps s₀ s.timeMessages := h.fold fun _ _ h => .either h.plkSend h

theorem Keeps.execTimeExchange {ofs} : KeepsOut s₀ (Machine.execTimeExchange ofs s) :=
  .when_ fun _ => .either h.timeMessages h.timeMessages.steer

theorem Keeps.execTsyncEdge {ofs} : KeepsOut s₀ (Machine.execTsyncEdge ofs s) := .when_ fun _ => .either h.upd <| .either h.steer h
theorem Keeps.writeAvs {v vout} : Keeps s₀ (s.writeAvs v vout) := .either h.upd.emit.upd h.upd.emit.upd
theorem Keeps.rezone : Keeps s₀ s.rezone := .either h h.upd

theorem Keeps.gateTiles : Keeps s₀ s.gateTiles :=
  h.fold fun _ _ h => h.updTile (by simp)

theorem Keeps.execTemperatureSample {tj} : KeepsOut s₀ (Machine.execTemperatureSample tj s) :=
  .next (.either h.free.upd.rezone.upd.gateTiles h.free.upd.rezone)

theorem Keeps.execThrottleStep {up} : KeepsOut s₀ (Machine.execThrottleStep up s) :=
  .either (.when_ fun _ => h.upd) <| .when_ fun _ => h.upd

/-! ### Machine/Compression.lean -/

theorem Keeps.setJobs {l} : Keeps s₀ (s.setJobs l) := h.upd

theorem Keeps.jobLost {j} : Keeps s₀ (s.jobLost j) := by
  unfold State.jobLost
  split
  · exact h.failRun
  · exact h.done

theorem Keeps.engineLost {e} : Keeps s₀ (s.engineLost e) := h.upd.fold fun _ _ h => h.jobLost
theorem Keeps.verifyFailed {e ctx} : Keeps s₀ (s.verifyFailed e ctx) := h.record.upd.engineLost

theorem Keeps.cmpCommand {id op what} : KeepsOut s₀ (Machine.cmpCommand id op what s) :=
  .either .refused <| h.withCmd fun _ => .either h.done h.setJobs.phase

theorem Keeps.execCmpJobStart {e} : KeepsOut s₀ (Machine.execCmpJobStart e s) := by
  unfold Machine.execCmpJobStart
  split
  · exact .refused
  · exact .either (.next h.setJobs.upd.phase) .refused

theorem Keeps.cmpWrite {c bs} : Keeps s₀ (s.cmpWrite c bs) := .either h.hostWrite h.hbmWrite

theorem Keeps.cmpEnd {c e} : Keeps s₀ (s.cmpEnd c e) := by
  refine .either h.done <| .either (.either h.upd.cmpWrite.complete h.upd.done.verifyFailed) ?_
  split
  · exact h.cmpWrite.complete
  · exact h.cmpWrite.upd.done

theorem Keeps.slotEnd {j r pl pipe m e} : Keeps s₀ (s.slotEnd j r pl pipe m e) := .either h.upd h.upd.failRun.verifyFailed

theorem Keeps.execCmpJobComplete {id} : KeepsOut s₀ (Machine.execCmpJobComplete id s) := by
  unfold Machine.execCmpJobComplete
  split
  · exact .refused
  · dsimp only
    split
    · split
      · exact .next h.setJobs
      · split
        · exact .next (.either h.setJobs.slotEnd h.setJobs)
        · exact .next h.setJobs
    · exact .either (.next h.setJobs.done) <| .when_ fun _ => h.setJobs.cmpEnd
    · exact .next h.setJobs

theorem Keeps.execEngineFault {ers e} : KeepsOut s₀ (Machine.execEngineFault ers e s) :=
  .either (.when_ fun _ => h.record.upd.testFaulted) <| .when_ fun _ => h.record.engineLost.testFaulted

/-! ### Machine/Kernel.lean -/

theorem Keeps.kernelFail {u code addr} : Keeps s₀ (s.kernelFail u code addr) := by
  unfold State.kernelFail
  dsimp only
  split
  · exact h.setCp.record.stopKernel
  · split
    · exact h.setCp.record.stopKernel
    · exact h.setCp.record.stopKernel.failRun

theorem Keeps.cpApply {u r} (hr : s₀.memWf → r.memWf) : KeepsOut s₀ (s.cpApply u r) := by
  cases r with
  | go => exact .next (h.setCp.setTile hr)
  | fail => exact .next (h.setCp.setTile hr).kernelFail
  | miss => exact .next (h.setCp.setTile hr)
  | wait => exact .refused

theorem Keeps.cpRun {u k} (hk : ∀ c t, t.memWf → (k c t).memWf) : KeepsOut s₀ (Machine.cpRun s u k) :=
  .either (.either (.next h.kernelFail) (h.cpApply fun w => hk _ _ (h.tile w))) .refused

theorem Keeps.cpApplyV {u r} (hr : s₀.memWf → r.memWf) : KeepsOut s₀ (s.cpApplyV u r) := by
  cases r with
  | go => exact .next (h.setCp.setTile hr).meter
  | fail code addr c t => exact h.cpApply (u := u) (r := .fail code addr c t) hr
  | miss w c t => exact h.cpApply (u := u) (r := .miss w c t) hr
  | wait => exact .refused

theorem Keeps.cpRunV {u k} (hk : ∀ c t, t.memWf → (k c t).memWf) : KeepsOut s₀ (Machine.cpRunV s u k) :=
  .either (.either (.next h.kernelFail) (h.cpApplyV fun w => hk _ _ (h.tile w))) .refused

theorem Keeps.cpStep {u k} : KeepsOut s₀ (Machine.cpStep s u k) := h.cpRun fun _ _ ht => ht

/-! ### Machine/CpScalar.lean -/

theorem Keeps.scalarInt {op u d a b} : KeepsOut s₀ (Machine.scalarInt op u d a b s) := h.cpStep
theorem Keeps.scalarImm {op imm u d a} : KeepsOut s₀ (Machine.scalarImm op imm u d a s) := h.cpStep
theorem Keeps.scalarFp {op u d a b dbl} : KeepsOut s₀ (Machine.scalarFp op u d a b dbl s) := h.cpStep
theorem Keeps.branchIf {taken u a b ofs} : KeepsOut s₀ (Machine.branchIf taken u a b ofs s) := h.cpRun fun _ _ ht => ht

theorem Keeps.execTrap {u a} : KeepsOut s₀ (Machine.execTrap u a s) := by
  refine h.cpRun fun _ _ ht => ?_
  dsimp only
  split <;> exact ht

theorem Keeps.execRdsr {u d a} : KeepsOut s₀ (Machine.execRdsr u d a s) := by
  refine .either h.free.cpStep (h.cpRun fun _ _ ht => ?_)
  split <;> exact ht

/-! ### Machine/CpMemory.lean -/

theorem Keeps.loadG {n signed u d a imm} : KeepsOut s₀ (Machine.loadG n signed u d a imm s) :=
  h.cpRun fun _ _ ht => ht.scalarLoad fun _ _ _ ht => ht

theorem Keeps.vecLoad {cached u f addr} : KeepsOut s₀ (Machine.vecLoad cached s u f addr) :=
  h.cpRunV fun _ _ ht => ht.vecOk (ht.vmemLoop fun _ _ _ _ ht => ht.loadElem).advGo

theorem Keeps.vecStore {cached u f addr} : KeepsOut s₀ (Machine.vecStore cached s u f addr) :=
  h.cpRunV fun _ _ ht => ht.vecOk (ht.vmemLoop fun _ _ _ _ ht => ht.storeElem).advGo

theorem Keeps.rangeOp {clean inval locked u a b} : KeepsOut s₀ (Machine.rangeOp clean inval locked u a b s) :=
  h.cpRun fun _ _ ht => .either ht (.either trivial (.either ht (.either ht ht)))

theorem Keeps.writeCen {u v} : Keeps s₀ (s.writeCen u v) :=
  .either (.either h.setCp <| .either h h.setCp) <| .either h <| .either h.setCp <| h.setCp.setTile fun w => (h.tile w).endFlush

theorem Keeps.execVldx {u f} : KeepsOut s₀ (Machine.execVldx u f s) :=
  h.cpRunV fun _ _ ht => ht.vecOk (ht.vmemLoop fun _ _ _ _ ht => ht.loadElem).advGo

theorem Keeps.execVldff {u f} : KeepsOut s₀ (Machine.execVldff u f s) := by
  refine h.cpRunV fun c t ht => ht.legal (ht.vecOk ?_)
  have hr : (vmemLoop u.cp c.sewBits false (idxAddr s.vlen c f) (loadElem true s.vlen c.sewBits f.d.toNat)
      (pendingElems s.vlen c f) c t).memWf := ht.vmemLoop fun _ _ _ _ ht => ht.loadElem
  split
  next e => rw [e] at hr; exact hr
  next => exact hr.advGo

theorem Keeps.execVstx {u f} : KeepsOut s₀ (Machine.execVstx u f s) :=
  h.cpRunV fun _ _ ht => ht.vecOk (ht.vmemLoop fun _ _ _ _ ht => ht.storeElem).advGo

theorem Keeps.execDcz {u a} : KeepsOut s₀ (Machine.execDcz u a s) := by
  refine h.cpRun fun _ _ ht => ht.lineOp fun _ => .either ht (.either ht.store ?_)
  split
  · exact ht
  · exact ht.makeRoom

theorem Keeps.execDcl {u a} : KeepsOut s₀ (Machine.execDcl u a s) := by
  refine h.cpRun fun _ _ ht => ht.lineOp fun _ => ?_
  split
  · exact ht.writeBack
  · exact ht

theorem Keeps.execDci {u a} : KeepsOut s₀ (Machine.execDci u a s) := by
  refine h.cpRun fun _ _ ht => ht.lineOp fun _ => ?_
  split
  · exact .either ht ht
  · exact ht

theorem Keeps.execDcci {u a} : KeepsOut s₀ (Machine.execDcci u a s) := by
  refine h.cpRun fun _ _ ht => ht.lineOp fun _ => ?_
  dsimp only
  split
  · exact .either ht.writeBack ht.writeBack
  · exact ht

theorem Keeps.execDlock {u d a} : KeepsOut s₀ (Machine.execDlock u d a s) := by
  refine h.cpRun fun _ _ ht => ht.lineOp fun _ => .either ht (.either ht (.either ht (.either ht ?_)))
  split
  · exact ht
  · exact ht.fetchLine

theorem Keeps.execRangeOperationComplete {t} : KeepsOut s₀ (Machine.execRangeOperationComplete t s) := by
  unfold Machine.execRangeOperationComplete
  split
  · exact .refused
  next r rest _ =>
    refine .next (h.setCp.setTile fun w => ?_)
    have applied : (Machine.applyRange r (s.cpOf t r.cp) (s.tile t)).2.memWf := (h.tile w).applyRange
    dsimp only
    split
    · exact Tile.memWf.endFlush (t := { (Machine.applyRange r (s.cpOf t r.cp) (s.tile t)).2 with ranges := rest }) applied
    · exact applied

theorem Keeps.execCacheDisableFlush {r u} : KeepsOut s₀ (Machine.execCacheDisableFlush r u s) := .either .refused <| h.busRow h.writeCen
theorem Keeps.execCacheEnable {r u} : KeepsOut s₀ (Machine.execCacheEnable r u s) := .either .refused <| h.busRow h.writeCen

theorem Keeps.execPldb {u f} : KeepsOut s₀ (Machine.execPldb u f s) :=
  h.cpRunV fun _ _ ht => ht.legal (ht.vecOk (ht.bytesLoop ht.cacheRead))

theorem Keeps.execPstb {u f} : KeepsOut s₀ (Machine.execPstb u f s) :=
  h.cpRunV fun _ _ ht => ht.legal (ht.vecOk (ht.bytesLoop ht.cacheRead.cacheWrite))

/-! ### Machine/CpVector.lean -/

theorem Keeps.vecBin {op u f x} : KeepsOut s₀ (Machine.vecBin op s u f x) := h.cpRunV fun _ _ ht => ht.vecOk ht
theorem Keeps.vecUn {op sewOk u f} : KeepsOut s₀ (Machine.vecUn op sewOk s u f) := h.cpRunV fun _ _ ht => ht.vecOk ht
theorem Keeps.vecTri {sewOk op u f x} : KeepsOut s₀ (Machine.vecTri sewOk op s u f x) := h.cpRunV fun _ _ ht => ht.vecOk ht
theorem Keeps.vecWiden {signed u f} : KeepsOut s₀ (Machine.vecWiden signed s u f) := h.cpRunV fun _ _ ht => ht.vecOk ht
theorem Keeps.vecCmp {sewOk op u f x} : KeepsOut s₀ (Machine.vecCmp sewOk op s u f x) := h.cpRunV fun _ _ ht => ht.legal (ht.vecOk ht)
theorem Keeps.vecPat {p u f} : KeepsOut s₀ (Machine.vecPat p s u f) := h.cpRunV fun _ _ ht => ht.legal (ht.vecOk ht)

theorem Keeps.vecRed {sewOk start op signed u f} : KeepsOut s₀ (Machine.vecRed sewOk start op signed s u f) :=
  h.cpRunV fun _ _ ht => ht.vecOk ht

theorem Keeps.predLogic {n op u f} : KeepsOut s₀ (Machine.predLogic n op s u f) := h.cpRunV fun _ _ ht => ht.legal (ht.vecOk ht)
theorem Keeps.predToG {val u f} : KeepsOut s₀ (Machine.predToG val s u f) := h.cpRunV fun _ _ ht => ht.legal (ht.vecOk ht)
theorem Keeps.execVpatm {u f} : KeepsOut s₀ (Machine.execVpatm u f s) := .either (h.cpRunV fun _ _ ht => ht) h.vecPat

/-! ### Machine/Exchange.lean -/

theorem Keeps.placeExchange {r pl dev mat pipe m bucket rows} : Keeps s₀ (s.placeExchange r pl dev mat pipe m bucket rows) :=
  h.updRun.makeRoom

theorem Keeps.execExchangeRows {dev b exkey ctx gen mat pipe m bucket rows} :
    KeepsOut s₀ (Machine.execExchangeRows dev b exkey ctx gen mat pipe m bucket rows s) := by
  refine .either .refused <| .either (.next h.hear.stale) ?_
  refine .either ?_ ?_
  · exact .next (by
      split
      · exact h.hear.failRun
      · exact h.hear)
  · split
    · exact .either (.unlessHeld h.hear.placeExchange) .refused
    · exact .refused

theorem Keeps.execExchangeEndMarker {dev b exkey mat pipe} : KeepsOut s₀ (Machine.execExchangeEndMarker dev b exkey mat pipe s) := by
  unfold Machine.execExchangeEndMarker
  dsimp only
  split
  · exact .refused
  · exact .when_ fun _ => h.hear.updRun

theorem Keeps.execExchangeAbortMarker {dev b exkey} : KeepsOut s₀ (Machine.execExchangeAbortMarker dev b exkey s) :=
  .either .refused <| by
    split
    · exact .next h.hear
    · exact .next h.hear.failRun

/-! ### Machine/KernelEntry.lean -/

theorem Keeps.entryFails {t k opIx entry} : Keeps s₀ (s.entryFails t k opIx entry) :=
  (h.setCp.updTile (by simp)).kernelFail

theorem Keeps.enterKernel {t k opIx v rows done later} : Keeps s₀ (s.enterKernel t k opIx v rows done later) := by
  unfold State.enterKernel
  split
  · exact h
  · split
    · extract_lets room privLen cap ls columns priv x filled run s1
      have filledWf : s₀.memWf → filled.memWf := fun w => .foldl (h.tile w) fun _ _ h => .foldl h fun _ _ h => h.store
      clear_value filled
      have laid : Keeps s₀ s1 := h.setTile filledWf
      exact .either h.entryFails (laid.fold fun _ _ h => h.setCp)
    · exact h.failRun
    · exact h.failRun

theorem Keeps.startKernel {t} : Keeps s₀ (s.startKernel t) := by
  refine .either h ?_
  split
  · exact h
  · split
    · exact h
    · split
      · exact h
      · exact h.enterKernel

theorem Keeps.setWork {t k w} : Keeps s₀ (s.setWork t k w) :=
  h.countSearches.upd.updTile (by simp)

theorem Keeps.endKernel {t} : Keeps s₀ (s.endKernel t) := by
  unfold State.endKernel
  extract_lets s1
  have flushed : Keeps s₀ s1 := h.fold fun _ _ h => h.setCp.setTile fun w => (h.tile w).flushCache
  clear_value s1
  split
  · exact flushed
  split
  · exact flushed.stopKernel
  split
  · exact flushed.stopKernel
  split
  · exact flushed.stopKernel
  dsimp only
  split
  · exact flushed.stopKernel
  split
  · exact flushed.kernelFail
  split
  · exact flushed.enterKernel
  split
  · exact flushed.stopKernel.setWork.encodeJobs.startKernel
  · exact flushed.stopKernel

theorem Keeps.execHalt {u} : KeepsOut s₀ (Machine.execHalt u s) := by
  have halts := h.cpRun (u := u) (k := fun c t => if rangeBusy u.cp t then .wait else .go { c with halted := true } t)
    fun _ _ ht => .either trivial ht
  unfold Machine.execHalt
  split
  next e => exact .next (.either (halts _ e).endKernel (halts _ e))
  next => exact halts

theorem Keeps.execIllegalInstruction {u w} : KeepsOut s₀ (Machine.execIllegalInstruction u w s) :=
  .either .refused (h.cpRun fun _ _ ht => ht)

/-! ### Machine/Metering.lean -/

theorem Keeps.countMs {p} : Keeps s₀ (s.countMs p) := h.meter.meter
theorem Keeps.msCounts : Keeps s₀ s.msCounts := h.fold fun _ _ h => h.countMs
theorem Keeps.countTo {n} : Keeps s₀ (s.countTo n) := h.upd.fold fun _ _ h => h.msCounts
theorem Keeps.formBatch {now} : Keeps s₀ (s.formBatch now) := .either h.upd <| .upd (h.fold fun _ _ h => h.updPart)

theorem Keeps.execCalends : KeepsOut s₀ (Machine.execCalends s) :=
  .when_ fun _ => .formBatch (h.upd.countTo.fold fun _ _ h => h.countTile)

theorem Keeps.execMeterBatchWrite : KeepsOut s₀ (Machine.execMeterBatchWrite s) := by
  unfold Machine.execMeterBatchWrite
  extract_lets trust at_
  split
  · exact .refused
  · refine .either ?_ .refused
    extract_lets s1
    have wrote : Keeps s₀ s1 := h.hostWrite
    exact .next (.raise (wrote.updTrust (by rfl)))

theorem Keeps.writeMtrC {v} : Keeps s₀ (s.writeMtrC v) := .either h.upd h

/-! ### Machine/Morsels.lean -/

theorem Keeps.enterCands {l} : Keeps s₀ (s.enterCands l) := .upd (by
  split
  · exact h
  · exact h.fold fun _ _ h => h.upd)

theorem Keeps.ownTile {t q} : Keeps s₀ (s.ownTile t q) := by
  refine h.setTile fun w => ?_
  obtain ⟨hscratch, hforeign⟩ := h.tile (n := t) w
  dsimp only
  split
  · exact ⟨hscratch, hforeign⟩
  · refine ⟨?_, fun o ho => ?_⟩
    · rcases look_mem [] (s.tile t).foreign q with e | e
      · exact e.symm ▸ rfl
      · exact hforeign _ e
    · rcases mem_put ho with rfl | ho
      · rfl
      · rcases mem_put ho with rfl | ho
        · exact hscratch
        · exact hforeign o ho

theorem Keeps.ranOn {t} : Keeps s₀ (s.ranOn t) := by
  unfold State.ranOn
  dsimp only
  split
  · exact .either h.upd.returnBorrowed h.upd
  · exact h.upd

theorem Keeps.mismatchAt {t ctx} : Keeps s₀ (s.mismatchAt t ctx) := .either h.record.upd.tileOutOf h.record.upd

theorem Keeps.preparePair {t l q how} : Keeps s₀ (s.preparePair t l q how).1 := by
  cases how with
  | waits => exact h
  | takes p =>
    cases p with
    | none => exact h
    | some k => exact h.ownTile
  | borrows p => exact h.upd.setSpare.ownTile
  | bare => exact h.record.upd

theorem Keeps.sourceEffects {v} : Keeps s₀ (s.sourceEffects v).1 :=
  List.foldlRecOn (motive := fun p : State × Option (Nat × Nat × Nat) => Keeps s₀ p.1) _ _ h fun _ h _ _ => h.afterVolume

theorem Keeps.claim {t l r pl i how} : Keeps s₀ (s.claim t l r pl i how) := by
  refine .startKernel (.meter (.encodeJobs ?_))
  refine .fold ?_ fun _ _ h => h.queueJob
  refine .setWork (.updTile ?_ (by simp))
  split
  · exact h.ownTile.preparePair.updRun.sourceEffects.scanRecord
  · exact h.ownTile.preparePair.updRun.sourceEffects

theorem Keeps.execMorselClaim {t} : KeepsOut s₀ (Machine.execMorselClaim t s) := by
  unfold Machine.execMorselClaim
  split
  · exact .refused
  · refine .either .refused ?_
    dsimp only
    split
    · exact .refused
    · split
      · exact .refused
      · exact .either (.next h.enterCands.claim) .refused

theorem Keeps.sinkEffect {v w e} : Keeps s₀ (s.sinkEffect v w e) :=
  .either (.either h.emitSegment h) <| .either (.updRun (.either h.emitSegment h)) <| .either (.either h.emitSegment h) <|
    .either (.makeRoom (.matSegment (.either h.emitSegment h))) <| .matSegment (.either h.emitSegment h)

theorem Keeps.ledgerDone {f e} : Keeps s₀ (s.ledgerDone f e) := h.updRun

theorem Keeps.dropGone {t} : Keeps s₀ (s.dropGone t) := by
  unfold State.dropGone
  split
  · exact h.eraseFlight
  · exact h

theorem Keeps.leave {t k f} : Keeps s₀ (s.leave t k f) := by
  unfold State.leave
  dsimp only
  split
  · exact h.dropFlight.dropGone.ranOn.ranOn
  · exact h.dropFlight.dropGone.ranOn

theorem Keeps.keepCands {t} : Keeps s₀ (s.keepCands t) := by
  unfold State.keepCands
  split
  · exact h.upd
  · exact h

theorem Keeps.morselFails {t f st r0} : Keeps s₀ (s.morselFails t f st r0) := h.failRun.keepCands.startKernel

theorem Keeps.morselDiffers {t k f p} : Keeps s₀ (s.morselDiffers t k f p) := by
  dsimp only [State.morselDiffers]
  exact h.leave.countAbn.updRun.abandonLedger.mismatchAt.mismatchAt.keepCands.startKernel

theorem Keeps.morselDone {t k f v w e} : Keeps s₀ (s.morselDone t k f v w e) :=
  (h.leave.onPair (by simp)).ledgerDone.sinkEffect.settleRun.keepCands.startKernel

theorem Keeps.morselStale {t k f} : Keeps s₀ (s.morselStale t k f) := h.leave.keepCands.startKernel

theorem Keeps.execMorselComplete {t k agree} : KeepsOut s₀ (Machine.execMorselComplete t k agree s) := by
  unfold Machine.execMorselComplete
  split
  · exact .refused
  · split
    · exact .refused
    · split
      · exact .refused
      · split
        · exact .refused
        · dsimp only
          split
          · exact .refused
          · exact .either (.next h.morselStale) <| .either .refused <| .next h.morselFails
          · exact .either (.next h.morselStale) <| .either .refused <| .either (by
              split
              · exact .next h.morselDiffers
              · exact .refused) <|
              .either .refused <| .either .refused <| .either .refused <| .unlessHeld h.morselDone

theorem Keeps.settled {o} (ho : KeepsOut s₀ o) : Keeps s₀ (Machine.settled o s) := by
  unfold Machine.settled
  split
  · exact ho _ rfl
  · exact h

theorem Keeps.afterReports : Keeps s₀ s.afterReports := by
  refine h.fold fun _ _ h => ?_
  split
  · exact h.settled h.execMorselComplete
  · exact h.settled h.execMaterialisationComplete
  · exact h.settled h.execStorePlace
  · exact h

theorem Keeps.execCancelPlan {id} : KeepsOut s₀ (Machine.execCancelPlan id s) := by
  refine h.withCmd fun _ => ?_
  refine .either h.done ?_
  split
  · exact h.done
  · split
    · exact .either h.done h.failRun.done
    · exact h.done.done

theorem Keeps.execRunTimeout {id} : KeepsOut s₀ (Machine.execRunTimeout id s) := by
  unfold Machine.execRunTimeout
  split
  · exact .refused
  · exact .either .refused <| by
      split
      · exact .next (.either h h.failRun)
      · exact .next h.done

theorem Keeps.writeNoclaim {t v} : Keeps s₀ (s.writeNoclaim t v) :=
  .either (h.updTile (by simp)) h

theorem Keeps.execNoclaimWrite {r t v} : KeepsOut s₀ (Machine.execNoclaimWrite r t v s) := .either (h.busRow h.writeNoclaim) .refused

theorem Keeps.rebind {rid} : Keeps s₀ (s.rebind rid) := by
  unfold State.rebind
  split
  · exact h
  · split
    · exact h.failRun
    · exact .either h.failRun h.updRun.settleRun

theorem Keeps.execPartThaw {id} : KeepsOut s₀ (Machine.execPartThaw id s) :=
  h.partCmd fun _ _ => .done (.pvEvent (h.updPart.fold fun _ _ h => h.rebind))

theorem Keeps.execHostReadTimeout {id} : KeepsOut s₀ (Machine.execHostReadTimeout id s) := by
  unfold Machine.execHostReadTimeout
  split
  · exact .refused
  · exact h.timeout (by
      split
      · exact h.failRun
      · exact h.forget.done)

/-! ### Machine/Net.lean -/

theorem Keeps.updPort {p f} : Keeps s₀ (s.updPort p f) := h.upd

theorem Keeps.execNetLinkChange {port lanes} : KeepsOut s₀ (Machine.execNetLinkChange port lanes s) :=
  .when_ fun _ => .either h.updPort h.updPort.raise

theorem Keeps.execPtpEventMessage {port tx msgType seqId} : KeepsOut s₀ (Machine.execPtpEventMessage port tx msgType seqId s) :=
  .when_ fun _ => .either h.upd h

theorem Keeps.writeTsPop {v} : Keeps s₀ (s.writeTsPop v) := .either h.upd h
theorem Keeps.dropConn {c} : Keeps s₀ (s.dropConn c) := h.setCmds.upd.upd.settleExports
theorem Keeps.closeConn {c} : Keeps s₀ (s.closeConn c) := .either (.upd (h.dropConn.fold fun _ _ h => h.dropConn.emit)) h.dropConn
theorem Keeps.fatal {c fes} : Keeps s₀ (s.fatal c fes) := h.netBytes.emit.closeConn.emit
theorem Keeps.closePort {p} : Keeps s₀ (s.closePort p) := h.fold fun _ _ h => h.closeConn

theorem Keeps.writeNetPort {p v} : Keeps s₀ (s.writeNetPort p v) :=
  .either h <| .either h.updPort <| .either h.updPort.closePort.updPort.raise h.updPort.closePort.updPort

theorem Keeps.execNetPortWrite {r p v} : KeepsOut s₀ (Machine.execNetPortWrite r p v s) := .either (h.busRow h.writeNetPort) .refused
theorem Keeps.writeNetIf {p i o v} : Keeps s₀ (s.writeNetIf p i o v) := .either (.either h.upd h) <| .either h.upd h.upd
theorem Keeps.setSubsys {p x} : Keeps s₀ (s.setSubsys p x) := h.upd

theorem Keeps.execNetSubsysEnable {id} : KeepsOut s₀ (Machine.execNetSubsysEnable id s) :=
  .either .refused <| h.withCmd fun _ => .either h.done <| .either h.done <| .either h.done <| .either h.done h.phase.queueCheck

theorem Keeps.netSubsysEnd {id} : Keeps s₀ (s.netSubsysEnd id) := by
  unfold State.netSubsysEnd
  split
  · exact h.checkDone
  · exact .either h.checkDone.complete h.checkDone.setSubsys.done

theorem Keeps.execNetSubsysDisable {id} : KeepsOut s₀ (Machine.execNetSubsysDisable id s) :=
  .either .refused <| h.withCmd fun _ => .either h.done <| .either h.done <| .either h.done <| .either h.done <|
    .done (.setSubsys (h.fold fun _ _ h => h.closeConn.emit))

theorem Keeps.execNetExport {id} : KeepsOut s₀ (Machine.execNetExport id s) :=
  .either .refused <| h.withCmd fun _ => .either h.done <| .either h.done <| .either h.done h.phase.queueCheck

theorem Keeps.netExportEnd {id} : Keeps s₀ (s.netExportEnd id) := by
  unfold State.netExportEnd
  split
  · exact h.checkDone
  · exact .either h.checkDone.complete h.checkDone.updVol.done

theorem Keeps.execNetUnexport {id} : KeepsOut s₀ (Machine.execNetUnexport id s) :=
  .either .refused <| h.withCmd fun _ => .either h.done <| .either h.done <| .either h.done <|
    .either h.done h.phase.updVol.settleExports

theorem Keeps.execTcpSyn {port ifc dport syn} : KeepsOut s₀ (Machine.execTcpSyn port ifc dport syn s) :=
  .either .refused <| .either (.next h.emit) <| .next h.free.upd.emit

theorem Keeps.execIcreq {c pfv hpda hdgst ddgst maxr2t} : KeepsOut s₀ (Machine.execIcreq c pfv hpda hdgst ddgst maxr2t s) :=
  .either .refused <| .either (.next h.fatal) <| .either (.next h.fatal) <| .next h.updConn.emit

theorem Keeps.heard {c} : Keeps s₀ (s.heard c) := .either h.upd h

theorem Keeps.capsuleIn {c cid bytes k} (hk : ∀ x, Keeps s₀ x → Keeps s₀ (k x)) : KeepsOut s₀ (s.capsuleIn c cid bytes k) :=
  .either .refused <| .either (.when_ fun _ => h.startWake) <| .either (.next h.fatal) <| .either (.next h.netBytes.heard.capsule) <|
    .next (hk _ h.netBytes.heard)

theorem Keeps.command {c cid bytes admin k} (hk : ∀ x, Keeps s₀ x → Keeps s₀ (k x)) : KeepsOut s₀ (s.command c cid bytes admin k) :=
  h.capsuleIn fun _ h => .either h.fatal <| .either h.capsule <| hk _ h

theorem Keeps.execConnect {c cid qid cntlid hostnqn subnqn prm} :
    KeepsOut s₀ (Machine.execConnect c cid qid cntlid hostnqn subnqn prm s) := by
  refine h.capsuleIn fun _ h => ?_
  refine .either h.capsule <| .either h.capsule ?_
  split
  · exact h.capsule
  · exact .capsule (.either h.updConn.upd h.updConn)

theorem Keeps.execPropertyGet {c cid ofs} : KeepsOut s₀ (Machine.execPropertyGet c cid ofs s) :=
  h.command fun _ h => by split <;> exact h.capsule

theorem Keeps.execIdentify {c cid cns nsid} : KeepsOut s₀ (Machine.execIdentify c cid cns nsid s) := by
  refine h.command fun _ h => ?_
  dsimp only
  split
  · split
    · exact h.sendData.upd.capsule
    · exact h.capsule
  · exact h.sendData.upd.capsule
  · exact h.sendData.upd.capsule
  · split
    · exact h.sendData.upd.capsule
    · exact h.capsule
  · exact h.capsule

theorem Keeps.execGetLogPage {c cid lid} : KeepsOut s₀ (Machine.execGetLogPage c cid lid s) := by
  refine h.command fun _ h => ?_
  dsimp only
  split
  · exact h.sendData.upd.capsule
  · exact h.sendData.upd.capsule
  · exact h.sendData.upd.capsule
  · exact h.capsule

theorem Keeps.execInvalidCommandOpcode {c cid op} : KeepsOut s₀ (Machine.execInvalidCommandOpcode c cid op s) :=
  .either .refused <| h.command fun _ h => h.capsule

theorem Keeps.ioCommand {c cid nsid bytes k} (hk : ∀ x y, Keeps s₀ x → Keeps s₀ (k x y)) :
    KeepsOut s₀ (s.ioCommand c cid nsid bytes k) := h.command fun _ h => by
      split
      · exact hk _ _ h
      · exact h.capsule

theorem Keeps.netCmd {c cid op bytes} : Keeps s₀ (s.netCmd c cid op bytes).1 := h.upd

theorem Keeps.execNvmeWrite {c cid nsid slba nlb capsule dataOk} :
    KeepsOut s₀ (Machine.execNvmeWrite c cid nsid slba nlb capsule dataOk s) :=
  h.ioCommand fun _ _ h => .either h.fatal <| .either h.capsule <| .either h.capsule <|
    .either (.updConn (.beginWrite (.either h.netCmd.updConn h.netCmd))) <| .beginWrite (.either h.netCmd.updConn h.netCmd)

theorem Keeps.dealloc {ctx v ranges} : Keeps s₀ (s.dealloc ctx v ranges).1 := by
  induction ranges generalizing s with
  | nil => exact h
  | cons e r ih => exact .eitherFst h (ih h.trim)

theorem Keeps.execDatasetManagement {c cid nsid ad dsm} : KeepsOut s₀ (Machine.execDatasetManagement c cid nsid ad dsm s) :=
  .either .refused <| h.ioCommand fun _ _ h => .either h.capsule <| .either h.capsule <| .either h.capsule h.netCmd.dealloc.done

theorem Keeps.endWrite {c w} : Keeps s₀ (s.endWrite c w) := h.updConn.upd

theorem Keeps.recordPieces {c cid n} : Keeps s₀ (s.recordPieces c cid n) := by
  induction n generalizing s with
  | zero => exact h
  | succ n ih =>
    unfold State.recordPieces
    split
    · exact h
    · split
      · extract_lets p st a q s1 s2 mirrored s3 s4 s5
        have appended : Keeps s₀ s2 := (Keeps.updArr h).appendWrite.meter
        have recorded : Keeps s₀ s4 := .updWrite (.either appended.plkSend appended)
        exact .either h.endWrite.done (.either (ih recorded) (.either recorded.endWrite.awaitAck recorded.endWrite.done))
      · exact h

theorem Keeps.execH2cdata {c cid ofs data hdrOk dataOk} : KeepsOut s₀ (Machine.execH2cdata c cid ofs data hdrOk dataOk s) := by
  refine .either .refused <| .either .refused <| .either (.next h.netBytes.fatal) <| .either (.next h.netBytes.fatal) ?_
  split
  · exact .next h.netBytes.fatal
  · refine .either (.next h.netBytes.fatal) <| .either (.next h.netBytes.stale) ?_
    dsimp only
    split
    · exact .either (.next h.netBytes.updWrite.recordPieces.sendR2t.pump.endWrite.setCmds.capsule.settleExports) <|
        .next h.netBytes.updWrite.recordPieces.sendR2t.pump
    · exact .next h.netBytes.updWrite.recordPieces.sendR2t.pump

/-! ### Machine/Trust.lean -/

theorem Keeps.setTrust {f} (hf : ∀ t, t.memWf → (f t).memWf) :
    Keeps s₀ (s.setTrust f) := by
  refine h.trans ⟨rfl, rfl, fun w => ?_⟩
  obtain ⟨hhost, hhbm, hstw, hflash, hrest⟩ := w
  exact ⟨hhost, hhbm, hstw, hf _ hflash, hrest⟩

theorem Keeps.keyload : Keeps s₀ s.keyload := by
  refine .either (h.free.setTrust fun _ w => w) <| .either (h.setTrust fun _ w => w) <| .either (h.setTrust fun _ w => w) ?_
  split <;> exact h.setTrust fun _ w => w

theorem Keeps.writeKeyload {v} : Keeps s₀ (s.writeKeyload v) := .either h.keyload h

theorem Keeps.writeFwAct {v} : Keeps s₀ (s.writeFwAct v) := by
  have committed : Keeps s₀ (s.setTrust Trust.commit) := h.setTrust fun _ w => w.commit
  exact .either (.setTrust (.either committed h) fun _ w => w.activate) (.either committed h)

theorem Keeps.writeMbxCmd {side r v} : Keeps s₀ (s.writeMbxCmd side r v) :=
  h.setTrust fun _ w => .either (.either w (.either (.startCmd (by exact w)) w)) (.either w w)

theorem Keeps.mbxRow {side r ofs v t} (ht : Keeps s₀ t) : KeepsOut s₀ (Machine.mbxRow s side r ofs v t) :=
  .either (.either (.next (ht.setTrust fun _ w => w)) .refused) <| h.busRow ht

theorem Keeps.writeMbxLen {side r v} : Keeps s₀ (s.writeMbxLen side r v) := h.setTrust fun _ w => .either w w

theorem Keeps.writeMbxData {side r v} : Keeps s₀ (s.writeMbxData side r v) :=
  h.setTrust fun _ w => .either w (.either w (.either (.startCmd (by exact w)) w))

theorem Keeps.readMbxData {side r} : Keeps s₀ (s.readMbxData side r).2 := by
  refine .eitherSnd h.free ?_
  split
  · exact h.setTrust fun _ w => w
  · exact h.setTrust fun _ w => w

theorem Keeps.execMbxDataRead {side r} : KeepsOut s₀ (Machine.execMbxDataRead side r s) :=
  .either .refused <| h.mbxRow h.readMbxData.emit

omit h in
theorem KeepsOut.mbxRun {cmd k} (hk : ∀ req, Keeps s₀ (k req).2.2) : KeepsOut s₀ (Machine.mbxRun s cmd k) :=
  .either (.next ((hk _).setTrust fun _ w => w)) .refused

theorem Keeps.execGetInfo : KeepsOut s₀ (Machine.execGetInfo s) :=
  .mbxRun fun req => by dsimp only; split <;> exact h

theorem Keeps.execGetCert : KeepsOut s₀ (Machine.execGetCert s) := by
  refine .mbxRun fun req => ?_
  dsimp only
  split
  · exact h
  · split <;> exact h

theorem Keeps.execAttReport : KeepsOut s₀ (Machine.execAttReport s) := by
  refine .mbxRun fun req => ?_
  split
  · exact h
  · exact h.upd

theorem Keeps.execFwStage {flashOk} : KeepsOut s₀ (Machine.execFwStage flashOk s) := by
  refine .mbxRun fun req => ?_
  dsimp only
  split
  · exact h
  · split
    · exact h
    · exact .setTrust (.either h h.upd) fun _ w => memWrite_wf w

theorem Keeps.execFwVerify : KeepsOut s₀ (Machine.execFwVerify s) := by
  refine .mbxRun fun req => ?_
  dsimp only
  split
  · exact h
  · exact h.setTrust fun _ w => w

/-! ### Machine/Resets.lean -/

theorem Keeps.powerOff : Keeps s₀ s.powerOff := by
  refine h.trans ⟨rfl, rfl, fun w => ?_⟩
  obtain ⟨hhost, -, -, hflash, -⟩ := w
  exact ⟨hhost, rfl, rfl, hflash, rfl, fun e he => (by cases he), rfl⟩

theorem Keeps.deviceReset : Keeps s₀ s.deviceReset := by
  unfold State.deviceReset
  extract_lets s1 due n
  have off : Keeps s₀ n := Keeps.powerOff (.fold h fun _ _ h => h.countTile)
  clear_value n
  exact off.updTrust rfl

theorem Keeps.startAt {step bound} : Keeps s₀ (s.startAt step bound) := h.free.upd

theorem Keeps.romStep {env} : Keeps s₀ (s.romStep env) := by
  dsimp only [State.romStep]
  exact h.upd.setTrust fun _ w => .bootChain (by exact w)

theorem Keeps.selfTestFails {fails t} : Keeps s₀ (s.selfTestFails fails t) := by
  unfold State.selfTestFails
  dsimp only
  split
  · exact h.setSpare.record
  · split
    · exact h.setSpare.setPhys.setSpare.record
    · exact h.setSpare.setPhys.record

theorem Keeps.keepOut {n} : Keeps s₀ (s.keepOut n) := by
  unfold State.keepOut
  split
  · exact h
  · split
    · split
      · exact .either h.setSpare h.setPhys.setSpare.setSpare
      · exact h.setPhys
    · exact h.setSpare
  · exact h.upd
  · exact h.upd
  · exact h.updStw
  · exact h.upd

theorem Keeps.trainLinks : Keeps s₀ s.trainLinks := h.fold fun _ _ h => h.updLink.raise

theorem Keeps.startUp {env} : Keeps s₀ (s.startUp env) := by
  unfold State.startUp
  extract_lets r hif s1 pwr s2
  have booted : Keeps s₀ r := h.romStep
  clear_value r
  have port : Keeps s₀ s1 := booted.upd
  clear_value s1
  have volts : Keeps s₀ s2 := port.upd.emit
  clear_value s2
  refine .either port.startAt ?_
  split
  · exact .either volts.startAt.upd volts
  · exact .trainLinks (.startAt (volts.fold fun _ _ h => h.selfTestFails))

theorem Keeps.powerOnGo {env} : Keeps s₀ (Machine.execPowerOnReset.go env s) := by
  dsimp only [execPowerOnReset.go]
  exact h.powerOff.upd.startUp

theorem Keeps.execPowerOnReset {env} : KeepsOut s₀ (Machine.execPowerOnReset env s) := by
  unfold Machine.execPowerOnReset
  split
  · exact .either (.next h.powerOnGo) .refused
  · exact .next h.powerOnGo

theorem Keeps.writeReset {v env} : Keeps s₀ (s.writeReset v env) := .either h.deviceReset.startUp.keepOut h

theorem Keeps.execDeviceReset {r env} : KeepsOut s₀ (Machine.execDeviceReset r env s) := by
  unfold Machine.execDeviceReset
  split
  · exact .either (h.busRow (h.gWrite fun _ h => h.writeReset)) .refused
  · exact h.busRow (h.gWrite fun _ h => h.writeReset)

theorem Keeps.execTestReset : KeepsOut s₀ (Machine.execTestReset s) := .next h

/-! ### Machine/Sdma.lean -/

theorem Keeps.updChan {c f} : Keeps s₀ (s.updChan c f) := h.upd
theorem Keeps.sdmaCheckEnd {c} : Keeps s₀ (s.sdmaCheckEnd c) := .checkDone (.either h.updChan h)
theorem Keeps.sdmaAborted {c} : Keeps s₀ (s.sdmaAborted c) := h.updChan.raise
theorem Keeps.sdmaAbortNow {c} : Keeps s₀ (s.sdmaAbortNow c) := .either h.sdmaAborted h.updChan
theorem Keeps.sdmaAbort {c} : Keeps s₀ (s.sdmaAbort c) := .either (.either h h.updChan) <| .either h.sdmaAbortNow h
theorem Keeps.sdmaResume {c} : Keeps s₀ (s.sdmaResume c) := .either h.updChan h

theorem Keeps.writeSdmaCtl {c v} : Keeps s₀ (s.writeSdmaCtl c v) :=
  .either (.either h.sdmaAbort <| .either h.sdmaResume h) <| .either h.updChan.queueCheck h.updChan

theorem Keeps.writeSdma {r c o v} : Keeps s₀ (s.writeSdma r c o v) :=
  .either h.holdWrite <| .either h.writeSdmaCtl <| .either h <| .either h.updChan <| .either h.updChan <| .either h.updChan <|
    .either h.updChan h

theorem Keeps.sdmaRow {r c v force} : KeepsOut s₀ (Machine.sdmaRow r c v force s) := .either .refused <| h.busRow h.writeSdma

theorem Keeps.execBurstStart {c request} : KeepsOut s₀ (Machine.execBurstStart c request s) :=
  .either .refused <| .either (.when_ fun _ => .either h.updChan h) <| .either (.next h.updChan) .refused

/-! ### Machine/SpdmResponder.lean -/

theorem Keeps.updSpdm {f} : Keeps s₀ (s.updSpdm f) := h.setTrust fun _ w => w
theorem Keeps.spdmRecord {q r} : Keeps s₀ (s.spdmRecord q r) := h.updSpdm

theorem Keeps.spdmChallenge {slot summary nonce} : Keeps s₀ (s.spdmChallenge slot summary nonce).2 :=
  .eitherSnd h (.eitherSnd h h.upd)

theorem Keeps.spdmMeasurements {slot index sign nonce} : Keeps s₀ (s.spdmMeasurements slot index sign nonce).2 :=
  .eitherSnd h (.eitherSnd h h.upd)

theorem Keeps.spdmAnswer {q} : Keeps s₀ (s.spdmAnswer q).2 := by
  cases q with
  | version => exact h.updSpdm
  | capabilities x m => exact .eitherSnd h (.eitherSnd h h.updSpdm)
  | algorithms e h' m => exact .eitherSnd h h.updSpdm
  | digests | certificate => exact .eitherSnd h h
  | challenge => exact .eitherSnd h h.spdmChallenge
  | measurements => exact .eitherSnd h h.spdmMeasurements
  | invalid => exact h

theorem Keeps.spdmFit {r} : Keeps s₀ (s.spdmFit r).2 := .eitherSnd h h.free.updSpdm
theorem Keeps.spdmReply {k} (hk : Keeps s₀ (k s).2) : KeepsOut s₀ (s.spdmReply k) := .either (.next hk.emit) (.next h)
theorem Keeps.spdmRequest {q} : KeepsOut s₀ (s.spdmRequest q) := h.spdmReply h.updSpdm.spdmAnswer.spdmRecord.spdmFit

theorem Keeps.execChunkSend {handle seq last data} : KeepsOut s₀ (Machine.execChunkSend handle seq last data s) := by
  refine h.spdmReply (.eitherSnd h ?_)
  split
  · exact h.updSpdm
  · exact .eitherSnd h.updSpdm.spdmAnswer.spdmRecord.spdmFit h.updSpdm

theorem Keeps.execChunkGet {handle seq} : KeepsOut s₀ (Machine.execChunkGet handle seq s) := by
  refine h.spdmReply ?_
  dsimp only
  split
  · exact h
  · exact .eitherSnd h.updSpdm h.updSpdm

/-! ### Machine/Solstice.lean -/

theorem Keeps.checkTables {p} : Keeps s₀ (s.checkTables p) := h.fold fun _ _ h => .either h.checkTable h

theorem Keeps.execPartSave {id} : KeepsOut s₀ (Machine.execPartSave id s) :=
  .either .refused <| h.partCmd fun _ _ => .either h.complete h.checkTables.hostWrite.upd.complete

theorem Keeps.execPartRestore {id} : KeepsOut s₀ (Machine.execPartRestore id s) :=
  .either .refused <| h.partCmd fun _ _ => .either h.done <| .either h.done <| .either h.done h.phase.queueCheck

theorem Keeps.placeTables {p l} : Keeps s₀ (State.placeTables s p l) := by
  induction l generalizing s with
  | nil => exact h
  | cons e r ih => exact ih (.upd (.fold h fun _ _ h => .updBank (.fold h fun _ _ h => h.putUnit)))

theorem Keeps.placeImage {p m} : Keeps s₀ (s.placeImage p m) := by
  unfold State.placeImage
  extract_lets x slotQ trust s1 part s2 s3 s4 s5 s6 s7 s8
  have keyed : Keeps s₀ s1 := h.updTrust rfl
  have taken : Keeps s₀ s2 := keyed.setPart
  have paged : Keeps s₀ s3 := .fold taken.upd fun _ _ h => h.mapPage
  have filled : Keeps s₀ s4 := .fold paged fun _ _ h => h.hbmWrite
  have planned : Keeps s₀ s5 := .fold filled fun _ _ h => h.upd
  have queued : Keeps s₀ s7 := .fold planned.placeTables fun _ _ h => h.setQueue
  exact .fold queued.genIncrement fun _ _ h => h.upd

theorem Keeps.restoreEnd {id} : Keeps s₀ (s.restoreEnd id) := by
  unfold State.restoreEnd
  split
  · exact h.checkDone
  · dsimp only
    split
    · exact h.checkDone.done
    · exact .either h.checkDone.done <| .either h.checkDone.complete h.placeImage.checkDone.updPart

/-! ### Machine/Registers.lean -/

theorem Keeps.writeGuard {r v} : Keeps s₀ (s.writeGuard r v) := .either h.badKey h.setLock
theorem Keeps.writeGlb {r o v} : Keeps s₀ (s.writeGlb r o v) := .either h.writeGuard <| .either (h.gWrite fun _ h => h.writeTileMap) h

theorem Keeps.writeClk {r o v} : Keeps s₀ (s.writeClk r o v) := by
  exact .either (h.gWrite fun _ h => h.writeDiv) <| .either h.upd <|
    .either (by
      dsimp only
      split
      · exact h.updTimer
      · exact h.writeDeadline
      · exact h.writeDeadline
      · exact h.updTimer) h

theorem Keeps.writePriv {k v} : Keeps s₀ (s.writePriv k v) := h.upd

theorem Keeps.writeEvc {r o v} : Keeps s₀ (s.writeEvc r o v) :=
  .either h.updPin <| .either h.writeSwset <| .either h.writeHack <| .either h.writeRoute <| .either h.writePriv h

theorem Keeps.writeVigil {r o v} : Keeps s₀ (s.writeVigil r o v) :=
  .either h.writeLogC <| .either h.writeUack <| .either (h.gWrite fun _ h => h.writeSvc) h

theorem Keeps.writeMtr {o v} : Keeps s₀ (s.writeMtr o v) :=
  .either (.either (h.setTrust fun _ w => w) <| .either h <| h.setTrust fun _ w => w) <| .either h <|
    .either (h.setTrust fun _ w => w) <| h.setTrust fun _ w => w

theorem Keeps.writeTrust {r o v} : Keeps s₀ (s.writeTrust r o v) :=
  .either (h.gWrite fun _ h => h.writeFwAct) <| .either (h.setTrust fun _ w => w) <| .either (h.setTrust fun _ w => w) <|
    .either (h.gWrite fun _ h => h.writeKeyload) <| .either h.writeMbxCmd <| .either h.writeMbxLen <| .either h.writeMbxData <|
    .either h.writeMtr <| .either h.writeMtrC h

theorem Keeps.writePwr {r o v} : Keeps s₀ (s.writePwr r o v) :=
  .either (h.gWrite fun _ h => h.upd.writeReset) <| .either (.either h.upd.rezone h) <| .either (.either h.upd.rezone h) <|
    .either (h.gWrite fun _ h => h.upd.writeAvs) h

theorem Keeps.writeTile {t o v} : Keeps s₀ (s.writeTile t o v) := .either h.writeNoclaim <| .either (.either h.writeCen h) h
theorem Keeps.writeCmpCtl {v} : Keeps s₀ (s.writeCmpCtl v) := h.upd

theorem Keeps.writeArc {r o v} : Keeps s₀ (s.writeArc r o v) :=
  .either h.writeMapc <| .either (h.gWrite fun _ h => h.writeDestroy) <| .either (.either h.upd h) <|
    .either (h.gWrite fun _ h => h.writeDp) h

theorem Keeps.writeHif {o v} : Keeps s₀ (s.writeHif o v) := .either (.either h h.upd) <| .either (.either h h.upd) h

theorem Keeps.writeNet {o v} : Keeps s₀ (s.writeNet o v) :=
  .either h.writeNetPort <| .either h.upd <| .either h.upd <| .either h.writeTsPop <| .either h.writeNetIf h

theorem Keeps.writePlk {r o v} : Keeps s₀ (s.writePlk r o v) :=
  .either h.writeLink <| .either h.upd <| .either h.writeMirror <| .either h.writeBinding h

theorem Keeps.writeWindow {ofs v} : Keeps s₀ (s.writeWindow ofs v) := h.putUnit

theorem Keeps.writeBlock {r b o v} : Keeps s₀ (s.writeBlock r b o v) :=
  .either h.writeGlb <| .either h.writeClk <| .either h.writeEvc <| .either (.either h.writeSdma h) <| .either h.writeVigil <|
    .either h.writeTrust <| .either h.writePwr <| .either h.writeTile <| .either (.either h.writeOwner h) <|
    .either (.either h.writeCmpCtl h) <| .either h.writeArc <| .either h.writeHif <| .either h.writeNet <| .either h.writePlk h

theorem Keeps.writeBar0 {r ofs v} : Keeps s₀ (s.writeBar0 r ofs v) := by
  unfold State.writeBar0
  split
  · exact h.writeBlock
  · exact .either h.reserved <| .either h.writeWindow <| .either h.writeQ <| .either h.writePart h.writeBlock

theorem Keeps.writePvEven {p v} : Keeps s₀ (s.writePvEven p v) := .either h.setPart.msix h.setPart
theorem Keeps.writeVf {p ofs v} : Keeps s₀ (s.writeVf p ofs v) := .either h.reserved <| .either h.writePvEven h

theorem Keeps.writeBar2 {r ofs v} : Keeps s₀ (s.writeBar2 r ofs v) := by
  unfold State.writeBar2
  dsimp only
  split
  · exact h.reserved
  · exact .either h.reserved <| .either h.doorbell <| .either h.consume <| .either h h.pushBytes

theorem Keeps.busWrite {r sp ofs v} : Keeps s₀ (s.busWrite r sp ofs v) := by
  unfold State.busWrite
  split
  · exact h.writeVf
  · exact h.writeBar0
  · exact h.writeBar2

theorem Keeps.rcClear {ofs again} : KeepsOpt s₀ (s.rcClear ofs again) :=
  .either (.some h.upd) <| .either (.some h.upd) <| .either (.some h.upd) <| .either (.some h.upd) <| .either (.some h.upd) <|
    .either (.either (.some (h.updTile (by simp))) <| .either (.some h.setCp) <| .either (.some h.setCp) .none) <|
    .either (.some h.upd) <| .either (.some h.upd) <| .either (.some h.updArr) <| .either (.some h.updPort) .none

theorem Keeps.rcClearVf {p ofs again} : KeepsOpt s₀ (s.rcClearVf p ofs again) :=
  .either (.some h.updPart) <| .either (.some h.updPart) .none

theorem Keeps.execRcClearingRead {r off again} : KeepsOut s₀ (Machine.execRcClearingRead r off again s) := by
  refine .either .refused ?_
  split
  · exact .refused
  · exact .next h.reserved
  next t _ e =>
    have cleared : Keeps s₀ t := by
      split at e
      · exact h.rcClearVf t e
      · exact h.rcClear t e
    exact .next (.emit (.either cleared h))

theorem Keeps.lowRead {r ofs d} : Keeps s₀ (s.lowRead r ofs d) := h.upd.emit

theorem Keeps.execCounterLowRead {r off} : KeepsOut s₀ (Machine.execCounterLowRead r off s) :=
  .either .refused <| by
    split
    · exact .refused
    · exact .next (.either h.reserved h.lowRead)

theorem Keeps.execClkAlmLoRead {r} : KeepsOut s₀ (Machine.execClkAlmLoRead r s) := by
  refine .either .refused ?_
  split
  · exact .next h.lowRead
  · exact .next (.either h.lowRead h.reserved)

theorem Keeps.voted {α : Type} [DecidableEq α] {t : Tri α} {ofs ctx action status repair act} (hrepair : ∀ x, Keeps s₀ (repair x))
    (hact : ∀ x, Keeps s₀ x → Keeps s₀ (act x)) : Keeps s₀ (s.voted t ofs ctx action status repair act) := by
  unfold State.voted
  split
  · exact h
  · exact .record (hrepair _)
  · exact hact _ h.record

theorem Keeps.stopPart {p} : Keeps s₀ (s.stopPart p) :=
  .either h.updPart.genIncrement <| .startReset (.fold (h.fold fun _ _ h => h.failRun) fun _ _ h => h.done)

theorem Keeps.stopArr {a} : Keeps s₀ (s.stopArr a) := .either h <| h.writeLabels.updArr.fold fun _ _ h => h.done
theorem Keeps.stopQueue {q} : Keeps s₀ (s.stopQueue q) := h.updQueue

theorem Keeps.execTriplicatedFieldVote {f} : KeepsOut s₀ (Machine.execTriplicatedFieldVote f s) := by
  cases f with
  | guard => exact .next (h.voted (fun _ => h.upd) fun _ h => h.setLock)
  | tileMap => exact .when_ fun _ => h.voted (fun _ => h.upd) fun _ h => h.resetRequired
  | pdiv => exact .next (h.voted (fun _ => h.upd) fun _ h => h.resetRequired)
  | partEn | partKsrc | partPageMax | partQmax | partWcMax => exact .when_ fun _ => h.voted (fun _ => h.updPart) fun _ h => h.stopPart
  | queueCtx | queueSlot => exact .when_ fun _ => h.voted (fun _ => h.updQueue) fun _ h => h.stopQueue
  | bankOwner => exact .when_ fun _ => h.voted (fun _ => h.updBank) fun _ h => h
  | arrGeom | arrPos => exact .when_ fun _ => h.voted (fun _ => h.updArr) fun _ h => h.stopArr

theorem Keeps.routeEnd {src} : Keeps s₀ (s.routeEnd src) := .checkDone (.either h.updRoute h)

theorem Keeps.endCheck {n} : Keeps s₀ (s.endCheck n) := by
  unfold State.endCheck
  split
  · exact h.partEnableEnd
  · exact h
  · exact h.partFieldEnd
  · exact h.queueCheckEnd
  · exact h.astCreateEnd
  · exact h.arrCreateEnd
  · exact h.arrImportEnd
  · exact h.arrSetEnd
  · exact h.arrReshapeEnd
  · exact h.arrRebuildEnd
  · exact h.volCreateEnd
  · exact h.volResizeEnd
  · exact h.netSubsysEnd
  · exact h.netExportEnd
  · exact h.restoreEnd
  · exact h.bindingEnd
  · exact h.mirrorEnd
  · exact h.sdmaCheckEnd
  · exact h.routeEnd

theorem Keeps.replayHeld {b} : Keeps s₀ (s.replayHeld b) := h.updCcr.fold fun _ _ h => h.inOrder h.busWrite

theorem Keeps.execConsistencyCheckComplete {b} : KeepsOut s₀ (Machine.execConsistencyCheckComplete b s) := by
  unfold Machine.execConsistencyCheckComplete
  split
  · exact .refused
  · exact .refused
  · exact .either .refused <| .next h.endCheck.replayHeld
  · exact .next h.endCheck.replayHeld

theorem Keeps.genReported {p} : Keeps s₀ (s.genReported p) := .either h.partEnabled.replayHeld <| by
  split
  · exact h.updPart.done
  · exact h

theorem Keeps.execGenerationIncrementReport {p} : KeepsOut s₀ (Machine.execGenerationIncrementReport p s) :=
  .either (.next h.setPart.genReported) .refused

/-! ### Machine/SdmaMove.lean -/

theorem Keeps.burstFails {c a wr} : Keeps s₀ (s.burstFails c a wr) := .either h.sdmaAbortNow <| .either h.updChan h.updChan.raise

theorem Keeps.burstDone {c n} : Keeps s₀ (s.burstDone c n) :=
  .either h.updChan.sdmaAbortNow <| .either h.updChan.updChan h.updChan.updChan

theorem Keeps.sdmaRegs {l bs} : Keeps s₀ (s.sdmaRegs l bs).1 := by
  induction l generalizing s bs with
  | nil => exact h
  | cons o r ih => exact .eitherFst h (ih h.writeBar0)

theorem Keeps.stwWrite {a bs} : Keeps s₀ { s with stwMem := memWrite s.stwMem a bs } := by
  refine h.trans ⟨rfl, rfl, fun w => ?_⟩
  obtain ⟨hhost, hhbm, hstw, hrest⟩ := w
  exact ⟨hhost, hhbm, memWrite_wf hstw, hrest⟩

theorem Keeps.sdmaWrite {space a fix bs r} (e : s.sdmaWrite space a fix bs = r) : Keeps s₀ r.1 := by
  subst e
  exact .eitherFst h.hostWrite (.eitherFst (.eitherFst h.hbmWrite h) (.eitherFst h.stwWrite h.sdmaRegs))

theorem Keeps.execBurstComplete {c res wr} : KeepsOut s₀ (Machine.execBurstComplete c res wr s) := by
  refine .either .refused (.either (.next h.free.burstFails) ?_)
  split
  · exact .next h.burstFails
  · split
    next e => exact .next (h.sdmaWrite e).burstFails
    next e => exact .next (h.sdmaWrite e).burstDone

theorem Keeps.execReadbackComplete {c res} : KeepsOut s₀ (Machine.execReadbackComplete c res s) :=
  .either .refused <| .next (.either (.either h.sdmaAborted <| .either h.updChan.raise h.updChan) <| .either h.updChan h.updChan.raise)

/-! ### Machine/Time.lean -/

theorem Keeps.sclk : Keeps s₀ s.sclk := .either h <| .either h.setLock h.setLock
theorem Keeps.stewardEdges : Keeps s₀ s.stewardEdges := h.fold fun _ _ h => h.stwSclk
theorem Keeps.tick : Keeps s₀ s.tick := .linkTick (.either h.upd.sclk.pinSclk.stewardEdges h.upd)

/-! ### The dispatch -/

/-- Whatever command is executed. -/
theorem Keeps.exec {i} : KeepsOut s₀ (Machine.exec i s) := by
  unfold Machine.exec
  cases i with
  | registerWrite => exact .when_ fun _ => h.inOrder h.busWrite
  | reservedAccess => exact .when_ fun _ => h.reserved
  | rcClearingRead => exact h.execRcClearingRead
  | counterLowRead => exact h.execCounterLowRead
  | clkAlmLoRead => exact h.execClkAlmLoRead
  | glbGuardWrite => exact h.busRow h.writeGuard
  | guardExpiry => exact h.timeout h.setLock
  | triplicatedFieldVote => exact h.execTriplicatedFieldVote
  | consistencyCheckComplete => exact h.execConsistencyCheckComplete
  | generationIncrementReport => exact h.execGenerationIncrementReport
  | loadPlan => exact h.execLoadPlan
  | unloadPlan => exact h.execUnloadPlan
  | runPlan => exact h.execRunPlan
  | cancelPlan => exact h.execCancelPlan
  | runTimeout => exact h.execRunTimeout
  | morselClaim => exact h.execMorselClaim
  | morselComplete => exact h.execMorselComplete
  | materialisationComplete => exact h.execMaterialisationComplete
  | materialisationError => exact h.execMaterialisationError
  | storeCommit => exact h.execStoreCommit
  | storePlace => exact h.execStorePlace
  | exchangeRows => exact h.execExchangeRows
  | exchangeEndMarker => exact h.execExchangeEndMarker
  | exchangeAbortMarker => exact h.execExchangeAbortMarker
  | noclaimWrite => exact h.execNoclaimWrite
  | stagingFillComplete => exact .when_ fun _ => h.setCp.updTile (by simp)
  | kernelWatchdogExpiry => exact h.timeout h.kernelFail
  | rangeOperationComplete => exact h.execRangeOperationComplete
  | cacheDisableFlush => exact h.execCacheDisableFlush
  | cacheEnable => exact h.execCacheEnable
  | illegalInstruction => exact h.execIllegalInstruction
  | add | sub | mul | mulh | mulhu | div | divu | rem | remu | and | or | xor | shl | shr | sar | rotl | slt | sltu | min | max | minu
  | maxu | clz | ctz | popc | addo | subo | mulo => exact h.scalarInt
  | sext | zext | fcvti | fcvtf | fcvtp | fma | nop => exact h.cpStep
  | addi | andi | ori | xori | shli | shri | sari | slti => exact h.scalarImm
  | lui | vcfg => exact h.cpRun fun _ _ ht => ht.legal ht
  | fadd | fsub | fmul | fdiv | fsqrt | fmin | fmax | feq | flt | fle => exact h.scalarFp
  | lb | lh | lw | ld | lbu | lhu | lwu => exact h.loadG
  | sb | sh | sw | sd => exact h.cpRun fun _ _ ht => ht.scalarStore
  | beq | bne | blt | bge | bltu | bgeu => exact h.branchIf
  | jmp | jal | jr => exact h.cpRun fun _ _ ht => ht
  | vld | vlds => exact h.vecLoad
  | vldx => exact h.execVldx
  | vldff => exact h.execVldff
  | vst | vsts => exact h.vecStore
  | vstx => exact h.execVstx
  | halt => exact h.execHalt
  | fence => exact h.cpRun fun _ _ ht => .either trivial ht
  | rdsr => exact h.execRdsr
  | wrsr => exact h.cpRun fun _ _ ht => .either ht (.either ht ht)
  | trap => exact h.execTrap
  | dcz => exact h.execDcz
  | dcl => exact h.execDcl
  | dci => exact h.execDci
  | dcci => exact h.execDcci
  | dlock => exact h.execDlock
  | dunlock => exact h.cpRun fun _ _ ht => ht.lineOp fun _ => ht
  | rngc | rngi | rngci | rngiIncludeLocked | rngciIncludeLocked => exact h.rangeOp
  | vredsum | vredmin | vredmax | vredminu | vredmaxu | vfredsum | vfredmin | vfredmax => exact h.vecRed
  | vget | vins | viota | vcompress | vperm | vslup | vsldn | vmerge | vnarh | vbfly => exact h.cpRunV fun _ _ ht => ht.vecOk ht
  | vadd | vsub | vmul | vmulh | vmulhu | vdiv | vdivu | vrem | vremu | vand | vor | vxor | vshl | vshr | vsar | vrotl | vmin | vmax
  | vminu | vmaxu | vadds | vsubs | vaddsu | vsubsu | vaddo | vsubo | vmulo => exact h.vecBin
  | vmv | pfromg => exact h.cpRunV fun _ _ ht => ht.legal (ht.vecOk ht)
  | vsexth | vzexth => exact h.vecWiden
  | vpopc | vclz | vfsqrt | vfabs | vfneg | vcvtfi | vcvtif | vcvtuf | vcvtds | vcvtsd | vcabs2 => exact h.vecUn
  | ceq | cne | clt | cle | cgt | cge | cltu | cleu | cgtu | cgeu | cfeq | cflt | cfle | cfun | cftlt => exact h.vecCmp
  | vbeq | vbrng | vpat => exact h.vecPat
  | vpatm => exact h.execVpatm
  | vfadd | vfsub | vfmul | vfdiv | vfmin | vfmax | vfma | vfnms | vcmul | vcmulc | vcmac | vcmacc | vcadd | vcsub | vgfmul | vgfmac =>
    exact h.vecTri
  | pand | por | pxor | pandn | pnot | pset | pclr | pmov => exact h.predLogic
  | pcnt | pfirst => exact h.predToG
  | pldb => exact h.execPldb
  | pstb => exact h.execPstb
  | astoreOwnerWrite => exact h.execAstoreOwnerWrite
  | bankClearComplete => exact h.execBankClearComplete
  | astCreate => exact h.execAstCreate
  | astDestroy => exact h.execAstDestroy
  | astLoad => exact h.execAstLoad
  | astInsert => exact h.execAstInsert
  | astDelete => exact h.execAstDelete
  | astSearch => exact h.execAstSearch
  | astRespread => exact h.execAstRespread
  | respreadStep => exact h.execRespreadStep
  | astRead => exact h.execAstRead
  | emberCheck => exact .when_ fun _ => h.upd.checkUnit
  | directWindowAccess => exact h.execDirectWindowAccess
  | cmpDeflate | cmpInflate => exact h.cmpCommand
  | cmpJobStart => exact h.execCmpJobStart
  | cmpJobComplete => exact h.execCmpJobComplete
  | mbrAttach => exact h.execMbrAttach
  | mbrDetach => exact h.execMbrDetach
  | arrCreate => exact h.execArrCreate
  | arrImport => exact h.execArrImport
  | replayEnd => exact h.execReplayEnd
  | arrStop => exact h.execArrStop
  | arrDrainComplete => exact h.execArrDrainComplete
  | arrSet => exact h.execArrSet
  | volCreate => exact h.execVolCreate
  | volDestroy => exact h.volAdmin (fun _ _ _ h => h.updVol) fun _ _ _ h => h.dropVol
  | volResize => exact h.execVolResize
  | volOwner => exact h.volAdmin (fun _ _ _ h => h) fun _ _ _ h => h.updVol.writeSys
  | volRead => exact h.execVolRead
  | volWrite => exact h.execVolWrite
  | volFlush => exact h.execVolFlush
  | volWriteZeroes | volDealloc => exact h.withCmd fun _ => h.trimBegin
  | writeCacheReserve => exact h.execWriteCacheReserve
  | memberCommandTimeout => exact h.timeout (.either h.emit.emit h.emit.emit.failMember)
  | memberCommandCompletion => exact h.execMemberCommandCompletion
  | memberLinkDown => exact h.execMemberLinkDown
  | stripeOpen => exact h.execStripeOpen
  | stripeCloseTimeout => exact h.execStripeCloseTimeout
  | stripeCommit => exact h.execStripeCommit
  | stripeFree => exact h.execStripeFree
  | harvest => exact h.execHarvest
  | leafReadComplete => exact h.execLeafReadComplete
  | mapCheckpoint => exact h.execMapCheckpoint
  | arcMapcWrite => exact h.busRow h.writeMapc
  | arcDestroyGo => exact h.busRow (h.gWrite fun _ h => h.writeDestroy)
  | arcDpWrite => exact h.execArcDpWrite
  | arrRebuildStart => exact h.execArrRebuildStart
  | arrRebuildPause | arrRebuildResume => exact h.rebuildCmd fun _ _ => h.rebuildTo
  | rebuildCursorStep => exact h.execRebuildCursorStep
  | arrReshape => exact h.execArrReshape
  | reshapeStep => exact h.execReshapeStep
  | reshapeFinish => exact h.execReshapeFinish
  | arrLostlist => exact h.execArrLostlist
  | arrVaultInfo => exact h.execArrVaultInfo
  | freeze => exact h.execFreeze
  | vaultSeal => exact h.execVaultSeal
  | vfEnableSet => exact h.execVfEnableSet
  | vfFunctionLevelReset => exact .when_ fun _ => h.updFunc.resetIfOn
  | hostPortReset => exact h.execHostPortReset
  | perstRelease | flush2Start | rootPllRelock | timeSourceAbsent => exact .when_ fun _ => h.upd
  | functionD3hotEntry => exact .when_ fun _ => h.free.updFunc
  | functionD0Return => exact h.execFunctionD0Return
  | busMasterEnableClear => exact .when_ fun _ => h.updFunc
  | busMasterEnableSet => exact .when_ fun _ => h.updFunc.fnResume
  | vectorUnmask => exact h.execVectorUnmask
  | sqEnable | cqEnable | sqDisable | cqDisable => exact h.writeQrow
  | producerDoorbell => exact .when_ fun _ => h.inOrder (h.inWindow fun _ => h.doorbell)
  | pushWrite => exact h.execPushWrite
  | completionConsumerWrite => exact .when_ fun _ => h.inOrder (h.inWindow fun _ => h.consume)
  | entryFetch => exact h.execEntryFetch
  | sqFetchError => exact .when_ fun _ => h.fetchError
  | moderationTimeout => exact .when_ fun _ => h.cqThreshold
  | startTimeout => exact h.execStartTimeout
  | hostReadTimeout => exact h.execHostReadTimeout
  | devPstate => exact h.execDevPstate
  | pstateEntryComplete => exact h.execPstateEntryComplete
  | pstateEntryTimeout => exact h.timeout (.pstateDone (.either h.upd.leavePs1 h.upd))
  | wakeComplete => exact h.execWakeComplete
  | netSubsysEnable => exact h.execNetSubsysEnable
  | netSubsysDisable => exact h.execNetSubsysDisable
  | netExport => exact h.execNetExport
  | netUnexport => exact h.execNetUnexport
  | arpRequest => exact .when_ fun _ => h.emit
  | tcpSyn => exact h.execTcpSyn
  | tcpRstOrFin => exact .when_ fun _ => h.closeConn
  | icreq => exact h.execIcreq
  | h2ctermreq => exact .when_ fun _ => h.netBytes.closeConn.emit
  | h2cdata => exact h.execH2cdata
  | connect => exact h.execConnect
  | propertyGet => exact h.execPropertyGet
  | propertySet => exact h.command fun _ h => .either h.upd.capsule h.capsule
  | identify => exact h.execIdentify
  | getLogPage => exact h.execGetLogPage
  | keepAlive => exact h.command fun _ h => h.capsule
  | keepAliveTimeout => exact h.timeout (.upd (h.fold fun _ _ h => h.dropConn.emit))
  | nvmeRead => exact h.ioCommand fun _ _ h => h.netCmd.beginRead
  | nvmeWrite => exact h.execNvmeWrite
  | nvmeFlush => exact h.ioCommand fun _ _ h => h.netCmd.done
  | nvmeWriteZeroes => exact h.ioCommand fun _ _ h => h.netCmd.trimBegin
  | datasetManagement => exact h.execDatasetManagement
  | ptpEventMessage => exact h.execPtpEventMessage
  | netLinkChange => exact h.execNetLinkChange
  | netTsPop => exact h.busRow h.writeTsPop
  | netPortWrite => exact h.execNetPortWrite
  | partitionEnable => exact h.execPartitionEnable
  | partitionDisable => exact h.execPartitionDisable
  | hbmAlloc => exact h.execHbmAlloc
  | hbmFree => exact h.execHbmFree
  | memCopy => exact h.execMemCopy
  | partReset | partRelease => exact h.partCmd fun _ _ => h.phase.startReset
  | partitionResetComplete => exact h.execPartitionResetComplete
  | partFreeze => exact h.partCmd fun _ _ => h.phase.updPart.pauseRuns
  | freezeComplete => exact .when_ fun _ => h.frozen
  | partSave => exact h.execPartSave
  | partRestore => exact h.execPartRestore
  | partThaw => exact h.execPartThaw
  | fixedSlotStart => exact h.execFixedSlotStart
  | fixedSlotEnd => exact .when_ fun _ => h.updPart
  | millisecondBoundary => exact .when_ fun _ => h.countTo
  | calends => exact h.execCalends
  | meterBatchWrite => exact h.execMeterBatchWrite
  | trustMtrCWrite => exact h.busRow h.writeMtrC
  | pvEvenWrite => exact h.execPvEvenWrite
  | edgeEvent => exact .when_ fun _ => h.raise
  | levelSourceAssert => exact h.execLevelSourceAssert
  | pinFilterExpiry => exact h.execPinFilterExpiry
  | handlerEntry => exact h.execHandlerEntry
  | eret => exact h.execEret
  | pf0EventMessage => exact h.execPf0EventMessage
  | evcHackWrite => exact h.busRow h.writeHack
  | evcSwsetWrite => exact h.busRow h.writeSwset
  | evcRouteEnable => exact h.execEvcRouteEnable
  | sdmaGo | sdmaAbort | sdmaResume => exact h.sdmaRow
  | burstStart => exact h.execBurstStart
  | burstComplete => exact h.execBurstComplete
  | readbackComplete => exact h.execReadbackComplete
  | sdmaArmedTimeout => exact h.timeout h.updChan.raise
  | linkTrainingComplete => exact h.execLinkTrainingComplete
  | linkTrainingTimeout => exact h.timeout (.either h.setLink h.setLink)
  | linkFlitTimeout => exact .when_ fun _ => h.setLink
  | laneErrorRate => exact .when_ fun _ => h.setLink.record
  | plkRetrain => exact h.execPlkRetrain
  | plkOfflWrite => exact h.execPlkOfflWrite
  | peerBindingEnable => exact h.execPeerBindingEnable
  | bindingMessage => exact h.execBindingMessage
  | generationUpdateMessage => exact h.execGenerationUpdateMessage
  | generationUpdateAck => exact h.execGenerationUpdateAck
  | plkMirrorEnable | plkMirrorDisable | plkMirrorRelease => exact h.busRow h.writeMirror
  | mirrorWriteMessage => exact .when_ fun _ => h.upd.noteRecs.plkSend
  | mirrorAck => exact h.execMirrorAck
  | mirrorAckTimeout => exact h.timeout h.mirrorBreak
  | partnerCopyRequest => exact h.execPartnerCopyRequest
  | timeExchange => exact h.execTimeExchange
  | tsyncPulse | timeSourceFirstEdge => exact .when_ fun _ => h.upd.emit
  | tsyncEdge => exact h.execTsyncEdge
  | almanacStartTimeout => exact h.timeout h.upd
  | tileFault => exact .when_ fun _ => h.tileFaultAt
  | heartbeatMiss => exact h.execHeartbeatMiss
  | sparePlaced => exact h.execSparePlaced
  | glbTileMapWrite => exact h.execGlbTileMapWrite
  | swapComplete => exact h.execSwapComplete
  | vigilSvcOut | vigilSvcTest | vigilSvcIn => exact h.svcRow
  | serviceActionComplete => exact h.execServiceActionComplete
  | vigilUackWrite => exact h.busRow h.writeUack
  | vigilLogCWrite => exact h.busRow h.writeLogC
  | checkerSelfTest => exact h.execCheckerSelfTest
  | resetRequiredFault => exact .when_ fun _ => h.record.resetRequired
  | trustKeyloadGo => exact h.busRow (h.gWrite fun _ h => h.writeKeyload)
  | trustFwActGo | trustFwActCommit => exact h.busRow (h.gWrite fun _ h => h.writeFwAct)
  | mbxCmdWrite => exact h.mbxRow h.writeMbxCmd
  | mbxDataWrite => exact h.mbxRow h.writeMbxData
  | mbxDataRead => exact h.execMbxDataRead
  | mailboxSidebandTimeout => exact h.timeout (h.setTrust fun _ w => w)
  | getInfo => exact h.execGetInfo
  | getCert => exact h.execGetCert
  | attReport => exact h.execAttReport
  | fwStage => exact h.execFwStage
  | fwVerify => exact h.execFwVerify
  | getVersion | getCapabilities | negotiateAlgorithms | getDigests | getCertificate | challenge | getMeasurements => exact h.spdmRequest
  | chunkSend => exact h.execChunkSend
  | chunkGet => exact h.execChunkGet
  | powerOnReset => exact h.execPowerOnReset
  | deviceReset => exact h.execDeviceReset
  | testReset => exact h.execTestReset
  | pllLockLoss => exact .when_ fun _ => h.upd.record.resetRequired
  | clkDivWrite => exact h.busRow (h.gWrite fun _ h => h.writeDiv)
  | clkTrimWrite => exact h.busRow h.upd
  | stewardTimerFire => exact h.timeout h.updTimer.raisePriv
  | clkTmrDlWrite => exact h.execClkTmrDlWrite
  | pwrAvsWrite => exact h.busRow (h.gWrite fun _ h => h.writeAvs)
  | avsConfirmTimeout => exact h.timeout h.upd.record.emit
  | temperatureSample => exact h.execTemperatureSample
  | throttleStep => exact h.execThrottleStep
  | engineFault => exact h.execEngineFault
  | pinRawLevelChange => exact .when_ fun _ => h.updPin
  | partnerMirrorMessage => exact h.execPartnerMirrorMessage
  | unsupportedPdu => exact .when_ fun _ => h.fatal
  | invalidCommandOpcode => exact h.execInvalidCommandOpcode
  | tcpSegmentChecksumError | uncorrectableFecCodeword => exact .when_ fun _ => h.updPort

end

/-- Settles O58: every command keeps the queue's rest, the part and the memories' form, and so does the tick of an empty queue. -/
theorem keepsMemories : Obligations.KeepsMemories := by
  intro s t e
  unfold step at e
  split at e
  next hp =>
    cases e
    obtain ⟨hpending, hvariant, hmem⟩ := (Keeps.refl s).tick
    exact ⟨by rw [hpending, hp]; rfl, hvariant, hmem⟩
  next c rest hp =>
    obtain ⟨hpending, hvariant, hmem⟩ := (Keeps.refl { s with pending := rest }).exec t e
    exact ⟨by rw [hpending, hp]; rfl, hvariant, hmem⟩

end Sys2Proof.Machine
end
